-- ==== Sys2Proof/Word.lean ====
section
/-! DEFINITION. The word types of the hardware: the 32-bit register word (R6) and the byte. -/

namespace Sys2Proof

/-- A BAR0 register word (R6). -/
abbrev Word := BitVec 32

/-- A byte. -/
abbrev Byte := BitVec 8

end Sys2Proof
end

