-- ==== Sys2Proof/Syntax.lean ====
section
/-! DEFINITION. The commands of the block: one constructor per row of spec/opcode_table.json, with what the row
brings from outside as its operands. A time `t` is the core-clock count at which the row happens (R10). -/

namespace Sys2Proof

/-- What an engine found and measured (R279, R280): how it came to it is Lembile firmware's matter (R14). -/
structure Finding where
  /-- 0 LOW, 1 MISS, 2 POS, 3 STREAK, 4 RECOVER. -/
  kind   : Fin 5
  eng    : BitVec 2
  frame  : BitVec 32
  /-- The nozzle entry, where the engine tells one. -/
  entry  : Option (BitVec 17)
  /-- First web line. -/
  line   : BitVec 40
  /-- Downsampled pixel, and how far from its column centre the centre of the dash or streak lies, signed, in 1/256 column. -/
  pix    : BitVec 14
  off    : BitVec 16
  /-- Density error, signed, 1/256 contone. -/
  mag    : BitVec 16
  conf   : BitVec 8
  /-- Extent in web lines. -/
  extent : BitVec 32
  /-- What the thresholds are held against, signed: the shortfall in 1/256 of the median of the head (an excess is negative); for POS
  the displacement in 1/16 column; for STREAK the difference in channel units. -/
  size   : BitVec 16
  /-- The change of TRIM that the engine asks for, signed. -/
  step   : BitVec 9
  /-- Bits 36 to 0 of the entries that the measurement read (R283). -/
  seen   : List (BitVec 17 × BitVec 37)
  deriving DecidableEq, Repr

/-- The service pins as one of them changes, or as a press of SERVICE_N completes (R370, R412, R414, R434). -/
structure ServicePins where
  /-- The core-clock count. -/
  t     : Nat
  /-- SERVICE_N is low. -/
  low   : Bool
  /-- It has now been low for 10 ms: a press. -/
  press : Bool
  /-- WRSEAL_N is high: the seal jumper is removed. -/
  wrseal : Bool
  deriving DecidableEq, Repr

/-- What a Cord frame's header brings beside its ring and its originator (R300): the hop count, with the link that it came on counted,
and the sequence number. -/
structure HopSeq where
  hops : Fin 128
  seq  : BitVec 8
  deriving DecidableEq, Repr

/-- A head port whose pair of observed lines changes, and the level to which it goes (R171). -/
structure PairLevel where
  port : Fin 64
  up   : Bool
  deriving DecidableEq, Repr

/-- The header of a frame of the twin link: its sequence number, and the last one that its sender has received (R318). -/
structure LinkHdr where
  seq : BitVec 8
  ack : BitVec 8
  deriving DecidableEq, Repr

/-- An ENTRIES frame: the last sequence number that its sender has received, and its line entries (R318, R319). -/
structure EntryFrame where
  ack     : BitVec 8
  entries : List (BitVec 96)
  deriving DecidableEq, Repr

/-- What the pins show at a step of a reset release: the straps, and whether the five rails have each passed 90 % of nominal (R374, R427). -/
structure ReleasePins where
  straps : BitVec 6
  rails  : Bool
  deriving DecidableEq, Repr

/-- The supplies as VMAIN has been good for 1 ms: VBACK, and whether every other rail has recovered (R360, R427). -/
structure Supplies where
  vback : Bool
  rails : Bool
  deriving DecidableEq, Repr

/-- The trailer of a return as it is sampled, and in MONITOR the level at which the received SCK pair rests between bursts (R171, R182). -/
structure Trailer where
  bits : BitVec 8
  sck  : Bool
  deriving DecidableEq, Repr

/-- A level at a filtered input, and on how many samples in a row the input, or the channel that it is part of, has shown its levels
(R206). -/
structure Level where
  up : Bool
  n  : BitVec 8
  deriving DecidableEq, Repr

/-- Where a write goes: BAR0 (space 0), the PCI configuration space (1, R46), Hearth's private SRAM (2, R397) or what Hearth holds of the
head memories (3, R189: port times 8,192 plus the offset), and the offset there. -/
structure WritePlace where
  sp  : Fin 4
  off : BitVec 22
  deriving DecidableEq, Repr

/-- Where a read goes: BAR0 (space 0), BAR2 (1) or the PCI configuration space (2), and the offset there. -/
structure ReadPlace where
  sp  : Fin 4
  off : BitVec 26
  deriving DecidableEq, Repr

/-- The commands. -/
inductive Instr where
  /-- DOORBELL_POLL (R53). -/
  | doorbellPoll (t : Nat)
  /-- SUMMARY_READ_DONE (R53). -/
  | summaryReadDone (t : Nat) (ok : Bool) (line : BitVec 512)
  /-- PRODUCER_READ_DONE (R53). -/
  | producerReadDone (ok : Bool) (words : BitVec 4096)
  /-- DFETCH (R73). -/
  | dfetch (st : Fin 128) (poisoned : Bool)
  /-- BAND (R100). -/
  | band (st : Fin 128) (raw : BitVec 256)
  /-- MARK (R91). -/
  | mark (st : Fin 128) (raw : BitVec 256)
  /-- FENCE (R92). -/
  | fence (st : Fin 128) (raw : BitVec 256)
  /-- TABLE (R93). -/
  | table (st : Fin 128) (raw : BitVec 256)
  /-- STRIP (R94). -/
  | strip (st : Fin 128) (raw : BitVec 256)
  /-- SCHEDULE_EVENT (R95). -/
  | scheduleEvent (st : Fin 128) (raw : BitVec 256)
  /-- BADOPC (R80). -/
  | badopc (st : Fin 128) (raw : BitVec 256)
  /-- TABLE_RECORD_READ_DONE (R93). -/
  | tableRecordReadDone (st : Fin 128) (ok : Bool) (data : List (BitVec 128))
  /-- BAND_ADMITTED (R108). -/
  | bandAdmitted (st : Fin 128)
  /-- BAND_DATA_READ_ISSUE (R58). -/
  | bandDataReadIssue (st : Fin 128) (len : BitVec 13)
  /-- BAND_DATA_ARRIVAL (R100). -/
  | bandDataArrival (st : Fin 128) (ok : Bool) (data : List (BitVec 9))
  /-- ARM (R61). -/
  | arm (raw : BitVec 256)
  /-- DISARM (R62). -/
  | disarm (raw : BitVec 256)
  /-- DISARM_COMPLETE (R62). -/
  | disarmComplete
  /-- RESTART (R63). -/
  | restart (raw : BitVec 256)
  /-- SKIP (R63). -/
  | skip (raw : BitVec 256)
  /-- STATUS (R60). -/
  | status (raw : BitVec 256)
  /-- NOP (R60). -/
  | nop (raw : BitVec 256)
  /-- BADCMD (R60). -/
  | badcmd (raw : BitVec 256)
  /-- COMMAND_READ_FAILED (R60). -/
  | commandReadFailed
  /-- HELD_COMPLETIONS_WRITTEN (R66). -/
  | heldCompletionsWritten
  /-- STATUS_PERIOD_END (R74). -/
  | statusPeriodEnd (t : Nat) (load : Fin 101) (backlog : BitVec 8) (low : Bool)
  /-- BUS_MASTER_ENABLE_CHANGE (R49). -/
  | busMasterEnableChange (on : Bool)
  /-- CQ_ENABLE_WRITE (R67). -/
  | cqEnableWrite (q : Fin 8) (v : BitVec 32)
  /-- STREAM_ENABLE_WRITE (R79). -/
  | streamEnableWrite (st : Fin 128) (v : BitVec 32)
  /-- ENABLE (R39). -/
  | enable
  /-- DISABLE (R39). -/
  | disable
  /-- HOLD (R39). -/
  | hold
  /-- RELEASE (R39). -/
  | release
  /-- SET_DELAY (R40). -/
  | setDelay
  /-- SET_XOFS (R39). -/
  | setXofs
  /-- SET_DIROFS (R39). -/
  | setDirofs
  /-- SET_POLICY (R40). -/
  | setPolicy
  /-- TRIM_RAMP (R39). -/
  | trimRamp
  /-- BADOP (R40). -/
  | badop
  /-- UNIT_OPERATION_EFFECT (R39). -/
  | unitOperationEffect (h : Fin 64)
  /-- ENTRIES (R167). -/
  | entries
  /-- MASKED (R167). -/
  | masked
  /-- CURVE (R160). -/
  | curve
  /-- MATRIX (R161). -/
  | matrix
  /-- MTXSEL (R167). -/
  | mtxsel
  /-- TABLE_PORT_WAIT_END (R140). -/
  | tablePortWaitEnd
  /-- NZT_WINDOW_WRITE (R164). -/
  | nztWindowWrite (t : Nat) (a : BitVec 20) (len : Fin 5) (v : BitVec 32)
  /-- NZT_LATCH_TIMEOUT (R164). -/
  | nztLatchTimeout (t : Nat)
  /-- CURVE_MATRIX_WINDOW_WRITE (R159). -/
  | curveMatrixWindowWrite (t : Nat) (a : BitVec 20) (len : Fin 5) (v : BitVec 32)
  /-- NZT_QUERY (R156). -/
  | nztQuery (key : BitVec 18) (byEntry : Bool)
  /-- NZT_SCAN_START (R157). -/
  | nztScanStart
  /-- NZT_SCAN_DONE (R157). -/
  | nztScanDone
  /-- NZT_RELOAD_READ (R170). -/
  | nztReloadRead
  /-- STOKER_FETCH (R113). -/
  | stokerFetch (h : Fin 64)
  /-- REFETCH_DONE (R387). -/
  | refetchDone (q y : Nat) (ok : Bool) (data : List (BitVec 9))
  /-- LINE_SCREEN (R123). -/
  | lineScreen
  /-- EMBREQ_BURST (R147). -/
  | embreqBurst
  /-- FIRE (R177). -/
  | fire (t : Nat) (h : Fin 64)
  /-- BURST_START (R177). -/
  | burstStart (t : Nat) (h : Fin 64) (ash : BitVec 64)
  /-- LAT (R177). -/
  | lat (t : Nat) (h : Fin 64)
  /-- LATCH_DEADLINE (R178). -/
  | latchDeadline (t : Nat) (h : Fin 64)
  /-- DELAYED_FIRE (R234). -/
  | delayedFire (t : Nat) (h : Fin 64)
  /-- FLUSH_BURST (R181). -/
  | flushBurst (t : Nat) (h : Fin 64)
  /-- RETURN_CHECK (R191). -/
  | returnCheck (t : Nat) (h : Fin 64) (bits : BitVec 1024) (trailer : Trailer)
  /-- RETST_FAULT_CLEAR (R192). -/
  | retstFaultClear (h : Fin 64) (v : BitVec 32)
  /-- MODE_HANDOVER (R183). -/
  | modeHandover (t : Nat) (h : Fin 64)
  /-- MONITOR_LAT_OBSERVED (R184). -/
  | monitorLatObserved (t : Nat) (h : PairLevel)
  /-- HPT_TRAIN_START (R185). -/
  | hptTrainStart (h : Fin 64)
  /-- TRAINING_DONE (R187): the returns of every burst that training has still to give. `c1` to `c3` hold the trailers of the three bursts at
  each coarse setting, a byte each, setting 0 lowest, `f1` to `f3` those at each fine setting; `w0` to `w3` what step 4's bursts return, the
  word of the chain below its trailer; `verify` the same of step 6's bursts, the first one lowest. -/
  | trainingDone (t : Nat) (h : Fin 64) (c1 c2 c3 : BitVec 512) (f1 f2 f3 : BitVec 4096) (w0 w1 w2 w3 : BitVec 24) (verify : BitVec 96)
  /-- PRBS_BURST (R190). -/
  | prbsBurst (t : Nat) (h : Fin 64)
  /-- PRBS_RETURN_CHECK (R190). -/
  | prbsReturnCheck (t : Nat) (h : Fin 64) (bits : BitVec 1024) (trailer : BitVec 8)
  /-- TEMP_POLL (R198). -/
  | tempPoll (t : Nat) (b : Fin 8)
  /-- TEMP_READ_DONE (R200). -/
  | tempReadDone (t : Nat) (h : Fin 64) (ok : Bool) (v : BitVec 16)
  /-- TEMP_STALE (R200). -/
  | tempStale (t : Nat) (h : Fin 64)
  /-- BUS_CLEAR (R199). -/
  | busClear (t : Nat) (b : Fin 8)
  /-- HEAD_MEMORY_PAGE_WRITE (R197). -/
  | headMemoryPageWrite (t : Nat) (ok : Bool)
  /-- ENCODER_TRANSITION (R205). -/
  | encoderTransition (t : Nat) (c : Fin 3) (a : Bool) (b : Level)
  /-- REWIND (R220). -/
  | rewind
  /-- STILL_TIMEOUT (R217). -/
  | stillTimeout (t : Nat)
  /-- SPEED_DECAY_UPDATE (R218). -/
  | speedDecayUpdate (t : Nat)
  /-- POS_CTL_WRITE (R204). -/
  | posCtlWrite (v : BitVec 32)
  /-- RESYNC (R209). -/
  | resync (m : BitVec 3)
  /-- RETRUST (R210). -/
  | retrust
  /-- POS_SNAP (R221). -/
  | posSnap (t : Nat)
  /-- POS_LO_READ (R212). -/
  | posLoRead (k : Fin 6)
  /-- ENCO_CLAIM (R223). -/
  | encoClaim (claim : Bool) (src : Fin 8) (hearth : Bool)
  /-- SOS_EDGE (R238). -/
  | sosEdge (t : Nat) (n : Fin 2) (lvl : Level)
  /-- SPLICE_REQUEST (R251). -/
  | spliceRequest
  /-- DRIVE_READY_CHANGE (R251). -/
  | driveReadyChange (low : Bool)
  /-- START_TO_IDLE (R253). -/
  | startToIdle
  /-- STOP_SETTLED (R253). -/
  | stopSettled (t : Nat)
  /-- BACK_TARGET_REACHED (R254). -/
  | backTargetReached
  /-- WAIT_TO_APPROACH (R253). -/
  | waitToApproach (t : Nat)
  /-- APPROACH_TO_IDLE (R260). -/
  | approachToIdle
  /-- SPLICE_FAULT (R258). -/
  | spliceFault (t : Nat)
  /-- DEMAND_SLEW_STEP (R248). -/
  | demandSlewStep (t : Nat)
  /-- CAMERA_FRAME_START (R265). -/
  | cameraFrameStart (t : Nat) (c : Fin 2) (vc : BitVec 2)
  /-- CAMERA_LINE (R265). -/
  | cameraLine (t : Nat) (c : Fin 2) (vc : BitVec 2) (dt : BitVec 6) (err : Fin 3) (pixels : List (BitVec 12))
  /-- CAMERA_FRAME_END (R265). -/
  | cameraFrameEnd (t : Nat) (c : Fin 2) (vc : BitVec 2)
  /-- SPILL_REPLAY (R274). -/
  | spillReplay (t : Nat) (ash : Bool)
  /-- FRAME_COMPLETE (R275). -/
  | frameComplete (t : Nat) (c : Fin 2)
  /-- TRIGGER_PULSE (R266). -/
  | triggerPulse (t : Nat) (c : Fin 2)
  /-- INSPECTION_BATCH (R282). -/
  | inspectionBatch (t : Nat) (c : Fin 2) (busy : BitVec 4) (backlog : BitVec 16) (finds : List Finding) (measured : Option (BitVec 32)) (rows : List (Fin 128 × BitVec 38))
  /-- CAM_ENABLE (R266). -/
  | camEnable (c : Fin 2) (v : BitVec 32)
  /-- CAM_FFDATA_ACCESS (R286). -/
  | camFfdataAccess (t : Nat) (c : Fin 2) (wr : Option (BitVec 32))
  /-- TIM_SET (R291). -/
  | timSet (t : Nat) (b : Fin 4) (v : BitVec 32)
  /-- TIM_ADJ (R291). -/
  | timAdj (t : Nat) (b : Fin 4) (v : BitVec 32)
  /-- TIM_SNAP (R293). -/
  | timSnap (t : Nat)
  /-- TIM_FRCLO_READ (R294). -/
  | timFrcloRead (t : Nat)
  /-- CLR (R294). -/
  | frcClr (t : Nat)
  /-- EVT_OWNER_WRITE (R296). -/
  | evtOwnerWrite (n : Fin 8) (o : Fin 8) (hearth : Bool)
  /-- GO (R297). -/
  | evtGo (t : Nat) (n : Fin 8)
  /-- STOP (R297). -/
  | evtStop (n : Fin 8)
  /-- EVT_PULSE_START (R297). -/
  | evtPulseStart (t : Nat) (n : Fin 8)
  /-- EVT_PULSE_END (R297). -/
  | evtPulseEnd (t : Nat) (n : Fin 8)
  /-- CORD_LINK_CHANGE (R299). -/
  | cordLinkChange (l : Fin 2) (up : Bool)
  /-- DISCOVER (R302). -/
  | discover (t : Nat) (r : Fin 2) (hd : HopSeq) (mine crossed : Bool) (a : Fin 64) (expect : BitVec 7)
  /-- DISCOVER_PROBE_TIMER (R301). -/
  | discoverProbeTimer (t : Nat)
  /-- PROBE (R303). -/
  | probe (l : Fin 2)
  /-- REPLY (R303). -/
  | reply (l : Fin 2) (rtt turn : BitVec 24)
  /-- SYNC_TIMER (R304). -/
  | syncTimer (t : Nat)
  /-- SYNC (R305). -/
  | sync (t : Nat) (r : Fin 2) (hd : HopSeq) (a : Fin 64) (time : BitVec 32) (frac : BitVec 16)
  /-- HOLDOVER (R305). -/
  | holdover (t : Nat)
  /-- OREQ (R306). -/
  | oreq (t : Nat) (r : Fin 2) (hd : HopSeq) (a : Fin 64) (job : BitVec 32)
  /-- OREQ_TIMER (R306). -/
  | oreqTimer (t : Nat)
  /-- OSNAP (R306). -/
  | osnap (t : Nat) (r : Fin 2) (hd : HopSeq) (a : Fin 64) (job w : BitVec 32) (map : BitVec 64)
  /-- ORIGIN_SNAPSHOT_DUE (R306). -/
  | originSnapshotDue (t : Nat)
  /-- ORIGIN (R306). -/
  | origin (r : Fin 2) (hd : HopSeq) (a : Fin 64) (job w : BitVec 32) (line : BitVec 40) (frac : BitVec 24) (valid : Bool)
  /-- BCAST (R308). -/
  | bcast (r : Fin 2) (hd : HopSeq) (a : Fin 64) (msg : BitVec 128) (map : BitVec 64)
  /-- CRD_BSEND_GO (R308). -/
  | crdBsendGo (t : Nat)
  /-- CRD_BPOP (R308). -/
  | crdBpop
  /-- ENTER (R309). -/
  | barrierEnter (id : BitVec 8)
  /-- GATHER (R309). -/
  | gather (r : Fin 2) (hd : HopSeq) (a : Fin 64) (id : BitVec 8) (map : BitVec 64) (mm : Bool)
  /-- RELEASE_FRAME (R309). -/
  | releaseFrame (r : Fin 2) (hd : HopSeq) (a : Fin 64) (id : BitVec 8) (mm : Bool)
  /-- CRD_SCHED_GO (R310). -/
  | crdSchedGo (t : Nat) (v : BitVec 32)
  /-- SCHED (R310). -/
  | sched (t : Nat) (r : Fin 2) (hd : HopSeq) (a : Fin 64) (kind : BitVec 2) (w : BitVec 32) (map : BitVec 64)
  /-- SCHEDULED_ACTION_DUE (R310). -/
  | scheduledActionDue (t : Nat)
  /-- CORD_FRAME_LOST (R311). -/
  | cordFrameLost (t : Nat) (isSched : Bool)
  /-- CRD_ENABLE_WRITE (R309). -/
  | crdEnableWrite (v : BitVec 32)
  /-- TRNREP (R307). -/
  | trnrep (t : Nat) (r : Fin 2) (hd : HopSeq) (a : Fin 64) (job : BitVec 32) (armed : Bool) (g : Fin 257) (causes : BitVec 7) (back : BitVec 40) (ready : Bool)
  /-- TRNREP_TIMER (R307). -/
  | trnrepTimer (t : Nat)
  /-- TRNREP_TIMEOUT (R307). -/
  | trnrepTimeout (t : Nat) (a : Fin 64)
  /-- TRNSTATE (R307). -/
  | trnstate (t : Nat) (r : Fin 2) (hd : HopSeq) (a : Fin 64) (q : Fin 8) (count : BitVec 32)
  /-- TRNSTATE_TIMER (R307). -/
  | trnstateTimer (t : Nat)
  /-- TRNSTATE_TIMEOUT (R307). -/
  | trnstateTimeout (t : Nat)
  /-- HELLO (R319). -/
  | hello (t : Nat) (ack : BitVec 8) (role : Fin 6) (ready : Bool) (reason : BitVec 4) (strap : BitVec 2) (primed armed : Bool) (digest : BitVec 32) (serial : BitVec 64)
  /-- HELLO_TIMER (R319). -/
  | helloTimer (t : Nat) (done : Bool)
  /-- ENTRIES_FRAME (R331). -/
  | entriesFrame (t : Nat) (es : EntryFrame)
  /-- PROPOSE (R326). -/
  | propose (t : Nat) (seq : LinkHdr) (purpose : Fin 6) (mask : BitVec 64) (prop : BitVec 40) (arg : BitVec 32)
  /-- AGREE (R326). -/
  | agree (t : Nat) (seq : LinkHdr) (purpose : Fin 6) (a : BitVec 40)
  /-- AGREE_TIMEOUT (R326). -/
  | agreeTimeout (t : Nat)
  /-- EMBRES (R333). -/
  | embres (t : Nat) (seq : LinkHdr) (line : BitVec 40) (cmp fail : BitVec 16)
  /-- THERM (R325). -/
  | therm (t : Nat) (seq : LinkHdr) (p : Fin 64) (over_ : Bool)
  /-- BATCH (R325). -/
  | batch (t : Nat) (seq : LinkHdr) (e : BitVec 40) (ws : List (BitVec 128))
  /-- BATCHRES (R325). -/
  | batchres (t : Nat) (seq : LinkHdr) (codes : List (BitVec 8))
  /-- HEADREC (R325). -/
  | headrec (t : Nat) (seq : LinkHdr) (p : Fin 64) (off : BitVec 13) (data : BitVec 1024)
  /-- JOIN (R339). -/
  | join (t : Nat)
  /-- JOIN_FRAME (R339). -/
  | joinFrame (t : Nat) (seq : LinkHdr) (seed jobid cons : BitVec 32) (ws : List (BitVec 96))
  /-- RELEASED (R335). -/
  | released (t : Nat) (seq : LinkHdr) (mask : BitVec 64)
  /-- RSTREQ (R333). -/
  | rstreq (t : Nat) (seq : LinkHdr)
  /-- TWIN_FRAME_RESEND (R319). -/
  | twinFrameResend (t : Nat)
  /-- TWIN_LINK_CHANGE (R318). -/
  | twinLinkChange (t : Nat) (up : Bool) (lanes : BitVec 2) (rtt : BitVec 16)
  /-- TWIN_ALIVE_EDGE (R320). -/
  | twinAliveEdge (t : Nat)
  /-- PALIVE_DEAD (R320). -/
  | paliveDead (t : Nat)
  /-- ALIVE_TOGGLE (R320). -/
  | aliveToggle (t : Nat)
  /-- CONFIRM_TIMEOUT (R335). -/
  | confirmTimeout (t : Nat)
  /-- TAKEOVER (R336). -/
  | takeover (t : Nat)
  /-- RETURN (R340). -/
  | twinReturn (t : Nat)
  /-- CONFIG_DIGEST_DONE (R324). -/
  | configDigestDone (t : Nat)
  /-- OVERRIDE_ACTIVE (R342). -/
  | overrideActive (t : Nat)
  /-- OVERRIDE_STANDBY (R342). -/
  | overrideStandby (t : Nat)
  /-- OVERRIDE_OUT (R342). -/
  | overrideOut (t : Nat)
  /-- TRIM_SLEW_STEP (R346). -/
  | trimSlewStep (t : Nat) (n : Fin 68)
  /-- TRM_CEIL_WRITE (R348). -/
  | trmCeilWrite (j : Fin 3) (v : BitVec 32)
  /-- TRM_AUX_WRITE (R349). -/
  | trmAuxWrite (k : Fin 3) (v : BitVec 32) (hearth : Bool)
  /-- MONITOR_CONVERSION (R352). -/
  | monitorConversion (t : Nat) (v : BitVec 16)
  /-- OTP_TRIM_LOAD_DONE (R351). -/
  | otpTrimLoadDone (ok : Bool)
  /-- POWER_FAIL_WARNING (R360). -/
  | powerFailWarning (t : Nat) (rail vback : Bool)
  /-- CHANGEOVER (R357). -/
  | changeover (t : Nat) (vback : Bool)
  /-- VMAIN_GOOD (R360). -/
  | vmainGood (t : Nat) (vback : Supplies)
  /-- AONPOR (R359). -/
  | aonpor (t : Nat) (vback : Bool)
  /-- PWR_REQ_RUN (R367). -/
  | pwrReqRun (t : Nat) (v : BitVec 32)
  /-- PWR_REQ_READY (R368). -/
  | pwrReqReady (t : Nat) (v : BitVec 32)
  /-- PWR_REQ_SMOULDER (R369). -/
  | pwrReqSmoulder (t : Nat) (v : BitVec 32)
  /-- MOTION_WAKE (R370). -/
  | motionWake (t : Nat)
  /-- SERVICE_N_PRESS (R410): a change of the service pins, a press of SERVICE_N among them. -/
  | serviceNPress (p : ServicePins)
  /-- D3HOT (R371). -/
  | d3hot (t : Nat)
  /-- D0_RETURN (R371). -/
  | d0Return (t : Nat)
  /-- REFLOSS (R365). -/
  | refloss (t : Nat)
  /-- AON_TRIM (R366). -/
  | aonTrim (t : Nat) (ppm : BitVec 16)
  /-- PERST (R372). -/
  | perst (t : Nat)
  /-- HOTRST (R372). -/
  | hotrst (t : Nat)
  /-- RESETN (R372). -/
  | resetn (t : Nat)
  /-- WDOG (R372). -/
  | wdog (t : Nat)
  /-- SYS_RESET (R379). -/
  | sysReset (t : Nat) (v : BitVec 32)
  /-- RESET_DELAY_END (R375). -/
  | resetDelayEnd (t : Nat)
  /-- RESET_RELEASE_STEP (R373). -/
  | resetReleaseStep (t : Nat) (straps : ReleasePins)
  /-- PLL_LOCK (R373). -/
  | pllLock (t : Nat) (ok : Bool)
  /-- SRAM_FILL_DONE (R373). -/
  | sramFillDone (t : Nat)
  /-- DRAM_TRAINING_DONE (R373). -/
  | dramTrainingDone (t : Nat) (store : Fin 3)
  /-- DRAMOK (R26). -/
  | dramok (t : Nat)
  /-- RST_BLKRST (R377). -/
  | rstBlkrst (t : Nat) (v : BitVec 32)
  /-- SCRUB_STEP (R390). -/
  | scrubStep (t : Nat) (mem : Fin 2) (region : Fin 9) (a : BitVec 35) (flips : BitVec 72)
  /-- MERGE_COMMIT (R389). -/
  | mergeCommit (t : Nat) (mem : Fin 3)
  /-- ECC_FLIPCTL_WRITE (R393). -/
  | eccFlipctlWrite (v : BitVec 32) (hearth : Bool)
  /-- IMAGE_VERIFY_DONE (R402). -/
  | imageVerifyDone (t : Nat) (sigs : BitVec 2) (ok : Bool) (a b : Option (List (BitVec 8)))
  /-- SVC_BOOT_GO (R404). -/
  | svcBootGo (t : Nat)
  /-- VERSION (R407). -/
  | version (t : Nat)
  /-- HEADREAD (R407). -/
  | headread (t : Nat)
  /-- RANKWRITE (R407). -/
  | rankwrite (t : Nat)
  /-- FLASHWRITE (R407). -/
  | flashwrite (t : Nat)
  /-- OTPPROG (R407). -/
  | otpprog (t : Nat)
  /-- GOLDEN (R407). -/
  | golden (t : Nat)
  /-- RETRAIN (R407). -/
  | retrain (t : Nat)
  /-- MAILBOX_BADCMD (R408). -/
  | mailboxBadcmd (t : Nat)
  /-- MAILBOX_COMMAND_END (R406). -/
  | mailboxCommandEnd (t : Nat) (wrseal sig ok : Bool) (data : List (BitVec 8))
  /-- SVC_ARM (R410). -/
  | svcArm (t : Nat) (v : BitVec 32)
  /-- AUTHORISATION_LAPSE (R410). -/
  | authorisationLapse (t : Nat)
  /-- REGISTER_WRITE (R6). -/
  | registerWrite (t : Nat) (a : WritePlace) (len : Fin 9) (v : BitVec 64) (hearth : Bool)
  /-- CLEARING_READ (R7). -/
  | clearingRead (t : Nat) (a : ReadPlace) (len : Fin 9)
  /-- BAR2_WINDOW_WRITE (R121). -/
  | bar2WindowWrite (t : Nat) (off : BitVec 26) (len : Fin 9) (v : BitVec 64)
  /-- MONITOR_FIRE_OBSERVED (R328). -/
  | monitorFireObserved (t : Nat) (h : PairLevel)
  /-- ENCODER_INDEX_CHANGE (R214). -/
  | encoderIndexChange (c : Fin 3) (z : Level)
  /-- CORD_FRAME_DROPPED (R300). -/
  | cordFrameDropped
  /-- TWIN_FRAME_DROPPED (R318). -/
  | twinFrameDropped
  /-- TIME_BASE_SLEW_END (R291). -/
  | timeBaseSlewEnd (t : Nat) (b : Fin 4)
  /-- SMOULDER_RETURN_COMPLETE (R369). -/
  | smoulderReturnComplete (t : Nat)
  /-- COLUMN_MAP_REBUILD_DONE (R386). -/
  | columnMapRebuildDone
  /-- ENTRIES_SEND_TIMER (R319). -/
  | entriesSendTimer (t : Nat)
  deriving DecidableEq, Repr

end Sys2Proof
end

