-- ==== Sys2Proof/Config.lean ====
section
/-! DEFINITION. What an implementation fixes and the spec leaves open: the free values. Each is an opaque constant
without a body, so no proof can see what it is (log entry 5). -/

namespace Sys2Proof.Config

/-- A value the spec leaves undefined, drawn afresh for each use: the argument is the counter State.freeCtr. -/
opaque freeWord : Nat → BitVec 64

/-- What the device itself has put into the store, as it reads at an address that the spec does not tie to it: the arguments are the counter
and the word's number (log entry 37). -/
opaque freeStore : Nat → Nat → BitVec 64

/-- The core clocks for which Hearth's bring-up runs the PRBS test of a port: its configuration sets them (R189, log entry 55). -/
opaque prbsRun : Nat

end Sys2Proof.Config
end

