-- ==== Sys2Proof/Machine/Bits.lean ====
section
/-! DEFINITION. Bit fields, signed readings, byte order and cyclic codes that several blocks share. -/

namespace Sys2Proof.Machine

/-- Bits `lo + w - 1` to `lo` of a number. -/
def bitsOf (v lo w : Nat) : Nat := (v >>> lo) % 2 ^ w

/-- Bit `i` of a number. -/
def bitAt (v i : Nat) : Bool := v.testBit i

/-- A truth value as a bit. -/
def b2n (b : Bool) : Nat := if b then 1 else 0

/-- The `w`-bit number `v` read as two's complement. -/
def signed (w v : Nat) : Int :=
  let u := v % 2 ^ w
  if u < 2 ^ (w - 1) then (u : Int) else (u : Int) - (2 ^ w : Nat)

/-- An integer as a `w`-bit two's complement number. -/
def unsign (w : Nat) (i : Int) : Nat := (i % ((2 ^ w : Nat) : Int)).toNat

/-- An integer kept inside the signed range of `w` bits by wrapping. -/
def wrapS (w : Nat) (i : Int) : Int := signed w (unsign w i)

/-- Saturating sum of two counts at `2 ^ w - 1`. -/
def satAdd (w a b : Nat) : Nat := min (a + b) (2 ^ w - 1)

/-- Round up division. -/
def ceilDiv (a b : Nat) : Nat := if b = 0 then 0 else (a + (b - 1)) / b

/-- `n` bytes of `v`, least significant first (R4). -/
def leBytes : Nat → Nat → List Byte
  | 0, _ => []
  | n + 1, v => BitVec.ofNat 8 v :: leBytes n (v / 256)

/-- The number that bytes spell, least significant first (R4). -/
def leNat : List Byte → Nat
  | [] => 0
  | b :: bs => b.toNat + 256 * leNat bs

/-- Replace bits `lo + w - 1` to `lo` of a register word by the low bits of `x`. -/
def putBits (v : Word) (lo w x : Nat) : Word :=
  let m := BitVec.ofNat 32 ((2 ^ w - 1) <<< lo)
  (v &&& ~~~m) ||| (BitVec.ofNat 32 ((x % 2 ^ w) <<< lo))

/-- The bit mask of the enabled bytes `off` to `off + len - 1` of a word (R6). -/
def byteMask (off len : Nat) : Word := BitVec.ofNat 32 ((2 ^ (8 * len) - 1) <<< (8 * off))

/-- One step of the reflected CRC-32 with polynomial EDB88320h over one byte. -/
def crcBits : Nat → Word → Word
  | 0, c => c
  | n + 1, c => crcBits n (if c.getLsbD 0 then (c >>> 1) ^^^ 0xEDB88320#32 else c >>> 1)

/-- CRC-32 of a byte string, continued from the register value `c`. -/
def crcFeed : Word → List Byte → Word
  | c, [] => c
  | c, b :: bs => crcFeed (crcBits 8 (c ^^^ (b.zeroExtend 32))) bs

/-- CRC-32 with all-ones start and a final complement. -/
def crc32 (bs : List Byte) : Word := ~~~(crcFeed 0xFFFFFFFF#32 bs)

/-- `List.range` from `lo`, `n` long. -/
def countUp (lo n : Nat) : List Nat := (List.range n).map (· + lo)

/-- Does a predicate hold of some number below `n`? -/
def anyBelow (n : Nat) (p : Nat → Bool) : Bool := (List.range n).any p

/-- Replace the first element that satisfies `p`. -/
def replaceFirst {α : Type} (p : α → Bool) (f : α → α) : List α → List α
  | [] => []
  | a :: l => if p a then f a :: l else a :: replaceFirst p f l

end Sys2Proof.Machine
end

