-- ==== Sys2Proof/Machine/SMap.lean ====
section
/-! DEFINITION. Sparse storage: a list of key and value pairs in one canonical form, keys strictly rising and no
pair whose value is what an unlisted key reads as. Registers, memories, tables and per-instance contexts are
held so, and equal contents are equal data. -/

namespace Sys2Proof.Machine

/-- Key and value pairs; `d k` is what key `k` reads as when it is not listed. -/
abbrev SMap (α : Type) := List (Nat × α)

/-- What key `k` reads as. -/
def SMap.get {α : Type} (d : Nat → α) : SMap α → Nat → α
  | [], k => d k
  | (k', v) :: m, k => if k = k' then v else SMap.get d m k

/-- Put `v` under key `k`, keeping the canonical form: the value an unlisted key reads as removes the pair. -/
def SMap.set {α : Type} [DecidableEq α] (d : Nat → α) : SMap α → Nat → α → SMap α
  | [], k, v => if v = d k then [] else [(k, v)]
  | (k', v') :: m, k, v =>
    if k < k' then (if v = d k then (k', v') :: m else (k, v) :: (k', v') :: m)
    else if k = k' then (if v = d k then m else (k, v) :: m)
    else (k', v') :: SMap.set d m k v

/-- Remove every pair whose key satisfies `p`, so those keys read as unlisted ones do. -/
def SMap.drop {α : Type} (p : Nat → Bool) (m : SMap α) : SMap α := m.filter (fun kv => !p kv.1)

/-- Canonical form: every listed value differs from the unlisted reading, and keys rise strictly from `lo`. -/
def SMap.wfFrom {α : Type} [DecidableEq α] (d : Nat → α) : Nat → SMap α → Bool
  | _, [] => true
  | lo, (k, v) :: m => decide (lo ≤ k) && decide (v ≠ d k) && SMap.wfFrom d (k + 1) m

/-- Canonical form of a whole map. -/
def SMap.wf {α : Type} [DecidableEq α] (d : Nat → α) (m : SMap α) : Bool := SMap.wfFrom d 0 m

end Sys2Proof.Machine
end

