-- ==== Sys2Proof/Machine/CfgMap.lean ====
section
/-! DEFINITION. The PCI configuration space of the endpoint (R2, R46 to R48, R50): what each 32-bit word reads after reset, which
bits a write sets or clears, and which words the spec leaves open. The spec names the header's contents, the capabilities and a
few of their fields; the offsets of the capabilities and the fields that carry no rule of the spec follow the PCI Express base
specification (log entry 7). -/

namespace Sys2Proof.Machine

def CFG_SUB : Nat := 0x2C      -- Subsystem Vendor ID and Subsystem ID
def CFG_CMD : Nat := 0x04      -- command and status
def CFG_BAR0 : Nat := 0x10
def CFG_BAR2 : Nat := 0x18
def CFG_PMCSR : Nat := 0x44    -- power management control and status
def CFG_DEVCTL : Nat := 0x50   -- device control and status
def CFG_DEVCTL2 : Nat := 0x70  -- device control 2: the Completion Timeout Value
def CFG_UNC : Nat := 0x104     -- AER uncorrectable error status
def CFG_UNCMASK : Nat := 0x108
def CFG_UNCSEV : Nat := 0x10C
def CFG_COR : Nat := 0x110     -- AER correctable error status
def CFG_AERCTL : Nat := 0x118
def CFG_DSN : Nat := 0x14C     -- device serial number, two words

/-- The words that do not read 0 after reset, with what they read. -/
def cfgWords : List (Nat × Nat) := [
  (0x00, 0x64201C5E), (CFG_CMD, 0x00100000), (0x08, 0x0B400010), (CFG_BAR0, 0x4), (CFG_BAR2, 0xC), (CFG_SUB, 0x00001C5E),
  (0x34, 0x40), (0x40, 0x00034801), (CFG_PMCSR, 0x8), (0x48, 0x00020010), (0x4C, 0x8022), (CFG_DEVCTL, 0x2100), (0x54, 0x885), (0x6C, 0x803),
  (0x100, 0x14820001), (CFG_UNCSEV, 0x62010), (0x114, 0x2000), (0x148, 0x15810003), (0x158, 0x18010019), (0x180, 0x19010025),
  (0x190, 0x1C010026), (0x1C0, 0x1F01002A), (0x1F0, 0x22010027), (0x220, 0x2301001E), (0x230, 0x00010018)]

/-- What the word at offset `a` reads after reset: BAR1, BAR3 to BAR5, the Expansion ROM BAR and the Interrupt Pin read 0. -/
def cfgReset (a : Nat) : BitVec 32 :=
  match cfgWords.find? (fun w => w.1 == a) with
  | some w => BitVec.ofNat 32 w.2
  | none => 0#32

/-- The bits of the word at `a` that a write sets: Memory Space, Bus Master, parity and SERR enables, cache line size, the
BARs' address bits (R50: 4 MiB and 64 MiB), interrupt line, power state, error reporting, Max Payload and Max Read Request Size,
Completion Timeout Value, and the AER masks and severity. -/
def cfgRw (a : Nat) : BitVec 32 :=
  if a = CFG_CMD then 0x146#32 else if a = 0x0C then 0xFF#32 else if a = CFG_BAR0 then 0xFFC00000#32
  else if a = CFG_BAR2 then 0xFC000000#32 else if a = 0x3C then 0xFF#32 else if a = CFG_PMCSR then 0x3#32
  else if a = CFG_DEVCTL then 0x71EF#32 else if a = CFG_DEVCTL2 then 0x40F#32
  else if a = CFG_UNCMASK ∨ a = CFG_UNCSEV then 0x17F010#32 else if a = 0x114 then 0x31C1#32 else 0#32

/-- The status bits of the word at `a` that a 1 clears. -/
def cfgW1c (a : Nat) : BitVec 32 :=
  if a = CFG_CMD then 0xF9000000#32 else if a = CFG_DEVCTL then 0xF0000#32
  else if a = CFG_UNC then 0x17F010#32 else if a = CFG_COR then 0x31C1#32 else 0#32

/-- Words of the capabilities whose contents the spec leaves open: they read a free value (log entry 5). -/
def cfgOpen (a : Nat) : Bool :=
  (decide (0x58 ≤ a) && decide (a < 0x6C)) || (decide (0x74 ≤ a) && decide (a < 0x84)) ||
  (decide (0x11C ≤ a) && decide (a < 0x148)) || (decide (0x15C ≤ a) && decide (a < 0x180)) ||
  (decide (0x184 ≤ a) && decide (a < 0x190)) || (decide (0x194 ≤ a) && decide (a < 0x1C0)) ||
  (decide (0x1C4 ≤ a) && decide (a < 0x1F0)) || (decide (0x1F4 ≤ a) && decide (a < 0x220)) ||
  (decide (0x224 ≤ a) && decide (a < 0x230)) || (decide (0x234 ≤ a) && decide (a < 0x238))

end Sys2Proof.Machine
end

