-- ==== Sys2Proof/Machine/RegMap.lean ====
section
/-! DEFINITION. The BAR0 register map: every register's address, its fields, and one row per register that says
how many instances it has, what it resets to and which of its bits have which access type. Written from the
register tables of the chapters (R25, R26, R44, R45, R78, R79, R122, R150, R170, R201, R202, R225, R243, R261,
R285, R286, R313, R314, R341, R355, R379 to R381, R395, R414) and the index of R416 to R421. -/

namespace Sys2Proof.Machine

/-- One field of a register: the register's BAR0 offset, the field's lowest bit and its width in bits. -/
structure Fld where
  addr  : Nat
  lo    : Nat
  width : Nat
  deriving DecidableEq, Repr

/-- One register of the map (R417): its first address, how many instances, their spacing, its reset value, and
the masks of its RW, W1C, W1S, WO, RC and reserved bits (R5, R7); a bit in no mask is RO. -/
structure RegRow where
  base   : Nat
  count  : Nat
  stride : Nat
  reset  : Nat
  rw     : Nat
  w1c    : Nat
  w1s    : Nat
  wo     : Nat
  rc     : Nat
  res    : Nat
  deriving DecidableEq, Repr

/-! Addresses. A register repeated per instance takes the instance number. -/

abbrev SYS_ID : Nat := 0x0
abbrev SYS_CAPS : Nat := 0x4
abbrev UNT_CTL (n : Nat) : Nat := 0x30000 + 128 * n
abbrev UNT_DWOFS (n : Nat) : Nat := 0x30004 + 128 * n
abbrev UNT_XOFS (n : Nat) : Nat := 0x30008 + 128 * n
abbrev UNT_DIROFS (n : Nat) : Nat := 0x3000c + 128 * n
abbrev UNT_THERM (n : Nat) : Nat := 0x30010 + 128 * n
abbrev UNT_TRIM (n : Nat) : Nat := 0x30014 + 128 * n
abbrev UNT_SLEW (n : Nat) : Nat := 0x30018 + 128 * n
abbrev UNT_BIND (n : Nat) : Nat := 0x3001c + 128 * n
abbrev UNT_EFFCTL (n : Nat) : Nat := 0x30020 + 128 * n
abbrev UNT_EFFDW (n : Nat) : Nat := 0x30024 + 128 * n
abbrev UNT_EFFX (n : Nat) : Nat := 0x30028 + 128 * n
abbrev UNT_EFFTRIM (n : Nat) : Nat := 0x3002c + 128 * n
abbrev UNT_LASTLO (n : Nat) : Nat := 0x30030 + 128 * n
abbrev UNT_LASTHI (n : Nat) : Nat := 0x30034 + 128 * n
abbrev UNT_ERR : Nat := 0x34000
abbrev HIF_CTL : Nat := 0x10000
abbrev HIF_DBLO : Nat := 0x10004
abbrev HIF_DBHI : Nat := 0x10008
abbrev HIF_STATLO : Nat := 0x1000c
abbrev HIF_STATHI : Nat := 0x10010
abbrev HIF_POLLPER : Nat := 0x10014
abbrev HIF_STATPER : Nat := 0x10018
abbrev HIF_POLLERR : Nat := 0x10020
abbrev HIF_RTT : Nat := 0x10024
abbrev HIF_ERR : Nat := 0x1001c
abbrev HIF_CMDLO : Nat := 0x10028
abbrev HIF_CMDHI : Nat := 0x1002c
abbrev HIF_CMDCTL : Nat := 0x10030
abbrev HIF_CMDCONS : Nat := 0x10034
abbrev HIF_CQLO (n : Nat) : Nat := 0x10040 + 16 * n
abbrev HIF_CQHI (n : Nat) : Nat := 0x10044 + 16 * n
abbrev HIF_CQCTL (n : Nat) : Nat := 0x10048 + 16 * n
abbrev HIF_CQPROD (n : Nat) : Nat := 0x1004c + 16 * n
abbrev STR_BASELO (n : Nat) : Nat := 0x20000 + 64 * n
abbrev STR_BASEHI (n : Nat) : Nat := 0x20004 + 64 * n
abbrev STR_CTL (n : Nat) : Nat := 0x20008 + 64 * n
abbrev STR_CONS (n : Nat) : Nat := 0x2000c + 64 * n
abbrev STR_DONE (n : Nat) : Nat := 0x20010 + 64 * n
abbrev STR_STATE (n : Nat) : Nat := 0x20014 + 64 * n
abbrev STR_FILL (n : Nat) : Nat := 0x20018 + 64 * n
abbrev SWS_CTL : Nat := 0x180000
abbrev SWS_ERR : Nat := 0x180004
abbrev SWS_CAP : Nat := 0x180008
abbrev SWS_MARKS : Nat := 0x18000c
abbrev SWS_WIN : Nat := 0x180010
abbrev SWS_LATEINFO : Nat := 0x180014
abbrev SWS_LATELINE : Nat := 0x180018
abbrev SWS_BW (n : Nat) : Nat := 0x180040 + 4 * n
abbrev SWS_PBASE (n : Nat) : Nat := 0x180100 + 16 * n
abbrev SWS_PSIZE (n : Nat) : Nat := 0x180104 + 16 * n
abbrev SWS_PCTL (n : Nat) : Nat := 0x180108 + 16 * n
abbrev SWS_PUSE (n : Nat) : Nat := 0x18010c + 16 * n
abbrev SWS_HIST (n : Nat) : Nat := 0x180400 + 4 * n
abbrev SWS_RDLINE (n : Nat) : Nat := 0x180600 + 4 * n
abbrev KLN_CTL : Nat := 0x40000
abbrev KLN_COLS : Nat := 0x40004
abbrev KLN_ROTCFG : Nat := 0x40008
abbrev KLN_MTXCFG : Nat := 0x4000c
abbrev KLN_MTXSEL (n : Nat) : Nat := 0x40010 + 4 * n
abbrev KLN_SEED : Nat := 0x40020
abbrev KLN_EMBCTL : Nat := 0x40024
abbrev KLN_EMBREQ : Nat := 0x40028
abbrev KLN_EMBSTAT : Nat := 0x4002c
abbrev KLN_EMBLINE : Nat := 0x40030
abbrev KLN_EMBPASS : Nat := 0x40034
abbrev KLN_BLENDST : Nat := 0x40038
abbrev KLN_BLENDENT : Nat := 0x4003c
abbrev KLN_ASHCNT : Nat := 0x40040
abbrev KLN_BADENT : Nat := 0x40044
abbrev KLN_LOAD : Nat := 0x40048
abbrev KLN_ERR : Nat := 0x4004c
abbrev KLN_SIG (n : Nat) : Nat := 0x40100 + 4 * n
abbrev KLN_SIGLINE (n : Nat) : Nat := 0x40200 + 4 * n
abbrev NZT_CTL : Nat := 0x3f0000
abbrev NZT_ERR : Nat := 0x3f0004
abbrev NZT_WRITES (n : Nat) : Nat := 0x3f0010 + 4 * n
abbrev NZT_REFUSED : Nat := 0x3f0020
abbrev NZT_QUERY : Nat := 0x3f0024
abbrev NZT_QRESA : Nat := 0x3f0028
abbrev NZT_QRESB : Nat := 0x3f002c
abbrev NZT_SCAN : Nat := 0x3f0030
abbrev NZT_SCANST : Nat := 0x3f0034
abbrev NZT_SCANZERO : Nat := 0x3f0038
abbrev NZT_SCANONE : Nat := 0x3f003c
abbrev NZT_SCANDUP : Nat := 0x3f0040
abbrev NZT_RELOAD : Nat := 0x3f0044
abbrev NZT_RELCNT : Nat := 0x3f0048
abbrev HPT_CTL (n : Nat) : Nat := 0x190000 + 256 * n
abbrev HPT_RATE (n : Nat) : Nat := 0x190004 + 256 * n
abbrev HPT_TIME (n : Nat) : Nat := 0x190008 + 256 * n
abbrev HPT_FIRE (n : Nat) : Nat := 0x19000c + 256 * n
abbrev HPT_LANEMAP (n : Nat) : Nat := 0x190010 + 256 * n
abbrev HPT_RETDLY (n : Nat) : Nat := 0x190014 + 256 * n
abbrev HPT_TRAIN (n : Nat) : Nat := 0x190018 + 256 * n
abbrev HPT_RETCFG (n : Nat) : Nat := 0x19001c + 256 * n
abbrev HPT_RETST (n : Nat) : Nat := 0x190020 + 256 * n
abbrev HPT_RETLINE (n : Nat) : Nat := 0x190024 + 256 * n
abbrev HPT_RETERR (n : Nat) : Nat := 0x190028 + 256 * n
abbrev HPT_RETCHK (n : Nat) : Nat := 0x19002c + 256 * n
abbrev HPT_TRAILER (n : Nat) : Nat := 0x190030 + 256 * n
abbrev HPT_PRBSERR0 (n : Nat) : Nat := 0x190034 + 256 * n
abbrev HPT_PRBSERR1 (n : Nat) : Nat := 0x190038 + 256 * n
abbrev HPT_PRBSERR2 (n : Nat) : Nat := 0x19003c + 256 * n
abbrev HPT_PRBSERR3 (n : Nat) : Nat := 0x190040 + 256 * n
abbrev HPT_TEST (n : Nat) : Nat := 0x190044 + 256 * n
abbrev HPT_PRBSCHK (n : Nat) : Nat := 0x190048 + 256 * n
abbrev HPT_TEMP (n : Nat) : Nat := 0x19004c + 256 * n
abbrev HPT_HTYPE (n : Nat) : Nat := 0x190050 + 256 * n
abbrev HPT_HSERLO (n : Nat) : Nat := 0x190054 + 256 * n
abbrev HPT_HSERHI (n : Nat) : Nat := 0x190058 + 256 * n
abbrev HPT_HSTAT (n : Nat) : Nat := 0x19005c + 256 * n
abbrev HPT_RETSKIP (n : Nat) : Nat := 0x190060 + 256 * n
abbrev HPT_NOVOLT (n : Nat) : Nat := 0x190064 + 256 * n
abbrev HPT_BUSCFG (n : Nat) : Nat := 0x194000 + 16 * n
abbrev HPT_BUSST (n : Nat) : Nat := 0x194004 + 16 * n
abbrev HPT_TCFG : Nat := 0x194100
abbrev HPT_THERMLO : Nat := 0x194104
abbrev HPT_THERMHI : Nat := 0x194108
abbrev HPT_RETSUMLO : Nat := 0x19410c
abbrev HPT_RETSUMHI : Nat := 0x194110
abbrev HPT_HOGAP : Nat := 0x194114
abbrev HPT_ERR : Nat := 0x194118
abbrev POS_CTL : Nat := 0x1a0000
abbrev POS_STATE : Nat := 0x1a0004
abbrev POS_CNTLO : Nat := 0x1a0008
abbrev POS_CNTHI : Nat := 0x1a000c
abbrev POS_TRAVLO : Nat := 0x1a0010
abbrev POS_TRAVHI : Nat := 0x1a0014
abbrev POS_HWMLO : Nat := 0x1a0018
abbrev POS_HWMHI : Nat := 0x1a001c
abbrev POS_ZACCLO : Nat := 0x1a0020
abbrev POS_ZACCHI : Nat := 0x1a0024
abbrev POS_SPEED : Nat := 0x1a0028
abbrev POS_SPEEDST : Nat := 0x1a002c
abbrev POS_EDGETB0 : Nat := 0x1a0030
abbrev POS_SPDAVG : Nat := 0x1a0034
abbrev POS_STILLTO : Nat := 0x1a0038
abbrev POS_REVWIN : Nat := 0x1a003c
abbrev POS_ZMODE : Nat := 0x1a0040
abbrev POS_ZVAL : Nat := 0x1a0044
abbrev POS_ZCAPLO : Nat := 0x1a0048
abbrev POS_ZCAPHI : Nat := 0x1a004c
abbrev POS_ZTB0 : Nat := 0x1a0050
abbrev POS_ZDELTA : Nat := 0x1a0054
abbrev POS_ZCNT : Nat := 0x1a0058
abbrev POS_CHCNT (n : Nat) : Nat := 0x1a0060 + 4 * n
abbrev POS_VOTE : Nat := 0x1a0070
abbrev POS_ILLCNT : Nat := 0x1a0074
abbrev POS_REVCNT : Nat := 0x1a0078
abbrev POS_ENCO : Nat := 0x1a007c
abbrev POS_ERR : Nat := 0x1a0080
abbrev POS_SNAP : Nat := 0x1a0084
abbrev POS_SNAPLO : Nat := 0x1a0088
abbrev POS_SNAPHI : Nat := 0x1a008c
abbrev POS_SNAPTB0 : Nat := 0x1a0090
abbrev FIR_CTL : Nat := 0x1b0000
abbrev FIR_CPL : Nat := 0x1b0004
abbrev FIR_ORGTLO : Nat := 0x1b0008
abbrev FIR_ORGTHI : Nat := 0x1b000c
abbrev FIR_ORGLNLO : Nat := 0x1b0010
abbrev FIR_ORGLNHI : Nat := 0x1b0014
abbrev FIR_ADV : Nat := 0x1b0018
abbrev FIR_URMAX : Nat := 0x1b001c
abbrev FIR_STATE : Nat := 0x1b0020
abbrev FIR_URCNT : Nat := 0x1b0024
abbrev FIR_DLYCNT : Nat := 0x1b0028
abbrev FIR_LOSTCNT : Nat := 0x1b002c
abbrev FIR_URINFO : Nat := 0x1b0030
abbrev FIR_URLINE : Nat := 0x1b0034
abbrev FIR_SCANCFG : Nat := 0x1b0040
abbrev FIR_PASSLEN : Nat := 0x1b0044
abbrev FIR_SOSOFS : Nat := 0x1b0048
abbrev FIR_MIRROR : Nat := 0x1b004c
abbrev FIR_PMCFG : Nat := 0x1b0050
abbrev FIR_PMASKLO (n : Nat) : Nat := 0x1b0080 + 8 * n
abbrev FIR_PMASKHI (n : Nat) : Nat := 0x1b0084 + 8 * n
abbrev FIR_PASS : Nat := 0x1b0100
abbrev FIR_SOSTB0 : Nat := 0x1b0104
abbrev FIR_PASSERR : Nat := 0x1b0108
abbrev FIR_ERR : Nat := 0x1b010c
abbrev FIR_EORGLO : Nat := 0x1b0110
abbrev FIR_EORGHI : Nat := 0x1b0114
abbrev TRN_CTL : Nat := 0x1c0000
abbrev TRN_VSET : Nat := 0x1c0004
abbrev TRN_SLEW : Nat := 0x1c0008
abbrev TRN_GOV : Nat := 0x1c000c
abbrev TRN_BACKUP : Nat := 0x1c0010
abbrev TRN_REVSPD : Nat := 0x1c0014
abbrev TRN_RESFILL : Nat := 0x1c0018
abbrev TRN_SETTLE : Nat := 0x1c001c
abbrev TRN_MOVETO : Nat := 0x1c0020
abbrev TRN_MAN : Nat := 0x1c0024
abbrev TRN_POLICY : Nat := 0x1c0028
abbrev TRN_STATE : Nat := 0x1c002c
abbrev TRN_DEMAND : Nat := 0x1c0030
abbrev TRN_CAUSE : Nat := 0x1c0034
abbrev TRN_VLIM (n : Nat) : Nat := 0x1c0040 + 4 * n
abbrev TRN_BKMAX (n : Nat) : Nat := 0x1c004c + 4 * n
abbrev TRN_SPLCNT : Nat := 0x1c0058
abbrev TRN_ERR : Nat := 0x1c005c
abbrev TRN_ZIDX : Nat := 0x1c0060
abbrev TRN_ZLINE (n : Nat) : Nat := 0x1c0100 + 16 * n
abbrev TRN_ZTB0 (n : Nat) : Nat := 0x1c0104 + 16 * n
abbrev TRN_ZINFO (n : Nat) : Nat := 0x1c0108 + 16 * n
abbrev INS_CTL : Nat := 0x1d0000
abbrev INS_RQLO : Nat := 0x1d0004
abbrev INS_RQHI : Nat := 0x1d0008
abbrev INS_RQCTL : Nat := 0x1d000c
abbrev INS_SEQ : Nat := 0x1d0010
abbrev INS_LEAD : Nat := 0x1d0014
abbrev INS_STRIP : Nat := 0x1d0018
abbrev INS_STRIPINT : Nat := 0x1d001c
abbrev INS_CYCLE : Nat := 0x1d0020
abbrev INS_LAST : Nat := 0x1d0024
abbrev INS_ENGST : Nat := 0x1d0028
abbrev INS_WRITES : Nat := 0x1d002c
abbrev INS_REFUSED : Nat := 0x1d0030
abbrev INS_REFMISS : Nat := 0x1d0034
abbrev INS_SHORT : Nat := 0x1d0038
abbrev INS_LOST : Nat := 0x1d003c
abbrev INS_ERR : Nat := 0x1d0040
abbrev INS_RCHAN (n : Nat) : Nat := 0x1d0200 + 64 * n
abbrev INS_RLIM (n : Nat) : Nat := 0x1d0204 + 64 * n
abbrev INS_RTRIM (n : Nat) : Nat := 0x1d0208 + 64 * n
abbrev INS_RCYC (n : Nat) : Nat := 0x1d020c + 64 * n
abbrev INS_RSTREAK (n : Nat) : Nat := 0x1d0210 + 64 * n
abbrev CAM_CTL (n : Nat) : Nat := 0x1d1000 + 512 * n
abbrev CAM_GEOM (n : Nat) : Nat := 0x1d1004 + 512 * n
abbrev CAM_FILL (n : Nat) : Nat := 0x1d1008 + 512 * n
abbrev CAM_TRIG (n : Nat) : Nat := 0x1d100c + 512 * n
abbrev CAM_TPITCH (n : Nat) : Nat := 0x1d1010 + 512 * n
abbrev CAM_ROWPITCH (n : Nat) : Nat := 0x1d1014 + 512 * n
abbrev CAM_EXPDLY (n : Nat) : Nat := 0x1d1018 + 512 * n
abbrev CAM_LATMAX (n : Nat) : Nat := 0x1d101c + 512 * n
abbrev CAM_DWOFS (n : Nat) : Nat := 0x1d1020 + 512 * n
abbrev CAM_XOFS (n : Nat) : Nat := 0x1d1024 + 512 * n
abbrev CAM_XSCALE (n : Nat) : Nat := 0x1d1028 + 512 * n
abbrev CAM_DS (n : Nat) : Nat := 0x1d102c + 512 * n
abbrev CAM_MTX0 (n : Nat) : Nat := 0x1d1030 + 512 * n
abbrev CAM_MTX1 (n : Nat) : Nat := 0x1d1034 + 512 * n
abbrev CAM_MTX2 (n : Nat) : Nat := 0x1d1038 + 512 * n
abbrev CAM_MTX3 (n : Nat) : Nat := 0x1d103c + 512 * n
abbrev CAM_MTX4 (n : Nat) : Nat := 0x1d1040 + 512 * n
abbrev CAM_MOFS0 (n : Nat) : Nat := 0x1d1044 + 512 * n
abbrev CAM_MOFS1 (n : Nat) : Nat := 0x1d1048 + 512 * n
abbrev CAM_MOFS2 (n : Nat) : Nat := 0x1d104c + 512 * n
abbrev CAM_FFADDR (n : Nat) : Nat := 0x1d1050 + 512 * n
abbrev CAM_FFDATA (n : Nat) : Nat := 0x1d1054 + 512 * n
abbrev CAM_FRAME (n : Nat) : Nat := 0x1d1058 + 512 * n
abbrev CAM_STAT (n : Nat) : Nat := 0x1d105c + 512 * n
abbrev CAM_HDRCNT (n : Nat) : Nat := 0x1d1060 + 512 * n
abbrev CAM_CRCCNT (n : Nat) : Nat := 0x1d1064 + 512 * n
abbrev CAM_SPILLCNT (n : Nat) : Nat := 0x1d1068 + 512 * n
abbrev CAM_DROPCNT (n : Nat) : Nat := 0x1d106c + 512 * n
abbrev CAM_TRIGCNT (n : Nat) : Nat := 0x1d1070 + 512 * n
abbrev TIM_TB (n : Nat) : Nat := 0x1e0000 + 32 * n
abbrev TIM_INC (n : Nat) : Nat := 0x1e0004 + 32 * n
abbrev TIM_SET (n : Nat) : Nat := 0x1e0008 + 32 * n
abbrev TIM_ADJ (n : Nat) : Nat := 0x1e000c + 32 * n
abbrev TIM_ADJREM (n : Nat) : Nat := 0x1e0010 + 32 * n
abbrev TIM_CTL : Nat := 0x1e0080
abbrev TIM_SNAP : Nat := 0x1e0084
abbrev TIM_SNAPTB (n : Nat) : Nat := 0x1e0088 + 4 * n
abbrev TIM_SNAPFRCLO : Nat := 0x1e0098
abbrev TIM_SNAPFRCHI : Nat := 0x1e009c
abbrev TIM_FRCLO : Nat := 0x1e00a0
abbrev TIM_FRCHI : Nat := 0x1e00a4
abbrev TIM_FRCFRAC : Nat := 0x1e00a8
abbrev TIM_FRCINC : Nat := 0x1e00ac
abbrev TIM_FRCCTL : Nat := 0x1e00b0
abbrev TIM_EVTCTL (n : Nat) : Nat := 0x1e0100 + 32 * n
abbrev TIM_EVTSTART (n : Nat) : Nat := 0x1e0104 + 32 * n
abbrev TIM_EVTWIDTH (n : Nat) : Nat := 0x1e0108 + 32 * n
abbrev TIM_EVTPER (n : Nat) : Nat := 0x1e010c + 32 * n
abbrev TIM_EVTCNT (n : Nat) : Nat := 0x1e0110 + 32 * n
abbrev TIM_EVTSTAT (n : Nat) : Nat := 0x1e0114 + 32 * n
abbrev TIM_ERR : Nat := 0x1e0200
abbrev CRD_CTL : Nat := 0x1f0000
abbrev CRD_STATE : Nat := 0x1f0004
abbrev CRD_HOPE : Nat := 0x1f0008
abbrev CRD_HOPW : Nat := 0x1f000c
abbrev CRD_TRAV : Nat := 0x1f0010
abbrev CRD_OFFSET : Nat := 0x1f0014
abbrev CRD_CORR : Nat := 0x1f0018
abbrev CRD_SYNC : Nat := 0x1f001c
abbrev CRD_JOBID : Nat := 0x1f0020
abbrev CRD_ORGLNLO : Nat := 0x1f0024
abbrev CRD_ORGLNHI : Nat := 0x1f0028
abbrev CRD_ORGFRAC : Nat := 0x1f002c
abbrev CRD_ORGTB0 : Nat := 0x1f0030
abbrev CRD_BTX (n : Nat) : Nat := 0x1f0040 + 4 * n
abbrev CRD_BSEND : Nat := 0x1f0050
abbrev CRD_BACKLO : Nat := 0x1f0054
abbrev CRD_BACKHI : Nat := 0x1f0058
abbrev CRD_BRX (n : Nat) : Nat := 0x1f0060 + 4 * n
abbrev CRD_BRXSTAT : Nat := 0x1f0070
abbrev CRD_BPOP : Nat := 0x1f0074
abbrev CRD_BAR : Nat := 0x1f0080
abbrev CRD_BARST : Nat := 0x1f0084
abbrev CRD_SCHED : Nat := 0x1f00a0
abbrev CRD_SCHEDT : Nat := 0x1f00a4
abbrev CRD_SCHEDST : Nat := 0x1f00a8
abbrev CRD_SCHEDACKLO : Nat := 0x1f00ac
abbrev CRD_SCHEDACKHI : Nat := 0x1f00b0
abbrev CRD_CRCERR : Nat := 0x1f00c0
abbrev CRD_LINKDN : Nat := 0x1f00c4
abbrev CRD_STEPS : Nat := 0x1f00c8
abbrev CRD_ERR : Nat := 0x1f00cc
abbrev TWN_CTL : Nat := 0x200000
abbrev TWN_STATE : Nat := 0x200004
abbrev TWN_HB : Nat := 0x200008
abbrev TWN_LINKST : Nat := 0x20000c
abbrev TWN_POLICY (n : Nat) : Nat := 0x200010 + 4 * n
abbrev TWN_CFGCRC : Nat := 0x200020
abbrev TWN_PCFGCRC : Nat := 0x200024
abbrev TWN_DIVINFO : Nat := 0x200028
abbrev TWN_DIVLINE : Nat := 0x20002c
abbrev TWN_DIVCNT : Nat := 0x200030
abbrev TWN_UNCOMP : Nat := 0x200034
abbrev TWN_GOODRUN : Nat := 0x200038
abbrev TWN_SUSPLO : Nat := 0x20003c
abbrev TWN_SUSPHI : Nat := 0x200040
abbrev TWN_SUSPN : Nat := 0x200044
abbrev TWN_SWCNT : Nat := 0x200048
abbrev TWN_RETCNT : Nat := 0x20004c
abbrev TWN_AGREE : Nat := 0x200050
abbrev TWN_CRCERR : Nat := 0x200054
abbrev TWN_RESEND : Nat := 0x200058
abbrev TWN_SKIPLN : Nat := 0x20005c
abbrev TWN_OVERRIDE : Nat := 0x200060
abbrev TWN_ERR : Nat := 0x200064
abbrev TRM_CTL : Nat := 0x210000
abbrev TRM_STAT : Nat := 0x210004
abbrev TRM_CEIL (n : Nat) : Nat := 0x210010 + 4 * n
abbrev TRM_SETTLEDLO : Nat := 0x210020
abbrev TRM_SETTLEDHI : Nat := 0x210024
abbrev TRM_SETTLEDAUX : Nat := 0x210028
abbrev TRM_FAULTLO : Nat := 0x210030
abbrev TRM_FAULTHI : Nat := 0x210034
abbrev TRM_FAULTAUX : Nat := 0x210038
abbrev TRM_OUT (n : Nat) : Nat := 0x210100 + 4 * n
abbrev TRM_MEAS (n : Nat) : Nat := 0x210400 + 4 * n
abbrev TRM_MONX (n : Nat) : Nat := 0x210300 + 4 * n
abbrev TRM_AUX (n : Nat) : Nat := 0x210310 + 4 * n
abbrev TRM_ERR : Nat := 0x210320
abbrev SYS_RESET : Nat := 0x8
abbrev PWR_CTL : Nat := 0x220000
abbrev PWR_STAT : Nat := 0x220004
abbrev PWR_WAKECNT : Nat := 0x220008
abbrev PWR_WAKESRC : Nat := 0x22000c
abbrev PWR_ERR : Nat := 0x220010
abbrev CLK_STAT : Nat := 0x220100
abbrev CLK_LOSSCNT : Nat := 0x220104
abbrev RST_CAUSE : Nat := 0x220200
abbrev RST_STAT : Nat := 0x220204
abbrev RST_WDCFG : Nat := 0x220208
abbrev RST_BLKRST : Nat := 0x22020c
abbrev ECC_CTL : Nat := 0x230000
abbrev ECC_COR (n : Nat) : Nat := 0x230010 + 8 * n
abbrev ECC_UNC (n : Nat) : Nat := 0x230014 + 8 * n
abbrev ECC_FIRST : Nat := 0x230030
abbrev ECC_FADDRLO : Nat := 0x230034
abbrev ECC_FADDRHI : Nat := 0x230038
abbrev ECC_ASHCNT : Nat := 0x23003c
abbrev ECC_TRIPST : Nat := 0x230040
abbrev ECC_TRIPNV : Nat := 0x230044
abbrev ECC_MERGEASH : Nat := 0x230048
abbrev ECC_REFETCH : Nat := 0x23004c
abbrev ECC_REFAIL : Nat := 0x230050
abbrev ECC_RELCURLO : Nat := 0x230060
abbrev ECC_RELCURHI : Nat := 0x230064
abbrev ECC_RELMTX : Nat := 0x230068
abbrev ECC_GOLD0 (n : Nat) : Nat := 0x230100 + 16 * n
abbrev ECC_GOLD1 (n : Nat) : Nat := 0x230104 + 16 * n
abbrev ECC_GOLD2 (n : Nat) : Nat := 0x230108 + 16 * n
abbrev ECC_FLIPCTL : Nat := 0x230200
abbrev ECC_FLIPLO : Nat := 0x230204
abbrev ECC_FLIPHI : Nat := 0x230208
abbrev ECC_FLIPCHK : Nat := 0x23020c
abbrev ECC_ERR : Nat := 0x230240
abbrev SVC_BOOTST : Nat := 0x240000
abbrev SVC_FWVER : Nat := 0x240004
abbrev SVC_FWSEQ : Nat := 0x240008
abbrev SVC_KVER : Nat := 0x24000c
abbrev SVC_BOOT : Nat := 0x240010
abbrev SVC_BOOTADDRLO : Nat := 0x240014
abbrev SVC_BOOTADDRHI : Nat := 0x240018
abbrev SVC_HLOAD : Nat := 0x240020
abbrev SVC_HEXC : Nat := 0x240024
abbrev SVC_ARM : Nat := 0x240030
abbrev SVC_ASTAT : Nat := 0x240034
abbrev SVC_ERR : Nat := 0x240038
abbrev SVC_MBXCMD : Nat := 0x240100
abbrev SVC_MBXCTL : Nat := 0x240104
abbrev SVC_MBXREQ (n : Nat) : Nat := 0x240200 + 4 * n
abbrev SVC_MBXRSP (n : Nat) : Nat := 0x240300 + 4 * n

/-! Fields, named REGISTER_FIELD; a register that is one field of 32 bits is used whole. -/

abbrev SYS_ID_STEP : Fld := ⟨SYS_ID, 0, 8⟩
abbrev SYS_ID_VARIANT : Fld := ⟨SYS_ID, 8, 4⟩
abbrev SYS_ID_PART : Fld := ⟨SYS_ID, 16, 16⟩
abbrev SYS_CAPS_STORE : Fld := ⟨SYS_CAPS, 0, 2⟩
abbrev SYS_CAPS_BOOT : Fld := ⟨SYS_CAPS, 2, 2⟩
abbrev SYS_CAPS_CLKMODE : Fld := ⟨SYS_CAPS, 4, 2⟩
abbrev SYS_CAPS_TWIN : Fld := ⟨SYS_CAPS, 6, 2⟩
abbrev SYS_CAPS_DRAMOK : Fld := ⟨SYS_CAPS, 8, 1⟩
abbrev UNT_CTL_EN (n : Nat) : Fld := ⟨UNT_CTL n, 0, 1⟩
abbrev UNT_CTL_HOLD (n : Nat) : Fld := ⟨UNT_CTL n, 1, 1⟩
abbrev UNT_CTL_PARENT (n : Nat) : Fld := ⟨UNT_CTL n, 8, 7⟩
abbrev UNT_CTL_ATT (n : Nat) : Fld := ⟨UNT_CTL n, 15, 1⟩
abbrev UNT_CTL_HEAD (n : Nat) : Fld := ⟨UNT_CTL n, 16, 1⟩
abbrev UNT_XOFS_XOFS (n : Nat) : Fld := ⟨UNT_XOFS n, 0, 18⟩
abbrev UNT_DIROFS_FWD (n : Nat) : Fld := ⟨UNT_DIROFS n, 0, 16⟩
abbrev UNT_DIROFS_REV (n : Nat) : Fld := ⟨UNT_DIROFS n, 16, 16⟩
abbrev UNT_THERM_POLICY (n : Nat) : Fld := ⟨UNT_THERM n, 0, 2⟩
abbrev UNT_THERM_TLIMIT (n : Nat) : Fld := ⟨UNT_THERM n, 8, 8⟩
abbrev UNT_TRIM_BASE (n : Nat) : Fld := ⟨UNT_TRIM n, 0, 14⟩
abbrev UNT_TRIM_ADJ (n : Nat) : Fld := ⟨UNT_TRIM n, 16, 15⟩
abbrev UNT_SLEW_CODE (n : Nat) : Fld := ⟨UNT_SLEW n, 0, 4⟩
abbrev UNT_BIND_STREAM (n : Nat) : Fld := ⟨UNT_BIND n, 0, 7⟩
abbrev UNT_BIND_BOUND (n : Nat) : Fld := ⟨UNT_BIND n, 7, 1⟩
abbrev UNT_EFFCTL_EN (n : Nat) : Fld := ⟨UNT_EFFCTL n, 0, 1⟩
abbrev UNT_EFFCTL_HOLD (n : Nat) : Fld := ⟨UNT_EFFCTL n, 1, 1⟩
abbrev UNT_EFFCTL_LIVE (n : Nat) : Fld := ⟨UNT_EFFCTL n, 2, 1⟩
abbrev UNT_EFFCTL_POLICY (n : Nat) : Fld := ⟨UNT_EFFCTL n, 4, 2⟩
abbrev UNT_EFFCTL_TLIMIT (n : Nat) : Fld := ⟨UNT_EFFCTL n, 8, 8⟩
abbrev UNT_EFFCTL_SLEW (n : Nat) : Fld := ⟨UNT_EFFCTL n, 16, 4⟩
abbrev UNT_EFFX_XOFS (n : Nat) : Fld := ⟨UNT_EFFX n, 0, 18⟩
abbrev UNT_EFFTRIM_CODE (n : Nat) : Fld := ⟨UNT_EFFTRIM n, 0, 14⟩
abbrev UNT_LASTHI_LINE (n : Nat) : Fld := ⟨UNT_LASTHI n, 0, 8⟩
abbrev UNT_ERR_CODE : Fld := ⟨UNT_ERR, 0, 8⟩
abbrev UNT_ERR_UNIT : Fld := ⟨UNT_ERR, 8, 7⟩
abbrev UNT_ERR_VALID : Fld := ⟨UNT_ERR, 31, 1⟩
abbrev HIF_CTL_POLLEN : Fld := ⟨HIF_CTL, 0, 1⟩
abbrev HIF_CTL_STATEN : Fld := ⟨HIF_CTL, 1, 1⟩
abbrev HIF_CTL_FILLSHIFT : Fld := ⟨HIF_CTL, 4, 4⟩
abbrev HIF_CTL_ARMED : Fld := ⟨HIF_CTL, 8, 1⟩
abbrev HIF_CTL_BME : Fld := ⟨HIF_CTL, 9, 1⟩
abbrev HIF_DBLO_ADDR : Fld := ⟨HIF_DBLO, 12, 20⟩
abbrev HIF_STATLO_ADDR : Fld := ⟨HIF_STATLO, 8, 24⟩
abbrev HIF_POLLPER_PER : Fld := ⟨HIF_POLLPER, 0, 12⟩
abbrev HIF_STATPER_PER : Fld := ⟨HIF_STATPER, 0, 17⟩
abbrev HIF_POLLERR_COUNT : Fld := ⟨HIF_POLLERR, 0, 16⟩
abbrev HIF_RTT_NS : Fld := ⟨HIF_RTT, 0, 16⟩
abbrev HIF_ERR_CODE : Fld := ⟨HIF_ERR, 0, 8⟩
abbrev HIF_ERR_OFFSET : Fld := ⟨HIF_ERR, 8, 22⟩
abbrev HIF_ERR_VALID : Fld := ⟨HIF_ERR, 31, 1⟩
abbrev HIF_CMDLO_ADDR : Fld := ⟨HIF_CMDLO, 6, 26⟩
abbrev HIF_CMDCTL_EN : Fld := ⟨HIF_CMDCTL, 0, 1⟩
abbrev HIF_CMDCTL_SIZE : Fld := ⟨HIF_CMDCTL, 1, 4⟩
abbrev HIF_CMDCTL_CQ : Fld := ⟨HIF_CMDCTL, 8, 3⟩
abbrev HIF_CQLO_ADDR (n : Nat) : Fld := ⟨HIF_CQLO n, 6, 26⟩
abbrev HIF_CQCTL_EN (n : Nat) : Fld := ⟨HIF_CQCTL n, 0, 1⟩
abbrev HIF_CQCTL_SIZE (n : Nat) : Fld := ⟨HIF_CQCTL n, 1, 4⟩
abbrev STR_BASELO_ADDR (n : Nat) : Fld := ⟨STR_BASELO n, 6, 26⟩
abbrev STR_CTL_EN (n : Nat) : Fld := ⟨STR_CTL n, 0, 1⟩
abbrev STR_CTL_KIND (n : Nat) : Fld := ⟨STR_CTL n, 1, 1⟩
abbrev STR_CTL_SIZE (n : Nat) : Fld := ⟨STR_CTL n, 2, 4⟩
abbrev STR_CTL_SKIPERR (n : Nat) : Fld := ⟨STR_CTL n, 6, 1⟩
abbrev STR_CTL_CQ (n : Nat) : Fld := ⟨STR_CTL n, 8, 3⟩
abbrev STR_STATE_STATE (n : Nat) : Fld := ⟨STR_STATE n, 0, 2⟩
abbrev STR_STATE_HCODE (n : Nat) : Fld := ⟨STR_STATE n, 8, 8⟩
abbrev STR_STATE_HIDX (n : Nat) : Fld := ⟨STR_STATE n, 16, 16⟩
abbrev SWS_CTL_WINEN : Fld := ⟨SWS_CTL, 0, 1⟩
abbrev SWS_ERR_CODE : Fld := ⟨SWS_ERR, 0, 8⟩
abbrev SWS_ERR_PART : Fld := ⟨SWS_ERR, 8, 5⟩
abbrev SWS_ERR_VALID : Fld := ⟨SWS_ERR, 31, 1⟩
abbrev SWS_CAP_USABLE : Fld := ⟨SWS_CAP, 0, 16⟩
abbrev SWS_MARKS_LOW : Fld := ⟨SWS_MARKS, 0, 16⟩
abbrev SWS_MARKS_CRIT : Fld := ⟨SWS_MARKS, 16, 16⟩
abbrev SWS_WIN_BASE : Fld := ⟨SWS_WIN, 0, 8⟩
abbrev SWS_LATEINFO_HEAD : Fld := ⟨SWS_LATEINFO, 0, 6⟩
abbrev SWS_LATEINFO_CAUSE : Fld := ⟨SWS_LATEINFO, 8, 2⟩
abbrev SWS_LATEINFO_VALID : Fld := ⟨SWS_LATEINFO, 31, 1⟩
abbrev SWS_PBASE_BASE (n : Nat) : Fld := ⟨SWS_PBASE n, 0, 14⟩
abbrev SWS_PSIZE_SIZE (n : Nat) : Fld := ⟨SWS_PSIZE n, 0, 14⟩
abbrev SWS_PCTL_KIND (n : Nat) : Fld := ⟨SWS_PCTL n, 0, 3⟩
abbrev SWS_PCTL_OWNER (n : Nat) : Fld := ⟨SWS_PCTL n, 8, 7⟩
abbrev SWS_PCTL_CLAIMED (n : Nat) : Fld := ⟨SWS_PCTL n, 31, 1⟩
abbrev SWS_PUSE_USED (n : Nat) : Fld := ⟨SWS_PUSE n, 0, 14⟩
abbrev KLN_CTL_LAYOUT : Fld := ⟨KLN_CTL, 0, 1⟩
abbrev KLN_CTL_UPS : Fld := ⟨KLN_CTL, 1, 1⟩
abbrev KLN_CTL_SEEDPH : Fld := ⟨KLN_CTL, 2, 1⟩
abbrev KLN_CTL_SUBW : Fld := ⟨KLN_CTL, 4, 4⟩
abbrev KLN_COLS_COLS : Fld := ⟨KLN_COLS, 0, 18⟩
abbrev KLN_ROTCFG_SEQ : Fld := ⟨KLN_ROTCFG, 0, 2⟩
abbrev KLN_MTXCFG_DIM0 : Fld := ⟨KLN_MTXCFG, 0, 3⟩
abbrev KLN_MTXCFG_DIM1 : Fld := ⟨KLN_MTXCFG, 4, 3⟩
abbrev KLN_MTXCFG_DIM2 : Fld := ⟨KLN_MTXCFG, 8, 3⟩
abbrev KLN_MTXCFG_DIM3 : Fld := ⟨KLN_MTXCFG, 12, 3⟩
abbrev KLN_EMBCTL_EN : Fld := ⟨KLN_EMBCTL, 0, 1⟩
abbrev KLN_EMBCTL_PER : Fld := ⟨KLN_EMBCTL, 4, 4⟩
abbrev KLN_EMBCTL_GOLDVAL : Fld := ⟨KLN_EMBCTL, 16, 16⟩
abbrev KLN_EMBREQ_BURST : Fld := ⟨KLN_EMBREQ, 0, 1⟩
abbrev KLN_EMBSTAT_FAILS : Fld := ⟨KLN_EMBSTAT, 0, 16⟩
abbrev KLN_EMBSTAT_LASTVEC : Fld := ⟨KLN_EMBSTAT, 16, 4⟩
abbrev KLN_EMBSTAT_FAIL : Fld := ⟨KLN_EMBSTAT, 31, 1⟩
abbrev KLN_BLENDST_GROUPS : Fld := ⟨KLN_BLENDST, 0, 5⟩
abbrev KLN_BLENDST_WAITS : Fld := ⟨KLN_BLENDST, 16, 16⟩
abbrev KLN_BLENDENT_ENTRIES : Fld := ⟨KLN_BLENDENT, 0, 18⟩
abbrev KLN_LOAD_BUSY : Fld := ⟨KLN_LOAD, 0, 8⟩
abbrev KLN_LOAD_CATCH : Fld := ⟨KLN_LOAD, 8, 8⟩
abbrev KLN_ERR_CODE : Fld := ⟨KLN_ERR, 0, 8⟩
abbrev KLN_ERR_OFFSET : Fld := ⟨KLN_ERR, 8, 22⟩
abbrev KLN_ERR_VALID : Fld := ⟨KLN_ERR, 31, 1⟩
abbrev NZT_CTL_LEAD : Fld := ⟨NZT_CTL, 0, 16⟩
abbrev NZT_CTL_RESTORE : Fld := ⟨NZT_CTL, 16, 1⟩
abbrev NZT_ERR_CODE : Fld := ⟨NZT_ERR, 0, 8⟩
abbrev NZT_ERR_INDEX : Fld := ⟨NZT_ERR, 8, 17⟩
abbrev NZT_ERR_WRITER : Fld := ⟨NZT_ERR, 25, 3⟩
abbrev NZT_ERR_VALID : Fld := ⟨NZT_ERR, 31, 1⟩
abbrev NZT_QUERY_KEY : Fld := ⟨NZT_QUERY, 0, 18⟩
abbrev NZT_QUERY_BYENTRY : Fld := ⟨NZT_QUERY, 31, 1⟩
abbrev NZT_QRESA_ENTRY : Fld := ⟨NZT_QRESA, 0, 17⟩
abbrev NZT_QRESA_DUP : Fld := ⟨NZT_QRESA, 30, 1⟩
abbrev NZT_QRESA_VALID : Fld := ⟨NZT_QRESA, 31, 1⟩
abbrev NZT_QRESB_ENTRY : Fld := ⟨NZT_QRESB, 0, 17⟩
abbrev NZT_QRESB_VALID : Fld := ⟨NZT_QRESB, 31, 1⟩
abbrev NZT_SCAN_START : Fld := ⟨NZT_SCAN, 0, 1⟩
abbrev NZT_SCANST_BUSY : Fld := ⟨NZT_SCANST, 0, 1⟩
abbrev NZT_SCANZERO_COLS : Fld := ⟨NZT_SCANZERO, 0, 18⟩
abbrev NZT_SCANONE_COLS : Fld := ⟨NZT_SCANONE, 0, 18⟩
abbrev NZT_SCANDUP_COLS : Fld := ⟨NZT_SCANDUP, 0, 18⟩
abbrev NZT_RELOAD_ENTRY : Fld := ⟨NZT_RELOAD, 0, 17⟩
abbrev NZT_RELOAD_OVF : Fld := ⟨NZT_RELOAD, 30, 1⟩
abbrev NZT_RELOAD_VALID : Fld := ⟨NZT_RELOAD, 31, 1⟩
abbrev NZT_RELCNT_COUNT : Fld := ⟨NZT_RELCNT, 0, 7⟩
abbrev HPT_CTL_MODE (n : Nat) : Fld := ⟨HPT_CTL n, 0, 2⟩
abbrev HPT_RATE_RATE (n : Nat) : Fld := ⟨HPT_RATE n, 0, 2⟩
abbrev HPT_TIME_SHDLY (n : Nat) : Fld := ⟨HPT_TIME n, 0, 8⟩
abbrev HPT_TIME_LATW (n : Nat) : Fld := ⟨HPT_TIME n, 8, 8⟩
abbrev HPT_TIME_LATSU (n : Nat) : Fld := ⟨HPT_TIME n, 16, 12⟩
abbrev HPT_FIRE_FIREW (n : Nat) : Fld := ⟨HPT_FIRE n, 0, 10⟩
abbrev HPT_FIRE_FHOLD (n : Nat) : Fld := ⟨HPT_FIRE n, 12, 14⟩
abbrev HPT_LANEMAP_INV (n : Nat) : Fld := ⟨HPT_LANEMAP n, 0, 4⟩
abbrev HPT_LANEMAP_SCKINV (n : Nat) : Fld := ⟨HPT_LANEMAP n, 4, 1⟩
abbrev HPT_LANEMAP_LATINV (n : Nat) : Fld := ⟨HPT_LANEMAP n, 5, 1⟩
abbrev HPT_LANEMAP_FIREINV (n : Nat) : Fld := ⟨HPT_LANEMAP n, 6, 1⟩
abbrev HPT_LANEMAP_RETINV (n : Nat) : Fld := ⟨HPT_LANEMAP n, 7, 1⟩
abbrev HPT_LANEMAP_REV (n : Nat) : Fld := ⟨HPT_LANEMAP n, 8, 1⟩
abbrev HPT_RETDLY_COARSE (n : Nat) : Fld := ⟨HPT_RETDLY n, 0, 6⟩
abbrev HPT_RETDLY_FINE (n : Nat) : Fld := ⟨HPT_RETDLY n, 6, 3⟩
abbrev HPT_RETDLY_MCOARSE (n : Nat) : Fld := ⟨HPT_RETDLY n, 16, 6⟩
abbrev HPT_RETDLY_MFINE (n : Nat) : Fld := ⟨HPT_RETDLY n, 22, 3⟩
abbrev HPT_RETDLY_MLOCK (n : Nat) : Fld := ⟨HPT_RETDLY n, 31, 1⟩
abbrev HPT_TRAIN_START (n : Nat) : Fld := ⟨HPT_TRAIN n, 0, 1⟩
abbrev HPT_TRAIN_BUSY (n : Nat) : Fld := ⟨HPT_TRAIN n, 1, 1⟩
abbrev HPT_TRAIN_RESULT (n : Nat) : Fld := ⟨HPT_TRAIN n, 4, 4⟩
abbrev HPT_TRAIN_VALID (n : Nat) : Fld := ⟨HPT_TRAIN n, 31, 1⟩
abbrev HPT_RETCFG_LIMIT (n : Nat) : Fld := ⟨HPT_RETCFG n, 0, 8⟩
abbrev HPT_RETCFG_ACTION (n : Nat) : Fld := ⟨HPT_RETCFG n, 8, 2⟩
abbrev HPT_RETST_FIRST (n : Nat) : Fld := ⟨HPT_RETST n, 0, 2⟩
abbrev HPT_RETST_LANE (n : Nat) : Fld := ⟨HPT_RETST n, 2, 2⟩
abbrev HPT_RETST_LANES (n : Nat) : Fld := ⟨HPT_RETST n, 4, 4⟩
abbrev HPT_RETST_RUN (n : Nat) : Fld := ⟨HPT_RETST n, 8, 8⟩
abbrev HPT_RETST_FAULT (n : Nat) : Fld := ⟨HPT_RETST n, 16, 1⟩
abbrev HPT_RETST_VALID (n : Nat) : Fld := ⟨HPT_RETST n, 31, 1⟩
abbrev HPT_TRAILER_TRAILER (n : Nat) : Fld := ⟨HPT_TRAILER n, 0, 8⟩
abbrev HPT_TEST_POLY (n : Nat) : Fld := ⟨HPT_TEST n, 0, 1⟩
abbrev HPT_TEST_RUN (n : Nat) : Fld := ⟨HPT_TEST n, 1, 1⟩
abbrev HPT_TEST_PER (n : Nat) : Fld := ⟨HPT_TEST n, 8, 8⟩
abbrev HPT_TEMP_TEMP (n : Nat) : Fld := ⟨HPT_TEMP n, 0, 16⟩
abbrev HPT_TEMP_OVER (n : Nat) : Fld := ⟨HPT_TEMP n, 16, 1⟩
abbrev HPT_TEMP_STALE (n : Nat) : Fld := ⟨HPT_TEMP n, 17, 1⟩
abbrev HPT_TEMP_HOT (n : Nat) : Fld := ⟨HPT_TEMP n, 18, 1⟩
abbrev HPT_TEMP_NACK (n : Nat) : Fld := ⟨HPT_TEMP n, 19, 1⟩
abbrev HPT_HSTAT_PRESENT (n : Nat) : Fld := ⟨HPT_HSTAT n, 0, 1⟩
abbrev HPT_HSTAT_IDOK (n : Nat) : Fld := ⟨HPT_HSTAT n, 1, 1⟩
abbrev HPT_HSTAT_RANKOK (n : Nat) : Fld := ⟨HPT_HSTAT n, 2, 1⟩
abbrev HPT_HSTAT_TRAINED (n : Nat) : Fld := ⟨HPT_HSTAT n, 3, 1⟩
abbrev HPT_HSTAT_VCLASS (n : Nat) : Fld := ⟨HPT_HSTAT n, 8, 8⟩
abbrev HPT_HSTAT_TLIMIT (n : Nat) : Fld := ⟨HPT_HSTAT n, 16, 8⟩
abbrev HPT_BUSCFG_EN (n : Nat) : Fld := ⟨HPT_BUSCFG n, 0, 1⟩
abbrev HPT_BUSCFG_FAST (n : Nat) : Fld := ⟨HPT_BUSCFG n, 1, 1⟩
abbrev HPT_BUSST_MASTER (n : Nat) : Fld := ⟨HPT_BUSST n, 0, 1⟩
abbrev HPT_BUSST_STUCK (n : Nat) : Fld := ⟨HPT_BUSST n, 1, 1⟩
abbrev HPT_BUSST_NACKS (n : Nat) : Fld := ⟨HPT_BUSST n, 8, 8⟩
abbrev HPT_TCFG_TPOLL : Fld := ⟨HPT_TCFG, 0, 8⟩
abbrev HPT_TCFG_THYST : Fld := ⟨HPT_TCFG, 8, 4⟩
abbrev HPT_TCFG_STALEACT : Fld := ⟨HPT_TCFG, 12, 1⟩
abbrev HPT_TCFG_TSTALE : Fld := ⟨HPT_TCFG, 16, 8⟩
abbrev HPT_HOGAP_GAP : Fld := ⟨HPT_HOGAP, 0, 8⟩
abbrev HPT_ERR_CODE : Fld := ⟨HPT_ERR, 0, 8⟩
abbrev HPT_ERR_OFFSET : Fld := ⟨HPT_ERR, 8, 22⟩
abbrev HPT_ERR_VALID : Fld := ⟨HPT_ERR, 31, 1⟩
abbrev POS_CTL_CHEN : Fld := ⟨POS_CTL, 0, 3⟩
abbrev POS_CTL_SENSE : Fld := ⟨POS_CTL, 3, 1⟩
abbrev POS_CTL_FILT : Fld := ⟨POS_CTL, 4, 4⟩
abbrev POS_CTL_BANKCH : Fld := ⟨POS_CTL, 8, 2⟩
abbrev POS_CTL_VOTEWIN : Fld := ⟨POS_CTL, 16, 8⟩
abbrev POS_STATE_TRUST : Fld := ⟨POS_STATE, 0, 1⟩
abbrev POS_STATE_REVERSED : Fld := ⟨POS_STATE, 1, 1⟩
abbrev POS_STATE_NOMAJ : Fld := ⟨POS_STATE, 2, 1⟩
abbrev POS_STATE_OUTV : Fld := ⟨POS_STATE, 3, 3⟩
abbrev POS_STATE_ILL : Fld := ⟨POS_STATE, 6, 3⟩
abbrev POS_STATE_POR : Fld := ⟨POS_STATE, 10, 1⟩
abbrev POS_STATE_BANKED : Fld := ⟨POS_STATE, 11, 1⟩
abbrev POS_SPEEDST_STILL : Fld := ⟨POS_SPEEDST, 0, 1⟩
abbrev POS_SPEEDST_INVALID : Fld := ⟨POS_SPEEDST, 1, 1⟩
abbrev POS_SPEEDST_DIR : Fld := ⟨POS_SPEEDST, 2, 1⟩
abbrev POS_SPEEDST_EDGES : Fld := ⟨POS_SPEEDST, 8, 9⟩
abbrev POS_SPDAVG_N : Fld := ⟨POS_SPDAVG, 0, 9⟩
abbrev POS_STILLTO_TIMEOUT : Fld := ⟨POS_STILLTO, 0, 20⟩
abbrev POS_REVWIN_COUNTS : Fld := ⟨POS_REVWIN, 0, 16⟩
abbrev POS_ZMODE_MODE : Fld := ⟨POS_ZMODE, 0, 2⟩
abbrev POS_ZMODE_ZARM : Fld := ⟨POS_ZMODE, 2, 1⟩
abbrev POS_ZMODE_QUALB : Fld := ⟨POS_ZMODE, 4, 1⟩
abbrev POS_ZMODE_QUALA : Fld := ⟨POS_ZMODE, 5, 1⟩
abbrev POS_VOTE_RESYNC : Fld := ⟨POS_VOTE, 0, 3⟩
abbrev POS_VOTE_RETRUST : Fld := ⟨POS_VOTE, 8, 1⟩
abbrev POS_ILLCNT_CH0 : Fld := ⟨POS_ILLCNT, 0, 8⟩
abbrev POS_ILLCNT_CH1 : Fld := ⟨POS_ILLCNT, 8, 8⟩
abbrev POS_ILLCNT_CH2 : Fld := ⟨POS_ILLCNT, 16, 8⟩
abbrev POS_REVCNT_REV : Fld := ⟨POS_REVCNT, 0, 16⟩
abbrev POS_REVCNT_REWIND : Fld := ⟨POS_REVCNT, 16, 16⟩
abbrev POS_ENCO_SRC : Fld := ⟨POS_ENCO, 0, 3⟩
abbrev POS_ENCO_CLAIM : Fld := ⟨POS_ENCO, 4, 1⟩
abbrev POS_ENCO_OWNER : Fld := ⟨POS_ENCO, 8, 2⟩
abbrev POS_ERR_CODE : Fld := ⟨POS_ERR, 0, 8⟩
abbrev POS_ERR_OFFSET : Fld := ⟨POS_ERR, 8, 22⟩
abbrev POS_ERR_VALID : Fld := ⟨POS_ERR, 31, 1⟩
abbrev POS_SNAP_NOW : Fld := ⟨POS_SNAP, 0, 1⟩
abbrev POS_SNAPHI_TRAV : Fld := ⟨POS_SNAPHI, 0, 16⟩
abbrev POS_SNAPHI_FRAC : Fld := ⟨POS_SNAPHI, 16, 8⟩
abbrev POS_SNAPHI_TRUST : Fld := ⟨POS_SNAPHI, 24, 1⟩
abbrev POS_SNAPHI_REVERSED : Fld := ⟨POS_SNAPHI, 25, 1⟩
abbrev POS_SNAPHI_SPDOK : Fld := ⟨POS_SNAPHI, 26, 1⟩
abbrev POS_SNAPHI_SRC : Fld := ⟨POS_SNAPHI, 28, 2⟩
abbrev POS_SNAPHI_VALID : Fld := ⟨POS_SNAPHI, 31, 1⟩
abbrev FIR_CTL_MODE : Fld := ⟨FIR_CTL, 0, 1⟩
abbrev FIR_CTL_ORGMODE : Fld := ⟨FIR_CTL, 1, 2⟩
abbrev FIR_CTL_URPOL : Fld := ⟨FIR_CTL, 3, 1⟩
abbrev FIR_CTL_TRUSTACT : Fld := ⟨FIR_CTL, 4, 1⟩
abbrev FIR_CTL_PREDEN : Fld := ⟨FIR_CTL, 5, 1⟩
abbrev FIR_ORGTHI_ORGT : Fld := ⟨FIR_ORGTHI, 0, 16⟩
abbrev FIR_ORGLNHI_LINE : Fld := ⟨FIR_ORGLNHI, 0, 8⟩
abbrev FIR_ADV_ADV : Fld := ⟨FIR_ADV, 0, 12⟩
abbrev FIR_URMAX_MAX : Fld := ⟨FIR_URMAX, 0, 12⟩
abbrev FIR_STATE_NOORG : Fld := ⟨FIR_STATE, 0, 1⟩
abbrev FIR_STATE_SUSPT : Fld := ⟨FIR_STATE, 1, 1⟩
abbrev FIR_STATE_SUSPR : Fld := ⟨FIR_STATE, 2, 1⟩
abbrev FIR_STATE_INPASS : Fld := ⟨FIR_STATE, 3, 1⟩
abbrev FIR_STATE_PDIR : Fld := ⟨FIR_STATE, 4, 1⟩
abbrev FIR_STATE_UR : Fld := ⟨FIR_STATE, 8, 1⟩
abbrev FIR_STATE_DLY : Fld := ⟨FIR_STATE, 9, 1⟩
abbrev FIR_STATE_LOST : Fld := ⟨FIR_STATE, 10, 1⟩
abbrev FIR_STATE_PASSERR : Fld := ⟨FIR_STATE, 11, 1⟩
abbrev FIR_URINFO_UNIT : Fld := ⟨FIR_URINFO, 0, 6⟩
abbrev FIR_URINFO_VALID : Fld := ⟨FIR_URINFO, 31, 1⟩
abbrev FIR_SCANCFG_DIRS : Fld := ⟨FIR_SCANCFG, 0, 2⟩
abbrev FIR_SCANCFG_SOSPOL : Fld := ⟨FIR_SCANCFG, 2, 2⟩
abbrev FIR_PASSLEN_LINES : Fld := ⟨FIR_PASSLEN, 0, 24⟩
abbrev FIR_MIRROR_DELAY : Fld := ⟨FIR_MIRROR, 0, 24⟩
abbrev FIR_PMCFG_LEN : Fld := ⟨FIR_PMCFG, 0, 4⟩
abbrev FIR_ERR_CODE : Fld := ⟨FIR_ERR, 0, 8⟩
abbrev FIR_ERR_OFFSET : Fld := ⟨FIR_ERR, 8, 22⟩
abbrev FIR_ERR_VALID : Fld := ⟨FIR_ERR, 31, 1⟩
abbrev FIR_EORGHI_ORGT : Fld := ⟨FIR_EORGHI, 0, 16⟩
abbrev TRN_CTL_MASTER : Fld := ⟨TRN_CTL, 0, 1⟩
abbrev TRN_CTL_NOREV : Fld := ⟨TRN_CTL, 1, 1⟩
abbrev TRN_CTL_DMODE : Fld := ⟨TRN_CTL, 2, 1⟩
abbrev TRN_VSET_CODE : Fld := ⟨TRN_VSET, 0, 14⟩
abbrev TRN_SLEW_UP : Fld := ⟨TRN_SLEW, 0, 4⟩
abbrev TRN_SLEW_DN : Fld := ⟨TRN_SLEW, 4, 4⟩
abbrev TRN_SLEW_REV : Fld := ⟨TRN_SLEW, 8, 4⟩
abbrev TRN_GOV_GMIN : Fld := ⟨TRN_GOV, 0, 8⟩
abbrev TRN_GOV_TGOV : Fld := ⟨TRN_GOV, 8, 8⟩
abbrev TRN_BACKUP_LINES : Fld := ⟨TRN_BACKUP, 0, 24⟩
abbrev TRN_REVSPD_CODE : Fld := ⟨TRN_REVSPD, 0, 14⟩
abbrev TRN_RESFILL_FILL : Fld := ⟨TRN_RESFILL, 0, 16⟩
abbrev TRN_SETTLE_MS : Fld := ⟨TRN_SETTLE, 0, 8⟩
abbrev TRN_MOVETO_MS : Fld := ⟨TRN_MOVETO, 0, 16⟩
abbrev TRN_MAN_DEMAND : Fld := ⟨TRN_MAN, 0, 14⟩
abbrev TRN_MAN_HOLD : Fld := ⟨TRN_MAN, 16, 1⟩
abbrev TRN_MAN_REV : Fld := ⟨TRN_MAN, 17, 1⟩
abbrev TRN_POLICY_DATA : Fld := ⟨TRN_POLICY, 0, 1⟩
abbrev TRN_STATE_SEQ : Fld := ⟨TRN_STATE, 0, 3⟩
abbrev TRN_STATE_DRVRDY : Fld := ⟨TRN_STATE, 3, 1⟩
abbrev TRN_STATE_HOLDIN : Fld := ⟨TRN_STATE, 4, 1⟩
abbrev TRN_STATE_FLT : Fld := ⟨TRN_STATE, 5, 1⟩
abbrev TRN_STATE_G : Fld := ⟨TRN_STATE, 8, 9⟩
abbrev TRN_DEMAND_OUT : Fld := ⟨TRN_DEMAND, 0, 14⟩
abbrev TRN_DEMAND_TARGET : Fld := ⟨TRN_DEMAND, 16, 14⟩
abbrev TRN_CAUSE_ACT : Fld := ⟨TRN_CAUSE, 0, 7⟩
abbrev TRN_CAUSE_SEEN : Fld := ⟨TRN_CAUSE, 16, 7⟩
abbrev TRN_VLIM_CODE (n : Nat) : Fld := ⟨TRN_VLIM n, 0, 14⟩
abbrev TRN_BKMAX_LINES (n : Nat) : Fld := ⟨TRN_BKMAX n, 0, 24⟩
abbrev TRN_ERR_CODE : Fld := ⟨TRN_ERR, 0, 8⟩
abbrev TRN_ERR_OFFSET : Fld := ⟨TRN_ERR, 8, 22⟩
abbrev TRN_ERR_VALID : Fld := ⟨TRN_ERR, 31, 1⟩
abbrev TRN_ZIDX_NEXT : Fld := ⟨TRN_ZIDX, 0, 4⟩
abbrev TRN_ZIDX_COUNT : Fld := ⟨TRN_ZIDX, 16, 16⟩
abbrev TRN_ZINFO_CAUSE (n : Nat) : Fld := ⟨TRN_ZINFO n, 0, 7⟩
abbrev TRN_ZINFO_KIND (n : Nat) : Fld := ⟨TRN_ZINFO n, 8, 1⟩
abbrev TRN_ZINFO_NOHIST (n : Nat) : Fld := ⟨TRN_ZINFO n, 9, 1⟩
abbrev TRN_ZINFO_LINES (n : Nat) : Fld := ⟨TRN_ZINFO n, 16, 16⟩
abbrev INS_CTL_EN : Fld := ⟨INS_CTL, 0, 1⟩
abbrev INS_CTL_AUTO : Fld := ⟨INS_CTL, 1, 1⟩
abbrev INS_CTL_REFEN : Fld := ⟨INS_CTL, 2, 1⟩
abbrev INS_CTL_PRIO : Fld := ⟨INS_CTL, 3, 1⟩
abbrev INS_CTL_STRIPEN : Fld := ⟨INS_CTL, 4, 1⟩
abbrev INS_CTL_STRIPSUB : Fld := ⟨INS_CTL, 5, 1⟩
abbrev INS_RQLO_ADDR : Fld := ⟨INS_RQLO, 6, 26⟩
abbrev INS_RQCTL_EN : Fld := ⟨INS_RQCTL, 0, 1⟩
abbrev INS_RQCTL_SIZE : Fld := ⟨INS_RQCTL, 1, 4⟩
abbrev INS_LEAD_LINES : Fld := ⟨INS_LEAD, 0, 16⟩
abbrev INS_STRIP_FIDLEN : Fld := ⟨INS_STRIP, 0, 8⟩
abbrev INS_STRIP_GAPLEN : Fld := ⟨INS_STRIP, 8, 8⟩
abbrev INS_STRIP_MARKLEN : Fld := ⟨INS_STRIP, 16, 8⟩
abbrev INS_STRIP_PITCH : Fld := ⟨INS_STRIP, 24, 6⟩
abbrev INS_STRIP_DROP : Fld := ⟨INS_STRIP, 30, 2⟩
abbrev INS_STRIPINT_UNITS : Fld := ⟨INS_STRIPINT, 0, 24⟩
abbrev INS_ENGST_BUSY : Fld := ⟨INS_ENGST, 0, 4⟩
abbrev INS_ENGST_BACKLOG : Fld := ⟨INS_ENGST, 8, 16⟩
abbrev INS_ERR_CODE : Fld := ⟨INS_ERR, 0, 8⟩
abbrev INS_ERR_OFFSET : Fld := ⟨INS_ERR, 8, 22⟩
abbrev INS_ERR_VALID : Fld := ⟨INS_ERR, 31, 1⟩
abbrev INS_RCHAN_CHAN (n : Nat) : Fld := ⟨INS_RCHAN n, 0, 2⟩
abbrev INS_RCHAN_REFCMP (n : Nat) : Fld := ⟨INS_RCHAN n, 2, 1⟩
abbrev INS_RCHAN_REFACT (n : Nat) : Fld := ⟨INS_RCHAN n, 3, 1⟩
abbrev INS_RCHAN_SUBSINGLE (n : Nat) : Fld := ⟨INS_RCHAN n, 4, 1⟩
abbrev INS_RLIM_WEAKTH (n : Nat) : Fld := ⟨INS_RLIM n, 0, 8⟩
abbrev INS_RLIM_SUBTH (n : Nat) : Fld := ⟨INS_RLIM n, 8, 8⟩
abbrev INS_RLIM_HYST (n : Nat) : Fld := ⟨INS_RLIM n, 16, 8⟩
abbrev INS_RLIM_POSTH (n : Nat) : Fld := ⟨INS_RLIM n, 24, 8⟩
abbrev INS_RTRIM_MAXSTEP (n : Nat) : Fld := ⟨INS_RTRIM n, 0, 8⟩
abbrev INS_RTRIM_TRIMSPAN (n : Nat) : Fld := ⟨INS_RTRIM n, 8, 8⟩
abbrev INS_RTRIM_BLEND (n : Nat) : Fld := ⟨INS_RTRIM n, 16, 3⟩
abbrev INS_RTRIM_MINCONF (n : Nat) : Fld := ⟨INS_RTRIM n, 24, 8⟩
abbrev INS_RCYC_RESTCYC (n : Nat) : Fld := ⟨INS_RCYC n, 0, 8⟩
abbrev INS_RCYC_MISSCYC (n : Nat) : Fld := ⟨INS_RCYC n, 8, 8⟩
abbrev INS_RCYC_MAXWR (n : Nat) : Fld := ⟨INS_RCYC n, 16, 16⟩
abbrev INS_RSTREAK_STREAKTH (n : Nat) : Fld := ⟨INS_RSTREAK n, 0, 12⟩
abbrev INS_RSTREAK_STREAKLEN (n : Nat) : Fld := ⟨INS_RSTREAK n, 16, 16⟩
abbrev CAM_CTL_EN (n : Nat) : Fld := ⟨CAM_CTL n, 0, 1⟩
abbrev CAM_CTL_LANES (n : Nat) : Fld := ⟨CAM_CTL n, 1, 2⟩
abbrev CAM_CTL_VC (n : Nat) : Fld := ⟨CAM_CTL n, 3, 2⟩
abbrev CAM_CTL_DT (n : Nat) : Fld := ⟨CAM_CTL n, 5, 2⟩
abbrev CAM_CTL_CFA (n : Nat) : Fld := ⟨CAM_CTL n, 7, 3⟩
abbrev CAM_CTL_RECIPE (n : Nat) : Fld := ⟨CAM_CTL n, 10, 2⟩
abbrev CAM_GEOM_WIDTH (n : Nat) : Fld := ⟨CAM_GEOM n, 0, 15⟩
abbrev CAM_GEOM_FLINES (n : Nat) : Fld := ⟨CAM_GEOM n, 16, 16⟩
abbrev CAM_FILL_FILL (n : Nat) : Fld := ⟨CAM_FILL n, 0, 12⟩
abbrev CAM_TRIG_MODE (n : Nat) : Fld := ⟨CAM_TRIG n, 0, 2⟩
abbrev CAM_TRIG_PIN (n : Nat) : Fld := ⟨CAM_TRIG n, 2, 3⟩
abbrev CAM_TRIG_PW (n : Nat) : Fld := ⟨CAM_TRIG n, 8, 8⟩
abbrev CAM_TPITCH_PITCH (n : Nat) : Fld := ⟨CAM_TPITCH n, 0, 24⟩
abbrev CAM_EXPDLY_NS (n : Nat) : Fld := ⟨CAM_EXPDLY n, 0, 20⟩
abbrev CAM_LATMAX_US (n : Nat) : Fld := ⟨CAM_LATMAX n, 0, 20⟩
abbrev CAM_DS_DX (n : Nat) : Fld := ⟨CAM_DS n, 0, 2⟩
abbrev CAM_DS_DY (n : Nat) : Fld := ⟨CAM_DS n, 4, 2⟩
abbrev CAM_MTX0_M0 (n : Nat) : Fld := ⟨CAM_MTX0 n, 0, 16⟩
abbrev CAM_MTX0_M1 (n : Nat) : Fld := ⟨CAM_MTX0 n, 16, 16⟩
abbrev CAM_MTX1_M0 (n : Nat) : Fld := ⟨CAM_MTX1 n, 0, 16⟩
abbrev CAM_MTX1_M1 (n : Nat) : Fld := ⟨CAM_MTX1 n, 16, 16⟩
abbrev CAM_MTX2_M0 (n : Nat) : Fld := ⟨CAM_MTX2 n, 0, 16⟩
abbrev CAM_MTX2_M1 (n : Nat) : Fld := ⟨CAM_MTX2 n, 16, 16⟩
abbrev CAM_MTX3_M0 (n : Nat) : Fld := ⟨CAM_MTX3 n, 0, 16⟩
abbrev CAM_MTX3_M1 (n : Nat) : Fld := ⟨CAM_MTX3 n, 16, 16⟩
abbrev CAM_MTX4_M0 (n : Nat) : Fld := ⟨CAM_MTX4 n, 0, 16⟩
abbrev CAM_MTX4_M1 (n : Nat) : Fld := ⟨CAM_MTX4 n, 16, 16⟩
abbrev CAM_MOFS0_OFS (n : Nat) : Fld := ⟨CAM_MOFS0 n, 0, 13⟩
abbrev CAM_MOFS1_OFS (n : Nat) : Fld := ⟨CAM_MOFS1 n, 0, 13⟩
abbrev CAM_MOFS2_OFS (n : Nat) : Fld := ⟨CAM_MOFS2 n, 0, 13⟩
abbrev CAM_FFADDR_INDEX (n : Nat) : Fld := ⟨CAM_FFADDR n, 0, 15⟩
abbrev CAM_STAT_FLAGS (n : Nat) : Fld := ⟨CAM_STAT n, 0, 16⟩
abbrev CAM_STAT_LINK (n : Nat) : Fld := ⟨CAM_STAT n, 16, 1⟩
abbrev TIM_CTL_SLEW : Fld := ⟨TIM_CTL, 0, 8⟩
abbrev TIM_SNAP_NOW : Fld := ⟨TIM_SNAP, 0, 1⟩
abbrev TIM_SNAP_SRC : Fld := ⟨TIM_SNAP, 1, 1⟩
abbrev TIM_SNAP_VALID : Fld := ⟨TIM_SNAP, 31, 1⟩
abbrev TIM_FRCFRAC_FRAC : Fld := ⟨TIM_FRCFRAC, 0, 24⟩
abbrev TIM_FRCCTL_EN : Fld := ⟨TIM_FRCCTL, 0, 1⟩
abbrev TIM_FRCCTL_FOLLOW : Fld := ⟨TIM_FRCCTL, 1, 1⟩
abbrev TIM_FRCCTL_CLR : Fld := ⟨TIM_FRCCTL, 2, 1⟩
abbrev TIM_EVTCTL_OWNER (n : Nat) : Fld := ⟨TIM_EVTCTL n, 0, 3⟩
abbrev TIM_EVTCTL_POL (n : Nat) : Fld := ⟨TIM_EVTCTL n, 3, 1⟩
abbrev TIM_EVTCTL_TB (n : Nat) : Fld := ⟨TIM_EVTCTL n, 4, 2⟩
abbrev TIM_EVTCTL_GO (n : Nat) : Fld := ⟨TIM_EVTCTL n, 6, 1⟩
abbrev TIM_EVTCTL_STOP (n : Nat) : Fld := ⟨TIM_EVTCTL n, 7, 1⟩
abbrev TIM_EVTCTL_ACTIVE (n : Nat) : Fld := ⟨TIM_EVTCTL n, 8, 1⟩
abbrev TIM_EVTCTL_LEVEL (n : Nat) : Fld := ⟨TIM_EVTCTL n, 9, 1⟩
abbrev TIM_EVTWIDTH_WIDTH (n : Nat) : Fld := ⟨TIM_EVTWIDTH n, 0, 24⟩
abbrev TIM_EVTCNT_COUNT (n : Nat) : Fld := ⟨TIM_EVTCNT n, 0, 16⟩
abbrev TIM_EVTSTAT_MISSED (n : Nat) : Fld := ⟨TIM_EVTSTAT n, 0, 16⟩
abbrev TIM_EVTSTAT_LATE (n : Nat) : Fld := ⟨TIM_EVTSTAT n, 16, 1⟩
abbrev TIM_EVTSTAT_DONE (n : Nat) : Fld := ⟨TIM_EVTSTAT n, 17, 1⟩
abbrev TIM_ERR_CODE : Fld := ⟨TIM_ERR, 0, 8⟩
abbrev TIM_ERR_OFFSET : Fld := ⟨TIM_ERR, 8, 22⟩
abbrev TIM_ERR_VALID : Fld := ⟨TIM_ERR, 31, 1⟩
abbrev CRD_CTL_EN : Fld := ⟨CRD_CTL, 0, 1⟩
abbrev CRD_CTL_TMASTER : Fld := ⟨CRD_CTL, 1, 1⟩
abbrev CRD_CTL_LMASTER : Fld := ⟨CRD_CTL, 2, 1⟩
abbrev CRD_CTL_RSTEN : Fld := ⟨CRD_CTL, 3, 1⟩
abbrev CRD_CTL_WRAPEN : Fld := ⟨CRD_CTL, 4, 1⟩
abbrev CRD_CTL_ADDR : Fld := ⟨CRD_CTL, 8, 6⟩
abbrev CRD_CTL_EXPECT : Fld := ⟨CRD_CTL, 16, 7⟩
abbrev CRD_STATE_RING : Fld := ⟨CRD_STATE, 0, 2⟩
abbrev CRD_STATE_LOCK : Fld := ⟨CRD_STATE, 2, 1⟩
abbrev CRD_STATE_HOLDOVER : Fld := ⟨CRD_STATE, 3, 1⟩
abbrev CRD_STATE_UPE : Fld := ⟨CRD_STATE, 4, 1⟩
abbrev CRD_STATE_UPW : Fld := ⟨CRD_STATE, 5, 1⟩
abbrev CRD_STATE_LMCONF : Fld := ⟨CRD_STATE, 6, 1⟩
abbrev CRD_STATE_TMCONF : Fld := ⟨CRD_STATE, 7, 1⟩
abbrev CRD_STATE_ADDRCONF : Fld := ⟨CRD_STATE, 8, 1⟩
abbrev CRD_STATE_MEMBER : Fld := ⟨CRD_STATE, 9, 1⟩
abbrev CRD_STATE_NODES : Fld := ⟨CRD_STATE, 16, 7⟩
abbrev CRD_HOPE_DELAY : Fld := ⟨CRD_HOPE, 0, 16⟩
abbrev CRD_HOPW_DELAY : Fld := ⟨CRD_HOPW, 0, 16⟩
abbrev CRD_TRAV_NS : Fld := ⟨CRD_TRAV, 0, 24⟩
abbrev CRD_SYNC_PER : Fld := ⟨CRD_SYNC, 0, 8⟩
abbrev CRD_SYNC_TO : Fld := ⟨CRD_SYNC, 8, 8⟩
abbrev CRD_SYNC_SLEWMAX : Fld := ⟨CRD_SYNC, 16, 8⟩
abbrev CRD_SYNC_STEPTH : Fld := ⟨CRD_SYNC, 24, 8⟩
abbrev CRD_ORGLNHI_LINE : Fld := ⟨CRD_ORGLNHI, 0, 8⟩
abbrev CRD_ORGFRAC_FRAC : Fld := ⟨CRD_ORGFRAC, 0, 24⟩
abbrev CRD_BSEND_GO : Fld := ⟨CRD_BSEND, 0, 1⟩
abbrev CRD_BSEND_LOST : Fld := ⟨CRD_BSEND, 1, 1⟩
abbrev CRD_BSEND_BUSY : Fld := ⟨CRD_BSEND, 31, 1⟩
abbrev CRD_BRXSTAT_SRC : Fld := ⟨CRD_BRXSTAT, 0, 6⟩
abbrev CRD_BRXSTAT_COUNT : Fld := ⟨CRD_BRXSTAT, 8, 4⟩
abbrev CRD_BRXSTAT_OVF : Fld := ⟨CRD_BRXSTAT, 30, 1⟩
abbrev CRD_BRXSTAT_VALID : Fld := ⟨CRD_BRXSTAT, 31, 1⟩
abbrev CRD_BPOP_POP : Fld := ⟨CRD_BPOP, 0, 1⟩
abbrev CRD_BAR_ENTER : Fld := ⟨CRD_BAR, 0, 8⟩
abbrev CRD_BARST_ID : Fld := ⟨CRD_BARST, 0, 8⟩
abbrev CRD_BARST_WAITING : Fld := ⟨CRD_BARST, 8, 1⟩
abbrev CRD_BARST_DONE : Fld := ⟨CRD_BARST, 9, 1⟩
abbrev CRD_BARST_MISMATCH : Fld := ⟨CRD_BARST, 10, 1⟩
abbrev CRD_SCHED_KIND : Fld := ⟨CRD_SCHED, 0, 2⟩
abbrev CRD_SCHED_GO : Fld := ⟨CRD_SCHED, 31, 1⟩
abbrev CRD_SCHEDST_BUSY : Fld := ⟨CRD_SCHEDST, 0, 1⟩
abbrev CRD_SCHEDST_DONE : Fld := ⟨CRD_SCHEDST, 1, 1⟩
abbrev CRD_SCHEDST_MISSED : Fld := ⟨CRD_SCHEDST, 2, 1⟩
abbrev CRD_SCHEDST_LOST : Fld := ⟨CRD_SCHEDST, 3, 1⟩
abbrev CRD_SCHEDST_DROPPED : Fld := ⟨CRD_SCHEDST, 4, 1⟩
abbrev CRD_ERR_CODE : Fld := ⟨CRD_ERR, 0, 8⟩
abbrev CRD_ERR_OFFSET : Fld := ⟨CRD_ERR, 8, 22⟩
abbrev CRD_ERR_VALID : Fld := ⟨CRD_ERR, 31, 1⟩
abbrev TWN_CTL_EN : Fld := ⟨TWN_CTL, 0, 1⟩
abbrev TWN_CTL_JOIN : Fld := ⟨TWN_CTL, 1, 1⟩
abbrev TWN_STATE_ROLE : Fld := ⟨TWN_STATE, 0, 3⟩
abbrev TWN_STATE_READY : Fld := ⟨TWN_STATE, 3, 1⟩
abbrev TWN_STATE_NRREASON : Fld := ⟨TWN_STATE, 4, 4⟩
abbrev TWN_STATE_LINK : Fld := ⟨TWN_STATE, 8, 1⟩
abbrev TWN_STATE_PALIVE : Fld := ⟨TWN_STATE, 9, 2⟩
abbrev TWN_STATE_PROLE : Fld := ⟨TWN_STATE, 11, 3⟩
abbrev TWN_STATE_PREF : Fld := ⟨TWN_STATE, 14, 1⟩
abbrev TWN_STATE_CFGDIFF : Fld := ⟨TWN_STATE, 15, 1⟩
abbrev TWN_STATE_DIV : Fld := ⟨TWN_STATE, 16, 1⟩
abbrev TWN_STATE_SWITCHED : Fld := ⟨TWN_STATE, 17, 1⟩
abbrev TWN_STATE_RETURNED : Fld := ⟨TWN_STATE, 18, 1⟩
abbrev TWN_STATE_BOTHFAIL : Fld := ⟨TWN_STATE, 19, 1⟩
abbrev TWN_STATE_SKIP : Fld := ⟨TWN_STATE, 20, 1⟩
abbrev TWN_STATE_STRAPDUP : Fld := ⟨TWN_STATE, 21, 1⟩
abbrev TWN_HB_HBTO : Fld := ⟨TWN_HB, 0, 8⟩
abbrev TWN_LINKST_UP : Fld := ⟨TWN_LINKST, 0, 1⟩
abbrev TWN_LINKST_LANES : Fld := ⟨TWN_LINKST, 1, 2⟩
abbrev TWN_LINKST_RTT : Fld := ⟨TWN_LINKST, 16, 16⟩
abbrev TWN_POLICY_AUTORET (n : Nat) : Fld := ⟨TWN_POLICY n, 0, 1⟩
abbrev TWN_POLICY_SBLATE (n : Nat) : Fld := ⟨TWN_POLICY n, 1, 1⟩
abbrev TWN_POLICY_DIVSTOP (n : Nat) : Fld := ⟨TWN_POLICY n, 2, 1⟩
abbrev TWN_POLICY_BOTHSTOP (n : Nat) : Fld := ⟨TWN_POLICY n, 3, 1⟩
abbrev TWN_POLICY_RSTPART (n : Nat) : Fld := ⟨TWN_POLICY n, 4, 1⟩
abbrev TWN_POLICY_CONFIRM (n : Nat) : Fld := ⟨TWN_POLICY n, 8, 8⟩
abbrev TWN_POLICY_AGLEAD (n : Nat) : Fld := ⟨TWN_POLICY n, 16, 8⟩
abbrev TWN_POLICY_RETLOG (n : Nat) : Fld := ⟨TWN_POLICY n, 24, 5⟩
abbrev TWN_DIVINFO_PORT : Fld := ⟨TWN_DIVINFO, 0, 6⟩
abbrev TWN_DIVINFO_KIND : Fld := ⟨TWN_DIVINFO, 8, 3⟩
abbrev TWN_DIVINFO_VERDICT : Fld := ⟨TWN_DIVINFO, 16, 4⟩
abbrev TWN_DIVINFO_VALID : Fld := ⟨TWN_DIVINFO, 31, 1⟩
abbrev TWN_SUSPHI_LINE : Fld := ⟨TWN_SUSPHI, 0, 8⟩
abbrev TWN_OVERRIDE_ROLE : Fld := ⟨TWN_OVERRIDE, 0, 2⟩
abbrev TWN_ERR_CODE : Fld := ⟨TWN_ERR, 0, 8⟩
abbrev TWN_ERR_OFFSET : Fld := ⟨TWN_ERR, 8, 22⟩
abbrev TWN_ERR_VALID : Fld := ⟨TWN_ERR, 31, 1⟩
abbrev TRM_CTL_MONEN : Fld := ⟨TRM_CTL, 0, 1⟩
abbrev TRM_CTL_FAULTCUT : Fld := ⟨TRM_CTL, 1, 1⟩
abbrev TRM_CTL_NOMOK : Fld := ⟨TRM_CTL, 2, 1⟩
abbrev TRM_CTL_MONTOL : Fld := ⟨TRM_CTL, 8, 8⟩
abbrev TRM_STAT_LOADED : Fld := ⟨TRM_STAT, 0, 1⟩
abbrev TRM_STAT_OTPBAD : Fld := ⟨TRM_STAT, 1, 1⟩
abbrev TRM_STAT_NOMINAL : Fld := ⟨TRM_STAT, 2, 1⟩
abbrev TRM_CEIL_CODE (n : Nat) : Fld := ⟨TRM_CEIL n, 0, 14⟩
abbrev TRM_SETTLEDAUX_MAP : Fld := ⟨TRM_SETTLEDAUX, 0, 4⟩
abbrev TRM_FAULTAUX_MAP : Fld := ⟨TRM_FAULTAUX, 0, 4⟩
abbrev TRM_OUT_OUT (n : Nat) : Fld := ⟨TRM_OUT n, 0, 14⟩
abbrev TRM_OUT_TARGET (n : Nat) : Fld := ⟨TRM_OUT n, 16, 14⟩
abbrev TRM_OUT_DRIVEN (n : Nat) : Fld := ⟨TRM_OUT n, 30, 1⟩
abbrev TRM_OUT_CLAMP (n : Nat) : Fld := ⟨TRM_OUT n, 31, 1⟩
abbrev TRM_MEAS_VALUE (n : Nat) : Fld := ⟨TRM_MEAS n, 0, 16⟩
abbrev TRM_MEAS_VALID (n : Nat) : Fld := ⟨TRM_MEAS n, 31, 1⟩
abbrev TRM_MONX_VALUE (n : Nat) : Fld := ⟨TRM_MONX n, 0, 16⟩
abbrev TRM_AUX_CODE (n : Nat) : Fld := ⟨TRM_AUX n, 0, 14⟩
abbrev TRM_AUX_SLEW (n : Nat) : Fld := ⟨TRM_AUX n, 16, 4⟩
abbrev TRM_AUX_CLAIM (n : Nat) : Fld := ⟨TRM_AUX n, 20, 1⟩
abbrev TRM_AUX_OWNER (n : Nat) : Fld := ⟨TRM_AUX n, 21, 2⟩
abbrev TRM_ERR_CODE : Fld := ⟨TRM_ERR, 0, 8⟩
abbrev TRM_ERR_OFFSET : Fld := ⟨TRM_ERR, 8, 22⟩
abbrev TRM_ERR_VALID : Fld := ⟨TRM_ERR, 31, 1⟩
abbrev SYS_RESET_FULL : Fld := ⟨SYS_RESET, 0, 1⟩
abbrev SYS_RESET_KEY : Fld := ⟨SYS_RESET, 24, 8⟩
abbrev PWR_CTL_REQ : Fld := ⟨PWR_CTL, 0, 2⟩
abbrev PWR_CTL_WAKEMOT : Fld := ⟨PWR_CTL, 2, 1⟩
abbrev PWR_STAT_STATE : Fld := ⟨PWR_STAT, 0, 2⟩
abbrev PWR_STAT_VMAINOK : Fld := ⟨PWR_STAT, 2, 1⟩
abbrev PWR_STAT_VBACKOK : Fld := ⟨PWR_STAT, 3, 1⟩
abbrev PWR_STAT_PFW : Fld := ⟨PWR_STAT, 4, 1⟩
abbrev PWR_STAT_BROWNOUT : Fld := ⟨PWR_STAT, 5, 1⟩
abbrev PWR_STAT_BANKED : Fld := ⟨PWR_STAT, 6, 1⟩
abbrev PWR_STAT_RECVALID : Fld := ⟨PWR_STAT, 7, 1⟩
abbrev PWR_STAT_D3HOT : Fld := ⟨PWR_STAT, 8, 1⟩
abbrev PWR_STAT_SAG : Fld := ⟨PWR_STAT, 9, 1⟩
abbrev PWR_WAKECNT_COUNTS : Fld := ⟨PWR_WAKECNT, 0, 16⟩
abbrev PWR_WAKESRC_SRC : Fld := ⟨PWR_WAKESRC, 0, 4⟩
abbrev PWR_ERR_CODE : Fld := ⟨PWR_ERR, 0, 8⟩
abbrev PWR_ERR_OFFSET : Fld := ⟨PWR_ERR, 8, 22⟩
abbrev PWR_ERR_VALID : Fld := ⟨PWR_ERR, 31, 1⟩
abbrev CLK_STAT_MODE : Fld := ⟨CLK_STAT, 0, 2⟩
abbrev CLK_STAT_PLLLOCK : Fld := ⟨CLK_STAT, 2, 1⟩
abbrev CLK_STAT_DRAMLOCK : Fld := ⟨CLK_STAT, 3, 1⟩
abbrev CLK_STAT_REFLOSS : Fld := ⟨CLK_STAT, 4, 1⟩
abbrev CLK_STAT_NOLOCK : Fld := ⟨CLK_STAT, 5, 1⟩
abbrev CLK_STAT_AONPPM : Fld := ⟨CLK_STAT, 16, 16⟩
abbrev RST_CAUSE_CAUSE : Fld := ⟨RST_CAUSE, 0, 9⟩
abbrev RST_STAT_STEP : Fld := ⟨RST_STAT, 0, 3⟩
abbrev RST_STAT_DONE : Fld := ⟨RST_STAT, 3, 1⟩
abbrev RST_STAT_DELAYED : Fld := ⟨RST_STAT, 4, 1⟩
abbrev RST_STAT_OTPDLY : Fld := ⟨RST_STAT, 5, 1⟩
abbrev RST_STAT_I2CDLY : Fld := ⟨RST_STAT, 6, 1⟩
abbrev RST_STAT_RECDLY : Fld := ⟨RST_STAT, 7, 1⟩
abbrev RST_WDCFG_TIMEOUT : Fld := ⟨RST_WDCFG, 0, 16⟩
abbrev RST_WDCFG_EN : Fld := ⟨RST_WDCFG, 16, 1⟩
abbrev RST_WDCFG_FULL : Fld := ⟨RST_WDCFG, 17, 1⟩
abbrev RST_BLKRST_BLK : Fld := ⟨RST_BLKRST, 0, 18⟩
abbrev ECC_CTL_SCRUBEN : Fld := ⟨ECC_CTL, 0, 1⟩
abbrev ECC_CTL_CORRWB : Fld := ⟨ECC_CTL, 1, 1⟩
abbrev ECC_CTL_SCRUBPER : Fld := ⟨ECC_CTL, 8, 8⟩
abbrev ECC_FIRST_MEM : Fld := ⟨ECC_FIRST, 0, 2⟩
abbrev ECC_FIRST_KIND : Fld := ⟨ECC_FIRST, 2, 1⟩
abbrev ECC_FIRST_REGION : Fld := ⟨ECC_FIRST, 4, 4⟩
abbrev ECC_FIRST_VALID : Fld := ⟨ECC_FIRST, 31, 1⟩
abbrev ECC_FADDRHI_ADDR : Fld := ⟨ECC_FADDRHI, 0, 3⟩
abbrev ECC_TRIPST_DIFF : Fld := ⟨ECC_TRIPST, 0, 20⟩
abbrev ECC_TRIPNV_NOVOTE : Fld := ⟨ECC_TRIPNV, 0, 20⟩
abbrev ECC_RELMTX_MATRIX : Fld := ⟨ECC_RELMTX, 0, 4⟩
abbrev ECC_FLIPCTL_TARGET : Fld := ⟨ECC_FLIPCTL, 0, 2⟩
abbrev ECC_FLIPCTL_ARM : Fld := ⟨ECC_FLIPCTL, 2, 1⟩
abbrev ECC_FLIPCTL_PERSIST : Fld := ⟨ECC_FLIPCTL, 3, 1⟩
abbrev ECC_FLIPCTL_ASH : Fld := ⟨ECC_FLIPCTL, 4, 1⟩
abbrev ECC_FLIPCHK_MASK : Fld := ⟨ECC_FLIPCHK, 0, 8⟩
abbrev ECC_ERR_CODE : Fld := ⟨ECC_ERR, 0, 8⟩
abbrev ECC_ERR_OFFSET : Fld := ⟨ECC_ERR, 8, 22⟩
abbrev ECC_ERR_VALID : Fld := ⟨ECC_ERR, 31, 1⟩
abbrev SVC_BOOTST_SLOT : Fld := ⟨SVC_BOOTST, 0, 2⟩
abbrev SVC_BOOTST_BADSTRAP : Fld := ⟨SVC_BOOTST, 2, 1⟩
abbrev SVC_BOOTST_RECOVERY : Fld := ⟨SVC_BOOTST, 3, 1⟩
abbrev SVC_BOOTST_STATE : Fld := ⟨SVC_BOOTST, 4, 4⟩
abbrev SVC_BOOTST_CODE : Fld := ⟨SVC_BOOTST, 8, 8⟩
abbrev SVC_KVER_VERSION : Fld := ⟨SVC_KVER, 0, 16⟩
abbrev SVC_BOOT_GO : Fld := ⟨SVC_BOOT, 0, 1⟩
abbrev SVC_BOOTADDRLO_ADDR : Fld := ⟨SVC_BOOTADDRLO, 6, 26⟩
abbrev SVC_BOOTADDRHI_ADDR : Fld := ⟨SVC_BOOTADDRHI, 0, 2⟩
abbrev SVC_HLOAD_LOAD : Fld := ⟨SVC_HLOAD, 0, 8⟩
abbrev SVC_HLOAD_BACKLOG : Fld := ⟨SVC_HLOAD, 8, 8⟩
abbrev SVC_HLOAD_SAT : Fld := ⟨SVC_HLOAD, 16, 1⟩
abbrev SVC_HEXC_COUNT : Fld := ⟨SVC_HEXC, 0, 16⟩
abbrev SVC_ARM_OP : Fld := ⟨SVC_ARM, 0, 8⟩
abbrev SVC_ARM_PORT : Fld := ⟨SVC_ARM, 8, 6⟩
abbrev SVC_ASTAT_STATE : Fld := ⟨SVC_ASTAT, 0, 2⟩
abbrev SVC_ASTAT_SERVICE : Fld := ⟨SVC_ASTAT, 2, 1⟩
abbrev SVC_ASTAT_SEALED : Fld := ⟨SVC_ASTAT, 3, 1⟩
abbrev SVC_ASTAT_USED : Fld := ⟨SVC_ASTAT, 4, 1⟩
abbrev SVC_ASTAT_LAPSED : Fld := ⟨SVC_ASTAT, 5, 1⟩
abbrev SVC_ASTAT_OP : Fld := ⟨SVC_ASTAT, 8, 8⟩
abbrev SVC_ASTAT_PORT : Fld := ⟨SVC_ASTAT, 16, 6⟩
abbrev SVC_ASTAT_REMAIN : Fld := ⟨SVC_ASTAT, 24, 8⟩
abbrev SVC_ERR_CODE : Fld := ⟨SVC_ERR, 0, 8⟩
abbrev SVC_ERR_OFFSET : Fld := ⟨SVC_ERR, 8, 22⟩
abbrev SVC_ERR_VALID : Fld := ⟨SVC_ERR, 31, 1⟩
abbrev SVC_MBXCMD_CMD : Fld := ⟨SVC_MBXCMD, 0, 8⟩
abbrev SVC_MBXCMD_LEN : Fld := ⟨SVC_MBXCMD, 16, 16⟩
abbrev SVC_MBXCTL_GO : Fld := ⟨SVC_MBXCTL, 0, 1⟩
abbrev SVC_MBXCTL_BUSY : Fld := ⟨SVC_MBXCTL, 1, 1⟩
abbrev SVC_MBXCTL_DONE : Fld := ⟨SVC_MBXCTL, 2, 1⟩
abbrev SVC_MBXCTL_STATUS : Fld := ⟨SVC_MBXCTL, 8, 8⟩
abbrev SVC_MBXCTL_RLEN : Fld := ⟨SVC_MBXCTL, 16, 9⟩

/-! The rows, block by block (R416). -/

/-- SYS_ID of a reset chip tells variant C of the family: which variant is modelled is the model's choice (DESIGN CHOICE, log entry 6). -/
def rowsSYS : List RegRow := [
  ⟨0x0, 1, 4, 0x64200010, 0x0, 0x0, 0x0, 0x0, 0x0, 0x0⟩,
  ⟨0x4, 1, 4, 0x0, 0x0, 0x0, 0x0, 0x0, 0x0, 0xfffffe00⟩,
  ⟨0x8, 1, 4, 0x0, 0x0, 0x0, 0x0, 0xff000001, 0x0, 0xfffffe⟩]

def rowsUNT : List RegRow := [
  ⟨0x30000, 64, 128, 0x1ff00, 0xff03, 0x0, 0x0, 0x0, 0x0, 0xfffe00fc⟩,
  ⟨0x32000, 63, 128, 0x7f01, 0xff03, 0x0, 0x0, 0x0, 0x0, 0xfffe00fc⟩,
  ⟨0x33f80, 1, 128, 0x1, 0x3, 0x0, 0x0, 0x0, 0x0, 0xfffe00fc⟩,
  ⟨0x30004, 128, 128, 0x0, 0xffffffff, 0x0, 0x0, 0x0, 0x0, 0x0⟩,
  ⟨0x30008, 128, 128, 0x0, 0x3ffff, 0x0, 0x0, 0x0, 0x0, 0xfffc0000⟩,
  ⟨0x3000c, 128, 128, 0x0, 0xffffffff, 0x0, 0x0, 0x0, 0x0, 0x0⟩,
  ⟨0x30010, 127, 128, 0x0, 0xff03, 0x0, 0x0, 0x0, 0x0, 0xffff00fc⟩,
  ⟨0x33f90, 1, 128, 0x3703, 0xff03, 0x0, 0x0, 0x0, 0x0, 0xffff00fc⟩,
  ⟨0x30014, 64, 128, 0x0, 0x7fff3fff, 0x0, 0x0, 0x0, 0x0, 0x8000c000⟩,
  ⟨0x32014, 64, 128, 0x0, 0x7fff0000, 0x0, 0x0, 0x0, 0x0, 0x8000c000⟩,
  ⟨0x30018, 127, 128, 0x0, 0xf, 0x0, 0x0, 0x0, 0x0, 0xfffffff0⟩,
  ⟨0x33f98, 1, 128, 0xa, 0xf, 0x0, 0x0, 0x0, 0x0, 0xfffffff0⟩,
  ⟨0x3001c, 128, 128, 0x0, 0xff, 0x0, 0x0, 0x0, 0x0, 0xffffff00⟩,
  ⟨0x30020, 128, 128, 0x0, 0x0, 0x0, 0x0, 0x0, 0x0, 0xfff000c8⟩,
  ⟨0x30024, 128, 128, 0x0, 0x0, 0x0, 0x0, 0x0, 0x0, 0x0⟩,
  ⟨0x30028, 128, 128, 0x0, 0x0, 0x0, 0x0, 0x0, 0x0, 0xfffc0000⟩,
  ⟨0x3002c, 128, 128, 0x0, 0x0, 0x0, 0x0, 0x0, 0x0, 0xffffc000⟩,
  ⟨0x30030, 128, 128, 0x0, 0x0, 0x0, 0x0, 0x0, 0x0, 0x0⟩,
  ⟨0x30034, 128, 128, 0x0, 0x0, 0x0, 0x0, 0x0, 0x0, 0xffffff00⟩,
  ⟨0x34000, 1, 4, 0x0, 0x0, 0x80000000, 0x0, 0x0, 0x0, 0x7fff8000⟩]

def rowsHIF : List RegRow := [
  ⟨0x10000, 1, 4, 0xa0, 0xf3, 0x0, 0x0, 0x0, 0x0, 0xfffffc0c⟩,
  ⟨0x10004, 1, 4, 0x0, 0xfffff000, 0x0, 0x0, 0x0, 0x0, 0x0⟩,
  ⟨0x10008, 1, 4, 0x0, 0xffffffff, 0x0, 0x0, 0x0, 0x0, 0x0⟩,
  ⟨0x1000c, 1, 4, 0x0, 0xffffff00, 0x0, 0x0, 0x0, 0x0, 0x0⟩,
  ⟨0x10010, 1, 4, 0x0, 0xffffffff, 0x0, 0x0, 0x0, 0x0, 0x0⟩,
  ⟨0x10014, 1, 4, 0x8, 0xfff, 0x0, 0x0, 0x0, 0x0, 0xfffff000⟩,
  ⟨0x10018, 1, 4, 0x64, 0x1ffff, 0x0, 0x0, 0x0, 0x0, 0xfffe0000⟩,
  ⟨0x10020, 1, 4, 0x0, 0x0, 0x0, 0x0, 0x0, 0xffff, 0xffff0000⟩,
  ⟨0x10024, 1, 4, 0x0, 0x0, 0x0, 0x0, 0x0, 0x0, 0xffff0000⟩,
  ⟨0x1001c, 1, 4, 0x0, 0x0, 0x80000000, 0x0, 0x0, 0x0, 0x40000000⟩,
  ⟨0x10028, 1, 4, 0x0, 0xffffffc0, 0x0, 0x0, 0x0, 0x0, 0x0⟩,
  ⟨0x1002c, 1, 4, 0x0, 0xffffffff, 0x0, 0x0, 0x0, 0x0, 0x0⟩,
  ⟨0x10030, 1, 4, 0x0, 0x71f, 0x0, 0x0, 0x0, 0x0, 0xfffff8e0⟩,
  ⟨0x10034, 1, 4, 0x0, 0x0, 0x0, 0x0, 0x0, 0x0, 0x0⟩,
  ⟨0x10040, 8, 16, 0x0, 0xffffffc0, 0x0, 0x0, 0x0, 0x0, 0x0⟩,
  ⟨0x10044, 8, 16, 0x0, 0xffffffff, 0x0, 0x0, 0x0, 0x0, 0x0⟩,
  ⟨0x10048, 8, 16, 0x0, 0x1f, 0x0, 0x0, 0x0, 0x0, 0xffffffe0⟩,
  ⟨0x1004c, 8, 16, 0x0, 0x0, 0x0, 0x0, 0x0, 0x0, 0x0⟩]

def rowsSTR : List RegRow := [
  ⟨0x20000, 128, 64, 0x0, 0xffffffc0, 0x0, 0x0, 0x0, 0x0, 0x0⟩,
  ⟨0x20004, 128, 64, 0x0, 0xffffffff, 0x0, 0x0, 0x0, 0x0, 0x0⟩,
  ⟨0x20008, 128, 64, 0x0, 0x77f, 0x0, 0x0, 0x0, 0x0, 0xfffff880⟩,
  ⟨0x2000c, 128, 64, 0x0, 0x0, 0x0, 0x0, 0x0, 0x0, 0x0⟩,
  ⟨0x20010, 128, 64, 0x0, 0x0, 0x0, 0x0, 0x0, 0x0, 0x0⟩,
  ⟨0x20014, 128, 64, 0x0, 0x0, 0x0, 0x0, 0x0, 0x0, 0xfc⟩,
  ⟨0x20018, 128, 64, 0x0, 0x0, 0x0, 0x0, 0x0, 0x0, 0x0⟩]

def rowsSWS : List RegRow := [
  ⟨0x180000, 1, 4, 0x0, 0x1, 0x0, 0x0, 0x0, 0x0, 0xfffffffe⟩,
  ⟨0x180004, 1, 4, 0x0, 0x0, 0x80000000, 0x0, 0x0, 0x0, 0x7fffe000⟩,
  ⟨0x180008, 1, 4, 0x0, 0x0, 0x0, 0x0, 0x0, 0x0, 0xffff0000⟩,
  ⟨0x18000c, 1, 4, 0x1000800, 0xffffffff, 0x0, 0x0, 0x0, 0x0, 0x0⟩,
  ⟨0x180010, 1, 4, 0x0, 0xff, 0x0, 0x0, 0x0, 0x0, 0xffffff00⟩,
  ⟨0x180014, 1, 4, 0x0, 0x0, 0x80000000, 0x0, 0x0, 0x0, 0x7ffffcc0⟩,
  ⟨0x180018, 1, 4, 0x0, 0x0, 0x0, 0x0, 0x0, 0x0, 0x0⟩,
  ⟨0x180040, 6, 4, 0x0, 0x0, 0x0, 0x0, 0x0, 0xffffffff, 0x0⟩,
  ⟨0x180100, 32, 16, 0x0, 0x3fff, 0x0, 0x0, 0x0, 0x0, 0xffffc000⟩,
  ⟨0x180104, 32, 16, 0x0, 0x3fff, 0x0, 0x0, 0x0, 0x0, 0xffffc000⟩,
  ⟨0x180108, 32, 16, 0x0, 0x7f07, 0x0, 0x0, 0x0, 0x0, 0x7fff80f8⟩,
  ⟨0x18010c, 32, 16, 0x0, 0x0, 0x0, 0x0, 0x0, 0x0, 0xffffc000⟩,
  ⟨0x180400, 128, 4, 0x0, 0x0, 0x0, 0x0, 0x0, 0x0, 0x0⟩,
  ⟨0x180600, 64, 4, 0x0, 0x0, 0x0, 0x0, 0x0, 0x0, 0x0⟩]

def rowsKLN : List RegRow := [
  ⟨0x40000, 1, 4, 0x86, 0xf7, 0x0, 0x0, 0x0, 0x0, 0xffffff08⟩,
  ⟨0x40004, 1, 4, 0x0, 0x3ffff, 0x0, 0x0, 0x0, 0x0, 0xfffc0000⟩,
  ⟨0x40008, 1, 4, 0x1, 0x3, 0x0, 0x0, 0x0, 0x0, 0xfffffffc⟩,
  ⟨0x4000c, 1, 4, 0x4444, 0x7777, 0x0, 0x0, 0x0, 0x0, 0xffff8888⟩,
  ⟨0x40010, 4, 4, 0x0, 0xffffffff, 0x0, 0x0, 0x0, 0x0, 0x0⟩,
  ⟨0x40020, 1, 4, 0x0, 0x0, 0x0, 0x0, 0x0, 0x0, 0x0⟩,
  ⟨0x40024, 1, 4, 0x41, 0xf1, 0x0, 0x0, 0x0, 0x0, 0xff0e⟩,
  ⟨0x40028, 1, 4, 0x0, 0x0, 0x0, 0x0, 0x1, 0x0, 0xfffffffe⟩,
  ⟨0x4002c, 1, 4, 0x0, 0x0, 0x80000000, 0x0, 0x0, 0xffff, 0x7ff00000⟩,
  ⟨0x40030, 1, 4, 0x0, 0x0, 0x0, 0x0, 0x0, 0x0, 0x0⟩,
  ⟨0x40034, 1, 4, 0x0, 0x0, 0x0, 0x0, 0x0, 0xffffffff, 0x0⟩,
  ⟨0x40038, 1, 4, 0x0, 0x0, 0x0, 0x0, 0x0, 0xffff0000, 0xffe0⟩,
  ⟨0x4003c, 1, 4, 0x0, 0x0, 0x0, 0x0, 0x0, 0x0, 0xfffc0000⟩,
  ⟨0x40040, 1, 4, 0x0, 0x0, 0x0, 0x0, 0x0, 0xffffffff, 0x0⟩,
  ⟨0x40044, 1, 4, 0x0, 0x0, 0x0, 0x0, 0x0, 0xffffffff, 0x0⟩,
  ⟨0x40048, 1, 4, 0x0, 0x0, 0x0, 0x0, 0x0, 0x0, 0xffff0000⟩,
  ⟨0x4004c, 1, 4, 0x0, 0x0, 0x80000000, 0x0, 0x0, 0x0, 0x40000000⟩,
  ⟨0x40100, 64, 4, 0x0, 0x0, 0x0, 0x0, 0x0, 0x0, 0x0⟩,
  ⟨0x40200, 64, 4, 0x0, 0x0, 0x0, 0x0, 0x0, 0x0, 0x0⟩]

def rowsNZT : List RegRow := [
  ⟨0x3f0000, 1, 4, 0x10040, 0x1ffff, 0x0, 0x0, 0x0, 0x0, 0xfffe0000⟩,
  ⟨0x3f0004, 1, 4, 0x0, 0x0, 0x80000000, 0x0, 0x0, 0x0, 0x70000000⟩,
  ⟨0x3f0010, 4, 4, 0x0, 0x0, 0x0, 0x0, 0x0, 0xffffffff, 0x0⟩,
  ⟨0x3f0020, 1, 4, 0x0, 0x0, 0x0, 0x0, 0x0, 0xffffffff, 0x0⟩,
  ⟨0x3f0024, 1, 4, 0x0, 0x0, 0x0, 0x0, 0x8003ffff, 0x0, 0x7ffc0000⟩,
  ⟨0x3f0028, 1, 4, 0x0, 0x0, 0x0, 0x0, 0x0, 0x0, 0x3ffe0000⟩,
  ⟨0x3f002c, 1, 4, 0x0, 0x0, 0x0, 0x0, 0x0, 0x0, 0x7ffe0000⟩,
  ⟨0x3f0030, 1, 4, 0x0, 0x0, 0x0, 0x0, 0x1, 0x0, 0xfffffffe⟩,
  ⟨0x3f0034, 1, 4, 0x0, 0x0, 0x0, 0x0, 0x0, 0x0, 0xfffffffe⟩,
  ⟨0x3f0038, 1, 4, 0x0, 0x0, 0x0, 0x0, 0x0, 0x0, 0xfffc0000⟩,
  ⟨0x3f003c, 1, 4, 0x0, 0x0, 0x0, 0x0, 0x0, 0x0, 0xfffc0000⟩,
  ⟨0x3f0040, 1, 4, 0x0, 0x0, 0x0, 0x0, 0x0, 0x0, 0xfffc0000⟩,
  ⟨0x3f0044, 1, 4, 0x0, 0x0, 0x40000000, 0x0, 0x0, 0x8001ffff, 0x3ffe0000⟩,
  ⟨0x3f0048, 1, 4, 0x0, 0x0, 0x0, 0x0, 0x0, 0x0, 0xffffff80⟩]

def rowsHPT0 : List RegRow := [
  ⟨0x190000, 64, 256, 0x0, 0x3, 0x0, 0x0, 0x0, 0x0, 0xfffffffc⟩,
  ⟨0x190004, 64, 256, 0x0, 0x3, 0x0, 0x0, 0x0, 0x0, 0xfffffffc⟩,
  ⟨0x190008, 64, 256, 0x280814, 0xfffffff, 0x0, 0x0, 0x0, 0x0, 0xf0000000⟩,
  ⟨0x19000c, 64, 256, 0x4b0028, 0x3fff3ff, 0x0, 0x0, 0x0, 0x0, 0xfc000c00⟩,
  ⟨0x190010, 64, 256, 0x0, 0x1ff, 0x0, 0x0, 0x0, 0x0, 0xfffffe00⟩,
  ⟨0x190014, 64, 256, 0x0, 0x1ff01ff, 0x0, 0x0, 0x0, 0x0, 0x7e00fe00⟩,
  ⟨0x190018, 64, 256, 0x0, 0x0, 0x80000000, 0x0, 0x1, 0x0, 0x7fffff0c⟩,
  ⟨0x19001c, 64, 256, 0x10, 0x3ff, 0x0, 0x0, 0x0, 0x0, 0xfffffc00⟩,
  ⟨0x190020, 64, 256, 0x0, 0x0, 0x800100f0, 0x0, 0x0, 0x0, 0x7ffe0000⟩,
  ⟨0x190024, 64, 256, 0x0, 0x0, 0x0, 0x0, 0x0, 0x0, 0x0⟩,
  ⟨0x190028, 64, 256, 0x0, 0x0, 0x0, 0x0, 0x0, 0xffffffff, 0x0⟩,
  ⟨0x19002c, 64, 256, 0x0, 0x0, 0x0, 0x0, 0x0, 0xffffffff, 0x0⟩,
  ⟨0x190030, 64, 256, 0x0, 0x0, 0x0, 0x0, 0x0, 0x0, 0xffffff00⟩,
  ⟨0x190034, 64, 256, 0x0, 0x0, 0x0, 0x0, 0x0, 0xffffffff, 0x0⟩,
  ⟨0x190038, 64, 256, 0x0, 0x0, 0x0, 0x0, 0x0, 0xffffffff, 0x0⟩,
  ⟨0x19003c, 64, 256, 0x0, 0x0, 0x0, 0x0, 0x0, 0xffffffff, 0x0⟩,
  ⟨0x190040, 64, 256, 0x0, 0x0, 0x0, 0x0, 0x0, 0xffffffff, 0x0⟩,
  ⟨0x190044, 64, 256, 0x201, 0xff03, 0x0, 0x0, 0x0, 0x0, 0xffff00fc⟩,
  ⟨0x190048, 64, 256, 0x0, 0x0, 0x0, 0x0, 0x0, 0xffffffff, 0x0⟩,
  ⟨0x19004c, 64, 256, 0x0, 0x0, 0x0, 0x0, 0x0, 0x0, 0xfff00000⟩,
  ⟨0x190050, 64, 256, 0x0, 0x0, 0x0, 0x0, 0x0, 0x0, 0x0⟩,
  ⟨0x190054, 64, 256, 0x0, 0x0, 0x0, 0x0, 0x0, 0x0, 0x0⟩,
  ⟨0x190058, 64, 256, 0x0, 0x0, 0x0, 0x0, 0x0, 0x0, 0x0⟩,
  ⟨0x19005c, 64, 256, 0x0, 0x0, 0x0, 0x0, 0x0, 0x0, 0xff0000f0⟩]

def rowsHPT1 : List RegRow := [
  ⟨0x190060, 64, 256, 0x0, 0x0, 0x0, 0x0, 0x0, 0xffffffff, 0x0⟩,
  ⟨0x190064, 64, 256, 0x0, 0x0, 0x0, 0x0, 0x0, 0xffffffff, 0x0⟩,
  ⟨0x194000, 8, 16, 0x3, 0x3, 0x0, 0x0, 0x0, 0x0, 0xfffffffc⟩,
  ⟨0x194004, 8, 16, 0x0, 0x0, 0x2, 0x0, 0x0, 0xff00, 0xffff00fc⟩,
  ⟨0x194100, 1, 4, 0xa130a, 0xff1fff, 0x0, 0x0, 0x0, 0x0, 0xff00e000⟩,
  ⟨0x194104, 1, 4, 0x0, 0x0, 0x0, 0x0, 0x0, 0x0, 0x0⟩,
  ⟨0x194108, 1, 4, 0x0, 0x0, 0x0, 0x0, 0x0, 0x0, 0x0⟩,
  ⟨0x19410c, 1, 4, 0x0, 0x0, 0xffffffff, 0x0, 0x0, 0x0, 0x0⟩,
  ⟨0x194110, 1, 4, 0x0, 0x0, 0xffffffff, 0x0, 0x0, 0x0, 0x0⟩,
  ⟨0x194114, 1, 4, 0x8, 0xff, 0x0, 0x0, 0x0, 0x0, 0xffffff00⟩,
  ⟨0x194118, 1, 4, 0x0, 0x0, 0x80000000, 0x0, 0x0, 0x0, 0x40000000⟩]

def rowsHPT : List RegRow := rowsHPT0 ++ rowsHPT1

def rowsPOS0 : List RegRow := [
  ⟨0x1a0000, 1, 4, 0x20047, 0xff03ff, 0x0, 0x0, 0x0, 0x0, 0xff00fc00⟩,
  ⟨0x1a0004, 1, 4, 0x401, 0x0, 0xdc0, 0x0, 0x0, 0x0, 0xfffff200⟩,
  ⟨0x1a0008, 1, 4, 0x0, 0x0, 0x0, 0x0, 0x0, 0x0, 0x0⟩,
  ⟨0x1a000c, 1, 4, 0x0, 0x0, 0x0, 0x0, 0x0, 0x0, 0x0⟩,
  ⟨0x1a0010, 1, 4, 0x0, 0x0, 0x0, 0x0, 0x0, 0x0, 0x0⟩,
  ⟨0x1a0014, 1, 4, 0x0, 0x0, 0x0, 0x0, 0x0, 0x0, 0x0⟩,
  ⟨0x1a0018, 1, 4, 0x0, 0x0, 0x0, 0x0, 0x0, 0x0, 0x0⟩,
  ⟨0x1a001c, 1, 4, 0x0, 0x0, 0x0, 0x0, 0x0, 0x0, 0x0⟩,
  ⟨0x1a0020, 1, 4, 0x0, 0x0, 0x0, 0x0, 0x0, 0x0, 0x0⟩,
  ⟨0x1a0024, 1, 4, 0x0, 0x0, 0x0, 0x0, 0x0, 0x0, 0x0⟩,
  ⟨0x1a0028, 1, 4, 0x0, 0x0, 0x0, 0x0, 0x0, 0x0, 0x0⟩,
  ⟨0x1a002c, 1, 4, 0x1, 0x0, 0x0, 0x0, 0x0, 0x0, 0xfffe00f8⟩,
  ⟨0x1a0030, 1, 4, 0x0, 0x0, 0x0, 0x0, 0x0, 0x0, 0x0⟩,
  ⟨0x1a0034, 1, 4, 0x10, 0x1ff, 0x0, 0x0, 0x0, 0x0, 0xfffffe00⟩,
  ⟨0x1a0038, 1, 4, 0x2710, 0xfffff, 0x0, 0x0, 0x0, 0x0, 0xfff00000⟩,
  ⟨0x1a003c, 1, 4, 0x10, 0xffff, 0x0, 0x0, 0x0, 0x0, 0xffff0000⟩,
  ⟨0x1a0040, 1, 4, 0x30, 0x33, 0x0, 0x4, 0x0, 0x0, 0xffffffc8⟩,
  ⟨0x1a0044, 1, 4, 0x0, 0xffffffff, 0x0, 0x0, 0x0, 0x0, 0x0⟩,
  ⟨0x1a0048, 1, 4, 0x0, 0x0, 0x0, 0x0, 0x0, 0x0, 0x0⟩,
  ⟨0x1a004c, 1, 4, 0x0, 0x0, 0x0, 0x0, 0x0, 0x0, 0x0⟩,
  ⟨0x1a0050, 1, 4, 0x0, 0x0, 0x0, 0x0, 0x0, 0x0, 0x0⟩,
  ⟨0x1a0054, 1, 4, 0x0, 0x0, 0x0, 0x0, 0x0, 0x0, 0x0⟩,
  ⟨0x1a0058, 1, 4, 0x0, 0x0, 0x0, 0x0, 0x0, 0xffffffff, 0x0⟩,
  ⟨0x1a0060, 3, 4, 0x0, 0x0, 0x0, 0x0, 0x0, 0x0, 0x0⟩]

def rowsPOS1 : List RegRow := [
  ⟨0x1a0070, 1, 4, 0x0, 0x0, 0x0, 0x0, 0x107, 0x0, 0xfffffef8⟩,
  ⟨0x1a0074, 1, 4, 0x0, 0x0, 0x0, 0x0, 0x0, 0xffffff, 0xff000000⟩,
  ⟨0x1a0078, 1, 4, 0x0, 0x0, 0x0, 0x0, 0x0, 0xffffffff, 0x0⟩,
  ⟨0x1a007c, 1, 4, 0x0, 0x17, 0x0, 0x0, 0x0, 0x0, 0xfffffce8⟩,
  ⟨0x1a0080, 1, 4, 0x0, 0x0, 0x80000000, 0x0, 0x0, 0x0, 0x40000000⟩,
  ⟨0x1a0084, 1, 4, 0x0, 0x0, 0x0, 0x0, 0x1, 0x0, 0xfffffffe⟩,
  ⟨0x1a0088, 1, 4, 0x0, 0x0, 0x0, 0x0, 0x0, 0x0, 0x0⟩,
  ⟨0x1a008c, 1, 4, 0x0, 0x0, 0x80000000, 0x0, 0x0, 0x0, 0x48000000⟩,
  ⟨0x1a0090, 1, 4, 0x0, 0x0, 0x0, 0x0, 0x0, 0x0, 0x0⟩]

def rowsPOS : List RegRow := rowsPOS0 ++ rowsPOS1

def rowsFIR0 : List RegRow := [
  ⟨0x1b0000, 1, 4, 0x38, 0x3f, 0x0, 0x0, 0x0, 0x0, 0xffffffc0⟩,
  ⟨0x1b0004, 1, 4, 0x80000, 0xffffffff, 0x0, 0x0, 0x0, 0x0, 0x0⟩,
  ⟨0x1b0008, 1, 4, 0x0, 0xffffffff, 0x0, 0x0, 0x0, 0x0, 0x0⟩,
  ⟨0x1b000c, 1, 4, 0x0, 0xffff, 0x0, 0x0, 0x0, 0x0, 0xffff0000⟩,
  ⟨0x1b0010, 1, 4, 0x0, 0xffffffff, 0x0, 0x0, 0x0, 0x0, 0x0⟩,
  ⟨0x1b0014, 1, 4, 0x0, 0xff, 0x0, 0x0, 0x0, 0x0, 0xffffff00⟩,
  ⟨0x1b0018, 1, 4, 0x0, 0xfff, 0x0, 0x0, 0x0, 0x0, 0xfffff000⟩,
  ⟨0x1b001c, 1, 4, 0x28, 0xfff, 0x0, 0x0, 0x0, 0x0, 0xfffff000⟩,
  ⟨0x1b0020, 1, 4, 0x0, 0x0, 0xf00, 0x0, 0x0, 0x0, 0xfffff0e0⟩,
  ⟨0x1b0024, 1, 4, 0x0, 0x0, 0x0, 0x0, 0x0, 0xffffffff, 0x0⟩,
  ⟨0x1b0028, 1, 4, 0x0, 0x0, 0x0, 0x0, 0x0, 0xffffffff, 0x0⟩,
  ⟨0x1b002c, 1, 4, 0x0, 0x0, 0x0, 0x0, 0x0, 0xffffffff, 0x0⟩,
  ⟨0x1b0030, 1, 4, 0x0, 0x0, 0x80000000, 0x0, 0x0, 0x0, 0x7fffffc0⟩,
  ⟨0x1b0034, 1, 4, 0x0, 0x0, 0x0, 0x0, 0x0, 0x0, 0x0⟩,
  ⟨0x1b0040, 1, 4, 0x0, 0xf, 0x0, 0x0, 0x0, 0x0, 0xfffffff0⟩,
  ⟨0x1b0044, 1, 4, 0x0, 0xffffff, 0x0, 0x0, 0x0, 0x0, 0xff000000⟩,
  ⟨0x1b0048, 1, 4, 0x0, 0xffffffff, 0x0, 0x0, 0x0, 0x0, 0x0⟩,
  ⟨0x1b004c, 1, 4, 0x0, 0xffffff, 0x0, 0x0, 0x0, 0x0, 0xff000000⟩,
  ⟨0x1b0050, 1, 4, 0x0, 0xf, 0x0, 0x0, 0x0, 0x0, 0xfffffff0⟩,
  ⟨0x1b0080, 16, 8, 0xffffffff, 0xffffffff, 0x0, 0x0, 0x0, 0x0, 0x0⟩,
  ⟨0x1b0084, 16, 8, 0xffffffff, 0xffffffff, 0x0, 0x0, 0x0, 0x0, 0x0⟩,
  ⟨0x1b0100, 1, 4, 0x0, 0x0, 0x0, 0x0, 0x0, 0x0, 0x0⟩,
  ⟨0x1b0104, 1, 4, 0x0, 0x0, 0x0, 0x0, 0x0, 0x0, 0x0⟩,
  ⟨0x1b0108, 1, 4, 0x0, 0x0, 0x0, 0x0, 0x0, 0xffffffff, 0x0⟩]

def rowsFIR1 : List RegRow := [
  ⟨0x1b010c, 1, 4, 0x0, 0x0, 0x80000000, 0x0, 0x0, 0x0, 0x40000000⟩,
  ⟨0x1b0110, 1, 4, 0x0, 0x0, 0x0, 0x0, 0x0, 0x0, 0x0⟩,
  ⟨0x1b0114, 1, 4, 0x0, 0x0, 0x0, 0x0, 0x0, 0x0, 0xffff0000⟩]

def rowsFIR : List RegRow := rowsFIR0 ++ rowsFIR1

def rowsTRN : List RegRow := [
  ⟨0x1c0000, 1, 4, 0x1, 0x7, 0x0, 0x0, 0x0, 0x0, 0xfffffff8⟩,
  ⟨0x1c0004, 1, 4, 0x0, 0x3fff, 0x0, 0x0, 0x0, 0x0, 0xffffc000⟩,
  ⟨0x1c0008, 1, 4, 0xaaa, 0xfff, 0x0, 0x0, 0x0, 0x0, 0xfffff000⟩,
  ⟨0x1c000c, 1, 4, 0x8040, 0xffff, 0x0, 0x0, 0x0, 0x0, 0xffff0000⟩,
  ⟨0x1c0010, 1, 4, 0x2000, 0xffffff, 0x0, 0x0, 0x0, 0x0, 0xff000000⟩,
  ⟨0x1c0014, 1, 4, 0x800, 0x3fff, 0x0, 0x0, 0x0, 0x0, 0xffffc000⟩,
  ⟨0x1c0018, 1, 4, 0x400, 0xffff, 0x0, 0x0, 0x0, 0x0, 0xffff0000⟩,
  ⟨0x1c001c, 1, 4, 0x14, 0xff, 0x0, 0x0, 0x0, 0x0, 0xffffff00⟩,
  ⟨0x1c0020, 1, 4, 0x2710, 0xffff, 0x0, 0x0, 0x0, 0x0, 0xffff0000⟩,
  ⟨0x1c0024, 1, 4, 0x10000, 0x33fff, 0x0, 0x0, 0x0, 0x0, 0xfffcc000⟩,
  ⟨0x1c0028, 1, 4, 0x0, 0x1, 0x0, 0x0, 0x0, 0x0, 0xfffffffe⟩,
  ⟨0x1c002c, 1, 4, 0x10010, 0x0, 0x0, 0x0, 0x0, 0x0, 0xfffe00c0⟩,
  ⟨0x1c0030, 1, 4, 0x0, 0x0, 0x0, 0x0, 0x0, 0x0, 0xc000c000⟩,
  ⟨0x1c0034, 1, 4, 0x0, 0x0, 0x7f0000, 0x0, 0x0, 0x0, 0xff80ff80⟩,
  ⟨0x1c0040, 3, 4, 0x0, 0x3fff, 0x0, 0x0, 0x0, 0x0, 0xffffc000⟩,
  ⟨0x1c004c, 3, 4, 0x0, 0xffffff, 0x0, 0x0, 0x0, 0x0, 0xff000000⟩,
  ⟨0x1c0058, 1, 4, 0x0, 0x0, 0x0, 0x0, 0x0, 0xffffffff, 0x0⟩,
  ⟨0x1c005c, 1, 4, 0x0, 0x0, 0x80000000, 0x0, 0x0, 0x0, 0x40000000⟩,
  ⟨0x1c0060, 1, 4, 0x0, 0x0, 0x0, 0x0, 0x0, 0x0, 0xfff0⟩,
  ⟨0x1c0100, 16, 16, 0x0, 0x0, 0x0, 0x0, 0x0, 0x0, 0x0⟩,
  ⟨0x1c0104, 16, 16, 0x0, 0x0, 0x0, 0x0, 0x0, 0x0, 0x0⟩,
  ⟨0x1c0108, 16, 16, 0x0, 0x0, 0x0, 0x0, 0x0, 0x0, 0xfc80⟩]

def rowsINS0 : List RegRow := [
  ⟨0x1d0000, 1, 4, 0x0, 0x3f, 0x0, 0x0, 0x0, 0x0, 0xffffffc0⟩,
  ⟨0x1d0004, 1, 4, 0x0, 0xffffffc0, 0x0, 0x0, 0x0, 0x0, 0x0⟩,
  ⟨0x1d0008, 1, 4, 0x0, 0xffffffff, 0x0, 0x0, 0x0, 0x0, 0x0⟩,
  ⟨0x1d000c, 1, 4, 0x0, 0x1f, 0x0, 0x0, 0x0, 0x0, 0xffffffe0⟩,
  ⟨0x1d0010, 1, 4, 0x0, 0x0, 0x0, 0x0, 0x0, 0x0, 0x0⟩,
  ⟨0x1d0014, 1, 4, 0x100, 0xffff, 0x0, 0x0, 0x0, 0x0, 0xffff0000⟩,
  ⟨0x1d0018, 1, 4, 0x90180810, 0xffffffff, 0x0, 0x0, 0x0, 0x0, 0x0⟩,
  ⟨0x1d001c, 1, 4, 0x400, 0xffffff, 0x0, 0x0, 0x0, 0x0, 0xff000000⟩,
  ⟨0x1d0020, 1, 4, 0x0, 0x0, 0x0, 0x0, 0x0, 0x0, 0x0⟩,
  ⟨0x1d0024, 1, 4, 0x0, 0x0, 0x0, 0x0, 0x0, 0x0, 0x0⟩,
  ⟨0x1d0028, 1, 4, 0x0, 0x0, 0x0, 0x0, 0x0, 0x0, 0xff0000f0⟩,
  ⟨0x1d002c, 1, 4, 0x0, 0x0, 0x0, 0x0, 0x0, 0xffffffff, 0x0⟩,
  ⟨0x1d0030, 1, 4, 0x0, 0x0, 0x0, 0x0, 0x0, 0xffffffff, 0x0⟩,
  ⟨0x1d0034, 1, 4, 0x0, 0x0, 0x0, 0x0, 0x0, 0xffffffff, 0x0⟩,
  ⟨0x1d0038, 1, 4, 0x0, 0x0, 0x0, 0x0, 0x0, 0xffffffff, 0x0⟩,
  ⟨0x1d003c, 1, 4, 0x0, 0x0, 0x0, 0x0, 0x0, 0xffffffff, 0x0⟩,
  ⟨0x1d0040, 1, 4, 0x0, 0x0, 0x80000000, 0x0, 0x0, 0x0, 0x40000000⟩,
  ⟨0x1d0200, 4, 64, 0x0, 0x1f, 0x0, 0x0, 0x0, 0x0, 0xffffffe0⟩,
  ⟨0x1d0204, 4, 64, 0x10088020, 0xffffffff, 0x0, 0x0, 0x0, 0x0, 0x0⟩,
  ⟨0x1d0208, 4, 64, 0x80054004, 0xff07ffff, 0x0, 0x0, 0x0, 0x0, 0xf80000⟩,
  ⟨0x1d020c, 4, 64, 0x1000203, 0xffffffff, 0x0, 0x0, 0x0, 0x0, 0x0⟩,
  ⟨0x1d0210, 4, 64, 0x4000100, 0xffff0fff, 0x0, 0x0, 0x0, 0x0, 0xf000⟩,
  ⟨0x1d1000, 2, 512, 0x4, 0xfff, 0x0, 0x0, 0x0, 0x0, 0xfffff000⟩,
  ⟨0x1d1004, 2, 512, 0x4004000, 0xffff7fff, 0x0, 0x0, 0x0, 0x0, 0x8000⟩]

def rowsINS1 : List RegRow := [
  ⟨0x1d1008, 2, 512, 0x0, 0xfff, 0x0, 0x0, 0x0, 0x0, 0xfffff000⟩,
  ⟨0x1d100c, 2, 512, 0xa00, 0xff1f, 0x0, 0x0, 0x0, 0x0, 0xffff00e0⟩,
  ⟨0x1d1010, 2, 512, 0x400, 0xffffff, 0x0, 0x0, 0x0, 0x0, 0xff000000⟩,
  ⟨0x1d1014, 2, 512, 0x0, 0xffffffff, 0x0, 0x0, 0x0, 0x0, 0x0⟩,
  ⟨0x1d1018, 2, 512, 0x0, 0xfffff, 0x0, 0x0, 0x0, 0x0, 0xfff00000⟩,
  ⟨0x1d101c, 2, 512, 0x3e8, 0xfffff, 0x0, 0x0, 0x0, 0x0, 0xfff00000⟩,
  ⟨0x1d1020, 2, 512, 0x0, 0xffffffff, 0x0, 0x0, 0x0, 0x0, 0x0⟩,
  ⟨0x1d1024, 2, 512, 0x0, 0xffffffff, 0x0, 0x0, 0x0, 0x0, 0x0⟩,
  ⟨0x1d1028, 2, 512, 0x10000, 0xffffffff, 0x0, 0x0, 0x0, 0x0, 0x0⟩,
  ⟨0x1d102c, 2, 512, 0x0, 0x33, 0x0, 0x0, 0x0, 0x0, 0xffffffcc⟩,
  ⟨0x1d1030, 2, 512, 0x400, 0xffffffff, 0x0, 0x0, 0x0, 0x0, 0x0⟩,
  ⟨0x1d1034, 2, 512, 0x0, 0xffffffff, 0x0, 0x0, 0x0, 0x0, 0x0⟩,
  ⟨0x1d1038, 2, 512, 0x400, 0xffffffff, 0x0, 0x0, 0x0, 0x0, 0x0⟩,
  ⟨0x1d103c, 2, 512, 0x0, 0xffffffff, 0x0, 0x0, 0x0, 0x0, 0x0⟩,
  ⟨0x1d1040, 2, 512, 0x400, 0xffff, 0x0, 0x0, 0x0, 0x0, 0xffff0000⟩,
  ⟨0x1d1044, 2, 512, 0x0, 0x1fff, 0x0, 0x0, 0x0, 0x0, 0xffffe000⟩,
  ⟨0x1d1048, 2, 512, 0x0, 0x1fff, 0x0, 0x0, 0x0, 0x0, 0xffffe000⟩,
  ⟨0x1d104c, 2, 512, 0x0, 0x1fff, 0x0, 0x0, 0x0, 0x0, 0xffffe000⟩,
  ⟨0x1d1050, 2, 512, 0x0, 0x7fff, 0x0, 0x0, 0x0, 0x0, 0xffff8000⟩,
  ⟨0x1d1054, 2, 512, 0x10000000, 0xffffffff, 0x0, 0x0, 0x0, 0x0, 0x0⟩,
  ⟨0x1d1058, 2, 512, 0x0, 0x0, 0x0, 0x0, 0x0, 0x0, 0x0⟩,
  ⟨0x1d105c, 2, 512, 0x0, 0x0, 0xffff, 0x0, 0x0, 0x0, 0xfffe0000⟩,
  ⟨0x1d1060, 2, 512, 0x0, 0x0, 0x0, 0x0, 0x0, 0xffffffff, 0x0⟩,
  ⟨0x1d1064, 2, 512, 0x0, 0x0, 0x0, 0x0, 0x0, 0xffffffff, 0x0⟩]

def rowsINS2 : List RegRow := [
  ⟨0x1d1068, 2, 512, 0x0, 0x0, 0x0, 0x0, 0x0, 0xffffffff, 0x0⟩,
  ⟨0x1d106c, 2, 512, 0x0, 0x0, 0x0, 0x0, 0x0, 0xffffffff, 0x0⟩,
  ⟨0x1d1070, 2, 512, 0x0, 0x0, 0x0, 0x0, 0x0, 0xffffffff, 0x0⟩]

def rowsINS : List RegRow := rowsINS0 ++ rowsINS1 ++ rowsINS2

def rowsTIM : List RegRow := [
  ⟨0x1e0000, 4, 32, 0x0, 0x0, 0x0, 0x0, 0x0, 0x0, 0x0⟩,
  ⟨0x1e0004, 4, 32, 0x2800000, 0xffffffff, 0x0, 0x0, 0x0, 0x0, 0x0⟩,
  ⟨0x1e0008, 4, 32, 0x0, 0x0, 0x0, 0x0, 0xffffffff, 0x0, 0x0⟩,
  ⟨0x1e000c, 4, 32, 0x0, 0x0, 0x0, 0x0, 0xffffffff, 0x0, 0x0⟩,
  ⟨0x1e0010, 4, 32, 0x0, 0x0, 0x0, 0x0, 0x0, 0x0, 0x0⟩,
  ⟨0x1e0080, 1, 4, 0x32, 0xff, 0x0, 0x0, 0x0, 0x0, 0xffffff00⟩,
  ⟨0x1e0084, 1, 4, 0x0, 0x0, 0x80000000, 0x0, 0x1, 0x0, 0x7ffffffc⟩,
  ⟨0x1e0088, 4, 4, 0x0, 0x0, 0x0, 0x0, 0x0, 0x0, 0x0⟩,
  ⟨0x1e0098, 1, 4, 0x0, 0x0, 0x0, 0x0, 0x0, 0x0, 0x0⟩,
  ⟨0x1e009c, 1, 4, 0x0, 0x0, 0x0, 0x0, 0x0, 0x0, 0x0⟩,
  ⟨0x1e00a0, 1, 4, 0x0, 0x0, 0x0, 0x0, 0x0, 0x0, 0x0⟩,
  ⟨0x1e00a4, 1, 4, 0x0, 0x0, 0x0, 0x0, 0x0, 0x0, 0x0⟩,
  ⟨0x1e00a8, 1, 4, 0x0, 0x0, 0x0, 0x0, 0x0, 0x0, 0xff000000⟩,
  ⟨0x1e00ac, 1, 4, 0x2800000, 0xffffffff, 0x0, 0x0, 0x0, 0x0, 0x0⟩,
  ⟨0x1e00b0, 1, 4, 0x1, 0x3, 0x0, 0x0, 0x4, 0x0, 0xfffffff8⟩,
  ⟨0x1e0100, 8, 32, 0x0, 0x3f, 0x0, 0x0, 0xc0, 0x0, 0xfffffc00⟩,
  ⟨0x1e0104, 8, 32, 0x0, 0xffffffff, 0x0, 0x0, 0x0, 0x0, 0x0⟩,
  ⟨0x1e0108, 8, 32, 0x0, 0xffffff, 0x0, 0x0, 0x0, 0x0, 0xff000000⟩,
  ⟨0x1e010c, 8, 32, 0x0, 0xffffffff, 0x0, 0x0, 0x0, 0x0, 0x0⟩,
  ⟨0x1e0110, 8, 32, 0x0, 0xffff, 0x0, 0x0, 0x0, 0x0, 0xffff0000⟩,
  ⟨0x1e0114, 8, 32, 0x0, 0x0, 0x30000, 0x0, 0x0, 0xffff, 0xfffc0000⟩,
  ⟨0x1e0200, 1, 4, 0x0, 0x0, 0x80000000, 0x0, 0x0, 0x0, 0x40000000⟩]

def rowsCRD0 : List RegRow := [
  ⟨0x1f0000, 1, 4, 0x10010, 0x7f3f1f, 0x0, 0x0, 0x0, 0x0, 0xff80c0e0⟩,
  ⟨0x1f0004, 1, 4, 0x0, 0x0, 0x3c0, 0x0, 0x0, 0x0, 0xff80fc00⟩,
  ⟨0x1f0008, 1, 4, 0x0, 0x0, 0x0, 0x0, 0x0, 0x0, 0xffff0000⟩,
  ⟨0x1f000c, 1, 4, 0x0, 0x0, 0x0, 0x0, 0x0, 0x0, 0xffff0000⟩,
  ⟨0x1f0010, 1, 4, 0x0, 0x0, 0x0, 0x0, 0x0, 0x0, 0xff000000⟩,
  ⟨0x1f0014, 1, 4, 0x0, 0x0, 0x0, 0x0, 0x0, 0x0, 0x0⟩,
  ⟨0x1f0018, 1, 4, 0x0, 0x0, 0x0, 0x0, 0x0, 0x0, 0x0⟩,
  ⟨0x1f001c, 1, 4, 0x1320a0a, 0xffffffff, 0x0, 0x0, 0x0, 0x0, 0x0⟩,
  ⟨0x1f0020, 1, 4, 0x0, 0xffffffff, 0x0, 0x0, 0x0, 0x0, 0x0⟩,
  ⟨0x1f0024, 1, 4, 0x0, 0x0, 0x0, 0x0, 0x0, 0x0, 0x0⟩,
  ⟨0x1f0028, 1, 4, 0x0, 0x0, 0x0, 0x0, 0x0, 0x0, 0xffffff00⟩,
  ⟨0x1f002c, 1, 4, 0x0, 0x0, 0x0, 0x0, 0x0, 0x0, 0xff000000⟩,
  ⟨0x1f0030, 1, 4, 0x0, 0x0, 0x0, 0x0, 0x0, 0x0, 0x0⟩,
  ⟨0x1f0040, 4, 4, 0x0, 0xffffffff, 0x0, 0x0, 0x0, 0x0, 0x0⟩,
  ⟨0x1f0050, 1, 4, 0x0, 0x0, 0x2, 0x0, 0x1, 0x0, 0x7ffffffc⟩,
  ⟨0x1f0054, 1, 4, 0x0, 0x0, 0x0, 0x0, 0x0, 0x0, 0x0⟩,
  ⟨0x1f0058, 1, 4, 0x0, 0x0, 0x0, 0x0, 0x0, 0x0, 0x0⟩,
  ⟨0x1f0060, 4, 4, 0x0, 0x0, 0x0, 0x0, 0x0, 0x0, 0x0⟩,
  ⟨0x1f0070, 1, 4, 0x0, 0x0, 0x40000000, 0x0, 0x0, 0x0, 0x3ffff0c0⟩,
  ⟨0x1f0074, 1, 4, 0x0, 0x0, 0x0, 0x0, 0x1, 0x0, 0xfffffffe⟩,
  ⟨0x1f0080, 1, 4, 0x0, 0x0, 0x0, 0x0, 0xff, 0x0, 0xffffff00⟩,
  ⟨0x1f0084, 1, 4, 0x0, 0x0, 0x600, 0x0, 0x0, 0x0, 0xfffff800⟩,
  ⟨0x1f00a0, 1, 4, 0x0, 0x3, 0x0, 0x0, 0x80000000, 0x0, 0x7ffffffc⟩,
  ⟨0x1f00a4, 1, 4, 0x0, 0xffffffff, 0x0, 0x0, 0x0, 0x0, 0x0⟩]

def rowsCRD1 : List RegRow := [
  ⟨0x1f00a8, 1, 4, 0x0, 0x0, 0x1e, 0x0, 0x0, 0x0, 0xffffffe0⟩,
  ⟨0x1f00ac, 1, 4, 0x0, 0x0, 0x0, 0x0, 0x0, 0x0, 0x0⟩,
  ⟨0x1f00b0, 1, 4, 0x0, 0x0, 0x0, 0x0, 0x0, 0x0, 0x0⟩,
  ⟨0x1f00c0, 1, 4, 0x0, 0x0, 0x0, 0x0, 0x0, 0xffffffff, 0x0⟩,
  ⟨0x1f00c4, 1, 4, 0x0, 0x0, 0x0, 0x0, 0x0, 0xffffffff, 0x0⟩,
  ⟨0x1f00c8, 1, 4, 0x0, 0x0, 0x0, 0x0, 0x0, 0xffffffff, 0x0⟩,
  ⟨0x1f00cc, 1, 4, 0x0, 0x0, 0x80000000, 0x0, 0x0, 0x0, 0x40000000⟩]

def rowsCRD : List RegRow := rowsCRD0 ++ rowsCRD1

def rowsTWN : List RegRow := [
  ⟨0x200000, 1, 4, 0x0, 0x1, 0x0, 0x0, 0x2, 0x0, 0xfffffffc⟩,
  ⟨0x200004, 1, 4, 0x0, 0x0, 0x1f0000, 0x0, 0x0, 0x0, 0xffc00000⟩,
  ⟨0x200008, 1, 4, 0x4, 0xff, 0x0, 0x0, 0x0, 0x0, 0xffffff00⟩,
  ⟨0x20000c, 1, 4, 0x0, 0x0, 0x0, 0x0, 0x0, 0x0, 0xfff8⟩,
  ⟨0x200010, 3, 4, 0x10022011, 0x1fffff1f, 0x0, 0x0, 0x0, 0x0, 0xe00000e0⟩,
  ⟨0x200020, 1, 4, 0x0, 0x0, 0x0, 0x0, 0x0, 0x0, 0x0⟩,
  ⟨0x200024, 1, 4, 0x0, 0x0, 0x0, 0x0, 0x0, 0x0, 0x0⟩,
  ⟨0x200028, 1, 4, 0x0, 0x0, 0x80000000, 0x0, 0x0, 0x0, 0x7ff0f8c0⟩,
  ⟨0x20002c, 1, 4, 0x0, 0x0, 0x0, 0x0, 0x0, 0x0, 0x0⟩,
  ⟨0x200030, 1, 4, 0x0, 0x0, 0x0, 0x0, 0x0, 0xffffffff, 0x0⟩,
  ⟨0x200034, 1, 4, 0x0, 0x0, 0x0, 0x0, 0x0, 0xffffffff, 0x0⟩,
  ⟨0x200038, 1, 4, 0x0, 0x0, 0x0, 0x0, 0x0, 0x0, 0x0⟩,
  ⟨0x20003c, 1, 4, 0x0, 0x0, 0x0, 0x0, 0x0, 0x0, 0x0⟩,
  ⟨0x200040, 1, 4, 0x0, 0x0, 0x0, 0x0, 0x0, 0x0, 0xffffff00⟩,
  ⟨0x200044, 1, 4, 0x0, 0x0, 0x0, 0x0, 0x0, 0x0, 0x0⟩,
  ⟨0x200048, 1, 4, 0x0, 0x0, 0x0, 0x0, 0x0, 0xffffffff, 0x0⟩,
  ⟨0x20004c, 1, 4, 0x0, 0x0, 0x0, 0x0, 0x0, 0xffffffff, 0x0⟩,
  ⟨0x200050, 1, 4, 0x0, 0x0, 0x0, 0x0, 0x0, 0x0, 0x0⟩,
  ⟨0x200054, 1, 4, 0x0, 0x0, 0x0, 0x0, 0x0, 0xffffffff, 0x0⟩,
  ⟨0x200058, 1, 4, 0x0, 0x0, 0x0, 0x0, 0x0, 0xffffffff, 0x0⟩,
  ⟨0x20005c, 1, 4, 0x0, 0x0, 0x0, 0x0, 0x0, 0xffffffff, 0x0⟩,
  ⟨0x200060, 1, 4, 0x0, 0x0, 0x0, 0x0, 0x3, 0x0, 0xfffffffc⟩,
  ⟨0x200064, 1, 4, 0x0, 0x0, 0x80000000, 0x0, 0x0, 0x0, 0x40000000⟩]

def rowsTRM : List RegRow := [
  ⟨0x210000, 1, 4, 0x1001, 0xff07, 0x0, 0x0, 0x0, 0x0, 0xffff00f8⟩,
  ⟨0x210004, 1, 4, 0x0, 0x0, 0x0, 0x0, 0x0, 0x0, 0xfffffff8⟩,
  ⟨0x210010, 3, 4, 0x0, 0x3fff, 0x0, 0x0, 0x0, 0x0, 0xffffc000⟩,
  ⟨0x210020, 1, 4, 0xffffffff, 0x0, 0x0, 0x0, 0x0, 0x0, 0x0⟩,
  ⟨0x210024, 1, 4, 0xffffffff, 0x0, 0x0, 0x0, 0x0, 0x0, 0x0⟩,
  ⟨0x210028, 1, 4, 0xf, 0x0, 0x0, 0x0, 0x0, 0x0, 0xfffffff0⟩,
  ⟨0x210030, 1, 4, 0x0, 0x0, 0xffffffff, 0x0, 0x0, 0x0, 0x0⟩,
  ⟨0x210034, 1, 4, 0x0, 0x0, 0xffffffff, 0x0, 0x0, 0x0, 0x0⟩,
  ⟨0x210038, 1, 4, 0x0, 0x0, 0xf, 0x0, 0x0, 0x0, 0xfffffff0⟩,
  ⟨0x210100, 68, 4, 0x0, 0x0, 0x0, 0x0, 0x0, 0x0, 0xc000⟩,
  ⟨0x210400, 68, 4, 0x0, 0x0, 0x0, 0x0, 0x0, 0x0, 0x7fff0000⟩,
  ⟨0x210300, 3, 4, 0x0, 0x0, 0x0, 0x0, 0x0, 0x0, 0xffff0000⟩,
  ⟨0x210310, 3, 4, 0xa0000, 0x1f3fff, 0x0, 0x0, 0x0, 0x0, 0xff80c000⟩,
  ⟨0x210320, 1, 4, 0x0, 0x0, 0x80000000, 0x0, 0x0, 0x0, 0x40000000⟩]

def rowsAON : List RegRow := [
  ⟨0x220000, 1, 4, 0x0, 0x7, 0x0, 0x0, 0x0, 0x0, 0xfffffff8⟩,
  ⟨0x220004, 1, 4, 0x4, 0x0, 0xf0, 0x0, 0x0, 0x0, 0xfffffc00⟩,
  ⟨0x220008, 1, 4, 0x10, 0xffff, 0x0, 0x0, 0x0, 0x0, 0xffff0000⟩,
  ⟨0x22000c, 1, 4, 0x0, 0x0, 0x0, 0x0, 0x0, 0xf, 0xfffffff0⟩,
  ⟨0x220010, 1, 4, 0x0, 0x0, 0x80000000, 0x0, 0x0, 0x0, 0x40000000⟩,
  ⟨0x220100, 1, 4, 0x0, 0x0, 0x30, 0x0, 0x0, 0x0, 0xffc0⟩,
  ⟨0x220104, 1, 4, 0x0, 0x0, 0x0, 0x0, 0x0, 0xffffffff, 0x0⟩,
  ⟨0x220200, 1, 4, 0x1, 0x0, 0x1ff, 0x0, 0x0, 0x0, 0xfffffe00⟩,
  ⟨0x220204, 1, 4, 0x0, 0x0, 0xf0, 0x0, 0x0, 0x0, 0xffffff00⟩,
  ⟨0x220208, 1, 4, 0x103e8, 0x3ffff, 0x0, 0x0, 0x0, 0x0, 0xfffc0000⟩,
  ⟨0x22020c, 1, 4, 0x0, 0x0, 0x0, 0x3ffff, 0x0, 0x0, 0xfffc0000⟩]

def rowsECC : List RegRow := [
  ⟨0x230000, 1, 4, 0x103, 0xff03, 0x0, 0x0, 0x0, 0x0, 0xffff00fc⟩,
  ⟨0x230010, 4, 8, 0x0, 0x0, 0x0, 0x0, 0x0, 0xffffffff, 0x0⟩,
  ⟨0x230014, 4, 8, 0x0, 0x0, 0x0, 0x0, 0x0, 0xffffffff, 0x0⟩,
  ⟨0x230030, 1, 4, 0x0, 0x0, 0x80000000, 0x0, 0x0, 0x0, 0x7fffff08⟩,
  ⟨0x230034, 1, 4, 0x0, 0x0, 0x0, 0x0, 0x0, 0x0, 0x0⟩,
  ⟨0x230038, 1, 4, 0x0, 0x0, 0x0, 0x0, 0x0, 0x0, 0xfffffff8⟩,
  ⟨0x23003c, 1, 4, 0x0, 0x0, 0x0, 0x0, 0x0, 0xffffffff, 0x0⟩,
  ⟨0x230040, 1, 4, 0x0, 0x0, 0xfffff, 0x0, 0x0, 0x0, 0xfff00000⟩,
  ⟨0x230044, 1, 4, 0x0, 0x0, 0x0, 0x0, 0x0, 0x0, 0xfff00000⟩,
  ⟨0x230048, 1, 4, 0x0, 0x0, 0x0, 0x0, 0x0, 0xffffffff, 0x0⟩,
  ⟨0x23004c, 1, 4, 0x0, 0x0, 0x0, 0x0, 0x0, 0xffffffff, 0x0⟩,
  ⟨0x230050, 1, 4, 0x0, 0x0, 0x0, 0x0, 0x0, 0xffffffff, 0x0⟩,
  ⟨0x230060, 1, 4, 0x0, 0x0, 0xffffffff, 0x0, 0x0, 0x0, 0x0⟩,
  ⟨0x230064, 1, 4, 0x0, 0x0, 0xffffffff, 0x0, 0x0, 0x0, 0x0⟩,
  ⟨0x230068, 1, 4, 0x0, 0x0, 0xf, 0x0, 0x0, 0x0, 0xfffffff0⟩,
  ⟨0x230100, 16, 16, 0x0, 0x0, 0x0, 0x0, 0x0, 0x0, 0x0⟩,
  ⟨0x230104, 16, 16, 0x0, 0x0, 0x0, 0x0, 0x0, 0x0, 0x0⟩,
  ⟨0x230108, 16, 16, 0x0, 0x0, 0x0, 0x0, 0x0, 0x0, 0x0⟩,
  ⟨0x230200, 1, 4, 0x0, 0x1f, 0x0, 0x0, 0x0, 0x0, 0xffffffe0⟩,
  ⟨0x230204, 1, 4, 0x0, 0xffffffff, 0x0, 0x0, 0x0, 0x0, 0x0⟩,
  ⟨0x230208, 1, 4, 0x0, 0xffffffff, 0x0, 0x0, 0x0, 0x0, 0x0⟩,
  ⟨0x23020c, 1, 4, 0x0, 0xff, 0x0, 0x0, 0x0, 0x0, 0xffffff00⟩,
  ⟨0x230240, 1, 4, 0x0, 0x0, 0x80000000, 0x0, 0x0, 0x0, 0x40000000⟩]

def rowsSVC : List RegRow := [
  ⟨0x240000, 1, 4, 0x3, 0x0, 0x0, 0x0, 0x0, 0x0, 0xffff0000⟩,
  ⟨0x240004, 1, 4, 0x0, 0x0, 0x0, 0x0, 0x0, 0x0, 0x0⟩,
  ⟨0x240008, 1, 4, 0x0, 0x0, 0x0, 0x0, 0x0, 0x0, 0x0⟩,
  ⟨0x24000c, 1, 4, 0x0, 0x0, 0x0, 0x0, 0x0, 0x0, 0xffff0000⟩,
  ⟨0x240010, 1, 4, 0x0, 0x0, 0x0, 0x0, 0x1, 0x0, 0xfffffffe⟩,
  ⟨0x240014, 1, 4, 0x0, 0xffffffc0, 0x0, 0x0, 0x0, 0x0, 0x0⟩,
  ⟨0x240018, 1, 4, 0x0, 0x3, 0x0, 0x0, 0x0, 0x0, 0xfffffffc⟩,
  ⟨0x240020, 1, 4, 0x0, 0x0, 0x0, 0x0, 0x0, 0x0, 0xfffe0000⟩,
  ⟨0x240024, 1, 4, 0x0, 0x0, 0x0, 0x0, 0x0, 0xffff, 0xffff0000⟩,
  ⟨0x240030, 1, 4, 0x0, 0x3fff, 0x0, 0x0, 0x0, 0x0, 0xffffc000⟩,
  ⟨0x240034, 1, 4, 0x0, 0x0, 0x30, 0x0, 0x0, 0x0, 0xc000c0⟩,
  ⟨0x240038, 1, 4, 0x0, 0x0, 0x80000000, 0x0, 0x0, 0x0, 0x40000000⟩,
  ⟨0x240100, 1, 4, 0x0, 0xffff00ff, 0x0, 0x0, 0x0, 0x0, 0xff00⟩,
  ⟨0x240104, 1, 4, 0x0, 0x0, 0x4, 0x1, 0x0, 0x0, 0xfe0000f8⟩,
  ⟨0x240200, 64, 4, 0x0, 0xffffffff, 0x0, 0x0, 0x0, 0x0, 0x0⟩,
  ⟨0x240300, 64, 4, 0x0, 0x0, 0x0, 0x0, 0x0, 0x0, 0x0⟩]

/-- The rows of the block that holds offset `a` (R416); an offset in a window or in no block has none. -/
def blockRows (a : Nat) : List RegRow :=
  if a < 0x10000 then rowsSYS else if a < 0x20000 then rowsHIF else if a < 0x30000 then rowsSTR
  else if a < 0x40000 then rowsUNT else if a < 0x80000 then rowsKLN else if a < 0x180000 then []
  else if a < 0x190000 then rowsSWS else if a < 0x1a0000 then rowsHPT else if a < 0x1b0000 then rowsPOS
  else if a < 0x1c0000 then rowsFIR else if a < 0x1d0000 then rowsTRN else if a < 0x1e0000 then rowsINS
  else if a < 0x1f0000 then rowsTIM else if a < 0x200000 then rowsCRD else if a < 0x210000 then rowsTWN
  else if a < 0x220000 then rowsTRM else if a < 0x230000 then rowsAON else if a < 0x240000 then rowsECC
  else if a < 0x250000 then rowsSVC else if a < 0x3f0000 then [] else if a < 0x400000 then rowsNZT else []

/-- Does row `r` hold a register at offset `a`? -/
def RegRow.covers (r : RegRow) (a : Nat) : Bool :=
  r.base ≤ a && (a - r.base) % r.stride == 0 && (a - r.base) / r.stride < r.count

/-- The row of the register at offset `a`, or none where no register lies (R6: unimplemented). -/
def regRowAt (a : Nat) : Option RegRow := (blockRows a).find? (fun r => r.covers a)

/-- What the register at offset `a` holds after reset (R417); an offset without a register reads 0. -/
def regReset (a : Nat) : Word :=
  match regRowAt a with
  | some r => BitVec.ofNat 32 r.reset
  | none => 0#32

end Sys2Proof.Machine
end

