-- ==== Sys2Proof/Machine/State.lean ====
section
/-! DEFINITION. The state of the block as plain data: every register, memory, queue, counter and pin the spec gives
it, the queue of waiting commands, the reasons a step can stop, and the state right after power-on reset. -/

namespace Sys2Proof.Machine

/-- Why a step stops. -/
inductive Fault where
  /-- Raised by a meaning whose command is not well formed (WellFormed.lean): no wire of the hardware can carry it.
  Safe: the hardware never meets such a command. -/
  | illFormed (mnemonic : String)
  deriving DecidableEq, Repr

/-- Why a command has no meaning. -/
inductive Refusal where
  /-- Raised by the dispatcher for a command without a meaning. Safe: the machine stops where hardware goes on. -/
  | notModelled (mnemonic : String)
  deriving DecidableEq, Repr

/-- One write the device has issued into host memory (R66, R75, R279). -/
structure HostWrite where
  addr   : Nat
  bytes  : List Byte
  poison : Bool
  deriving DecidableEq, Repr

/-- Where a fetched descriptor stands (R57, R91 to R96, R100, R108). -/
inductive Phase where
  | waitAdmit   -- a BAND that waits for admission (R108)
  | reading     -- a BAND whose data is being read
  | printing    -- a BAND or STRIP whose lines have still to fire (R15)
  | waitLine    -- a MARK or SCHEDULE-EVENT that waits for its line (R91, R95)
  | fence       -- a FENCE (R92)
  | table       -- a TABLE whose records are being read or judged (R93)
  | done        -- completed; its completion waits for its turn (R68)
  deriving DecidableEq, Repr

/-- A fetched descriptor whose completion has not been written (R57). -/
structure Desc where
  count  : Nat          -- entry number of the ring, modulo 2^32 (R51)
  raw    : BitVec 256   -- the 32 bytes (R80)
  phase  : Phase
  status : Nat          -- status code of the completion (R70)
  blank  : Bool         -- its lines print blank (R72)
  first  : Nat          -- first line printed (R69)
  ts     : Word         -- TB0 of the completing event (R68)
  seq    : Nat          -- the band's key in the directory
  issued : Nat          -- bytes of band data or record data asked for
  got    : Nat          -- bytes arrived and taken
  tail   : List (BitVec 9)  -- bytes arrived and not yet cut into rows; bit 8 is the ash mark
  out    : Nat          -- records at the port that it has not yet accepted or refused (R93)
  passed : Bool         -- a record has been passed to the port (R71)
  reads  : List Nat     -- reads of band data issued and not yet answered, each by its bytes (R58)
  cov0   : Nat          -- C as it stood before the descriptor (R86)
  off0   : Bool         -- the END state as it stood before it
  ncov   : Nat          -- how many stretches of coverage stood before it
  deriving DecidableEq, Repr

/-- What a covered line prints (R87, R88, R94). -/
inductive CoverSrc where
  | band (seq : Nat)
  | blank
  | strip (due : Bool) (cycle : Nat) (start : Nat)
  deriving DecidableEq, Repr

/-- Web lines `lo` to `hi - 1` of a stream's bound unit and what they print. -/
structure Cover where
  lo  : Nat
  hi  : Nat
  src : CoverSrc
  deriving DecidableEq, Repr

/-- A stream context beside its registers (R57, R86). -/
structure Stream where
  descs   : List Desc       -- fetched, oldest first
  prod    : Word            -- the latest PROD taken into use (R53)
  pass    : List Nat        -- entry numbers that fetching passes over (R63)
  halt    : Option (BitVec 256)  -- the descriptor that halted the stream, for SKIP (R63)
  covEnd  : Nat             -- C (R86)
  covOff  : Bool            -- the END state (R86)
  cover   : List Cover      -- newest last
  rwait   : Bool            -- a RESTART that waits for a consistent PROD (R73)
  rej     : List (Nat × Nat) -- lines of bands rejected without skip-on-error, for the reference (R276): first, and one past the last
  stray   : List Nat        -- reads still to be answered of band data that is no longer taken, each by its bytes (R58)
  deriving DecidableEq, Repr

def Stream.reset : Stream := ⟨[], 0#32, [], none, 0, true, [], false, [], []⟩

/-- A band in the directory (R112): where it lies on the web and its stored rows. -/
structure Band where
  stream : Nat
  start  : Nat
  lines  : Nat
  first  : Nat        -- first line it prints (R88)
  width  : Nat
  fmt    : Nat
  res    : Nat
  noref  : Bool
  resv   : Nat        -- bytes reserved (R108)
  rows   : List (List (BitVec 9))  -- stored rows in order, as coded; bit 8 of a byte is its ash mark
  ready  : Bool       -- R89
  done   : Bool       -- completed: its bytes count as history (R109)
  evict  : Nat        -- bytes evicted, oldest first (R110)
  refail : List Nat   -- rows whose refetch left them marked (R387)
  refet  : List Nat   -- rows met marked, to be read again (R387)
  addr   : Nat        -- where its data lies in host memory
  stride : Nat        -- from row to row of a raw band, in units of 64 bytes
  asked  : List (Nat × Nat × Nat)  -- reads of rows that are outstanding: row, host address and bytes (R387)
  deriving DecidableEq, Repr

def Band.none : Band := ⟨0, 0, 0, 0, 0, 0, 0, false, 0, [], false, false, 0, [], [], 0, 0, []⟩

/-- An accepted unit operation (R38, R39, R438), in arrival order. -/
structure UOp where
  unit : Nat
  code : Nat
  line : Nat
  arg  : Word
  deriving DecidableEq, Repr

/-- The command ring and the doorbell poll (R53, R60, R62). -/
structure HostIf where
  sumOut   : Bool          -- a summary read is outstanding
  prodOut  : Bool          -- the read of the producer words is outstanding
  polledOn : Bool          -- a poll has succeeded since POLLEN went to 1b
  pollOld  : Bool          -- the poll in progress began before POLLEN last went to 1b (R53)
  gen      : Word          -- GEN of the previous successful poll
  genNext  : Word          -- GEN of the poll in progress
  pollAt   : Nat           -- when the summary read was issued
  nextPoll : Nat           -- when the next poll falls due
  cmdProd  : Word
  cqCons   : SMap Word
  cmdDone  : Option (List Byte)  -- the current command's completion, not yet written
  disarm   : Option (BitVec 256 × Nat)  -- DISARM in progress: its bytes and slot
  statSeq  : Word          -- SEQ of the latest status block (R74)
  statEnd  : Nat           -- end of the status period then running
  statLen  : Nat           -- its length in core clocks (R78, R148)
  xrange   : Nat           -- nozzle-lines outside the column range in this period (R34)
  xrangeP  : Nat           -- the same of the latest completed period
  cmdBad   : Bool          -- a command read has failed, and no later poll has found CMDPROD ahead (R60)
  turnF    : Nat           -- the stream whose turn to fetch comes first (R58)
  turnB    : Nat           -- the stream whose turn to request band data comes first (R58)
  deriving DecidableEq, Repr

def HostIf.reset : HostIf :=
  ⟨false, false, false, false, 0#32, 0#32, 0, 0, 0#32, [], none, none, 0#32, 0, 0, 0, 0, false, 0, 0⟩

/-- A request at the table update port (R20, R162): who sent it and its record bytes. -/
inductive PortSrc where
  | stream (st : Nat) (count : Nat)
  | bar0
  | inspection (k eng : Nat)   -- write number, and the engine
  | reload
  deriving DecidableEq, Repr

structure PortReq where
  src : PortSrc
  bytes : List Byte
  expect : Option Nat  -- bits 36 to 0 that an autonomous write expects to replace (R283)
  waits : Bool      -- it waits for a blend group or a curve bank (R140, R160)
  at_   : Nat       -- core clock at which it reached the port (R162)
  ash   : Bool      -- bytes of a marked word were merged into its entry, which keeps the mark (R385)
  deriving DecidableEq, Repr

/-- The time bases and the forerunner counter (R289, R294), each in units of 2^-24 ns. -/
structure Times where
  tb     : SMap Nat     -- base b, modulo 2^56
  rem    : SMap Int     -- what remains of a TIM_ADJ slew of base b (R291)
  frc    : Nat          -- forerunner counter, modulo 2^88
  frcLat : Nat          -- the latched upper word and fraction (R294)
  step   : SMap Nat     -- a TIM_SET of base b that takes effect at the next core clock, plus one; 0 for none (R291)
  was    : SMap Word    -- the registers as they stood when the present core clock began (R7)
  deriving DecidableEq, Repr

def Times.reset : Times := ⟨[], [], 0, 0, [], []⟩

/-- An event pin's schedule and the pulses in progress (R297). -/
structure Evt where
  run   : Bool       -- a schedule runs
  start : Word       -- its first start
  width : Nat        -- pulse width, 10 ns units
  per   : Nat        -- period in ns, 0 for a single pulse
  cnt   : Nat        -- pulses, 0 without end
  nextJ : Nat        -- the pulse that is due next
  last  : Bool       -- no further pulse starts
  ends  : List Nat   -- when the pulses in progress end
  drive : Bool       -- the level to which Hearth drives a pin that it owns (R295)
  deriving DecidableEq, Repr

def Evt.reset : Evt := ⟨false, 0#32, 0, 0, 0, 0, false, [], false⟩

/-- The encoder and the position (R204 to R221). The always-on part is `cnt`, `t`, `zacc` and `h`. -/
structure Pos where
  cnt    : SMap Int     -- channel counters, 48 bits
  ab     : SMap Nat     -- accepted pin levels of A (bit 1) and B (bit 0); idle inputs read 1 (R430)
  z      : SMap Nat     -- accepted level of Z
  raw    : SMap Nat     -- levels at the pins of a channel: Z (bit 2), A and B (R222)
  t      : Int          -- the voted count, which is the travel count T (R211)
  zacc   : Int          -- index accumulator
  h      : Int          -- high-water mark H (R219)
  phase  : Nat          -- quadrature state of the voted count: 0 to 3 for 00b, 10b, 11b, 01b
  armed  : Bool         -- the voted index has been low since the latest index event (R214)
  moves  : Nat          -- voted counts moved, for the window of R210
  ill    : SMap Nat     -- one more than `moves` at a channel's latest illegal transition, 0 for none
  edge   : Bool         -- an edge stands from which an interval may be measured (R217)
  ivals  : List Nat     -- the interval list, newest first, in ns (R216)
  rewind : Option Int   -- a rewind that waits (R220)
  sgn    : Int          -- forward direction of the travel count: -1 in a reverse pass (R238)
  norev  : Bool         -- between passes motion is no reversal (R241)
  zout   : Bool         -- the repeat output's Z is high (R222)
  lat    : SMap Word    -- latched HI words (R212)
  edgeAt : Nat          -- core clock of the latest voted edge at the pins (R230)
  deriving DecidableEq, Repr

def Pos.reset : Pos := ⟨[], [], [], [], 0, 0, 0, 2, true, 0, [], false, [], none, 1, false, false, [], 0⟩

/-- A protected word (R383): its data, the bits in which what is stored differs from a correct code word (data bits
63 to 0, check bits 71 to 64), and its ash mark. -/
structure MWord where
  data : BitVec 64
  err  : BitVec 72
  ash  : Bool
  deriving DecidableEq, Repr

/-- An error in a word whose content the model holds with something else (R383, R384): which word of that thing it is, where it lies in its
region, and its check state. -/
structure Flaw where
  idx  : Nat
  addr : Nat
  word : MWord      -- `data` is what the bits delivered differ by from the bits stored
  deriving DecidableEq, Repr

def Flaw.none : Flaw := ⟨0, 0, ⟨0#64, 0#72, false⟩⟩

/-- A screened line in a port's staging buffer (R16): its 512-byte image as it will be shifted, its line signature, and its words that an
error has reached (R383). -/
structure Staged where
  line  : Nat
  image : List Byte
  sig   : Word
  flaws : List Flaw     -- its words of 8 bytes
  deriving DecidableEq, Repr

/-- A decoded input row in the tile cache (R113): band, row number and pixels; bit 8 of a pixel is its ash mark. -/
structure Tile where
  seq : Nat
  y   : Nat
  pix : List (BitVec 9)
  flaws : List Flaw     -- its words of 8 pixels that an error has reached
  deriving DecidableEq, Repr

/-- Training in progress on a port (R187): its step (2, 4 or 6), the setting that step 2 tries, in bit times below 64 and from 64 on in
eighths of a bit, the bursts that have returned at that setting or in that step and whether all of them passed, what has passed, what the
latest passing trailer showed, the words that step 4 has met, by chain, and the chains that step 6 has found right. -/
structure Train where
  step   : Nat
  at_    : Nat
  n      : Nat
  ok     : Bool
  coarse : Nat
  fine   : Nat
  mark   : Bool
  llv    : Bool
  flv    : Bool
  words  : List (Nat × Option (BitVec 16))
  right  : Nat
  deriving DecidableEq, Repr

/-- Training begins with the first coarse setting. -/
def Train.fresh : Train := ⟨2, 0, 0, true, 0, 0, false, false, false, [], 0⟩

/-- A head unit and its port, beside their registers. -/
structure Head where
  live   : Bool          -- on a chain that reaches unit 127, as ARM found it (R30)
  first  : Nat           -- first line of the job (R229)
  next   : Nat           -- the line it fires or counts next
  screen : Nat           -- the line Kiln screens next for it
  unscr  : List (Nat × Nat)  -- stretches of lines below it that it has passed over unscreened (R233, R259)
  fin    : Option Nat    -- end line of a DISARM (R62): no line at or after it fires
  any    : Bool          -- a line of this job has counted as fired
  ramps  : List Nat      -- slew codes of the TRIM-RAMPs running on it (R39)
  stag   : List Staged   -- screened lines, oldest first
  tile   : List Tile     -- its share of the tile cache, oldest first
  tileTo : Nat           -- the line whose contone its Stoker brings next; every line below needs none or has it
  decAt  : Option (Nat × Nat)   -- the band and the row that its Stoker has decoded last (R125, R387)
  late   : Option Nat    -- the line on which it became data late (R118)
  placed : List (Nat × Nat)     -- lines with a placed FIRE and its instant (R230)
  pred   : Option (Nat × Nat)   -- a line and its predicted FIRE instant
  fireAt : Option Nat    -- FIRE instant of the line before (R177)
  fireB  : Option Nat    -- FIRE instant of the line before that one
  pulse  : Option (Nat × Nat)   -- the latest FIRE pulse: line and instant
  bnext  : Nat           -- the line whose burst starts next
  burst  : Option (Nat × Nat)   -- the burst given and not yet latched: its line and its end
  lat    : Option (Nat × Nat)   -- the latest LAT: its line and when it ends
  latFrom : Nat          -- when it rises
  lats   : Nat           -- LAT pulses counted, modulo 4 (R175)
  chainI : List Byte     -- the image that stands in the head's chains
  chainL : Nat           -- its line
  ret    : Option (Nat × Nat × Word)  -- a return not yet checked: line, chain and expected lane signature
  urline : Option Nat    -- the line reported late (R178)
  delay  : List (Nat × Nat)     -- lines that wait for their delayed FIRE, and their FIRE instants, oldest first (R234)
  flush  : Bool          -- a flush burst is owed (R181)
  resume : Option Nat    -- resume line of a splice (R252)
  zone   : Nat           -- lines that it has passed unfired in this splice (R260)
  outs   : List (Nat × Option Nat)  -- port-out substitutions: from a line, up to and not including another (R136)
  outBy  : Nat           -- what keeps the port out: bit 0 temperature, bit 1 chain return
  sels   : List (Nat × Nat)  -- matrix selections that wait for their line (R161)
  hot    : Bool          -- the head is above its limit (R200)
  poll   : Nat           -- when its temperature was last read
  train  : Option Train  -- training runs
  up     : Nat           -- the latest step of its bring-up that Hearth has done (R189)
  runAt  : Nat           -- when a PRBS run was last begun
  prbs   : Nat           -- state of the PRBS generator of lane 0 at the start of the latest burst (R190)
  prbsP  : Nat           -- the same of the burst before
  prbsN  : Nat           -- PRBS bursts given since RUN was set
  prbsAt : Nat           -- when the latest burst of the port ends, 0 before any
  retq   : List (Nat × Nat × Nat)  -- observed returns that wait for their line to be screened: line, bits, trailer (R184)
  obs    : Nat           -- LATs observed since MONITOR was entered
  mpass  : Nat           -- settings of the monitor delay, in bit times, at which an observed trailer was valid (R184)
  fireHi : Bool          -- the observed FIRE is high
  fall   : Nat           -- when it last fell (R340)
  mode   : Option Nat    -- a MODE that waits for a hand-over slot (R183)
  modeTw : Bool          -- it is the twin logic's doing, which alone changes MODE during a job (R183)
  skip   : Bool          -- the next return is not compared (R191, R336)
  enab   : Nat           -- when the drivers were enabled (R340)
  past   : List (Nat × List Byte)  -- the latest lines counted in MONITOR and their images, newest first (R176)
  mline  : Option Nat    -- the line of the latest LAT observed, once the port has aligned (R329)
  seen   : List (Nat × Word)  -- observed FIREs: LATs observed by then, and TB0, newest first
  rfire  : List (Nat × Word)  -- the latest FIRED entries: line and FIRE instant, newest first
  obsRet : Option (Nat × Nat)  -- an observed return that waits for the next LAT: bits and trailer
  cls    : Nat           -- class of the latest return checked (R191)
  lineAsh : Bool         -- a marked word went into the burst that stands in the chains (R386)
  pins   : List Nat      -- what pins D0 to D3 carried in the latest burst, 1,024 bits each, the first bit lowest (R171)
  obsN   : Nat           -- bursts observed since MONITOR was entered (R184)
  obsFl  : Bool          -- the observed chains hold the zeros of a flush burst (R181)
  deriving DecidableEq, Repr

def Head.reset : Head :=
  { live := false, first := 0, next := 0, screen := 0, unscr := [], fin := none, any := false, ramps := [], stag := [],
    tile := [], tileTo := 0, decAt := none, late := none, placed := [], pred := none, fireAt := none, fireB := none, pulse := none,
    bnext := 0, burst := none, lat := none, latFrom := 0, lats := 0, chainI := [], chainL := 0, ret := none, urline := none, delay := [],
    flush := false, resume := none, zone := 0, outs := [], outBy := 0, sels := [], hot := false, poll := 0, train := none, up := 1, runAt := 0, prbs := 0,
    prbsP := 0, prbsN := 0, prbsAt := 0, retq := [], obs := 0, mpass := 0, fireHi := false, fall := 0, mode := none, modeTw := false, skip := true, enab := 0, past := [],
    mline := none, seen := [], rfire := [], obsRet := none, cls := 0, lineAsh := false, pins := [], obsN := 0, obsFl := false }

/-- A change of a nozzle entry that is pending or fading (R138 to R140). -/
structure Chg where
  e   : Nat
  b   : Nat
  old : MWord     -- O
  new : MWord     -- N
  deriving DecidableEq, Repr

/-- A nozzle entry: the word most recently written, the word in effect before any pending change, and the changes
that are pending or fading, lowest E first. -/
structure NEnt where
  last : MWord
  base : MWord
  chg  : List Chg
  trim : Nat        -- TRIM most recently written by a writer other than inspection (R281)
  deriving DecidableEq, Repr

/-- A curve select (R160): the bank in effect, the bank most recently written, and a switch that waits: its line E
and the ports that have not screened it. -/
structure Curve where
  bank : Nat
  wr   : Nat
  pend : Option (Nat × List Nat)
  deriving DecidableEq, Repr

/-- Bytes of one word that wait to be written: the table port latch (R164) and the merge buffers (R389). -/
structure Narrow where
  key  : Nat
  mask : Nat      -- bit i: byte i has come
  val  : Nat
  at_  : Nat      -- core clock of its last write
  deriving DecidableEq, Repr

/-- The memories that hold tables, and what belongs to them. -/
structure Tables where
  ents    : SMap NEnt       -- nozzle entries (R152) with the blend shadow (R140)
  shadow  : SMap MWord      -- shadow copies of the entries in the staging partition (R162)
  cshadow : SMap MWord      -- shadow copies of the curves there: curve and word (R105)
  mshadow : SMap MWord      -- shadow copies of the matrix windows there (R105)
  curves  : SMap MWord      -- 64-bit words of the curves: select, bank and word (R158, R160)
  cstate  : SMap Curve
  mtx     : SMap MWord      -- 64-bit words of the four matrix windows (R158)
  codes   : SMap MWord      -- errors and marks of column map words, and from 2^17 on of blend shadow words not in use (R384, R386)
  mapOut  : List Nat        -- columns whose map word is being rebuilt (R386)
  latch   : Option Narrow
  latchErr : Flaw           -- what is wrong in the latched word (R383)
  merge   : SMap (Option Narrow)  -- 0 on-chip SRAM, by window word; 1 swath store (R389)
  ff      : SMap MWord      -- flat-field entries, two to a word: camera and word (R271)
  store   : SMap (Option MWord)  -- swath store words that BAR2 has written (R121)
  lat     : SMap MWord      -- errors, not read yet, of store words in which the device keeps data of its own (R384, R390)
  stale   : List (Nat × Nat)  -- base and size, in MiB, of partitions released since the store was filled (R106)
  retn    : SMap MWord      -- retention SRAM, 32-bit words (R381)
  hsram   : SMap MWord      -- Hearth private SRAM, 32-bit words (R383, R397)
  reload  : List Nat        -- entries queued in NZT_RELOAD (R168)
  acted   : List Nat        -- marked entries already queued, until a writer changes them (R168)
  scan    : Bool            -- a walk of the column map runs (R157)
  results : List (Nat × Nat)  -- port results of autonomous writes: write number and code, 0 accepted (R283)
  deriving DecidableEq, Repr

def Tables.reset : Tables := ⟨[], [], [], [], [], [], [], [], [], none, Flaw.none, [], [], [], [], [], [], [], [], [], false, []⟩

/-- A trigger record (R267): when the pulse began, in TB0 time and in core clocks, the interpolated travel count in 1/256 count, the
intervals that give the mean interval (their sum and number, 0 where speed was not valid), and what the snapshot says of the
position. The record of a FREE frame is taken CAM_EXPDLY before its Frame Start. -/
structure Trig where
  tb     : Word
  at_    : Nat
  tt     : Int
  sum    : Nat
  k      : Nat
  nopos  : Bool
  rev    : Bool
  deriving DecidableEq, Repr

/-- A row of a frame: its pixels after flat-field, or the raw line while it waits in the spill partition, in which a fill
pixel is none; and the web line seen, in 1/256 line, where the row has one (R268). -/
structure CamRow where
  pix : List Nat
  raw : Option (List (Option Nat))
  pos : Option Int
  deriving DecidableEq, Repr

/-- A frame in progress (R265, R274, R275). -/
structure CamFrame where
  num    : Nat
  start  : Word              -- TB0 of Frame Start
  width  : Nat
  flines : Nat
  flags  : Nat               -- bits of the statistics header (R279)
  rows   : List CamRow
  lines  : Nat               -- camera lines received
  fills  : Nat               -- fill lines
  te     : Option Trig       -- what places the rows of a FREE or FRAME frame, none without a record
  closed : Bool
  endAt  : Nat               -- when Frame End came
  outAt  : Nat               -- when its latest line leaves the pipeline
  deriving DecidableEq, Repr

/-- A camera port beside its registers (R263 to R268), and its engines' cycle (R279 to R282). -/
structure Cam where
  pin    : Option Nat        -- the event pin that EN has claimed
  opened : Bool              -- a frame is open: the last one of `frames`
  next   : Nat               -- number of the next frame
  trigs  : List Trig         -- the trigger queue, oldest first
  mark   : Int               -- targets up to this travel count, in 2^-24 count, are dealt with (R266)
  frames : List CamFrame     -- oldest first
  done   : Nat               -- number of the last frame completed
  parts  : List Nat          -- numbers of the completed frames that carry PARTIAL (R265)
  cycle  : Nat               -- the strip cycle that what follows belongs to
  wrN    : Nat               -- autonomous writes of that cycle (R281)
  trim0  : List (Nat × Int)  -- entries whose TRIM the cycle has changed, and what it was before (R281)
  counts : List Nat          -- findings of the cycle: LOW, MISS, POS, RECOVER (R279)
  deriving DecidableEq, Repr

def Cam.reset : Cam := ⟨none, false, 0, [], 0, [], 0, [], 0, 0, [], [0, 0, 0, 0]⟩

/-- A spilled line (R274): its camera, frame, row and bytes, and whether one of its words is marked (R386). -/
structure Spill where
  cam   : Nat
  frame : Nat
  row   : Nat
  bytes : Nat
  ash   : Bool
  deriving DecidableEq, Repr

/-- A job starts its strip cycles anew (R277). -/
def Cam.anew (c : Cam) : Cam := { c with cycle := 0, wrN := 0, trim0 := [], counts := [0, 0, 0, 0] }

/-- What the position and the splice sequence say at a moment, as mapping uses it (R268). -/
structure Seen where
  trust  : Bool
  origin : Bool
  rev    : Bool
  splice : Bool
  deriving DecidableEq, Repr

/-- Consecutive cycles in which entry `ent` gave MISS (kind 1) or RECOVER (kind 4), and the latest of them (R280, R281). -/
structure FindRun where
  ent  : Nat
  kind : Nat
  cyc  : Nat
  n    : Nat
  deriving DecidableEq, Repr

/-- A defect record that waits for the port's results of its writes (R283): the writes without a result yet, the number of the
first one, bytes 4 to 59, and whether some of them come from a marked word (R386). -/
structure Defect where
  ks    : List Nat
  main  : Nat
  body  : List Byte
  ep    : Bool
  deriving DecidableEq, Repr

/-- A row of the inspection reference (R276): its stream, its number, its bytes, and whether one of its words is marked (R386). -/
structure RefRow where
  stream : Nat
  row    : Nat
  bytes  : List Nat
  ash    : Bool
  deriving DecidableEq, Repr

/-- Inspection beside its registers (R268, R274, R277, R280 to R283, R325). -/
structure Insp where
  last     : Nat               -- S of the latest due strip
  strips   : List (Nat × Nat)  -- due strips of this job: first line and length, oldest first
  cams     : SMap Cam
  spill    : List Spill        -- the spill partition, oldest first
  pipeFree : Nat               -- when the image pipeline has taken in what waits at its input
  writes   : Nat               -- autonomous writes numbered
  partner  : List (Nat × List Nat)  -- port results that the STANDBY has reported: sequence number of the BATCHRES, and codes
  hist     : List (Nat × Seen) -- what was seen from a core clock on, oldest first
  runs     : List FindRun
  defects  : List Defect       -- oldest first
  batch    : Option (Nat × Nat)  -- the latest batch of autonomous writes: the strip cycle, and E (R282)
  lineErr  : List Flaw         -- errors in the camera line buffers (R383)
  deriving DecidableEq, Repr

def Insp.reset : Insp := ⟨0, [], [], [], 0, 0, [], [], [], [], none, []⟩

/-- Kiln beside its registers (R123, R147, R148). -/
structure Kiln where
  want   : Bool         -- a burst has been requested for the next line screened (R147)
  burst  : List Nat     -- web lines for which bursts are agreed (R147, R333)
  last   : Option Nat   -- the web line after which the latest burst ran
  busy   : Nat          -- busy clocks of the status period then running
  catch_ : Nat          -- catch-up clocks of the same
  deriving DecidableEq, Repr

def Kiln.reset : Kiln := ⟨false, [], none, 0, 0⟩

/-- Line firing beside its registers (R227, R228, R238). -/
structure Fir where
  torg  : Int     -- Torg in effect, in units of 2^-24 count
  lorg  : Nat     -- Lorg
  passT : Int     -- travel count at the start of the pass
  sos   : Nat     -- accepted levels of SOS0 and SOS1
  deriving DecidableEq, Repr

def Fir.reset : Fir := ⟨0, 0, 0, 3⟩

/-- What another chip has last reported over the Cord ring (R247, R307). -/
structure Report where
  g     : Nat
  cause : Nat
  ready : Bool
  back  : Nat
  at_   : Nat
  armed : Bool
  asked : Bool   -- it has asked for the splice in progress (R254)
  deriving DecidableEq, Repr

def Report.none : Report := ⟨256, 0, true, 0, 0, false, false⟩

/-- The splice beside its registers (R251 to R260). -/
structure Splice where
  hold   : Bool           -- the freeze: no FIRE is given and no line counts (R252)
  active : Bool           -- a splice of this chip runs from its freeze to IDLE
  hf     : Int            -- H at the freeze
  v      : Int            -- the splice point V
  hot    : List (Nat × Nat)  -- hot units and their splice lines (R252)
  fired  : Bool           -- some frozen unit has fired its resume line
  causes : Nat            -- merged causes
  ts     : Word           -- TB0 of the freeze
  low    : Nat            -- lowest resume line
  zone   : Nat            -- most lines passed unfired by any one unit (R257, R259)
  nohist : Bool
  back   : Int            -- own back line
  target : Int            -- back target in travel counts
  since  : Nat            -- when the present state was entered
  reps   : SMap Report    -- reports of the other chips
  taken  : Nat            -- active causes that have been merged, or whose freeze has its own instant (R251, R252)
  deriving DecidableEq, Repr

def Splice.reset : Splice := ⟨false, false, 0, 0, [], false, 0, 0#32, 0, 0, false, 0, 0, 0, [], 0⟩

/-- A frame that the chip has sent: over which link, its type, and its payload field by field (R301, R319). Links: 0 Cord
ring A, 1 Cord ring B, 2 Cord port CE and 3 Cord port CW alone, 4 the twin link. -/
structure Frame where
  link : Nat
  kind : Nat
  body : List Nat
  deriving DecidableEq, Repr

/-- The header of a Cord frame as a chip receives it (R300): the ring, the hop count, with the link that it came on counted, the sequence
number and the originator's address. -/
structure Hdr where
  ring : Nat
  hops : Nat
  seq  : Nat
  from_ : Nat
  deriving DecidableEq, Repr

/-- A GATHER: its header, the barrier ID, the entry bitmap and MISMATCH (R309). -/
structure Gather where
  hdr : Hdr
  id  : Nat
  map : Nat
  mm  : Bool
  deriving DecidableEq, Repr

/-- The Cord ring beside its registers (R299 to R312). -/
structure Cord where
  found   : Nat             -- addresses found since the ring was enabled, as a bitmap (R302)
  hops    : SMap (List Nat) -- latest hop delays of CE (0) and CW (1), newest first, 1/16 ns
  txSeq   : Nat             -- the sequence number of the next frame of this chip (R300)
  probe   : SMap Nat        -- when the latest PROBE left on CE and CW, plus one; 0 before any
  disc    : SMap Nat        -- when the latest DISCOVER left on each ring, plus one; 0 once it is back
  discAt  : Nat             -- when DISCOVER was last sent, plus one; 0 where it is due at once (R301)
  near    : SMap (Nat × Nat)  -- the latest SYNC on each ring: its hops, and when it came plus one (R304)
  tmFrom  : Option Nat      -- the time master followed
  tmAt    : Nat             -- when its latest SYNC came
  syncTx  : Nat             -- when the latest SYNC of this chip left, plus one
  oreqAt  : Nat             -- when the latest OREQ left, plus one
  lmFrom  : Option Nat      -- the line master followed
  good    : Nat             -- consecutive offsets below 20 ns, to 8
  syncAt  : Nat             -- when the latest SYNC came
  snap    : Option Word     -- a line agreement snapshot that is due at this TB0 time (R306)
  cap     : Option (Word × Int × Bool)  -- the capture: its time, travel count in 1/256, and whether it is sound
  inbox   : List (Nat × Nat)            -- received broadcasts, oldest first: source and 128-bit message
  sentAt  : Nat             -- when the broadcast in flight left
  sentSeq : Nat             -- its sequence number (R311)
  gather  : Option Gather   -- a GATHER that is held (R309)
  queue   : List (Nat × Word)           -- queued scheduled actions: kind and time
  schedAt : Nat             -- when the SCHED in flight left
  schedSeq : Nat            -- its sequence number (R311)
  silent  : Bool            -- no TRNSTATE for 200 µs (R307)
  stateAt : Nat             -- when the latest TRNSTATE came
  stateTx : Nat             -- when the latest TRNSTATE left
  repAt   : Nat             -- when the latest TRNREP left
  repLast : List Nat        -- what it carried
  deriving DecidableEq, Repr

def Cord.reset : Cord :=
  ⟨0, [], 0, [], [], 0, [], none, 0, 0, 0, none, 0, 0, none, none, [], 0, 0, none, [], 0, 0, false, 0, 0, 0, []⟩

/-- The trim converters beside their registers (R346, R352). -/
structure Trims where
  want    : SMap Int     -- the target asked for, before hold and clamp
  changed : SMap Nat     -- when the output last moved
  bad     : SMap Nat     -- consecutive compared rounds out of tolerance
  next    : Nat          -- the conversion due next in the monitor's round of 71
  cut     : Bool         -- every channel is cut to 0 V (R360)
  load    : Bool         -- the corrections are being loaded from OTP (R351)
  upd     : SMap Nat     -- when a new target was last asked for, plus one (R346)
  deriving DecidableEq, Repr

def Trims.reset : Trims := ⟨[], [], [], 0, false, false, []⟩

/-- Supplies, power states and resets beside their registers (R357 to R377). -/
structure Power where
  stepAt  : Nat         -- the event from which the gap to the next release step counts (R373)
  ended   : Bool        -- the release step last begun has ended
  poweron : Bool        -- the release follows an AON power-on
  trained : Bool        -- DRAM training is over and the store fill runs, or has run
  delay   : Option Nat  -- a delayed reset and its reach: 0 blocks alone, 1 Hearth, 2 SOFT, 3 SYSTEM (R375)
  blocks  : Word        -- block resets that are delayed with it (R375, R377)
  dlyBits : Nat         -- the RST_STAT bits of that delay
  soft    : Bool        -- the release under way is that of a SOFT reset (R373, R376)
  waking  : Bool        -- the return from Smoulder runs (R369)
  reboot  : Bool        -- Hearth is to start anew on that return (R376)
  wakeT   : Int         -- the voted count at entry into Smoulder (R370)
  dropped : Bool        -- a reset discarded scheduled actions: DROPPED follows the release (R312)
  rails   : Bool        -- VDD_CORE, VDD_SRAM, VDD_IO, VDD_HP and VDDA have each passed 90 % of nominal (R427)
  railLow : Bool        -- the power-fail warning was raised by one of them, which has not recovered (R427)
  scrub   : Nat         -- the word of the on-chip SRAM that the scrubber reads next (R390)
  burst   : Nat         -- the 64-byte burst of the store that it reads next
  deriving DecidableEq, Repr

def Power.reset : Power := ⟨0, true, true, false, none, 0#32, 0, false, false, false, 0, false, false, false, 0, 0⟩

/-- Service beside its registers (R375, R397 to R413). -/
structure Svc where
  cmd   : Option Nat             -- the mailbox command that runs
  stat  : Nat                    -- the status that its start has decided, 0 for none (R408)
  pulse : Option (Nat × Word)    -- an OTP program pulse runs: word and the bits it programs
  page  : Bool                   -- a head-memory write runs
  pages : Nat                    -- pages of the rank record written (R197)
  nack  : Bool                   -- the head memory has not acknowledged
  turn  : Bool                   -- between two pages: a poll may take the bus (R198)
  tasks : List (Nat × Nat)       -- work that waits for Hearth, oldest first: class, and the golden word or the command (R399)
  qspi  : Bool                   -- Kindling has made its first access to the flash since the reset (R378)
  req   : List (BitVec 8)        -- the first 16 request bytes, as GO has found them (R406)
  hi    : Bool                   -- WRSEAL_N has been high since the command began
  lo    : Bool                   -- it has been low since (R412)
  back  : Option (Nat × Bool)    -- RETRAIN: the MODE that its port returns to, and whether training has begun (R407)
  deriving DecidableEq, Repr

def Svc.reset : Svc := ⟨none, 0, none, false, 0, false, false, [], false, [], false, false, none⟩

/-- A line entry of R319: kind 1 SIG, 2 FIRED, 3 CLASS; flags [0] HELD, [1] NOFIRE, [2] ASH; and when it came. -/
structure TEntry where
  kind  : Nat
  port  : Nat
  cls   : Nat
  line  : Nat
  val   : Word
  flags : Nat
  at_   : Nat
  deriving DecidableEq, Repr

/-- What the chip holds of one port-line for comparison (R331). -/
structure TLine where
  port : Nat
  line : Nat
  sig  : Option Word     -- own signature
  psig : Option Word     -- the partner's
  cls  : Option Nat      -- own return class
  pcls : Option Nat
  ash  : Bool            -- an own entry carries ASH
  pash : Bool            -- an entry of the partner's carries ASH
  sigs : Bool            -- the signatures have been compared
  clss : Bool            -- the classes have been compared
  kind : Option Nat      -- the kind of its divergence (R332)
  good : Bool            -- both agreed, and the line has still to count on the lead head
  deriving DecidableEq, Repr

/-- An agreement (R326, R327): purposes 1 EMBER, 2 PORTOUT, 3 PORTIN, 4 RELOAD, 5 RETURN. -/
structure Agreement where
  purpose : Nat
  mask    : Nat          -- its ports
  prop    : Nat          -- own proposal
  arg     : Nat          -- the entry of a RELOAD, or what keeps a port out
  at_     : Nat          -- when PROPOSE was sent
  done    : Bool         -- it has merged with one of the partner's, whose AGREE is still to come (R327)
  deriving DecidableEq, Repr

/-- An Ember result (R333): the line, the vectors compared, the vectors failed, and whether it was a burst. -/
structure EmbRes where
  line  : Nat
  cmp   : Nat
  fail  : Nat
  burst : Bool
  deriving DecidableEq, Repr

/-- An acknowledged frame that is not yet acknowledged (R319). -/
structure Unacked where
  seq   : Nat
  frame : Frame
  at_   : Nat
  tries : Nat
  deriving DecidableEq, Repr

/-- The twin logic beside its registers (R316 to R342). -/
structure Twin where
  helloAt : Option Nat   -- when the latest HELLO came
  pstrap  : Nat          -- what it said of the partner
  pready  : Bool
  preason : Nat
  pprimed : Bool
  parmed  : Bool
  pserial : Nat
  done    : Bool         -- Hearth has finished the bring-up steps that this chip runs (R189)
  seqOut  : Nat          -- sequence number of the latest acknowledged frame sent
  seqIn   : Nat          -- sequence number of the latest one received
  unacked : List Unacked
  edge    : Option Nat   -- the latest edge on TWIN_ALIVE_IN
  ivals   : List Nat     -- the latest two intervals between its edges
  deadAt  : Nat          -- when PALIVE became DEAD
  level   : Bool         -- TWIN_ALIVE_OUT
  aliveAt : Nat          -- when it last toggled
  out     : List TEntry  -- line entries to be sent, oldest first
  lines   : List TLine
  agrees  : List Agreement  -- proposals sent and not yet agreed
  emb     : List EmbRes  -- own Ember results without the partner's
  pemb    : List EmbRes  -- the partner's without an own one
  divOpen : Bool         -- a divergence waits for its Ember burst
  divLine : Nat          -- the line of the first divergence recorded
  input   : Bool         -- an INPUT verdict is outstanding (R334)
  skipAt  : SMap Nat     -- the line after the latest passed unscreened on each port, 0 for none (R334)
  rxBad   : Nat          -- ports that RX divergences make not ready
  mast    : Bool         -- this chip has the transport mastership of the pair (R247, R340)
  take    : Bool         -- a takeover is due (R335)
  wait_   : Bool         -- it waits for RELEASED and for PALIVE to leave DRIVING (case 1)
  swap    : Bool         -- the hand-over at ARM waits for the same (R340)
  failed  : Bool         -- the takeover follows a verdict, so the other chip is reset (R333)
  released : Nat         -- ports whose drivers the partner has reported off
  handAt  : Nat          -- when a takeover last changed a port (R336)
  ret     : Option Nat   -- a return in progress: its line A (R340)
  moved   : Nat          -- its ports that have moved
  digest  : Bool         -- the configuration digest of this job has been computed (R324)
  join    : Bool         -- JOIN waits for the join state (R339)
  batch   : List (List Nat)  -- the writes of each BATCH whose results are not all known, by number (R325)
  holdTwin : Bool        -- TWIN holds until DISARM (R333)
  suspect : Bool         -- lines are suspect, and their number waits for the freeze (R338)
  lanesOk : Bool         -- both lanes are aligned and see valid characters (R318)
  unbroken : Bool        -- the link has not been down since the reset
  helloTx : Bool         -- a HELLO has gone out since it went down
  helloRx : Bool         -- a HELLO has come in since it went down
  busIn   : Nat          -- buses that the chip takes over at their next idle (R336, R340)
  busOut  : Nat          -- buses that it gives up at their next idle
  rstSent : Bool         -- the partner has been asked to reset (R333)
  fwd     : Bool         -- the head records have gone to the partner since its bring-up or this chip's (R325)
  deriving DecidableEq, Repr

def Twin.reset : Twin :=
  ⟨none, 0, false, 0, false, false, 0, false, 0, 0, [], none, [], 0, false, 0, [], [], [], [], [], false, 0, false, [], 0, false,
   false, false, false, false, 0, 0, none, 0, false, false, [], false, false, false, true, false, false, 0, 0, false, false⟩

/-- The state of the block. -/
structure State where
  pending  : List Instr
  clk      : Nat                 -- core clocks (R10)
  freeCtr  : Nat                 -- how many free values have been drawn
  readData : BitVec 64           -- what the latest read returned (R6)
  timers   : SMap Nat            -- start instants of periods and time-outs
  readEP   : Bool                -- that read returned with the EP bit set (R121, R386)
  regs     : SMap Word           -- BAR0 registers
  cfg      : SMap Word           -- the PCI configuration space (R46); Bus Master Enable and the power state stand in regs
  alarms   : BitVec 64           -- alarm conditions since the latest status block (R76)
  out      : List HostWrite      -- writes issued into host memory, oldest first
  times    : Times
  hostIf   : HostIf
  streams  : SMap Stream
  bands    : SMap Band           -- the directory (R112)
  bandSeq  : Nat
  ubase    : SMap Word           -- the units' own fields as ARM froze them (R61)
  uops     : List UOp            -- accepted unit operations (R39)
  heads    : SMap Head           -- head units 0 to 63
  trims    : Trims
  otp      : SMap Word           -- the integrator area of the OTP, words 0 to 63 (R407)
  pos      : Pos
  fir      : Fir
  splice   : Splice
  cord     : Cord
  sent     : List Frame          -- frames sent over the Cord ring and the twin link, oldest first
  evts     : SMap Evt            -- event pins 0 to 7
  portQ    : List PortReq        -- requests at the table update port (R20)
  tabs     : Tables
  kiln     : Kiln
  insp     : Insp
  refs     : List RefRow         -- reference rows present, oldest first (R276)
  refNext  : SMap Nat            -- the reference row that each stream forms next
  buses    : SMap Nat            -- head management buses: the port being read, plus one (R198)
  headMem  : SMap Nat            -- bytes of the held head records: port * 8192 + offset (R189, R407)
  power    : Power
  svc      : Svc
  flashA   : List Byte           -- what slot A of the QSPI flash holds from its first byte on; FFh after it (R403)
  flashB   : List Byte           -- the same of slot B
  stokerMem : List Byte          -- the Stoker instruction memory (R402)
  engineMem : List Byte          -- the inspection engine instruction memory
  twin     : Twin
  serial   : BitVec 64           -- device serial number, from OTP (R46)
  deriving DecidableEq, Repr

/-- The state right after AON power-on: every register at its reset value, nothing held anywhere. -/
def State.reset : State where
  pending := []
  clk := 0
  freeCtr := 0
  readData := 0#64
  readEP := false
  timers := []
  regs := []
  cfg := []
  alarms := 0#64
  out := []
  times := Times.reset
  hostIf := HostIf.reset
  streams := []
  bands := []
  bandSeq := 0
  ubase := []
  uops := []
  heads := []
  trims := Trims.reset
  otp := []
  pos := Pos.reset
  fir := Fir.reset
  splice := Splice.reset
  cord := Cord.reset
  sent := []
  evts := []
  portQ := []
  tabs := Tables.reset
  kiln := Kiln.reset
  insp := Insp.reset
  refs := []
  refNext := []
  buses := []
  headMem := []
  power := Power.reset
  svc := Svc.reset
  flashA := []
  flashB := []
  stokerMem := []
  engineMem := []
  twin := Twin.reset
  serial := 0#64

end Sys2Proof.Machine
end

