-- ==== Sys2Proof/Machine/Ops.lean ====
section
/-! DEFINITION. The named operations over registers, time, timers, alarms and the device's own output, which every
meaning is built from. -/

namespace Sys2Proof.Machine

/-! ### Registers -/

/-- The register at offset `a` as it is held. -/
def State.reg (s : State) (a : Nat) : Word := s.regs.get regReset a

/-- Put `v` into the register at offset `a`. -/
def State.setReg (s : State) (a : Nat) (v : Word) : State := { s with regs := s.regs.set regReset a v }

/-- The value of a field. -/
def State.fld (s : State) (f : Fld) : Nat := bitsOf (s.reg f.addr).toNat f.lo f.width

/-- A field of one bit as a truth value. -/
def State.on (s : State) (f : Fld) : Bool := s.fld f != 0

/-- Put `x` into a field, leaving the register's other bits. -/
def State.setFld (s : State) (f : Fld) (x : Nat) : State :=
  s.setReg f.addr (putBits (s.reg f.addr) f.lo f.width x)

/-- Set a one-bit field. -/
def State.setOn (s : State) (f : Fld) : State := s.setFld f 1

/-- Set a one-bit field to `b`. -/
def State.setBit (s : State) (f : Fld) (b : Bool) : State := s.setFld f (b2n b)

/-- Add `n` to a counting field, saturating at its width (R7). -/
def State.count (s : State) (f : Fld) (n : Nat) : State :=
  s.setFld f (satAdd f.width (s.fld f) n)

/-- Add `n` to a 32-bit counting register, saturating. -/
def State.countReg (s : State) (a : Nat) (n : Nat) : State :=
  s.setReg a (BitVec.ofNat 32 (satAdd 32 (s.reg a).toNat n))

/-- Every register of `lo` to `hi - 1` returns to its reset value (R372, R377). -/
def State.resetRange (s : State) (lo hi : Nat) : State :=
  { s with regs := s.regs.drop (fun a => lo ≤ a && a < hi) }

/-- A 40-bit value held in a pair of registers, the lower word at `lo`. -/
def State.reg64 (s : State) (lo hi : Nat) : Nat := (s.reg lo).toNat + 2 ^ 32 * (s.reg hi).toNat

/-- Put a value into a pair of registers. -/
def State.setReg64 (s : State) (lo hi v : Nat) : State :=
  (s.setReg lo (BitVec.ofNat 32 v)).setReg hi (BitVec.ofNat 32 (v / 2 ^ 32))

/-! ### Refused writes (R420) -/

/-- The error register of the block that holds offset `a`, or none where the block has no register of this form. -/
def blockErr (a : Nat) : Option Nat :=
  if a < 0x10000 then none else if a < 0x30000 then some HIF_ERR else if a < 0x40000 then none
  else if a < 0x80000 then some KLN_ERR else if a < 0x190000 then none
  else if a < 0x1a0000 then some HPT_ERR else if a < 0x1b0000 then some POS_ERR
  else if a < 0x1c0000 then some FIR_ERR else if a < 0x1d0000 then some TRN_ERR
  else if a < 0x1e0000 then some INS_ERR else if a < 0x1f0000 then some TIM_ERR
  else if a < 0x200000 then some CRD_ERR else if a < 0x210000 then some TWN_ERR
  else if a < 0x220000 then some TRM_ERR else if a < 0x230000 then some PWR_ERR
  else if a < 0x240000 then some ECC_ERR else if a < 0x250000 then some SVC_ERR
  else if a < 0x3f0000 then some KLN_ERR else none

/-- Record refusal `code` of a write at `a` in error register `e`, unless it already holds one (R420). -/
def State.recordAt (s : State) (e code a : Nat) : State :=
  if (s.reg e).getLsbD 31 then s
  else s.setReg e (BitVec.ofNat 32 (code % 256 + 256 * (a % 2 ^ 22) + 2 ^ 31))

/-- Record a refused write of the register at `a` in its block's error register (R420). -/
def State.refuse (s : State) (code a : Nat) : State :=
  match blockErr a with
  | some e => s.recordAt e code a
  | none => s

/-- Record a unit refusal in UNT_ERR (R45). UNIT has 7 bits: of a unit ID above 127 it holds the lower 7 (DESIGN CHOICE, log entry
13). -/
def State.unitErr (s : State) (code unit : Nat) : State :=
  if s.on UNT_ERR_VALID then s
  else s.setReg UNT_ERR (BitVec.ofNat 32 (code % 256 + 256 * (unit % 128) + 2 ^ 31))

/-- Record a refusal in SWS_ERR (R122). -/
def State.swsErr (s : State) (code part : Nat) : State :=
  if s.on SWS_ERR_VALID then s
  else s.setReg SWS_ERR (BitVec.ofNat 32 (code % 256 + 256 * (part % 32) + 2 ^ 31))

/-- Record a refusal in NZT_ERR (R165, R170). -/
def State.nztErr (s : State) (code index writer : Nat) : State :=
  if s.on NZT_ERR_VALID then s
  else s.setReg NZT_ERR
    (BitVec.ofNat 32 (code % 256 + 256 * (index % 2 ^ 17) + 2 ^ 25 * (writer % 8) + 2 ^ 31))

/-! ### Time -/

/-- TB0 of this chip follows a time master of the Cord ring: that of any other chip, and of two masters the one of lower address (R288, R291,
R305). -/
def State.disciplined (s : State) : Bool :=
  s.on CRD_CTL_EN && (!s.on CRD_CTL_TMASTER || s.cord.tmFrom.any (fun a => decide (a < s.fld CRD_CTL_ADDR)))

/-- The increment of time base `b` per core clock, without a slew (R288, R289): TIM_INC, and for TB0 on a disciplined chip the
correction. -/
def State.tbInc (s : State) (b : Nat) : Int :=
  ((s.reg (TIM_INC b)).toNat : Int) + (if b = 0 && s.disciplined then signed 32 (s.reg CRD_CORR).toNat else 0)

/-- The extra increment of a slew (R291): TIM_CTL.SLEW parts per million of TIM_INC, at least one unit. -/
def State.slewStep (s : State) (b : Nat) : Nat :=
  max 1 ((s.reg (TIM_INC b)).toNat * s.fld TIM_CTL_SLEW / 1000000)

/-- What a slew of `rem` absorbs in `dt` core clocks. -/
def slewPart (rem : Int) (step dt : Nat) : Int :=
  if rem < 0 then -((min rem.natAbs (step * dt) : Nat) : Int) else ((min rem.natAbs (step * dt) : Nat) : Int)

/-- Time base `b` in units of 2^-24 ns. -/
def State.tbAcc (s : State) (b : Nat) : Nat := s.times.tb.get (fun _ => 0) b

/-- Time base `b` moves on by `dt` core clocks. -/
def State.tbMove (s : State) (dt b : Nat) : State :=
  let rem := s.times.rem.get (fun _ => 0) b
  let part := slewPart rem (s.slewStep b) dt
  let acc := (s.tbAcc b : Int) + s.tbInc b * dt + part
  { s with times := { s.times with
      tb := s.times.tb.set (fun _ => 0) b (unsign 56 acc)
      rem := s.times.rem.set (fun _ => 0) b (rem - part) } }

/-- The forerunner counter's increment in a core clock in which a slew adds `slew` to TB0 (R294): with FOLLOW it keeps the rate of
TB0. -/
def State.frcInc (s : State) (slew : Int) : Nat :=
  if !s.on TIM_FRCCTL_EN then 0
  else if s.on TIM_FRCCTL_FOLLOW then
    (s.reg TIM_FRCINC).toNat * (s.tbInc 0 + slew).toNat / max 1 (s.reg (TIM_INC 0)).toNat
  else (s.reg TIM_FRCINC).toNat

/-- What the forerunner counter adds in `dt` core clocks: while the slew of TB0 runs, in the clock in which it ends, and after. -/
def State.frcGain (s : State) (dt : Nat) : Nat :=
  let rem := s.times.rem.get (fun _ => 0) 0
  let step := s.slewStep 0
  let n := min dt (rem.natAbs / step)
  let left := rem - slewPart rem step n
  s.frcInc (slewPart rem step 1) * n + (if n < dt then s.frcInc left + s.frcInc 0 * (dt - n - 1) else 0)

/-- The 32-bit nanosecond part of time base `b` (R290). -/
def State.tb (s : State) (b : Nat) : Word := BitVec.ofNat 32 (s.tbAcc b / 2 ^ 24)

/-- TB0 now. -/
def State.tb0 (s : State) : Word := s.tb 0

/-- Is time `t` due at `now` (R290): `t - now` read as signed is 0 or less? -/
def timeDue (t now : Word) : Bool := decide ((t - now).toInt ≤ 0)

/-- Core clocks in `us` microseconds (R10). -/
def usClk (us : Nat) : Nat := 400 * us

/-- Core clocks in `ns` nanoseconds, rounded up (R10). -/
def nsClk (ns : Nat) : Nat := ceilDiv (2 * ns) 5

/-- Start timer `k` now. -/
def State.startTimer (s : State) (k : Nat) : State := { s with timers := s.timers.set (fun _ => 0) k s.clk }

/-- Has timer `k` run for `n` core clocks? -/
def State.timerOver (s : State) (k n : Nat) : Bool := decide (s.timers.get (fun _ => 0) k + n ≤ s.clk)

/-! ### Alarms, free values and what the device sends -/

/-- Alarm `i` of R76 has held since the latest status block. -/
def State.alarm (s : State) (i : Nat) : State := { s with alarms := s.alarms ||| (1#64 <<< i) }

def alENCVOTE : Nat := 0
def alENCERR : Nat := 1
def alDATALATE : Nat := 2
def alGOVERN : Nat := 3
def alSPLICE : Nat := 4
def alTHERMAL : Nat := 5
def alCHAINRET : Nat := 6
def alTWINDIV : Nat := 7
def alECCCOR : Nat := 8
def alECCUNC : Nat := 9
def alCAMERR : Nat := 10
def alSPILL : Nat := 11
def alCQFULL : Nat := 12
def alHALT : Nat := 13
def alXRANGE : Nat := 14
def alTRIMLIM : Nat := 15
def alHEARTHSAT : Nat := 16
def alCORD : Nat := 17
def alPOLLERR : Nat := 18
def alPWRWARN : Nat := 19

/-- Draw a free value: something the spec leaves undefined (log entry 5). -/
def State.draw (s : State) : BitVec 64 × State :=
  (Config.freeWord s.freeCtr, { s with freeCtr := s.freeCtr + 1 })

/-- Issue a write into host memory; one that carries ash-marked data is poisoned (R46, R386). -/
def State.emit (s : State) (addr : Nat) (bytes : List Byte) (poison : Bool) : State :=
  { s with out := s.out ++ [⟨addr, bytes, poison⟩] }

/-- Send a frame over the Cord ring or the twin link. -/
def State.sendFrame (s : State) (link kind : Nat) (body : List Nat) : State := { s with sent := s.sent ++ [⟨link, kind, body⟩] }

/-- Is a job armed (HIF_CTL.ARMED)? -/
def State.armed (s : State) : Bool := s.on HIF_CTL_ARMED

/-- Run or Ready (R367): the power states in which polling, fetching and status writes run. -/
def State.awake (s : State) : Bool := decide (s.fld PWR_STAT_STATE ≤ 1)

/-- May the device issue memory requests (R49, R77, R369, R371)? -/
def State.canMaster (s : State) : Bool := s.on HIF_CTL_BME && s.awake && !s.on PWR_STAT_D3HOT

/-- Does BAR0 serve registers of the block with RST_BLKRST bit `blk` (R369, R373, R418)? AON registers have no bit and
are served apart (aonOk). -/
def State.barOk (s : State) (blk : Nat) : Bool := s.on RST_STAT_DONE && s.awake && !(s.reg RST_BLKRST).getLsbD blk

/-- A BAR0 write with effect `f` on a block: discarded where BAR0 does not serve it. -/
def State.bar (s : State) (blk : Nat) (f : State → State) : State := if s.barOk blk then f s else s

/-- A BAR0 read, with effect `f`, of the register at `a` of a block: it returns 0 where BAR0 does not serve it (R369, R373), and its reset value
while the block is in reset (R418). -/
def State.barRead (s : State) (blk a : Nat) (f : State → State) : State :=
  if s.barOk blk then f s
  else { s with readData := if s.on RST_STAT_DONE && s.awake then (regReset a).zeroExtend 64 else 0#64, readEP := false }

/-- Does BAR0 serve the AON block (R369, R373): from step 6 of the release on, and not in Banked? -/
def State.aonOk (s : State) : Bool := decide (6 ≤ s.fld RST_STAT_STEP) && decide (s.fld PWR_STAT_STATE ≠ 3)

/-! ### The table update port (R20, R162) -/

/-- The order among requests of one core clock: TABLE records, the engines, BAR0, reloads. -/
def PortSrc.rank : PortSrc → Nat
  | .stream _ _ => 0
  | .inspection _ e => 1 + e
  | .bar0 => 8
  | .reload => 9

/-- A request joins the queue: behind all that came before it, and among those of its own core clock in R162's order. -/
def portInsert (r : PortReq) : List PortReq → List PortReq
  | [] => [r]
  | q :: l => if q.at_ = r.at_ ∧ r.src.rank < q.src.rank ∧ !q.waits then r :: q :: l else q :: portInsert r l

/-- A request reaches the table update port. -/
def State.portAdd (s : State) (r : PortReq) : State := { s with portQ := portInsert r s.portQ }

/-- One of `src` with record `bytes`, at the present clock. -/
def State.portPut (s : State) (src : PortSrc) (bytes : List Byte) (expect : Option Nat) : State :=
  s.portAdd ⟨src, bytes, expect, false, s.clk, false⟩

def State.setInsp (s : State) (x : Insp) : State := { s with insp := x }

/-! ### Hearth and its mailbox (R397, R405, R406) -/

/-- Hearth firmware runs: Kindling has started it, and its clock is on (R24, R402). -/
def State.firmwareOn (s : State) : Bool := s.fld SVC_BOOTST_STATE == 3 && s.awake

/-- A write with effect `f`, of the host, or of Hearth firmware, which writes nothing while it does not run (R398, R405). -/
def State.byWriter (s : State) (hearth : Bool) (f : State → State) : State := if hearth && !s.firmwareOn then s else f s

/-- Request byte `k` of the mailbox command, and `n` bytes from it on, as GO has found them (DEDUCED, log entry 93). -/
def State.reqField (s : State) (k n : Nat) : Nat := leNat ((s.svc.req.drop k).take n)

end Sys2Proof.Machine
end

