-- ==== Sys2Proof/Machine/CfgOps.lean ====
section
/-! DEFINITION. The configuration space as it is read and as the device itself changes it: errors of its own reads are logged in
AER, with an error message (R46 to R48). What the base specification requires there is taken from it (log entry 7). -/

namespace Sys2Proof.Machine

/-- The word at offset `a` of the configuration space as it is held. -/
def State.cfgW (s : State) (a : Nat) : Word := s.cfg.get cfgReset a

/-- Put `v` into it. -/
def State.setCfg (s : State) (a : Nat) (v : Word) : State := { s with cfg := s.cfg.set cfgReset a v }

/-- Subsystem Vendor ID and Subsystem ID as OTP word 0 gives them: 1C5Eh and 0000h if it is unprogrammed (R46, R407). -/
def State.loadSub (s : State) : State :=
  let w := s.otp.get (fun _ => 0#32) 0
  s.setCfg CFG_SUB (if w = 0#32 then cfgReset CFG_SUB else w)

/-- The word at `a` as it reads: Bus Master Enable is HIF_CTL.BME (R49), the power state is PWR_STAT.D3HOT with No_Soft_Reset
set (R371), and the serial number comes from OTP. -/
def State.cfgLive (s : State) (a : Nat) : Word :=
  if a = CFG_CMD then putBits (s.cfgW a) 2 1 (s.fld HIF_CTL_BME)
  else if a = CFG_PMCSR then BitVec.ofNat 32 (8 + 3 * s.fld PWR_STAT_D3HOT)
  else if a = CFG_DSN then s.serial.truncate 32
  else if a = CFG_DSN + 4 then (s.serial >>> 32).truncate 32
  else s.cfgW a

/-- Max Read Request Size in bytes (R46): 128 to 4,096. -/
def State.mrrs (s : State) : Nat := 128 * 2 ^ bitsOf (s.cfgW CFG_DEVCTL).toNat 12 3

/-- The link number under which error messages stand among what the device has sent. -/
def linkMSG : Nat := 5

/-- Error messages of kind `k` (1 non-fatal, 2 fatal) are enabled, by DevCtl or by SERR# Enable of Command. -/
def State.errMsgOn (s : State) (k : Nat) : Bool := (s.cfgW CFG_DEVCTL).getLsbD k || (s.cfgW CFG_CMD).getLsbD 8

/-- An uncorrectable error with AER bit `b` (R48): logged, counted as the first error if none stood, and told to the host as a
fatal or non-fatal error message where it is not masked and DevCtl or the SERR# Enable of Command enables that message (R47). -/
def State.aer (s : State) (b : Nat) : State :=
  let fatal := (s.cfgW CFG_UNCSEV).getLsbD b
  let masked := (s.cfgW CFG_UNCMASK).getLsbD b
  let s1 := if s.cfgW CFG_UNC = 0#32 then s.setCfg CFG_AERCTL (putBits (s.cfgW CFG_AERCTL) 0 5 b) else s
  let s2 := s1.setCfg CFG_UNC (putBits (s1.cfgW CFG_UNC) b 1 1)
  let k := if fatal then 2 else 1
  let s3 := s2.setCfg CFG_DEVCTL (putBits (s2.cfgW CFG_DEVCTL) (16 + k) 1 1)
  if !masked && s3.errMsgOn k then s3.sendFrame linkMSG k [b] else s3

def aerPOISON : Nat := 12
def aerTIMEOUT : Nat := 14
def aerABORT : Nat := 15
def aerUNSUP : Nat := 20

/-- A read of the device has ended in a completion timeout, Completer Abort or Unsupported Request, or with `orPoison` in
poisoned data: which of them, no operand says, and it is a free value (log entry 5). -/
def State.readFailed (s : State) (orPoison : Bool) : State :=
  let d := s.draw
  let k := d.1.toNat % (if orPoison then 4 else 3)
  d.2.aer (if k = 0 then aerTIMEOUT else if k = 1 then aerABORT else if k = 2 then aerUNSUP else aerPOISON)

end Sys2Proof.Machine
end

