-- ==== Sys2Proof/Machine/Vote.lean ====
section
/-! DEFINITION. Triplicated words and their vote (R391): a word's value is the one that two of its three copies
hold, and its safe value when all three differ. -/

namespace Sys2Proof.Machine

/-- The vote of three copies, or none when all three differ. -/
def vote3 (a b c : Word) : Option Word :=
  if a = b then some a else if a = c then some a else if b = c then some b else none

/-- The voted value of three copies with safe value `safe`. -/
def voted (a b c safe : Word) : Word := (vote3 a b c).getD safe

/-- The head-drive trim ceiling (R348, R391). -/
def State.trimCeil (s : State) : Nat :=
  (voted (s.reg (TRM_CEIL 0)) (s.reg (TRM_CEIL 1)) (s.reg (TRM_CEIL 2)) 0#32).toNat % 2 ^ 14

/-- The twin policy word (R341, R391). -/
def State.twinPolicy (s : State) : Word :=
  voted (s.reg (TWN_POLICY 0)) (s.reg (TWN_POLICY 1)) (s.reg (TWN_POLICY 2)) 0x10022011#32

/-- The maximum speed demand (R261, R391). -/
def State.speedMax (s : State) : Nat :=
  (voted (s.reg (TRN_VLIM 0)) (s.reg (TRN_VLIM 1)) (s.reg (TRN_VLIM 2)) 0#32).toNat % 2 ^ 14

/-- The maximum backup distance in lines (R261, R391). -/
def State.backMax (s : State) : Nat :=
  (voted (s.reg (TRN_BKMAX 0)) (s.reg (TRN_BKMAX 1)) (s.reg (TRN_BKMAX 2)) 0#32).toNat % 2 ^ 24

/-- The golden signature of Ember vector `v`, where two copies agree (R391, R392). -/
def State.goldenSig (s : State) (v : Nat) : Option Word :=
  vote3 (s.reg (ECC_GOLD0 v)) (s.reg (ECC_GOLD1 v)) (s.reg (ECC_GOLD2 v))

/-- Re-evaluate the flags of one triplicated word, bit `k` of ECC_TRIPST and ECC_TRIPNV (R391). -/
def State.tripCheck (s : State) (k : Nat) (a b c : Word) : State :=
  let nv := s.setReg ECC_TRIPNV (putBits (s.reg ECC_TRIPNV) k 1 (b2n (vote3 a b c).isNone))
  if (vote3 a b c).isNone then nv.alarm alECCUNC
  else if a = b ∧ b = c then nv
  else (nv.setReg ECC_TRIPST (putBits (nv.reg ECC_TRIPST) k 1 1)).alarm alECCCOR

/-- The copies of every triplicated word. -/
def State.tripWords (s : State) : List (Word × Word × Word) :=
  [(s.reg (TWN_POLICY 0), s.reg (TWN_POLICY 1), s.reg (TWN_POLICY 2)), (s.reg (TRN_VLIM 0), s.reg (TRN_VLIM 1), s.reg (TRN_VLIM 2)),
   (s.reg (TRN_BKMAX 0), s.reg (TRN_BKMAX 1), s.reg (TRN_BKMAX 2)), (s.reg (TRM_CEIL 0), s.reg (TRM_CEIL 1), s.reg (TRM_CEIL 2))] ++
  (List.range 16).map (fun v => (s.reg (ECC_GOLD0 v), s.reg (ECC_GOLD1 v), s.reg (ECC_GOLD2 v)))

/-- The vote of every core clock finds a copy that differs from the other two, or three that differ (R391). -/
def State.tripDiffers (s : State) : Bool := s.tripWords.any (fun w => (vote3 w.1 w.2.1 w.2.2).isSome && !(w.1 == w.2.1 && w.2.1 == w.2.2))
def State.tripUnvoted (s : State) : Bool := s.tripWords.any (fun w => (vote3 w.1 w.2.1 w.2.2).isNone)

/-- The bit of ECC_TRIPST for each triplicated word (R395). -/
def tripBitTwin : Nat := 0
def tripBitVlim : Nat := 1
def tripBitBack : Nat := 2
def tripBitCeil : Nat := 3
def tripBitGold (v : Nat) : Nat := 4 + v

/-- Re-evaluate every triplicated word (R391). -/
def State.tripAll (s : State) : State :=
  let s1 := (s.tripCheck tripBitTwin (s.reg (TWN_POLICY 0)) (s.reg (TWN_POLICY 1)) (s.reg (TWN_POLICY 2)))
  let s2 := s1.tripCheck tripBitVlim (s.reg (TRN_VLIM 0)) (s.reg (TRN_VLIM 1)) (s.reg (TRN_VLIM 2))
  let s3 := s2.tripCheck tripBitBack (s.reg (TRN_BKMAX 0)) (s.reg (TRN_BKMAX 1)) (s.reg (TRN_BKMAX 2))
  let s4 := s3.tripCheck tripBitCeil (s.reg (TRM_CEIL 0)) (s.reg (TRM_CEIL 1)) (s.reg (TRM_CEIL 2))
  (List.range 16).foldl (fun s v => s.tripCheck (tripBitGold v) (s.reg (ECC_GOLD0 v)) (s.reg (ECC_GOLD1 v)) (s.reg (ECC_GOLD2 v))) s4

end Sys2Proof.Machine
end

