-- ==== Sys2Proof/Machine/TrimOps.lean ====
section
/-! DEFINITION. The operations on the 68 trim channels that several families share: targets with their hold and
clamp, settling, and slew codes (R343 to R354). -/

namespace Sys2Proof.Machine

/-- Head unit or port `h`. -/
def State.head (s : State) (h : Nat) : Head := s.heads.get (fun _ => Head.reset) h

/-- Replace head `h`. -/
def State.setHead (s : State) (h : Nat) (x : Head) : State :=
  { s with heads := s.heads.set (fun _ => Head.reset) h x }

/-- Change head `h`. -/
def State.modHead (s : State) (h : Nat) (f : Head → Head) : State := s.setHead h (f (s.head h))

/-- The line that a head prints next (R113): a line that waits for its delayed FIRE has not fired (R234). -/
def Head.prints (x : Head) : Nat := match x.delay with | p :: _ => p.1 | [] => x.next

/-- The interval of slew code `c` in microseconds (R347); code 0 is no interval of its own. -/
def slewUs (c : Nat) : Nat :=
  if c ≤ 10 then 2 ^ (c - 1) else 1000 * 2 ^ (c - 11)

/-- The timer that paces channel `n`. -/
def tmTrim (n : Nat) : Nat := 1000 + n

/-- What channel `n` is asked for. -/
def State.trimWant (s : State) (n : Nat) : Int := s.trims.want.get (fun _ => 0) n

/-- Is the fault bit of channel `n` set (R352)? -/
def State.trimFault (s : State) (n : Nat) : Bool :=
  if n < 32 then (s.reg TRM_FAULTLO).getLsbD n
  else if n < 64 then (s.reg TRM_FAULTHI).getLsbD (n - 32) else (s.reg TRM_FAULTAUX).getLsbD (n - 64)

/-- Channel `n` is held at 0 V: corrections not loaded, a head on nominal corrections without leave (R351), a
faulty head under FAULTCUT (R352), or every channel cut (R360). -/
def State.trimHeld (s : State) (n : Nat) : Bool :=
  !s.on TRM_STAT_LOADED || s.trims.cut ||
  (decide (n < 64) && ((s.on TRM_STAT_OTPBAD && !s.on TRM_CTL_NOMOK) || (s.on TRM_CTL_FAULTCUT && s.trimFault n)))

/-- The code asked for, inside 0 and the ceiling (head channels) or full scale (R33, R348). -/
def State.trimClamp (s : State) (n : Nat) : Nat :=
  let top := if n < 64 then s.trimCeil else 2 ^ 14 - 1
  min (s.trimWant n).toNat top

/-- The target of channel `n` after hold and clamp. -/
def State.trimGoal (s : State) (n : Nat) : Nat := if s.trimHeld n then 0 else s.trimClamp n

/-- Is channel `n` clamped at the ceiling (R348)? -/
def State.trimClamped (s : State) (n : Nat) : Bool :=
  decide (n < 64) && decide ((s.trimCeil : Int) < s.trimWant n)

/-- Set the settled bit of channel `n` (R346). -/
def State.setSettled (s : State) (n : Nat) (b : Bool) : State :=
  if n < 32 then s.setReg TRM_SETTLEDLO (putBits (s.reg TRM_SETTLEDLO) n 1 (b2n b))
  else if n < 64 then s.setReg TRM_SETTLEDHI (putBits (s.reg TRM_SETTLEDHI) (n - 32) 1 (b2n b))
  else s.setReg TRM_SETTLEDAUX (putBits (s.reg TRM_SETTLEDAUX) (n - 64) 1 (b2n b))

/-- Bring the settled bit up to date, and end the ramps of a settled head channel (R39). -/
def State.trimSettle (s : State) (n : Nat) : State :=
  let eq := s.fld (TRM_OUT_OUT n) == s.fld (TRM_OUT_TARGET n)
  let s1 := s.setSettled n eq
  if eq && decide (n < 64) then
    (if (s1.head n).ramps.isEmpty then s1 else s1.modHead n (fun x => { x with ramps := [] }))
  else s1

/-- Bring the target of channel `n` up to date: a new target restarts the step timing from now (R346). -/
def State.retarget (s : State) (n : Nat) : State :=
  let g := s.trimGoal n
  let s1 := if s.fld (TRM_OUT_TARGET n) = g then s else (s.setFld (TRM_OUT_TARGET n) g).startTimer (tmTrim n)
  let s2 := s1.setBit (TRM_OUT_CLAMP n) (s.trimClamped n)
  (if s.trimClamped n then s2.alarm alTRIMLIM else s2).trimSettle n

/-- Ask channel `n` for code `c`. Of two updates of one channel in one core clock the lower target wins (R346); the speed demand is one
level that the transport logic sets, and has no two (DEDUCED, log entry 25). -/
def State.setWant (s : State) (n : Nat) (c : Int) : State :=
  if s.trimWant n = c then s.retarget n
  else if n ≠ 64 ∧ s.trims.upd.get (fun _ => 0) n = s.clk + 1 ∧ s.trimWant n < c then s
  else
    ({ s with trims := { s.trims with want := s.trims.want.set (fun _ => 0) n c, upd := s.trims.upd.set (fun _ => 0) n (s.clk + 1) } }).retarget n

/-- Bring every channel's target up to date. -/
def State.retargetAll (s : State) : State := (List.range 68).foldl (fun s n => s.retarget n) s

/-- The output of channel `n` moves to code `c`; that of channel 64 is the speed demand's (R261). -/
def State.setOut (s : State) (n c : Nat) : State :=
  if s.fld (TRM_OUT_OUT n) = c then s.trimSettle n
  else
    let s1 := (({ s with trims := { s.trims with changed := s.trims.changed.set (fun _ => 0) n s.clk } } : State).setFld
      (TRM_OUT_OUT n) c).trimSettle n
    if n = 64 then s1.setFld TRN_DEMAND_OUT c else s1

/-- Take channel `n` to 0 V at once (R352, R360). -/
def State.trimZero (s : State) (n : Nat) : State := s.setOut n 0

/-- The slew code in force on channel `n` (R343): the slowest running ramp or the unit's own for heads (before any job has resolved it, what
every unit inherits from unit 127, R437), TRN_SLEW
for the speed demand (R246, R253), TRM_AUX.SLEW for the others. -/
def State.trimSlewCode (s : State) (n : Nat) : Nat :=
  if n < 64 then
    (match (s.head n).ramps with
     | [] => if s.fld (UNT_EFFCTL_SLEW n) = 0 then s.fld (UNT_SLEW_CODE 127) else s.fld (UNT_EFFCTL_SLEW n)
     | r => r.foldl max 0)
  else if n = 64 then
    (if s.armed && s.fld TRN_STATE_SEQ == 3 then s.fld TRN_SLEW_REV
     else if s.fld (TRM_OUT_OUT 64) < s.fld (TRM_OUT_TARGET 64) then s.fld TRN_SLEW_UP else s.fld TRN_SLEW_DN)
  else s.fld (TRM_AUX_SLEW (n - 65))

/-- Enable or release the output of channel `n` (R353). -/
def State.setDriven (s : State) (n : Nat) (b : Bool) : State := s.setBit (TRM_OUT_DRIVEN n) b

end Sys2Proof.Machine
end

