-- ==== Sys2Proof/Machine/Mem.lean ====
section
/-! DEFINITION. Protected words: what a read delivers (R383, R384), how a write stores (R389, R393), and the merge
buffers. -/

namespace Sys2Proof.Machine

/-- A word stored with valid check bits and no mark. -/
def MWord.clean (v : BitVec 64) : MWord := ⟨v, 0#72, false⟩

/-- A word stored ash-marked. -/
def MWord.marked (v : BitVec 64) : MWord := ⟨v, 0#72, true⟩

/-- How many bits of a word are in error. -/
def bitCount (w v : Nat) : Nat := ((List.range w).filter (fun i => v.testBit i)).length

/-- The word holds an uncorrectable error (R384). -/
def MWord.unc (w : MWord) : Bool := !w.ash && decide (2 ≤ bitCount 72 w.err.toNat)

/-- The word holds a single-bit error. -/
def MWord.cor (w : MWord) : Bool := !w.ash && decide (bitCount 72 w.err.toNat = 1)

/-- The bits as they stand in the memory. -/
def MWord.raw (w : MWord) : BitVec 64 := w.data ^^^ w.err.truncate 64

/-- The word after the read that finds it (R384): an uncorrectable one is marked; a single error is corrected when
correction is written back. -/
def MWord.healed (corrwb : Bool) (w : MWord) : MWord :=
  if w.unc then MWord.marked w.raw else if w.cor && corrwb then MWord.clean w.data else w

/-- What a read delivers: the data, and whether it is marked. -/
def MWord.out (w : MWord) : BitVec 64 × Bool := if w.unc then (w.raw, true) else (w.data, w.ash)

/-- Memories of R395. -/
def memSRAM : Nat := 0
def memSTORE : Nat := 1
def memHEARTH : Nat := 2
def memRETN : Nat := 3

/-- Regions of the on-chip SRAM (R395). -/
def rgTABLE : Nat := 0
def rgSHADOW : Nat := 1
def rgCURVE : Nat := 2
def rgMATRIX : Nat := 3
def rgMAP : Nat := 4
def rgTILE : Nat := 5
def rgSTAGING : Nat := 6
def rgCAMERA : Nat := 7
def rgOTHER : Nat := 8

/-- Record the first error (R395): kind 1 is uncorrectable. -/
def State.eccFirst (s : State) (mem region addr kind : Nat) : State :=
  if s.on ECC_FIRST_VALID then s
  else ((s.setReg ECC_FIRST (BitVec.ofNat 32 (mem % 4 + 4 * kind + 16 * region + 2 ^ 31))).setReg ECC_FADDRLO
    (BitVec.ofNat 32 addr)).setReg ECC_FADDRHI (BitVec.ofNat 32 (addr / 2 ^ 32 % 8))

/-- Count what a read of word `w` of memory `mem` finds (R384). -/
def State.eccNote (s : State) (mem region addr : Nat) (w : MWord) : State :=
  if w.unc then ((s.countReg (ECC_UNC mem) 1).alarm alECCUNC).eccFirst mem region addr 1
  else if w.cor then ((s.countReg (ECC_COR mem) 1).alarm alECCCOR).eccFirst mem region addr 0
  else s

/-- A consumer takes a marked word (R386). -/
def State.ashUsed (s : State) : State := (s.countReg ECC_ASHCNT 1).alarm alECCUNC

/-- A read completion of the host, or a write into host memory, takes a word that is marked where `m` says so (R386; DEDUCED, log entry 92). -/
def State.ashSent (s : State) (m : Bool) : State := if m then s.ashUsed else s

/-- ECC_CTL.CORRWB. -/
def State.corrWb (s : State) : Bool := s.on ECC_CTL_CORRWB

def State.setTabs (s : State) (t : Tables) : State := { s with tabs := t }

/-! ### The flip mask (R393) -/

/-- How a word with `err` wrong bits is stored. Up to two wrong bits are as the code tells them apart; of more the
spec says nothing, so what the decoder finds and delivers is a free value (log entry 5). -/
def State.storeErr (s : State) (v : BitVec 64) (err : BitVec 72) : MWord × State :=
  if bitCount 72 err.toNat ≤ 2 then (⟨v, err, false⟩, s)
  else
    let f := s.draw
    let g := f.2.draw
    let k := bitsOf g.1.toNat 0 2
    (⟨f.1, if k = 0 then 0#72 else if k = 1 then 1#72 else 3#72, false⟩, g.2)

/-- Word `w` with the bits of `flips` wrong besides; a marked word still reads as marked (R383). -/
def State.flipWord (s : State) (w : MWord) (flips : BitVec 72) : MWord × State :=
  if w.ash then (w, s) else s.storeErr w.data (w.err ^^^ flips)

/-- A commit of a full word through path `target` of ECC_FLIPCTL, whose memory has `w` data bits (R393). -/
def State.commitWord (s : State) (target w : Nat) (v : BitVec 64) : MWord × State :=
  if s.on ECC_FLIPCTL_ARM && s.fld ECC_FLIPCTL_TARGET == target then
    let s1 := if s.on ECC_FLIPCTL_PERSIST then s else s.setFld ECC_FLIPCTL_ARM 0
    if s.on ECC_FLIPCTL_ASH then (MWord.marked v, s1)
    else if w = 64 then
      s1.storeErr v (BitVec.ofNat 72 ((s.reg ECC_FLIPLO).toNat + 2 ^ 32 * (s.reg ECC_FLIPHI).toNat +
        2 ^ 64 * s.fld ECC_FLIPCHK_MASK))
    else s1.storeErr v (BitVec.ofNat 72 ((s.reg ECC_FLIPLO).toNat + 2 ^ 64 * (s.fld ECC_FLIPCHK_MASK % 128)))
  else (MWord.clean v, s)

/-! ### Narrow writes (R389) -/

/-- The bits of the bytes in `mask`. -/
def byteBits (mask : Nat) : Nat :=
  (List.range 8).foldl (fun n i => if mask.testBit i then n + 255 * 2 ^ (8 * i) else n) 0

/-- Word `old` with the bytes of `mask` taken from `val`. -/
def mergeBytes (old val mask : Nat) : Nat := (old &&& (2 ^ 64 - 1 - byteBits mask)) ||| (val &&& byteBits mask)

/-- Bytes `off` to `off + len - 1` of value `v`, whose first byte goes to `off`, gathered over `n`. -/
def Narrow.add (n : Narrow) (off len v now : Nat) : Narrow :=
  let m := (2 ^ len - 1) * 2 ^ off
  { n with mask := n.mask ||| m, val := mergeBytes n.val (v * 2 ^ (8 * off)) m, at_ := now }

def State.mergeBuf (s : State) (mem : Nat) : Option Narrow := s.tabs.merge.get (fun _ => none) mem
def State.setMerge (s : State) (mem : Nat) (n : Option Narrow) : State :=
  s.setTabs { s.tabs with merge := s.tabs.merge.set (fun _ => none) mem n }

/-! ### Memories that are written before they are read (R383, R388): what is wrong in them is told by flaws -/

/-- What an error that is met leaves of flaw `f` (R384): a mark, an error that is not written back, or nothing. -/
def Flaw.left (corrwb : Bool) (f : Flaw) : Option Flaw :=
  if f.word.out.2 then some { f with word := MWord.marked 0#64 }
  else if f.word.cor && !corrwb then some { f with word := { f.word with data := 0#64 } } else none

/-- The words of flaws `fs`, in region `r`, are read: what is found is noted, and this is what stays. -/
def State.flawsRead (s : State) (r : Nat) (fs : List Flaw) : List Flaw × State :=
  (fs.filterMap (Flaw.left s.corrWb), fs.foldl (fun s f => s.eccNote memSRAM r f.addr f.word) s)

/-- What flaws `fs` make of byte `i` of the memory: bits that differ, and whether it is marked. -/
def flawByte (fs : List Flaw) (i : Nat) : Nat × Bool :=
  match fs.find? (fun f => f.idx == i / 8) with
  | some f => (bitsOf f.word.out.1.toNat (8 * (i % 8)) 8, f.word.out.2)
  | none => (0, false)

/-- Bits `flips` of word `i`, at byte `a`, of such a memory change. A word that is marked still reads as marked. -/
def State.addFlaw (s : State) (fs : List Flaw) (i a : Nat) (flips : BitVec 72) : List Flaw × State :=
  let f := s.flipWord (((fs.find? (fun f => f.idx == i)).map (·.word)).getD ⟨0#64, 0#72, false⟩) flips
  (fs.filter (fun f => f.idx != i) ++ [⟨i, a, f.1⟩], f.2)

end Sys2Proof.Machine
end

