-- ==== Sys2Proof/Machine/TimeOps.lean ====
section
/-! DEFINITION. Shared operations on the event outputs (R295 to R298) and the snapshot of the time bases (R293). -/

namespace Sys2Proof.Machine

/-- Refusal codes common to all blocks (R420). -/
def erRANGE : Nat := 0x04
def erARMED : Nat := 0x06
def erLATE : Nat := 0x07
def erLIVE : Nat := 0x08
def erBADOP : Nat := 0x09
def erUNBOUND : Nat := 0x0B
def erBUSY : Nat := 0x0C
def erNOTTEST : Nat := 0x0D
def erOWNED : Nat := 0x20
def erBOUNDS : Nat := 0x21
def erNOELASTIC : Nat := 0x22
def erUNPAIRED : Nat := 0x23
def erNOSTAGE : Nat := 0x24
def erCLAIMED : Nat := 0x25
def erSCHEDLATE : Nat := 0x26
def erBADTIME : Nat := 0x27
def erDISC : Nat := 0x28
def erPROTECT : Nat := 0x29
def erNOPART : Nat := 0x2A
def erTWINMODE : Nat := 0x2B
def erJOINFAIL : Nat := 0x2C
def erSEALED : Nat := 0x2D

/-- Owners of an event pin (R295). -/
def evFREE : Nat := 0
def evTIME : Nat := 1
def evLINE : Nat := 2
def evCAM (c : Nat) : Nat := 3 + c
def evHEARTH : Nat := 5

/-- Event pin `n`. -/
def State.evt (s : State) (n : Nat) : Evt := s.evts.get (fun _ => Evt.reset) n
def State.setEvt (s : State) (n : Nat) (e : Evt) : State := { s with evts := s.evts.set (fun _ => Evt.reset) n e }

/-- Bring ACTIVE and LEVEL of pin `n` up to date: a free pin is low, one of Hearth's is as the firmware drives it, any other
rests at POL and is inverted by a pulse; in Smoulder and Banked pins are low (R295, R296, R298). -/
def State.evtShow (s : State) (n : Nat) : State :=
  let e := s.evt n
  let o := s.fld (TIM_EVTCTL_OWNER n)
  let lvl := s.awake && (if o = evHEARTH then e.drive else o != evFREE && ((!e.ends.isEmpty) != s.on (TIM_EVTCTL_POL n)))
  (s.setBit (TIM_EVTCTL_ACTIVE n) e.run).setBit (TIM_EVTCTL_LEVEL n) lvl

/-- A pulse of `w` times 10 ns starts on pin `n` now. -/
def State.evtPulse (s : State) (n w : Nat) : State :=
  let e := s.evt n
  (s.setEvt n { e with ends := e.ends ++ [s.clk + nsClk (10 * w)] }).evtShow n

/-- The start of pulse `j` (R297): START + j * PER, with no accumulated rounding. -/
def Evt.startOf (e : Evt) (j : Nat) : Word := e.start + BitVec.ofNat 32 (j * e.per)

/-- How many starts from the next one on are not ahead of `now` (R298). -/
def Evt.passed (e : Evt) (now : Word) : Nat :=
  let d := (now - e.startOf e.nextJ).toInt
  if d < 0 then 0 else d.toNat / max 1 e.per + 1

/-- The schedule of pin `n` is over: DONE for a counted one, however it ends (R297). -/
def State.evtOver (s : State) (n : Nat) : State :=
  let e := s.evt n
  let s1 := s.setEvt n { e with run := false }
  (if decide (0 < e.cnt) && decide (0 < e.per) then s1.setOn (TIM_EVTSTAT_DONE n) else s1).evtShow n

/-- Starts of pin `n` that are not ahead when GO is written or that a step of the base passes (R298): a single
pulse is given at once with LATE, a periodic schedule counts them as missed and goes on at the first ahead. -/
def State.evtCatch (s : State) (n : Nat) : State :=
  let e := s.evt n
  let m := e.passed (s.tb (s.fld (TIM_EVTCTL_TB n)))
  if !e.run || e.last || m = 0 then s.evtShow n
  else if e.per = 0 then
    ((s.setEvt n { e with last := true, nextJ := 1 }).setOn (TIM_EVTSTAT_LATE n)).evtPulse n e.width
  else
    let k := if e.cnt = 0 then m else min m (e.cnt - e.nextJ)
    let s1 := (s.setEvt n { e with nextJ := e.nextJ + k }).count (TIM_EVTSTAT_MISSED n) k
    if e.cnt ≠ 0 ∧ e.cnt ≤ e.nextJ + k then s1.evtOver n else s1.evtShow n

/-- Base `b` has been stepped: schedules on it look at their starts again. -/
def State.evtStepped (s : State) (b : Nat) : State :=
  (List.range 8).foldl (fun s n =>
    if s.fld (TIM_EVTCTL_OWNER n) = evTIME ∧ s.fld (TIM_EVTCTL_TB n) = b then s.evtCatch n else s) s

/-- A step of TB0 forward past the time of a queued scheduled action discards the action (R312). -/
def State.schedStepped (old s : State) : State :=
  let gone := s.cord.queue.filter (fun a => timeDue a.2 s.tb0 && !timeDue a.2 old.tb0)
  if gone.isEmpty then s
  else ({ s with cord := { s.cord with queue := s.cord.queue.filter (fun a => !gone.contains a) } } : State).setOn CRD_SCHEDST_DROPPED |>.alarm alCORD

/-- Base `b` is stepped to `acc` units of 2^-24 ns. -/
def State.tbPut (s : State) (b acc : Nat) : State :=
  let s1 := ({ s with times := { s.times with tb := s.times.tb.set (fun _ => 0) b acc } } : State).evtStepped b
  if b = 0 then State.schedStepped s s1 else s1

/-- Step base `b` to `v` nanoseconds. -/
def State.tbStep (s : State) (b : Nat) (v : Word) : State := s.tbPut b (v.toNat * 2 ^ 24)

/-- Capture the time bases and the forerunner counter (R293): source 0 for software, 1 for the Cord ring. -/
def State.timSnap (s : State) (src : Nat) : State :=
  let s1 := (List.range 4).foldl (fun s b => s.setReg (TIM_SNAPTB b) (s.tb b)) s
  let s2 := s1.setReg64 TIM_SNAPFRCLO TIM_SNAPFRCHI (s.times.frc / 2 ^ 24)
  (s2.setFld TIM_SNAP_SRC src).setOn TIM_SNAP_VALID

/-- Pin `n` goes to owner `o`; a released pin loses its schedule and its pulses and is low. -/
def State.evtOwn (s : State) (n o : Nat) : State :=
  ((if o = evFREE then s.setEvt n Evt.reset else s).setFld (TIM_EVTCTL_OWNER n) o).evtShow n

/-! ### Time goes on -/

/-- What the position and the splice sequence say now. -/
def State.seenNow (s : State) : Seen :=
  ⟨s.on POS_STATE_TRUST, !s.on FIR_STATE_NOORG && !s.on FIR_CTL_MODE, s.on POS_STATE_REVERSED, s.fld TRN_STATE_SEQ != 0⟩

/-- What was seen before core clock `lim` is forgotten, but for the latest of it. -/
def histTrim (lim : Nat) : List (Nat × Seen) → List (Nat × Seen)
  | x :: y :: l => if y.1 ≤ lim then histTrim lim (y :: l) else x :: y :: l
  | l => l

/-- What is seen from now on joins the history that cameras look back on: 2^30 core clocks of it, more than CAM_LATMAX and CAM_EXPDLY
reach back. -/
def State.noteSeen (s : State) : State :=
  if !s.on (CAM_CTL_EN 0) && !s.on (CAM_CTL_EN 1) then s
  else
    let h := s.insp.hist
    if h.getLast?.map (·.2) == some s.seenNow then s
    else { s with insp := { s.insp with hist := histTrim (s.clk - 2 ^ 30) (h ++ [(s.clk, s.seenNow)]) } }

/-- What was seen at core clock `t`. -/
def State.seenAt (s : State) (t : Nat) : Seen :=
  if s.clk ≤ t then s.seenNow
  else match (s.insp.hist.filter (fun x => decide (x.1 ≤ t))).getLast? with
    | some x => x.2
    | none => s.seenNow

/-- Every base and the forerunner counter go on to core clock `t`, which lies ahead. A block reset of R377 lasts until time goes on
(log entry 2). -/
def State.goOn (s0 : State) (t : Nat) : State :=
  let s := s0.noteSeen
  let dt := t - s.clk
  let frc := (s.times.frc + s.frcGain dt) % 2 ^ 88
  let s1 := (((s.tbMove dt 0).tbMove dt 1).tbMove dt 2).tbMove dt 3
  let s2 := if s1.reg RST_BLKRST = 0#32 then s1 else s1.setReg RST_BLKRST 0#32
  { s2 with clk := t, times := { s2.times with frc := frc, was := s2.regs } }

/-- The steps that TIM_SET has asked for take effect (R291). -/
def State.takeSteps (s : State) : State :=
  let s1 : State := { s with times := { s.times with step := [] } }
  s.times.step.foldl (fun s kv => s.tbStep kv.1 (BitVec.ofNat 32 (kv.2 - 1))) s1

/-- Of the bits `w` of register `a`, those that stood when the present core clock began: a bit that hardware sets in the clock of an access
outlasts it (R7). -/
def State.stood (s : State) (a : Nat) (w : Word) : Word := w &&& s.times.was.get regReset a

/-- An access has cleared bits of register `a`: what stands there now counts as standing for the next one. -/
def State.standing (s : State) (a : Nat) : State :=
  { s with times := { s.times with was := s.times.was.set regReset a (s.reg a) } }

/-- Time goes on to core clock `t`; it never goes back. -/
def State.advance (s : State) (t : Nat) : State :=
  if t ≤ s.clk then s
  else
    let s1 := if s.times.step.isEmpty then s else (s.goOn (s.clk + 1)).takeSteps
    if t ≤ s1.clk then s1 else s1.goOn t

/-- A tick: one core clock, or the 25 core clocks of one AON clock in Smoulder and Banked (R23, R289). -/
def State.tick (s : State) : State := s.advance (s.clk + (if s.awake then 1 else 25))

end Sys2Proof.Machine
end

