-- ==== Sys2Proof/Machine/CamOps.lean ====
section
/-! DEFINITION. The camera ports' state as other blocks touch it: what leaving Run, a reset or a cleared EN drops, and how
the position moves the trigger targets (R264, R266, R274). -/

namespace Sys2Proof.Machine

/-- Camera port `c`. -/
def State.cam (s : State) (c : Nat) : Cam := s.insp.cams.get (fun _ => Cam.reset) c
def State.setCam (s : State) (c : Nat) (x : Cam) : State :=
  s.setInsp { s.insp with cams := s.insp.cams.set (fun _ => Cam.reset) c x }
def State.modCam (s : State) (c : Nat) (f : Cam → Cam) : State := s.setCam c (f (s.cam c))

/-- Frames in progress on camera `c` are discarded, with their spilled lines (R264). -/
def State.camDrop (s : State) (c : Nat) : State :=
  let s1 := s.modCam c (fun x => { x with opened := false, frames := [] })
  s1.setInsp { s1.insp with spill := s1.insp.spill.filter (fun p => p.cam != c) }

/-- Both cameras stop: the power state leaves Run (R264), and no lane receives. -/
def State.camsQuiet (s : State) : State := (((s.camDrop 0).camDrop 1).setFld (CAM_STAT_LINK 0) 0).setFld (CAM_STAT_LINK 1) 0

/-- Camera `c` gives its pin back, and its frames are dropped. -/
def State.camOff (s : State) (c : Nat) : State :=
  let s1 := match (s.cam c).pin with
    | some n => if s.fld (TIM_EVTCTL_OWNER n) = evCAM c then s.evtOwn n evFREE else s
    | none => s
  (s1.camDrop c).setInsp { (s1.camDrop c).insp with cams := (s1.camDrop c).insp.cams.drop (fun k => k == c) }

/-- The pipeline and the engines start anew; each port waits for its next frame. -/
def State.insAnew (s : State) : State :=
  s.camsQuiet.setInsp { Insp.reset with cams := s.camsQuiet.insp.cams, hist := s.insp.hist }

/-- Targets up to travel count `v` are dealt with on both cameras, in 2^-24 count (R266). -/
def State.trigMark (s : State) (v : Int) : State :=
  [0, 1].foldl (fun s c =>
    if s.on (CAM_CTL_EN c) && s.fld (CAM_TRIG_MODE c) != 0 then s.modCam c (fun x => { x with mark := v * 2 ^ 24 }) else s) s

/-- No trigger is given (R266). -/
def State.trigOff (s : State) : Bool := s.on FIR_STATE_NOORG || s.on FIR_STATE_SUSPT || s.on FIR_STATE_SUSPR

/-- H has moved: while no trigger is given, the targets that it passes give none later. -/
def State.trigSkip (s : State) : State := if s.trigOff || s.fld PWR_STAT_STATE != 0 then s.trigMark s.pos.h else s

/-- Write one inspection record (R279): bytes 4 to 59 of the entry, of which some are marked where `poison` is set. -/
def State.insRecord (s : State) (body : List Byte) (poison : Bool) : State :=
  if !s.on INS_RQCTL_EN then s
  else if !s.canMaster then s.countReg INS_LOST 1
  else
    let q := s.reg INS_SEQ + 1#32
    let n := 2 ^ (s.fld INS_RQCTL_SIZE + 4)
    ((s.setReg INS_SEQ q).ashSent poison).emit (s.reg64 INS_RQLO INS_RQHI + 64 * (q.toNat % n))
      (leBytes 4 q.toNat ++ (body ++ leBytes 56 0).take 56 ++ leBytes 4 q.toNat) poison

/-- Bytes `i` on of `bs` become `new`. -/
def patch (bs : List Byte) (i : Nat) (new : List Byte) : List Byte := bs.take i ++ new ++ bs.drop (i + new.length)

/-- The action of a defect record for a port's refusal (R279, R283): STALE, LATE or RANGE. -/
def actOf (code : Nat) : Nat := if code = 5 then 5 else if code = erLATE then 6 else 7

/-- The port judges autonomous write `k`, of an entry that holds `w`: the record of the finding whose first write it is says so
(R279: the entry before the write). -/
def State.defectBefore (s : State) (k : Nat) (w : BitVec 64) (ep : Bool) : State :=
  s.setInsp { s.insp with defects := s.insp.defects.map (fun d =>
    if d.main = k then { d with body := patch d.body 36 (leBytes 8 w.toNat), ep := d.ep || ep } else d) }

/-- The port's result of write `k` reaches the record that waits for it: the first refusal becomes its action, and a refused first
write leaves no entry as written (R279, R283). -/
def Defect.result (d : Defect) (k code : Nat) : Defect :=
  if !d.ks.contains k then d
  else
    let act := (d.body[2]?.getD 0#8).toNat
    let b1 := if code ≠ 0 ∧ act < 5 then patch d.body 2 (leBytes 1 (actOf code)) else d.body
    { d with ks := d.ks.filter (fun j => j != k), body := if code ≠ 0 ∧ d.main = k then patch b1 28 (leBytes 8 0) else b1 }

/-- Defect records whose writes all have their results are written, oldest first. -/
def State.defectResult (s : State) (k code : Nat) : State :=
  let ds := s.insp.defects.map (fun d => d.result k code)
  (ds.filter (fun d => d.ks.isEmpty)).foldl (fun s d => s.insRecord d.body d.ep)
    (s.setInsp { s.insp with defects := ds.filter (fun d => !d.ks.isEmpty) })

end Sys2Proof.Machine
end

