-- ==== Sys2Proof/Machine/PosOps.lean ====
section
/-! DEFINITION. The shared operations on the position: the vote, the voted edge, speed, the high-water mark, the
index and the snapshot (R204 to R223). -/

namespace Sys2Proof.Machine

/-- A 48-bit difference as R211 compares it. -/
def diff48 (a b : Int) : Int := wrapS 48 (a - b)

def State.setPos (s : State) (p : Pos) : State := { s with pos := p }

/-- Is encoder channel `c` counted: enabled, or in Banked BANKCH, and only that (R213)? -/
def State.chanOn (s : State) (c : Nat) : Bool :=
  if s.fld PWR_STAT_STATE = 3 then s.fld POS_CTL_BANKCH == c else (s.reg POS_CTL).getLsbD c

/-- The counted channels in ascending order. -/
def State.chans (s : State) : List Nat := (List.range 3).filter (fun c => s.chanOn c)

def Pos.chan (p : Pos) (c : Nat) : Int := p.cnt.get (fun _ => 0) c
def Pos.pins (p : Pos) (c : Nat) : Nat := p.ab.get (fun _ => 3) c

/-- The levels at the pins of channel `c`, Z in bit 2, A and B below it; idle inputs read 1 (R430). -/
def Pos.rawOf (p : Pos) (c : Nat) : Nat := p.raw.get (fun _ => 7) c

/-- The pins of channel `c` show levels `v`. -/
def State.pinsAt (s : State) (c v : Nat) : State := s.setPos { s.pos with raw := s.pos.raw.set (fun _ => 7) c v }

/-- The median of three counts, compared as differences (R208, R211). -/
def median48 (a b c : Int) : Int :=
  let x := diff48 b a
  let y := diff48 c a
  let m := max (min 0 x) (min (max 0 x) y)
  wrapS 48 (a + m)

/-- The voted count (R208); with no channel it stays. -/
def State.vote (s : State) : Int :=
  match s.chans with
  | [a, b, c] => median48 (s.pos.chan a) (s.pos.chan b) (s.pos.chan c)
  | a :: _ => s.pos.chan a
  | [] => s.pos.t

/-- Does channel `c` differ from the voted count by more than VOTEWIN? -/
def State.strays (s : State) (c : Nat) : Bool :=
  decide (s.fld POS_CTL_VOTEWIN < (diff48 (s.pos.chan c) s.vote).natAbs)

/-- Clear TRUST (R210); firing is then suspended (R233). -/
def State.distrust (s : State) : State := (s.setFld POS_STATE_TRUST 0).setOn FIR_STATE_SUSPT

/-- FIR_STATE.SUSPT and SUSPR follow POS_STATE.TRUST and REVERSED (R233). -/
def State.suspShow (s : State) : State :=
  (s.setBit FIR_STATE_SUSPT (!s.on POS_STATE_TRUST)).setBit FIR_STATE_SUSPR (s.on POS_STATE_REVERSED)

/-- Bring OUTV, NOMAJ and TRUST up to date with the counters (R208 to R210). -/
def State.voteFlags (s : State) : State :=
  let cs := s.chans
  let out := if cs.length = 3 then cs.filter (fun c => s.strays c) else []
  let nomaj := decide (2 ≤ out.length) || (decide (cs.length = 2) && cs.any (fun c => s.strays c))
  let s1 := s.setFld POS_STATE_OUTV (out.foldl (fun n c => n + 2 ^ c) 0)
  let s2 := s1.setBit POS_STATE_NOMAJ nomaj
  let s3 := if out.isEmpty then s2 else s2.alarm alENCVOTE
  if nomaj then s3.distrust else s3

/-- k of R216. -/
def State.spdK (s : State) : Nat := min (s.fld POS_SPDAVG_N) s.pos.ivals.length

/-- Σ of R216: the sum of the latest k intervals. -/
def State.spdSum (s : State) : Nat := (s.pos.ivals.take s.spdK).foldl (· + ·) 0

/-- The speed is valid (R230): neither STILL nor INVALID, and TRUST. -/
def State.spdValid (s : State) : Bool :=
  !s.on POS_SPEEDST_STILL && !s.on POS_SPEEDST_INVALID && s.on POS_STATE_TRUST

/-- SPEED from the list (R216); 0 while STILL or INVALID is set. -/
def State.putSpeed (s : State) : State :=
  let k := s.spdK
  let sum := s.spdSum
  let v := if s.on POS_SPEEDST_STILL || s.on POS_SPEEDST_INVALID || sum = 0 then 0
    else (16 * k * 1000000000 + sum / 2) / sum
  (s.setReg POS_SPEED (BitVec.ofNat 32 v)).setFld POS_SPEEDST_EDGES k

/-- The interval list is discarded, with STILL or INVALID set (R217). -/
def State.dropList (s : State) (still : Bool) : State :=
  let s1 := s.setPos { s.pos with ivals := [], edge := false }
  ((s1.setBit POS_SPEEDST_STILL still).setBit POS_SPEEDST_INVALID (!still)).putSpeed

/-- A voted edge at TB0 pin time `te` in direction `rev` enters the interval list (R216, R217). -/
def State.speedEdge (s : State) (te : Word) (rev : Bool) : State :=
  let turn := s.on POS_SPEEDST_DIR != rev
  let cont := s.pos.edge && !turn && !s.on POS_SPEEDST_STILL
  let iv := (te - s.reg POS_EDGETB0).toNat
  let s1 := s.setPos { s.pos with ivals := if cont then (iv :: s.pos.ivals).take 256 else [], edge := true }
  let s2 := ((s1.setFld POS_SPEEDST_STILL 0).setBit POS_SPEEDST_INVALID (!cont)).setBit POS_SPEEDST_DIR rev
  (s2.setReg POS_EDGETB0 te).putSpeed

/-- How far the travel count stands past the high-water mark in the forward direction. -/
def Pos.ahead (p : Pos) : Int := p.sgn * diff48 p.t p.h

/-- H follows T, and REVERSED is set or cleared (R219). -/
def State.hwmUpdate (s : State) : State :=
  let a := s.pos.ahead
  if 0 ≤ a then
    ((s.setPos { s.pos with h := s.pos.t }).setFld POS_STATE_REVERSED 0).setFld FIR_STATE_SUSPR 0
  else if a < -(s.fld POS_REVWIN_COUNTS : Int) ∧ !s.pos.norev ∧ !s.on POS_STATE_REVERSED then
    ((s.setOn POS_STATE_REVERSED).setOn FIR_STATE_SUSPR).count POS_REVCNT_REV 1
  else s

/-- The voted index (R214): the majority of the enabled channels' Z. -/
def State.votedIndex (s : State) : Bool :=
  let cs := s.chans
  let n := (cs.filter (fun c => s.pos.z.get (fun _ => 1) c == 1)).length
  if cs.length = 3 then decide (2 ≤ n) else !cs.isEmpty && n == cs.length

/-- A and B of quadrature state `q`, as QUALA and QUALB number them. -/
def phaseAB (q : Nat) : Bool × Bool := (q == 1 || q == 2, q == 2 || q == 3)

/-- POS_ZDELTA: saturated to a signed 32-bit value (R215). -/
def sat32 (i : Int) : Int := max (-(2 ^ 31)) (min (2 ^ 31 - 1) i)

/-- P (R211). -/
def State.posP (s : State) : Int := wrapS 48 (s.pos.t + s.pos.zacc)

/-- An index event (R215) at TB0 time `te`. -/
def State.indexEvent (s : State) (te : Word) : State :=
  let mode := s.fld POS_ZMODE_MODE
  let s0 := s.setPos { s.pos with armed := false, zout := true }
  if mode = 0 then s0
  else
    let p := s.posP
    let s1 := ((s0.setReg64 POS_ZCAPLO POS_ZCAPHI (unsign 64 p)).setReg POS_ZTB0 te).countReg POS_ZCNT 1
    if mode = 1 ∨ (mode = 2 ∧ s.on POS_ZMODE_ZARM) then
      let d := wrapS 48 (signed 32 (s.reg POS_ZVAL).toNat - p)
      let s2 := s1.setPos { s1.pos with zacc := wrapS 48 (s1.pos.zacc + d) }
      let s3 := s2.setReg POS_ZDELTA (BitVec.ofNat 32 (unsign 32 (sat32 d)))
      if mode = 2 then s3.setFld POS_ZMODE_ZARM 0 else s3
    else s1

/-- The index is looked at after the voted count has moved (R214); in Banked Z is ignored (R213). -/
def State.indexCheck (s : State) (te : Word) : State :=
  let q := phaseAB s.pos.phase
  if s.votedIndex && s.pos.armed && decide (s.fld PWR_STAT_STATE ≠ 3) &&
      q.1 == s.on POS_ZMODE_QUALA && q.2 == s.on POS_ZMODE_QUALB
  then s.indexEvent te else s

/-- Core clocks from a pin change to the moment it is known: FILT + 3 in Run and Ready (R230), 2 AON samples in
Smoulder and Banked (R206). -/
def State.kClk (s : State) : Nat := if s.awake then s.fld POS_CTL_FILT + 3 else 50

/-- Samples in a row on which a pin must show a new level before it is accepted (R206): FILT + 1 core clocks in Run and Ready, 2 AON clocks in
Smoulder and Banked. -/
def State.filtN (s : State) : Nat := if s.awake then s.fld POS_CTL_FILT + 1 else 2

/-- The voted count moves by `d` at TB0 pin time `te`: T, the quadrature state, speed, H and the index. -/
def State.votedMove (s : State) (d : Int) (te : Word) : State :=
  let st := if s.on POS_CTL_SENSE then -d else d
  let p := { s.pos with t := wrapS 48 (s.pos.t + d), phase := unsign 2 ((s.pos.phase : Int) + st)
                        moves := s.pos.moves + 1, zout := false, edgeAt := s.clk - s.kClk }
  let s1 := s.setPos p
  let s2 := if s.awake then s1.speedEdge te (decide (d < 0)) else (s1.setReg POS_EDGETB0 te).setBit POS_SPEEDST_DIR (decide (d < 0))
  s2.hwmUpdate.indexCheck te

/-- TB0 at `n` core clocks before now. -/
def State.tbBefore (s : State) (n : Nat) : Word :=
  BitVec.ofNat 32 (unsign 56 ((s.tbAcc 0 : Int) - s.tbInc 0 * n) / 2 ^ 24)

/-- The step of a channel from pin state `o` to `n`: `none` when both levels change (R205, R207). -/
def quadStep (o n : Nat) : Option Int :=
  if o = n then some 0
  else if (o, n) = (0, 2) ∨ (o, n) = (2, 3) ∨ (o, n) = (3, 1) ∨ (o, n) = (1, 0) then some 1
  else if (o, n) = (2, 0) ∨ (o, n) = (3, 2) ∨ (o, n) = (1, 3) ∨ (o, n) = (0, 1) then some (-1)
  else none

/-- The channels with an illegal transition within 16 voted counts of now (R210). -/
def State.illNear (s : State) : List Nat :=
  s.chans.filter (fun c => let m := s.pos.ill.get (fun _ => 0) c; decide (0 < m) && decide (s.pos.moves + 1 ≤ m + 16))

/-- Channel `c` has made an illegal transition (R207), which may clear TRUST (R210). -/
def State.illegal (s : State) (c : Nat) : State :=
  let f : Fld := if c = 0 then POS_ILLCNT_CH0 else if c = 1 then POS_ILLCNT_CH1 else POS_ILLCNT_CH2
  let s1 := (s.count f 1).setFld POS_STATE_ILL (s.fld POS_STATE_ILL ||| 2 ^ c)
  let s2 := (s1.setPos { s1.pos with ill := s1.pos.ill.set (fun _ => 0) c (s1.pos.moves + 1) }).alarm alENCERR
  let n := s2.chans.length
  if (if n = 3 then 2 else n) ≤ s2.illNear.length ∧ 0 < n then s2.distrust else s2

/-- The voted count takes the value `v` without an edge: P and T take it at that clock, and with it the quadrature state; H follows
(R204, R213). -/
def State.posJump (s : State) (v : Int) : State :=
  let d := diff48 v s.pos.t
  let st := if s.on POS_CTL_SENSE then -d else d
  (s.setPos { s.pos with t := v, phase := unsign 2 ((s.pos.phase : Int) + st) }).hwmUpdate

/-- A voted index that is low re-arms index events (R214). -/
def State.indexArm (s : State) : State := if s.votedIndex then s else s.setPos { s.pos with armed := true }

/-- The accepted levels of channel `c` become `ab` (R205 to R210): it counts, and the vote follows. -/
def State.transition (s : State) (c ab : Nat) : State :=
  let old := s.pos.pins c
  let s1 := s.setPos { s.pos with ab := s.pos.ab.set (fun _ => 3) c ab }
  if !s.chanOn c then s1
  else match quadStep old ab with
    | none => s1.illegal c
    | some d0 =>
      let d := if s.on POS_CTL_SENSE then -d0 else d0
      let s2 := s1.setPos { s1.pos with cnt := s1.pos.cnt.set (fun _ => 0) c (wrapS 48 (s1.pos.chan c + d)) }
      let m := diff48 s2.vote s2.pos.t
      let s3 := if m = 0 then s2 else s2.votedMove m (s2.tbBefore s2.kClk)
      s3.voteFlags

/-- The (A, B) levels as R205 writes them. -/
def abOf (a b : Bool) : Nat := 2 * b2n a + b2n b

/-- The interpolation fraction f at TB0 time `now` (R221). -/
def State.fracAt (s : State) (now : Word) : Nat :=
  if !s.spdValid || s.on POS_SPEEDST_DIR || s.spdSum = 0 then 0
  else min 255 (256 * (now - s.reg POS_EDGETB0).toNat * s.spdK / s.spdSum)

/-- The interpolated travel count in units of 1/256 count. -/
def State.interp (s : State) : Int := 256 * s.pos.t + s.fracAt s.tb0

/-- A position snapshot (R221): source 0 for software, 1 for the Cord ring. -/
def State.posSnap (s : State) (src : Nat) : State :=
  let u := unsign 48 s.pos.t
  let hi := bitsOf u 32 16 + 2 ^ 16 * s.fracAt s.tb0 + 2 ^ 24 * s.fld POS_STATE_TRUST +
    2 ^ 25 * s.fld POS_STATE_REVERSED +
    2 ^ 26 * b2n (!s.on POS_SPEEDST_STILL && !s.on POS_SPEEDST_INVALID) + 2 ^ 28 * src + 2 ^ 31
  ((s.setReg POS_SNAPLO (BitVec.ofNat 32 u)).setReg POS_SNAPHI (BitVec.ofNat 32 hi)).setReg POS_SNAPTB0 s.tb0

/-- Take a rewind that waits, once the web has backed far enough (R220). -/
def State.takeRewind (s : State) : State :=
  match s.pos.rewind with
  | some v =>
    if diff48 s.pos.t v < -(s.fld POS_REVWIN_COUNTS : Int) then
      ((((s.setPos { s.pos with h := v, rewind := none }).setOn POS_STATE_REVERSED).setOn FIR_STATE_SUSPR).count
        POS_REVCNT_REWIND 1).trigMark v
    else s
  | none => s

/-- The reading of POS pair `k`: 0 CNT, 1 TRAV, 2 HWM, 3 ZACC, 4 ZCAP, sign-extended to 64 bits, and 5 SNAP (R211, R212, R221). -/
def State.posPair (s : State) (k : Nat) : Nat :=
  if k = 0 then unsign 64 s.posP else if k = 1 then unsign 64 s.pos.t else if k = 2 then unsign 64 s.pos.h
  else if k = 3 then unsign 64 s.pos.zacc else if k = 4 then s.reg64 POS_ZCAPLO POS_ZCAPHI else s.reg64 POS_SNAPLO POS_SNAPHI

end Sys2Proof.Machine
end

