-- ==== Sys2Proof/Machine/Timing.lean ====
section
/-! DEFINITION. The time base and event output commands (R291, R293, R294, R296, R297). -/

namespace Sys2Proof.Machine

open Sys2Proof

/-- The outcome type of every meaning. -/
abbrev Out := Host.Outcome State Fault Refusal

/-! ### Operations that a register write reaches too -/

/-- TIM_SET(b) (R291, R315): the base takes the value at the next core clock. -/
def State.timSet (s : State) (b : Nat) (v : Word) : State :=
  if b = 0 ∧ s.armed then s.refuse erARMED (TIM_SET 0)
  else if b = 0 ∧ s.disciplined then s.refuse erDISC (TIM_SET 0)
  else ({ s with times := { s.times with step := s.times.step.set (fun _ => 0) b (v.toNat + 1) } } : State).setReg (TIM_SET b) v

/-- TIM_ADJ(b) (R291): a new write replaces what remains. -/
def State.timAdj (s : State) (b : Nat) (v : Word) : State :=
  if b = 0 ∧ s.disciplined then s.refuse erDISC (TIM_ADJ 0)
  else ({ s with times := { s.times with rem := s.times.rem.set (fun _ => 0) b (v.toInt * 2 ^ 24) } } : State).setReg (TIM_ADJ b) v

/-- TIM_FRCLO is read (R294): the upper word and the fraction are latched at the same clock. -/
def State.frcRead (s : State) : State :=
  { s with readData := BitVec.ofNat 64 (s.times.frc / 2 ^ 24 % 2 ^ 32), readEP := false
           times := { s.times with frcLat := s.times.frc } }

/-- TIM_FRCCTL.CLR (R294). -/
def State.frcClear (s : State) : State := { s with times := { s.times with frc := 0 } }

/-- A write of TIM_EVTCTL(n).OWNER (R295, R296), by host software or by Hearth firmware. -/
def State.evtOwnerWrite (s : State) (n o : Nat) (hearth : Bool) : State :=
  let cur := s.fld (TIM_EVTCTL_OWNER n)
  if hearth then
    (if o = evHEARTH ∧ cur = evFREE then s.evtOwn n evHEARTH
     else if o = evFREE ∧ cur = evHEARTH then s.evtOwn n evFREE
     else s)
  else if 3 ≤ o then s
  else if o = cur then s
  else if o = evFREE then
    (if 3 ≤ cur then s.refuse erOWNED (TIM_EVTCTL n)
     else if cur = evLINE ∧ s.armed then s.refuse erARMED (TIM_EVTCTL n)
     else s.evtOwn n evFREE)
  else if cur = evFREE then s.evtOwn n o
  else s.refuse erOWNED (TIM_EVTCTL n)

/-- TIM_EVTCTL(n).GO (R297, R298). -/
def State.evtStart (s : State) (n : Nat) : State :=
  let w := s.fld (TIM_EVTWIDTH_WIDTH n)
  let per := (s.reg (TIM_EVTPER n)).toNat
  if s.fld (TIM_EVTCTL_OWNER n) ≠ evTIME then s
  else if w = 0 ∨ (per ≠ 0 ∧ per ≤ 10 * w) then s.refuse erBADTIME (TIM_EVTCTL n)
  else
    (s.setEvt n { (s.evt n) with
      run := true, start := s.reg (TIM_EVTSTART n), width := w, per := per
      cnt := s.fld (TIM_EVTCNT_COUNT n), nextJ := 0, last := false }).evtCatch n

/-- TIM_EVTCTL(n).STOP (R297): the schedule ends after the pulse in progress. -/
def State.evtStopNow (s : State) (n : Nat) : State :=
  let e := s.evt n
  if !e.run then s
  else
    let s1 := s.setEvt n { e with last := true }
    if e.ends.isEmpty then s1.evtOver n else s1

/-! ### The commands -/

/-- TIM_SET (R291). -/
def execTimSet (t : Nat) (b : Fin 4) (v : BitVec 32) (s : State) : Out :=
  .next ((s.advance t).bar 12 (fun s => s.timSet b v))

/-- TIM_ADJ (R291). -/
def execTimAdj (t : Nat) (b : Fin 4) (v : BitVec 32) (s : State) : Out :=
  .next ((s.advance t).bar 12 (fun s => s.timAdj b v))

/-- TIM_SNAP (R293): NOW captures every time base and the forerunner counter. -/
def execTimSnap (t : Nat) (s : State) : Out := .next ((s.advance t).bar 12 (fun s => s.timSnap 0))

/-- TIM_FRCLO_READ (R294). -/
def execTimFrcloRead (t : Nat) (s : State) : Out := .next ((s.advance t).barRead 12 TIM_FRCLO State.frcRead)

/-- CLR (R294). -/
def execFrcClr (t : Nat) (s : State) : Out := .next ((s.advance t).bar 12 State.frcClear)

/-- EVT_OWNER_WRITE (R296). -/
def execEvtOwnerWrite (n : Fin 8) (o : Fin 8) (hearth : Bool) (s : State) : Out :=
  .next (s.byWriter hearth (fun s => s.bar 12 (fun s => s.evtOwnerWrite n o hearth)))

/-- GO (R297). -/
def execEvtGo (t : Nat) (n : Fin 8) (s : State) : Out := .next ((s.advance t).bar 12 (fun s => s.evtStart n))

/-- STOP (R297). -/
def execEvtStop (n : Fin 8) (s : State) : Out := .next (s.bar 12 (fun s => s.evtStopNow n))

/-- EVT_PULSE_START (R297, R298): the next start of pin `n` falls due. In Smoulder and Banked it is not given. -/
def State.evtDue (s : State) (n : Nat) : State :=
  let e := s.evt n
  if !e.run || e.last || !timeDue (e.startOf e.nextJ) (s.tb (s.fld (TIM_EVTCTL_TB n))) then s
  else
    let fin := decide (e.per = 0) || decide (e.cnt = e.nextJ + 1)
    let s1 := s.setEvt n { e with nextJ := e.nextJ + 1, last := fin }
    if s.awake then s1.evtPulse n e.width
    else
      let s2 := s1.count (TIM_EVTSTAT_MISSED n) 1
      if fin then s2.evtOver n else s2

def execEvtPulseStart (t : Nat) (n : Fin 8) (s : State) : Out := .next ((s.advance t).evtDue n)

/-- EVT_PULSE_END (R297): the pulses of pin `n` whose width has expired end. -/
def State.evtEnd (s : State) (n : Nat) : State :=
  let e := s.evt n
  let e' := { e with ends := e.ends.filter (fun x => decide (s.clk < x)) }
  let s1 := (s.setEvt n e').evtShow n
  if e'.run && e'.last && e'.ends.isEmpty then s1.evtOver n else s1

def execEvtPulseEnd (t : Nat) (n : Fin 8) (s : State) : Out := .next ((s.advance t).evtEnd n)

/-- TIME_BASE_SLEW_END (R291): once nothing remains of the slew of base `b`, it is back at its plain increment. -/
def execTimeBaseSlewEnd (t : Nat) (b : Fin 4) (s : State) : Out :=
  let s1 := s.advance t
  .next (if s1.times.rem.get (fun _ => 0) b = 0 then s1.setReg (TIM_ADJREM b) 0#32 else s1)

end Sys2Proof.Machine
end

