-- ==== Sys2Proof/Machine/Position.lean ====
section
/-! DEFINITION. The position commands other than an encoder transition, which line firing joins (R204 to R223). -/

namespace Sys2Proof.Machine

open Sys2Proof

/-- Timer that starts when STILL is set. -/
def tmStill : Nat := 1

/-- REWIND (R220). -/
def execRewind (s : State) : Out := .next s.takeRewind

/-- STILL_TIMEOUT (R217): no edge for POS_STILLTO. -/
def State.stillTimeout (s : State) : State :=
  if s.awake && !s.on POS_SPEEDST_STILL &&
      decide (1000 * s.fld POS_STILLTO_TIMEOUT ≤ (s.tb0 - s.reg POS_EDGETB0).toNat)
  then (s.dropList true).startTimer tmStill else s

def execStillTimeout (t : Nat) (s : State) : Out := .next (s.advance t).stillTimeout

/-- SPEED_DECAY_UPDATE (R218): with `e` ns since the latest edge, beyond the mean interval. -/
def State.speedDecay (s : State) : State :=
  let e := (s.tb0 - s.reg POS_EDGETB0).toNat
  if s.awake && !s.on POS_SPEEDST_STILL && !s.on POS_SPEEDST_INVALID && decide (s.spdSum < e * s.spdK)
  then s.setReg POS_SPEED (BitVec.ofNat 32 ((16 * 1000000000 + e / 2) / e)) else s

def execSpeedDecayUpdate (t : Nat) (s : State) : Out := .next (s.advance t).speedDecay

/-- A legal value of POS_CTL from the one written: CHEN none, BANKCH 11b and VOTEWIN 0 keep their fields (R5). -/
def posCtlLegal (old new : Word) : Word :=
  let a := if bitsOf new.toNat 0 3 = 0 then putBits new 0 3 (bitsOf old.toNat 0 3) else new
  let b := if bitsOf a.toNat 8 2 = 3 then putBits a 8 2 (bitsOf old.toNat 8 2) else a
  let c := if bitsOf b.toNat 16 8 = 0 then putBits b 16 8 (bitsOf old.toNat 16 8) else b
  c &&& 0x00FF03FF#32

/-- POS_CTL takes the value `v` (R204, R226): a channel that becomes enabled takes the voted count and the levels at its
pins, filtered or not, and a change that moves the voted count is no edge. -/
def State.posCtlWrite (s : State) (v : Word) : State :=
  if s.armed then s.refuse erARMED POS_CTL
  else
    let v0 := s.vote
    let fresh := (List.range 3).filter (fun c => v.getLsbD c && !(s.reg POS_CTL).getLsbD c)
    let s1 := s.setReg POS_CTL (posCtlLegal (s.reg POS_CTL) v)
    let s2 := fresh.foldl (fun s c => s.setPos { s.pos with
      cnt := s.pos.cnt.set (fun _ => 0) c v0, ab := s.pos.ab.set (fun _ => 3) c (s.pos.rawOf c % 4) }) s1
    let v1 := s2.vote
    let s3 := if v1 = s2.pos.t then s2 else (s2.posJump v1).dropList (s.on POS_SPEEDST_STILL)
    s3.voteFlags.indexArm

/-- POS_CTL_WRITE (R204). -/
def execPosCtlWrite (v : BitVec 32) (s : State) : Out := .next (s.bar 6 (fun s => s.posCtlWrite v))

/-- A resync of channel `c` (R209): with three channels, or the higher of two, its counter becomes the vote. -/
def State.posResync (s : State) (c : Nat) : State :=
  if s.chanOn c && decide (2 ≤ s.chans.length) then
    (s.setPos { s.pos with cnt := s.pos.cnt.set (fun _ => 0) c s.vote }).voteFlags
  else s

/-- RESYNC (R209): bit `c` of `m` names channel `c`. -/
def State.resyncAll (s : State) (m : Nat) : State :=
  (List.range 3).foldl (fun s c => if bitAt m c then s.posResync c else s) s

def execResync (m : BitVec 3) (s : State) : Out := .next (s.bar 6 (fun s => s.resyncAll m.toNat))

/-- RETRUST (R210): effective only while NOMAJ is clear. -/
def State.retrust (s : State) : State :=
  if s.on POS_STATE_NOMAJ then s else (s.setOn POS_STATE_TRUST).setFld FIR_STATE_SUSPT 0

/-- POS_SNAP (R221). -/
def execPosSnap (t : Nat) (s : State) : Out := .next ((s.advance t).bar 6 (fun s => s.posSnap 0))

/-- POS_LO_READ (R212) of pair `k`: CNT, TRAV, HWM, ZACC, ZCAP or SNAP. -/
def State.posLoRead (s : State) (k : Nat) : State :=
  let v := s.posPair k
  { s with readData := BitVec.ofNat 64 (v % 2 ^ 32), readEP := false
           pos := { s.pos with lat := s.pos.lat.set (fun _ => 0#32) k (BitVec.ofNat 32 (v / 2 ^ 32)) } }

def execPosLoRead (k : Fin 6) (s : State) : Out := .next (s.barRead 6 POS_CNTLO (fun s => s.posLoRead k))

/-- A write of POS_ENCO by host software (owner 01b) or Hearth firmware (10b) (R222, R223). -/
def State.encoWrite (s : State) (claim : Bool) (src : Nat) (hearth : Bool) : State :=
  let me := if hearth then 2 else 1
  let own := s.fld POS_ENCO_OWNER
  if own ≠ 0 ∧ own ≠ me then s.refuse erOWNED POS_ENCO
  else if 4 ≤ src then s
  else if claim then ((s.setFld POS_ENCO_SRC src).setOn POS_ENCO_CLAIM).setFld POS_ENCO_OWNER me
  else ((s.setFld POS_ENCO_SRC 0).setFld POS_ENCO_CLAIM 0).setFld POS_ENCO_OWNER 0

/-- ENCO_CLAIM (R223). -/
def execEncoClaim (claim : Bool) (src : Fin 8) (hearth : Bool) (s : State) : Out :=
  .next (s.byWriter hearth (fun s => s.bar 6 (fun s => s.encoWrite claim src hearth)))

/-- What ENCO carries, A, B and Z (R222): the pins of a channel as they stand, not filtered, or the voted count regenerated; in Banked it is not driven. -/
def State.enco (s : State) : Option (Bool × Bool × Bool) :=
  let q := s.fld POS_ENCO_SRC
  if s.fld PWR_STAT_STATE = 3 then none
  else if q = 3 then some ((phaseAB s.pos.phase).1, (phaseAB s.pos.phase).2, s.pos.zout)
  else some (bitAt (s.pos.rawOf q) 1, bitAt (s.pos.rawOf q) 0, bitAt (s.pos.rawOf q) 2)

/-- ENCODER_INDEX_CHANGE (R214): the accepted Z level of channel `c` changes; a low voted index re-arms events. In Banked the Z of
every channel is ignored (R213). -/
def State.indexLevel (s : State) (c : Nat) (z : Bool) : State :=
  if s.fld PWR_STAT_STATE = 3 then s else (s.setPos { s.pos with z := s.pos.z.set (fun _ => 1) c (b2n z) }).indexArm

/-- ENCODER_INDEX_CHANGE (R214), after `z.n` samples in a row of the new level (R206). The pin has it at once (R222). -/
def execEncoderIndexChange (c : Fin 3) (z : Level) (s : State) : Out :=
  let s1 := s.pinsAt c (4 * b2n z.up + s.pos.rawOf c % 4)
  .next (if z.n.toNat < s1.filtN then s1 else s1.indexLevel c z.up)

end Sys2Proof.Machine
end

