-- ==== Sys2Proof/Machine/Operands.lean ====
section
/-! DEFINITION. The operand forms: the fields of descriptors (R80), commands (R60) and unit operation records
(R38), read from their bytes. -/

namespace Sys2Proof.Machine

/-- `n` bytes of `v` from byte `k`, little-endian (R4). -/
def bytesAt (v k n : Nat) : Nat := bitsOf v (8 * k) (8 * n)

/-! ### Descriptors (R80) -/

def dOp (r : BitVec 256) : Nat := bytesAt r.toNat 0 1
def dFlags (r : BitVec 256) : Nat := bytesAt r.toNat 1 1
def dUnit (r : BitVec 256) : Nat := bytesAt r.toNat 2 1
def dFmt (r : BitVec 256) : Nat := bytesAt r.toNat 3 1
def dLine (r : BitVec 256) : Nat := bytesAt r.toNat 4 5
def dCount (r : BitVec 256) : Nat := bytesAt r.toNat 9 2
def dWidth (r : BitVec 256) : Nat := bytesAt r.toNat 11 2
def dRes (r : BitVec 256) : Nat := bytesAt r.toNat 13 1
def dStride (r : BitVec 256) : Nat := bytesAt r.toNat 14 2
def dAddr (r : BitVec 256) : Nat := bytesAt r.toNat 16 8
def dLen (r : BitVec 256) : Nat := bytesAt r.toNat 24 4
def dTag (r : BitVec 256) : Nat := bytesAt r.toNat 28 4

/-- BAND flags (R81). -/
def dEnd (r : BitVec 256) : Bool := r.getLsbD 8
def dQuiet (r : BitVec 256) : Bool := r.getLsbD 9
def dNoref (r : BitVec 256) : Bool := r.getLsbD 10
/-- FENCE flag XSTR (R80, R92). -/
def dXstr (r : BitVec 256) : Bool := r.getLsbD 8

/-- Output columns and web lines that one pixel covers (R83). -/
def resFx (res : Nat) : Nat := if res = 1 ∨ res = 3 then 2 else 1
def resFy (res : Nat) : Nat := if res = 2 ∨ res = 3 then 2 else 1

/-- Rows of a band of `n` lines (R83). -/
def bandRows (n res : Nat) : Nat := ceilDiv n (resFy res)

/-- Turf formats and scan formats (R82). -/
def fmtTurf (f : Nat) : Bool := f == 2 || f == 4
def fmtScan (f : Nat) : Bool := f == 3 || f == 4

/-- Bytes that a raw band needs (R85). -/
def rawNeed (n res width stride : Nat) : Nat := (bandRows n res - 1) * (stride * 64) + width

/-- The stored size that check 8 and the reservation take (R100, R108). -/
def bandSize (r : BitVec 256) : Nat :=
  if fmtTurf (dFmt r) then dLen r else bandRows (dCount r) (dRes r) * (64 * ceilDiv (dWidth r) 64)

/-- Bytes of band data that are read (R85): the byte length of a Turf band, the width of each row of a raw one. -/
def bandFetch (r : BitVec 256) : Nat :=
  if fmtTurf (dFmt r) then dLen r else bandRows (dCount r) (dRes r) * dWidth r

/-! ### Commands (R60) -/

def cCode (r : BitVec 256) : Nat := bytesAt r.toNat 0 1
def cStream (r : BitVec 256) : Nat := bytesAt r.toNat 2 1
def cLine (r : BitVec 256) : Nat := bytesAt r.toNat 4 5
def cSeed (r : BitVec 256) : Nat := bytesAt r.toNat 12 4
def cTag (r : BitVec 256) : Nat := bytesAt r.toNat 28 4

/-- Bytes 1, 3, 9 to 11 and 16 to 27, and bit 7 of byte 2, must be 0 (R60). -/
def cClean (r : BitVec 256) : Bool :=
  bytesAt r.toNat 1 1 == 0 && bytesAt r.toNat 3 1 == 0 && bytesAt r.toNat 9 3 == 0 &&
  bytesAt r.toNat 16 12 == 0 && decide (cStream r < 128)

/-- A command of code `k` whose bytes are those of a command. -/
def isCmd (k : Nat) (raw : BitVec 256) : Bool := cCode raw == k && cClean raw

/-! ### Unit operation records (R38) -/

def uCode (r : BitVec 128) : Nat := bytesAt r.toNat 0 1
def uUnit (r : BitVec 128) : Nat := bytesAt r.toNat 2 1
def uLine (r : BitVec 128) : Nat := bytesAt r.toNat 4 5
def uArg (r : BitVec 128) : Word := BitVec.ofNat 32 (bytesAt r.toNat 12 4)

/-- Codes 01h to 09h are the unit operations (R38). -/
def uKnown (r : BitVec 128) : Bool := decide (1 ≤ uCode r) && decide (uCode r ≤ 9)

/-- The reserved bytes of a unit operation record are 0 (R38): bytes 1, 3 and 9 to 11. What an operand does not use is no
reserved byte, and is ignored. -/
def uClean (r : BitVec 128) : Bool :=
  bytesAt r.toNat 1 1 == 0 && bytesAt r.toNat 3 1 == 0 && bytesAt r.toNat 9 3 == 0

end Sys2Proof.Machine
end

