-- ==== Sys2Proof/Machine/Units.lean ====
section
/-! DEFINITION. The unit tree: chains and membership (R28 to R30), the own fields at a web line, their combination
along the chain (R33), the checks of the tree (R31) and the effective registers (R44). -/

namespace Sys2Proof.Machine

/-! ### Chains -/

/-- The chain of unit `u`: itself and its attached ancestors, at most `fuel` of them (R29). -/
def State.chainUp (s : State) : Nat → Nat → List Nat
  | 0, _ => []
  | n + 1, u =>
    if u = 127 then [127]
    else if s.on (UNT_CTL_ATT u) then u :: s.chainUp n (s.fld (UNT_CTL_PARENT u)) else [u]

/-- The chain of unit `u` up to unit 127, or as far as it is attached. -/
def State.chain (s : State) (u : Nat) : List Nat := s.chainUp 128 u

/-- Is every unit of the chain of `u` attached up to 127 (R30)? -/
def State.reaches (s : State) (u : Nat) : Bool := (s.chain u).contains 127

/-- Is head unit `h` live (R30)? A job's tree is the one that ARM found. -/
def State.isLive (s : State) (h : Nat) : Bool := if s.armed then (s.head h).live else s.reaches h

/-- The live head units in ascending order (R30). -/
def State.liveHeads (s : State) : List Nat := (List.range 64).filter (fun h => s.isLive h)

/-- The live member head units of unit `u` (R29, R43). -/
def State.members (s : State) (u : Nat) : List Nat := s.liveHeads.filter (fun h => (s.chain h).contains u)

/-! ### Own fields at a web line (R39, R438) -/

/-- The accepted operation on unit `u` with a code in `codes` that governs line `line`: the highest E at or below
it, and among several the last accepted (R41). -/
def State.opAt (s : State) (u : Nat) (codes : List Nat) (line : Nat) : Option UOp :=
  if !s.armed then none else
  s.uops.foldl (fun best o =>
    if o.unit == u && codes.contains o.code && decide (o.line ≤ line) &&
        (match best with | none => true | some b => decide (b.line ≤ o.line))
    then some o else best) none

/-- A unit's own register at offset `a`: as ARM froze it while a job is armed, else as it stands. -/
def State.own (s : State) (a : Nat) : Nat :=
  (if s.armed then s.ubase.get regReset a else s.reg a).toNat

/-- The own fields of one unit as they stand for one web line. -/
structure Own where
  en   : Bool
  hold : Bool
  dw   : Int
  x    : Int
  fwd  : Int
  rev  : Int
  pol  : Nat
  tl   : Nat
  base : Nat
  adj  : Int
  slew : Nat
  deriving DecidableEq, Repr

/-- The own fields of unit `u` for web line `line`. -/
def State.ownAt (s : State) (u line : Nat) : Own :=
  let ctl := s.own (UNT_CTL u)
  let en := match s.opAt u [1, 2] line with | some o => o.code == 1 | none => bitAt ctl 0
  let hold := match s.opAt u [3, 4] line with | some o => o.code == 3 | none => bitAt ctl 1
  let dw := match s.opAt u [5] line with | some o => o.arg.toNat | none => s.own (UNT_DWOFS u)
  let x := match s.opAt u [6] line with | some o => o.arg.toNat | none => s.own (UNT_XOFS u)
  let dir := match s.opAt u [7] line with | some o => o.arg.toNat | none => s.own (UNT_DIROFS u)
  let th := match s.opAt u [8] line with | some o => o.arg.toNat | none => s.own (UNT_THERM u)
  let adj := match s.opAt u [9] line with
    | some o => bitsOf o.arg.toNat 0 15 | none => bitsOf (s.own (UNT_TRIM u)) 16 15
  { en := en, hold := hold, dw := signed 32 dw, x := signed 18 x,
    fwd := signed 16 dir, rev := signed 16 (dir / 2 ^ 16), pol := bitsOf th 0 2, tl := bitsOf th 8 8,
    base := if u < 64 then bitsOf (s.own (UNT_TRIM u)) 0 14 else 0,
    adj := signed 15 adj, slew := bitsOf (s.own (UNT_SLEW u)) 0 4 }

/-! ### Combination (R33) -/

/-- An effective record. -/
structure Eff where
  en   : Bool
  hold : Bool
  dw   : Int    -- lines * 256
  x    : Int
  fwd  : Int
  rev  : Int
  pol  : Nat
  tl   : Nat
  trim : Int    -- before the clamp
  slew : Nat
  deriving DecidableEq, Repr

/-- Add the fields of the next ancestor `o` to the record formed so far. -/
def Eff.add (e : Eff) (o : Own) : Eff :=
  { en := e.en && o.en, hold := e.hold || o.hold, dw := e.dw + o.dw, x := e.x + o.x,
    fwd := e.fwd + o.fwd, rev := e.rev + o.rev,
    pol := if e.pol = 0 then o.pol else e.pol,
    tl := if o.tl = 0 then e.tl else if e.tl = 0 then o.tl else min e.tl o.tl,
    trim := e.trim + o.base + o.adj, slew := max e.slew o.slew }

/-- The record of a unit that adds nothing of its own. -/
def Eff.neutral : Eff := ⟨true, false, 0, 0, 0, 0, 0, 0, 0, 0⟩

/-- The combination of a chain of units for web line `line`. -/
def State.combine (s : State) (us : List Nat) (line : Nat) : Eff :=
  us.foldl (fun e u => e.add (s.ownAt u line)) Eff.neutral

/-- The effective record of unit `u` for web line `line` (R33). -/
def State.effAt (s : State) (u line : Nat) : Eff := s.combine (s.chain u) line

/-- Are the effective values inside their ranges (R33, R437)? -/
def Eff.inRange (e : Eff) : Bool :=
  decide (0 ≤ e.dw) && decide (e.dw ≤ 65535 * 256 + 255) && decide (-131071 ≤ e.x) && decide (e.x ≤ 131071) &&
  decide (-128 * 256 ≤ e.fwd) && decide (e.fwd ≤ 127 * 256 + 255) &&
  decide (-128 * 256 ≤ e.rev) && decide (e.rev ≤ 127 * 256 + 255) &&
  e.pol != 0 && decide (1 ≤ e.tl) && decide (e.tl ≤ 150) && e.slew != 0

/-! ### Stream binding (R43) -/

/-- The unit bound to stream `st`, the lowest if several. -/
def State.boundUnit (s : State) (st : Nat) : Option Nat :=
  (List.range 128).find? (fun u => s.on (UNT_BIND_BOUND u) && s.fld (UNT_BIND_STREAM u) == st)

/-- The units of a chain that are bound to a stream. -/
def State.boundOn (s : State) (h : Nat) : List Nat := (s.chain h).filter (fun u => s.on (UNT_BIND_BOUND u))

/-- The stream that feeds head unit `h` (R33). -/
def State.streamOf (s : State) (h : Nat) : Option Nat :=
  match s.boundOn h with
  | [u] => some (s.fld (UNT_BIND_STREAM u))
  | _ => none

/-- The live heads fed by stream `st`. -/
def State.fedBy (s : State) (st : Nat) : List Nat :=
  match s.boundUnit st with
  | some u => s.members u
  | none => []

/-! ### The checks of the tree (R31): the first failure with its code and unit -/

def State.checkParent (s : State) : Option (Nat × Nat) :=
  ((List.range 127).find? (fun u =>
    decide (s.fld (UNT_CTL_PARENT u) < 64) || s.fld (UNT_CTL_PARENT u) == u)).map (fun u => (2, u))

/-- The units that the parent links of unit `u` lead through, attached or not, at most `fuel` of them (R29, R31). -/
def State.linksUp (s : State) : Nat → Nat → List Nat
  | 0, _ => []
  | n + 1, u => if u = 127 then [127] else u :: s.linksUp n (s.fld (UNT_CTL_PARENT u))

/-- A chain that comes back to a unit never ends, so it has not reached 127 after 128 units. -/
def State.checkCycle (s : State) : Option (Nat × Nat) :=
  ((List.range 127).find? (fun u => !(s.linksUp 128 u).contains 127)).map (fun u => (1, u))

def State.checkDetached (s : State) : Option (Nat × Nat) :=
  ((List.range 64).find? (fun h => s.on (UNT_CTL_EN h) && !s.reaches h)).map (fun h => (3, h))

/-- Effective values are those of the head units that are live (R30, R33): a head that does not reach unit 127 inherits nothing
from it. -/
def State.checkRange (s : State) : Option (Nat × Nat) :=
  ((List.range 64).find? (fun h => s.reaches h && !(s.effAt h 0).inRange)).map (fun h => (4, h))

/-- An enabled head unit is one with UNT_CTL.EN 1b (DEDUCED, log entry 10). Of two units bound to one stream the higher-numbered
is recorded (DESIGN CHOICE, log entry 10). -/
def State.checkBind (s : State) : Option (Nat × Nat) :=
  ((List.range 128).find? (fun u =>
    (decide (u < 64) && s.on (UNT_CTL_EN u) && (s.boundOn u).length != 1) ||
    (s.on (UNT_BIND_BOUND u) && (List.range u).any (fun w =>
      s.on (UNT_BIND_BOUND w) && s.fld (UNT_BIND_STREAM w) == s.fld (UNT_BIND_STREAM u))))).map (fun u => (5, u))

/-- Single coverage is KLN_CTL.LAYOUT 0b (R126); SUBSTITUTE is policy 01b. An enabled head unit is one with UNT_CTL.EN 1b (DEDUCED,
log entry 10). -/
def State.checkPolicy (s : State) : Option (Nat × Nat) :=
  if s.on KLN_CTL_LAYOUT then none
  else ((List.range 64).find? (fun h => s.on (UNT_CTL_EN h) && (s.effAt h 0).pol == 1)).map (fun h => (10, h))

/-- The tree checks in order (R31), on a state whose own fields are those about to be armed. -/
def State.treeCheck (s : State) : Option (Nat × Nat) :=
  s.checkParent <|> s.checkCycle <|> s.checkDetached <|> s.checkRange <|> s.checkBind <|> s.checkPolicy

/-! ### Effective registers (R33, R44) -/

/-- Write an effective record into the registers of unit `u`; a head's trim target follows (R343). LIVE of a group unit says that its
chain is attached up to 127, whether or not it has a live member (DESIGN CHOICE, log entry 11). -/
def State.putEff (s : State) (u : Nat) (e : Eff) : State :=
  let ctl := b2n e.en + 2 * b2n e.hold + 4 * b2n (s.reaches u) + 16 * e.pol + 256 * e.tl + 65536 * e.slew
  let s1 := s.setReg (UNT_EFFCTL u) (BitVec.ofNat 32 ctl)
  let s2 := s1.setReg (UNT_EFFDW u) (BitVec.ofNat 32 (unsign 32 e.dw))
  let s3 := s2.setReg (UNT_EFFX u) (BitVec.ofNat 32 (unsign 18 e.x))
  s3.setReg (UNT_EFFTRIM u) (BitVec.ofNat 32 (min e.trim.toNat s.trimCeil))

/-- The record of unit `u` for line `next`, with the trim of the line before: a TRIM-RAMP takes effect only as its line E
counts as fired (R39). For a TRIM-RAMP accepted with E below a member's first line, or at a line that the member has passed unscreened, no
ramp starts there: its adjustment moves the target at the head's own slew code (DEDUCED, log entry 49). -/
def State.effShown (s : State) (u next : Nat) : Eff :=
  { s.effAt u next with
    trim := if next = 0 then (State.effAt { s with uops := [] } u 0).trim else (s.effAt u (next - 1)).trim }

/-- Bring the effective registers of head `h` to the line it prints next. -/
def State.putEffHead (s : State) (h : Nat) : State :=
  let e := s.effShown h (s.head h).next
  (s.putEff h e).setWant h e.trim

/-- The line for which a group's effective registers stand: the lowest next line of its live members. -/
def State.groupLine (s : State) (u : Nat) : Nat :=
  match (s.members u).map (fun h => (s.head h).prints) with
  | [] => 0
  | l :: ls => ls.foldl min l

/-- Bring the effective registers of group `g` up to date: what a member without fields of its own would see (R33). -/
def State.putEffGroup (s : State) (g : Nat) : State := s.putEff g (s.effShown g (s.groupLine g))

/-- Bring the groups above head `h` up to date. -/
def State.putEffGroups (s : State) (h : Nat) : State :=
  ((s.chain h).filter (fun u => decide (64 ≤ u))).foldl (fun s g => s.putEffGroup g) s

/-- Resolve every unit (R33): done when a job is armed. -/
def State.resolveAll (s : State) : State :=
  let s1 := (List.range 64).foldl (fun s h => s.putEffHead h) s
  (countUp 64 64).foldl (fun s g => s.putEffGroup g) s1

/-! ### Unit operations (R38 to R41, R438) -/

/-- The operand carries an encoding reserved for unit 127 (R437). -/
def reserved127 (o : UOp) : Bool :=
  decide (o.unit = 127) && decide (o.code = 8) && (bitsOf o.arg.toNat 0 2 == 0 || bitsOf o.arg.toNat 8 8 == 0)

/-- Is `o` the operation that stands in the end among the accepted ones on its field (R438)? -/
def State.opStands (s : State) (o : UOp) (codes : List Nat) : Bool :=
  s.uops.all (fun p => !(decide (p.unit = o.unit) && codes.contains p.code && decide (o.line < p.line)))

/-- Write the own field that operation `o` names (R438). -/
def State.ownWrite (s : State) (o : UOp) : State :=
  let u := o.unit
  match o.code with
  | 1 => s.setFld (UNT_CTL_EN u) 1
  | 2 => s.setFld (UNT_CTL_EN u) 0
  | 3 => s.setFld (UNT_CTL_HOLD u) 1
  | 4 => s.setFld (UNT_CTL_HOLD u) 0
  | 5 => s.setReg (UNT_DWOFS u) o.arg
  | 6 => s.setFld (UNT_XOFS_XOFS u) o.arg.toNat
  | 7 => s.setReg (UNT_DIROFS u) o.arg
  | 8 => (s.setFld (UNT_THERM_POLICY u) (bitsOf o.arg.toNat 0 2)).setFld (UNT_THERM_TLIMIT u) (bitsOf o.arg.toNat 8 8)
  | _ => s.setFld (UNT_TRIM_ADJ u) (bitsOf o.arg.toNat 0 15)

/-- The codes of the operations on the same field as `code`. -/
def opField (code : Nat) : List Nat := if code ≤ 2 then [1, 2] else if code ≤ 4 then [3, 4] else [code]

/-- The state in which operation `o` stands accepted, for judging it (R40). -/
def State.withOp (s : State) (o : UOp) : State :=
  if s.armed then { s with uops := s.uops ++ [o] } else s.ownWrite o

/-- The lines at which accepting `o` could change a member's record: its own E and the E of later operations. -/
def State.opLines (s : State) (o : UOp) : List Nat :=
  o.line :: (s.uops.filter (fun p => decide (o.line < p.line))).map (fun p => p.line)

/-- Line `l` has been screened on head `h`: at or after the head's first line (R229), and not passed over unscreened. -/
def State.screenedLine (s : State) (h l : Nat) : Bool :=
  let x := s.head h
  decide (x.first ≤ l) && decide (l < x.screen) && !x.unscr.any (fun r => decide (r.1 ≤ l) && decide (l < r.2))

/-- The refusal of a unit operation (R40), in the order of the table, or none. LIVE and POLICY compare the values on line E itself,
RANGE those on every line from which the operation changes them (DEDUCED, log entry 12). A member is "enabled" in the POLICY row by its effective enable on line E, where R31's check takes UNT_CTL.EN (DEDUCED, log entry 12). -/
def State.opRefused (s : State) (o : UOp) : Option Nat :=
  let ms := s.members o.unit
  let s' := s.withOp o
  if s.armed && ms.any (fun h => s.screenedLine h o.line) then some 7
  else if reserved127 o || ms.any (fun h => (s.opLines o).any (fun l => !(s'.effAt h l).inRange)) then some 4
  else if decide (o.code = 5) && ms.any (fun h =>
      let e := s.effAt h o.line
      e.en && !e.hold && decide (128 < ((s'.effAt h o.line).dw - e.dw).natAbs)) then some 8
  else if decide (o.code = 8) && !s.on KLN_CTL_LAYOUT &&
      ms.any (fun h => (s.effAt h o.line).en && (s'.effAt h o.line).pol == 1) then some 10
  else none

/-- The Stoker of each of `hs` goes back to line `l`, whose data it has taken to be none (R113). -/
def State.tileBack (s : State) (hs : List Nat) (l : Nat) : State :=
  hs.foldl (fun s h => s.modHead h (fun x => { x with tileTo := min x.tileTo l })) s

/-- Head `h` is effectively enabled for line `l` (R36). -/
def State.enAt (s : State) (h l : Nat) : Bool := (s.effAt h l).en

/-- The port of head `h` drives (R182). -/
def State.drives (s : State) (h : Nat) : Bool := s.fld (HPT_CTL_MODE h) == 1

/-- An operation just accepted over `old` disables head `h` from its next line on: its last line has passed already, and the port owes its
flush burst (R181). One that enables it again before the burst takes that back. -/
def State.flushNow (s old : State) (h : Nat) : State :=
  let x := s.head h
  let was := old.enAt h x.next
  let now := s.enAt h x.next
  if s.armed && s.isLive h && x.any && s.drives h && s.enAt h (x.next - 1) && was != now then s.modHead h (fun x => { x with flush := was }) else s

/-- Accept operation `o`: it joins the accepted ones, and the own field shows the one that stands (R438). Without
a job it takes effect at the next ARM, which resolves from the own field. -/
def State.opAccept (s : State) (o : UOp) : State :=
  let s1 : State := if s.opStands o (opField o.code) then s.ownWrite o else s
  let s2 := if o.code = 1 then s1.tileBack (s.members o.unit) o.line else s1
  let s3 : State := { s2 with uops := s2.uops ++ [o] }
  (s3.members o.unit).foldl (fun t h => t.flushNow s h) s3

end Sys2Proof.Machine
end

