-- ==== Sys2Proof/Machine/TableOps.lean ====
section
/-! DEFINITION. Nozzle entries, curves and matrices as the table update port writes them and as Kiln reads them
(R126 to R142, R152 to R163). -/

namespace Sys2Proof.Machine

/-! ### Functions of the web line index (R133, R134, R138) -/

/-- mix of R134. -/
def mix (x : Word) : Word :=
  let a := (x ^^^ (x >>> 16)) * 0x6C8E9CF5#32
  let b := (a ^^^ (a >>> 13)) * 0xB5297A4D#32
  b ^^^ (b >>> 16)

/-- One step of the Galois LFSR of R134. -/
def lfsrStep (g : Word) : Word := if g.getLsbD 0 then (g >>> 1) ^^^ 0x80200003#32 else g >>> 1

/-- `n` steps of the LFSR. -/
def lfsrRun : Nat → Word → Word
  | 0, g => g
  | n + 1, g => lfsrRun n (lfsrStep g)

/-- G(L) of R134. -/
def lfsrAt (seed : Word) (l : Nat) : Word := lfsrRun (l % (2 ^ 32 - 1)) (if seed = 0#32 then 1#32 else seed)

/-- A column as 32 bits, sign-extended. -/
def colWord (k : Int) : Word := BitVec.ofInt 32 k

/-- The rotation bit a(L, k) of R133: true for slot B. -/
def rotationB (seq : Nat) (seed : Word) (l : Nat) (k : Int) : Bool :=
  if seq = 0 then false
  else if seq = 1 then decide (((l : Int) + k) % 2 = 1)
  else if seq = 2 then decide (((l / 2 : Nat) + k : Int) % 2 = 1)
  else (mix (lfsrAt seed l ^^^ (colWord k * 0x9E3779B1#32))).getLsbD 0

/-- D(k, L) of R138. -/
def dither (seed : Word) (k : Int) (l : Nat) : Nat :=
  let hi := BitVec.ofNat 32 (l / 2 ^ 32 % 256) * 0x68E31DA5#32
  (mix (seed ^^^ (colWord k * 0x9E3779B1#32) ^^^ mix (BitVec.ofNat 32 l ^^^ hi))).toNat % 65536

/-! ### Entry fields (R152) -/

def eCol (v : BitVec 64) : Nat := bitsOf v.toNat 0 17
def eTrc (v : BitVec 64) : Nat := bitsOf v.toNat 17 6
def eTrim (v : BitVec 64) : Int := signed 9 (bitsOf v.toNat 23 9)
def eState (v : BitVec 64) : Nat := bitsOf v.toNat 32 2
def ePart (v : BitVec 64) : Nat := bitsOf v.toNat 34 2
def eAsh (v : BitVec 64) : Bool := v.getLsbD 36
def eBlend (v : BitVec 64) : Nat := bitsOf v.toNat 37 3
def eLow (v : BitVec 64) : Nat := bitsOf v.toNat 0 37
def eReserved (v : BitVec 64) : Nat := bitsOf v.toNat 40 8

/-- Fade length of a blend code (R138). -/
def fadeLen (c : Nat) : Nat := if c = 0 then 0 else 2 ^ (c + 5)

/-- A word is consumed as marked: by its mark or, for an entry, by its ash bit (R142, R385). -/
def MWord.poison (w : MWord) : Bool := w.out.2 || eAsh w.out.1

/-! ### Words of the fill -/

def zeroWord : MWord := MWord.clean 0#64
def onesWord : MWord := MWord.clean 0xFFFFFFFFFFFFFFFF#64

/-- Errors and marks of the column map word of column `k`, or of blend shadow word `k` - 2^17 while its entry has no change. What such
a word says follows from the entries, so only its check state is held. -/
def State.code (s : State) (k : Nat) : MWord := s.tabs.codes.get (fun _ => zeroWord) k
def State.setCode (s : State) (k : Nat) (w : MWord) : State :=
  s.setTabs { s.tabs with codes := s.tabs.codes.set (fun _ => zeroWord) k w }

/-! ### Entries -/

/-- The entry that the SRAM fill leaves (R153): masked, column 0. -/
def fillWord : MWord := MWord.clean 0x0000000300000000#64
def NEnt.fill : NEnt := ⟨fillWord, fillWord, [], 0⟩

def State.ent (s : State) (n : Nat) : NEnt := s.tabs.ents.get (fun _ => NEnt.fill) n
def State.setEnt (s : State) (n : Nat) (e : NEnt) : State :=
  s.setTabs { s.tabs with ents := s.tabs.ents.set (fun _ => NEnt.fill) n e }

/-- The shadow copy of entry `n` in the staging partition. -/
def State.shadow (s : State) (n : Nat) : MWord := s.tabs.shadow.get (fun _ => fillWord) n

/-- What the table update port copies of a word: its value, and its mark, but never errors of its bits (R385, R393). -/
def MWord.copy (w : MWord) : MWord := if w.out.2 then MWord.marked w.out.1 else MWord.clean w.out.1

def State.setShadow (s : State) (n : Nat) (w : MWord) : State :=
  s.setTabs { s.tabs with shadow := s.tabs.shadow.set (fun _ => fillWord) n w }

/-- Entry `n` has been written by some writer: a marked one may be queued again (R168). -/
def State.unact (s : State) (n : Nat) : State := s.setTabs { s.tabs with acted := s.tabs.acted.filter (fun m => m != n) }

/-- The job seed (R61). -/
def State.seed (s : State) : Word := s.reg KLN_SEED

/-- The output column of entry word `v` on a head with cross-web offset `x`: 18 bits, two's complement (R123). -/
def outCol (v : BitVec 64) (x : Int) : Int := wrapS 18 ((eCol v : Int) + x)

/-- The word that change `c` gives for line `l`, which is at or after its E (R138). -/
def Chg.at_ (c : Chg) (seed : Word) (l : Nat) (x : Int) : MWord :=
  if c.b = 0 ∨ c.e + c.b ≤ l then c.new
  else if dither seed (outCol c.new.out.1 x) l < (l - c.e + 1) * 65536 / c.b then c.new else c.old

/-- The word that applies to an entry on line `l`: by the pending change of highest E at or below it (R138, R139). Before the last change's
E it is O, as the blend shadow holds it: an O that is marked there is taken as marked (R142, R386). -/
def NEnt.at_ (e : NEnt) (seed : Word) (l : Nat) (x : Int) : MWord :=
  let w := match (e.chg.filter (fun c => decide (c.e ≤ l))).getLast? with
    | some c => c.at_ seed l x
    | none => e.base
  match e.chg.getLast? with
  | some c => if l < c.e ∧ c.old.poison then c.old else w
  | none => w

/-- The word that applied before line `l`. -/
def NEnt.before (e : NEnt) (seed : Word) (l : Nat) (x : Int) : MWord :=
  if l = 0 then e.base else e.at_ seed (l - 1) x

/-- The word of an entry as the column map takes it: the change whose line E the port has screened, without the
dither of a fade (R156). -/
def NEnt.mapped (e : NEnt) (screen : Nat) : BitVec 64 :=
  match (e.chg.filter (fun c => decide (c.e < screen))).getLast? with
  | some c => c.new.out.1
  | none => e.base.out.1

/-- The port that owns entry `n`. -/
def entPort (n : Nat) : Nat := n / 2048

/-- The next line that Kiln screens for the port of entry `n`. -/
def State.entScreen (s : State) (n : Nat) : Nat := (s.head (entPort n)).screen

/-! ### Blend groups (R140) -/

/-- The pairs (E, B) of all pending and fading changes. -/
def State.blendPairs (s : State) : List (Nat × Nat) :=
  ((s.tabs.ents.map (fun kv => kv.2.chg.map (fun c => (c.e, c.b)))).flatten).eraseDups

/-- Bring KLN_BLENDST.GROUPS and KLN_BLENDENT up to date. -/
def State.putBlend (s : State) : State :=
  (s.setFld KLN_BLENDST_GROUPS s.blendPairs.length).setFld KLN_BLENDENT_ENTRIES
    ((s.tabs.ents.filter (fun kv => !kv.2.chg.isEmpty)).length)

/-- A change is over once its port has screened line E + B - 1, or E when B is 0. -/
def Chg.past (c : Chg) (screen : Nat) : Bool := decide (c.e + max c.b 1 ≤ screen)

/-- The changes of an entry that are over leave, and with them every earlier one; the last of them is in effect. -/
def NEnt.settle (e : NEnt) (screen : Nat) : NEnt :=
  match (e.chg.filter (fun c => c.past screen)).getLast? with
  | some c => { e with base := c.new, chg := e.chg.filter (fun d => decide (c.e < d.e)) }
  | none => e

/-! ### Writing entries -/

/-- An entry takes word `w` at once, with nothing pending (R163, R440). -/
def State.entNow (s : State) (n : Nat) (w : MWord) (autoWr : Bool) : State :=
  let old := s.ent n
  ((s.setEnt n ⟨w, w, [], if autoWr then old.trim else bitsOf w.data.toNat 23 9⟩).setShadow n w.copy).unact n

/-- A metadata write (R154): the word is stored at once, for bits 36 to 0 are those written last. A marked entry may be queued again
after it (R168). -/
def State.entMeta (s : State) (n : Nat) (w : MWord) (autoWr : Bool) : State :=
  let old := s.ent n
  let chg := match old.chg.reverse with
    | [] => []
    | c :: l => ({ c with new := w } :: l).reverse
  ((s.setEnt n { old with last := w, chg := chg, base := if chg.isEmpty then w else old.base
                          trim := if autoWr then old.trim else bitsOf w.data.toNat 23 9 }).setShadow n w.copy).unact n

/-- A change of entry `n` at line `e` with fade length `b` (R138, R139): O is what applied on line E - 1, and earlier
changes are discarded from E on. O goes whole into the blend shadow. -/
def State.entChange (s : State) (n e b : Nat) (w : MWord) (autoWr : Bool) : State :=
  let old := s.ent n
  let x := (s.effAt (entPort n) (e - 1)).x
  let c := Chg.mk e b (old.before s.seed e x) w
  let s1 := s.setEnt n { old with last := w, chg := old.chg.filter (fun d => decide (d.e < e)) ++ [c]
                                  trim := if autoWr then old.trim else bitsOf w.data.toNat 23 9 }
  ((s1.setShadow n w.copy).unact n).setCode (2 ^ 17 + n) zeroWord

/-- A write of `v` to entry `n` at line `e` is a change (R154): it differs in bits 36 to 0 from the word most recently
written, or it is a device reload. -/
def State.isChange (s : State) (n : Nat) (v : BitVec 64) (reload : Bool) : Bool :=
  reload || eLow v != eLow (s.ent n).last.data

/-- Write entry `n` with an accepted request's word. -/
def State.entWrite (s : State) (n e : Nat) (w : MWord) (reload autoWr : Bool) : State :=
  if !s.armed || !s.isLive (entPort n) then s.entNow n w autoWr
  else if s.isChange n w.data reload then s.entChange n e (if reload then 0 else fadeLen (eBlend w.data)) w autoWr
  else s.entMeta n w autoWr

/-! ### The column map (R136, R156) -/

/-- The word of entry `n` that the column map follows. -/
def State.mapWord (s : State) (n : Nat) : BitVec 64 := (s.ent n).mapped (s.entScreen n)

/-- The entries that are not masked and print column `k`, lowest first; an entry that was never written is masked. -/
def State.colEnts (s : State) (k : Nat) : List Nat :=
  (s.tabs.ents.map (·.1)).filter (fun n => eState (s.mapWord n) != 3 && eCol (s.mapWord n) == k)

/-- What the map gives for column `k`: at most two entries; a column being rebuilt has no second one (R386). -/
def State.mapOf (s : State) (k : Nat) : List Nat :=
  (s.colEnts k).take (if s.tabs.mapOut.contains k then 1 else 2)

/-- The ports that share a column with a port, itself included (R236). -/
def State.sharers (s : State) (p : Nat) : List Nat :=
  (p :: ((((s.tabs.ents.map (·.1)).filter (fun n => entPort n == p && eState (s.mapWord n) != 3)).map (fun n =>
    let m := s.mapOf (eCol (s.mapWord n))
    if m.contains n then m.map entPort else [])).flatten)).eraseDups

/-! ### Curves (R158 to R160) -/

def Curve.fill : Curve := ⟨0, 0, none⟩
def State.curve (s : State) (q : Nat) : Curve := s.tabs.cstate.get (fun _ => Curve.fill) q
def State.setCurve (s : State) (q : Nat) (c : Curve) : State :=
  s.setTabs { s.tabs with cstate := s.tabs.cstate.set (fun _ => Curve.fill) q c }

/-- The key of word `w` of bank `b` of curve `q`. -/
def curveKey (q b w : Nat) : Nat := (2 * q + b) * 64 + w

def State.curveWord (s : State) (k : Nat) : MWord := s.tabs.curves.get (fun _ => zeroWord) k
def State.setCurveWord (s : State) (k : Nat) (w : MWord) : State :=
  s.setTabs { s.tabs with curves := s.tabs.curves.set (fun _ => zeroWord) k w }

/-- The bank of curve `q` that port `p` uses on line `l` (R160). -/
def State.curveBank (s : State) (q p l : Nat) : Nat :=
  let c := s.curve q
  match c.pend with
  | some (e, _) => if s.isLive p && decide (e ≤ l) then 1 - c.bank else c.bank
  | none => c.bank

/-- Entry `j` of curve `q` in bank `b`, and whether its word is marked. -/
def State.curveAt (s : State) (q b j : Nat) : Nat × Bool :=
  let o := (s.curveWord (curveKey q b (j / 4))).out
  (bitsOf o.1.toNat (16 * (j % 4)) 12, o.2)

/-- A switch that every live port has made is over: the new bank is the one in effect. -/
def State.curveSettle (s : State) (q : Nat) : State :=
  let c := s.curve q
  match c.pend with
  | some (_, []) => s.setCurve q { c with bank := 1 - c.bank, pend := none }
  | _ => s

/-- The four 16-bit values of one word. -/
def curvePack (vs : List Nat) : BitVec 64 :=
  BitVec.ofNat 64 ((vs.zipIdx.map (fun vi => (vi.1 % 65536) * 2 ^ (16 * vi.2))).foldl (· + ·) 0)

/-- The shadow copies of curve `q`'s word `w` and of matrix word `k` in the staging partition (R105). -/
def State.setCurveShadow (s : State) (q w : Nat) (v : MWord) : State :=
  s.setTabs { s.tabs with cshadow := s.tabs.cshadow.set (fun _ => zeroWord) (64 * q + w) v }
def State.setMtxShadow (s : State) (k : Nat) (v : MWord) : State :=
  s.setTabs { s.tabs with mshadow := s.tabs.mshadow.set (fun _ => onesWord) k v }

/-- Write the 256 values of bank `b` of curve `q`, and their shadow copy. -/
def State.curveLoad (s : State) (q b : Nat) (vs : List Nat) : State :=
  (List.range 64).foldl (fun s w =>
    let v := MWord.clean (curvePack ((vs.drop (4 * w)).take 4))
    (s.setCurveWord (curveKey q b w) v).setCurveShadow q w v) s

/-! ### Matrices (R130, R158, R161) -/

/-- Side of matrix `m`. -/
def State.mtxDim (s : State) (m : Nat) : Nat := 16 * 2 ^ min 4 (bitsOf (s.reg KLN_MTXCFG).toNat (4 * (m % 4)) 3)

def State.mtxWord (s : State) (k : Nat) : MWord := s.tabs.mtx.get (fun _ => onesWord) k
def State.setMtxWord (s : State) (k : Nat) (w : MWord) : State :=
  s.setTabs { s.tabs with mtx := s.tabs.mtx.set (fun _ => onesWord) k w }

/-- Byte `o` of the matrix windows, and whether its word is marked. -/
def State.mtxByte (s : State) (o : Nat) : Nat × Bool :=
  let w := (s.mtxWord (o / 8)).out
  (bitsOf w.1.toNat (8 * (o % 8)) 8, w.2)

/-- Byte offset of cell (r, c) of matrix `m`. -/
def cellOff (m r c : Nat) : Nat := 0x30000 * m + 0x300 * r + 3 * c

/-- Write bytes from byte offset `o` of the matrix windows, whole words of 8, and their shadow copies (R105, R389). -/
def State.mtxWrite (s : State) (o : Nat) (bs : List Byte) : State :=
  (countUp (o / 8) (bs.length / 8)).foldl (fun s k =>
    let w := MWord.clean (BitVec.ofNat 64 (leNat ((bs.drop (8 * k - o)).take 8)))
    (s.setMtxWord k w).setMtxShadow k w) s

/-- The matrix that port `p` uses on line `l`: the waiting selection of highest E at or below it, else KLN_MTXSEL. -/
def State.mtxSel (s : State) (p : Nat) : Nat := bitsOf (s.reg (KLN_MTXSEL (p / 16))).toNat (2 * (p % 16)) 2
def State.putMtxSel (s : State) (p m : Nat) : State :=
  s.setReg (KLN_MTXSEL (p / 16)) (putBits (s.reg (KLN_MTXSEL (p / 16))) (2 * (p % 16)) 2 m)
def State.mtxFor (s : State) (p l : Nat) : Nat :=
  match ((s.head p).sels.filter (fun x => decide (x.1 ≤ l))).getLast? with
  | some x => x.2
  | none => s.mtxSel p

/-- A matrix is selected, in effect or pending, by a port whose head unit is live (R161). -/
def State.mtxInUse (s : State) (m : Nat) : Bool :=
  s.liveHeads.any (fun p => s.mtxSel p == m || (s.head p).sels.any (fun x => x.2 == m))

/-! ### Golden signatures (R146) -/

/-- The golden words that running firmware has to recompute by itself, class 1 of its work: those whose bit is clear, oldest first (R399). -/
def State.goldTasks (s : State) : State :=
  if s.fld SVC_BOOTST_STATE ≠ 3 then s
  else
    let clear := fun (v : Nat) => !bitAt (s.fld KLN_EMBCTL_GOLDVAL) v
    let old := s.svc.tasks.filter (fun k => k.1 != 1 || clear k.2)
    let new := (List.range 16).filter (fun v => clear v && !old.contains (1, v))
    { s with svc := { s.svc with tasks := old ++ new.map (fun v => (1, v)) } }

/-- A change of any curve clears every golden bit; a change of matrix `m` clears those of its vectors. -/
def State.goldCurve (s : State) : State := (s.setFld KLN_EMBCTL_GOLDVAL 0).goldTasks
def State.goldMatrix (s : State) (m : Nat) : State :=
  ((List.range 16).foldl (fun s v => if v % 4 = m then s.setReg KLN_EMBCTL (putBits (s.reg KLN_EMBCTL) (16 + v) 1 0) else s) s).goldTasks

/-! ### A port passes a line -/

/-- What the screening of line `l` of port `p` settles, before Kiln reads the tables (R140, R156, R160, R161):
matrix selections and curve banks switch at their line E. -/
def State.switchAt (s : State) (p l : Nat) : State :=
  let s1 := match ((s.head p).sels.filter (fun x => decide (x.1 ≤ l))).getLast? with
    | some x => (s.putMtxSel p x.2).modHead p (fun h => { h with sels := h.sels.filter (fun y => decide (l < y.1)) })
    | none => s
  (s1.tabs.cstate.map (·.1)).foldl (fun s q =>
    let c := s.curve q
    match c.pend with
    | some (e, ps) =>
      if e ≤ l then (s.setCurve q { c with pend := some (e, ps.filter (fun r => r != p)) }).curveSettle q else s
    | none => s) s1

/-- Fades of port `p` that are over leave, and their groups are freed (R140). -/
def State.fadeEnd (s : State) (p : Nat) : State :=
  let scr := (s.head p).screen
  let ns := (s.tabs.ents.filter (fun kv => entPort kv.1 == p && kv.2.chg.any (fun c => c.past scr))).map (·.1)
  (ns.foldl (fun s n => s.setEnt n ((s.ent n).settle scr)) s).putBlend

/-- Line `l` of port `p` counts as screened (R440). -/
def State.passed (s : State) (p l : Nat) : State :=
  ((s.switchAt p l).modHead p (fun h => { h with screen := max h.screen (l + 1) })).fadeEnd p

/-- ARM leaves nothing pending at the tables (R163). -/
def State.tablesQuiet (s : State) : State :=
  let ns := (s.tabs.ents.filter (fun kv => !kv.2.chg.isEmpty)).map (·.1)
  let s1 := ns.foldl (fun s n => let e := s.ent n; s.setEnt n { e with base := e.last, chg := [] }) s
  let s2 := (s1.tabs.cstate.map (·.1)).foldl (fun s q =>
    match (s.curve q).pend with
    | some _ => s.setCurve q { s.curve q with bank := 1 - (s.curve q).bank, pend := none }
    | none => s) s1
  let s3 := (List.range 64).foldl (fun s p =>
    match (s.head p).sels.getLast? with
    | some x => (s.putMtxSel p x.2).modHead p (fun h => { h with sels := [] })
    | none => s) s2
  s3.putBlend

/-- Marked entry `n` is queued for host software (R168), or lost to OVF. It is not queued again until a writer has written it (DEDUCED, log
entry 44): the spec does not say whether a mark that later lines meet again does. -/
def State.queueMarked (s : State) (n : Nat) : State :=
  if s.tabs.acted.contains n then s
  else if s.tabs.reload.length < 64 then
    (s.setTabs { s.tabs with reload := s.tabs.reload ++ [n], acted := n :: s.tabs.acted }).setFld NZT_RELCNT_COUNT (s.tabs.reload.length + 1)
  else (s.setTabs { s.tabs with acted := n :: s.tabs.acted }).setOn NZT_RELOAD_OVF

end Sys2Proof.Machine
end

