-- ==== Sys2Proof/Machine/Streams.lean ====
section
/-! DEFINITION. Stream contexts: completions in ring order (R65 to R68), halts (R71 to R73), and the coverage of
web lines (R86 to R88). -/

namespace Sys2Proof.Machine

/-- Stream context `st`. -/
def State.strm (s : State) (st : Nat) : Stream := s.streams.get (fun _ => Stream.reset) st

/-- Replace stream context `st`. -/
def State.setStrm (s : State) (st : Nat) (x : Stream) : State :=
  { s with streams := s.streams.set (fun _ => Stream.reset) st x }

/-- Change stream context `st`. -/
def State.modStrm (s : State) (st : Nat) (f : Stream → Stream) : State := s.setStrm st (f (s.strm st))

/-- Stream states of R57. -/
def stOFF : Nat := 0
def stRUN : Nat := 1
def stHALTED : Nat := 2
def stHELD : Nat := 3

/-- The state of stream `st`. -/
def State.strState (s : State) (st : Nat) : Nat := s.fld (STR_STATE_STATE st)

/-- Entries of a ring with size code `k` (R51). -/
def ringSize (k : Nat) : Nat := 2 ^ (k + 4)

/-- The slot of entry number `c` in the ring of stream `st`. -/
def State.slotOf (s : State) (st c : Nat) : Nat := c % ringSize (s.fld (STR_CTL_SIZE st))

/-! ### Completion queues (R65 to R67) -/

/-- Entries of queue `q`. -/
def State.cqN (s : State) (q : Nat) : Nat := ringSize (s.fld (HIF_CQCTL_SIZE q))

/-- Entries written and not consumed (R66): a count of more than N behind, or ahead, is taken as N. -/
def State.cqUsed (s : State) (q : Nat) : Nat :=
  min ((s.reg (HIF_CQPROD q)) - s.hostIf.cqCons.get (fun _ => 0#32) q).toNat (s.cqN q)

/-- Queue `q` is enabled and full. -/
def State.cqFull (s : State) (q : Nat) : Bool := s.on (HIF_CQCTL_EN q) && s.cqUsed q == s.cqN q

/-- Can an entry be written to queue `q` now (R49, R66, R67)? -/
def State.cqRoom (s : State) (q : Nat) : Bool :=
  s.canMaster && s.on (HIF_CQCTL_EN q) && decide (s.cqUsed q < s.cqN q)

/-- A completion entry without its phase bit (R65). -/
def cqEntry (slot stream status : Nat) (blank : Bool) (ts : Word) (first tag : Nat) : List Byte :=
  leBytes 2 slot ++ leBytes 1 (stream % 128) ++ leBytes 1 (status % 128 + 128 * b2n blank) ++
  leBytes 4 ts.toNat ++ leBytes 4 first ++ leBytes 4 tag

/-- Set bit 7 of byte 2 to the phase (R66). -/
def withPhase (ph : Bool) : List Byte → List Byte
  | a :: b :: c :: l => a :: b :: (c ||| BitVec.ofNat 8 (128 * b2n ph)) :: l
  | l => l

/-- Write one entry into queue `q` (R66). -/
def State.cqWrite (s : State) (q : Nat) (e : List Byte) : State :=
  let c := (s.reg (HIF_CQPROD q)).toNat
  let n := s.cqN q
  let base := s.reg64 (HIF_CQLO q) (HIF_CQHI q)
  let s1 := s.emit (base + 16 * (c % n)) (withPhase (decide (c / n % 2 = 0)) e) false
  let s2 := s1.setReg (HIF_CQPROD q) (s.reg (HIF_CQPROD q) + 1#32)
  if s2.cqFull q then s2.alarm alCQFULL else s2

/-! ### Completing descriptors -/

/-- Change the uncompleted descriptor with entry number `c` of stream `st`. -/
def State.modDesc (s : State) (st c : Nat) (f : Desc → Desc) : State :=
  s.modStrm st (fun x => { x with descs := replaceFirst (fun d => d.count == c && d.phase != .done) f x.descs })

/-- The uncompleted descriptor with entry number `c` of stream `st`. -/
def State.desc? (s : State) (st c : Nat) : Option Desc := (s.strm st).descs.find? (fun d => d.count == c && d.phase != .done)

/-- Every read of a stream's band data that has still to be answered, oldest first. -/
def Stream.strayAll (x : Stream) : List Nat := x.stray ++ x.descs.flatMap (fun d => d.reads)

/-- The band data that descriptor `c` has asked for is no longer taken: its reads keep their tags until they are answered (R58). -/
def State.dropReads (s : State) (st c : Nat) : State :=
  match s.desc? st c with
  | some d => (s.modStrm st (fun x => { x with stray := x.stray ++ d.reads })).modDesc st c (fun d => { d with reads := [] })
  | none => s

/-- A descriptor's completing event comes now (R68). -/
def State.complete (s : State) (st c status first : Nat) : State :=
  s.modDesc st c (fun d => { d with phase := .done, status := status, first := first, ts := s.tb0 })

/-- A fence at the front of its stream is met: all earlier descriptors have completed, and with XSTR the other
stream's done count has been reached (R92). -/
def State.fenceMet (s : State) (d : Desc) : Bool :=
  !dXstr d.raw ||
  decide (0 ≤ (s.reg (STR_DONE (dUnit d.raw)) - BitVec.ofNat 32 (dLen d.raw)).toInt)

/-- A QUIET band with status OK or SLACK writes no completion (R81). -/
def Desc.silent (d : Desc) : Bool := dOp d.raw == 1 && dQuiet d.raw && decide (d.status ≤ 1) && !d.blank

/-- The oldest descriptor leaves with its completion. Once it is one that fetching may still come back to, no halt can lead fetching
back to slots at or before its own: such slots need not be passed over any more (R63). -/
def State.popDesc (s : State) (st : Nat) : State :=
  let later := fun (x : Stream) => match x.descs with
    | d :: _ => if x.pass.contains d.count then x.pass
      else x.pass.filter (fun k => decide (0 < (BitVec.ofNat 32 k - BitVec.ofNat 32 d.count).toInt))
    | [] => x.pass
  (s.modStrm st (fun x => { x with descs := x.descs.tail, pass := later x })).setReg (STR_DONE st) (s.reg (STR_DONE st) + 1#32)

/-- Write the completions of stream `st` that are due, in ring order, as far as its queue takes them (R66, R68). -/
def State.flushGo : Nat → State → Nat → State
  | 0, s, _ => s
  | n + 1, s, st =>
    match (s.strm st).descs with
    | [] => s
    | d :: _ =>
      if d.phase = .done then
        if d.silent then State.flushGo n (s.popDesc st) st
        else
          let q := s.fld (STR_CTL_CQ st)
          if s.cqRoom q then
            State.flushGo n ((s.cqWrite q (cqEntry (s.slotOf st d.count) st d.status d.blank d.ts d.first (dTag d.raw))).popDesc st) st
          else s
      else if d.phase = .fence && s.fenceMet d then State.flushGo n (s.complete st d.count 0 0) st
      else s

/-- A completion of stream `st` is due and cannot be written (R57: HELD). -/
def State.owes (s : State) (st : Nat) : Bool :=
  match (s.strm st).descs with
  | d :: _ => d.phase = .done
  | [] => false

/-- RUN or HELD by what the stream owes and by Bus Master Enable (R57); OFF and HALTED stay. -/
def State.holdState (s : State) (st : Nat) : State :=
  if s.strState st = stRUN ∨ s.strState st = stHELD then
    s.setFld (STR_STATE_STATE st) (if s.owes st || !s.on HIF_CTL_BME then stHELD else stRUN)
  else s

/-- Write what stream `st` can write, and show whether it is HELD. -/
def State.flush (s : State) (st : Nat) : State :=
  (State.flushGo (2 * (s.strm st).descs.length) s st).holdState st

/-- Every stream with a context, once. -/
def State.flushOnce (s : State) : State := (s.streams.map (·.1)).foldl (fun s st => s.flush st) s

/-- Write every completion that is due, for as many rounds as there are streams, so that fences on other streams'
done counts follow (R92). -/
def State.flushAll (s : State) : State :=
  (List.range (s.streams.length + 1)).foldl (fun s _ => s.flushOnce) s

/-! ### Halts (R71 to R73) -/

/-- Stream `st` halts at entry number `c` with code `code`. -/
def State.haltAt (s : State) (st c code : Nat) (raw : Option (BitVec 256)) : State :=
  let s1 := (s.setFld (STR_STATE_STATE st) stHALTED).setFld (STR_STATE_HCODE st) code
  let s2 := (s1.setFld (STR_STATE_HIDX st) (s.slotOf st c)).modStrm st (fun x => { x with halt := raw })
  s2.alarm alHALT

/-- Descriptors fetched after entry `c` are discarded; a TABLE that has passed a record runs to its end and its
slot is passed over later (R63, R71). Their bands leave the directory. Where a slot was fetched twice (RESTART), the later one counts. -/
def State.discardAfter (s : State) (st c : Nat) : State :=
  let x := s.strm st
  let i := ((List.range x.descs.length).filter (fun i => (x.descs.map (fun d => d.count)).getD i c == c)).getLast?.getD x.descs.length
  let later := x.descs.drop (i + 1)
  let keep := later.filter (fun d => d.passed)
  let gone := later.filter (fun d => !d.passed)
  let s1 := s.setStrm st { x with
    descs := x.descs.take (i + 1) ++ keep, pass := x.pass ++ keep.map (fun d => d.count), stray := x.stray ++ gone.flatMap (fun d => d.reads) }
  { s1 with bands := s1.bands.drop (fun k => gone.any (fun d => dOp d.raw == 1 && d.seq == k && d.phase != .done)) }

/-! ### Coverage (R86 to R88) -/

/-- What prints on a web line of a stream's bound unit (R87). -/
inductive LineKind where
  | band (seq : Nat)
  | strip (due : Bool) (cycle : Nat) (start : Nat)
  | blank
  | uncovered        -- at or after C with END clear
  deriving DecidableEq, Repr

/-- The kind of web line `l`. -/
def Stream.kindAt (x : Stream) (l : Nat) : LineKind :=
  match x.cover.find? (fun c => decide (c.lo ≤ l) && decide (l < c.hi)) with
  | some ⟨_, _, .band q⟩ => .band q
  | some ⟨_, _, .blank⟩ => .blank
  | some ⟨_, _, .strip d c b⟩ => .strip d c b
  | none => if l < x.covEnd ∨ x.covOff then .blank else .uncovered

/-- The stretches of `xs` without the lines `r.1` to `r.2 - 1`. -/
def cutOut (xs : List (Nat × Nat)) (r : Nat × Nat) : List (Nat × Nat) :=
  (xs.flatMap (fun x => [(x.1, min x.2 r.1), (max x.1 r.2, x.2)])).filter (fun x => decide (x.1 < x.2))

/-- The lines that head `h` has screened in this job: from its first line on (R229), without those passed over unscreened. -/
def State.screenedOf (s : State) (h : Nat) : List (Nat × Nat) :=
  let x := s.head h
  x.unscr.foldl cutOut (if x.first < x.screen then [(x.first, x.screen)] else [])

/-- The lines of `start` to `start + n - 1` that a new band of stream `st` does not drop (R88): at or after C, and screened by no
live member. -/
def State.keptLines (s : State) (st start n : Nat) : List (Nat × Nat) :=
  let b := max start (s.strm st).covEnd
  ((s.fedBy st).flatMap (fun h => s.screenedOf h)).foldl cutOut (if b < start + n then [(b, start + n)] else [])

/-- The first line that a new band from `start`, `n` lines long, does not drop (R88). -/
def State.firstKept (s : State) (st start n : Nat) : Nat :=
  ((s.keptLines st start n).map (·.1)).foldl min (start + n)

/-- Place lines `start` to `start + n - 1` in coverage (R86, R88): dropped lines at or after C print blank. -/
def State.place (s : State) (st start n : Nat) (endFlag : Bool) (src : CoverSrc) : State :=
  let kept := s.keptLines st start n
  (s.tileBack (s.fedBy st) (s.firstKept st start n)).modStrm st (fun x =>
    let b := max start x.covEnd
    let blanks := (kept.foldl cutOut (if b < start + n then [(b, start + n)] else [])).map (fun k => Cover.mk k.1 k.2 .blank)
    { x with cover := x.cover ++ kept.map (fun k => Cover.mk k.1 k.2 src) ++ blanks, covEnd := max x.covEnd (start + n), covOff := endFlag })

end Sys2Proof.Machine
end

