-- ==== Sys2Proof/Machine/Store.lean ====
section
/-! DEFINITION. The swath store: partitions (R105), ring quantities, admission and eviction (R108 to R112), the fill and history depths
(R115, R116), its words as BAR2 and errors reach them (R121, R383, R384), its merge buffer (R389), and its clients (R120). -/

namespace Sys2Proof.Machine

/-- Band `q` of the directory. -/
def State.band (s : State) (q : Nat) : Band := s.bands.get (fun _ => Band.none) q

/-- Replace band `q`. -/
def State.setBand (s : State) (q : Nat) (b : Band) : State :=
  { s with bands := s.bands.set (fun _ => Band.none) q b }

def mib : Nat := 2 ^ 20
def blk64 : Nat := 2 ^ 16

/-- Partition kinds (R105). -/
def pkELASTIC : Nat := 1
def pkHISTORY : Nat := 2
def pkREFERENCE : Nat := 3
def pkSTAGING : Nat := 4
def pkSPILL : Nat := 5

/-- Is entry `i` claimed for kind `k`? -/
def State.claimed (s : State) (i k : Nat) : Bool := s.on (SWS_PCTL_CLAIMED i) && s.fld (SWS_PCTL_KIND i) == k

/-- The claimed entry of kind `k` with owner `o`. -/
def State.partOf (s : State) (k o : Nat) : Option Nat :=
  (List.range 32).find? (fun i => s.claimed i k && s.fld (SWS_PCTL_OWNER i) == o)

/-- The claimed entry of a kind that exists once. -/
def State.partKind (s : State) (k : Nat) : Option Nat := (List.range 32).find? (fun i => s.claimed i k)

/-- Size of entry `i` in bytes. -/
def State.partBytes (s : State) (i : Nat) : Nat := s.fld (SWS_PSIZE_SIZE i) * mib

/-- Entry `i` is claimed, and word `k` of the store lies in its partition. -/
def State.inPart (s : State) (i k : Nat) : Bool :=
  s.on (SWS_PCTL_CLAIMED i) && decide (s.fld (SWS_PBASE_BASE i) * mib ≤ 8 * k) &&
    decide (8 * k < (s.fld (SWS_PBASE_BASE i) + s.fld (SWS_PSIZE_SIZE i)) * mib)

/-- E: the elastic size of stream `st` in bytes, 0 without a partition. -/
def State.ringE (s : State) (st : Nat) : Nat :=
  match s.partOf pkELASTIC st with
  | some i => s.partBytes i
  | none => 0

/-- H: the size of the history partition paired with it, or 0 (R108). -/
def State.ringH (s : State) (st : Nat) : Nat :=
  match s.partOf pkELASTIC st with
  | some i => (match s.partOf pkHISTORY i with | some j => s.partBytes j | none => 0)
  | none => 0

/-- Bytes that one stored row takes (R85): a raw row is rounded up to 64 bytes. -/
def rowBytes (fmt : Nat) (row : List (BitVec 9)) : Nat :=
  if fmtTurf fmt then row.length else 64 * ceilDiv row.length 64

/-- Bytes of a band's stored rows. -/
def Band.bytes (b : Band) : Nat := (b.rows.map (rowBytes b.fmt)).foldl (· + ·) 0

/-- Bytes of a band's rows before row `y`. -/
def Band.before (b : Band) (y : Nat) : Nat := ((b.rows.take y).map (rowBytes b.fmt)).foldl (· + ·) 0

/-- What a band takes of its ring: its reservation until it is ready, then its rows, less what was evicted. -/
def Band.takes (b : Band) : Nat := if b.ready then b.bytes - b.evict else b.resv

/-- The bands of stream `st`, oldest first. -/
def State.bandsOf (s : State) (st : Nat) : List (Nat × Band) :=
  s.bands.filter (fun kb => kb.2.stream == st && decide (0 < kb.2.lines))

/-- U, F (R108). -/
def State.ringU (s : State) (st : Nat) : Nat :=
  ((s.bandsOf st).filter (fun kb => !kb.2.done)).foldl (fun n kb => n + kb.2.takes) 0
def State.ringF (s : State) (st : Nat) : Nat :=
  ((s.bandsOf st).filter (fun kb => kb.2.done)).foldl (fun n kb => n + kb.2.takes) 0

/-- The lowest read pointer of the heads fed by `st` (R113): the line each prints next. -/
def State.lowPointer (s : State) (st : Nat) : Option Nat :=
  match (s.fedBy st).map (fun h => (s.head h).prints) with
  | [] => none
  | l :: ls => some (ls.foldl min l)

/-- The row of a band that supplies web line `l`. -/
def Band.rowOf (b : Band) (l : Nat) : Nat := (l - b.start) / resFy b.res

/-- Rows of the band that web line `l` needs (R125): one, or two on an odd line of a row pair. -/
def State.rowsFor (s : State) (b : Band) (l : Nat) : List Nat :=
  let y := b.rowOf l
  if resFy b.res = 2 && s.on KLN_CTL_UPS && (l - b.start) % 2 == 1 then [y, min (y + 1) (bandRows b.lines b.res - 1)] else [y]

/-- Bytes of a completed band at or after pointer `p`. -/
def Band.pinned (b : Band) (p : Nat) : Nat :=
  if b.start + b.lines ≤ p then 0
  else b.bytes - max b.evict (if p ≤ b.start then 0 else b.before (b.rowOf p))

/-- P (R108). -/
def State.ringP (s : State) (st : Nat) : Nat :=
  match s.lowPointer st with
  | none => 0
  | some p => ((s.bandsOf st).filter (fun kb => kb.2.done)).foldl (fun n kb => n + kb.2.pinned p) 0

/-- Round up to 64 KiB. -/
def up64 (n : Nat) : Nat := blk64 * ceilDiv n blk64

/-- G (R108). -/
def State.ringG (s : State) (st : Nat) : Nat :=
  up64 (max (min (s.ringF st) (s.ringH st)) (s.ringP st))

/-- Take `n` bytes of history from the oldest completed bands of a stream (R110). -/
def evictFrom (st : Nat) : Nat → SMap Band → SMap Band
  | _, [] => []
  | n, (k, b) :: m =>
    if b.stream = st ∧ b.done ∧ 0 < n then
      if b.takes ≤ n then evictFrom st (n - b.takes) m
      else (k, { b with evict := b.evict + n }) :: m
    else (k, b) :: evictFrom st n m

/-- Is there room in the directory (R112)? -/
def State.dirRoom (s : State) : Bool := decide ((s.bands.filter (fun kb => decide (0 < kb.2.lines))).length < 4096)

/-- The oldest band in history, where R110 allows its whole eviction (R112): a stream keeps G bytes of history. -/
def State.oldestFree (s : State) : Option Nat :=
  match s.bands.find? (fun kb => kb.2.done) with
  | some kb => if s.ringG kb.2.stream + kb.2.takes ≤ s.ringF kb.2.stream then some kb.1 else none
  | none => none

/-- Evict the oldest history band whole when the directory is full (R112). -/
def State.dirFree (s : State) : State :=
  if s.dirRoom then s
  else match s.oldestFree with
    | some k => { s with bands := s.bands.drop (fun j => j == k) }
    | none => s

/-- May a reservation of `n` bytes on stream `st` be admitted (R108, R112)? -/
def State.admits (s : State) (st n : Nat) : Bool :=
  decide (s.ringU st + n ≤ s.ringE st + s.ringH st - s.ringG st) && s.dirFree.dirRoom

/-- Evict what the reservation of `n` bytes needs, in blocks of 64 KiB, and never below G bytes of history (R110). Where the
last block would go below G, only its part above G leaves (DESIGN CHOICE, log entry 14). -/
def State.makeRoom (s : State) (st n : Nat) : State :=
  let s1 := s.dirFree
  let excess := s1.ringU st + s1.ringF st + n - (s1.ringE st + s1.ringH st)
  { s1 with bands := evictFrom st (min (up64 excess) (s1.ringF st - s1.ringG st)) s1.bands }

/-- MiB in use of partition entry `i`, rounded up: U of an elastic, F of a history (R122). Of the other kinds the spec gives no figure:
they read 0 (DESIGN CHOICE, log entry 37). -/
def State.partUsed (s : State) (i : Nat) : Nat :=
  if s.claimed i pkELASTIC then ceilDiv (s.ringU (s.fld (SWS_PCTL_OWNER i))) mib
  else if s.claimed i pkHISTORY then
    ceilDiv (s.ringF (s.fld (SWS_PCTL_OWNER (s.fld (SWS_PCTL_OWNER i))))) mib
  else 0

/-! ### Fill and history depth (R115, R116) -/

/-- How far lines from `l` on are available, within `fuel` stretches of coverage. -/
def State.availTo (s : State) (x : Stream) : Nat → Nat → Nat
  | 0, l => l
  | n + 1, l =>
    if x.covEnd ≤ l then l
    else
      match x.cover.find? (fun c => decide (c.lo ≤ l) && decide (l < c.hi)) with
      | some c =>
        (match c.src with
         | .band q => if (s.band q).ready then s.availTo x n c.hi else l
         | _ => s.availTo x n c.hi)
      | none =>
        s.availTo x n (((x.cover.filter (fun c => decide (l < c.lo))).map (fun c => c.lo)).foldl min x.covEnd)

/-- STR_FILL of stream `st` (R115). Before a live member has fired a line it counts from the highest line that a member prints next (DEDUCED, log entry 37). -/
def State.strFill (s : State) (st : Nat) : Nat :=
  let x := s.strm st
  let l0 := ((s.fedBy st).map (fun h => (s.head h).prints)).foldl max 0
  let l1 := s.availTo x (2 * x.cover.length + 2) l0
  if x.covOff && decide (x.covEnd ≤ l1) then 0xFFFFFFFF else min (l1 - l0) 0xFFFFFFFF

/-- The first line at or after which every covered line below `l` is resident, within `fuel` stretches. -/
def State.residentFrom (s : State) (x : Stream) : Nat → Nat → Nat
  | 0, l => l
  | n + 1, l =>
    if l = 0 then 0
    else
      match x.cover.find? (fun c => decide (c.lo < l) && decide (l ≤ c.hi)) with
      | some c =>
        (match c.src with
         | .band q =>
           let b := s.band q
           let y := ((List.range b.rows.length).find? (fun y => decide (b.evict ≤ b.before y))).getD b.rows.length
           let lo := b.start + y * resFy b.res
           if b.lines = 0 ∨ b.start + b.rows.length * resFy b.res < min l c.hi then l
           else if lo ≤ c.lo then s.residentFrom x n c.lo else min l (max lo c.lo)
         | _ => s.residentFrom x n c.lo)
      | none =>
        s.residentFrom x n (((x.cover.filter (fun c => decide (c.hi < l))).map (fun c => c.hi)).foldl max 0)

/-- SWS_HIST of stream `st` (R116). While some live members have fired and others have not, it ends below the lowest line that a member prints
next, the first lines of those that have not among them (DEDUCED, log entry 37). -/
def State.swsHist (s : State) (st : Nat) : Nat :=
  let hs := s.fedBy st
  let x := s.strm st
  if hs.isEmpty || !hs.any (fun h => (s.head h).any) then 0
  else
    let low := (s.lowPointer st).getD 0
    let job := match hs.map (fun h => (s.head h).first) with | [] => 0 | l :: ls => ls.foldl min l
    min (low - max job (s.residentFrom x (2 * x.cover.length + 2) low)) 0xFFFFFFFF

/-- A live member of the unit that stream `st` feeds is data late (R118). -/
def State.streamLate (s : State) (st : Nat) : Bool := (s.fedBy st).any (fun h => (s.head h).late.isSome)

/-- Fill levels of a data stream (R117): 0 NORMAL, 1 LOW, 2 CRITICAL, 3 LATE. -/
def State.fillLevel (s : State) (st : Nat) : Nat :=
  let f := s.strFill st
  if s.streamLate st then 3
  else if s.fld SWS_MARKS_LOW * 16 ≤ f then 0 else if s.fld SWS_MARKS_CRIT * 16 ≤ f then 1 else 2

/-! ### Words of the store (R121, R383, R384) -/

/-- What BAR2 has written at word `k`; a word of the filled store that nothing has written is 0 (R388). -/
def State.storeWord (s : State) (k : Nat) : MWord := (s.tabs.store.get (fun _ => none) k).getD zeroWord

/-- Word `k` lies in a partition, claimed or released since the fill: the device may keep, or have kept, data of its own there. -/
def State.inParts (s : State) (k : Nat) : Bool :=
  (List.range 32).any (fun i => s.inPart i k) ||
  s.tabs.stale.any (fun p => decide (p.1 * mib ≤ 8 * k) && decide (8 * k < (p.1 + p.2) * mib))

def State.setStore (s : State) (k : Nat) (w : MWord) : State :=
  s.setTabs { s.tabs with store := s.tabs.store.set (fun _ => none) k (if w = zeroWord ∧ !s.inParts k then none else some w) }

/-- Word `k` may hold band rows, shadow copies, reference rows or spilled lines, or what is left of them after a release (R106: the data is
lost): BAR2 has not written it since. Where in a partition the device puts each of them, the spec does not say (log entry 37). -/
def State.unplaced (s : State) (k : Nat) : Bool := (s.tabs.store.get (fun _ => none) k).isNone && s.inParts k

/-- A read of word `k` that BAR2 has written (R384). -/
def State.storeTouch (s : State) (k : Nat) : State :=
  let w := s.storeWord k
  if w.unc || w.cor then (s.eccNote memSTORE 0 (8 * k) w).setStore k (w.healed s.corrWb) else s

/-- Usable bytes of the store. -/
def State.storeSize (s : State) : Nat := s.fld SWS_CAP_USABLE * mib

/-- The store answers (R27, R121). -/
def State.storeReady (s : State) : Bool := s.on SYS_CAPS_DRAMOK && s.fld SYS_CAPS_STORE != 0 && s.awake && s.on RST_STAT_DONE

/-- Word `k` as it reads: what the device itself has put there, or left there, is a free value. -/
def State.storeRead (s : State) (k : Nat) : BitVec 64 := if s.unplaced k then Config.freeStore s.freeCtr k else (s.storeWord k).out.1

/-- `n` bytes of the store from byte address `a`, as they are stored; 0 where no store is. -/
def State.storeBytes (s : State) (a n : Nat) : List Byte :=
  (countUp a n).map (fun i =>
    if s.storeReady && decide (i < s.storeSize) then BitVec.ofNat 8 (bitsOf (s.storeRead (i / 8)).toNat (8 * (i % 8)) 8) else 0#8)

/-! ### What the device keeps in a partition (log entry 37) -/

/-- Eight bytes that the device keeps in the store: none that are in use, the shadow copy of an entry, of a curve word or of a matrix word,
eight bytes of a stored row, of a reference row, or of a spilled line. -/
inductive Placed where
  | idle
  | entry (n : Nat)
  | curve (j : Nat)
  | matrix (j : Nat)
  | row (q y w : Nat)
  | ref (i w : Nat)
  | spill (i w : Nat)
  deriving DecidableEq, Repr

/-- The stored rows that partition entry `i` may hold: their bands and numbers. -/
def State.partRows (s : State) (i : Nat) : List (Nat × Nat) :=
  let rows := fun (st : Nat) => (s.bandsOf st).flatMap (fun kb => (List.range kb.2.rows.length).map (fun y => (kb.1, y)))
  if s.claimed i pkELASTIC then rows (s.fld (SWS_PCTL_OWNER i))
  else if s.claimed i pkHISTORY then rows (s.fld (SWS_PCTL_OWNER (s.fld (SWS_PCTL_OWNER i))))
  else []

/-- Which of them lies at word `k` of the store: free values `d` and `e` choose among those that its partition may hold. -/
def State.placedAt (s : State) (k d e : Nat) : Placed :=
  match (List.range 32).find? (fun i => s.inPart i k) with
  | none => .idle
  | some i =>
    if s.claimed i pkSTAGING then
      (if d % 4 = 0 then .idle else if d % 4 = 1 then .entry (e % 131072) else if d % 4 = 2 then .curve (e % 4096) else .matrix (e % 0x18000))
    else if s.claimed i pkREFERENCE then
      match s.refs[d % (s.refs.length + 1)]? with
      | none => .idle
      | some r => .ref (d % (s.refs.length + 1)) (e % max 1 (ceilDiv r.bytes.length 8))
    else if s.claimed i pkSPILL then
      match s.insp.spill[d % (s.insp.spill.length + 1)]? with
      | none => .idle
      | some p => .spill (d % (s.insp.spill.length + 1)) (e % max 1 (ceilDiv p.bytes 8))
    else
      let rows := s.partRows i
      match rows[d % (rows.length + 1)]? with
      | none => .idle
      | some (q, y) => .row q y (e % max 1 (ceilDiv ((s.band q).rows[y]?.getD []).length 8))

/-- The same, with the free values drawn. -/
def State.placeOf (s : State) (k : Nat) : Placed × State :=
  let d := s.draw
  let e := d.2.draw
  (s.placedAt k d.1.toNat e.1.toNat, e.2)

/-- The bytes of a word, bit 8 of each its mark, and the word that such bytes make. -/
def wordBytes (w : MWord) : List (BitVec 9) := (List.range 8).map (fun j => BitVec.ofNat 9 (bitsOf w.out.1.toNat (8 * j) 8 + 256 * b2n w.out.2))
def bytesWord (bs : List (BitVec 9)) : MWord :=
  let v := BitVec.ofNat 64 (leNat (bs.map (fun b => b.truncate 8)))
  if bs.any (fun b => b.getLsbD 8) then MWord.marked v else MWord.clean v

/-- The shadow copies of curve word `j` and of matrix word `j`. -/
def State.curveShadow (s : State) (j : Nat) : MWord := s.tabs.cshadow.get (fun _ => zeroWord) j
def State.mtxShadow (s : State) (j : Nat) : MWord := s.tabs.mshadow.get (fun _ => onesWord) j

/-- The word at place `p`; of what is in no use, and of a spilled line, a free value. -/
def State.placedWord (s : State) (p : Placed) : MWord × State :=
  let free : MWord × State :=
    let d := s.draw
    let e := d.2.draw
    (if e.1.getLsbD 0 then MWord.marked d.1 else MWord.clean d.1, e.2)
  match p with
  | .entry n => (s.shadow n, s)
  | .curve j => (s.curveShadow j, s)
  | .matrix j => (s.mtxShadow j, s)
  | .row q y w => (bytesWord ((((s.band q).rows[y]?.getD []).drop (8 * w)).take 8), s)
  | .ref i w =>
    (match s.refs[i]? with
     | some r => (bytesWord (((r.bytes.drop (8 * w)).take 8).map (fun b => BitVec.ofNat 9 (b + 256 * b2n r.ash))), s)
     | none => free)
  | _ => free

/-- Every pixel of a raw camera line that lies in its word `w` of 8 bytes becomes a free value. -/
def State.freePix (s : State) (bytes w : Nat) (raw : List (Option Nat)) : List (Option Nat) :=
  raw.zipIdx.map (fun px =>
    if decide (8 * w * raw.length < (px.2 + 1) * bytes) && decide (px.2 * bytes < (8 * w + 8) * raw.length)
    then some ((Config.freeStore s.freeCtr px.2).toNat % 4096) else px.1)

/-- Word `w` takes the place of what the device keeps at `p`. -/
def State.placedPut (s : State) (p : Placed) (w : MWord) : State :=
  let bs := wordBytes w
  match p with
  | .idle => s
  | .entry n => s.setShadow n (bytesWord bs)
  | .curve j => s.setCurveShadow (j / 64) (j % 64) (bytesWord bs)
  | .matrix j => s.setMtxShadow j (bytesWord bs)
  | .row q y k =>
    let b := s.band q
    let row := b.rows[y]?.getD []
    s.setBand q { b with rows := b.rows.set y ((row.take (8 * k) ++ bs ++ row.drop (8 * k + 8)).take row.length) }
  | .ref i k =>
    { s with refs := s.refs.modify i (fun r => { r with
        bytes := (r.bytes.take (8 * k) ++ bs.map (fun b => (b.truncate 8 : BitVec 8).toNat) ++ r.bytes.drop (8 * k + 8)).take r.bytes.length
        ash := r.ash || w.out.2 }) }
  | .spill i k =>
    match s.insp.spill[i]? with
    | none => s
    | some x =>
      let s1 := s.setInsp { s.insp with
        spill := s.insp.spill.modify i (fun x => { x with ash := x.ash || w.out.2 })
        cams := s.insp.cams.map (fun c => if c.1 = x.cam then (c.1, { c.2 with frames := c.2.frames.map (fun f =>
          if f.num = x.frame then { f with rows := f.rows.modify x.row (fun r => { r with raw := r.raw.map (fun l => s.freePix x.bytes k l) }) } else f) })
          else c) }
      s1.draw.2

/-- What the device keeps at `p` takes the bits `x` of an error that no check tells, and its mark. -/
def State.placedFlip (s : State) (p : Placed) (x : BitVec 64) (mark : Bool) : State :=
  match p with
  | .spill i _ =>
    let s1 := s.setInsp { s.insp with spill := s.insp.spill.modify i (fun y => { y with ash := y.ash || mark }) }
    if x = 0#64 || mark then s1 else s1.placedPut p (MWord.clean x)
  | .idle => s
  | _ =>
    let w := s.placedWord p
    w.2.placedPut p ⟨w.1.out.1 ^^^ x, 0#72, w.1.out.2 || mark⟩

/-- Errors of word `k` of the store that no read has met, where the device keeps data of its own; its data are the bits that then differ. -/
def State.latWord (s : State) (k : Nat) : MWord := s.tabs.lat.get (fun _ => zeroWord) k
def State.setLat (s : State) (k : Nat) (w : MWord) : State :=
  s.setTabs { s.tabs with lat := s.tabs.lat.set (fun _ => zeroWord) k w }

/-- A read of word `k`, where the device keeps `p` (R384): an error that it meets is noted and corrected, or marks the data. A word marked
already still reads as marked (R383). -/
def State.placedTouch (s : State) (k : Nat) (p : Placed) : State :=
  let w := s.latWord k
  if w = zeroWord then s
  else if (s.placedWord p).1.out.2 then (s.placedWord p).2.setLat k zeroWord
  else
    let s1 := (s.eccNote memSTORE 0 (8 * k) w).setLat k (if w.cor && !s.corrWb then { w with data := 0#64 } else zeroWord)
    s1.placedFlip p w.out.1 w.out.2

/-- The device reads some of what it keeps in the partitions of entries `i`: of the errors there, a free value says which the read meets,
and `p` says of another where in what was read. -/
def State.deviceReads (s : State) (i : Nat → Bool) (p : Nat → Placed) : State :=
  ((s.tabs.lat.map (·.1)).filter (fun k => (List.range 32).any (fun j => i j && s.inPart j k))).foldl (fun s k =>
    let d := s.draw
    let e := d.2.draw
    if d.1.getLsbD 0 then e.2.placedTouch k (p e.1.toNat) else e.2) s

/-- A read of word `k` through the store's address: BAR2 or the scrubber. -/
def State.wordTouch (s : State) (k : Nat) : State :=
  if s.unplaced k then (if s.latWord k = zeroWord then s else (s.placeOf k).2.placedTouch k (s.placeOf k).1) else s.storeTouch k

/-- The words of `n` bytes from address `a` are read. -/
def State.storeTouchAll (s : State) (a n : Nat) : State :=
  ((s.tabs.store.map (·.1) ++ s.tabs.lat.map (·.1)).filter (fun k => decide (a / 8 ≤ k) && decide (8 * k < a + n))).eraseDups.foldl
    (fun s k => s.wordTouch k) s

/-- Bits `flips` of word `k` of the store change (R383). -/
def State.storeUpset (s : State) (k : Nat) (flips : BitVec 72) : State :=
  if s.storeSize ≤ 8 * k then s
  else if s.unplaced k then
    let f := s.flipWord (s.latWord k) flips
    f.2.setLat k f.1
  else
    let f := s.flipWord (s.storeWord k) flips
    f.2.setStore k f.1

/-! ### The merge buffer of the store (R389) -/

/-- The host's word `w` takes its place at `k`; data that the device keeps there, at place `p`, are overwritten with it. -/
def State.hostWord (s : State) (k : Nat) (p : Placed) (w : MWord) : State := ((s.placedPut p w).setStore k w).setLat k zeroWord

/-- The merge buffer of the store commits (R389). -/
def State.storeMerge (s : State) : State :=
  match s.mergeBuf memSTORE with
  | none => s
  | some b =>
    let s1 := s.setMerge memSTORE none
    let at_ : Placed × State := if s1.unplaced b.key then s1.placeOf b.key else (.idle, s1)
    if b.mask = 255 then
      let c := at_.2.commitWord 1 64 (BitVec.ofNat 64 b.val)
      c.2.hostWord b.key at_.1 c.1
    else
      let s2 := if s1.unplaced b.key then at_.2.placedTouch b.key at_.1 else s1.storeTouch b.key
      let w : MWord × State := if s1.unplaced b.key then s2.placedWord at_.1 else (s2.storeWord b.key, s2)
      let o := w.1.out
      let v := BitVec.ofNat 64 (mergeBytes o.1.toNat b.val b.mask)
      let c := w.2.commitWord 1 64 v
      if o.2 then (c.2.countReg ECC_MERGEASH 1).hostWord b.key at_.1 (MWord.marked c.1.raw) else c.2.hostWord b.key at_.1 c.1

/-- A read or a write reaches word `k` of the store. -/
def State.storeAway (s : State) (k : Nat) : State :=
  match s.mergeBuf memSTORE with
  | some b => if b.key = k then s else s.storeMerge
  | none => s

/-! ### The store's clients (R120) -/

/-- `n` bursts of client `c` of the controller: they reach other words than the merge buffer's, which commits first (R389). -/
def State.storeUse (s : State) (c n : Nat) : State := if n = 0 then s else s.storeMerge.countReg (SWS_BW c) n

/-- The device itself stores data in the partitions of entries `p`: what BAR2 has written there can be told no more, for where in a
partition the data lie, the spec does not say (log entry 37). -/
def State.partTaken (s : State) (p : Nat → Bool) : State :=
  { s with tabs := { s.tabs with store := s.tabs.store.drop (fun k => (List.range 32).any (fun i => p i && s.inPart i k)) } }

/-- `n` bursts go into the partition of kind `k`, for client `c` of the controller. -/
def State.stores (s : State) (k c n : Nat) : State := (s.storeUse c n).partTaken (fun i => s.claimed i k)

/-- Entry `i` is the ring of stream `st`: its elastic partition, or the history paired with it. -/
def State.ringPart (s : State) (st i : Nat) : Bool :=
  (s.claimed i pkELASTIC && s.fld (SWS_PCTL_OWNER i) == st) ||
  (s.claimed i pkHISTORY && s.fld (SWS_PCTL_OWNER (s.fld (SWS_PCTL_OWNER i))) == st)

/-- `n` bursts of band data of stream `st` go into its ring. -/
def State.storesBand (s : State) (st n : Nat) : State := (s.storeUse 1 n).partTaken (fun i => s.ringPart st i)

/-- The shadow copy of entry `n` is read, one burst of the staging partition (R105, R168). -/
def State.stagingRead (s : State) (n : Nat) : State := (s.storeUse 4 1).deviceReads (fun i => s.claimed i pkSTAGING) (fun _ => .entry n)

/-- The range of entry `i` has held data of the device, which a release has left behind (R106). -/
def State.leaveRange (s : State) (i : Nat) : State :=
  s.setTabs { s.tabs with stale := ((s.fld (SWS_PBASE_BASE i), s.fld (SWS_PSIZE_SIZE i)) :: s.tabs.stale).eraseDups }

/-- Every claimed entry is released by a reset. -/
def State.leaveAll (s : State) : State :=
  ((List.range 32).filter (fun i => s.on (SWS_PCTL_CLAIMED i))).foldl (fun s i => s.leaveRange i) s

/-- The store's fill (R388): every word 0, with nothing wrong. -/
def State.storeFill (s : State) : State := s.setTabs { s.tabs with store := [], lat := [], stale := [] }

end Sys2Proof.Machine
end

