-- ==== Sys2Proof/Machine/TwinEnt.lean ====
section
/-! DEFINITION. What the two chips of a pair tell each other of every port-line: the twin policy, the role, line
entries (R319), the lines held for comparison and the count of good lines (R331), and readiness (R334). -/

namespace Sys2Proof.Machine

open Sys2Proof

def State.setTwin (s : State) (t : Twin) : State := { s with twin := t }

/-! ### Role and policy -/

/-- TWN_STATE.ROLE (R317). -/
def roSOLO : Nat := 0
def roINIT : Nat := 1
def roPRIME : Nat := 2
def roSTANDBY : Nat := 3
def roACTIVE : Nat := 4
def roOUT : Nat := 5

def State.role (s : State) : Nat := s.fld TWN_STATE_ROLE

/-- Strapped for a twin pair (R316). -/
def State.twinStrap (s : State) : Bool := s.fld SYS_CAPS_TWIN == 1 || s.fld SYS_CAPS_TWIN == 2

/-- The twin logic and its link work: strapped and enabled (R341), out of reset (R378), and with their clock (R24, R368). -/
def State.twinOn (s : State) : Bool := s.twinStrap && s.on TWN_CTL_EN && s.on RST_STAT_DONE && s.awake

/-- The strap makes this chip the preferred one (R316). -/
def State.preferred (s : State) : Bool := s.fld SYS_CAPS_TWIN == 1

/-- Fields of the voted twin policy (R341). -/
def State.polAUTORET (s : State) : Bool := s.twinPolicy.getLsbD 0
def State.polSBLATE (s : State) : Bool := s.twinPolicy.getLsbD 1
def State.polDIVSTOP (s : State) : Bool := s.twinPolicy.getLsbD 2
def State.polBOTHSTOP (s : State) : Bool := s.twinPolicy.getLsbD 3
def State.polRSTPART (s : State) : Bool := s.twinPolicy.getLsbD 4
def State.polCONFIRM (s : State) : Nat := bitsOf s.twinPolicy.toNat 8 8
def State.polAGLEAD (s : State) : Nat := bitsOf s.twinPolicy.toNat 16 8
def State.polRETLOG (s : State) : Nat := bitsOf s.twinPolicy.toNat 24 5

/-- TWN_STATE.PALIVE reads DRIVING (R320). -/
def State.partnerDrives (s : State) : Bool := s.fld TWN_STATE_PALIVE == 2

/-- The twin link as a link number of the frames sent. -/
def lkTWIN : Nat := 4

/-! ### Frames sent (R319) -/

/-- Fields of given widths in bytes, one after the other. -/
def packFields : List Nat → List Nat → List Byte
  | w :: ws, v :: vs => leBytes w v ++ packFields ws vs
  | _, _ => []

/-- Widths of the `n` payload fields of a frame. R319 gives the bytes of HELLO and of line entries, here with the fields of one byte put
together; those of the other types are the model's (DESIGN CHOICE, log entry 81). -/
def twinWidths (kind n : Nat) : List Nat :=
  if kind = 0x01 then [1, 1, 2, 4, 4, 8]
  else if kind = 0x02 then (List.replicate (n / 6) [1, 1, 4, 4, 1, 1]).flatten
  else if kind = 0x10 then [1, 8, 5, 4]
  else if kind = 0x11 then [1, 5]
  else if kind = 0x12 then [5, 2, 2]
  else if kind = 0x14 then 5 :: (List.replicate (n / 3) [4, 8, 5]).flatten
  else if kind = 0x16 then 1 :: 2 :: List.replicate n 1
  else if kind = 0x17 then [4, 4, 4] ++ (List.replicate (n / 4) [1, 4, 5, 1]).flatten
  else if kind = 0x18 then [8]
  else List.replicate n 1

/-- The payload of a frame, in units of 4 bytes. -/
def twinPayload (kind : Nat) (body : List Nat) : List Byte :=
  let p := packFields (twinWidths kind body.length) body
  p ++ List.replicate ((4 - p.length % 4) % 4) 0#8

/-- A frame as it goes out (R318): sequence number, the last one received, the payload's length in units of 4 bytes, its fields, and the
CRC-32 over header and payload. -/
def State.twinFrame (s : State) (q kind : Nat) (body : List Nat) : List Nat :=
  let p := twinPayload kind body
  let hd := [kind, p.length / 4, q, s.twin.seqIn]
  [q, s.twin.seqIn, p.length / 4] ++ body ++ [(crc32 (hd.map (BitVec.ofNat 8) ++ p)).toNat]

/-- Send a frame with sequence number `q`. One that is not acknowledged carries that of the latest one that is (DESIGN CHOICE, log entry 81). -/
def State.twinPut (s : State) (q kind : Nat) (body : List Nat) : State := s.sendFrame lkTWIN kind (s.twinFrame q kind body)

/-- Send a frame that is acknowledged: it gets the next sequence number, and stands until its acknowledgement comes. -/
def State.twinSend (s : State) (kind : Nat) (body : List Nat) : State :=
  if !s.twinOn || !s.on TWN_LINKST_UP then s
  else
    let q := (s.twin.seqOut + 1) % 256
    let s1 := s.twinPut q kind body
    s1.setTwin { s1.twin with seqOut := q, unacked := s1.twin.unacked ++ [⟨q, ⟨lkTWIN, kind, body⟩, s1.clk, 0⟩] }

/-! ### Line entries -/

/-- Queue a line entry (R319); ACTIVE and STANDBY exchange them. -/
def State.pushEntry (s : State) (e : TEntry) : State :=
  if s.twinOn && (s.role == roSTANDBY || s.role == roACTIVE) then
    s.setTwin { s.twin with out := s.twin.out ++ [{ e with at_ := s.clk }] }
  else s

/-- What is held of line `l` of port `p`. -/
def State.tline (s : State) (p l : Nat) : TLine :=
  (s.twin.lines.find? (fun x => x.port == p && x.line == l)).getD ⟨p, l, none, none, none, none, false, false, false, false, none, false⟩

/-- Replace what is held of a port-line. -/
def State.setTline (s : State) (x : TLine) : State :=
  s.setTwin { s.twin with lines := s.twin.lines.filter (fun y => !(y.port == x.port && y.line == x.line)) ++ [x] }

/-- Change what is held of line `l` of port `p`. -/
def State.modTline (s : State) (p l : Nat) (f : TLine → TLine) : State := s.setTline (f (s.tline p l))

/-- Each chip holds the entries of the latest 64 lines of a port: those of lines more than 64 behind line `l`, which it counts next, leave.
One whose signatures were not compared, or of which only one chip's return class came, is counted (R319, R331). -/
def State.dropLines (s : State) (p l : Nat) : State :=
  let gone := s.twin.lines.filter (fun x => x.port == p && decide (x.line + 64 < l))
  let s1 := s.countReg TWN_UNCOMP (gone.filter (fun x => !x.sigs || x.cls.isSome != x.pcls.isSome)).length
  s1.setTwin { s1.twin with lines := s1.twin.lines.filter (fun x => !(x.port == p && decide (x.line + 64 < l))) }

/-- Port-lines that agree add to TWN_GOODRUN once the lead head has counted their line (R331). -/
def State.countGood (s : State) (l : Nat) : State :=
  let n := (s.twin.lines.filter (fun x => x.good && decide (x.line ≤ l))).length
  let s1 := s.countReg TWN_GOODRUN n
  s1.setTwin { s1.twin with lines := s1.twin.lines.map (fun x => if decide (x.line ≤ l) then { x with good := false } else x) }

/-! ### Readiness (R334) -/

/-- NRREASON codes (R341). -/
def nrLINK : Nat := 1
def nrCFG : Nat := 2
def nrALIGN : Nat := 3
def nrSKIP : Nat := 4
def nrDIV : Nat := 5
def nrNOTRAIN : Nat := 6
def nrNOJOB : Nat := 7
def nrROLE : Nat := 8
def nrSTRAP : Nat := 9

end Sys2Proof.Machine
end

