-- ==== Sys2Proof/Machine/FireOps.lean ====
section
/-! DEFINITION. Shared operations of line firing: the targets of lines (R227, R240), data late (R118), splice causes (R251),
the governor and the speed demand (R246 to R249), and what waits for lines (R15, R91, R95). -/

namespace Sys2Proof.Machine

def State.setFir (s : State) (f : Fir) : State := { s with fir := f }
def State.setSplice (s : State) (x : Splice) : State := { s with splice := x }

/-- Scan mode (R237). -/
def State.scan (s : State) : Bool := s.on FIR_CTL_MODE

/-! ### Targets -/

/-- The number of the pass that line `l` belongs to, and its index in the pass (R239). -/
def State.passOf (s : State) (l : Nat) : Nat := (l - s.fir.lorg) / max 1 (s.fld FIR_PASSLEN_LINES)
def State.passIdx (s : State) (l : Nat) : Nat := (l - s.fir.lorg) % max 1 (s.fld FIR_PASSLEN_LINES)

/-- The delay of head `h` for line `l` in the pass in progress (R240), in lines * 256. -/
def State.scanDelay (s : State) (h l : Nat) : Int :=
  let e := s.effAt h l
  if s.on FIR_STATE_PDIR then max 0 ((s.fld FIR_MIRROR_DELAY : Int) - e.dw + e.rev) else max 0 (e.dw + e.fwd)

/-- The target Q of line `l` of head `h` in units of 2^-24 count (R227, R240). In scan mode it is a pass position. -/
def State.target (s : State) (h l : Nat) : Int :=
  let cpl := ((s.reg FIR_CPL).toNat : Int)
  if s.scan then (signed 32 (s.reg FIR_SOSOFS).toNat) * 2 ^ 24 + (256 * (s.passIdx l : Int) + s.scanDelay h l) * cpl
  else s.fir.torg + (256 * ((l : Int) - s.fir.lorg) + (s.effAt h l).dw) * cpl

/-- A travel count as a position of the kind that targets are given in: itself, or the pass position (R238). -/
def State.firePos (s : State) (t : Int) : Int :=
  if s.scan then s.pos.sgn * diff48 t s.fir.passT else t

/-- How far the target of line `l` lies above travel count `t`, in units of 2^-24 count (R211). -/
def State.toGo (s : State) (h l : Nat) (t : Int) : Int := wrapS 72 (s.target h l - s.firePos t * 2 ^ 24)

/-- May line `l` be fired at all now: in scan mode only inside its own pass (R241). -/
def State.inPass (s : State) (l : Nat) : Bool :=
  !s.scan || (s.on FIR_STATE_INPASS && decide (s.fir.lorg ≤ l) && s.passOf l + 1 == (s.reg FIR_PASS).toNat)

/-- The pass mask holds head `h` for line `l` (R242). -/
def State.masked (s : State) (h l : Nat) : Bool :=
  s.scan &&
  (let m := s.passOf l % (s.fld FIR_PMCFG_LEN + 1)
   if h < 32 then !(s.reg (FIR_PMASKLO m)).getLsbD h else !(s.reg (FIR_PMASKHI m)).getLsbD (h - 32))

/-- Head `h` is held for line `l`: effectively, or by the pass mask (R36, R242). -/
def State.heldAt (s : State) (h l : Nat) : Bool := (s.effAt h l).hold || s.masked h l

/-- Line `l` of a head lies before its end line (R62). -/
def Head.before (x : Head) (l : Nat) : Bool :=
  match x.fin with
  | some e => decide (l < e)
  | none => true

/-! ### Data late (R118, R119) -/

/-- Why the contone of line `l` is missing for head `h`, or none: 0 NOTREADY, 1 NOBAND, 2 ASH (a row that it needs is being read
again, R387), 3 STALL. A line whose contone has reached the tile cache, a blank line and a strip line are never late, nor is a
disabled head. -/
def State.lateCause (s : State) (h l : Nat) : Option Nat :=
  let x := s.head h
  if !x.live || !s.enAt h l || !x.before l then none
  else if x.stag.any (fun g => g.line == l) then none
  else match s.streamOf h with
    | none => none
    | some st =>
      (match (s.strm st).kindAt l with
       | .uncovered => some 1
       | .band q =>
         let b := s.band q
         if !b.ready then some 0
         else if l < x.tileTo then none
         else if (s.rowsFor b l).any (fun y => b.refet.contains y) then some 2
         else some 3
       | _ => none)

/-- STR_FILL of stream `st` (R115, R439): live while a job is armed, else as the last job left it. A stream bound to no
unit has no lines to count. -/
def State.fillNow (s : State) (st : Nat) : Nat :=
  if !s.armed then (s.reg (STR_FILL st)).toNat
  else if (s.boundUnit st).isNone || s.on (STR_CTL_KIND st) then 0 else s.strFill st

/-! ### Splice causes (R251) and the speed demand (R246 to R249) -/

/-- This chip acts as transport master (R247): of a pair, the chip that has the mastership (R325, R340). -/
def State.actMaster (s : State) : Bool := s.on TRN_CTL_MASTER && (!s.twinStrap || s.twin.mast)

/-- A STANDBY raises only DRIVE and TWIN, and DATA where its policy is SPLICE (R325, R330). -/
def State.mayRaise (s : State) (k : Nat) : Bool :=
  s.role != roSTANDBY || k == 4 || k == 5 || (k == 0 && s.twinPolicy.getLsbD 1)

/-- Set cause bits of TRN_CAUSE: active, and seen (R251). -/
def State.raiseCause (s : State) (k : Nat) : State :=
  if s.mayRaise k then
    (s.setFld TRN_CAUSE_ACT (s.fld TRN_CAUSE_ACT ||| 2 ^ k)).setFld TRN_CAUSE_SEEN (s.fld TRN_CAUSE_SEEN ||| 2 ^ k)
  else s

/-- A cause no longer persists. -/
def State.dropCause (s : State) (k : Nat) : State :=
  (s.setReg TRN_CAUSE (putBits (s.reg TRN_CAUSE) k 1 0)).setSplice
    { s.splice with taken := s.splice.taken &&& (127 - 2 ^ k), hot := if k = 1 then [] else s.splice.hot }

/-- Every enabled data stream is full enough to resume (R251). -/
def State.dataCauseOver (s : State) : Bool :=
  (List.range 128).all (fun st => !s.on (STR_CTL_EN st) || s.on (STR_CTL_KIND st) ||
    decide (s.fld TRN_RESFILL_FILL * 16 ≤ s.fillNow st))

/-- A live head above its limit whose effective policy is `pol` (R236). -/
def State.hotWith (s : State) (pol : Nat) : Bool :=
  s.liveHeads.any (fun h => (s.head h).hot && (s.effAt h (s.head h).prints).pol == pol)

/-- Does the condition that clears cause `k` hold (R251)? TWIN and REMOTE are cleared where their chapters say. -/
def State.causeOver (s : State) (k : Nat) : Bool :=
  if k = 0 then s.dataCauseOver
  else if k = 1 then !s.hotWith 3
  else if k = 2 then !(List.range 64).any (fun h => s.on (HPT_RETST_FAULT h) && s.fld (HPT_RETCFG_ACTION h) == 2)
  else if k = 3 then s.on POS_STATE_TRUST
  else if k = 4 then s.on TRN_STATE_DRVRDY
  else false

/-- Causes that no longer persist are dropped. -/
def State.causeCheck (s : State) : State :=
  (List.range 5).foldl (fun s k => if bitAt (s.fld TRN_CAUSE_ACT) k && s.causeOver k then s.dropCause k else s) s

/-- The lowest STR_FILL over the enabled data streams, if there is one. -/
def State.lowFill (s : State) : Option Nat :=
  match ((List.range 128).filter (fun st => s.on (STR_CTL_EN st) && !s.on (STR_CTL_KIND st))).map (fun st => s.fillNow st) with
  | [] => none
  | f :: fs => some (fs.foldl min f)

/-- The fill term of the governor (R249). -/
def State.fillTerm (s : State) : Nat :=
  match s.lowFill with
  | none => 256
  | some f =>
    let lo := s.fld SWS_MARKS_LOW * 16
    let cr := s.fld SWS_MARKS_CRIT * 16
    let g := s.fld TRN_GOV_GMIN
    if lo ≤ f then 256 else if cr ≤ f then g + (256 - g) * (f - cr) / (lo - cr) else g

/-- This chip's governor factor (R249). -/
def State.ownFactor (s : State) : Nat :=
  if !s.armed then 256
  else min (if s.on TRN_POLICY_DATA then 256 else s.fillTerm) (if s.hotWith 2 then s.fld TRN_GOV_TGOV else 256)

/-- The factor in use: the master takes the lowest that any chip reports. -/
def State.factor (s : State) : Nat :=
  if s.actMaster then (s.splice.reps.map (fun r => r.2.g)).foldl min s.ownFactor else s.ownFactor

/-- The demand target (R246, R248, R253). A chip of a pair that does not act as master computes it as the one that does (R353). -/
def State.demand (s : State) (g : Nat) : Nat :=
  if !s.on TRN_CTL_MASTER then 0
  else if !s.armed then min (s.fld TRN_MAN_DEMAND) s.speedMax
  else
    let q := s.fld TRN_STATE_SEQ
    let x := if s.on TRN_CTL_DMODE then 16383 else s.fld TRN_VSET_CODE
    if q = 0 ∨ q = 5 then min s.speedMax ((x * g + 128) / 256)
    else if q = 3 then s.fld TRN_REVSPD_CODE else 0

/-- In scan mode the master holds the web before each pass, in IDLE and in APPROACH, until every line of the pass is available (R259). -/
def State.passWait (s : State) : Bool :=
  s.scan && s.actMaster && (s.fld TRN_STATE_SEQ == 0 || s.fld TRN_STATE_SEQ == 5) && !s.on FIR_STATE_INPASS &&
  s.liveHeads.any (fun h =>
    match s.streamOf h with
    | some st => decide (s.fillNow st < s.fld FIR_PASSLEN_LINES)
    | none => false)

/-- HOLD_N is driven low (R246, R253, R307, R360, R378). -/
def State.holdLow (s : State) : Bool :=
  if !s.on RST_STAT_DONE || s.on PWR_STAT_SAG then true
  else if !s.armed then s.on TRN_MAN_HOLD
  else
    let q := s.fld TRN_STATE_SEQ
    q == 1 || q == 2 || q == 4 || q == 6 || s.passWait || (!s.actMaster && s.cord.silent)

/-- REV_N is driven low (R246, R253). -/
def State.revLow (s : State) : Bool :=
  s.actMaster && (if s.armed then s.fld TRN_STATE_SEQ == 3 else s.on TRN_MAN_REV)

/-- Bring the governor, the demand and the transport outputs up to date. HOLDIN holds whether this chip itself drives HOLD_N low;
where it does not, another device may, and a read of HOLDIN returns a free value (R261, log entry 5). -/
def State.trnShow (s : State) : State :=
  let g := s.factor
  let d := s.demand g
  let s1 := ((s.setFld TRN_STATE_G g).setBit TRN_STATE_HOLDIN s.holdLow).setWant 64 d
  let s2 := (s1.setFld TRN_DEMAND_TARGET d).setFld TRN_DEMAND_OUT (s1.fld (TRM_OUT_OUT 64))
  if s.armed && decide (g < 256) then s2.alarm alGOVERN else s2

/-- The DATA cause and the governor follow a change of fill (R249, R251). -/
def State.fillChanged (s : State) : State := s.causeCheck.trnShow

/-- Head `h` becomes data late at line `l` where its contone is missing (R118): recorded, and the splice cause DATA
arises (R250). -/
def State.dataLate (s : State) (h l : Nat) : State :=
  match s.lateCause h l with
  | none => s
  | some c =>
    if (s.head h).late.isSome then s
    else
      let s1 := s.modHead h (fun x => { x with late := some l })
      let s2 := s1.setReg SWS_LATEINFO (BitVec.ofNat 32 (h + 256 * c + 2 ^ 31))
      ((s2.setReg SWS_LATELINE (BitVec.ofNat 32 l)).alarm alDATALATE).raiseCause 0

/-! ### Descriptors that wait for lines -/

/-- The head at whose FIRE a SCHEDULE-EVENT pulses: the live member of smallest delay, lowest number (R95). -/
def State.eventHead (s : State) (d : Desc) : Option Nat :=
  (s.members (dUnit d.raw)).foldl (fun best h =>
    match best with
    | none => some h
    | some b => if (s.effAt h (dLine d.raw)).dw < (s.effAt b (dLine d.raw)).dw then some h else some b) none

/-- Have the lines that descriptor `d` of stream `st` waits for counted as fired (R15, R91)? Lines below the members' first lines (R229) count as
passed from the start; a band or a STRIP of nothing but such lines completes when it is next looked at, as it is accepted or becomes ready,
and under CORD at the next line that counts after ORIGIN (DESIGN CHOICE, log entry 60: the spec names no event for it). -/
def State.linesDone (s : State) (st : Nat) (d : Desc) : Bool :=
  match d.phase with
  | .printing => (s.fedBy st).all (fun h => decide (dLine d.raw + dCount d.raw ≤ (s.head h).prints))
  | .waitLine => dOp d.raw == 2 && s.armed && !(s.members (dUnit d.raw)).isEmpty &&
      (s.members (dUnit d.raw)).all (fun h => decide (dLine d.raw < (s.head h).prints))
  | _ => false

/-- A band completes: its bytes pass from U to F (R109). -/
def State.bandDone (s : State) (d : Desc) : State :=
  if dOp d.raw = 1 ∧ !d.blank ∧ 0 < (s.band d.seq).lines then
    s.setBand d.seq { s.band d.seq with done := true } else s

/-- Complete every descriptor of stream `st` whose lines have counted. -/
def State.settleStream (s : State) (st : Nat) : State :=
  ((s.strm st).descs.filter (fun d => s.linesDone st d)).foldl
    (fun s d => (s.complete st d.count d.status d.first).bandDone d) s

/-- Complete every descriptor whose lines have counted, and write the completions that are due (R66, R91). -/
def State.settleLines (s : State) : State :=
  ((s.streams.map (·.1)).foldl (fun s st => s.settleStream st) s).flushAll

/-- The SCHEDULE-EVENT descriptors of stream `st` that pulse at line `l` of head `h`. -/
def State.eventsAt (s : State) (st h l : Nat) : List Desc :=
  (s.strm st).descs.filter (fun d =>
    d.phase = .waitLine && dOp d.raw == 6 && dLine d.raw == l && s.eventHead d == some h)

/-- Give the pulses of line `l` of head `h` (R95) and complete their descriptors. -/
def State.eventPulses (s : State) (h l : Nat) : State :=
  (s.streams.map (·.1)).foldl (fun s st =>
    (s.eventsAt st h l).foldl (fun s d =>
      (s.evtPulse (dFmt d.raw) (dCount d.raw)).complete st d.count 0 l) s) s

/-! ### A line counts as fired -/

/-- The last fired line of head `h`, 0 before any. -/
def State.lastFired (s : State) (h : Nat) : Nat := if (s.head h).any then (s.head h).prints - 1 else 0

/-- UNT_LAST of unit `u` (R44). -/
def State.lastReg (s : State) (u : Nat) : Nat := s.reg64 (UNT_LASTLO u) (UNT_LASTHI u)

/-- Put UNT_LAST of unit `u` (R44): a group shows the lowest that its live members show. -/
def State.putLastOf (s : State) (u : Nat) : State :=
  let v := if u < 64 then (if (s.head u).any then s.lastFired u else s.lastReg u)
    else match (s.members u).map (fun m => s.lastReg m) with
      | [] => 0
      | l :: ls => ls.foldl min l
  s.setReg64 (UNT_LASTLO u) (UNT_LASTHI u) v

/-- Put the last fired line of head `h`, and of the groups above it (R44). -/
def State.putLast (s : State) (h : Nat) : State := (s.chain h).foldl (fun s u => s.putLastOf u) s

/-- TRIM-RAMPs whose line E is `l` start on head `h` (R39). Of two on one unit with the same E both run and the slower code counts,
though only the last one's adjustment stands (DESIGN CHOICE, log entry 15). -/
def State.startRamps (s : State) (h l : Nat) : State :=
  let os := s.uops.filter (fun o => o.code == 9 && o.line == l && (s.chain h).contains o.unit)
  if os.isEmpty then s
  else
    let codes := os.map (fun o =>
      let c := bitsOf o.arg.toNat 16 4
      if c = 0 then (s.effAt o.unit l).slew else c)
    let s1 := s.modHead h (fun x => { x with ramps := x.ramps ++ codes })
    let e := s1.effAt h l
    (s1.setReg (UNT_EFFTRIM h) (BitVec.ofNat 32 (min e.trim.toNat s1.trimCeil))).setWant h e.trim

/-- All live heads have fired, or counted as fired, their last line of the pass (R241). -/
def State.passOver (s : State) : Bool :=
  s.scan && s.on FIR_STATE_INPASS &&
  s.liveHeads.all (fun h =>
    decide (s.fir.lorg + (s.reg FIR_PASS).toNat * s.fld FIR_PASSLEN_LINES ≤ (s.head h).prints))

/-- The pass ends: carriage motion is no reversal until the next one (R241). -/
def State.endPass (s : State) : State := (s.setFld FIR_STATE_INPASS 0).setPos { s.pos with norev := true }

/-- Of heads `hs`, the one of smallest effective delay at line `l`, the first of them where several have it. -/
def State.leadOf (s : State) (hs : List Nat) (l : Nat) : Option Nat :=
  hs.foldl (fun best h =>
    match best with
    | none => some h
    | some b => if (s.effAt h l).dw < (s.effAt b l).dw then some h else some b) none

/-- The live head of smallest effective delay at line `l`, lowest number first (R144). -/
def State.leadHead (s : State) (l : Nat) : Option Nat := s.leadOf s.liveHeads l

end Sys2Proof.Machine
end

