-- ==== Sys2Proof/Machine/WindowOps.lean ====
section
/-! DEFINITION. The SRAM windows of BAR0: the merge buffer and its commit (R389), the table port latch (R164), and
reads and writes of nozzle entries, curves and matrices (R153, R158, R159, R419). -/

namespace Sys2Proof.Machine

/-! ### The merge buffer of the on-chip SRAM: its key is the BAR0 offset of the word divided by 8 -/

def NZT_WIN : Nat := 0x080000
def MTX_WIN : Nat := 0x300000
def CRV_WIN : Nat := 0x3C0000

/-- Words of the flat-field tables follow the windows in the key space: 16,384 for each camera (R271, R286). -/
def FF_WIN : Nat := 0x400000

/-- A word of the flat-field tables after the SRAM fill (R271). -/
def ffFill : MWord := MWord.clean 0x1000000010000000#64
def State.ffWord (s : State) (j : Nat) : MWord := s.tabs.ff.get (fun _ => ffFill) j
def State.setFf (s : State) (j : Nat) (w : MWord) : State := s.setTabs { s.tabs with ff := s.tabs.ff.set (fun _ => ffFill) j w }

/-! ### Words of the on-chip SRAM by region (R384, R395) -/

/-- The blend shadow word of entry `n`: its prior entry O while a change is pending or fading (R140). -/
def State.blendWord (s : State) (n : Nat) : MWord :=
  match (s.ent n).chg.getLast? with
  | some c => c.old
  | none => s.code (2 ^ 17 + n)

def State.setBlend (s : State) (n : Nat) (w : MWord) : State :=
  match (s.ent n).chg.reverse with
  | [] => s.setCode (2 ^ 17 + n) w
  | c :: l => s.setEnt n { (s.ent n) with chg := ({ c with old := w } :: l).reverse }

/-- Put word `w` as entry `n`'s word in the table, without the port (used for correction and marking). -/
def State.setLast (s : State) (n : Nat) (w : MWord) : State :=
  let e := s.ent n
  let chg := match e.chg.reverse with
    | [] => []
    | c :: l => ({ c with new := w } :: l).reverse
  s.setEnt n { e with last := w, base := if e.chg.isEmpty then w else e.base, chg := chg }

/-- Word `j` of region `r`. The regions that are written before they are read hold no word here (R388). -/
def State.regionWord (s : State) (r j : Nat) : MWord :=
  if r = rgTABLE then (s.ent j).last
  else if r = rgSHADOW then s.blendWord j
  else if r = rgCURVE then s.curveWord j
  else if r = rgMATRIX then s.mtxWord j
  else if r = rgMAP then s.code j
  else if r = rgCAMERA then s.ffWord j
  else zeroWord

/-- Put a word there as it is. -/
def State.regionPut (s : State) (r j : Nat) (w : MWord) : State :=
  if r = rgTABLE then s.setLast j w
  else if r = rgSHADOW then s.setBlend j w
  else if r = rgCURVE then s.setCurveWord j w
  else if r = rgMATRIX then s.setMtxWord j w
  else if r = rgMAP then s.setCode j w
  else if r = rgCAMERA then s.setFf j w
  else s

/-- A read of word `j` of region `r` (R384): noted, corrected or marked where it stands. -/
def State.regionTouch (s : State) (r j : Nat) : State :=
  let w := s.regionWord r j
  if w.unc || w.cor then (s.eccNote memSRAM r (8 * j) w).regionPut r j (w.healed s.corrWb) else s

/-- Words of each region that the SRAM fill writes, in the order in which the scrubber takes them (R388, R390; DESIGN CHOICE, log
entry 92). -/
def filledWords (r : Nat) : Nat :=
  if r = rgTABLE ∨ r = rgSHADOW ∨ r = rgMAP then 2 ^ 17
  else if r = rgCURVE then 2 ^ 13
  else if r = rgMATRIX then 0x18000
  else if r = rgCAMERA then 2 ^ 15
  else 0

/-- The region and word of merge key `k` (R419): a nozzle entry, a matrix word, a word of the curve bank written last, or a
flat-field word. -/
def State.sramPlace (s : State) (k : Nat) : Nat × Nat :=
  if FF_WIN / 8 ≤ k then (rgCAMERA, k - FF_WIN / 8)
  else if k < MTX_WIN / 8 then (rgTABLE, k - NZT_WIN / 8)
  else if k < CRV_WIN / 8 then (rgMATRIX, k - MTX_WIN / 8)
  else
    let j := k - CRV_WIN / 8
    (rgCURVE, curveKey (j / 64) (s.curve (j / 64)).wr (j % 64))

/-- The stored word of the merge key `k`. -/
def State.sramWord (s : State) (k : Nat) : MWord := s.regionWord (s.sramPlace k).1 (s.sramPlace k).2

/-- A read of word `k` (R384). -/
def State.sramTouch (s : State) (k : Nat) : State := s.regionTouch (s.sramPlace k).1 (s.sramPlace k).2

/-- A committed word takes its place without a job (R159, R163): it is stored as `w`, and what the port copies of it is `src`, which
no flip reaches (R393). An entry written with reserved bits is refused (R165). -/
def State.sramCommit (s : State) (k : Nat) (w src : MWord) : State :=
  let p := s.sramPlace k
  if p.1 = rgCAMERA then s.setFf p.2 w
  else if p.1 = rgTABLE then
    (if eReserved src.data ≠ 0 then (s.nztErr erBADOP p.2 2).countReg NZT_REFUSED 1
     else (((s.entNow p.2 w false).setShadow p.2 src.copy).countReg (NZT_WRITES 2) 1).stores pkSTAGING 4 1)
  else if p.1 = rgMATRIX then
    ((s.setMtxWord p.2 w).setMtxShadow p.2 src.copy).stores pkSTAGING 4 1 |>.goldMatrix (p.2 / 0x6000)
  else
    let q := (k - CRV_WIN / 8) / 64
    let j := (k - CRV_WIN / 8) % 64
    let s1 := s.setCurve q { s.curve q with wr := (s.curve q).bank }
    (((s1.setCurveWord (curveKey q (s.curve q).bank j) w).setCurveShadow q j src.copy).stores pkSTAGING 4 1).goldCurve

/-- The commit of word `k`: the flip mask reaches the BAR0 windows only (R393). -/
def State.commitSram (s : State) (k : Nat) (v : BitVec 64) : MWord × State :=
  if FF_WIN / 8 ≤ k then (MWord.clean v, s) else s.commitWord 0 64 v

/-- The merge buffer of the on-chip SRAM commits (R389). A flipped commit of a merged word that keeps its mark still reads as
marked (R383). -/
def State.mergeCommit (s : State) : State :=
  match s.mergeBuf memSRAM with
  | none => s
  | some b =>
    let s1 := s.setMerge memSRAM none
    if b.mask = 255 then
      let c := s1.commitSram b.key (BitVec.ofNat 64 b.val)
      c.2.sramCommit b.key c.1 (MWord.clean (BitVec.ofNat 64 b.val))
    else
      let s2 := s1.sramTouch b.key
      let o := (s2.sramWord b.key).out
      let v := BitVec.ofNat 64 (mergeBytes o.1.toNat b.val b.mask)
      let c := s2.commitSram b.key v
      if o.2 then (c.2.countReg ECC_MERGEASH 1).sramCommit b.key (MWord.marked c.1.raw) (MWord.marked v)
      else c.2.sramCommit b.key c.1 (MWord.clean v)

/-- A read or a write reaches word `k` of the on-chip SRAM: a buffer that holds another word commits. -/
def State.mergeAway (s : State) (k : Nat) : State :=
  match s.mergeBuf memSRAM with
  | some b => if b.key = k then s else s.mergeCommit
  | none => s



/-- A host write of `len` bytes at BAR0 offset `a` of a window, without a job (R389). -/
def State.windowPut (s : State) (a len v : Nat) : State :=
  let k := a / 8
  let s1 := s.mergeAway k
  let b := ((s1.mergeBuf memSRAM).getD ⟨k, 0, 0, s1.clk⟩).add (a % 8) len v s1.clk
  let s2 := s1.setMerge memSRAM (some b)
  if b.mask = 255 then s2.mergeCommit else s2

/-- A read of `len` bytes at BAR0 offset `a` of a window: buffered bytes lie over the stored ones, and a marked word
returns with the EP bit (R386, R389). -/
def State.windowGet (s : State) (a len : Nat) : State :=
  let k := a / 8
  let s1 := (s.mergeAway k).sramTouch k
  let o := (s1.sramWord k).out
  let v := match s1.mergeBuf memSRAM with
    | some b => if b.key = k then mergeBytes o.1.toNat b.val b.mask else o.1.toNat
    | none => o.1.toNat
  { s1.ashSent o.2 with readData := BitVec.ofNat 64 (bitsOf v (8 * (a % 8)) (8 * len)), readEP := o.2 }

/-! ### The latch of the nozzle table window (R164) -/

/-- A record of one entry, as the port takes it: index, value, with E chosen by the port. -/
def entRecord (e n : Nat) (v : BitVec 64) : List Byte :=
  [0x40#8] ++ leBytes 3 0 ++ leBytes 5 e ++ leBytes 3 n ++ leBytes 2 1 ++ leBytes 2 0 ++ leBytes 8 v.toNat ++ leBytes 8 0

/-- Pass entry `n` to the port from BAR0, with the gathered bytes of `l` over the word most recently written: at the owning port's next
unscreened line plus LEAD (R164). Unless every byte has come, that word is read (R384, R389) and its mark stays (R385); `m` says that the
latched bytes themselves are marked. -/
def State.passEntry (s : State) (n : Nat) (l : Narrow) (m : Bool) : State :=
  let s1 := if l.mask = 255 then s else s.mergeCommit.regionTouch rgTABLE n
  let w := (s1.ent n).last.out
  let v := BitVec.ofNat 64 (mergeBytes w.1.toNat l.val l.mask)
  s1.portAdd ⟨.bar0, entRecord (s1.entScreen n + s1.fld NZT_CTL_LEAD) n v, none, false, s1.clk, m || (w.2 && l.mask != 255)⟩

/-- The latched bytes are lost (R164). -/
def State.latchLost (s : State) (n : Nat) : State := (s.nztErr 0x0E n 2).countReg NZT_REFUSED 1

/-- The latch takes `l`; what is wrong in it stays while it holds the same entry. -/
def State.setLatch (s : State) (l : Option Narrow) : State :=
  let same := l.any (fun l => s.tabs.latch.any (fun m => m.key == l.key))
  s.setTabs { s.tabs with latch := l, latchErr := if same then s.tabs.latchErr else Flaw.none }

/-- The latch, holding entry `l.key`, is read: its bytes as they come out, and whether they are marked (R384, R388). -/
def State.latchRead (s : State) (l : Narrow) : Narrow × Bool × State :=
  let f := s.tabs.latchErr
  if s.tabs.latch.any (fun m => m.key == l.key) then
    ({ l with val := l.val ^^^ f.word.out.1.toNat }, f.word.out.2, s.eccNote memSRAM rgOTHER f.addr f.word)
  else (l, false, s)

/-- A BAR0 write into the nozzle table window while a job is armed (R164). -/
def State.latchWrite (s : State) (a len v : Nat) : State :=
  let n := a / 8
  let fresh := Narrow.add ⟨n, 0, 0, s.clk⟩ (a % 8) len v s.clk
  let finish := fun (s : State) (l : Narrow) =>
    if l.mask / 16 % 16 = 15 then
      let r := s.latchRead l
      (r.2.2.setLatch none).passEntry n r.1 r.2.1
    else s.setLatch (some l)
  match s.tabs.latch with
  | none => finish s fresh
  | some l =>
    if l.key = n then finish s (l.add (a % 8) len v s.clk)
    else if a % 8 = 4 ∧ len = 4 then
      s.passEntry n fresh false
    else finish ((s.latchLost l.key).setLatch none) fresh

end Sys2Proof.Machine
end

