-- ==== Sys2Proof/Machine/PortOps.lean ====
section
/-! DEFINITION. The table update port (R20, R93, R162 to R168): the request at its front, how each kind of record is
judged, and what an accepted one writes. -/

namespace Sys2Proof.Machine

/-! ### Record fields (R38, R166) -/

def byteOf (bs : List Byte) (i : Nat) : Nat := (bs[i]?.getD 0#8).toNat
def fieldOf (bs : List Byte) (i n : Nat) : Nat := leNat ((bs.drop i).take n)
def rCode (bs : List Byte) : Nat := byteOf bs 0
def rLine (bs : List Byte) : Nat := fieldOf bs 4 5
def rIndex (bs : List Byte) : Nat := fieldOf bs 9 3
def rCount (bs : List Byte) : Nat := fieldOf bs 12 2

/-- The length of a record from its header (R93, R167). -/
def State.recLen (s : State) (bs : List Byte) : Nat :=
  if rCode bs = 0x40 then 16 + 16 * ceilDiv (rCount bs) 2
  else if rCode bs = 0x41 then 32
  else if rCode bs = 0x44 then 528
  else if rCode bs = 0x45 ∧ byteOf bs 2 ≤ 3 then 16 + 3 * s.mtxDim (byteOf bs 2) * rCount bs
  else 16

/-- The writer number of a request (R170). -/
def PortSrc.writer : PortSrc → Nat
  | .stream _ _ => 0
  | .inspection _ _ => 1
  | .bar0 => 2
  | .reload => 3

/-- What the port decides on a request. -/
inductive Verdict where
  | refuse (code index : Nat)
  | wait (changes : Nat)
  | accept
  deriving DecidableEq, Repr

/-! ### Results -/

/-- A record of a TABLE has been accepted (code 0) or refused (R93): the first refusal gives the status, and the
TABLE completes once all its data has come and every record has been judged. -/
def State.tableResult (s : State) (st c code : Nat) : State :=
  let s1 := s.modDesc st c (fun d => { d with
    out := d.out - 1, status := if d.status = 0 ∧ code ≠ 0 then 0x30 + code else d.status })
  match s1.desc? st c with
  | some d =>
    if d.phase = .table ∧ d.out = 0 ∧ dLen d.raw ≤ d.got then (s1.complete st c d.status d.first).flushAll else s1
  | none => s1

/-- The codes of writes `ks`, where every one of them is known. -/
def resultsOf (rs : List (Nat × Nat)) (ks : List Nat) : Option (List Nat) :=
  if ks.all (fun k => rs.any (fun r => r.1 == k)) then some (ks.map (fun k => ((rs.find? (fun r => r.1 == k)).getD (0, 0)).2)) else none

/-- A STANDBY reports the results of a BATCH once they are all known (R325). -/
def State.batchReport (s : State) : State :=
  match s.twin.batch with
  | [] => s
  | ks :: l =>
    match resultsOf s.tabs.results ks with
    | none => s
    | some cs => ((s.setTwin { s.twin with batch := l }).setTabs
        { s.tabs with results := s.tabs.results.filter (fun r => !ks.contains r.1) }).twinSend 0x15 cs

/-- The result of autonomous write `k` (R283): its defect record takes it, and on a STANDBY the BATCHRES that answers its BATCH. -/
def State.insResult (s : State) (k code : Nat) : State :=
  let s0 := s.defectResult k code
  let s1 := if s0.twin.batch.any (fun ks => ks.contains k) then s0.setTabs { s0.tabs with results := s0.tabs.results ++ [(k, code)] } else s0
  (if code = 0 then s1.countReg INS_WRITES 1 else s1).batchReport

/-- Tell the writer of a request what became of it. -/
def State.portResult (s : State) (src : PortSrc) (code : Nat) : State :=
  match src with
  | .stream st c => s.tableResult st c code
  | .inspection k _ => s.insResult k code
  | _ => s

/-- A table update record is refused (R165, R170): NZT_ERR records none of inspection's refusals, which are reported to the engine
instead (R283). -/
def State.portRefuse (s : State) (r : PortReq) (code index : Nat) : State :=
  let s1 := match r.src with
    | .inspection _ _ => (s.countReg INS_REFUSED 1).countReg NZT_REFUSED 1
    | src => (s.nztErr code index src.writer).countReg NZT_REFUSED 1
  s1.portResult r.src code

/-- The request at the front leaves. -/
def State.portPop (s : State) : State := { s with portQ := s.portQ.tail }

/-- The line E of a record. A BAR0 write and a reload have theirs from the moment they reach the port: the owning port's next
unscreened line plus LEAD (R164, R168), so that one that waits past it is LATE (R165). -/
def State.reqLine (_ : State) (r : PortReq) : Nat := rLine r.bytes

def PortReq.isReload (r : PortReq) : Bool := r.src == .reload
def PortReq.auto (r : PortReq) : Bool := r.src.writer == 1

/-! ### Entries: ENTRIES and MASKED (R139, R140, R154, R165, R167) -/

/-- The values that an entry record writes: index and value. -/
def State.recEntries (s : State) (r : PortReq) : List (Nat × BitVec 64) :=
  let i := rIndex r.bytes
  if rCode r.bytes = 0x40 then
    (List.range (rCount r.bytes)).map (fun j => (i + j, BitVec.ofNat 64 (fieldOf r.bytes (16 + 8 * j) 8)))
  else
    let v := BitVec.ofNat 64 (fieldOf r.bytes 16 8)
    let m := BitVec.ofNat 64 (fieldOf r.bytes 24 8)
    [(i, ((s.ent i).last.out.1 &&& ~~~m) ||| (v &&& m))]

/-- The pairs (E, B) that the changes of a record need beyond the groups held, one per change. -/
def State.newPairs (s : State) (r : PortReq) (e : Nat) (es : List (Nat × BitVec 64)) : List (Nat × Nat) :=
  ((es.filter (fun nv => s.isLive (entPort nv.1) && s.isChange nv.1 nv.2 r.isReload)).map (fun nv =>
    (e, if r.isReload then 0 else fadeLen (eBlend nv.2)))).filter (fun p => !s.blendPairs.contains p)

/-- The entry of a record keeps the mark of the word whose bytes it merges: MASKED's base, unless its mask takes every byte, or the base
of the latched bytes (R385). -/
def State.recMarked (s : State) (r : PortReq) : Bool :=
  r.ash || (rCode r.bytes == 0x41 && (s.ent (rIndex r.bytes)).last.out.2 && fieldOf r.bytes 24 8 != 2 ^ 64 - 1)

/-- A word that a record writes. -/
def recWord (marked : Bool) (v : BitVec 64) : MWord := if marked then MWord.marked v else MWord.clean v

/-- Judge an entry record: malformed (an operand byte other than 0 among the causes: DESIGN CHOICE, log entry 44), out of range, stale, late, or waiting for a blend group. One of no entries is out of range, and a refusal
tells the first entry of its record as INDEX (DEDUCED, log entry 44). -/
def State.judgeEntries (s : State) (r : PortReq) : Verdict :=
  let bs := r.bytes
  let es := s.recEntries r
  let e := s.reqLine r
  let pad := if rCode bs = 0x40 ∧ rCount bs % 2 = 1 then fieldOf bs (16 + 8 * rCount bs) 8 else 0
  if byteOf bs 1 ≠ 0 ∨ byteOf bs 2 ≠ 0 ∨ byteOf bs 3 ≠ 0 ∨ fieldOf bs 14 2 ≠ 0 ∨ bs.length < s.recLen bs ∨ pad ≠ 0 ∨
      (rCode bs = 0x41 ∧ rCount bs ≠ 0) then .refuse erBADOP (rIndex bs)
  else if (rCode bs = 0x40 ∧ rCount bs = 0) ∨ 131072 < rIndex bs + es.length then .refuse erRANGE (rIndex bs)
  else if es.any (fun nv => eReserved nv.2 != 0) then .refuse erBADOP (rIndex bs)
  else if (match r.expect with | some x => es.any (fun nv => eLow (s.ent nv.1).last.out.1 != x) | none => false) then
    .refuse 5 (rIndex bs)
  else if s.armed && es.any (fun nv => s.isLive (entPort nv.1) && s.screenedLine (entPort nv.1) e) then
    .refuse erLATE (rIndex bs)
  else
    let ps := s.newPairs r e es
    if s.armed && decide (16 < s.blendPairs.length + ps.eraseDups.length) then .wait ps.length else .accept

/-- Write the entries of an accepted record, in index order (R162). Their shadow copies go to the staging partition in the 64-byte
bursts that hold them (R120; DESIGN CHOICE, log entry 18). -/
def State.writeEntries (s : State) (r : PortReq) : State :=
  let es := s.recEntries r
  let e := s.reqLine r
  let mk := s.recMarked r
  let s0 := s.stores pkSTAGING 4 ((rIndex r.bytes + es.length + 7) / 8 - rIndex r.bytes / 8)
  let s1 := es.foldl (fun s nv => s.entWrite nv.1 e (recWord mk nv.2) r.isReload r.auto) s0
  (s1.countReg (NZT_WRITES r.src.writer) es.length).putBlend

/-! ### Curves, matrices and selections (R160, R161, R163, R167) -/

def State.recCurve (_ : State) (bs : List Byte) : List Nat := (List.range 256).map (fun j => fieldOf bs (16 + 2 * j) 2)

/-- Judge a CURVE record. An index other than 0 is malformed here and in MTXSEL, as is an operand other than 0 in ENTRIES and MASKED: R166 gives
those bytes no use there, but does not call them reserved (DESIGN CHOICE, log entry 44). -/
def State.judgeCurve (s : State) (r : PortReq) : Verdict :=
  let bs := r.bytes
  let q := byteOf bs 2
  if byteOf bs 1 ≠ 0 ∨ byteOf bs 3 ≠ 0 ∨ rIndex bs ≠ 0 ∨ rCount bs ≠ 0 ∨ fieldOf bs 14 2 ≠ 0 ∨ bs.length < 528 ∨
      (s.recCurve bs).any (fun v => decide (4096 ≤ v)) then .refuse erBADOP q
  else if 63 < q then .refuse erRANGE q
  else if s.armed && s.liveHeads.any (fun p => s.screenedLine p (rLine bs)) then .refuse erLATE q
  else if s.armed && (s.curve q).pend.isSome then .wait 0
  else .accept

/-- Load a curve: the bank in effect without a job, the idle bank during one, to which each live port switches. Its shadow copy takes 8
bursts of the staging partition (R120). -/
def State.writeCurve (s : State) (r : PortReq) : State :=
  let q := byteOf r.bytes 2
  let c := s.curve q
  let vs := s.recCurve r.bytes
  let s0 := s.stores pkSTAGING 4 8
  let s1 := if !s.armed then (s0.curveLoad q c.bank vs).setCurve q { c with wr := c.bank }
    else
      ((s0.curveLoad q (1 - c.bank) vs).setCurve q
        { c with wr := 1 - c.bank, pend := some (rLine r.bytes, s.liveHeads) }).curveSettle q
  s1.goldCurve

/-- Judge a MATRIX record (R167): one with a non-zero E is malformed, and one of no rows out of range (DEDUCED, log entry 44). -/
def State.judgeMatrix (s : State) (r : PortReq) : Verdict :=
  let bs := r.bytes
  let m := byteOf bs 2
  if byteOf bs 1 ≠ 0 ∨ byteOf bs 3 ≠ 0 ∨ fieldOf bs 14 2 ≠ 0 then .refuse erBADOP m
  else if 3 < m then .refuse erRANGE m
  else if rLine bs ≠ 0 ∨ bs.length < s.recLen bs then .refuse erBADOP m
  else if rCount bs = 0 ∨ s.mtxDim m < rIndex bs + rCount bs then .refuse erRANGE m
  else if s.armed && s.mtxInUse m then .refuse erLIVE m
  else .accept

/-- Load rows of a matrix; their shadow copies take the 64-byte bursts of the staging partition that hold them (R120). -/
def State.writeMatrix (s : State) (r : PortReq) : State :=
  let m := byteOf r.bytes 2
  let n := 3 * s.mtxDim m
  let s1 := (List.range (rCount r.bytes)).foldl (fun s i =>
    let o := cellOff m (rIndex r.bytes + i) 0
    (s.stores pkSTAGING 4 ((o + n + 63) / 64 - o / 64)).mtxWrite o ((r.bytes.drop (16 + n * i)).take n)) s
  s1.goldMatrix m

def State.judgeMtxsel (s : State) (r : PortReq) : Verdict :=
  let bs := r.bytes
  let u := byteOf bs 2
  if byteOf bs 1 ≠ 0 ∨ rIndex bs ≠ 0 ∨ rCount bs ≠ 0 ∨ fieldOf bs 14 2 ≠ 0 then .refuse erBADOP u
  else if 127 < u ∨ 3 < byteOf bs 3 then .refuse erRANGE u
  else if s.armed && (s.members u).any (fun h => s.screenedLine h (rLine bs)) then .refuse erLATE u
  else .accept

/-- Insert a waiting selection by line, after those of the same line. -/
def insertSel (x : Nat × Nat) : List (Nat × Nat) → List (Nat × Nat)
  | [] => [x]
  | y :: l => if x.1 < y.1 then x :: y :: l else y :: insertSel x l

def State.writeMtxsel (s : State) (r : PortReq) : State :=
  let m := byteOf r.bytes 3
  (s.members (byteOf r.bytes 2)).foldl (fun s h =>
    if s.armed then s.modHead h (fun x => { x with sels := insertSel (rLine r.bytes, m) x.sels })
    else s.putMtxSel h m) s

/-! ### Serving the front of the port -/

/-- The verdict on a record by its code; a reserved code in 40h to 7Fh is BADOP. -/
def State.judge (s : State) (r : PortReq) : Verdict :=
  if rCode r.bytes = 0x40 ∨ rCode r.bytes = 0x41 then s.judgeEntries r
  else if rCode r.bytes = 0x44 then s.judgeCurve r
  else if rCode r.bytes = 0x45 then s.judgeMatrix r
  else if rCode r.bytes = 0x46 then s.judgeMtxsel r
  else .refuse erBADOP (rIndex r.bytes)

/-- Carry out an accepted record. Its writes are hardware writes into the on-chip SRAM, and the merge buffer commits first (R389). -/
def State.carry (s : State) (r : PortReq) : State :=
  let s := s.mergeCommit
  if rCode r.bytes = 0x40 ∨ rCode r.bytes = 0x41 then s.writeEntries r
  else if rCode r.bytes = 0x44 then s.writeCurve r
  else if rCode r.bytes = 0x45 then s.writeMatrix r
  else s.writeMtxsel r

/-- The port reads word `n` of the nozzle table, the word most recently written by any writer: another word or this one in the merge buffer
commits first, and what is wrong with it is found (R384, R389). -/
def State.readBase (s : State) (n : Nat) : State := s.mergeCommit.regionTouch rgTABLE n

/-- Before a record is judged, MASKED's base is read (R167). So is the entry that an inspection write replaces: its bits are compared, and the
write's defect record takes it (R283). -/
def State.settleBase (s : State) (r : PortReq) : State :=
  let n := rIndex r.bytes
  match r.src with
  | .inspection k _ => let s1 := s.readBase n; s1.defectBefore k (s1.ent n).last.out.1 (s1.ent n).last.poison
  | _ => if rCode r.bytes = 0x41 then s.readBase n else s

/-- Serve a table update record `r` at the front. -/
def State.serve (s : State) (r : PortReq) : State :=
  let s0 := s.settleBase r
  match s0.judge r with
  | .refuse code index => s0.portPop.portRefuse r code index
  | .accept => (s0.portPop.carry r).portResult r.src 0
  | .wait n =>
    if r.waits then s0
    else ({ s0 with portQ := { r with waits := true } :: s0.portQ.tail } : State).count KLN_BLENDST_WAITS n

/-- Serve the front request where its record code satisfies `p` and it does not wait. -/
def State.serveIf (s : State) (p : Nat → Bool) : State :=
  match s.portQ with
  | r :: _ => if p (rCode r.bytes) && !r.waits then s.serve r else s
  | [] => s

/-- The raw 16 bytes of a unit operation record. -/
def rawOp (bs : List Byte) : BitVec 128 := BitVec.ofNat 128 (leNat (bs.take 16))

/-- The refusal of a unit operation record, or none (R40): malformed, then out of range, then the rest. -/
def State.judgeOp (s : State) (w : BitVec 128) : Option Nat :=
  if !uKnown w || !uClean w then some 9
  else if 127 < uUnit w then some 4
  else s.opRefused ⟨uUnit w, uCode w, uLine w, uArg w⟩

/-- Serve a unit operation record at the front (R38, R40, R438). -/
def State.serveOp (s : State) (r : PortReq) : State :=
  let w := rawOp r.bytes
  match s.judgeOp w with
  | some c => (s.portPop.unitErr c (uUnit w)).portResult r.src c
  | none => (s.portPop.opAccept ⟨uUnit w, uCode w, uLine w, uArg w⟩).portResult r.src 0

/-- Serve the front request where it is a unit operation whose code satisfies `p`. -/
def State.serveOpIf (s : State) (p : Nat → Bool) : State :=
  match s.portQ with
  | r :: _ => if p (rCode r.bytes) then s.serveOp r else s
  | [] => s

end Sys2Proof.Machine
end

