-- ==== Sys2Proof/Machine/HostOps.lean ====
section
/-! DEFINITION. Shared operations of the host interface: the status block (R74 to R76), commands and their
completions (R60, R65 to R68), and rejections with what they do to a stream (R71 to R73, R86). -/

namespace Sys2Proof.Machine

def State.setHif (s : State) (h : HostIf) : State := { s with hostIf := h }

/-- A doorbell poll or a command read has failed (R48, R54, R60): it is logged, counted and raises the alarm. -/
def State.pollFailed (s : State) : State := ((s.readFailed true).count HIF_POLLERR_COUNT 1).alarm alPOLLERR

/-! ### The status block -/



/-- The alarm conditions of R76 that hold now and that a state shows. -/
def State.levels (s : State) : BitVec 64 :=
  let hs := s.heads.map (·.2)
  let bit := fun (i : Nat) (b : Bool) => if b then (1#64 <<< i) else 0#64
  bit alENCVOTE (s.fld POS_STATE_OUTV != 0) |||
  bit alDATALATE (hs.any (fun x => x.late.isSome)) |||
  bit alGOVERN (s.armed && decide (s.fld TRN_STATE_G < 256)) |||
  bit alSPLICE (s.armed && decide (2 ≤ s.fld TRN_STATE_SEQ)) |||
  bit alTHERMAL (hs.any (fun x => x.hot)) |||
  bit alECCCOR s.tripDiffers ||| bit alECCUNC s.tripUnvoted |||
  bit alCQFULL ((List.range 8).any (fun q => s.cqFull q)) |||
  bit alHALT ((List.range 128).any (fun st => s.strState st == stHALTED)) |||
  bit alXRANGE (s.hostIf.xrangeP != 0) |||
  bit alTRIMLIM ((List.range 64).any (fun h => s.on (TRM_OUT_CLAMP h))) |||
  bit alHEARTHSAT (s.on SVC_HLOAD_SAT) |||
  bit alCORD (s.fld CRD_STATE_RING != 1 || s.on CRD_STATE_LMCONF || s.on CRD_STATE_TMCONF || s.on CRD_STATE_ADDRCONF ||
    s.on CRD_STATE_MEMBER || s.on CRD_STATE_HOLDOVER || s.on CRD_BARST_MISMATCH || s.on CRD_BSEND_LOST || s.on CRD_BRXSTAT_OVF ||
    s.on CRD_SCHEDST_MISSED || s.on CRD_SCHEDST_LOST || s.on CRD_SCHEDST_DROPPED) |||
  bit alPWRWARN (s.on PWR_STAT_PFW || s.on PWR_STAT_SAG || !s.on PWR_STAT_VMAINOK)

/-- A mask of 128 bits as bytes. -/
def maskBytes (n : Nat) (p : Nat → Bool) : List Byte :=
  leBytes (n / 8) ((List.range n).foldl (fun m i => if p i then m + 2 ^ i else m) 0)

/-- The body of the status block, bytes 4 to 251 (R74). -/
def State.statusBody (s : State) (alarms : BitVec 64) : List Byte :=
  let held := (List.range 8).foldl (fun m q => if s.cqFull q then m + 2 ^ q else m) 0
  leBytes 4 s.tb0.toNat ++ leBytes 4 (s.tb 1).toNat ++
  leBytes 4 (b2n s.armed + 2 * b2n (s.on HIF_CTL_POLLEN) + 4 * b2n (s.on HIF_CTL_BME) + 256 * held) ++
  leBytes 8 (s.posPair 0) ++ leBytes 4 (s.reg POS_SPEED).toNat ++ leBytes 4 (s.reg POS_SPEEDST).toNat ++
  leBytes 8 (s.reg64 (UNT_LASTLO 127) (UNT_LASTHI 127)) ++ leBytes 8 alarms.toNat ++
  leBytes 4 (s.reg TWN_STATE).toNat ++ leBytes 1 (s.fld SVC_HLOAD_LOAD) ++ leBytes 1 (s.fld SVC_HLOAD_BACKLOG) ++
  leBytes 2 (min 65535 s.hostIf.xrangeP) ++
  leBytes 2 (s.cam 0).done ++ leBytes 2 (s.cam 1).done ++
  leBytes 2 (s.fld INS_ENGST_BACKLOG) ++ leBytes 1 (s.fld INS_ENGST_BUSY) ++ leBytes 1 0 ++
  maskBytes 128 (fun st => s.strState st == stHALTED) ++ maskBytes 128 (fun st => s.streamLate st) ++
  leBytes 4 (if s.armed then (s.reg KLN_SEED).toNat else 0) ++ leBytes 20 0 ++
  ((List.range 128).map (fun st => BitVec.ofNat 8 (min 255 (s.fillNow st >>> s.fld HIF_CTL_FILLSHIFT)))) ++ leBytes 4 0

/-- Sample and write one status block, in three writes (R74, R75); the alarms start anew (R76). -/
def State.statusBlock (s : State) : State :=
  let seq := s.hostIf.statSeq + 1#32
  let base := s.reg64 HIF_STATLO HIF_STATHI
  let body := s.statusBody (s.alarms ||| s.levels)
  let s1 := ((s.emit base (leBytes 4 seq.toNat) false).emit (base + 4) body false).emit (base + 252) (leBytes 4 seq.toNat) false
  { s1 with alarms := s.levels, hostIf := { s1.hostIf with statSeq := seq } }

/-! ### Commands -/

/-- Entries of the command ring. -/
def State.cmdN (s : State) : Nat := ringSize (s.fld HIF_CMDCTL_SIZE)

/-- Can a command be fetched now (R49, R53, R60, R67): each after the previous one has completed, and after a read that failed
only from the next poll on that finds CMDPROD ahead? -/
def State.cmdOk (s : State) : Bool :=
  s.on HIF_CMDCTL_EN && s.canMaster && decide (0 < (s.hostIf.cmdProd - s.reg HIF_CMDCONS).toInt) &&
  s.hostIf.cmdDone.isNone && s.hostIf.disarm.isNone && !s.hostIf.cmdBad

/-- Write the command completion that is due, once its queue takes it (R66, R67). -/
def State.cmdFlush (s : State) : State :=
  match s.hostIf.cmdDone with
  | none => s
  | some e =>
    let q := s.fld HIF_CMDCTL_CQ
    if s.cqRoom q then (s.cqWrite q e).setHif { (s.cqWrite q e).hostIf with cmdDone := none } else s

/-- Everything that is due to completion queues is written, as far as they take it. -/
def State.flushHost (s : State) : State := s.flushAll.cmdFlush

/-- A command ends: its completion is due (R60, R68). -/
def State.cmdEnd (s : State) (slot stream status first tag : Nat) : State :=
  (s.setHif { s.hostIf with cmdDone := some (cqEntry slot stream status false s.tb0 first tag) }).cmdFlush

/-- Fetch a command and run `f` on it: bytes that must be 0 and are not end it with BADCMD (R60). `f` answers its status
code, or none while it runs on. A DISARM that ends so tells 0 as its first line, as a command without E does (DEDUCED, log entry 35). -/
def State.command (s : State) (raw : BitVec 256) (f : State → Nat → State × Option Nat) : State :=
  if !s.cmdOk then s
  else
    let c := (s.reg HIF_CMDCONS).toNat
    let slot := c % s.cmdN
    let s1 := s.setReg HIF_CMDCONS (s.reg HIF_CMDCONS + 1#32)
    let r := if cClean raw then f s1 slot else (s1, some 0x45)
    match r.2 with
    | some st => r.1.cmdEnd slot (cStream raw) st (if cCode raw = 2 ∧ cClean raw then cLine raw else 0) (cTag raw)
    | none => r.1

/-! ### Rejections -/

/-- Coverage of stream `st` goes back to what it was before descriptor `d` (R71, R86). -/
def State.uncover (s : State) (st : Nat) (d : Desc) : State :=
  s.modStrm st (fun x => { x with cover := x.cover.take d.ncov, covEnd := d.cov0, covOff := d.off0 })

/-- Everything fetched on stream `st` after descriptor `d` is discarded, with its coverage and its stored data. -/
def State.haltDesc (s : State) (st : Nat) (d : Desc) (code : Nat) : State :=
  let s1 := (s.uncover st d).discardAfter st d.count
  let s2 := s1.setReg (STR_CONS st) (BitVec.ofNat 32 d.count + 1#32)
  s2.haltAt st d.count code (some d.raw)

/-- What a rejected descriptor gives as first line printed (R69): the start line of a BAND or STRIP; for another opcode
the spec states none, and the value is free (log entry 5). -/
def State.rejectFirst (s : State) (raw : BitVec 256) : Nat × State :=
  if dOp raw = 1 ∨ dOp raw = 5 then (dLine raw, s) else ((s.draw).1.toNat % 2 ^ 32, s.draw.2)

/-- Reject descriptor `d` of stream `st` with `code` (R71, R72, R101): it halts the stream, or with skip-on-error its
lines print blank. A band's stored data is released, and a unit that is not bound is recorded in UNT_ERR (R45). -/
def State.reject (s : State) (st : Nat) (d : Desc) (code : Nat) : State :=
  let s0 : State := { s.dropReads st d.count with bands := s.bands.drop (fun k => dOp d.raw == 1 && k == d.seq) }
  let s0 := if code = 0x14 then s0.unitErr erUNBOUND (dUnit d.raw) else s0
  let lines := dOp d.raw == 1 || dOp d.raw == 5
  let r := s0.rejectFirst d.raw
  if s.on (STR_CTL_SKIPERR st) && code != 0x19 then
    let s1 := r.2.modDesc st d.count (fun d => { d with blank := true, status := code, first := r.1 })
    if lines && !s.on (STR_CTL_KIND st) then
      let s2 := s1.modStrm st (fun x =>
        { x with cover := x.cover.map (fun c => if c.src = .band d.seq then { c with src := .blank } else c) })
      let s3 := if (s2.strm st).cover.length = d.ncov && (s2.strm st).covEnd == d.cov0
        then s2.place st (dLine d.raw) (dCount d.raw) (dOp d.raw == 1 && dEnd d.raw) .blank else s2
      ((s3.modDesc st d.count (fun d => { d with phase := if dCount d.raw = 0 then .done else .printing, ts := s.tb0 })).settleStream st).flushAll
    else (s1.complete st d.count code r.1).flushAll
  else
    let s1 := (r.2.complete st d.count code r.1).haltDesc st d code
    (if dOp d.raw = 1 then s1.modStrm st (fun x => { x with rej := x.rej ++ [(dLine d.raw, dLine d.raw + dCount d.raw)] }) else s1).flushAll

/-! ### Fetching descriptors -/

/-- PROD of stream `st` exceeds what its ring can hold ahead of STR_CONS (R73). -/
def State.overrun (s : State) (st : Nat) : Bool :=
  decide (ringSize (s.fld (STR_CTL_SIZE st)) < ((s.strm st).prod - s.reg (STR_CONS st)).toNat)

/-- Stream `st` halts on a ring error, with no completion (R73): the slot is the one about to be fetched. -/
def State.ringHalt (s : State) (st code : Nat) : State := s.haltAt st (s.reg (STR_CONS st)).toNat code none

/-- Fetching passes over the slots of TABLEs that ran to their end after a halt, or run to it (R63). -/
def State.skipSlots (s : State) (st : Nat) : Nat → State
  | 0 => s
  | n + 1 =>
    if (s.strm st).pass.contains (s.reg (STR_CONS st)).toNat ∧ (s.strm st).prod ≠ s.reg (STR_CONS st) then
      (s.setReg (STR_CONS st) (s.reg (STR_CONS st) + 1#32)).skipSlots st n
    else s

/-- May stream `st` fetch its next descriptor (R49, R53, R57, R63, R92)? A fence ends fetching ahead. -/
def State.fetchOk (s : State) (st : Nat) : Bool :=
  let x := s.strm st
  s.strState st == stRUN && s.canMaster && x.prod != s.reg (STR_CONS st) && decide (x.descs.length < 1024) &&
  !x.descs.any (fun d => d.phase = .fence) &&
  !x.descs.any (fun d => d.count == (s.reg (STR_CONS st)).toNat && d.phase != .done)

/-- The descriptor that stream `st` fetches next, with bytes `raw`. -/
def State.newDesc (s : State) (st : Nat) (raw : BitVec 256) : Desc :=
  { count := (s.reg (STR_CONS st)).toNat, raw := raw, phase := .fence, status := 0, blank := false, first := 0, ts := 0#32
    seq := 0, issued := 0, got := 0, tail := [], out := 0, passed := false, reads := []
    cov0 := (s.strm st).covEnd, off0 := (s.strm st).covOff, ncov := (s.strm st).cover.length }

/-- Stream `st` holds that descriptor, and the next one is the one after it (R53). -/
def State.takeDesc (s : State) (st : Nat) (raw : BitVec 256) : State :=
  (s.modStrm st (fun x => { x with descs := x.descs ++ [s.newDesc st raw] })).setReg (STR_CONS st) (s.reg (STR_CONS st) + 1#32)

/-- Stream `st` past the slots that a SKIP has dropped. -/
def State.atSlot (s : State) (st : Nat) : State := s.skipSlots st 1024

/-- Of the streams that satisfy `p`, none comes before `st` in stream order from stream `from_` on, wrapping at 128 (R58). -/
def turnOf (from_ st : Nat) (p : Nat → Bool) : Bool :=
  (List.range ((st + 128 - from_) % 128)).all (fun i => !p ((from_ + i) % 128))

/-- It is stream `st`'s turn to fetch: round-robin, one descriptor per stream per turn (R58). -/
def State.fetchTurn (s : State) (st : Nat) : Bool := turnOf s.hostIf.turnF st (fun k => (s.atSlot k).fetchOk k)

/-- Stream `st` has taken its turn. -/
def State.tookTurn (s : State) (st : Nat) : State := s.setHif { s.hostIf with turnF := (st + 1) % 128 }

/-- Fetch the next descriptor of stream `st`, if it may, and run `f` on it (R53, R58). -/
def State.fetched (s : State) (st : Nat) (raw : BitVec 256) (f : State → Desc → State) : State :=
  let u := s.atSlot st
  if !u.fetchOk st || !u.fetchTurn st then u
  else if u.overrun st then u.ringHalt st 0x23
  else f ((u.tookTurn st).takeDesc st raw) (u.newDesc st raw)

/-- Descriptor `d` starts to wait in phase `ph`. -/
def State.waits (s : State) (st : Nat) (d : Desc) (ph : Phase) : State :=
  s.modDesc st d.count (fun d => { d with phase := ph })

/-- Descriptor `d` completes now with `status`. -/
def State.doneNow (s : State) (st : Nat) (d : Desc) (status first : Nat) : State :=
  (s.complete st d.count status first).flushAll

end Sys2Proof.Machine
end

