-- ==== Sys2Proof/Machine/TwinOps.lean ====
section
/-! DEFINITION. Port-out substitution (R136, R192, R236), modes of a port (R182, R183), and the twin logic that other
blocks call: agreements (R326, R327), comparison and divergence (R331, R332), Ember results and verdicts (R333), going
OUT (R317, R333) and readiness (R334). -/

namespace Sys2Proof.Machine

open Sys2Proof

/-! ### Port-out (R136) -/

/-- The lowest line that neither port `p` nor any port holding a partner of its columns has screened (R236). -/
def State.outLine (s : State) (p : Nat) : Nat := ((s.sharers p).map (fun q => (s.head q).screen)).foldl max (s.head p).screen

/-- Port `p` is out from line `a`, kept out by `bit`: 1 temperature, 2 chain return. -/
def State.portOutFrom (s : State) (p a bit : Nat) : State :=
  s.modHead p (fun x => { x with outBy := x.outBy ||| bit, outs := if x.outBy = 0 then x.outs ++ [(a, none)] else x.outs })

/-- What `bit` kept out ends: the port prints again from line `a` once nothing keeps it out (R192). -/
def State.portOutTo (s : State) (p a bit : Nat) : State :=
  s.modHead p (fun x =>
    let r := x.outBy &&& (3 - bit)
    { x with outBy := r, outs := if r = 0 then x.outs.map (fun o => (o.1, some (o.2.getD a))) else x.outs })

/-! ### Modes of a port -/

/-- The image of the line that the head holds, as a port in MONITOR knows it. -/
def Head.seenImage (x : Head) : Option (Nat × List Byte) :=
  match x.mline with
  | some m => ((x.past.find? (fun p => p.1 == m)).orElse (fun _ => (x.stag.find? (fun g => g.line == m)).map (fun g => (m, g.image))))
  | none => none

/-- Port `h` takes mode `m` now (R182 to R184, R191, R353). -/
def State.applyMode (s : State) (h m : Nat) : State :=
  let was := s.fld (HPT_CTL_MODE h)
  let drv := m == 1 || m == 3
  let mon := m == 2 && was != 2
  let s1 := (s.setFld (HPT_CTL_MODE h) m).modHead h (fun x =>
    let c := if was = 2 ∧ m = 1 then (if x.obsFl || x.obsRet.isSome then (x.chainL, List.replicate 512 0#8) else x.seenImage.getD (x.chainL, x.chainI)) else (x.chainL, x.chainI)
    { x with mode := none, modeTw := false
             enab := if drv && !(was == 1 || was == 3) then s.clk else x.enab
             skip := x.skip || (m == 1 && (was == 0 || was == 3))
             burst := if was = m then x.burst else none
             ret := if was = m then x.ret else none
             bnext := if was = 2 ∧ m = 1 then x.next else x.bnext
             chainL := c.1, chainI := c.2
             obs := if mon then 0 else x.obs, mpass := if mon then 0 else x.mpass, fireHi := false, obsN := if mon then 0 else x.obsN, obsFl := !mon && x.obsFl, mline := if mon then none else x.mline
             retq := if mon then [] else x.retq, seen := if mon then [] else x.seen
             rfire := if mon then [] else x.rfire, obsRet := if mon then none else x.obsRet
             past := if mon then [] else x.past })
  let s2 := if mon then s1.setFld (HPT_RETDLY_MLOCK h) 0 else s1
  if s.twinStrap then s2.setDriven h drv else s2

/-- A set of ports as a mask. -/
def portMask (ps : List Nat) : Nat := ps.foldl (fun m p => m ||| 2 ^ p) 0

/-- The port stands in a hand-over slot (R183): no burst runs, and its return has ended. -/
def State.handSlot (s : State) (h : Nat) : Bool :=
  let x := s.head h
  x.ret.isNone && (match x.burst with | some (_, e) => decide (e ≤ s.clk) | none => true)

/-- Port `h` leaves its drivers for mode `m`: a port in DRIVE at its next hand-over slot, any other now (R183). Of a pair, its trim channel is
released at once (R354). -/
def State.portTo (s : State) (h m : Nat) : State :=
  if s.drives h && !s.handSlot h then
    (let s1 := s.modHead h (fun x => { x with mode := some m, modeTw := true })
     if s1.twinStrap then s1.setDriven h false else s1)
  else s.applyMode h m

/-- Every port leaves its drivers for mode `m`. -/
def State.allPorts (s : State) (m : Nat) : State := (List.range 64).foldl (fun s h => s.portTo h m) s

/-- The live ports whose drivers are off. -/
def State.offMask (s : State) : Nat := portMask (s.liveHeads.filter (fun h => s.fld (HPT_CTL_MODE h) % 2 == 0))

/-- This chip masters the management buses, or does not (R194). -/
def State.busMastery (s : State) (b : Bool) : State :=
  let s0 := s.setTwin { s.twin with busIn := 0, busOut := 0 }
  let s1 := (List.range 8).foldl (fun s k => s.setBit (HPT_BUSST_MASTER k) b) s0
  if b then s1 else { s1 with buses := [] }

/-- This chip takes over every bus that it does not master, each at its next idle (R336, R340). -/
def State.busTake (s : State) : State :=
  s.setTwin { s.twin with busIn := portMask ((List.range 8).filter (fun b => !s.on (HPT_BUSST_MASTER b))), busOut := 0 }

/-- A Hearth transaction runs on bus `b` (R197, R198): a page of a rank rewrite, up to its STOP. Between two pages a poll that is due
runs. -/
def State.hearthBus (s : State) (b : Nat) : Bool :=
  s.svc.stat == 0 && s.reqField 0 1 / 8 == b && s.svc.page && !s.svc.turn

/-- Nothing of this chip's runs on bus `b`. -/
def State.busIdle (s : State) (b : Nat) : Bool := s.buses.get (fun _ => 0) b == 0 && !s.hearthBus b

/-- This chip gives up its buses, one that is busy at its next idle (R340). -/
def State.busGive (s : State) : State :=
  let s1 := (List.range 8).foldl (fun s b => if s.busIdle b then s.setBit (HPT_BUSST_MASTER b) false else s) s
  s1.setTwin { s1.twin with busIn := 0, busOut := portMask ((List.range 8).filter (fun b => s1.on (HPT_BUSST_MASTER b))) }

/-- Bus `b` is idle: what was to change hands there does. -/
def State.busTurn (s : State) (b : Nat) : State :=
  let clear := fun (m : Nat) => if bitAt m b then m - 2 ^ b else m
  let s1 := if bitAt s.twin.busIn b then s.setBit (HPT_BUSST_MASTER b) true
    else if bitAt s.twin.busOut b && s.busIdle b then s.setBit (HPT_BUSST_MASTER b) false else s
  if bitAt s.twin.busIn b || s.busIdle b then s1.setTwin { s1.twin with busIn := clear s1.twin.busIn, busOut := clear s1.twin.busOut } else s1

/-- The timer that runs since head `h` was last read (R200). -/
def tmTemp (h : Nat) : Nat := 2000 + h

/-! ### Agreements (R326, R327) -/

def puEMBER : Nat := 1
def puPORTOUT : Nat := 2
def puPORTIN : Nat := 3
def puRELOAD : Nat := 4
def puRETURN : Nat := 5

def maskPorts (m : Nat) : List Nat := (List.range 64).filter (fun p => bitAt m p)

/-- This chip's proposal for a set of ports: the lowest line that none of them has screened, plus AGLEAD (R326). -/
def State.proposal (s : State) (m : Nat) : Nat := ((maskPorts m).map (fun p => (s.head p).screen)).foldl max 0 + s.polAGLEAD

/-- No line at or beyond an open proposal is screened on its ports (R326). -/
def State.proposed (s : State) (p l : Nat) : Bool := s.twin.agrees.any (fun g => !g.done && bitAt g.mask p && decide (g.prop ≤ l))

/-- Start an agreement, unless the same one is open. -/
def State.propose (s : State) (purpose mask arg : Nat) : State :=
  if s.twin.agrees.any (fun g => !g.done && g.purpose == purpose && g.arg == arg) then s
  else
    let p := s.proposal mask
    let s1 := s.twinSend 0x10 [purpose, mask, p, arg]
    s1.setTwin { s1.twin with agrees := s1.twin.agrees ++ [⟨purpose, mask, p, arg, s1.clk, false⟩] }

/-- Entry `n` is written back from its shadow copy as a change at line `l` (R168); a copy that is found marked is consumed, and the entry is
queued (R386). -/
def State.reloadAt (s : State) (l n : Nat) : State :=
  let s1 := s.stagingRead n
  if (s1.shadow n).poison then s1.ashUsed.queueMarked n else s1.portPut .reload (entRecord l n (s1.shadow n).out.1) none

/-- Both chips act at agreed line `a`. For a port-out the argument is the port plus 64 times what keeps it out; for a
reload it is the entry. -/
def State.agreed (s : State) (purpose a arg : Nat) : State :=
  let s1 := s.setReg TWN_AGREE (BitVec.ofNat 32 a)
  if purpose = puEMBER then { s1 with kiln := { s1.kiln with burst := s1.kiln.burst ++ [a] } }
  else if purpose = puPORTOUT then s1.portOutFrom (arg % 64) a (arg / 64)
  else if purpose = puPORTIN then s1.portOutTo (arg % 64) a (arg / 64)
  else if purpose = puRELOAD then
    s1.reloadAt a arg
  else if purpose = puRETURN then s1.setTwin { s1.twin with ret := some a, moved := 0 }
  else s1

/-- The ports of a port-out agreement: the port and those that share its columns. -/
def State.outMask (s : State) (p : Nat) : Nat := portMask (s.sharers p)

/-- A port-out begins: on an ACTIVE chip of a pair at an agreed line, on a solo chip at R236's line. -/
def State.beginOut (s : State) (p bit : Nat) : State :=
  if s.role = roACTIVE then s.propose puPORTOUT (s.outMask p) (p + 64 * bit) else s.portOutFrom p (s.outLine p) bit

/-- A port-out ends (R192, R236). -/
def State.endOut (s : State) (p bit : Nat) : State :=
  if s.role = roACTIVE then s.propose puPORTIN (s.outMask p) (p + 64 * bit)
  else s.portOutTo p (s.outLine p + s.fld NZT_CTL_LEAD) bit

/-! ### Chain-return action (R192) -/

/-- HPT_RETST.FAULT is set, and HPT_RETCFG.ACTION applies. -/
def State.retFault (s : State) (h : Nat) : State :=
  let s1 := s.setOn (HPT_RETST_FAULT h)
  let act := s.fld (HPT_RETCFG_ACTION h)
  if act = 1 ∧ s.on KLN_CTL_LAYOUT then s1.beginOut h 2
  else if act = 2 ∧ s.armed then s1.raiseCause 2 else s1

/-- RUN has reached LIMIT, and FAULT is not yet set. -/
def State.retLimit (s : State) (h : Nat) : Bool :=
  decide (s.fld (HPT_RETCFG_LIMIT h) ≤ s.fld (HPT_RETST_RUN h)) && !s.on (HPT_RETST_FAULT h)

/-! ### Going OUT, and what the other chip asks for -/

/-- The ports of live head units as a mask. -/
def State.liveMask (s : State) : Nat := portMask s.liveHeads

/-- The link is down (R318); it comes up again when HELLO frames have passed in both directions. -/
def State.linkDown (s : State) : State :=
  ((s.setFld TWN_LINKST_UP 0).setFld TWN_STATE_LINK 0).setTwin { s.twin with unacked := [], unbroken := false, helloTx := false, helloRx := false }

/-- The chip releases its drivers, tells the partner, and goes to OUT (R317, R333). -/
def State.goOut (s : State) : State :=
  let s0 := (s.allPorts 0).busMastery false
  let s1 := s0.twinSend 0x18 [s0.offMask]
  let s2 := (s1.setFld TWN_STATE_ROLE roOUT).setTwin { s1.twin with mast := false, take := false, wait_ := false, ret := none }
  (s2.setDriven 64 false).trnShow

/-! ### Divergence (R332) -/

/-- Record a divergence of kind `k` on line `l` of port `p`. -/
def State.noteDiv (s : State) (p l k : Nat) : State :=
  let s1 := (((s.countReg TWN_DIVCNT 1).setReg TWN_GOODRUN 0#32).setOn TWN_STATE_DIV).alarm alTWINDIV
  let s2 := if s1.twin.suspect then s1 else s1.setTwin { s1.twin with suspect := true, divLine := l }
  if s2.on TWN_DIVINFO_VALID then s2
  else (s2.setReg TWN_DIVINFO (BitVec.ofNat 32 (p + 256 * k + 2 ^ 31))).setReg TWN_DIVLINE (BitVec.ofNat 32 l)

/-- A divergence that asks for an Ember burst on both chips. -/
def State.emberDiv (s : State) : State :=
  let s1 := (s.setTwin { s.twin with divOpen := true }).propose puEMBER s.liveMask 0
  if s1.polDIVSTOP && s1.role == roACTIVE && s1.armed then s1.raiseCause 5 else s1

/-- NORET or CHAIN on one chip only: `own` says that it is this chip. -/
def State.rxDiv (s : State) (p : Nat) (own : Bool) : State :=
  if !own then s
  else if s.role = roSTANDBY then s.setTwin { s.twin with rxBad := s.twin.rxBad ||| 2 ^ p }
  else if s.role = roACTIVE ∧ s.retLimit p then (s.setOn (HPT_RETST_FAULT p)).goOut
  else s

/-- What a divergence of kind `k` on port `p` brings: 0 ASH, 1 SIG, 2 RET, 3 RX, 4 LINK. -/
def State.divAct (s : State) (p k : Nat) (own : Bool) : State :=
  if k = 1 ∨ k = 2 then s.emberDiv
  else if k = 3 then s.rxDiv p own
  else if k = 4 then (if s.role = roACTIVE ∧ s.retLimit p then s.retFault p else s)
  else s

/-- Line `l` of port `p` diverges by the row of kind `k`. The first row that applies classifies a port-line, which counts once: one
that diverges already is taken again only by an earlier row (R332; DEDUCED, log entry 82). -/
def State.diverge (s : State) (p l k : Nat) (own : Bool) : State :=
  let x := s.tline p l
  let k := if x.ash || x.pash then 0 else k
  let s1 := s.modTline p l (fun x => { x with kind := some k })
  match x.kind with
  | none => (s1.noteDiv p l k).divAct p k own
  | some j => if k < j then s1.divAct p k own else s

/-- A class is NORET or CHAIN. -/
def rxClass (c : Nat) : Bool := c == 1 || c == 2

/-- The kind of divergence of two return classes (R193, R332), none where both are OK. -/
def clsKind (a b : Nat) : Option Nat :=
  if a = 0 ∧ b = 0 then none
  else if rxClass a && rxClass b || a == 3 && b == 3 then some 4
  else if rxClass a || rxClass b then some 3
  else some 2

/-- Does a port-line agree wholly? -/
def TLine.agrees (x : TLine) : Bool := x.sigs && x.clss && x.sig == x.psig && x.cls == some 0 && x.pcls == some 0

/-- A port-line on which all has been compared joins the good run, now or when its line counts on the lead head (R331). -/
def State.goodLine (s : State) (p l : Nat) : State :=
  if (s.tline p l).agrees then
    let past := match s.leadHead l with | some h => decide (l < (s.head h).next) | none => true
    if past then s.countReg TWN_GOODRUN 1 else s.modTline p l (fun x => { x with good := true })
  else s

/-- Compare the signatures of line `l` of port `p` once both are held (R331). -/
def State.compareSig (s : State) (p l : Nat) : State :=
  let x := s.tline p l
  match x.sig, x.psig with
  | some a, some b =>
    if x.sigs then s
    else
      let s1 := s.modTline p l (fun x => { x with sigs := true })
      if a = b then s1.goodLine p l else s1.diverge p l 1 false
  | _, _ => s

/-- Compare the return classes of line `l` of port `p` once both are held (R193, R331). -/
def State.compareCls (s : State) (p l : Nat) : State :=
  let x := s.tline p l
  match x.cls, x.pcls with
  | some a, some b =>
    if x.clss then s
    else
      let s1 := s.modTline p l (fun x => { x with clss := true })
      match clsKind a b with
      | none => s1.goodLine p l
      | some k => s1.diverge p l k (rxClass a)
  | _, _ => s

/-! ### Kiln's part: signatures and Ember results -/

/-- Kiln has screened line `l` of port `p` with signature `sig` (R319, R331). -/
def State.twinScreened (s : State) (p l : Nat) (sig : Word) (ash : Bool) : State :=
  if s.twinOn && (s.role == roSTANDBY || s.role == roACTIVE) then
    ((s.pushEntry ⟨1, p, 0, l, sig, b2n (s.heldAt p l) + 4 * b2n ash, 0⟩).modTline p l (fun x => { x with sig := some sig, ash := x.ash || ash })).compareSig p l
  else s

/-- The lines that the outgoing chip fired from the first divergent line on are suspect (R338). -/
def State.noteSuspect (s : State) : State :=
  if !s.twin.suspect then s
  else
    let l := s.twin.divLine
    let top := (s.liveHeads.map (fun h => (s.head h).next)).foldl max l
    ((s.setReg TWN_SUSPLO (BitVec.ofNat 32 l)).setReg TWN_SUSPHI (BitVec.ofNat 32 (l / 2 ^ 32 % 256))).setReg TWN_SUSPN
      (BitVec.ofNat 32 (min (top - l) (2 ^ 32 - 1)))

/-- With RSTPART the chip that remains asks the one that goes OUT to reset, once (R333). -/
def State.askReset (s : State) : State :=
  if s.polRSTPART && !s.twin.rstSent && s.on TWN_LINKST_UP then (s.twinSend 0x19 []).setTwin { (s.twinSend 0x19 []).twin with rstSent := true } else s

/-- A verdict (R333): 1 ACTFAIL, 2 SBFAIL, 3 BOTHFAIL, 4 INPUT. -/
def State.verdict (s : State) (v : Nat) : State :=
  let s1 := (s.setFld TWN_DIVINFO_VERDICT v).setTwin { s.twin with divOpen := false }
  let act := s.role == roACTIVE
  if v = 1 then
    (if act then s1.noteSuspect.goOut else s1.noteSuspect.setTwin { s1.twin with wait_ := true, failed := true })
  else if v = 2 then
    (if act then s1.askReset else s1.goOut)
  else if v = 3 then
    let s2 := s1.noteSuspect.setOn TWN_STATE_BOTHFAIL
    if act && s2.polBOTHSTOP && s2.armed then (s2.setTwin { s2.twin with holdTwin := true }).raiseCause 5 else s2
  else if act then s1 else s1.setTwin { s1.twin with input := true }

/-- Judge one slot or burst whose results both chips have given, own and partner's, vector by vector: a vector counts where both have
compared it, and the first one on which a chip fails gives the verdict (R333; DEDUCED, log entry 82). -/
def State.judgeEmber (s : State) (own other : EmbRes) : State :=
  let both := own.cmp &&& other.cmp
  let act := s.role == roACTIVE
  match (List.range 16).find? (fun v => bitAt ((own.fail ||| other.fail) &&& both) v) with
  | some v =>
    if bitAt own.fail v && bitAt other.fail v then s.verdict 3
    else if bitAt own.fail v then s.verdict (if act then 1 else 2)
    else s.verdict (if act then 2 else 1)
  | none => if own.burst && s.twin.divOpen then s.verdict 4 else s

/-- Take the first result of line `l` out of a list, which holds the slot of a line before its burst. -/
def embTake (l : Nat) : List EmbRes → Option (EmbRes × List EmbRes)
  | [] => none
  | r :: rs => if r.line = l then some (r, rs) else (embTake l rs).map (fun p => (p.1, r :: p.2))

/-- The latest 32 results. -/
def embAdd (rs : List EmbRes) (r : EmbRes) : List EmbRes := (rs ++ [r]).drop (rs.length + 1 - 32)

/-- An own Ember result: told to the partner, and judged once the partner's for that line is held (R333). -/
def State.emberTwin (s : State) (r : EmbRes) : State :=
  if s.twinOn && (s.role == roSTANDBY || s.role == roACTIVE) then
    let s1 := s.twinSend 0x12 [r.line, r.cmp, r.fail]
    match embTake r.line s1.twin.pemb with
    | some x => (s1.setTwin { s1.twin with pemb := x.2 }).judgeEmber r x.1
    | none => s1.setTwin { s1.twin with emb := embAdd s1.twin.emb r }
  else s

/-! ### Readiness (R334) -/

/-- Every port of every live head unit has aligned (R329) and hears its returns. -/
def State.allAligned (s : State) : Bool :=
  s.twin.rxBad == 0 && s.liveHeads.all (fun h => (s.head h).mline.isSome && s.on (HPT_RETDLY_MLOCK h))

/-- A line of some port was passed unscreened within its latest 4,096 lines. -/
def State.skipNear (s : State) : Bool := s.twin.skipAt.any (fun k => k.2 != 0 && decide ((s.head k.1).next < k.2 - 1 + 4096))

/-- The first condition of readiness that a STANDBY does not meet, 0 for none. -/
def State.notReady (s : State) : Nat :=
  if !s.on TWN_LINKST_UP then nrLINK
  else if s.on TWN_STATE_CFGDIFF then nrCFG
  else if !s.allAligned then nrALIGN
  else if s.skipNear then nrSKIP
  else if s.twin.input then nrDIV
  else if s.liveHeads.any (fun h => !s.on (HPT_HSTAT_TRAINED h)) then nrNOTRAIN
  else if s.on TWN_STATE_STRAPDUP then nrSTRAP
  else if !s.armed || !s.twin.parmed then nrNOJOB
  else 0

/-- Show whether the two digests differ, and readiness (R324, R334). -/
def State.readyShow (s : State) : State :=
  if !s.twinOn then s
  else
    let diff := s.armed && s.twin.parmed && s.twin.digest && s.reg TWN_CFGCRC != s.reg TWN_PCFGCRC
    let s0 := if s.twin.input && decide (4096 ≤ (s.reg TWN_GOODRUN).toNat) then s.setTwin { s.twin with input := false } else s
    let s1 := s0.setBit TWN_STATE_CFGDIFF diff
    let r := if s1.role = roSTANDBY then s1.notReady
      else if (s1.role = roINIT ∨ s1.role = roPRIME) ∧ s1.on TWN_STATE_STRAPDUP then nrSTRAP else nrROLE
    (s1.setFld TWN_STATE_NRREASON r).setBit TWN_STATE_READY (r == 0)

/-- Port `h` watches the other chip drive its head: in MONITOR on a STANDBY, and on the outgoing chip of a return (R328, R340). -/
def State.watching (s : State) (h : Nat) : Bool :=
  s.fld (HPT_CTL_MODE h) == 2 && (s.role == roSTANDBY || s.role == roACTIVE && s.twin.ret.isSome)

end Sys2Proof.Machine
end

