-- ==== Sys2Proof/Machine/EmberOps.lean ====
section
/-! DEFINITION. Kiln's stages 2 to 5 (R128 to R131), the line image (R143), the marks of curves and matrices (R386), and Ember
vectors (R144 to R147). -/

namespace Sys2Proof.Machine

/-- A value with a mark. -/
abbrev Mk := Nat × Bool

/-! ### Stages 2 to 5 -/

/-- Stage 2 in single coverage (R128). A marked neighbour counts as used only where the flag toward it is set (DEDUCED, log entry 41). -/
def substWindow (subw : Nat) (left right : Bool) (cl c cr : Mk) : Mk :=
  (min 255 ((16 * c.1 + subw * (b2n left * cl.1 + b2n right * cr.1) + 8) / 16),
   c.2 || (left && cl.2) || (right && cr.2))

/-- Stage 4 (R129). -/
def densityTrim (t : Nat) (tr : Int) : Nat := min 4095 (((t : Int) * (256 + tr) + 128) / 256).toNat

/-- Stage 5 (R131). -/
def dropLevel (u t1 t2 t3 : Nat) : Nat :=
  if 16 * t3 + 8 ≤ u then 3 else if 16 * t2 + 8 ≤ u then 2 else if 16 * t1 + 8 ≤ u then 1 else 0

/-- The cell of matrix `m` for line `l` and column `k` with the screening phase (R130), and its mark. -/
def State.cellAt (s : State) (m row col : Nat) : Nat × Nat × Nat × Bool :=
  let o := cellOff m row col
  let a := s.mtxByte o
  let b := s.mtxByte (o + 1)
  let c := s.mtxByte (o + 2)
  (a.1, b.1, c.1, a.2 || b.2 || c.2)

/-! ### The line image (R143) -/

/-- Four levels in a byte. -/
def packLevels : List Nat → List Byte
  | a :: b :: c :: d :: l => BitVec.ofNat 8 (a + 4 * b + 16 * c + 64 * d) :: packLevels l
  | _ => []

/-! ### Marked curves and matrices (R142, R386) -/

/-- Curve `q` needs reloading (R386). -/
def State.curveMarked (s : State) (q : Nat) : State :=
  if q < 32 then s.setReg ECC_RELCURLO (putBits (s.reg ECC_RELCURLO) q 1 1)
  else s.setReg ECC_RELCURHI (putBits (s.reg ECC_RELCURHI) (q - 32) 1 1)

/-! ### Ember vectors (R144 to R147) -/

/-- Virtual nozzle `j` of vector `v`, with curve banks as port `p` uses them on line `l` (R145): its level, the curve whose entry
was marked, and whether its matrix cell was. -/
def State.emberNozzle (s : State) (v p l j : Nat) : Nat × Option Nat × Bool :=
  let c := fun (i : Int) => if 0 ≤ i ∧ i < 2048 then ((i.toNat * (2 * v + 1) + 37 * v) % 256, false) else ((0, false) : Mk)
  let pm := j % 4
  let c1 := substWindow 8 (bitAt pm 0) (bitAt pm 1) (c (j - 1)) (c j) (c (j + 1))
  let q := (j + v) % 64
  let t := s.curveAt q (s.curveBank q p l) c1.1
  let u := densityTrim t.1 (((7 * j + v) % 512 : Nat) - 256)
  let dm := s.mtxDim (v % 4)
  let cell := s.cellAt (v % 4) ((16 * v) % dm) (j % dm)
  (if j % 32 = 31 || t.2 || cell.2.2.2 then 0 else dropLevel u cell.1 cell.2.1 cell.2.2.1, if t.2 then some q else none, cell.2.2.2)

/-- The level of virtual nozzle `j`. -/
def State.emberLevel (s : State) (v p l j : Nat) : Nat := (s.emberNozzle v p l j).1

/-- The signature of vector `v`. -/
def State.emberSig (s : State) (v p l : Nat) : Word := crc32 (packLevels ((List.range 2048).map (fun j => s.emberLevel v p l j)))

/-- Does vector `v` fail after line `l` of port `p` (R146)? none where it has no golden word, or no firmware runs (R405). -/
def State.emberFails (s : State) (v p l : Nat) : Option Bool :=
  if s.firmwareOn && bitAt (s.fld KLN_EMBCTL_GOLDVAL) v then some (s.goldenSig v != some (s.emberSig v p l)) else none

/-- The results of vectors `vs` after line `l` of port `p`, as the chips of a pair exchange them (R333). -/
def State.emberRes (s : State) (vs : List Nat) (p l : Nat) (burst : Bool) : EmbRes :=
  { line := l, burst := burst
    cmp := portMask (vs.filter (fun v => (s.emberFails v p l).isSome))
    fail := portMask (vs.filter (fun v => s.emberFails v p l == some true)) }

/-- Vector `v` consumes marked curve entries and matrix cells as a screened line does: each is counted, and its curve or matrix
flagged for reload (R142, R386). -/
def State.emberMarks (s : State) (v p l : Nat) : State :=
  let ns := (List.range 2048).map (fun j => (s.emberNozzle v p l j).2)
  let n := (ns.map (fun x => b2n x.1.isSome + b2n x.2)).foldl (· + ·) 0
  let s1 := if 0 < n then (s.countReg ECC_ASHCNT n).alarm alECCUNC else s
  let s2 := ns.foldl (fun s x => match x.1 with | some q => s.curveMarked q | none => s) s1
  if ns.any (fun x => x.2) then s2.setReg ECC_RELMTX (putBits (s2.reg ECC_RELMTX) (v % 4) 1 1) else s2

/-- Kiln has read curve words `cs` and matrix words `ms`: what is wrong with one is found, counted and handled there (R384). -/
def State.kilnReads (s : State) (cs ms : List Nat) : State :=
  let s1 := ((s.tabs.curves.filter (fun kv => (kv.2.unc || kv.2.cor) && cs.contains kv.1)).map (·.1)).foldl
    (fun s k => s.regionTouch rgCURVE k) s
  ((s.tabs.mtx.filter (fun kv => (kv.2.unc || kv.2.cor) && ms.contains kv.1)).map (·.1)).foldl (fun s k => s.regionTouch rgMATRIX k) s1

/-- The curve and matrix words that virtual nozzle `j` of vector `v` reads. -/
def State.emberWords (s : State) (v p l j : Nat) : Nat × List Nat :=
  let c := fun (i : Int) => if 0 ≤ i ∧ i < 2048 then ((i.toNat * (2 * v + 1) + 37 * v) % 256, false) else ((0, false) : Mk)
  let c1 := substWindow 8 (bitAt (j % 4) 0) (bitAt (j % 4) 1) (c (j - 1)) (c j) (c (j + 1))
  let q := (j + v) % 64
  let dm := s.mtxDim (v % 4)
  let o := cellOff (v % 4) ((16 * v) % dm) (j % dm)
  (curveKey q (s.curveBank q p l) (c1.1 / 4), [o / 8, (o + 2) / 8])

/-- What vector `v` reads after line `l` of port `p`. -/
def State.emberReads (s : State) (v p l : Nat) : State :=
  let ws := (List.range 2048).map (fun j => s.emberWords v p l j)
  s.kilnReads (ws.map (·.1)) (ws.map (·.2)).flatten

/-- Run vector `v` after line `l` of port `p` (R146). Without running firmware it is compared with nothing (R405). -/
def State.emberRun (s : State) (v p l : Nat) : State :=
  let s0 := (s.emberReads v p l).emberMarks v p l
  let s1 : State := { s0 with kiln := { s0.kiln with busy := s0.kiln.busy + 16 } }
  if !s1.firmwareOn || !bitAt (s1.fld KLN_EMBCTL_GOLDVAL) v then s1
  else if s1.goldenSig v = some (s1.emberSig v p l) then s1.countReg KLN_EMBPASS 1
  else
    ((((s1.setOn KLN_EMBSTAT_FAIL).count KLN_EMBSTAT_FAILS 1).setFld KLN_EMBSTAT_LASTVEC v).setReg KLN_EMBLINE
      (BitVec.ofNat 32 l))

/-- Is line `l` an Ember line (R144)? -/
def State.emberLine (s : State) (l : Nat) : Bool := s.on KLN_EMBCTL_EN && decide (l % 2 ^ s.fld KLN_EMBCTL_PER = 0)

/-- A burst may run after line `l` (R147): none in the 256 lines before. -/
def State.burstFree (s : State) (l : Nat) : Bool :=
  match s.kiln.last with
  | some m => decide (m + 256 ≤ l)
  | none => true

/-- All 16 vectors, after line `l` of port `p`. Bursts agreed for later lines still stand; those due by now have merged into this one
(R147). -/
def State.emberBurst (s : State) (p l : Nat) : State :=
  let s1 := ((List.range 16).foldl (fun s v => s.emberRun v p l) s).emberTwin (s.emberRes (List.range 16) p l true)
  { s1 with kiln := { s1.kiln with want := false, burst := s1.kiln.burst.filter (fun b => decide (l < b)), last := some l } }

/-- One vector in its regular slot, after line `l` of port `p`. -/
def State.emberSlot (s : State) (v p l : Nat) : State := (s.emberRun v p l).emberTwin (s.emberRes [v] p l false)

/-- The Ember vector and the burst that follow the screening of line `l` of port `p` (R144, R147). -/
def State.emberAfter (s : State) (p l : Nat) : State :=
  let lead := s.leadHead l == some p
  let s1 := if s.emberLine l && lead then s.emberSlot ((l / 2 ^ s.fld KLN_EMBCTL_PER) % 16) p l else s
  let agreed := lead && s1.kiln.burst.any (fun b => decide (b ≤ l))
  if (s1.kiln.want || agreed) && s1.burstFree l then s1.emberBurst p l else s1

/-- Head `p` is no longer data late once Kiln has screened the late line (R119). -/
def State.lateOver (s : State) (p l : Nat) : State :=
  match (s.head p).late with
  | some m => if m ≤ l then s.modHead p (fun x => { x with late := none }) else s
  | none => s

/-- Hearth firmware writes one copy of golden word `g`: the vector is valid while two copies agree (R146, R392). -/
def State.goldWrite (s : State) (a g : Nat) (m v : Word) : State :=
  let s1 := s.setReg a ((s.reg a &&& ~~~m) ||| (v &&& m))
  let s2 := s1.tripCheck (tripBitGold g) (s1.reg (ECC_GOLD0 g)) (s1.reg (ECC_GOLD1 g)) (s1.reg (ECC_GOLD2 g))
  (s2.setReg KLN_EMBCTL (putBits (s2.reg KLN_EMBCTL) (16 + g) 1 (b2n (s2.goldenSig g).isSome))).goldTasks

/-- Hearth firmware writes golden word `v`: its three copies in turn (R392). -/
def State.putGold (s : State) (v : Nat) (g : Word) : State :=
  let w := fun (s : State) (a : Nat) => s.goldWrite a v 0xFFFFFFFF#32 g
  w (w (w s (ECC_GOLD0 v)) (ECC_GOLD1 v)) (ECC_GOLD2 v)

/-- Firmware recomputes golden word `v` from the curves and matrices in effect for the line that the Ember slot follows (R146, R399). -/
def State.recompute (s : State) (v : Nat) : State :=
  let p := (s.leadHead 0).getD 0
  s.putGold v (s.emberSig v p (s.head p).screen)

/-- Firmware recomputes the oldest `n` of the cleared golden words (R399). -/
def State.serveGold (s : State) (n : Nat) : State :=
  (((s.svc.tasks.filter (fun k => k.1 == 1)).take n).map (·.2)).foldl (fun s v => s.recompute v) s

end Sys2Proof.Machine
end

