-- ==== Sys2Proof/Machine/LineOps.lean ====
section
/-! DEFINITION. A line of a head unit passes and counts as fired (R15, R37, R235), and the placing of FIRE (R230 to R233). -/

namespace Sys2Proof.Machine

/-! ### Twin pairs: what a counted line tells the partner (R319, R331, R340) -/

/-- TB0 at core clock `i`. -/
def State.tb0At (s : State) (i : Nat) : Word := BitVec.ofNat 32 (unsign 56 ((s.tbAcc 0 : Int) - s.tbInc 0 * (s.clk - i : Nat)) / 2 ^ 24)

/-- The FIRED entry of line `l` of a driving port: with the class of the return of the line before (R319). -/
def State.firedEntry (s : State) (h l i : Nat) (nofire : Bool) : State :=
  if s.drives h && s.enAt h l then
    let cls := (s.tline h (l - 1)).cls.getD 0
    s.pushEntry ⟨2, h, cls, l, s.tb0At i, b2n (s.heldAt h l) + 2 * b2n nofire + 4 * b2n (s.tline h l).ash, 0⟩
  else s

/-- On a return, the port of head `h` goes to the other chip after the first line at or after the one before line A that
gave a FIRE pulse; mastership goes at line A on the lead head (R340). -/
def State.returnStep (s : State) (h l : Nat) (pulsed : Bool) : State :=
  match s.twin.ret with
  | none => s
  | some a =>
    let s1 := if decide (a ≤ l + 1) && pulsed && (s.head h).mode.isNone then
        (if s.drives h && s.role == roACTIVE then s.modHead h (fun x => { x with mode := some 2, modeTw := true })
         else if s.fld (HPT_CTL_MODE h) == 2 && s.role == roSTANDBY then s.modHead h (fun x => { x with mode := some 1, modeTw := true })
         else s) else s
    if l == a && s.leadHead l == some h then
      ((s1.setTwin { s1.twin with mast := s.role == roSTANDBY }).setDriven 64 (s.role == roSTANDBY && s.on TRN_CTL_MASTER)).trnShow else s1

/-- What the twin logic does when line `l` of head `h` counts as fired at instant `i`. -/
def State.twinCounted (s : State) (h l i : Nat) (nofire : Bool) : State :=
  if !s.twinOn then s
  else
    let pulsed := match (s.head h).pulse with | some (m, _) => m == l | none => false
    let s1 := (s.firedEntry h l i nofire).returnStep h l pulsed
    let s2 := if s1.leadHead l == some h then s1.countGood l else s1
    s2.dropLines h (l + 1)

/-- Line `l` and its image join the latest lines of a port in MONITOR (R176). -/
def pastWith (l : Nat) (stag : List Staged) (past : List (Nat × List Byte)) : List (Nat × List Byte) :=
  match stag.find? (fun g => g.line == l) with
  | some g => ((l, g.image) :: past).take 8
  | none => past

/-- Line `l` joins the stretches of lines that a head has passed unscreened, oldest first. -/
def addLine (l : Nat) : List (Nat × Nat) → List (Nat × Nat)
  | [] => [(l, l + 1)]
  | [r] => if r.2 = l then [(r.1, l + 1)] else [r, (l, l + 1)]
  | r :: rs => r :: addLine l rs

/-- KLN_SIG and KLN_SIGLINE show line `l` of port `h`, which fires (R143). -/
def State.showSig (s : State) (h l : Nat) : State :=
  match (s.head h).stag.find? (fun g => g.line == l) with
  | some g => (s.setReg (KLN_SIG h) g.sig).setReg (KLN_SIGLINE h) (BitVec.ofNat 32 l)
  | none => s

/-- Staging keeps what has still to fire or to be shifted (R137). -/
def Head.stagKeep (x : Head) : Head := { x with stag := x.stag.filter (fun g => decide (min x.prints x.bnext ≤ g.line)) }

/-- Line `l` of head `h` passes for the rules that act when a port screens a line: an enabled one passes unscreened, and a
disabled one counts as screened (R440). -/
def State.passedBy (s : State) (h l : Nat) : State :=
  if l < (s.head h).screen then s
  else if s.enAt h l then (s.modHead h (fun x => { x with unscr := addLine l x.unscr })).passed h l
  else ((s.passed h l).lateOver h l).emberAfter h l

/-- The freeze that a hot unit's splice line fixes falls as that line of head `h` passes, fired or not (R252). -/
def State.hotFreeze (s : State) (h l : Nat) : State :=
  if s.splice.hot.any (fun p => p.1 == h && decide (p.2 ≤ l)) then
    s.setSplice { s.splice with taken := s.splice.taken &&& 125, hot := s.splice.hot.filter (fun p => p.1 != h) }
  else s

/-! ### The over-limit state (R200, R236) -/

def State.thermBit (s : State) (h : Nat) (b : Bool) : State :=
  if h < 32 then s.setReg HPT_THERMLO (putBits (s.reg HPT_THERMLO) h 1 (b2n b))
  else s.setReg HPT_THERMHI (putBits (s.reg HPT_THERMHI) (h - 32) 1 (b2n b))

/-- The effective thermal limit of head `h` and its latest reading, both in 1/256 degree. -/
def State.tempLimit (s : State) (h : Nat) : Int := 256 * ((s.effAt h (s.head h).next).tl : Int)
def State.tempNow (s : State) (h : Nat) : Int := signed 16 (s.fld (HPT_TEMP_TEMP h))

/-- Head `h` is above its limit (R200). -/
def State.tooHot (s : State) (h : Nat) : Bool :=
  decide (s.tempLimit h < s.tempNow h) || s.on (HPT_TEMP_HOT h) || (s.on HPT_TCFG_STALEACT && s.on (HPT_TEMP_STALE h))

/-- Head `h` may leave its over-limit state (R200). -/
def State.coolAgain (s : State) (h : Nat) : Bool :=
  decide (s.tempNow h ≤ s.tempLimit h - 256 * (s.fld HPT_TCFG_THYST : Int)) && !s.on (HPT_TEMP_HOT h) && !s.on (HPT_TEMP_STALE h)

/-- Head `h` enters or leaves its over-limit state: what shows it (R200). A head that cools before its splice line freezes nothing on its
account (R251, R252; DEDUCED, log entry 65). -/
def State.showOver (s : State) (h : Nat) (b : Bool) : State :=
  let s1 := (((s.modHead h (fun x => { x with hot := b })).setBit (HPT_TEMP_OVER h) b).thermBit h b).alarm alTHERMAL
  if b then s1 else s1.setSplice { s1.splice with hot := s1.splice.hot.filter (fun p => p.1 != h) }

/-- THERM (R236, R252): the splice line of a head that has become too hot is the highest line screened for its port; where that has fired
already, the freeze falls now. While the units stand frozen the cause merges at once (R256). -/
def State.hotSplice (s : State) (h : Nat) : State :=
  let x := s.head h
  let s1 := s.raiseCause 1
  if s1.splice.hold then s1
  else
    match (x.stag.filter (fun g => decide (x.next ≤ g.line))).getLast? with
    | some g => s1.setSplice { s1.splice with taken := s1.splice.taken ||| 2, hot := (h, g.line) :: s1.splice.hot }
    | none => s1.setSplice { s1.splice with taken := s1.splice.taken &&& 125 }

/-- Line firing applies the effective policy of a head that has become too hot (R236). -/
def State.thermEnter (s : State) (h : Nat) : State :=
  let pol := (s.effAt h (s.head h).next).pol
  if !s.isLive h then s
  else if pol = 1 ∧ s.on KLN_CTL_LAYOUT then s.beginOut h 1
  else if pol = 3 ∧ s.armed then s.hotSplice h
  else s.trnShow

/-- The head leaves the state: a port-out ends, and so may the governor's slow-down and the cause (R236, R251). -/
def State.thermLeave (s : State) (h : Nat) : State :=
  let s1 := if bitAt (s.head h).outBy 0 || s.twin.agrees.any (fun g => !g.done && g.purpose == puPORTOUT && g.arg == h + 64) then s.endOut h 1 else s
  s1.causeCheck.trnShow

/-- Head `h` takes over-limit state `b` (R200, R325): the ACTIVE chip of a pair tells the STANDBY. -/
def State.setOver (s : State) (h : Nat) (b : Bool) : State :=
  if (s.head h).hot == b then s
  else
    let s1 := s.showOver h b
    let s2 := if s1.role = roACTIVE then s1.twinSend 0x13 [h, b2n b] else s1
    if b then s2.thermEnter h else s2.thermLeave h

/-- Re-evaluate head `h`. A STANDBY takes its thermal state only from THERM (R325). -/
def State.overCheck (s : State) (h : Nat) : State :=
  if s.role = roSTANDBY then s
  else if (s.head h).hot then (if s.coolAgain h then s.setOver h false else s)
  else if s.tooHot h then s.setOver h true else s

/-- Every head is judged anew: its effective limit may have changed (R33, R200). -/
def State.overAll (s : State) : State := (List.range 64).foldl (fun s h => s.overCheck h) s

/-- The FIRE instant `i` of the next line of head `h` comes: the head's pointer and its shifting go on to the line after, whose
contone must be at hand by now, TRIM-RAMPs of the line start, and its thermal limit is the one of the line after (R35, R39, R42, R118, R177,
R200). -/
def State.linePassed (s : State) (h i : Nat) : State :=
  let x := s.head h
  let l := x.next
  let keep := if s.enAt h l && s.drives h then x.bnext else max x.bnext (l + 1)
  let ended := s.drives h && s.enAt h l && ((match x.fin with | some e => l + 1 == e | none => false) || !s.enAt h (l + 1))
  let s1 := s.setHead h ({ x with
    next := l + 1, fireAt := some i, fireB := x.fireAt, bnext := keep
    past := if s.fld (HPT_CTL_MODE h) = 2 then pastWith l x.stag x.past else x.past
    tileTo := max x.tileTo (l + 1)
    placed := x.placed.filter (fun p => decide (l < p.1))
    urline := if x.urline = some l then none else x.urline
    flush := x.flush || ended } : Head).stagKeep
  ((((s1.passedBy h l).hotFreeze h l).startRamps h l).dataLate h (l + 1)).overCheck h

/-- Line `l` of head `h`, whose FIRE instant was `i`, counts as fired: the end of a pass, what waits for the line, pulses and completions
(R15, R95, R235, R241); `nofire` says that it was skipped or lost. -/
def State.lineFired (s : State) (h l i : Nat) (nofire : Bool) : State :=
  let s0 := s.modHead h (fun x => { x with any := true })
  let s1 := if s0.passOver then s0.endPass else s0
  let s2 := if s1.splice.active && (s1.head h).resume == some l then s1.setSplice { s1.splice with fired := true } else s1
  let s3 := (s2.putLast h).eventPulses h l
  ((s3.settleLines).trnShow).twinCounted h l i nofire

/-- Head `h` goes past its next line, which counts as fired at instant `i` (R235). -/
def State.lineCountedF (s : State) (h i : Nat) (nofire : Bool) : State :=
  let l := (s.head h).next
  ((s.showSig h l).linePassed h i).lineFired h l i nofire

/-- Line `next` of head `h` counts as fired at instant `i`. -/
def State.lineCounted (s : State) (h i : Nat) : State := s.lineCountedF h i false

/-- The oldest delayed line of head `h` is one no longer, and counts as fired (R15, R235). -/
def State.delayOver (s : State) (h l i : Nat) (nofire : Bool) : State :=
  ((s.showSig h l).modHead h (fun x => ({ x with delay := x.delay.tail } : Head).stagKeep)).lineFired h l i nofire

/-- The lines of head `h` that wait for their delayed FIRE are lost, at most `fuel` of them; their staging goes (R233, R241). -/
def State.loseDelayed (s : State) (h : Nat) : Nat → State
  | 0 => s
  | n + 1 =>
    match (s.head h).delay, s.on PWR_STAT_SAG with
    | (l, i) :: _, false =>
      let s1 := ((s.countReg FIR_LOSTCNT 1).setOn FIR_STATE_LOST).modHead h (fun x => { x with
        stag := x.stag.filter (fun g => g.line != l), bnext := max x.bnext (l + 1) })
      (s1.delayOver h l i true).loseDelayed h n
    | _, _ => s

/-- Line `next` of head `h` passes unfired and is counted as lost (R233, R257, R259); its staging goes. -/
def State.lineLost (s : State) (h i : Nat) : State :=
  let x := s.head h
  let s1 := (s.countReg FIR_LOSTCNT 1).setOn FIR_STATE_LOST
  (s1.setHead h { x with stag := x.stag.filter (fun g => g.line != x.next), bnext := max x.bnext (x.next + 1) }).lineCountedF h i true

/-! ### Placing FIRE (R230 to R232) -/

/-- The freeze of an active cause that has not been merged falls at this core clock (R252); in START no line fires and
nothing freezes. -/
def State.freezeDue (s : State) : Bool :=
  s.armed && s.fld TRN_STATE_SEQ != 1 && (s.fld TRN_CAUSE_ACT &&& (127 - s.splice.taken)) != 0

/-- May lines fire: a job with its origin, in Run, not frozen (R228, R252, R368)? -/
def State.firingOn (s : State) : Bool :=
  s.armed && !s.on FIR_STATE_NOORG && s.fld PWR_STAT_STATE == 0 && !s.splice.hold && !s.freezeDue && !s.on PWR_STAT_SAG

/-- The predicted FIRE instant of a target `dq` ahead, from the edge known now, as a core clock (R230). -/
def State.fInstant (s : State) (dq : Int) : Nat :=
  let den := max 1 ((s.spdK : Int) * s.tbInc 0)
  let num := dq * s.spdSum - (s.fld FIR_ADV_ADV : Int) * den
  max s.clk (((s.clk : Int) - s.kClk + (2 * num + den) / (2 * den)).toNat)

/-- Is the target near enough that no later edge could place it better: F < te + I + K (R230)? -/
def State.fNear (s : State) (dq : Int) : Bool :=
  let den := max 1 ((s.spdK : Int) * s.tbInc 0)
  decide (dq * s.spdSum - (s.fld FIR_ADV_ADV : Int) * den < (s.spdSum : Int) * 2 ^ 24 + s.kClk * den)

/-- Give line `l` its FIRE instant `i`, in the order of lines. -/
def placeLine (l i : Nat) : List (Nat × Nat) → List (Nat × Nat)
  | [] => [(l, i)]
  | p :: ps => if l < p.1 then (l, i) :: p :: ps else if l = p.1 then (l, i) :: ps else p :: placeLine l i ps

/-- The FIRE instant that is placed or predicted for line `l`. -/
def Head.instOf (x : Head) (l : Nat) : Option Nat :=
  match x.placed.find? (fun p => p.1 == l) with
  | some p => some p.2
  | none => match x.pred with | some p => if p.1 = l then some p.2 else none | none => none

/-- The first line of head `h`, whose target is passed, is data late if its contone is missing by now (R229). -/
def State.firstLate (s : State) (h l : Nat) : State := if l = (s.head h).first then s.dataLate h l else s

/-- Place the FIREs of head `h` at a forward edge, line after line, at most `fuel` of them (R230, R231). -/
def State.placeFrom (s : State) (h : Nat) : Nat → Nat → State
  | 0, _ => s
  | n + 1, l =>
    if !(s.head h).before l || !s.inPass l then s
    else
      let dq := s.toGo h l s.pos.t
      let old := (s.head h).placed.find? (fun p => p.1 == l)
      let ok := s.on FIR_CTL_PREDEN && s.spdValid
      if dq ≤ 0 then
        let i := match old with | some p => min p.2 s.clk | none => s.clk
        ((s.modHead h (fun x => { x with placed := placeLine l i x.placed })).firstLate h l).placeFrom h n (l + 1)
      else if !ok then s.modHead h (fun x => { x with pred := none })
      else
        let i := s.fInstant dq
        if old.isSome then s.placeFrom h n (l + 1)
        else if s.fNear dq then
          (s.modHead h (fun x => { x with placed := placeLine l i x.placed })).placeFrom h n (l + 1)
        else s.modHead h (fun x => { x with pred := some (l, i) })

/-- How many lines one edge can place: 2^16 lie within one count at the finest line pitch. -/
def placeFuel : Nat := 2 ^ 17

/-- More lines than a web has (R13): what passes lines ends at the first whose target does not lie at or below H. -/
def lineFuel : Nat := 2 ^ 40

/-- Line `l` of head `h` takes its progress from the chip that drives: the port watches it (R328). A disabled line gives nothing to observe,
and passes with the chip's own position (R36, R37). -/
def State.follows (s : State) (h l : Nat) : Bool := s.watching h && s.enAt h l

/-- Lines of head `h` whose target H has passed are lost while TRUST is clear (R233); a first line is tested for data late too (R229). -/
def State.loseFrom (s : State) (h : Nat) : Nat → State
  | 0 => s
  | n + 1 =>
    let l := (s.head h).next
    if (s.head h).before l && s.inPass l && !s.follows h l && decide (s.toGo h l s.pos.h ≤ 0) then ((s.firstLate h l).lineLost h s.clk).loseFrom h n
    else s

/-- Every FIRE that has not come by now is withdrawn (R232): one whose instant falls in this core clock is not given. -/
def State.withdraw (s : State) : State :=
  s.liveHeads.foldl (fun s h => s.modHead h (fun x => { x with placed := x.placed.filter (fun p => decide (p.2 < s.clk)), pred := none })) s

/-- Line firing learns of a voted edge (R230 to R233). -/
def State.fireEdge (s : State) (rev : Bool) : State :=
  if rev then s.withdraw
  else if !s.firingOn then s
  else if s.pos.ahead ≠ 0 then s
  else if !s.on POS_STATE_TRUST then s.liveHeads.foldl (fun s h => s.loseFrom h lineFuel) s
  else if s.on POS_STATE_REVERSED then s
  else s.liveHeads.foldl (fun s h => s.placeFrom h placeFuel (s.head h).next) s

end Sys2Proof.Machine
end

