-- ==== Sys2Proof/Machine/Firing.lean ====
section
/-! DEFINITION. The firing commands: encoder transitions as line firing meets them, FIRE, the latch deadline,
delayed FIRE and the start of a scan pass (R177 to R179, R205, R230 to R242). -/

namespace Sys2Proof.Machine

open Sys2Proof

/-- A loss of TRUST withdraws the FIREs that are still to come, and during a job it requests the stop of FIR_CTL.TRUSTACT (R232,
R233, R251). -/
def State.trustAct (s0 s : State) : State :=
  if s0.on POS_STATE_TRUST && !s.on POS_STATE_TRUST then
    (if s.armed && s.on FIR_CTL_TRUSTACT then s.withdraw.raiseCause 3 else s.withdraw)
  else s

/-- An accepted change of channel `c` to levels `ab`, known now (R205): the position moves, and line firing places,
loses or withdraws (R230 to R233). -/
def State.encoder (s : State) (c ab : Nat) : State :=
  let s1 := s.transition c ab
  let m := diff48 s1.pos.t s.pos.t
  let s2 := State.trustAct s s1
  (if m = 0 then s2 else s2.fireEdge (decide (s2.pos.sgn * m < 0))).trigSkip

/-- ENCODER_TRANSITION (R205, R206): channel `c` has shown levels `a` and `b.up` on `b.n` samples in a row, and fewer than the filter asks for are
no transition; `t` is when line firing knows of it, FILT + 3 clocks after the pin. -/
def execEncoderTransition (t : Nat) (c : Fin 3) (a : Bool) (b : Level) (s : State) : Out :=
  let s0 := s.advance t
  let s1 := s0.pinsAt c (s0.pos.rawOf c / 4 * 4 + abOf a b.up)
  .next (if b.n.toNat < s1.filtN then s1 else s1.encoder c (abOf a b.up))

/-- RETRUST (R210): TRUST is set again, and with it the cause of its loss ends (R251). -/
def execRetrust (s : State) : Out := .next (s.bar 6 (fun s => s.retrust.causeCheck))

/-! ### FIRE -/

/-- Drive voltage is present: the trim channel stands above 0 and this chip drives it (R179). -/
def State.voltage (s : State) (h : Nat) : Bool :=
  s.fld (TRM_OUT_OUT h) != 0 && s.on (TRM_OUT_DRIVEN h)

/-- Record the first underrun (R234). -/
def State.noteUnderrun (s : State) (h l : Nat) : State :=
  if s.on FIR_URINFO_VALID then s
  else (s.setReg FIR_URINFO (BitVec.ofNat 32 (h + 2 ^ 31))).setReg FIR_URLINE (BitVec.ofNat 32 l)

/-- A line is skipped (R234). -/
def State.skipLine (s : State) (h l : Nat) : State :=
  ((s.countReg FIR_URCNT 1).setOn FIR_STATE_UR).noteUnderrun h l

/-- A FIRE pulse begins on head `h` for line `l` now, unless there is no drive voltage (R179). -/
def State.firePulse (s : State) (h l : Nat) : State :=
  if s.voltage h then s.modHead h (fun x => { x with pulse := some (l, s.clk) })
  else s.countReg (HPT_NOVOLT h) 1

/-- Has the line's LAT ended LATSU before instant `i` (R178)? -/
def State.latched (s : State) (h l i : Nat) : Bool :=
  match (s.head h).lat with
  | some (m, e) => m == l && decide (e + s.fld (HPT_TIME_LATSU h) ≤ i)
  | none => false

/-- A line that gives no pulse whatever its LAT does: disabled, held, or on a port that does not drive (R36, R177, R182). -/
def State.noPulse (s : State) (h l : Nat) : Bool := !s.enAt h l || !s.drives h || s.heldAt h l

/-- Line `l` of head `h` is in underrun at its FIRE instant `i` (R234): reported late (R178), or not latched in time. -/
def State.underrun (s : State) (h l i : Nat) : Bool :=
  !s.noPulse h l && (!s.latched h l i || (s.head h).urline == some l)

/-- The FIRE instant of the line before line `l`, where the port still knows it. -/
def Head.instBefore (x : Head) (l : Nat) : Option Nat := if l = x.next then x.fireAt else if l + 1 = x.next then x.fireB else none

/-- Core clocks of one burst (R172): 516 SCK cycles at 300, 150 or 75 MHz. -/
def State.burstClk (s : State) (h : Nat) : Nat :=
  let r := s.fld (HPT_RATE_RATE h)
  ceilDiv (516 * 4 * 2 ^ r) 3

/-- The earliest core clock at which the LAT of line `l` of head `h` can end (R173, R177): it has ended, its burst runs, or that has
still to begin; none once the port has latched a later line. -/
def State.soonest (s : State) (h l : Nat) : Option Nat :=
  let x := s.head h
  let hold := match x.instBefore l with | some i => i + s.fld (HPT_FIRE_FHOLD h) | none => 0
  let rise := fun e => max (max s.clk (e + 8)) hold + s.fld (HPT_TIME_LATW h)
  match x.lat, x.burst with
  | some (m, e), b => if m = l then some e else if l < m then none
      else (match b with | some (k, f) => some (rise (if k = l then f else max s.clk f + 8 + s.burstClk h)) | none => some (rise (s.clk + s.burstClk h)))
  | none, some (k, f) => some (rise (if k = l then f else max s.clk f + 8 + s.burstClk h))
  | none, none => some (rise (s.clk + s.burstClk h))

/-- Can line `l` of head `h` still be fired within FIR_URMAX of its FIRE instant `i` (R234)? Later it is treated as SKIP, which counts at
the FIRE instant, so the port decides as soon as it knows (R235). -/
def State.delayFits (s : State) (h l i : Nat) : Bool :=
  match s.soonest h l with
  | some e => decide (max s.clk (e + s.fld (HPT_TIME_LATSU h)) ≤ i + s.fld FIR_URMAX_MAX)
  | none => false

/-- The FIRE of the next line `l` of head `h` at its instant `i` (R177, R234): a pulse, none, or none before its delayed FIRE. -/
def State.fireLine (s : State) (h l i : Nat) : State :=
  if s.noPulse h l then s.lineCountedF h i false
  else if !s.underrun h l i then (s.firePulse h l).lineCountedF h i false
  else if s.on FIR_CTL_URPOL && s.delayFits h l i then (s.modHead h (fun x => { x with delay := x.delay ++ [(l, i)] })).linePassed h i
  else (s.skipLine h l).lineCountedF h i true



/-- A placed FIRE instant of head `h` has come. A port that follows the ACTIVE chip counts the lines it observes instead (R328). -/
def State.fire (s : State) (h : Nat) : State :=
  let x := s.head h
  match x.placed with
  | (l, i) :: _ =>
    if x.live && s.firingOn && s.on POS_STATE_TRUST && !s.on POS_STATE_REVERSED && l == x.next &&
        decide (i ≤ s.clk) && x.before l && !s.follows h l then s.fireLine h l i
    else s
  | [] => s



/-- FIRE (R177). -/
def execFire (t : Nat) (h : Fin 64) (s : State) : Out := .next ((s.advance t).fire h)

/-- DELAYED_FIRE (R234): the LAT of the oldest delayed line has ended LATSU ago. One that cannot come within FIR_URMAX is skipped, and a
port that drives no more gives no pulse. In a freeze no line fires (R252), and while firing is suspended no pulse is given: the line waits as
long as its delay permits (R233). A delayed line is recorded in FIR_URINFO with its FIRE or its skip, and one lost before that is not (DEDUCED,
log entry 62). -/
def State.delayedFire (s : State) (h : Nat) : State :=
  match (s.head h).delay with
  | (l, i) :: _ =>
    if !s.firingOn then s
    else if s.noPulse h l then s.delayOver h l i false
    else if !s.delayFits h l i then (s.skipLine h l).delayOver h l i true
    else if s.on POS_STATE_TRUST && !s.on POS_STATE_REVERSED && s.latched h l s.clk && decide (i ≤ s.clk) then
      ((((s.countReg FIR_DLYCNT 1).setOn FIR_STATE_DLY).noteUnderrun h l).firePulse h l).delayOver h l i false
    else s
  | [] => s

def execDelayedFire (t : Nat) (h : Fin 64) (s : State) : Out := .next ((s.advance t).delayedFire h)

/-- LATCH_DEADLINE (R178): when the burst of the next line cannot begin by its deadline, the line is late; a first line without
contone is data late instead (R118, R229). -/
def State.latchDeadline (s : State) (h : Nat) : State :=
  let x := s.head h
  let l := x.next
  let need := s.fld (HPT_TIME_LATSU h) + s.fld (HPT_TIME_LATW h) + s.burstClk h + 8
  match x.instOf l with
  | some i =>
    if x.live && s.firingOn && x.before l && s.inPass l && s.enAt h l && decide (i ≤ s.clk + need) then
      let s1 := s.firstLate h l
      if s.drives h && x.bnext == l && !s.heldAt h l && (s.lateCause h l).isNone then s1.modHead h (fun x => { x with urline := some l })
      else s1
    else s
  | none => s

def execLatchDeadline (t : Nat) (h : Fin 64) (s : State) : Out := .next ((s.advance t).latchDeadline h)

/-! ### Scan passes (R237 to R241) -/

/-- Every line of the pass in progress whose FIRE instant has not come is lost on head `h` (R241); a port that follows the ACTIVE chip counts
the lines that it is told of (R328). -/
def State.losePass (s : State) (h : Nat) : Nat → State
  | 0 => s
  | n + 1 =>
    let l := (s.head h).next
    if !s.on PWR_STAT_SAG && s.inPass l && (s.head h).before l && !s.follows h l then (s.lineLost h s.clk).losePass h n else s

/-- A pass in progress ends early (R241). While the origin is awaited it has no lines to lose (R228). -/
def State.passEarly (s : State) : State :=
  if s.on FIR_STATE_INPASS then
    let n := s.fld FIR_PASSLEN_LINES
    let s1 := if s.on FIR_STATE_NOORG then s else s.liveHeads.foldl (fun s h => (s.loseDelayed h n).losePass h n) s
    ((s1.countReg FIR_PASSERR 1).setOn FIR_STATE_PASSERR).endPass
  else s

/-- A qualified start-of-scan edge starts a printed pass in direction `rev` (R238). FIR_SOSTB0 refers to the moment the level changed
at the pin (R206, R237), which the chip knows of as late as it does of an encoder edge (DEDUCED, log entry 16). -/
def State.passStart (s : State) (rev : Bool) : State :=
  let s1 := s.passEarly
  let s2 := s1.setFir { s1.fir with passT := s1.pos.t }
  let s3 := s2.setPos { s2.pos with h := s2.pos.t, sgn := if rev then -1 else 1, norev := false }
  let s4 := ((s3.setReg FIR_SOSTB0 (s3.tbBefore s3.kClk)).setOn FIR_STATE_INPASS).setBit FIR_STATE_PDIR rev
  let s5 := (s4.setFld POS_STATE_REVERSED 0).setFld FIR_STATE_SUSPR 0
  let s6 := s5.countReg FIR_PASS 1
  if s6.passOver then s6.endPass else s6

/-- An edge of SOS`n` is qualified: the voted direction and DIRS permit it (R237). -/
def State.sosQualified (s : State) (n : Nat) : Bool :=
  s.scan && s.armed && s.on POS_SPEEDST_DIR == (n == 1) &&
  (s.fld FIR_SCANCFG_DIRS == 0 || s.fld FIR_SCANCFG_DIRS == n + 1)

/-- SOS_EDGE (R238): the accepted level of SOS`n` becomes `lvl`; SOSPOL sets the active level. -/
def State.sosEdge (s : State) (n : Nat) (lvl : Bool) : State :=
  let was := bitAt s.fir.sos n
  let s1 := s.setFir { s.fir with sos := s.fir.sos - b2n was * 2 ^ n + b2n lvl * 2 ^ n }
  let active := lvl == !bitAt (s.fld FIR_SCANCFG_SOSPOL) n
  if was != lvl && active && s.sosQualified n then s1.passStart (n == 1) else s1

/-- SOS_EDGE (R237, R238), after `lvl.n` samples in a row of the new level. -/
def execSosEdge (t : Nat) (n : Fin 2) (lvl : Level) (s : State) : Out :=
  let s1 := s.advance t
  .next (if lvl.n.toNat < s1.filtN then s1 else s1.sosEdge n lvl.up)

end Sys2Proof.Machine
end

