-- ==== Sys2Proof/Machine/RetOps.lean ====
section
/-! DEFINITION. Lanes of a burst and their signatures (R174, R176), and the check of a chain return with its records
(R175, R191, R192). -/

namespace Sys2Proof.Machine

open Sys2Proof

/-! ### Lanes -/

/-- Bits 2k+1 and 2k of an image byte, as a lane sends them: the higher bit first. -/
def lanePair (k : Nat) (b : Byte) : Nat := b2n (b.getLsbD (2 * k + 1)) + 2 * b2n (b.getLsbD (2 * k))

/-- The bytes of lane `k`, four image bytes to a byte, of an image whose farthest byte comes first (R174, R176). -/
def laneGroup (k : Nat) : List Byte → List Byte
  | a :: b :: c :: d :: l =>
    BitVec.ofNat 8 (lanePair k a + 4 * lanePair k b + 16 * lanePair k c + 64 * lanePair k d) :: laneGroup k l
  | _ => []

/-- The 1,024 bits of lane `k` of a line image as 128 bytes: lane bit t is bit t mod 8 of byte t div 8. -/
def laneBytes (k : Nat) (image : List Byte) : List Byte := laneGroup k image.reverse

/-- The lane signature (R176). -/
def laneSig (k : Nat) (image : List Byte) : Word := crc32 (laneBytes k image)

/-- An image of zeros. -/
def zeroImage : List Byte := List.replicate 512 0#8

/-- The signature of 1,024 returned bits. -/
def bitsSig (bits : Nat) : Word := crc32 (leBytes 128 bits)

/-! ### The trailer (R175) -/

def trMark (t : Nat) : Nat := bitsOf t 5 3
def trHot (t : Nat) : Bool := bitAt t 2
def trChain (t : Nat) : Nat := bitsOf t 0 2
def trValid (t : Nat) : Bool := trMark t == 5

/-- The class of a return (R191): 0 OK, 1 NORET, 2 CHAIN, 3 DATA. -/
def returnClass (c : Nat) (sig : Word) (bits trailer : Nat) : Nat :=
  if !trValid trailer then 1 else if trChain trailer != c then 2 else if bitsSig bits != sig then 3 else 0

/-- The port's bit in HPT_RETSUMLO or HPT_RETSUMHI. -/
def State.retSum (s : State) (h : Nat) : State :=
  if h < 32 then s.setReg HPT_RETSUMLO (putBits (s.reg HPT_RETSUMLO) h 1 1)
  else s.setReg HPT_RETSUMHI (putBits (s.reg HPT_RETSUMHI) (h - 32) 1 1)

/-- Record a failed check of class `k` on chain `c` of line `l` (R192). -/
def State.retFail (s : State) (h l c k : Nat) : State :=
  let s1 := ((s.countReg (HPT_RETERR h) 1).retSum h).alarm alCHAINRET
  let s2 := s1.setFld (HPT_RETST_LANES h) (s1.fld (HPT_RETST_LANES h) ||| 2 ^ c)
  let s3 := if s2.on (HPT_RETST_VALID h) then s2
    else (((s2.setFld (HPT_RETST_FIRST h) k).setFld (HPT_RETST_LANE h) c).setOn (HPT_RETST_VALID h)).setReg (HPT_RETLINE h)
      (BitVec.ofNat 32 l)
  s3.setFld (HPT_RETST_RUN h) (satAdd 8 (s3.fld (HPT_RETST_RUN h)) 1)

/-- A return of line `l` is checked against chain `c` and signature `sig` (R191, R192). On a solo chip LIMIT failures in a
row act; on a chip of a pair the class goes to the twin logic. -/
def State.checkReturn (s : State) (h l c : Nat) (sig : Word) (bits trailer : Nat) : State :=
  let k := returnClass c sig bits trailer
  let s1 := (s.countReg (HPT_RETCHK h) 1).modHead h (fun x => { x with cls := k })
  let s2 := if k = 0 then s1.setFld (HPT_RETST_RUN h) 0 else s1.retFail h l c k
  if !s2.twinOn then (if k != 0 && s2.retLimit h then s2.retFault h else s2)
  else
    let s3 := if k = 0 then s2.setTwin { s2.twin with rxBad := s2.twin.rxBad &&& (2 ^ 64 - 1 - 2 ^ h) } else s2
    let s4 := if s3.watching h then s3.pushEntry ⟨3, h, k, l, 0#32, b2n (s3.heldAt h l) + 4 * b2n (s3.tline h l).ash, 0⟩ else s3
    (s4.modTline h l (fun x => { x with cls := some k })).compareCls h l

/-- The trailer of a return (R201): a valid one tells the head's own over-temperature flag. -/
def State.noteTrailer (s : State) (h trailer : Nat) : State :=
  let s1 := s.setFld (HPT_TRAILER_TRAILER h) trailer
  if trValid trailer then s1.setBit (HPT_TEMP_HOT h) (trHot trailer) else s1

/-! ### Returns observed in MONITOR (R184, R329) -/

/-- The chip's own image of line `l` of port `h`, once it has screened it. -/
def Head.ownImage (x : Head) (l : Nat) : Option (List Byte) :=
  ((x.past.find? (fun p => p.1 == l)).map (fun p => p.2)).orElse (fun _ => (x.stag.find? (fun g => g.line == l)).map (fun g => g.image))

/-- The returns that were held for line `l` of port `h` are checked, now that the line is screened. -/
def State.checkHeld (s : State) (h l : Nat) (image : List Byte) : State :=
  match (s.head h).retq.find? (fun r => r.1 == l) with
  | some (_, bits, tr) =>
    let c := tr / 256
    (s.modHead h (fun x => { x with retq := x.retq.filter (fun r => r.1 != l) })).checkReturn h l c (laneSig c image) bits (tr % 256)
  | none => s

end Sys2Proof.Machine
end

