-- ==== Sys2Proof/Machine/UnitRows.lean ====
section
/-! DEFINITION. The unit operation records as they come to the front of the table update port (R38 to R41, R438),
and their effect on a member's effective registers (R33, R39). -/

namespace Sys2Proof.Machine

/-- ENABLE (R39). -/
def execEnable (s : State) : Out := .next (s.serveOpIf (fun c => c == 1))

/-- DISABLE (R39). -/
def execDisable (s : State) : Out := .next (s.serveOpIf (fun c => c == 2))

/-- HOLD (R39). -/
def execHold (s : State) : Out := .next (s.serveOpIf (fun c => c == 3))

/-- RELEASE (R39). -/
def execRelease (s : State) : Out := .next (s.serveOpIf (fun c => c == 4))

/-- SET-DELAY (R40): subject to the LIVE limit. -/
def execSetDelay (s : State) : Out := .next (s.serveOpIf (fun c => c == 5))

/-- SET-XOFS (R39). -/
def execSetXofs (s : State) : Out := .next (s.serveOpIf (fun c => c == 6))

/-- SET-DIROFS (R39). -/
def execSetDirofs (s : State) : Out := .next (s.serveOpIf (fun c => c == 7))

/-- SET-POLICY (R40, R437). -/
def execSetPolicy (s : State) : Out := .next (s.serveOpIf (fun c => c == 8))

/-- TRIM-RAMP (R39): its ramp starts on each member as line E counts as fired there. -/
def execTrimRamp (s : State) : Out := .next (s.serveOpIf (fun c => c == 9))

/-- Codes that no record has (R38, R93, R167). -/
def codeReserved (c : Nat) : Bool :=
  c == 0 || (decide (10 ≤ c) && !(c == 0x40 || c == 0x41 || c == 0x44 || c == 0x45 || c == 0x46))

/-- BADOP (R40, R93, R165, R167): a record with a reserved code is refused; a code of 40h to 7Fh is recorded in
NZT_ERR, any other in UNT_ERR. -/
def State.serveBadop (s : State) : State :=
  match s.portQ with
  | r :: _ =>
    if codeReserved (rCode r.bytes) then
      (if 0x40 ≤ rCode r.bytes ∧ rCode r.bytes < 0x80 then s.portPop.portRefuse r erBADOP (rIndex r.bytes)
       else s.serveOp r)
    else s
  | [] => s

def execBadop (s : State) : Out := .next s.serveBadop

/-- UNIT_OPERATION_EFFECT (R39): the effective registers of head `h`, and of the groups above it, come to stand for
the line that it prints next; its trim target follows, and its thermal limit (R42, R200). -/
def execUnitOperationEffect (h : Fin 64) (s : State) : Out :=
  .next (if s.armed && s.isLive h then ((s.putEffHead h).putEffGroups h).overCheck h else s)

end Sys2Proof.Machine
end

