-- ==== Sys2Proof/Machine/TableRows.lean ====
section
/-! DEFINITION. The nozzle table commands: the table update records, the windows, the column map's query and scan,
and the reload queue (R136, R152 to R168, R386). -/

namespace Sys2Proof.Machine

/-! ### Records at the front of the port -/

/-- ENTRIES (R167). -/
def execEntries (s : State) : Out := .next (s.serveIf (fun c => c == 0x40))

/-- MASKED (R167). -/
def execMasked (s : State) : Out := .next (s.serveIf (fun c => c == 0x41))

/-- CURVE (R160). -/
def execCurve (s : State) : Out := .next (s.serveIf (fun c => c == 0x44))

/-- MATRIX (R161). -/
def execMatrix (s : State) : Out := .next (s.serveIf (fun c => c == 0x45))

/-- MTXSEL (R167). -/
def execMtxsel (s : State) : Out := .next (s.serveIf (fun c => c == 0x46))

/-- TABLE_PORT_WAIT_END (R140, R160): the waiting record is accepted once a group or a bank is free, or refused as
LATE where the wait has made it late; else it waits on. -/
def execTablePortWaitEnd (s : State) : Out :=
  .next (match s.portQ with
    | r :: _ => if r.waits then s.serve r else s
    | [] => s)

/-! ### Windows -/

/-- NZT_WINDOW_WRITE (R164, R389): `len` bytes at window offset `a`. -/
def State.nztWindow (s : State) (a len v : Nat) : State :=
  if a % 4 + len ≤ 4 then (if s.armed then s.latchWrite a len v else s.windowPut (NZT_WIN + a) len v) else s

def execNztWindowWrite (t : Nat) (a : BitVec 20) (len : Fin 5) (v : BitVec 32) (s : State) : Out :=
  .next ((s.advance t).bar 3 (fun s => s.nztWindow a.toNat len v.toNat))

/-- NZT_LATCH_TIMEOUT (R164): 4 µs without a write. -/
def State.latchTimeout (s : State) : State :=
  match s.tabs.latch with
  | some l => if l.at_ + usClk 4 ≤ s.clk then (s.setLatch none).latchLost l.key else s
  | none => s

def execNztLatchTimeout (t : Nat) (s : State) : Out := .next (s.advance t).latchTimeout

/-- CURVE_MATRIX_WINDOW_WRITE (R159): `len` bytes at offset `a` from 300000h. Offsets that are neither a matrix nor a
curve are reserved. -/
def State.curveMatrixWindow (s : State) (a len v : Nat) : State :=
  if a % 4 + len ≤ 4 ∧ a < 0xC8000 then
    (if s.armed then s.nztErr erARMED (if a < 0xC0000 then a / 0x30000 else (a - 0xC0000) / 512) 2
     else s.windowPut (MTX_WIN + a) len v)
  else s

def execCurveMatrixWindowWrite (t : Nat) (a : BitVec 20) (len : Fin 5) (v : BitVec 32) (s : State) : Out :=
  .next ((s.advance t).bar 3 (fun s => s.curveMatrixWindow a.toNat len v.toNat))

/-! ### The column map -/

/-- Output columns of the job's layout (R126). -/
def State.ncol (s : State) : Nat := min (s.fld KLN_COLS_COLS) (if s.on KLN_CTL_LAYOUT then 65536 else 131072)

/-- A query result register. -/
def queryWord (n : Option Nat) (dup : Bool) : Word :=
  match n with
  | some n => BitVec.ofNat 32 (n % 2 ^ 17 + 2 ^ 30 * b2n dup + 2 ^ 31)
  | none => BitVec.ofNat 32 (2 ^ 30 * b2n dup)

/-- NZT_QUERY (R156): a key of 18 bits and BYENTRY. A query by a column beyond the column range answers the entries that hold that column:
only the query by entry is said to give no result there (DEDUCED, log entry 43). -/
def State.nztQuery (s : State) (key : Nat) (byEntry : Bool) : State :=
  if byEntry then
    let w := s.mapWord key
    if key < 131072 ∧ eState w ≠ 3 ∧ eCol w < s.ncol then
      let m := s.mapOf (eCol w)
      let dup := decide (2 < (s.colEnts (eCol w)).length)
      let other := if m.contains key then (m.filter (fun n => n != key)).head? else m.head?
      (s.setReg NZT_QRESA (queryWord (some key) dup)).setReg NZT_QRESB (queryWord other false)
    else (s.setReg NZT_QRESA 0#32).setReg NZT_QRESB 0#32
  else
    let m := s.mapOf key
    let dup := decide (2 < (s.colEnts key).length)
    (s.setReg NZT_QRESA (queryWord m[0]? dup)).setReg NZT_QRESB (queryWord m[1]? false)

def execNztQuery (key : BitVec 18) (byEntry : Bool) (s : State) : Out :=
  .next (s.bar 3 (fun s => s.nztQuery key.toNat byEntry))

/-- NZT_SCAN_START (R157): ignored while a scan runs. -/
def State.scanStart (s : State) : State :=
  if s.tabs.scan then s else (s.setTabs { s.tabs with scan := true }).setOn NZT_SCANST_BUSY

def execNztScanStart (s : State) : Out := .next (s.bar 3 State.scanStart)

/-- The columns in range that some entry prints. -/
def State.usedCols (s : State) : List Nat :=
  ((((s.tabs.ents.map (·.1)).filter (fun n => eState (s.mapWord n) != 3)).map (fun n => eCol (s.mapWord n))).filter
    (fun k => decide (k < s.ncol))).eraseDups

/-- Two entries of a column in double coverage do not go together (R155, R157): a SOLE with a live member, or two of the
same member. The mode of a substituted entry is immaterial, and a reserved mode is no member. -/
def clash (a b : BitVec 64) : Bool :=
  eState a != 2 && eState b != 2 && ePart a != 3 && ePart b != 3 && (ePart a == 2 || ePart b == 2 || ePart a == ePart b)

/-- Column `k` counts in NZT_SCANDUP, or in NZT_SCANONE (R157). -/
def State.colDup (s : State) (k : Nat) : Bool :=
  match (s.colEnts k).map (fun n => s.mapWord n) with
  | [] => false
  | [_] => false
  | [a, b] => !s.on KLN_CTL_LAYOUT || clash a b
  | _ => true

def State.colOne (s : State) (k : Nat) : Bool :=
  match (s.colEnts k).map (fun n => s.mapWord n) with
  | [a] => s.on KLN_CTL_LAYOUT && (ePart a != 2 || eState a == 2)
  | _ => false

/-- NZT_SCAN_DONE (R157): the walk ends and leaves its counts. -/
def State.scanDone (s : State) : State :=
  if s.tabs.scan then
    let cs := s.usedCols
    let s1 := (s.setTabs { s.tabs with scan := false }).setFld NZT_SCANST_BUSY 0
    ((s1.setFld NZT_SCANZERO_COLS (s.ncol - cs.length)).setFld NZT_SCANONE_COLS
      (cs.filter (fun k => s.colOne k)).length).setFld NZT_SCANDUP_COLS (cs.filter (fun k => s.colDup k)).length
  else s

def execNztScanDone (s : State) : Out := .next s.scanDone

/-- COLUMN_MAP_REBUILD_DONE (R386): the columns of consumed map words regain their second port. -/
def execColumnMapRebuildDone (s : State) : Out := .next (s.setTabs { s.tabs with mapOut := [] })

/-! ### The reload queue (R168) -/

/-- The NZT_RELOAD register as it reads: OVF as held, ENTRY and VALID from the queue. -/
def State.reloadWord (s : State) : Word :=
  match s.tabs.reload with
  | n :: _ => BitVec.ofNat 32 (n % 2 ^ 17 + 2 ^ 30 * s.fld NZT_RELOAD_OVF + 2 ^ 31)
  | [] => BitVec.ofNat 32 (2 ^ 30 * s.fld NZT_RELOAD_OVF)

/-- NZT_RELOAD_READ (R170): the oldest queued entry is returned and leaves the queue. Bits 29 to 17 are reserved and read a free
value (R5, log entry 5). -/
def State.reloadRead (s : State) : State :=
  let d := s.draw
  let s1 : State := { d.2 with readData := BitVec.ofNat 64 (s.reloadWord ||| (d.1.truncate 32 &&& 0x3FFE0000#32)).toNat, readEP := false }
  (s1.setTabs { s1.tabs with reload := s1.tabs.reload.tail }).setFld NZT_RELCNT_COUNT (s.tabs.reload.length - 1)

def execNztReloadRead (s : State) : Out := .next (s.barRead 3 NZT_RELOAD State.reloadRead)

end Sys2Proof.Machine
end

