-- ==== Sys2Proof/Machine/Turf.lean ====
section
/-! DEFINITION. Turf coding (R97 to R99): row headers, the well-formedness of token rows, and decoding with ash marks
(R102, R385). A byte or pixel carries its mark in bit 8. -/

namespace Sys2Proof.Machine

/-- A byte that may be marked. -/
abbrev MByte := BitVec 9

def mval (b : MByte) : Nat := b.toNat % 256
def mmark (b : MByte) : Bool := b.getLsbD 8
def mpix (v : Nat) (m : Bool) : MByte := BitVec.ofNat 9 (v % 256 + 256 * b2n m)

/-- The number that bytes spell, least significant first, and whether any is marked. -/
def mnum (bs : List MByte) : Nat := bs.foldr (fun b n => mval b + 256 * n) 0
def mAny (bs : List MByte) : Bool := bs.any mmark

/-! ### Row headers (R97) -/

def hdrLen (bs : List MByte) : Nat := bitsOf (mnum (bs.take 4)) 0 24
def hdrMode (bs : List MByte) : Nat := bitsOf (mnum (bs.take 4)) 24 2
def hdrRsv (bs : List MByte) : Nat := bitsOf (mnum (bs.take 4)) 26 6

/-! ### Tokens (R98) -/

/-- Extension bytes of length code `n`, and the run length from their value. -/
def extLen (n : Nat) : Nat := if n = 62 then 1 else if n = 63 then 2 else 0
def runLen (n e : Nat) : Nat := if n = 62 then 63 + e else if n = 63 then 319 + e else n + 1

/-- Operand bytes of a token of type `ty` with run length `m`. -/
def opndLen (ty m : Nat) : Nat := if ty = 0 then m else if ty = 1 then 1 else if ty = 2 then 0 else ceilDiv m 2

/-- One token at the front of a body: type, run length, operand bytes, whether its code bytes are marked, and what
follows; none when it runs past the body. -/
def tokenAt (bs : List MByte) : Option (Nat × Nat × List MByte × Bool × List MByte) :=
  match bs with
  | [] => none
  | b :: r =>
    let n := mval b % 64
    let ty := mval b / 64
    let x := extLen n
    let m := runLen n (mnum (r.take x))
    let o := opndLen ty m
    if r.length < x + o then none
    else some (ty, m, (r.drop x).take o, mmark b || mAny (r.take x), r.drop (x + o))

/-- The unused nibble of a DELTA token is 0. -/
def nibbleOk (ty m : Nat) (o : List MByte) : Bool :=
  ty != 3 || m % 2 == 0 || decide ((match o.getLast? with | some b => mval b | none => 0) < 16)

/-- A token row is well formed (R99): exactly `w` pixels, ending with the body, in at most `k` tokens. -/
def tokensOk : Nat → List MByte → Nat → Bool
  | 0, bs, w => bs.isEmpty && w == 0
  | k + 1, bs, w =>
    match bs with
    | [] => w == 0
    | _ =>
      match tokenAt bs with
      | none => false
      | some (ty, m, o, _, r) => decide (m ≤ w) && nibbleOk ty m o && tokensOk k r (w - m)

/-- A row of width `w` is well formed (R97, R99). -/
def rowOk (w : Nat) (row : List MByte) : Bool :=
  let body := row.drop 4
  hdrRsv row == 0 &&
  (if hdrMode row = 0 then tokensOk (ceilDiv w 2 + 16) body w
   else if hdrMode row = 1 then hdrLen row == w
   else if hdrMode row = 2 then hdrLen row == 0
   else false)

/-! ### Decoding -/

/-- The signed delta of nibble `i` of the operand bytes, and its byte's mark. -/
def deltaAt (o : List MByte) (i : Nat) : Int × Bool :=
  let b := o[i / 2]?.getD 0#9
  (signed 4 (bitsOf (mval b) (4 * (i % 2)) 4), mmark b)

/-- The pixels of a DELTA run of `m` pixels from operand `o`, after pixel `prev`. -/
def deltaRun (o : List MByte) (tm : Bool) : Nat → Nat → MByte → List MByte
  | _, 0, _ => []
  | i, m + 1, prev =>
    let d := deltaAt o i
    let p := mpix (unsign 8 ((mval prev : Int) + d.1)) (mmark prev || d.2 || tm)
    p :: deltaRun o tm (i + 1) m p

/-- The pixels that one token gives, with the row above from the same position on. -/
def tokenPix (ty m : Nat) (o : List MByte) (tm : Bool) (above : List MByte) (prev : MByte) : List MByte :=
  if ty = 0 then o.map (fun b => mpix (mval b) (mmark b || tm))
  else if ty = 1 then List.replicate m (mpix (mval (o.headD 0#9)) (mAny o || tm))
  else if ty = 2 then (above.take m ++ List.replicate (m - above.length) 0#9).map (fun b => mpix (mval b) (mmark b || tm))
  else deltaRun o tm 0 m prev

/-- Decode tokens, as many as there are bytes at most. -/
def decodeTokens : Nat → List MByte → List MByte → MByte → List MByte
  | 0, _, _, _ => []
  | k + 1, bs, above, prev =>
    match tokenAt bs with
    | none => []
    | some (ty, m, o, tm, r) =>
      let ps := tokenPix ty m o tm above prev
      ps ++ decodeTokens k r (above.drop m) (ps.getLastD prev)

/-- Exactly `w` pixels; what a marked row fails to give is marked. -/
def fitRow (w : Nat) (ps : List MByte) : List MByte :=
  ps.take w ++ List.replicate (w - ps.length) (mpix 0 true)

/-- A stored row of format `fmt` decoded under the row above it. -/
def decodeRow (fmt w : Nat) (above row : List MByte) : List MByte :=
  if !fmtTurf fmt then fitRow w row
  else
    let body := row.drop 4
    let hm := mAny (row.take 4)
    let ps := if hdrMode row = 0 then decodeTokens body.length body above 0#9
      else if hdrMode row = 1 then body
      else if hdrMode row = 2 then above
      else []
    (fitRow w ps).map (fun b => mpix (mval b) (mmark b || hm))

/-- Row `y` of a band, decoded from the band's first row on. -/
def Band.pixels (b : Band) (y : Nat) : List MByte :=
  (b.rows.take (y + 1)).foldl (fun above row => decodeRow b.fmt b.width above row) (List.replicate b.width 0#9)

/-- A decoded row as the hand-off carries it: its 64-bit words hold 8 pixels each, and a word with a marked pixel is marked
(R102, R124). -/
def handWords : Nat → List MByte → List MByte
  | 0, _ => []
  | n + 1, ps => (ps.take 8).map (fun b => mpix (mval b) (mAny (ps.take 8))) ++ handWords n (ps.drop 8)

end Sys2Proof.Machine
end

