-- ==== Sys2Proof/Machine/KilnOps.lean ====
section
/-! DEFINITION. Kiln: stages 1 to 7 for one line of one head port (R123 to R143), the ash marks it meets (R142,
R168), and the order of screening (R148). -/

namespace Sys2Proof.Machine

/-! ### Stage 1: upsampling (R125) -/

/-- The pixels of row `y` of band `q` in the tile cache of head `h`. -/
def Head.row (x : Head) (q y : Nat) : Option (List MByte) :=
  (x.tile.find? (fun t => t.seq == q && t.y == y)).map (fun t => t.pix)

/-- The mean of two values, rounded half up. -/
def mean2 (a b : Nat) : Nat := (a + b + 1) / 2

def meanMk (a b : Mk) : Mk := (mean2 a.1 b.1, a.2 || b.2)

/-- h(x): the vertical step over the rows at hand. -/
def vertical (rows : List (List MByte)) (x : Nat) : Mk :=
  match rows.map (fun r => let p := r[x]?.getD 0#9; (mval p, mmark p)) with
  | [] => (0, false)
  | [a] => a
  | a :: b :: _ => meanMk a b

/-- c(k) of R125 for a band of width `w` and factor `fx`. -/
def contone (rows : List (List MByte)) (w fx : Nat) (ups : Bool) (k : Int) : Mk :=
  if k < 0 ∨ (w * fx : Nat) ≤ k then (0, false)
  else
    let k := k.toNat
    let x := k / fx
    if fx = 2 ∧ ups ∧ k % 2 = 1 then meanMk (vertical rows x) (vertical rows (min (x + 1) (w - 1)))
    else vertical rows x

/-! ### What holds for one line of one port -/

structure LineEnv where
  p     : Nat
  l     : Nat
  x     : Int                  -- cross-web offset
  hold  : Bool
  blank : Bool
  rows  : List (List MByte)    -- rows of the band that covers the line
  w     : Nat
  fx    : Nat
  m     : Nat                  -- matrix
  out   : Bool                 -- the port is out (R136)
  strip : Option Nat           -- offset o in a due strip (R278)
  deriving DecidableEq, Repr

/-- Port `p` is out on line `l` (R136). -/
def State.outOn (s : State) (p l : Nat) : Bool :=
  (s.head p).outs.any (fun o => decide (o.1 ≤ l) && (match o.2 with | some e => decide (l < e) | none => true))

/-- Length of a due strip (R277). -/
def State.stripLen (s : State) : Nat :=
  s.fld INS_STRIP_FIDLEN + s.fld INS_STRIP_GAPLEN + s.fld INS_STRIP_PITCH * (s.fld INS_STRIP_MARKLEN + s.fld INS_STRIP_GAPLEN)

/-- The environment of line `l` of port `p`. -/
def State.lineEnv (s : State) (p l : Nat) : LineEnv :=
  let e := s.effAt p l
  let kind := match s.streamOf p with | some st => (s.strm st).kindAt l | none => .blank
  let base : LineEnv := ⟨p, l, e.x, s.heldAt p l, true, [], 0, 1, s.mtxFor p l, s.outOn p l, none⟩
  match kind with
  | .band q =>
    let b := s.band q
    { base with blank := false, rows := (s.rowsFor b l).map (fun y => ((s.head p).row q y).getD []), w := b.width, fx := resFx b.res }
  | .strip true _ start => { base with blank := false, strip := some (l - start) }
  | _ => base

/-! ### One nozzle -/

/-- What one nozzle of one line comes to: its level, and what is counted for it. -/
structure NozzleOut where
  level : Nat
  xr    : Bool      -- outside the column range (R34)
  bad   : Bool      -- reserved partner mode (R127)
  ash   : Bool      -- affected under R142
  marks : Nat       -- marked words consumed
  curve : Option Nat  -- a curve that needs reloading
  mtx   : Bool        -- the matrix needs reloading
  cw    : Nat         -- the curve word read
  mw    : List Nat    -- the matrix words read
  deriving DecidableEq, Repr

/-- The tables as port `p` screens line `l`: the column map has taken every change of the port whose line E is `l` or below (R136, R156). -/
def State.mapAsOf (s : State) (p l : Nat) : State := s.modHead p (fun x => { x with screen := max x.screen (l + 1) })

/-- The column's other member lies on a port that is out, for entry `n` with word `v` in effect as its port screens line `l` (R136). -/
def State.partnerOut (s : State) (n : Nat) (v : BitVec 64) (l : Nat) : Bool :=
  let m := (s.mapAsOf (entPort n) l).mapOf (eCol v)
  m.contains n && (m.filter (fun k => k != n)).any (fun k => s.outOn (entPort k) l)

/-- The level that a due strip gives a nozzle at offset `o` (R278); `fires` is what rows 5 and 6 of R132 allow. -/
def State.stripLevel (s : State) (o : Nat) (k : Int) (v : BitVec 64) (fires : Bool) : Nat :=
  let f := s.fld INS_STRIP_FIDLEN
  let g := s.fld INS_STRIP_GAPLEN
  let ml := s.fld INS_STRIP_MARKLEN
  let pitch := max 1 (s.fld INS_STRIP_PITCH)
  let drop := s.fld INS_STRIP_DROP
  if o < f then (if fires then drop else 0)
  else if o < f + g then 0
  else
    let r := o - f - g
    let grp := r / max 1 (ml + g)
    let group := if s.on KLN_CTL_LAYOUT then ((2 * k + (if ePart v = 1 then 1 else 0)) % (pitch : Int)).toNat else (k % (pitch : Int)).toNat
    if grp < pitch ∧ r % max 1 (ml + g) < ml ∧ group = grp then drop else 0

/-- Stages 1 to 6 for entry `n` on line `env` (R123, R132), with entry word `w` in effect. -/
def State.nozzle (s : State) (env : LineEnv) (n : Nat) (w : MWord) : NozzleOut :=
  let v := w.out.1
  let k := outCol v env.x
  let dbl := s.on KLN_CTL_LAYOUT
  let poison := w.poison
  let inRange := decide (0 ≤ k) && decide (k < s.ncol)
  let sole := ePart v == 2 || (dbl && (ePart v == 0 || ePart v == 1) && s.partnerOut n v env.l)
  let c := fun (d : Int) => contone env.rows env.w env.fx (s.on KLN_CTL_UPS) (k + d)
  let c1 := if dbl then c 0 else substWindow (s.fld KLN_CTL_SUBW) (bitAt (ePart v) 0) (bitAt (ePart v) 1) (c (-1)) (c 0) (c 1)
  let q := eTrc v
  let t := s.curveAt q (s.curveBank q env.p env.l) c1.1
  let u := densityTrim t.1 (eTrim v)
  let ph := if s.on KLN_CTL_SEEDPH then (bitsOf s.seed.toNat 0 8, bitsOf s.seed.toNat 8 8) else (0, 0)
  let dm := s.mtxDim env.m
  let cell := s.cellAt env.m ((env.l % 2 ^ 40 + ph.1) % dm) ((unsign 18 k + ph.2) % dm)
  let level := dropLevel u cell.1 cell.2.1 cell.2.2.1
  let rotB := rotationB (s.fld KLN_ROTCFG_SEQ) s.seed env.l k
  let wrongSlot := dbl && !sole && ((ePart v == 0 && rotB) || (ePart v == 1 && !rotB))
  let reserved := dbl && ePart v == 3
  let masked := eState v == 3
  let gated4 := masked || eState v == 2 || poison || env.out
  let early := env.blank || env.hold
  let ashIn := c1.2 || t.2 || cell.2.2.2
  let lvl := match env.strip with
    | some o =>
      let narrow := if s.on INS_CTL_STRIPSUB then masked || poison || env.out else gated4
      if env.hold || !inRange || narrow then 0 else s.stripLevel o k v (!reserved && !wrongSlot)
    | none => if early || !inRange || gated4 || reserved || wrongSlot || ashIn then 0 else level
  { level := lvl % 4
    xr := !inRange && !masked
    bad := !early && inRange && !gated4 && reserved
    ash := poison || (env.strip.isNone && ashIn)
    marks := b2n poison + b2n c1.2 + b2n t.2 + b2n cell.2.2.2
    curve := if t.2 then some q else none
    mtx := cell.2.2.2
    cw := curveKey q (s.curveBank q env.p env.l) (c1.1 / 4)
    mw := let o := cellOff env.m ((env.l % 2 ^ 40 + ph.1) % dm) ((unsign 18 k + ph.2) % dm); [o / 8, (o + 2) / 8] }

/-! ### Marked entries (R142, R168) -/

/-- Kiln consumes the marked entry `n`: while the table still holds it marked, it is reloaded from a clean shadow copy, at a line that the
chips of a pair agree on, or queued for host software. A marked shadow copy is consumed too (R386). -/
def State.markedEntry (s : State) (n : Nat) : State :=
  if !(s.ent n).last.poison || s.portQ.any (fun r => r.isReload && rIndex r.bytes == n) ||
      s.twin.agrees.any (fun g => !g.done && g.purpose == puRELOAD && g.arg == n) ||
      (s.tabs.acted.contains n && (!s.on NZT_CTL_RESTORE || (s.shadow n).poison)) then s
  else if !s.on NZT_CTL_RESTORE then s.queueMarked n
  else if s.twinOn then
    (let s1 := s.stagingRead n
     if (s1.shadow n).poison then s1.ashUsed.queueMarked n else s1.propose puRELOAD (2 ^ entPort n) n)
  else s.reloadAt (s.entScreen n + s.fld NZT_CTL_LEAD) n

/-- Kiln reads every entry of port `p`, and its prior entry while a change is pending or fading: an error in a word is handled where it is
found (R384, R390). These reads reach other words than the merge buffer's, so it commits first (R389). -/
def State.readEntries (s : State) (p : Nat) : State :=
  let s0 := s.mergeCommit
  ((s0.tabs.ents.map (·.1)).filter (fun n => entPort n == p)).foldl (fun s n =>
    let s1 := s.regionTouch rgTABLE n
    if (s1.ent n).chg.isEmpty then s1 else s1.regionTouch rgSHADOW n) s0

/-- Kiln consults map words of columns of port `p` for line `l` while some port is out: what is wrong with one is found there (R384), and a marked one
is rebuilt (R386). -/
def State.readMap (s : State) (p l : Nat) : State :=
  if s.on KLN_CTL_LAYOUT && s.heads.any (fun h => !h.2.outs.isEmpty) then
    let sl := s.mapAsOf p l
    let cs := ((s.tabs.ents.map (·.1)).filter (fun n => entPort n == p && eState (sl.mapWord n) != 3)).map (fun n => eCol (sl.mapWord n))
    ((s.tabs.codes.map (·.1)).filter (fun k => cs.contains k)).foldl (fun s k =>
      let s1 := s.regionTouch rgMAP k
      if (s1.code k).out.2 then
        let s2 := s1.ashUsed.setCode k zeroWord
        s2.setTabs { s2.tabs with mapOut := k :: s2.tabs.mapOut }
      else s1) s
  else s

/-- Count what the nozzles of a line gave. -/
def State.lineCounts (s : State) (m : Nat) (outs : List NozzleOut) : State :=
  let s1 := s.countReg KLN_ASHCNT (outs.filter (fun o => o.ash)).length
  let s2 := s1.countReg KLN_BADENT (outs.filter (fun o => o.bad)).length
  let xr := (outs.filter (fun o => o.xr)).length
  let s3 : State := { s2 with hostIf := { s2.hostIf with xrange := s2.hostIf.xrange + xr } }
  let n := (outs.map (fun o => o.marks)).foldl (· + ·) 0
  let s5 := if 0 < n then (s3.countReg ECC_ASHCNT n).alarm alECCUNC else s3
  let s6 := outs.foldl (fun s o => match o.curve with | some q => s.curveMarked q | none => s) s5
  if outs.any (fun o => o.mtx) then s6.setReg ECC_RELMTX (putBits (s6.reg ECC_RELMTX) m 1 1) else s6

/-! ### Screening a line -/

/-- The contone of line `l` has reached the tile cache of head `p`, or it needs none (R16, R124). -/
def State.handOff (s : State) (p l : Nat) : Bool :=
  match s.streamOf p with
  | none => false
  | some st =>
    match (s.strm st).kindAt l with
    | .band q => (s.band q).ready && (s.rowsFor (s.band q) l).all (fun y => ((s.head p).row q y).isSome)
    | .uncovered => false
    | _ => true

/-- The next line of port `p` to be screened, if staging has room for it: the port holds at most 4 lines, and none more than 4 ahead of its
last fired line (R16). Lines are screened in order. While the next one is disabled, the port gets no Kiln clocks: that line counts as
screened when it counts as fired (R36, R440). -/
def State.lineToScreen (s : State) (p : Nat) : Option Nat :=
  let x := s.head p
  let l := max x.screen x.prints
  if 4 ≤ x.stag.length ∨ x.prints + 4 ≤ l ∨ !s.enAt p l then none else some l

/-- May port `p` have a line screened now, and which (R16, R124, R228)? -/
def State.screenable (s : State) (p : Nat) : Option Nat :=
  if s.armed && s.fld PWR_STAT_STATE == 0 && !s.on FIR_STATE_NOORG && s.isLive p then
    match s.lineToScreen p with
    | some l => if (s.head p).before l && s.handOff p l && !s.proposed p l then some l else none
    | none => none
  else none

/-- Core clocks before its FIRE at which the shift of a line must begin (R178, R229). -/
def State.shiftNeed (s : State) (p : Nat) : Nat :=
  s.fld (HPT_TIME_LATSU p) + s.fld (HPT_TIME_LATW p) + s.burstClk p + 8

/-- When the shift of line `l` of port `p` must begin, on a scale that all ports share: first by its pass, since no line fires before
its pass starts (R241), then by its FIRE instant less what shifting takes. Without a valid speed no instant is predicted, and the
distance to the target counts (R148, R230). -/
def State.shiftKey (s : State) (p l : Nat) : Nat × Int :=
  let pass := if s.scan then s.passOf l else 0
  let now := s.scan && !(s.on FIR_STATE_INPASS && decide (s.passOf l + 1 = (s.reg FIR_PASS).toNat))
  let q := if now then s.target p l else s.toGo p l s.pos.t
  (pass, if s.spdValid then q * s.spdSum - (s.shiftNeed p : Int) * max 1 ((s.spdK : Int) * s.tbInc 0) else q)

/-- Key `a` comes before key `b`. -/
def keyLt (a b : Nat × Int) : Bool := decide (a.1 < b.1) || (a.1 == b.1 && decide (a.2 < b.2))

/-- The port-line that Kiln takes next (R148): earliest shift, then lowest port. -/
def State.screenNext (s : State) : Option (Nat × Nat) :=
  s.liveHeads.foldl (fun best p =>
    match s.screenable p with
    | none => best
    | some l =>
      match best with
      | none => some (p, l)
      | some b => if keyLt (s.shiftKey p l) (s.shiftKey b.1 b.2) then some (p, l) else best) none

/-- Rows of the tile cache that no line from `screen` on needs leave. -/
def State.tilePrune (s : State) (p : Nat) : State :=
  s.modHead p (fun x => { x with tile := x.tile.filter (fun t =>
    let b := s.band t.seq
    decide (x.screen < b.start + (t.y + 1) * resFy b.res)) })

/-- The pixels of a row of the tile cache as they are read. -/
def Tile.seen (t : Tile) : List MByte :=
  t.pix.zipIdx.map (fun px => let f := flawByte t.flaws px.2; mpix (mval px.1 ^^^ f.1) (mmark px.1 || f.2))

/-- Kiln reads the rows of line `l` in the tile cache of port `p`: what is wrong with a word is found there (R384), and a marked word marks its
pixels (R102, R385). -/
def State.tileRead (s : State) (p l : Nat) : State :=
  match s.streamOf p with
  | none => s
  | some st =>
    match (s.strm st).kindAt l with
    | .band q =>
      (s.rowsFor (s.band q) l).foldl (fun s y =>
        match (s.head p).tile.find? (fun t => t.seq == q && t.y == y) with
        | none => s
        | some t =>
          let r := s.flawsRead rgTILE t.flaws
          let at_ := fun (t : Tile) => t.seq == q && t.y == y
          r.2.modHead p (fun x => { x with tile := replaceFirst at_ (fun t => { t with pix := t.seen, flaws := r.1 }) x.tile })) s
    | _ => s

/-- Kiln screens line `l` of port `p` (R123). -/
def State.screenLine (s : State) (p l : Nat) : State :=
  let catch_ := decide (((s.head p).stag.filter (fun g => decide ((s.head p).prints ≤ g.line))).length < 3)
  let s0 : State := { s with kiln := { s.kiln with busy := s.kiln.busy + 16
                                                   catch_ := s.kiln.catch_ + (if catch_ then 16 else 0) } }
  let s1 := (((s0.switchAt p l).readEntries p).readMap p l).tileRead p l
  let env := s1.lineEnv p l
  let ws := (countUp (2048 * p) 2048).map (fun n => (n, (s1.ent n).at_ s1.seed l env.x))
  let outs := ws.map (fun nw => s1.nozzle env nw.1 nw.2)
  let image := packLevels (outs.map (fun o => o.level))
  let s2 := (s1.kilnReads (outs.map (fun o => o.cw)) (outs.map (fun o => o.mw)).flatten).lineCounts env.m outs
  let s3 := (ws.filter (fun nw => nw.2.poison)).foldl (fun s nw => s.markedEntry nw.1) s2
  let s4 := s3.modHead p (fun x => { x with stag := x.stag ++ [⟨l, image, crc32 image, []⟩] })
  let s5 := (s4.twinScreened p l (crc32 image) (outs.any (fun o => o.ash))).checkHeld p l image
  (((s5.passed p l).lateOver p l).tilePrune p).emberAfter p l

end Sys2Proof.Machine
end

