-- ==== Sys2Proof/Machine/KilnRows.lean ====
section
/-! DEFINITION. The Stoker and Kiln commands: fetching coded rows into the tile cache (R113, R125), refetching marked
rows (R387), the inspection reference (R276), screening (R123, R148) and Ember bursts (R147). -/

namespace Sys2Proof.Machine

/-! ### The inspection reference (R276) -/

/-- The rows of band `b` that line `l` needs, decoded. -/
def State.lineRows (s : State) (b : Band) (l : Nat) : List (List MByte) := (s.rowsFor b l).map (fun y => b.pixels y)

/-- What a line of a stream gives to a reference row: none when the row must be absent, else its width in columns and
the stage 1 contone of each. -/
def State.refLine (s : State) (st l : Nat) : Option (List Nat) :=
  match (s.strm st).kindAt l with
  | .band q =>
    let b := s.band q
    let rows := s.lineRows b l
    if b.noref || rows.any mAny then none
    else some ((List.range (b.width * resFx b.res)).map (fun (k : Nat) => (contone rows b.width (resFx b.res) (s.on KLN_CTL_UPS) (k : Int)).1))
  | .uncovered => none
  | _ => if (s.strm st).rej.any (fun r => decide (r.1 ≤ l) && decide (l < r.2)) then none else some []

/-- An ash mark reaches what line `l` of a stream gives to a reference row. -/
def State.refMarked (s : State) (st l : Nat) : Bool :=
  match (s.strm st).kindAt l with
  | .band q => !(s.band q).noref && (s.lineRows (s.band q) l).any mAny
  | _ => false

/-- The byte of one group of 4 columns over 4 lines. -/
def refByte (ls : List (List Nat)) (g : Nat) : Nat :=
  ((ls.map (fun l => ((l.drop (4 * g)).take 4).foldl (· + ·) 0)).foldl (· + ·) 0 + 8) / 16

/-- Bytes that a reference row takes with its header (R276). -/
def refSize (r : List Nat) : Nat := 64 + 64 * ceilDiv r.length 64

/-- Oldest rows leave while the rows take more than `cap` bytes. -/
def refTrim (cap : Nat) : List RefRow → List RefRow
  | [] => []
  | r :: l => if cap < ((r :: l).map (fun x => refSize x.bytes)).foldl (· + ·) 0 then refTrim cap l else r :: l

/-- Form reference row `r` of stream `st`; a mark that reaches it is consumed there, and the row is absent (R276, R386). -/
def State.refForm (s : State) (st r : Nat) : State :=
  let ls := (countUp (4 * r) 4).map (fun l => s.refLine st l)
  let s1 : State := { s.ashSent ((countUp (4 * r) 4).any (fun l => s.refMarked st l)) with refNext := s.refNext.set (fun _ => 0) st (r + 1) }
  if ls.any Option.isNone then s1
  else
    let vs := ls.map (fun l => l.getD [])
    let w := (vs.map List.length).foldl max 0
    let row := (List.range (ceilDiv w 4)).map (fun g => refByte vs g)
    let cap := match s.partKind pkREFERENCE with | some i => s.partBytes i | none => 0
    ({ s1 with refs := refTrim cap (s1.refs ++ [RefRow.mk st r row false]) }).stores pkREFERENCE 2 (refSize row / 64)

/-- Reference rows whose lines have all been decoded for head `h` are formed, where it is the live member of smallest delay of its
stream. -/
def State.refBuild (s : State) (h : Nat) : State :=
  match s.streamOf h with
  | some st =>
    if s.on INS_CTL_REFEN && (s.partKind pkREFERENCE).isSome && s.leadOf (s.fedBy st) (s.head h).tileTo == some h then
      let lo := max (s.refNext.get (fun _ => 0) st) (ceilDiv (s.head h).first 4)
      (countUp lo ((s.head h).tileTo / 4 - lo)).foldl (fun s r => s.refForm st r) s
    else s
  | none => s

/-! ### STOKER_FETCH (R113, R387) -/

/-- Row `y` of band `q` is marked and must be read again first (R387). -/
def Band.mustRefetch (b : Band) (y : Nat) : Bool := !b.done && mAny (b.rows[y]?.getD []) && !b.refail.contains y

/-- Where row `y` of band `b` lies in host memory, and its bytes (R387): a coded row at the offset at which pre-scan delimited it, a raw one
by the stride. -/
def Band.rowAt (b : Band) (y : Nat) : Nat × Nat :=
  (b.addr + (if fmtTurf b.fmt then ((b.rows.take y).map List.length).foldl (· + ·) 0 else y * b.stride * 64), (b.rows[y]?.getD []).length)

/-- A Stoker has met marked row `y` of band `q`: its line is late with cause ASH, and the row is read again as soon as the chip can
master (R118, R387). -/
def State.refetch (s : State) (q y : Nat) : State :=
  let b := s.band q
  let s1 := if b.refet.contains y then s else (s.setBand q { b with refet := b.refet ++ [y] }).ashUsed
  if b.asked.any (fun a => a.1 == y) || !s.canMaster then s1
  else
    let b1 := s1.band q
    (s1.setBand q { b1 with asked := b1.asked ++ [(y, (b.rowAt y).1, (b.rowAt y).2)] }).countReg ECC_REFETCH 1

/-- Row `y` of band `q`, decoded, goes into the tile cache of head `h`: another word of the on-chip SRAM than the one in the merge buffer, which
commits first (R389). -/
def State.tileRow (s : State) (h q y : Nat) : State :=
  let b := s.band q
  s.mergeCommit.modHead h (fun x => { x with tile := x.tile ++ [⟨q, y, handWords (ceilDiv b.width 8) (b.pixels y), []⟩] })

/-- The rows that the Stoker of head `h` must decode to have row `y` of band `q`: a raw row alone; of a Turf band the rows after the one it has
decoded last, or after a jump back or to another band all rows from the first on, since each is decoded under the row above it (R85, R125). -/
def State.decodeRows (s : State) (h q y : Nat) : List Nat :=
  if !fmtTurf (s.band q).fmt then [y]
  else match (s.head h).decAt with
    | some (p, z) => if p = q ∧ z < y then countUp (z + 1) (y - z) else countUp 0 (y + 1)
    | none => countUp 0 (y + 1)

/-- The Stoker of head `h` reads rows `ys` of band `q` and decodes them one under the other: `true` once all are decoded. A row that it finds
marked, of a band that has not completed, is read again from host memory first, and then from the store once more (R120, R387). -/
def State.stokerRows (h q : Nat) : List Nat → State → Bool × State
  | [], s => (true, s)
  | y :: ys, s =>
    let b := s.band q
    let n := (b.rows[y]?.getD []).length
    if b.refet.contains y then (false, s.refetch q y)
    else
      let s1 := (s.storeUse 0 (ceilDiv n 64)).deviceReads (fun i => s.ringPart b.stream i) (fun e => .row q y (e % max 1 (ceilDiv n 8)))
      if (s1.band q).mustRefetch y then (false, s1.refetch q y)
      else State.stokerRows h q ys (s1.modHead h (fun x => { x with decAt := some (q, y) }))

/-- Line `tileTo` of head `h` is settled where it needs no row that is missing. -/
def State.tileStep (s : State) (h : Nat) : State :=
  let l := (s.head h).tileTo
  if !s.enAt h l || s.handOff h l then (s.modHead h (fun x => { x with tileTo := l + 1 })).refBuild h else s

/-- One row for head `h` (R113): from its read pointer up to 128 lines ahead, 64 rows at most in its share. -/
def State.stokerFetch (s : State) (h : Nat) : State :=
  let x := s.head h
  let s := if x.tileTo < x.next then s.modHead h (fun x => { x with tileTo := x.next }) else s
  let l := (s.head h).tileTo
  if !(s.armed && s.fld PWR_STAT_STATE == 0 && !s.on FIR_STATE_NOORG && s.isLive h) || x.next + 128 ≤ l || !x.before l then s
  else if !s.enAt h l then s.tileStep h
  else match s.streamOf h with
    | none => s
    | some st =>
      match (s.strm st).kindAt l with
      | .band q =>
        let b := s.band q
        if !b.ready then s
        else match (s.rowsFor b l).find? (fun y => ((s.head h).row q y).isNone) with
          | none => s.tileStep h
          | some y =>
            if 64 ≤ (s.head h).tile.length then s
            else
              let r := State.stokerRows h q (s.decodeRows h q y) s
              if r.1 then (r.2.tileRow h q y).tileStep h else r.2
      | .uncovered => s
      | _ => s.tileStep h

/-- STOKER_FETCH (R113). -/
def execStokerFetch (h : Fin 64) (s : State) : Out := .next (s.stokerFetch h)

/-- REFETCH_DONE (R387): the read of row `y` of band `q` ends. -/
def State.refetchDone (s : State) (q y : Nat) (ok : Bool) (data : List MByte) : State :=
  let b := s.band q
  if !b.asked.any (fun a => a.1 == y) then s
  else
    let old := b.rows[y]?.getD []
    let b1 := { b with refet := b.refet.filter (fun z => z != y), asked := b.asked.filter (fun a => a.1 != y) }
    let good := ok && !mAny data && data.length == old.length &&
      (!fmtTurf b.fmt || (data.take 4).map mval == (old.take 4).map mval)
    let s := if ok then s.storesBand b.stream (ceilDiv data.length 64) else s.readFailed true
    if good then s.setBand q { b1 with rows := b.rows.set y data }
    else (s.setBand q { b1 with refail := b.refail ++ [y] }).countReg ECC_REFAIL 1

def execRefetchDone (q y : Nat) (ok : Bool) (data : List (BitVec 9)) (s : State) : Out :=
  .next (s.refetchDone q y ok data)

/-! ### LINE_SCREEN and EMBREQ_BURST -/

/-- LINE_SCREEN (R123, R148): Kiln takes the next permitted port-line. -/
def execLineScreen (s : State) : Out :=
  .next (match s.screenNext with
    | some pl => s.screenLine pl.1 pl.2
    | none => s)

/-- EMBREQ_BURST (R147): KLN_EMBREQ.BURST takes the next line screened. -/
def execEmbreqBurst (s : State) : Out := .next (s.bar 3 (fun s => { s with kiln := { s.kiln with want := true } }))

end Sys2Proof.Machine
end

