-- ==== Sys2Proof/Machine/HostRows.lean ====
section
/-! DEFINITION. The host interface commands other than descriptors and jobs: polling (R53, R54), completions and their
queues (R66, R67), streams (R57, R79), the status period (R74) and Bus Master Enable (R49). -/

namespace Sys2Proof.Machine

open Sys2Proof

/-! ### Polling -/

/-- Core clocks of one poll period: units of 250 ns. -/
def State.pollClk (s : State) : Nat := 100 * s.fld HIF_POLLPER_PER

/-- DOORBELL_POLL (R53): a poll falls due; it is skipped while the previous one is still outstanding. -/
def State.doorbellPoll (s : State) : State :=
  if s.on HIF_CTL_POLLEN && s.canMaster && decide (s.hostIf.nextPoll ≤ s.clk) then
    let h := { s.hostIf with nextPoll := s.hostIf.nextPoll + s.pollClk }
    if h.sumOut || h.prodOut then s.setHif h else s.setHif { h with sumOut := true, pollOld := false, pollAt := s.clk }
  else s

def execDoorbellPoll (t : Nat) (s : State) : Out := .next (s.advance t).doorbellPoll

/-- Word `k` of a line of host memory. -/
def wordAt (line k : Nat) : Word := BitVec.ofNat 32 (bitsOf line (32 * k) 32)

/-- The summary line is taken into use (R53); a CMDPROD ahead lets a command slot whose read failed be read again (R60). The
producer words are read next where GEN has changed, if the device may issue that read (R49). -/
def State.takeSummary (s : State) (line : Nat) : State :=
  let gen := wordAt line 0
  let more := (gen != s.hostIf.gen || !s.hostIf.polledOn) && s.canMaster
  let ahead := decide (0 < (wordAt line 1 - s.reg HIF_CMDCONS).toInt)
  let cons := (List.range 8).foldl (fun m q => SMap.set (fun _ => 0#32) m q (wordAt line (2 + q))) s.hostIf.cqCons
  let rtt := min 65535 ((s.clk - s.hostIf.pollAt) * 5 / 2)
  ((s.setHif { s.hostIf with sumOut := false, prodOut := more, genNext := gen, cmdProd := wordAt line 1, cqCons := cons
                             cmdBad := s.hostIf.cmdBad && !ahead }).setFld HIF_RTT_NS rtt).flushHost

/-- SUMMARY_READ_DONE (R53, R54): `ok` is false when the read fails or its data is poisoned. -/
def State.summaryDone (s : State) (ok : Bool) (line : Nat) : State :=
  if !s.hostIf.sumOut then s
  else if ok then s.takeSummary line
  else (s.setHif { s.hostIf with sumOut := false }).pollFailed

def execSummaryReadDone (t : Nat) (ok : Bool) (line : BitVec 512) (s : State) : Out :=
  .next ((s.advance t).summaryDone ok line.toNat)

/-- A new PROD of stream `st` (R53, R73): a PROD too far ahead, or one that moved backwards, halts an enabled stream; a
consistent one lets a RESTART that waits go on. -/
def State.takeProd (s : State) (st : Nat) (v : Word) : State :=
  let old := (s.strm st).prod
  let s1 := if old = v then s else s.modStrm st (fun x => { x with prod := v })
  if s1.strState st = stRUN ∨ s1.strState st = stHELD then
    (if s1.overrun st || decide ((v - old).toInt < 0) then s1.ringHalt st 0x23 else s1)
  else if (s1.strm st).rwait && !s1.overrun st then
    ((s1.modStrm st (fun x => { x with rwait := false, halt := none })).setFld (STR_STATE_STATE st) stRUN).holdState st
  else s1

/-- PRODUCER_READ_DONE (R53, R54). -/
def State.producerDone (s : State) (ok : Bool) (words : Nat) : State :=
  if !s.hostIf.prodOut then s
  else if ok then
    let s1 := s.setHif { s.hostIf with prodOut := false, gen := s.hostIf.genNext, polledOn := !s.hostIf.pollOld }
    (List.range 128).foldl (fun s st => s.takeProd st (wordAt words st)) s1
  else (s.setHif { s.hostIf with prodOut := false }).pollFailed

def execProducerReadDone (ok : Bool) (words : BitVec 4096) (s : State) : Out := .next (s.producerDone ok words.toNat)

/-- DFETCH (R73): the read of the next descriptor of stream `st` fails, or returns poisoned data. -/
def State.dfetch (s : State) (st : Nat) (poisoned : Bool) : State :=
  let u := s.atSlot st
  if !u.fetchOk st || !u.fetchTurn st then u
  else if u.overrun st then u.ringHalt st 0x23
  else if poisoned then ((u.tookTurn st).aer aerPOISON).ringHalt st 0x21
  else ((u.tookTurn st).readFailed false).ringHalt st 0x20

def execDfetch (st : Fin 128) (poisoned : Bool) (s : State) : Out := .next (s.dfetch st poisoned)

/-- COMMAND_READ_FAILED (R60). -/
def execCommandReadFailed (s : State) : Out :=
  .next (if s.cmdOk then s.pollFailed.setHif { s.pollFailed.hostIf with cmdBad := true } else s)

/-! ### Completions, queues and streams -/

/-- HELD_COMPLETIONS_WRITTEN (R66, R67). -/
def execHeldCompletionsWritten (s : State) : Out := .next s.flushHost

/-- A write of HIF_CQCTL(q) (R5, R64, R67, R78). -/
def State.cqEnable (s : State) (q : Nat) (v : Word) : State :=
  if s.armed then s.refuse erARMED (HIF_CQCTL q)
  else
    let size := if 13 ≤ bitsOf v.toNat 1 4 then s.fld (HIF_CQCTL_SIZE q) else bitsOf v.toNat 1 4
    let en := bitAt v.toNat 0
    let s1 := (s.setBit (HIF_CQCTL_EN q) en).setFld (HIF_CQCTL_SIZE q) size
    if en then s1.flushHost else s1.setReg (HIF_CQPROD q) 0#32

/-- CQ_ENABLE_WRITE (R67). -/
def execCqEnableWrite (q : Fin 8) (v : BitVec 32) (s : State) : Out := .next (s.bar 0 (fun s => s.cqEnable q v))

/-- A write of STR_CTL(st) (R5, R57, R64, R79): clearing EN drops what the stream holds, but for PROD. -/
def State.streamEnable (s : State) (st : Nat) (v : Word) : State :=
  if s.armed then s.refuse erARMED (STR_CTL st)
  else
    let was := s.on (STR_CTL_EN st)
    let size := if 13 ≤ bitsOf v.toNat 2 4 then s.fld (STR_CTL_SIZE st) else bitsOf v.toNat 2 4
    let v1 := putBits v 2 4 size &&& 0x77F#32
    let s1 := s.setReg (STR_CTL st) v1
    if !bitAt v.toNat 0 then
      (((s1.setReg (STR_CONS st) 0#32).setReg (STR_DONE st) 0#32).setFld (STR_STATE_STATE st) stOFF).setStrm st
        { Stream.reset with prod := (s1.strm st).prod, stray := (s1.strm st).strayAll }
    else if was then s1.flushHost
    else (s1.setFld (STR_STATE_STATE st) stRUN).holdState st

/-- STREAM_ENABLE_WRITE (R79). -/
def execStreamEnableWrite (st : Fin 128) (v : BitVec 32) (s : State) : Out :=
  .next (s.bar 1 (fun s => s.streamEnable st v))

/-- Polls that fell due while the device could not master the bus are not made up: the next scheduled one follows. -/
def State.pollResume (s : State) : State :=
  s.setHif { s.hostIf with nextPoll := s.hostIf.nextPoll + s.pollClk * ceilDiv (s.clk - s.hostIf.nextPoll) s.pollClk }

/-- BUS_MASTER_ENABLE_CHANGE (R49): streams enter or leave HELD, and what was held is written. -/
def State.busMaster (s : State) (on : Bool) : State :=
  let s1 := s.setBit HIF_CTL_BME on
  let s2 := if on then s1.pollResume.flushHost else s1
  (List.range 128).foldl (fun s st => s.holdState st) s2

/-- BUS_MASTER_ENABLE_CHANGE: a configuration write, which is retried before step 6 of the release and lost without supply (R373). -/
def execBusMasterEnableChange (on : Bool) (s : State) : Out := .next (if s.aonOk then s.busMaster on else s)

/-! ### The status period -/

/-- The figures of the completed period, over its own length (R34, R74, R76, R78, R148). Of the work that waits for Hearth the model knows the
golden words and the mailbox command; `low` says that class 3 has work waiting. SAT follows from the rise of BACKLOG (R400). -/
def State.periodFigures (s : State) (load : Nat) (backlog : Nat) (low : Bool) : State :=
  let clks := max 1 s.hostIf.statLen
  let share := fun (n : Nat) => min 100 (100 * n / clks)
  let s1 := ((s.setFld KLN_LOAD_BUSY (share s.kiln.busy)).setFld KLN_LOAD_CATCH (share s.kiln.catch_))
  let sat := decide (s.fld SVC_HLOAD_BACKLOG < backlog) && (s.svc.cmd.isSome || low)
  let s2 := ((s1.setFld SVC_HLOAD_LOAD load).setFld SVC_HLOAD_BACKLOG backlog).setBit SVC_HLOAD_SAT sat
  let s3 := if s2.hostIf.xrange = 0 then s2 else s2.alarm alXRANGE
  let s4 := if sat then s3.alarm alHEARTHSAT else s3
  { s4 with kiln := { s4.kiln with busy := 0, catch_ := 0 }
            hostIf := { s4.hostIf with xrangeP := s4.hostIf.xrange, xrange := 0 } }

/-- STATUS_PERIOD_END (R74): with the Hearth figures of the period, which the firmware's own load makes. Of the golden words that wait Hearth
has recomputed, oldest first, as many as BACKLOG leaves no room for (R399). -/
def State.statusPeriodEnd (s : State) (load : Nat) (backlog : Nat) (low : Bool) : State :=
  if s.on RST_STAT_DONE && s.awake && decide (s.hostIf.statEnd ≤ s.clk) then
    let s1 := (s.serveGold (s.svc.tasks.length - backlog)).periodFigures load backlog low
    let n := usClk (s1.fld HIF_STATPER_PER)
    let s2 := s1.setHif { s1.hostIf with statEnd := s1.hostIf.statEnd + n, statLen := n }
    if s2.on HIF_CTL_STATEN && s2.canMaster then s2.statusBlock else s2
  else s

def execStatusPeriodEnd (t : Nat) (load : Fin 101) (backlog : BitVec 8) (low : Bool) (s : State) : Out :=
  .next ((s.advance t).statusPeriodEnd load backlog.toNat low)

end Sys2Proof.Machine
end

