-- ==== Sys2Proof/Machine/BandRows.lean ====
section
/-! DEFINITION. The descriptor commands: the checks of each opcode (R80 to R85, R91 to R96, R100), admission (R108),
the reads of band data and what arrives (R58, R89, R97 to R102), and the records of a TABLE (R93). -/

namespace Sys2Proof.Machine

open Sys2Proof

/-- A descriptor command carries the bytes of a descriptor of its own row; other bytes are no such command. -/
def ofRow (ok : Bool) (m : String) (s : State) : Out := if ok then .next s else .fault (.illFormed m)

/-! ### Bytes that must be 0 (R80) -/

/-- Bytes `lo` to `hi - 1` are 0. -/
def zeroBytes (r : BitVec 256) (lo hi : Nat) : Bool := bytesAt r.toNat lo (hi - lo) == 0

/-- BAND (R81 to R83): flags, format of the mode selected, and resolution. -/
def State.bandForm (s : State) (r : BitVec 256) : Bool :=
  decide (dFlags r < 8) && decide (1 ≤ dFmt r) && decide (dFmt r ≤ 4) && fmtScan (dFmt r) == s.on FIR_CTL_MODE && decide (dRes r ≤ 3)

def markForm (r : BitVec 256) : Bool :=
  zeroBytes r 1 2 && decide (dUnit r < 128) && zeroBytes r 3 4 && zeroBytes r 9 28

def fenceForm (r : BitVec 256) : Bool :=
  decide (dFlags r ≤ 1) && zeroBytes r 3 24 &&
  (if dXstr r then decide (dUnit r < 128) else dUnit r == 0 && dLen r == 0)

def tableForm (r : BitVec 256) : Bool := zeroBytes r 1 16

def stripForm (r : BitVec 256) : Bool := zeroBytes r 1 2 && zeroBytes r 3 4 && zeroBytes r 11 28

/-- SCHEDULE-EVENT (R95): its pin belongs to line-scheduled events. -/
def State.eventForm (s : State) (r : BitVec 256) : Bool :=
  zeroBytes r 1 2 && decide (dUnit r < 128) && decide (dFmt r < 8) && zeroBytes r 11 28 &&
  s.fld (TIM_EVTCTL_OWNER (dFmt r)) == evLINE

/-! ### BAND (R100, checks 1 to 8) -/

/-- Lines and width (check 5). -/
def bandDims (r : BitVec 256) : Bool :=
  dCount r != 0 && dWidth r != 0 && decide (dLine r + dCount r ≤ 2 ^ 40)

/-- Address and stride (R85). -/
def bandAddr (r : BitVec 256) : Bool :=
  dAddr r % 64 == 0 &&
  (if fmtTurf (dFmt r) then dStride r == 0 else dStride r != 0 && decide (dWidth r ≤ dStride r * 64))

/-- The first of checks 1 to 8 that fails. -/
def State.bandCheck (s : State) (st : Nat) (r : BitVec 256) : Option Nat :=
  if s.on (STR_CTL_KIND st) then some 0x18
  else if !s.armed then some 0x19
  else if s.boundUnit st ≠ some (dUnit r) then some 0x14
  else if !s.bandForm r then some 0x15
  else if !bandDims r then some 0x11
  else if !bandAddr r then some 0x16
  else if !fmtTurf (dFmt r) && decide (dLen r < rawNeed (dCount r) (dRes r) (dWidth r) (dStride r)) then some 0x12
  else if s.ringE st < bandSize r + blk64 then some 0x13
  else none

/-- An accepted band takes its lines (R86, R88) and waits for admission; one whose lines are all dropped completes. -/
def State.bandAccept (s : State) (st : Nat) (d : Desc) : State :=
  let r := d.raw
  let first := s.firstKept st (dLine r) (dCount r)
  let key := s.bandSeq + 1
  let s1 := s.place st (dLine r) (dCount r) (dEnd r) (.band key)
  if first = dLine r + dCount r then s1.doneNow st d 0 first
  else
    let slack := if !fmtTurf (dFmt r) && decide (rawNeed (dCount r) (dRes r) (dWidth r) (dStride r) < dLen r) then 1 else 0
    ({ s1 with bandSeq := key } : State).modDesc st d.count (fun d => { d with phase := .waitAdmit, seq := key, first := first, status := slack })

/-- BAND (R100). -/
def execBand (st : Fin 128) (raw : BitVec 256) (s : State) : Out :=
  ofRow (dOp raw == 1) "BAND" (s.fetched st raw (fun s d =>
    match s.bandCheck st raw with
    | some c => s.reject st d c
    | none => (s.bandAccept st d).fillChanged))

/-! ### The other opcodes -/

/-- The lowest next line of the live members of a unit. -/
def State.unitNext (s : State) (u : Nat) : Nat := s.groupLine u

/-- A MARK or SCHEDULE-EVENT waits, or completes at once because its line has passed (R91, R95, R96). -/
def State.lineWait (s : State) (st : Nat) (d : Desc) : State :=
  let u := dUnit d.raw
  let passed := if dOp d.raw = 2 then (s.members u).all (fun h => decide (dLine d.raw < (s.head h).prints))
    else match s.eventHead d with
      | some h => decide (dLine d.raw < (s.head h).prints)
      | none => true
  let wait := fun (s : State) => s.modDesc st d.count (fun d => { d with phase := .waitLine, first := dLine d.raw })
  if !s.armed then wait s
  else if (s.members u).isEmpty then s.doneNow st d 0 (dLine d.raw)
  else if passed then s.doneNow st d 0 (s.unitNext u)
  else wait s

/-- MARK (R91). -/
def execMark (st : Fin 128) (raw : BitVec 256) (s : State) : Out :=
  ofRow (dOp raw == 2) "MARK" (s.fetched st raw (fun s d =>
    if markForm raw then s.lineWait st d else s.reject st d 0x15))

/-- FENCE (R92). -/
def execFence (st : Fin 128) (raw : BitVec 256) (s : State) : Out :=
  ofRow (dOp raw == 3) "FENCE" (s.fetched st raw (fun s d =>
    if fenceForm raw then s.flushAll else s.reject st d 0x15))

/-- TABLE (R93, R100). -/
def execTable (st : Fin 128) (raw : BitVec 256) (s : State) : Out :=
  ofRow (dOp raw == 4) "TABLE" (s.fetched st raw (fun s d =>
    if !tableForm raw then s.reject st d 0x15
    else if dLen raw = 0 ∨ dLen raw % 16 ≠ 0 ∨ 1048576 < dLen raw then s.reject st d 0x11
    else if dAddr raw % 16 ≠ 0 then s.reject st d 0x16
    else s.waits st d .table))

/-- Is an accepted STRIP from `start` due (R277)? Watch strips print in bar mode only. -/
def State.stripDue (s : State) (start : Nat) : Bool :=
  s.on INS_CTL_EN && s.on INS_CTL_STRIPEN && !s.scan &&
  (s.reg INS_CYCLE == 0#32 || decide (s.insp.last + s.fld INS_STRIPINT_UNITS * 1024 ≤ start))

/-- A due strip is taken (R277). -/
def State.stripTaken (s : State) (start : Nat) : State :=
  (({ s with insp := { s.insp with last := start, strips := s.insp.strips ++ [(start, s.stripLen)] } } : State).setReg INS_LAST (BitVec.ofNat 32 start)).countReg INS_CYCLE 1

/-- An accepted STRIP takes its lines, due or blank (R94, R277); it is ready when accepted. -/
def State.stripAccept (s : State) (st : Nat) (d : Desc) : State :=
  let start := dLine d.raw
  let n := dCount d.raw
  let first := s.firstKept st start n
  let due := s.stripDue start
  let long := decide (s.stripLen ≤ n)
  let s1 := if due && long then s.stripTaken start
    else if due then s.countReg INS_SHORT 1 else s
  let s2 := s1.place st start n false (.strip (due && long) (s1.reg INS_CYCLE).toNat start)
  if first = start + n then s2.doneNow st d 0 first
  else ((s2.modDesc st d.count (fun d => { d with phase := .printing, first := first })).settleStream st).flushAll

/-- The first check that a STRIP fails (R94, R100). -/
def State.stripCheck (s : State) (st : Nat) (r : BitVec 256) : Option Nat :=
  if s.on (STR_CTL_KIND st) then some 0x18
  else if !s.armed then some 0x19
  else if s.boundUnit st ≠ some (dUnit r) then some 0x14
  else if !stripForm r then some 0x15
  else if dCount r = 0 ∨ 2 ^ 40 < dLine r + dCount r then some 0x11
  else none

/-- STRIP (R94). -/
def execStrip (st : Fin 128) (raw : BitVec 256) (s : State) : Out :=
  ofRow (dOp raw == 5) "STRIP" (s.fetched st raw (fun s d =>
    match s.stripCheck st raw with
    | some c => s.reject st d c
    | none => (s.stripAccept st d).fillChanged))

/-- SCHEDULE-EVENT (R95). -/
def execScheduleEvent (st : Fin 128) (raw : BitVec 256) (s : State) : Out :=
  ofRow (dOp raw == 6) "SCHEDULE_EVENT" (s.fetched st raw (fun s d =>
    if !s.eventForm raw then s.reject st d 0x15
    else if dCount raw = 0 then s.reject st d 0x11
    else s.lineWait st d))

/-- BADOPC (R80): a reserved opcode. -/
def execBadopc (st : Fin 128) (raw : BitVec 256) (s : State) : Out :=
  ofRow (dOp raw == 0 || decide (7 ≤ dOp raw)) "BADOPC" (s.fetched st raw (fun s d => s.reject st d 0x10))

/-! ### The records of a TABLE (R93) -/

/-- Cut the bytes at hand into whole records and pass them to the port; the last record ends with the data. -/
def State.passRecords (s : State) (st c : Nat) (last : Bool) : Nat → List Byte → State × List Byte
  | 0, bs => (s, bs)
  | n + 1, bs =>
    let need := s.recLen bs
    if bs.isEmpty || (decide (bs.length < need) && !last) || decide (bs.length < 16) then (s, bs)
    else
      let s1 := s.portPut (.stream st c) (bs.take need) none
      (s1.modDesc st c (fun d => { d with
        out := d.out + 1, passed := true, first := if d.passed then d.first else rLine bs })).passRecords st c last n (bs.drop need)

/-- Record data of the oldest TABLE of stream `st` that still reads arrives, or its read fails. A TABLE that a halt has left to
run to its end completes with DATAERR and halts nothing anew (R71). A TABLE whose read fails before any
record of it was passed tells 0 as its first line (DEDUCED, log entry 33). -/
def State.tableData (s : State) (st : Nat) (ok : Bool) (data : List (BitVec 128)) : State :=
  match (s.strm st).descs.find? (fun d => d.phase = .table && decide (d.got < dLen d.raw)) with
  | none => s
  | some d =>
    if !s.canMaster then s
    else if !ok then
      let s1 := (s.readFailed true).modDesc st d.count (fun d => { d with got := dLen d.raw, tail := [], status := 0x22 })
      let s2 := if (s.strm st).pass.contains d.count then s1
        else if s.on (STR_CTL_SKIPERR st) then s1.modDesc st d.count (fun d => { d with blank := true })
        else s1.haltDesc st d 0x22
      if d.out = 0 then s2.doneNow st d 0x22 d.first else s2.flushAll
    else
      let bytes := (data.map (fun w => leBytes 16 w.toNat)).flatten.take (dLen d.raw - d.got)
      let got := d.got + bytes.length
      let all := d.tail.map (fun b => b.truncate 8) ++ bytes
      let r := ((s.stores pkSTAGING 4 (ceilDiv bytes.length 64)).modDesc st d.count (fun d => { d with got := got })).passRecords st d.count (decide (dLen d.raw ≤ got)) all.length all
      r.1.modDesc st d.count (fun d => { d with tail := r.2.map (fun b => b.zeroExtend 9) })

/-- TABLE_RECORD_READ_DONE (R93). -/
def execTableRecordReadDone (st : Fin 128) (ok : Bool) (data : List (BitVec 128)) (s : State) : Out :=
  .next (s.tableData st ok data)

/-! ### Band data -/

/-- BAND_ADMITTED (R108, R110, R112): the oldest waiting band of stream `st` takes its reservation. A Turf band of byte length 0 has no
data to come, and fails check 11 (R100). -/
def State.bandAdmit (s : State) (st : Nat) : State :=
  match (s.strm st).descs.find? (fun d => d.phase = .waitAdmit) with
  | none => s
  | some d =>
    let r := d.raw
    let n := bandSize r
    if s.admits st n then
      let b : Band := ⟨st, dLine r, dCount r, d.first, dWidth r, dFmt r, dRes r, dNoref r, n, [], false, false, 0, [], [], dAddr r, dStride r, []⟩
      let s1 := ((s.makeRoom st n).setBand d.seq b).waits st d .reading
      if bandFetch r = 0 then s1.reject st d 0x12 else s1
    else s

def execBandAdmitted (st : Fin 128) (s : State) : Out := .next (s.bandAdmit st)

/-- Band reads outstanding, those of bands rejected or aborted meanwhile among them: at most 248 (R58). -/
def State.bandReads (s : State) : Nat :=
  (s.streams.map (fun x => x.2.strayAll.length)).foldl (· + ·) 0

/-- The oldest band of stream `st` with data still to ask for. -/
def State.wantsData (s : State) (st : Nat) : Option Desc :=
  (s.strm st).descs.find? (fun d => d.phase = .reading && decide (d.issued < bandFetch d.raw))

/-- It is stream `st`'s turn to request band data (R58). -/
def State.dataTurn (s : State) (st : Nat) : Bool := turnOf s.hostIf.turnB st (fun k => (s.wantsData k).isSome)

/-- BAND_DATA_READ_ISSUE (R46, R58): a read of up to `len` bytes, and up to Max Read Request Size, for the oldest band of stream
`st` with data still to ask for, on the stream's turn. -/
def State.bandIssue (s : State) (st len : Nat) : State :=
  match s.wantsData st with
  | none => s
  | some d =>
    let n := min (min len s.mrrs) (bandFetch d.raw - d.issued)
    if s.canMaster && decide (s.bandReads < 248) && decide (0 < n) && s.dataTurn st then
      (s.modDesc st d.count (fun d => { d with issued := d.issued + n, reads := d.reads ++ [n] })).setHif
        { s.hostIf with turnB := (st + 1) % 128 }
    else s

def execBandDataReadIssue (st : Fin 128) (len : BitVec 13) (s : State) : Out := .next (s.bandIssue st (min len.toNat 4096))

/-- What the rows cut so far have come to: rows stored, bytes left, or the failure of check 9 or 10. -/
structure Cut where
  rows : List (List MByte)
  rest : List MByte
  bad  : Option Nat
  deriving DecidableEq, Repr

/-- Cut rows out of the bytes of a band of format `fmt` and width `w` until `n` more rows have come (R85, R97, R100, R102). A last header of
which fewer than 4 bytes lie within the byte length is cut short and not judged, ash-marked or not: TRUNC (DEDUCED, log entry 34). -/
def cutRows (fmt w : Nat) : Nat → List MByte → Cut
  | 0, bs => ⟨[], bs, none⟩
  | n + 1, bs =>
    if !fmtTurf fmt then
      (if bs.length < w then ⟨[], bs, none⟩
       else
         let c := cutRows fmt w n (bs.drop w)
         { c with rows := bs.take w :: c.rows })
    else if bs.length < 4 then ⟨[], bs, none⟩
    else if mAny (bs.take 4) then ⟨[], bs, some 0x22⟩
    else
      let len := 4 + hdrLen bs
      if bs.length < len then ⟨[], bs, none⟩
      else
        let row := bs.take len
        if mAny row || rowOk w row then
          let c := cutRows fmt w n (bs.drop len)
          { c with rows := row :: c.rows }
        else ⟨[], bs, some 0x17⟩

/-- A read that brought `n` bytes is answered as far. -/
def answerRead (n : Nat) : List Nat → List Nat
  | [] => []
  | r :: l => if n < r then (r - n) :: l else l

/-- A band has its last row (R89): what its reservation holds beyond the rows is released, and it is ready. -/
def State.bandReady (s : State) (st : Nat) (d : Desc) (slack : Bool) : State :=
  let s1 := s.setBand d.seq { s.band d.seq with ready := true }
  let s2 := s1.modDesc st d.count (fun d => { d with phase := .printing, tail := [], status := if slack then 1 else d.status })
  ((s2.settleStream st).flushAll).fillChanged

/-- Data for the oldest read of a band of stream `st` that is being read. -/
def State.bandTake (s : State) (st : Nat) (ok : Bool) (data : List MByte) : State :=
  match (s.strm st).descs.find? (fun d => d.phase = .reading && !d.reads.isEmpty) with
  | none => s
  | some d =>
    if !ok then ((s.readFailed false).modDesc st d.count (fun d => { d with reads := d.reads.tail })).reject st d 0x22
    else
      let r := d.raw
      let s := if mAny (data.take (d.reads.headD 0)) then s.aer aerPOISON else s
      let bytes := data.take (d.reads.headD 0)
      let got := d.got + bytes.length
      let b := s.band d.seq
      let want := bandRows (dCount r) (dRes r)
      let c := cutRows (dFmt r) (dWidth r) (want - b.rows.length) (d.tail ++ bytes)
      let s1 := (s.setBand d.seq { b with rows := b.rows ++ c.rows }).storesBand st (ceilDiv bytes.length 64)
      let s2 := s1.modDesc st d.count (fun d => { d with got := got, tail := c.rest, reads := answerRead bytes.length d.reads })
      match c.bad with
      | some code => s2.reject st d code
      | none =>
        if got < bandFetch r then s2
        else if b.rows.length + c.rows.length < want then s2.reject st d 0x12
        else s2.bandReady st d (!c.rest.isEmpty)

/-- BAND_DATA_ARRIVAL (R100, R101): data for the oldest read outstanding on stream `st`. What a band that is no longer read had asked for is
dropped as it comes. -/
def State.bandData (s : State) (st : Nat) (ok : Bool) (data : List MByte) : State :=
  match (s.strm st).stray with
  | n :: l =>
    if !ok then (s.readFailed false).modStrm st (fun x => { x with stray := l })
    else
      let s1 := if mAny (data.take n) then s.aer aerPOISON else s
      s1.modStrm st (fun x => { x with stray := answerRead (min n data.length) (n :: l) })
  | [] => s.bandTake st ok data

def execBandDataArrival (st : Fin 128) (ok : Bool) (data : List (BitVec 9)) (s : State) : Out :=
  .next (s.bandData st ok data)

end Sys2Proof.Machine
end

