-- ==== Sys2Proof/Machine/TransOps.lean ====
section
/-! DEFINITION. The splice (R251 to R260): the freeze, the splice point, the states of the sequence, and the zone log. -/

namespace Sys2Proof.Machine

/-- Ceiling of a number of units of 2^-24 count. -/
def ceil24 (q : Int) : Int := -((-q) / 2 ^ 24)

/-- The boundary of position line `l` in travel counts, in units of 2^-24. -/
def State.boundary (s : State) (l : Int) : Int :=
  s.fir.torg + 256 * (l - s.fir.lorg) * ((s.reg FIR_CPL).toNat : Int)

/-- The chip's back line (R254). -/
def State.backLine (s : State) : Int :=
  let cpl := max 1 ((s.reg FIR_CPL).toNat : Int)
  let b := min (s.fld TRN_BACKUP_LINES) s.backMax
  let p := wrapS 72 ((s.splice.v - s.fld POS_REVWIN_COUNTS - 1) * 2 ^ 24 - s.fir.torg) - 256 * b * cpl
  s.fir.lorg + p / (256 * cpl)

/-- Head `h` stands frozen on its resume line: a line that waits for its delayed FIRE has not fired, so it is the resume line, and it is
shifted again unless the head still holds it (R234, R252). -/
def Head.frozen (x : Head) : Head :=
  let l := x.prints
  let held := (match x.lat with | some (m, _) => m == l | none => false) || (match x.burst with | some (m, _) => m == l | none => false)
  { x with next := l, bnext := if x.delay.isEmpty || held then x.bnext else min x.bnext l
           delay := [], urline := none, resume := some l, placed := [], pred := none }

/-- Freeze (R252): no line fires; each live head's resume line is the one it prints next, and V and the back line are computed. -/
def State.freeze (s : State) : State :=
  let hf := s.pos.h
  let hs := s.liveHeads
  let d := (hs.map (fun h => ceil24 (s.toGo h (s.head h).prints hf) - 1)).foldl min 0
  let v := if s.scan then hf else wrapS 48 (hf + d)
  let low := match hs.map (fun h => (s.head h).prints) with | [] => 0 | l :: ls => ls.foldl min l
  let s1 := hs.foldl (fun s h => s.modHead h Head.frozen) s
  let s2 := s1.setSplice { s1.splice with hold := true, active := true, hf := hf, v := v, fired := false, ts := s.tb0, low := low, hot := [] }
  s2.setSplice { s2.splice with back := s2.backLine }

/-- The sequence enters state `q` (R253); in every state but IDLE and START the SPLICE alarm is set (R76). -/
def State.seqTo (s : State) (q : Nat) : State :=
  let s1 := (s.setFld TRN_STATE_SEQ q).setSplice { s.splice with since := s.clk }
  (if q = 0 ∨ q = 1 then s1 else s1.alarm alSPLICE).trnShow

/-- Entry into STOP, counted (R253). -/
def State.toStop (s : State) : State := (s.countReg TRN_SPLCNT 1).seqTo 2

/-- Lines whose stop is repeated: no line fires again until the web has been brought back. The resume lines stand, and one that
waits for its delayed FIRE is taken back (R256). -/
def State.refreeze (s : State) : State :=
  (s.liveHeads.foldl (fun s h => s.modHead h (fun x => { x.frozen with resume := x.resume })) s).setSplice
    { s.splice with hold := true, hot := [] }

/-- Active causes that have not been merged are merged now (R251, R252, R256). A chip is frozen by a cause of its own; a
REMOTE cause only moves the master's sequence, but a splice in which a frozen unit has fired again takes a new freeze. A THERM that still
waits for its splice line merges with the freeze of another cause. -/
def State.spliceRequest (s : State) : State :=
  let new := s.fld TRN_CAUSE_ACT &&& (127 - s.splice.taken)
  let q := s.fld TRN_STATE_SEQ
  if !s.freezeDue || q == 6 then s
  else
    let s1 := s.setSplice { s.splice with taken := s.splice.taken ||| new, causes := s.splice.causes ||| new }
    let s2 :=
      if s1.splice.active then (if q = 5 then (if s1.splice.fired then s1.freeze else s1.refreeze) else s1)
      else if new % 64 != 0 then s1.freeze else s1
    let s3 := if s2.splice.hold then
        s2.setSplice { s2.splice with taken := s2.splice.taken ||| s.fld TRN_CAUSE_ACT, causes := s2.splice.causes ||| s.fld TRN_CAUSE_ACT } else s2
    if s3.actMaster && (q == 0 || q == 5) then s3.toStop else s3

/-! ### The backup (R254) -/

/-- Entry into BACK: a frozen chip requests its rewind, and the master takes the lowest back line that any chip has requested, whether
or not its cause still stands (R254, R255). -/
def State.toBack (s : State) : State :=
  let own := s.backLine
  let reqs := (s.splice.reps.filter (fun r => r.2.asked)).map (fun r => (signed 40 r.2.back : Int))
  let line := if s.splice.active then reqs.foldl min own else (match reqs with | [] => own | r :: rs => rs.foldl min r)
  let s1 := if s.splice.active then s.setPos { s.pos with rewind := some s.splice.v } else s
  (s1.setSplice { s1.splice with target := s1.boundary line / 2 ^ 24 }).seqTo 3

/-- STILL has been set for TRN_SETTLE ms. -/
def State.settled (s : State) : Bool :=
  s.on POS_SPEEDST_STILL && s.timerOver tmStill (usClk (1000 * s.fld TRN_SETTLE_MS))

/-- Every cause is clear on every chip (R253). -/
def State.allClear (s : State) : Bool :=
  s.fld TRN_CAUSE_ACT == 0 && s.splice.reps.all (fun r => !r.2.armed || r.2.cause == 0)

/-! ### Transports that cannot reverse (R259) -/

/-- Lines of head `h` up to the last whose target lies at or below H pass unfired, at most `fuel` of them; how many. -/
def State.passLost (s : State) (h : Nat) : Nat → Nat → State × Nat
  | 0, k => (s, k)
  | n + 1, k =>
    let l := (s.head h).next
    if !s.on PWR_STAT_SAG && (s.head h).before l && s.inPass l && !s.follows h l && decide (s.toGo h l s.pos.h ≤ 0) then (s.lineLost h s.clk).passLost h n (k + 1)
    else (s, k)

/-- Head `h` has passed `n` lines more unfired in this splice: the zone is the most that any one unit has passed (R260). -/
def State.zoneAdd (s : State) (h n : Nat) : State :=
  let s1 := s.modHead h (fun x => { x with zone := x.zone + n })
  s1.setSplice { s1.splice with zone := max s1.splice.zone (s1.head h).zone }

/-- The freeze is released as HOLD_N goes high: what the coasting web has passed forms the defect zone. -/
def State.releaseLost (s : State) : State :=
  let s1 := s.setSplice { s.splice with hold := false }
  s1.liveHeads.foldl (fun s h =>
    let r := s.passLost h lineFuel 0
    r.1.zoneAdd h r.2) s1

/-- Without a rewind: the transport cannot reverse, or the job is in scan mode. -/
def State.noRev (s : State) : Bool := s.on TRN_CTL_NOREV || s.scan

/-- APPROACH is entered: units may fire again (R253, R259). -/
def State.toApproach (s : State) : State :=
  let s1 := s.setSplice { s.splice with hold := false }
  let s2 := if s.noRev && s.splice.active then s1.releaseLost else s1
  s2.seqTo 5

/-! ### The end of a splice -/

/-- Every frozen unit has fired its resume line; one whose end line comes first has nothing to fire. Only the chip's own units are known, for TRNREP
tells of no other chip's: after a splice that froze none of the master's, APPROACH ends at once. A resume line that NOREV passes unfired counts
as fired here and in R256 (DESIGN CHOICE both, log entry 66: R253 and R259 do not say). -/
def State.resumed (s : State) : Bool :=
  s.liveHeads.all (fun h => match (s.head h).resume with
    | some r => decide (r < (s.head h).prints) || !(s.head h).before r
    | none => true)

/-- The zone record of a splice (R260). -/
def State.zoneRecord (s : State) : State :=
  let z := s.fld TRN_ZIDX_NEXT
  let p := s.splice
  let info := p.causes % 128 + 256 * b2n (decide (0 < p.zone)) + 512 * b2n p.nohist + 65536 * min 65535 p.zone
  let s1 := ((s.setReg (TRN_ZLINE z) (BitVec.ofNat 32 p.low)).setReg (TRN_ZTB0 z) p.ts).setReg (TRN_ZINFO z) (BitVec.ofNat 32 info)
  (s1.setFld TRN_ZIDX_NEXT (z + 1)).count TRN_ZIDX_COUNT 1

/-- The freeze is forgotten, and with it what the other chips have asked for. Splice lines that are still to come stand (R252). -/
def State.spliceForget (s : State) : State :=
  (s.liveHeads.foldl (fun s h => s.modHead h (fun x => { x with resume := none, zone := 0 })) s).setSplice
    { Splice.reset with reps := s.splice.reps.map (fun r => (r.1, { r.2 with asked := false }))
                        taken := s.splice.taken, hot := s.splice.hot, since := s.splice.since, back := s.splice.back }

/-- The sequence returns to IDLE. -/
def State.toIdle (s : State) : State := ((if s.splice.active then s.zoneRecord else s).spliceForget).seqTo 0

/-- The sequence ends at once under DISARM: a pending rewind is cancelled (R256). -/
def State.spliceEnd (s : State) : State :=
  let s1 := s.spliceForget
  (s1.setPos { s1.pos with rewind := none }).setSplice { s1.splice with taken := 0, reps := [], hot := [] }

/-- What the other chips asked for in START belongs to no splice: once it is left, only a chip that has a cause now has asked (R254). -/
def State.startOver (s : State) : State :=
  s.setSplice { s.splice with reps := s.splice.reps.map (fun r => (r.1, { r.2 with asked := r.2.asked && r.2.cause != 0 })) }

/-- A chip that does not act as master follows the master's state (R253, R256). One that missed the states between finds IDLE: its
freeze is released on the way. -/
def State.follow (s : State) (q : Nat) : State :=
  let was := s.fld TRN_STATE_SEQ
  let s0 := if was = 1 then s.startOver else s
  if q = was then s
  else if q = 3 then s0.toBack
  else if q = 5 then s0.toApproach
  else if q = 0 then (if was = 1 then s0.seqTo 0 else if was = 5 then s0.toIdle else s0.toApproach.toIdle)
  else if q = 2 then
    (let s1 := if was = 5 ∧ s0.splice.active then (if s0.splice.fired then s0.freeze else s0.refreeze) else s0
     if was = 0 ∨ was = 5 then s1.toStop else s1.seqTo 2)
  else s0.seqTo q

/-! ### Resume lines behind a pointer (R257, R336) -/

/-- The first line from `l` on whose contone is resident or needs none, within `fuel` stretches: what a band has lost to eviction, or
with its place in the directory, is not resident. Data that has still to come is no loss. -/
def State.residentOn (s : State) (x : Stream) : Nat → Nat → Nat
  | 0, l => l
  | n + 1, l =>
    match x.cover.find? (fun c => decide (c.lo ≤ l) && decide (l < c.hi)) with
    | some c =>
      (match c.src with
       | .band q =>
         let b := s.band q
         let y := ((List.range b.rows.length).find? (fun y => decide (b.evict ≤ b.before y))).getD b.rows.length
         if b.lines = 0 then s.residentOn x n c.hi
         else if b.evict = 0 ∨ b.start + y * resFy b.res ≤ l then l
         else if b.start + y * resFy b.res < c.hi then b.start + y * resFy b.res
         else s.residentOn x n c.hi
       | _ => l)
    | none => l

/-- The pointer of head `h` moves back to its resume line, so that lines at or after it that were passed unscreened are screened
(R336). Where the history does not hold them, the lines up to the first resident one pass unfired, as a zone with NOHIST (R257). -/
def State.pointBack (s : State) (h : Nat) : State :=
  let x := s.head h
  match x.resume, s.streamOf h with
  | some r, some st =>
    let f := s.residentOn (s.strm st) (2 * (s.strm st).cover.length + 2) r
    let scr := (x.unscr.filter (fun u => decide (r < u.2))).foldl (fun m u => min m (max r u.1)) x.screen
    let s1 := s.modHead h (fun x => { x with
      screen := scr, tileTo := min x.tileTo scr, unscr := x.unscr.filter (fun u => decide (u.2 ≤ r)) })
    if f ≤ r ∨ s.on PWR_STAT_SAG then s1
    else
      let s2 := (List.range (f - r)).foldl (fun s _ => s.lineLost h s.clk) s1
      let s3 := (s2.modHead h (fun x => { x with resume := some f })).zoneAdd h (f - r)
      s3.setSplice { s3.splice with nohist := true }
  | _, _ => s

/-- The resume lines that the twin logic supplies (R257). -/
def State.twinResume (s : State) : State := s.liveHeads.foldl (fun s h => s.pointBack h) s

end Sys2Proof.Machine
end

