-- ==== Sys2Proof/Machine/JobOps.lean ====
section
/-! DEFINITION. Arming and ending a job: the checks of R61, the origin and first lines (R228, R229), what ARM starts and
what DISARM leaves (R62, R96, R246, R439). -/

namespace Sys2Proof.Machine

/-! ### The checks of R61: the first that fails, with its status code -/

/-- Checks 4 and 5 over the enabled streams. -/
def State.strKindBad (s : State) : Bool :=
  (List.range 128).any (fun st => s.on (STR_CTL_EN st) && (s.on (STR_CTL_KIND st) == (s.boundUnit st).isSome))

def State.cqShared (s : State) : Bool :=
  (List.range 128).any (fun st => s.on (STR_CTL_EN st) && s.fld (STR_CTL_CQ st) == s.fld HIF_CMDCTL_CQ)

/-- Check 7. -/
def State.cqOff (s : State) : Bool :=
  !s.on (HIF_CQCTL_EN (s.fld HIF_CMDCTL_CQ)) ||
  (List.range 128).any (fun st => s.on (STR_CTL_EN st) && !s.on (HIF_CQCTL_EN (s.fld (STR_CTL_CQ st))))

/-- Check 6 (R107): the SWS_ERR code and entry of the first case that holds. -/
def State.partitionBad (s : State) : Option (Nat × Nat) :=
  if (List.range 128).any (fun st => s.on (STR_CTL_EN st) && !s.on (STR_CTL_KIND st) && (s.partOf pkELASTIC st).isNone) then
    some (erNOELASTIC, 0)
  else if !(List.range 32).any (fun i => s.claimed i pkSTAGING && decide (4 ≤ s.fld (SWS_PSIZE_SIZE i))) then some (erNOSTAGE, 0)
  else ((List.range 32).find? (fun i => s.on (SWS_PCTL_CLAIMED i) &&
    decide (s.fld SWS_CAP_USABLE < s.fld (SWS_PBASE_BASE i) + s.fld (SWS_PSIZE_SIZE i)))).map (fun i => (erBOUNDS, i))

/-- The checks in order: a failure leaves everything unchanged but its record, and gives its status code. -/
def State.armCheck (s : State) : Option (Nat × State) :=
  if s.armed then some (0x40, s)
  else if !s.on SYS_CAPS_DRAMOK || s.fld SYS_CAPS_STORE == 0 then some (0x42, s)
  else match s.treeCheck with
    | some c => some (0x30 + c.1, s.unitErr c.1 c.2)
    | none =>
      if s.strKindBad then some (0x46, s)
      else if s.cqShared then some (0x47, s)
      else match s.partitionBad with
        | some c => some (0x43, s.swsErr c.1 c.2)
        | none => if s.cqOff then some (0x48, s) else none

/-! ### Origin and first lines -/

/-- Show the origin in effect (R228). -/
def State.putOrigin (s : State) (torg : Int) (lorg : Nat) : State :=
  let c := unsign 48 (torg / 2 ^ 24)
  ((s.setFir { s.fir with torg := torg, lorg := lorg }).setReg FIR_EORGLO (BitVec.ofNat 32 c)).setReg FIR_EORGHI
    (BitVec.ofNat 32 (c / 2 ^ 32))

/-- FIR_ORGLN. -/
def State.orgLine (s : State) : Nat := s.reg64 FIR_ORGLNLO FIR_ORGLNHI % 2 ^ 40

/-- FIR_ORGT, as a signed 48-bit value. -/
def State.orgT (s : State) : Int := signed 48 (s.reg64 FIR_ORGTLO FIR_ORGTHI)

/-- The job takes its origin at ARM (R228, R306): under CORD it is awaited, but by the line master. Meanwhile FIR_EORGLO and FIR_EORGHI keep
the value of the last job (DEDUCED, log entry 60). -/
def State.takeOrigin (s : State) : State :=
  let m := s.fld FIR_CTL_ORGMODE
  let rel := (s.pos.t + s.orgT) * 2 ^ 24
  if m = 0 then (s.putOrigin (s.orgT * 2 ^ 24) s.orgLine).setFld FIR_STATE_NOORG 0
  else if m = 1 ∨ s.on CRD_CTL_LMASTER then (s.putOrigin rel s.orgLine).setFld FIR_STATE_NOORG 0
  else (s.setFir { s.fir with lorg := s.orgLine }).setOn FIR_STATE_NOORG

/-- The lowest line from `a` on whose target lies above H, with the delay that holds at line `a`. -/
def State.lineAbove (s : State) (h a : Nat) : Nat :=
  let cpl := max 1 ((s.reg FIR_CPL).toNat : Int)
  let num := wrapS 72 (s.pos.h * 2 ^ 24 - s.fir.torg)
  max a (s.fir.lorg + ((num / cpl - (s.effAt h a).dw) / 256 + 1).toNat)

/-- The lowest of the lines from `l` on, at most `n` of them, whose target lies above H. -/
def State.passFirst (s : State) (h l : Nat) : Nat → Nat
  | 0 => l
  | n + 1 => if s.toGo h l s.pos.h ≤ 0 then s.passFirst h (l + 1) n else l

/-- The first line of head `h` in scan mode: targets belong to passes, and the first pass begins at the origin line (R239). Under CORD the
origin may come after passes have begun: then it is the first of the pass in progress whose target lies above H, or the first of the next
pass (DEDUCED, log entry 60). -/
def State.scanFirst (s : State) (h : Nat) : Nat :=
  let n := s.fld FIR_PASSLEN_LINES
  let k := (s.reg FIR_PASS).toNat
  if s.on FIR_STATE_INPASS then s.passFirst h (s.fir.lorg + (k - 1) * n) n else s.fir.lorg + k * n

/-- The first line of head `h` (R229): the lowest line at or after the origin line whose target lies above H. -/
def State.firstLine (s : State) (h : Nat) : Nat :=
  if s.scan then s.scanFirst h
  else
    let starts := s.fir.lorg :: ((s.uops.filter (fun o => decide (s.fir.lorg ≤ o.line))).map (fun o => o.line))
    let ls := (starts.map (fun a => s.lineAbove h a)).filter (fun l => decide (0 < s.toGo h l s.pos.h))
    match ls with
    | [] => s.lineAbove h s.fir.lorg
    | l :: r => r.foldl min l

/-- Head `h` starts the job at its first line. -/
def State.startHead (s : State) (h : Nat) : State :=
  let l := s.firstLine h
  s.modHead h (fun x => { x with first := l, next := l, screen := l, bnext := l, tileTo := l })

/-- Every live head has its first line, once the origin is fixed (R228, R229, R306), and its effective values stand for it. Until
then no line of it counts as fired, and none below it as passed. A pass in progress that has no line left is over. -/
def State.startHeads (s : State) : State :=
  if s.on FIR_STATE_NOORG then s.resolveAll
  else
    let s1 := (s.liveHeads.foldl (fun s h => s.startHead h) s).resolveAll
    if s1.passOver then s1.endPass else s1

/-- Head `h` as a job finds it: nothing screened, fetched, placed or fired. -/
def Head.fresh (x : Head) (live : Bool) : Head :=
  { x with live := live, first := 0, next := 0, screen := 0, unscr := [], fin := none, any := false, lat := none, stag := [], tile := [], tileTo := 0
           late := none, placed := [], pred := none, fireAt := none, fireB := none, pulse := none, bnext := 0, burst := none, urline := none
           delay := [], resume := none, zone := 0, sels := [], outs := [], outBy := 0, mline := none, retq := [], seen := [], rfire := [], obsRet := none, obsFl := false
           past := [] }

/-! ### ARM -/

/-- The MARK and SCHEDULE-EVENT descriptors that waited without a job are looked at again (R91, R95, R96). -/
def State.recheckWaits (s : State) : State :=
  ((s.streams.map (·.1)).foldl (fun s st =>
    ((s.strm st).descs.filter (fun d => d.phase = .waitLine)).foldl (fun s d => s.lineWait st d) s) s).flushAll

/-- The own fields of every unit as ARM freezes them. -/
def State.ownRegs (s : State) : SMap Word :=
  s.regs.filter (fun kv => decide (0x30000 ≤ kv.1) && decide (kv.1 < 0x34000) && decide (kv.1 % 128 ≤ 0x1C))

/-- Streams start with no coverage and END set (R86); a TABLE fetched earlier that fails later changes neither. -/
def State.clearCover (s : State) : State :=
  (s.streams.map (·.1)).foldl (fun s st => s.modStrm st (fun x => { x with
    cover := [], covEnd := 0, covOff := true, rej := [], descs := x.descs.map (fun d => { d with cov0 := 0, off0 := true, ncov := 0 }) })) s

/-- The causes that a job finds standing (R251). -/
def State.standingCauses (s : State) : State :=
  let s1 := if s.on TRN_STATE_DRVRDY then s else s.raiseCause 4
  let s2 := if s1.hotWith 3 then s1.raiseCause 1 else s1
  if s2.liveHeads.any (fun h => s2.on (HPT_RETST_FAULT h) && s2.fld (HPT_RETCFG_ACTION h) == 2) then s2.raiseCause 2 else s2

/-- A head that the job finds too hot under SUBSTITUTE, or with a chain-return fault under OUT, is out from the start (R192,
R236). -/
def State.armOut (s : State) (h : Nat) : State :=
  let hot := (s.head h).hot && (s.effAt h (s.head h).prints).pol == 1
  let ret := s.on (HPT_RETST_FAULT h) && s.fld (HPT_RETCFG_ACTION h) == 1
  if s.on KLN_CTL_LAYOUT && (hot || ret) then
    s.modHead h (fun x => { x with outBy := b2n hot + 2 * b2n ret, outs := [(0, none)] })
  else s

/-- What the twin logic forgets with a new job (R324, R331, R333). -/
def Twin.fresh (w : Twin) : Twin :=
  { w with out := [], lines := [], agrees := [], emb := [], pemb := [], divOpen := false, suspect := false, input := false, skipAt := []
           rxBad := 0, holdTwin := false, digest := false, ret := none, moved := 0 }

/-- With AUTORET 0b the preferred chip takes the heads at ARM, where it is ready but for the job (R340): the outgoing chip
releases its drivers, and the preferred one waits for that. -/
def State.armSwap (s : State) : State :=
  if !s.twinOn || s.polAUTORET || s.on TWN_STATE_STRAPDUP then s
  else if s.preferred && s.role == roSTANDBY && (s.notReady == 0 || s.notReady == nrNOJOB) then
    s.setTwin { s.twin with swap := true }
  else if !s.preferred && s.role == roACTIVE && s.fld TWN_STATE_PROLE == roSTANDBY && (s.twin.pready || s.twin.preason == nrNOJOB) then
    let s0 := (s.allPorts 2).busGive
    let s1 := s0.twinSend 0x18 [s0.offMask]
    ((s1.setFld TWN_STATE_ROLE roSTANDBY).setTwin { s1.twin with mast := false, released := 0 }).setDriven 64 false
  else s

/-- A change of MODE that still waits at ARM is dropped where it is no doing of the twin logic: while a job is armed only that changes MODE
(R183; DEDUCED, log entry 50). -/
def State.dropModes (s : State) : State :=
  (List.range 64).foldl (fun s h => s.modHead h (fun x => if x.modeTw then x else { x with mode := none })) s

/-- A job begins with `seed` (R30, R61, R86, R163, R219, R228, R253, R277, R394). -/
def State.armJob (s : State) (seed : Nat) : State :=
  let live := (List.range 64).filter (fun h => s.reaches h)
  let s := s.dropModes
  let s1 := ({ s.tablesQuiet with twin := s.tablesQuiet.twin.fresh, ubase := s.ownRegs, uops := [] } : State).setReg KLN_SEED (BitVec.ofNat 32 seed)
  let s2 := (List.range 64).foldl (fun s h => s.modHead h (fun x => x.fresh (live.contains h))) s1
  let s3 := ((s2.setOn HIF_CTL_ARMED).setPos { s2.pos with h := s2.pos.t, sgn := 1, norev := s2.scan, rewind := none }).clearCover
  let s4 := (((s3.setFld POS_STATE_REVERSED 0).setFld FIR_STATE_SUSPR 0).setFld FIR_STATE_INPASS 0).suspShow.trigMark s3.pos.h
  let s5 := if s4.fld POS_ZMODE_MODE = 2 then s4.setOn POS_ZMODE_ZARM else s4
  let s6 := ((s5.setFld ECC_FLIPCTL_ARM 0).setReg FIR_PASS 0#32).setReg INS_CYCLE 0#32
  let s7 := (((({ s6 with insp := { s6.insp with last := 0, strips := [], runs := [], batch := none }, refs := [], refNext := [] } : State).setReg INS_LAST 0#32).modCam 0 Cam.anew).modCam 1 Cam.anew).takeOrigin
  let s8 := ({ s7 with kiln := { s7.kiln with burst := [], last := none }
                       cord := { s7.cord with snap := none, cap := none, stateAt := s7.clk, silent := false, lmFrom := none, oreqAt := 0 } } : State).startHeads
  let s8 := (countUp 64 64).foldl (fun s u => s.putLastOf u) s8
  let s8 := s8.liveHeads.foldl (fun s h => s.armOut h) s8
  let s9 := ((s8.setFld TRN_CAUSE_ACT 0).setSplice Splice.reset).standingCauses
  let s9 := s9.overAll
  ((s9.seqTo 1).recheckWaits).flushHost

/-- ARM: the hand-over that AUTORET 0b leaves to it, then the job (R61, R340). -/
def State.armNow (s : State) (seed : Nat) : State := s.armSwap.armJob seed

/-! ### DISARM -/



/-- A head that ends where it stands owes a flush burst where its latest line was driven (R181, R182). -/
def State.owesFlush (s : State) (h : Nat) : Bool := (s.head h).any && s.drives h && s.enAt h ((s.head h).next - 1)

/-- Head `h` ends at the command's line, or from its next unscreened line (R62). -/
def State.endHead (s : State) (h e : Nat) : State :=
  s.modHead h (fun x =>
    let f := max e x.screen
    { x with fin := some f, placed := x.placed.filter (fun p => decide (p.1 < f)), flush := x.flush || (s.owesFlush h && decide (f ≤ x.next)) })

/-- Head `h` counts as having passed its end line where it stands. -/
def State.endHere (s : State) (h : Nat) : State :=
  s.modHead h (fun x => { x with fin := some x.next, placed := [], flush := s.owesFlush h })

/-- Head `h` has passed its end line (R62). -/
def State.headEnded (s : State) (h : Nat) : Bool :=
  match (s.head h).fin with
  | some e => decide (e ≤ (s.head h).prints) && (s.scan || decide (s.toGo h e s.pos.h ≤ 0))
  | none => false

/-- SWS_RDLINE(h) in an armed job (R113, R439): the read pointer of a live head, 0 for a head that has none. -/
def State.readLine (s : State) (h : Nat) : Nat := if s.isLive h then (s.head h).prints else 0

/-- STR_FILL, SWS_HIST and SWS_RDLINE keep the values that the job leaves (R439). -/
def State.keepFigures (s : State) : State :=
  let s1 := (List.range 128).foldl (fun s st =>
    (s.setReg (STR_FILL st) (BitVec.ofNat 32 (s.fillNow st))).setReg (SWS_HIST st) (BitVec.ofNat 32 (s.swsHist st))) s
  (List.range 64).foldl (fun s h => s.setReg (SWS_RDLINE h) (BitVec.ofNat 32 (s1.readLine h))) s1

/-- Does descriptor `d` wait for lines of the job? -/
def Desc.lines (d : Desc) : Bool :=
  match d.phase with
  | .waitAdmit => true
  | .reading => true
  | .printing => true
  | .waitLine => true
  | _ => false

/-- Every fetched descriptor whose lines are not all printed completes with ABORTED (R62, R96); bands that are not ready
leave the store, and the others are history. -/
def State.abortAll (s : State) : State :=
  (s.streams.map (·.1)).foldl (fun s st =>
    ((s.strm st).descs.filter Desc.lines).foldl (fun s d =>
      let s1 := (s.dropReads st d.count).complete st d.count 0x03 (if dOp d.raw = 1 ∨ dOp d.raw = 5 then d.first else dLine d.raw)
      if (s1.band d.seq).ready then s1.bandDone d
      else ({ s1 with bands := s1.bands.drop (fun k => dOp d.raw == 1 && k == d.seq) } : State)) s) s

/-- Halted streams return to RUN, at the slot after the descriptor that halted them. -/
def State.unhaltAll (s : State) : State :=
  (List.range 128).foldl (fun s st =>
    if s.strState st = stHALTED then
      ((s.modStrm st (fun x => { x with halt := none, rwait := false })).setFld (STR_STATE_STATE st) stRUN).holdState st
    else s) s

/-- What a port keeps of a job: the chains' contents and its counts. Ramps run on until the channel stands at its target (R39). -/
def Head.ended (x : Head) : Head :=
  { x with fin := none, stag := [], tile := [], late := none, placed := [], pred := none, urline := none, delay := [], resume := none }

/-- A return that the end of the job cuts short, since no line then moves the ports that are left. Where no port of this chip has moved, it is
given up; else the outgoing chip releases the rest, and the incoming one takes them as at a takeover, once the partner drives none (R321,
R340; DESIGN CHOICE, log entry 81). -/
def State.returnCut (s : State) : State :=
  if s.twin.ret.isNone then s
  else
    let s0 := (List.range 64).foldl (fun s h => s.modHead h (fun x => if x.modeTw then { x with mode := none } else x)) s
    let s1 := s0.setTwin { s0.twin with ret := none, moved := 0 }
    if s.twin.moved = 0 then s1
    else if s.role == roACTIVE then
      let s2 := (s1.allPorts 2).busGive
      let s3 := s2.twinSend 0x18 [s2.offMask]
      ((s3.setFld TWN_STATE_ROLE roSTANDBY).setTwin { s3.twin with mast := false, released := 0 }).setDriven 64 false
    else if s.role == roSTANDBY then
      let s2 := (List.range 64).foldl (fun s h => if s.drives h then s else s.modHead h (fun x => { x with mode := some 1, modeTw := true })) s1
      let s3 := ((s2.setFld TWN_STATE_ROLE roACTIVE).countReg TWN_RETCNT 1).setOn TWN_STATE_RETURNED
      (s3.setTwin { s3.twin with mast := true }).busTake.setDriven 64 (s.on TRN_CTL_MASTER)
    else s1

/-- The job ends: the configuration is unfrozen and ARMED clears (R62, R137, R246, R306, R439). -/
def State.jobEnd (s : State) : State :=
  let s1 := ((s.returnCut.keepFigures.abortAll).unhaltAll).clearCover
  let s2 := (s1.spliceEnd.tablesQuiet).setFld HIF_CTL_ARMED 0
  let s3 := (List.range 64).foldl (fun s h => s.modHead h Head.ended) s2
  let s4 := ((s3.setFld TRN_MAN_HOLD 1).setFld TRN_MAN_REV 0).setFld TRN_MAN_DEMAND 0
  let s5 := ((s4.setFld TRN_CAUSE_ACT 0).setFld TRN_STATE_SEQ 0).setFld FIR_STATE_NOORG 0
  let s6 := ((s5.setFld FIR_STATE_INPASS 0).setPos { s5.pos with sgn := 1, norev := false }).hwmUpdate
  ({ s6 with uops := [], cord := { s6.cord with snap := none, cap := none, lmFrom := none } } : State).trnShow.flushAll

end Sys2Proof.Machine
end

