-- ==== Sys2Proof/Machine/CordOps.lean ====
section
/-! DEFINITION. Shared operations of the Cord ring: sending and forwarding frames (R299 to R301), the discipline of TB0
(R304, R305), line agreement (R306), reports (R307), broadcasts, barriers and scheduled actions (R308 to R312). -/

namespace Sys2Proof.Machine

def State.setCord (s : State) (c : Cord) : State := { s with cord := c }

/-- The Cord ring works: enabled, with its clock and its registers served. -/
def State.cordOn (s : State) : Bool := s.on CRD_CTL_EN && s.barOk 13

/-- This chip's ring address. -/
def State.addr (s : State) : Nat := s.fld CRD_CTL_ADDR

/-! ### Frames -/

/-- Is the link up that frames of ring `r` leave on: CE for ring A, CW for ring B? -/
def State.exitUp (s : State) (r : Nat) : Bool := if r = 0 then s.on CRD_STATE_UPE else s.on CRD_STATE_UPW

/-- A frame leaves on ring `r`, or crosses to the other ring where its link is down and WRAPEN allows it (R299). -/
def State.ringSend (s : State) (r kind : Nat) (body : List Nat) : State :=
  if s.exitUp r then s.sendFrame r kind body
  else if s.on CRD_CTL_WRAPEN && s.exitUp (1 - r) then s.sendFrame (1 - r) kind body else s

/-- A frame of another chip goes on, unless its hop count reaches 128 (R300). -/
def State.forward (s : State) (h : Hdr) (kind : Nat) (body : List Nat) : State :=
  if h.hops + 1 < 128 then s.ringSend h.ring kind (h.from_ :: (h.hops + 1) :: h.seq :: body) else s

/-- A frame of this chip leaves: header bytes 1 to 3 are its address, a hop count of 1, which counts the link that it leaves on, and the
next sequence number (R300). -/
def State.originate (s : State) (r kind : Nat) (body : List Nat) : State :=
  (s.setCord { s.cord with txSeq := (s.cord.txSeq + 1) % 256 }).ringSend r kind (s.addr :: 1 :: s.cord.txSeq :: body)

/-- Set bit `i` of a bitmap. -/
def withBit (m i : Nat) : Nat := m ||| 2 ^ i

/-! ### Topology -/

/-- CRD_STATE.RING from the links, and from whether the chip's own DISCOVER comes back as sent or crossed (R299). -/
def State.ringShow (s : State) (back crossed : Bool) : State :=
  let e := s.on CRD_STATE_UPE
  let w := s.on CRD_STATE_UPW
  let v := if !s.on CRD_CTL_EN || (!e && !w) then 0
    else if back && !crossed && e && w then 1
    else if back || (e != w && s.on CRD_CTL_WRAPEN) then 2 else 3
  let s1 := s.setFld CRD_STATE_RING v
  if v = 1 then s1 else s1.alarm alCORD

/-! ### Time -/

/-- The average of the latest hop delays. -/
def avg (l : List Nat) : Nat := l.foldl (· + ·) 0 / max 1 l.length

/-- The hop delay of the link that ring `r` enters on: CW for ring A, CE for ring B, 1/16 ns (R303). -/
def State.hopIn (s : State) (r : Nat) : Nat := if r = 0 then s.fld (CRD_HOPW_DELAY) else s.fld CRD_HOPE_DELAY

/-- The offset of a SYNC, in units of 2^-24 ns (R304). -/
def State.syncOffset (s : State) (r time frac : Nat) : Int :=
  signed 56 (unsign 56 ((time * 2 ^ 24 + frac * 2 ^ 8 + s.hopIn r * 2 ^ 20 : Nat) - (s.tbAcc 0 : Nat) : Int))

/-- TB0 is disciplined by an offset (R305). -/
def State.discipline (s : State) (off : Int) : State :=
  let ns := off / 2 ^ 24
  let s1 := (s.setReg CRD_OFFSET (BitVec.ofNat 32 (unsign 32 (sat32 ns)))).setFld CRD_STATE_HOLDOVER 0
  let s2 :=
    if s1.fld CRD_SYNC_STEPTH * 1000 * 2 ^ 24 ≤ off.natAbs ∧ !s1.armed then
      (s1.tbPut 0 (unsign 56 ((s1.tbAcc 0 : Int) + off))).countReg CRD_STEPS 1
    else
      let n : Int := 16 * (s1.fld CRD_SYNC_PER * 4000 : Nat)
      let lim : Int := ((s1.reg (TIM_INC 0)).toNat * s1.fld CRD_SYNC_SLEWMAX / 1000000 : Nat)
      let c := if n = 0 then 0 else Int.tdiv off n
      s1.setReg CRD_CORR (BitVec.ofNat 32 (unsign 32 (max (-lim) (min lim c))))
  let good := if off.natAbs < 20 * 2 ^ 24 then min 8 (s2.cord.good + 1) else 0
  let s3 := s2.setCord { s2.cord with good := good, syncAt := s2.clk }
  if 100 * 2 ^ 24 ≤ off.natAbs then s3.setFld CRD_STATE_LOCK 0
  else if good = 8 then s3.setOn CRD_STATE_LOCK else s3

/-- Which of two masters is followed: the lower address; two of them set the conflict bit `f` (R305, R306). -/
def State.followLow (s : State) (f : Fld) (old : Option Nat) (a : Nat) : State × Nat :=
  match old with
  | some b => if a = b then (s, a) else ((s.setOn f).alarm alCORD, min a b)
  | none => (s, a)

/-- Core clocks of `n` SYNC periods (R301). -/
def State.syncClk (s : State) (n : Nat) : Nat := n * s.fld CRD_SYNC_PER * usClk 10

/-- The time master followed so far, while its SYNC has come in the latest two periods; a master is its own (R305; log entry 19). -/
def State.tmNow (s : State) : Option Nat :=
  if s.on CRD_CTL_TMASTER then some s.addr
  else if s.cord.tmAt + s.syncClk 2 < s.clk then none else s.cord.tmFrom

/-! ### Line agreement (R306) -/

/-- The chip awaits its origin. -/
def State.awaitsOrigin (s : State) : Bool := s.armed && s.on FIR_STATE_NOORG

/-- This chip answers as line master. -/
def State.lineMaster (s : State) : Bool := s.armed && s.on CRD_CTL_LMASTER

/-- Capture the interpolated travel count for the snapshot that is due at `w`. -/
def State.capture (s : State) (w : Word) : State :=
  s.setCord { s.cord with snap := none, cap := some (w, s.interp, s.on POS_STATE_TRUST && !s.on POS_STATE_REVERSED) }

/-- Λ in units of 2^-24 line for a travel count `t` in 1/256 (R306 step 4), rounded half up. -/
def State.lambda (s : State) (t : Int) : Int :=
  let cpl := max 1 ((s.reg FIR_CPL).toNat : Int)
  (s.fir.lorg : Int) * 2 ^ 24 + (2 * (wrapS 72 (t * 2 ^ 16 - s.fir.torg) * 2 ^ 16) + cpl) / (2 * cpl)

/-- Torg in units of 2^-24 count from a capture `t` and Λ (R306 step 5), rounded half up. -/
def State.torgFrom (s : State) (t lam : Int) : Int :=
  let cpl := ((s.reg FIR_CPL).toNat : Int)
  (t * 2 ^ 32 - (lam - (s.orgLine : Int) * 2 ^ 24) * cpl + 2 ^ 15) / 2 ^ 16

/-- The origin is taken from an ORIGIN frame. A MARK or a SCHEDULE-EVENT that waits for a line below the first lines that it fixes finds that
line counted now: it completes here, with TB0 of this moment and the unit's next line (DESIGN CHOICE, log entry 60: R96 speaks of ORIGIN for
what is fetched, not for what waits). -/
def State.originTaken (s : State) (w : Word) (t lam : Int) : State :=
  let s1 := (s.putOrigin (s.torgFrom t lam) s.orgLine).setFld FIR_STATE_NOORG 0
  let s2 := (s1.setReg64 CRD_ORGLNLO CRD_ORGLNHI (unsign 40 (lam / 2 ^ 24))).setFld CRD_ORGFRAC_FRAC (unsign 24 lam)
  ((s2.setReg CRD_ORGTB0 w).setCord { s2.cord with cap := none }).startHeads.recheckWaits

/-! ### Transport frames (R307) -/

/-- What a TRNREP of this chip carries: job, ARMED, factor, active causes, back line and ready. -/
def State.report (s : State) : List Nat :=
  let act := s.fld TRN_CAUSE_ACT % 64
  [(s.reg CRD_JOBID).toNat, b2n s.armed, s.ownFactor, act, unsign 40 s.splice.back, b2n (act == 0)]

/-- What of a report makes it go at once when it changes (R307): ARMED, the active causes, the back line and the ready bit. -/
def repKey : List Nat → List Nat
  | _ :: a :: _ :: r => a :: r
  | l => l

def State.sendReport (s : State) : State :=
  let r := s.report
  let s1 := s.originate 0 0x50 r
  s1.setCord { s1.cord with repAt := s.clk, repLast := r }

/-- The REMOTE cause follows the reports of the other chips (R251, R307): a silent chip counts as one. -/
def State.remoteCause (s : State) : State :=
  if !(s.armed && s.actMaster) then s
  else
    let busy := s.splice.reps.any (fun r => r.2.armed && (r.2.cause != 0 || !r.2.ready))
    let on := bitAt (s.fld TRN_CAUSE_ACT) 6
    if busy && !on then s.raiseCause 6 else if !busy && on then s.dropCause 6 else s

/-- The master sends its sequence state. -/
def State.sendState (s : State) : State :=
  let s1 := s.originate 0 0x51 [s.fld TRN_STATE_SEQ, (s.reg TRN_SPLCNT).toNat]
  s1.setCord { s1.cord with stateTx := s.clk }

/-! ### Broadcasts -/

/-- CRD_BRX and CRD_BRXSTAT show the oldest message (R308). -/
def State.brxShow (s : State) : State :=
  let m := s.cord.inbox.headD (0, 0)
  let s1 := (List.range 4).foldl (fun s j => s.setReg (CRD_BRX j) (BitVec.ofNat 32 (m.2 / 2 ^ (32 * j)))) s
  ((s1.setFld CRD_BRXSTAT_SRC m.1).setFld CRD_BRXSTAT_COUNT s.cord.inbox.length).setBit CRD_BRXSTAT_VALID (!s.cord.inbox.isEmpty)

/-! ### Scheduled actions -/

/-- Queue an action, where the rules allow it (R310); whether it was queued. -/
def State.schedTake (s : State) (kind : Nat) (w : Word) : State × Bool :=
  if !timeDue w s.tb0 && decide (s.cord.queue.length < 4) && decide (kind ≤ 1) && (kind != 1 || s.on CRD_CTL_RSTEN) then
    (s.setCord { s.cord with queue := s.cord.queue ++ [(kind, w)] }, true)
  else (s, false)

/-- Queued actions are lost with the ring (R312). -/
def State.schedDrop (s : State) : State :=
  if s.cord.queue.isEmpty then s else ((s.setCord { s.cord with queue := [] }).setOn CRD_SCHEDST_DROPPED).alarm alCORD

/-- A bitmap in a pair of registers. -/
def State.putMap (s : State) (lo hi map : Nat) : State := s.setReg64 lo hi map

/-- Clearing CRD_CTL.EN clears all barrier and queue state (R309). A BCAST or SCHED in flight stays so until it is back or lost (R311). -/
def State.cordClear (s : State) : State :=
  ((s.setCord { Cord.reset with
      silent := s.cord.silent, stateAt := s.cord.stateAt, snap := s.cord.snap, cap := s.cord.cap, txSeq := s.cord.txSeq
      sentAt := s.cord.sentAt, sentSeq := s.cord.sentSeq, schedAt := s.cord.schedAt, schedSeq := s.cord.schedSeq }).brxShow.setReg
    CRD_BARST 0#32).ringShow false false

end Sys2Proof.Machine
end

