-- ==== Sys2Proof/Machine/CordRows.lean ====
section
/-! DEFINITION. The Cord ring commands (R299 to R311). A frame command names the ring it came on, its hop count and its
originator. -/

namespace Sys2Proof.Machine

open Sys2Proof

/-! ### Links and membership -/

/-- CORD_LINK_CHANGE (R299): link CE (0) or CW (1) comes up or goes down. -/
def State.cordLink (s : State) (l : Nat) (up : Bool) : State :=
  let f := if l = 0 then CRD_STATE_UPE else CRD_STATE_UPW
  let s1 := s.setBit f up
  let s2 := if up then s1.setCord { s1.cord with discAt := 0, probe := s1.cord.probe.drop (fun k => k == l) } else s1
  (if s.on f && !up then (s2.countReg CRD_LINKDN 1).alarm alCORD else s2).ringShow (s.fld CRD_STATE_RING == 1 && up) false

def execCordLinkChange (l : Fin 2) (up : Bool) (s : State) : Out := .next (s.cordLink l up)

/-- DISCOVER (R302): the chip's own frame is back, as sent or crossed to the other ring, or another chip's passes. The one that went out on
ring A gives NODES and CRD_TRAV. -/
def State.discover (s : State) (h : Hdr) (mine crossed : Bool) (expect : Nat) : State :=
  if !s.cordOn then s
  else if mine then
    let r := if crossed then 1 - h.ring else h.ring
    let left := s.cord.disc.get (fun _ => 0) r
    if left = 0 then s
    else
      let s1 := if r = 0 then s.setFld CRD_TRAV_NS (min (2 ^ 24 - 1) ((s.clk + 1 - left) * 5 / 2)) else s
      let s2 := if r = 0 ∧ !crossed then
          (let s3 := s1.setFld CRD_STATE_NODES h.hops
           if h.hops = s.fld CRD_CTL_EXPECT then s3 else (s3.setOn CRD_STATE_MEMBER).alarm alCORD)
        else s1
      (s2.setCord { s2.cord with disc := s2.cord.disc.set (fun _ => 0) r 0 }).ringShow true crossed
  else
    let s1 := s.setCord { s.cord with found := withBit s.cord.found h.from_ }
    let s2 := if h.from_ = s.addr then (s1.setOn CRD_STATE_ADDRCONF).alarm alCORD else s1
    s2.forward h 1 [expect]

def execDiscover (t : Nat) (r : Fin 2) (hd : HopSeq) (mine crossed : Bool) (a : Fin 64) (expect : BitVec 7) (s : State) : Out :=
  .next ((s.advance t).discover ⟨r, hd.hops, hd.seq.toNat, a⟩ mine crossed expect.toNat)

/-- A PROBE is due on port `l`, every 1 ms while its link is up (R301, R303). -/
def State.probeOut (s : State) (l : Nat) : State :=
  let last := s.cord.probe.get (fun _ => 0) l
  if s.on (if l = 0 then CRD_STATE_UPE else CRD_STATE_UPW) && (last == 0 || decide (last + usClk 1000 ≤ s.clk + 1)) then
    (s.sendFrame (2 + l) 2 [s.addr, 1, s.cord.txSeq, s.tb0.toNat]).setCord
      { s.cord with probe := s.cord.probe.set (fun _ => 0) l (s.clk + 1), txSeq := (s.cord.txSeq + 1) % 256 }
  else s

/-- DISCOVER is due at link-up and every 1 ms, on both rings (R301); one that is not back shows a split ring. -/
def State.discoverOut (s : State) : State :=
  if s.cord.discAt != 0 && decide (s.clk + 1 < s.cord.discAt + usClk 1000) then s
  else
    let s1 := if s.cord.disc.isEmpty then s else s.ringShow false false
    let b := [s1.fld CRD_CTL_EXPECT]
    let s2 := (s1.originate 0 1 b).originate 1 1 b
    s2.setCord { s2.cord with discAt := s.clk + 1, disc := [(0, s.clk + 1), (1, s.clk + 1)], found := withBit s2.cord.found s2.addr }

/-- DISCOVER_PROBE_TIMER (R301). -/
def State.discoverTimer (s : State) : State :=
  if !s.cordOn || !(s.on CRD_STATE_UPE || s.on CRD_STATE_UPW) then s else (s.discoverOut.probeOut 0).probeOut 1

def execDiscoverProbeTimer (t : Nat) (s : State) : Out := .next (s.advance t).discoverTimer

/-- PROBE (R303): answered on the same link with the turnaround time, which the spec leaves to the chip (log entry 5). -/
def State.probe (s : State) (l : Nat) : State :=
  if s.cordOn then
    (s.draw.2.sendFrame (2 + l) 3 [s.addr, 1, s.cord.txSeq, s.draw.1.toNat % 2 ^ 16]).setCord { s.draw.2.cord with txSeq := (s.cord.txSeq + 1) % 256 }
  else s

def execProbe (l : Fin 2) (s : State) : Out := .next (s.probe l)

/-- REPLY (R303): round trip and turnaround in 1/16 ns; the hop delay is averaged over the latest 16 probes. -/
def State.replyIn (s : State) (l rtt turn : Nat) : State :=
  if !s.cordOn then s
  else
    let ds := (((rtt - turn) / 2) :: s.cord.hops.get (fun _ => []) l).take 16
    (s.setCord { s.cord with hops := s.cord.hops.set (fun _ => []) l ds }).setFld
      (if l = 0 then CRD_HOPE_DELAY else CRD_HOPW_DELAY) (min 65535 (avg ds))

def execReply (l : Fin 2) (rtt turn : BitVec 24) (s : State) : Out := .next (s.replyIn l rtt.toNat turn.toNat)

/-! ### Press time -/

/-- SYNC_TIMER (R301, R304): the time master sends TB0 on both rings, every CRD_SYNC.PER times 10 µs. -/
def State.syncTimer (s : State) : State :=
  if s.cordOn && s.on CRD_CTL_TMASTER && (s.cord.syncTx == 0 || decide (s.cord.syncTx + s.syncClk 1 ≤ s.clk + 1)) then
    let b := [s.tb0.toNat, bitsOf (s.tbAcc 0) 8 16]
    let s1 := (s.originate 0 0x10 b).originate 1 0x10 b
    s1.setCord { s1.cord with syncTx := s.clk + 1 }
  else s

def execSyncTimer (t : Nat) (s : State) : Out := .next (s.advance t).syncTimer

/-- SYNC (R304, R305): forwarded with its time moved on by the hop and by what the frame spent in the chip, and used where it came over
the fewer hops; a count that two periods have not renewed stands no longer (log entry 19). -/
def State.sync (s : State) (h : Hdr) (time frac : Nat) : State :=
  if !s.cordOn || h.from_ == s.addr then s
  else
    let a := h.from_
    let est := time * 2 ^ 16 + frac + s.hopIn h.ring * 2 ^ 12 + s.draw.1.toNat % 2 ^ 24
    let s1 := s.draw.2.forward h 0x10 [est / 2 ^ 16 % 2 ^ 32, est % 2 ^ 16]
    let f := s1.followLow CRD_STATE_TMCONF s1.tmNow a
    let other := s1.cord.near.get (fun _ => (0, 0)) (1 - h.ring)
    let near := other.2 != 0 && decide (s1.clk < other.2 + s1.syncClk 2)
    if f.2 != a then f.1
    else
      let s2 := f.1.setCord { f.1.cord with tmFrom := some a, tmAt := s1.clk, near := f.1.cord.near.set (fun _ => (0, 0)) h.ring (h.hops, s1.clk + 1) }
      if near && (decide (other.1 < h.hops) || (other.1 == h.hops && h.ring == 1)) then s2
      else s2.discipline (s.syncOffset h.ring time frac)

def execSync (t : Nat) (r : Fin 2) (hd : HopSeq) (a : Fin 64) (time : BitVec 32) (frac : BitVec 16) (s : State) : Out :=
  .next ((s.advance t).sync ⟨r, hd.hops, hd.seq.toNat, a⟩ time.toNat frac.toNat)

/-- HOLDOVER (R305): no SYNC for CRD_SYNC.TO periods. -/
def State.holdover (s : State) : State :=
  if s.cordOn && s.disciplined &&
      decide (s.cord.syncAt + s.fld CRD_SYNC_TO * s.fld CRD_SYNC_PER * usClk 10 ≤ s.clk) then
    (((s.setOn CRD_STATE_HOLDOVER).setFld CRD_STATE_LOCK 0).setCord
      { s.cord with good := 0, tmFrom := if s.on CRD_CTL_TMASTER then s.cord.tmFrom else none }).alarm alCORD
  else s

def execHoldover (t : Nat) (s : State) : Out := .next (s.advance t).holdover

/-! ### Line agreement (R306) -/

/-- OREQ_TIMER (R306): a chip awaiting its origin asks, and asks again every 1 ms. -/
def State.oreqTimer (s : State) : State :=
  if s.cordOn && s.awaitsOrigin && (s.cord.oreqAt == 0 || decide (s.cord.oreqAt + usClk 1000 ≤ s.clk + 1)) then
    let s1 := s.originate 0 0x20 [(s.reg CRD_JOBID).toNat]
    s1.setCord { s1.cord with oreqAt := s.clk + 1 }
  else s

def execOreqTimer (t : Nat) (s : State) : Out := .next (s.advance t).oreqTimer

/-- OREQ (R306): the line master of the job plans one snapshot for all. -/
def State.oreq (s : State) (h : Hdr) (job : Word) : State :=
  if !s.cordOn || h.from_ == s.addr then s
  else
    let s1 := s.forward h 0x20 [job.toNat]
    if s1.lineMaster && job == s1.reg CRD_JOBID && s1.cord.snap.isNone then
      let w := s1.tb0 + BitVec.ofNat 32 (2 * s1.fld CRD_TRAV_NS + 10000)
      (s1.setCord { s1.cord with snap := some w }).originate 0 0x21 [job.toNat, w.toNat, 2 ^ s1.addr]
    else s1

def execOreq (t : Nat) (r : Fin 2) (hd : HopSeq) (a : Fin 64) (job : BitVec 32) (s : State) : Out :=
  .next ((s.advance t).oreq ⟨r, hd.hops, hd.seq.toNat, a⟩ job)

/-- OSNAP (R306): a chip that awaits its origin joins the snapshot while its time is ahead. -/
def State.osnap (s : State) (h : Hdr) (job w : Word) (map : Nat) : State :=
  if !s.cordOn || h.from_ == s.addr then s
  else
    let f := s.followLow CRD_STATE_LMCONF (if s.on CRD_CTL_LMASTER then some s.addr else s.cord.lmFrom) h.from_
    let s1 := f.1.setCord { f.1.cord with lmFrom := some f.2 }
    if s1.awaitsOrigin && job == s1.reg CRD_JOBID && !timeDue w s1.tb0 then
      (s1.setCord { s1.cord with snap := some w }).forward h 0x21 [job.toNat, w.toNat, withBit map s1.addr]
    else s1.forward h 0x21 [job.toNat, w.toNat, map]

def execOsnap (t : Nat) (r : Fin 2) (hd : HopSeq) (a : Fin 64) (job w : BitVec 32) (map : BitVec 64) (s : State) : Out :=
  .next ((s.advance t).osnap ⟨r, hd.hops, hd.seq.toNat, a⟩ job w map.toNat)

/-- ORIGIN_SNAPSHOT_DUE (R306): capture; the line master then sends ORIGIN. -/
def State.snapshotDue (s : State) : State :=
  match s.cord.snap with
  | some w =>
    if timeDue w s.tb0 then
      let s1 := s.capture w
      if s1.lineMaster then
        let l := s1.lambda s.interp
        s1.originate 0 0x22 [(s1.reg CRD_JOBID).toNat, w.toNat, unsign 40 (l / 2 ^ 24), unsign 24 l,
          b2n (s.on POS_STATE_TRUST && !s.on POS_STATE_REVERSED)]
      else s1
    else s
  | none => s

def execOriginSnapshotDue (t : Nat) (s : State) : Out := .next (s.advance t).snapshotDue

/-- ORIGIN (R306): taken by a waiting chip whose own capture at that time was sound. -/
def State.origin (s : State) (h : Hdr) (job w : Word) (line frac : Nat) (valid : Bool) : State :=
  if !s.cordOn || h.from_ == s.addr then s
  else
    let f := s.followLow CRD_STATE_LMCONF (if s.on CRD_CTL_LMASTER then some s.addr else s.cord.lmFrom) h.from_
    let s1 := (f.1.setCord { f.1.cord with lmFrom := some f.2 }).forward h 0x22 [job.toNat, w.toNat, line, frac, b2n valid]
    if s1.awaitsOrigin && job == s1.reg CRD_JOBID && f.2 == h.from_ then
      match s1.cord.cap with
      | some (cw, t, ok) =>
        if valid && ok && cw == w then s1.originTaken w t ((line * 2 ^ 24 + frac : Nat) : Int)
        else s1.setCord { s1.cord with cap := none }
      | none => s1
    else s1

def execOrigin (r : Fin 2) (hd : HopSeq) (a : Fin 64) (job w : BitVec 32) (line : BitVec 40) (frac : BitVec 24) (valid : Bool)
    (s : State) : Out :=
  .next (s.origin ⟨r, hd.hops, hd.seq.toNat, a⟩ job w line.toNat frac.toNat valid)

/-! ### Broadcasts (R308, R311) -/

/-- BCAST (R308): the chip's own message is back, or another's comes. An own one that was taken as lost is removed (R311). -/
def State.bcast (s : State) (h : Hdr) (msg map : Nat) : State :=
  if !s.cordOn then s
  else if h.from_ = s.addr then
    (if s.on CRD_BSEND_BUSY && h.seq == s.cord.sentSeq then (s.putMap CRD_BACKLO CRD_BACKHI map).setFld CRD_BSEND_BUSY 0 else s)
  else if s.cord.inbox.length < 8 then
    (s.setCord { s.cord with inbox := s.cord.inbox ++ [(h.from_, msg)] }).brxShow.forward h 0x30 [msg, withBit map s.addr]
  else ((s.setOn CRD_BRXSTAT_OVF).alarm alCORD).forward h 0x30 [msg, map]

def execBcast (r : Fin 2) (hd : HopSeq) (a : Fin 64) (msg : BitVec 128) (map : BitVec 64) (s : State) : Out :=
  .next (s.bcast ⟨r, hd.hops, hd.seq.toNat, a⟩ msg.toNat map.toNat)

/-- CRD_BSEND_GO (R308). -/
def State.bsend (s : State) : State :=
  if s.on CRD_BSEND_BUSY then s.refuse erBUSY CRD_BSEND
  else
    let msg := (List.range 4).foldl (fun m j => m + (s.reg (CRD_BTX j)).toNat * 2 ^ (32 * j)) 0
    let s1 := if s.on CRD_CTL_EN then s.originate 0 0x30 [msg, 0] else s
    (s1.setOn CRD_BSEND_BUSY).setCord { s1.cord with sentAt := s.clk, sentSeq := s.cord.txSeq }

def execCrdBsendGo (t : Nat) (s : State) : Out := .next ((s.advance t).bar 13 State.bsend)

/-- CRD_BPOP (R308). -/
def State.bpop (s : State) : State := (s.setCord { s.cord with inbox := s.cord.inbox.tail }).brxShow

def execCrdBpop (s : State) : Out := .next (s.bar 13 State.bpop)

/-! ### Barriers (R309) -/

/-- This chip is the ring's initiator: the lowest address found. -/
def State.initiator (s : State) : Bool := (List.range s.addr).all (fun a => !bitAt s.cord.found a)

/-- A GATHER that meets an entered barrier goes on with this chip's bit. -/
def State.gatherOn (s : State) (g : Gather) : State :=
  let bad := g.mm || g.id != s.fld CRD_BARST_ID
  (s.setCord { s.cord with gather := none }).forward g.hdr 0x31 [g.id, withBit g.map s.addr, b2n bad]

/-- The barrier is released (R309). -/
def State.barDone (s : State) (mm : Bool) : State :=
  let s1 := (s.setFld CRD_BARST_WAITING 0).setOn CRD_BARST_DONE
  if mm then (s1.setOn CRD_BARST_MISMATCH).alarm alCORD else s1

/-- ENTER (R309): barrier `id`; the initiator starts the gathering, another chip lets a held one pass. -/
def State.enter (s : State) (id : Nat) : State :=
  let s1 := (s.setFld CRD_BARST_ID id).setOn CRD_BARST_WAITING
  match s1.cord.gather with
  | some g => s1.gatherOn g
  | none => if s1.on CRD_CTL_EN && s1.initiator then s1.originate 0 0x31 [id, 2 ^ s1.addr, 0] else s1

def execBarrierEnter (id : BitVec 8) (s : State) : Out := .next (s.bar 13 (fun s => s.enter id.toNat))

/-- GATHER (R309): back at the initiator it releases the barrier; elsewhere it waits until this chip has entered. -/
def State.gather (s : State) (g : Gather) : State :=
  if !s.cordOn then s
  else if g.hdr.from_ = s.addr then
    (if s.on CRD_BARST_WAITING then (s.barDone g.mm).originate 0 0x32 [g.id, b2n g.mm] else s)
  else if s.on CRD_BARST_WAITING then s.gatherOn g
  else s.setCord { s.cord with gather := some g }

def execGather (r : Fin 2) (hd : HopSeq) (a : Fin 64) (id : BitVec 8) (map : BitVec 64) (mm : Bool) (s : State) : Out :=
  .next (s.gather ⟨⟨r, hd.hops, hd.seq.toNat, a⟩, id.toNat, map.toNat, mm⟩)

/-- RELEASE (R309). -/
def State.releaseFrame (s : State) (h : Hdr) (id : Nat) (mm : Bool) : State :=
  if !s.cordOn || h.from_ == s.addr then s
  else
    let s1 := s.forward h 0x32 [id, b2n mm]
    if s1.on CRD_BARST_WAITING then s1.barDone mm else s1

def execReleaseFrame (r : Fin 2) (hd : HopSeq) (a : Fin 64) (id : BitVec 8) (mm : Bool) (s : State) : Out :=
  .next (s.releaseFrame ⟨r, hd.hops, hd.seq.toNat, a⟩ id.toNat mm)

/-! ### Scheduled actions (R310, R311) -/

/-- CRD_SCHED_GO (R310): a write `v` of CRD_SCHED with GO. -/
def State.schedGo (s : State) (v : Word) : State :=
  let s0 := if bitsOf v.toNat 0 2 ≤ 1 then s.setFld CRD_SCHED_KIND (bitsOf v.toNat 0 2) else s
  let kind := s0.fld CRD_SCHED_KIND
  let w := s0.reg CRD_SCHEDT
  if s0.on CRD_SCHEDST_BUSY then s0.refuse erBUSY CRD_SCHED
  else if (w - s0.tb0).toInt < (s0.fld CRD_TRAV_NS + 10000 : Nat) then s0.refuse erSCHEDLATE CRD_SCHED
  else
    let r := s0.schedTake kind w
    let s1 := if s0.on CRD_CTL_EN then r.1.originate 0 0x40 [kind, w.toNat, if r.2 then 2 ^ s0.addr else 0] else r.1
    (s1.setOn CRD_SCHEDST_BUSY).setCord { s1.cord with schedAt := s.clk, schedSeq := s.cord.txSeq }

def execCrdSchedGo (t : Nat) (v : BitVec 32) (s : State) : Out := .next ((s.advance t).bar 13 (fun s => s.schedGo v))

/-- SCHED (R310): back with the bitmap, or another chip's action. An own one that was taken as lost is removed (R311). -/
def State.sched (s : State) (h : Hdr) (kind : Nat) (w : Word) (map : Nat) : State :=
  if !s.cordOn then s
  else if h.from_ = s.addr then
    (if s.on CRD_SCHEDST_BUSY && h.seq == s.cord.schedSeq then
      (let s1 := ((s.putMap CRD_SCHEDACKLO CRD_SCHEDACKHI map).setFld CRD_SCHEDST_BUSY 0).setOn CRD_SCHEDST_DONE
       if (List.range 64).any (fun i => bitAt s.cord.found i && !bitAt map i) then (s1.setOn CRD_SCHEDST_MISSED).alarm alCORD else s1)
     else s)
  else
    let q := s.schedTake kind w
    q.1.forward h 0x40 [kind, w.toNat, if q.2 then withBit map s.addr else map]

def execSched (t : Nat) (r : Fin 2) (hd : HopSeq) (a : Fin 64) (kind : BitVec 2) (w : BitVec 32) (map : BitVec 64) (s : State) : Out :=
  .next ((s.advance t).sched ⟨r, hd.hops, hd.seq.toNat, a⟩ kind.toNat w map.toNat)

/-- CORD_FRAME_LOST (R311): a BCAST, or a SCHED, has not come back in 1 ms. -/
def State.frameLost (s : State) (isSched : Bool) : State :=
  if isSched then
    (if s.on CRD_SCHEDST_BUSY && decide (s.cord.schedAt + usClk 1000 ≤ s.clk) then
      (((s.setFld CRD_SCHEDST_BUSY 0).setOn CRD_SCHEDST_LOST).setOn CRD_SCHEDST_MISSED).putMap CRD_SCHEDACKLO CRD_SCHEDACKHI 0 |>.alarm alCORD
     else s)
  else if s.on CRD_BSEND_BUSY && decide (s.cord.sentAt + usClk 1000 ≤ s.clk) then
    ((s.setFld CRD_BSEND_BUSY 0).setOn CRD_BSEND_LOST).putMap CRD_BACKLO CRD_BACKHI 0 |>.alarm alCORD
  else s

def execCordFrameLost (t : Nat) (isSched : Bool) (s : State) : Out := .next ((s.advance t).frameLost isSched)

/-- CORD_FRAME_DROPPED (R300, R301): a CRC error, or a reserved type. -/
def execCordFrameDropped (s : State) : Out := .next (if s.cordOn then (s.countReg CRD_CRCERR 1).alarm alCORD else s)

/-- A write of CRD_CTL (R5, R309, R315): clearing EN clears all barrier and queue state. -/
def State.cordCtl (s : State) (v : Word) : State :=
  if s.armed then s.refuse erARMED CRD_CTL
  else
    let s1 := s.setReg CRD_CTL (v &&& 0x007F3F1F#32)
    if !bitAt v.toNat 0 then s1.cordClear
    else if s.on CRD_CTL_EN then s1
    else (s1.setCord { s1.cord with found := 2 ^ s1.addr, syncAt := s1.clk }).ringShow false false

/-- CRD_ENABLE_WRITE (R309). -/
def execCrdEnableWrite (v : BitVec 32) (s : State) : Out := .next (s.bar 13 (fun s => s.cordCtl v))

/-! ### Transport frames (R307) -/

/-- TRNREP (R307): the master takes the latest report of each chip of its job. -/
def State.trnrep (s : State) (h : Hdr) (job : Word) (armed : Bool) (g causes back : Nat) (ready : Bool) : State :=
  if !s.cordOn || h.from_ == s.addr then s
  else
    let s1 := s.forward h 0x50 [job.toNat, b2n armed, g, causes, back, b2n ready]
    let was := s1.splice.reps.get (fun _ => Report.none) h.from_
    let rep : Report := if armed && job == s1.reg CRD_JOBID then ⟨g, causes, ready, back, s1.clk, true, was.asked || causes != 0⟩ else Report.none
    ((s1.setSplice { s1.splice with reps := s1.splice.reps.set (fun _ => Report.none) h.from_ rep }).remoteCause).trnShow

def execTrnrep (t : Nat) (r : Fin 2) (hd : HopSeq) (a : Fin 64) (job : BitVec 32) (armed : Bool) (g : Fin 257) (causes : BitVec 7)
    (back : BitVec 40) (ready : Bool) (s : State) : Out :=
  .next ((s.advance t).trnrep ⟨r, hd.hops, hd.seq.toNat, a⟩ job armed g causes.toNat back.toNat ready)

/-- TRNREP_TIMER (R307): every 100 µs while armed, and at once on a change, that of ARMED at the job's end among them. -/
def State.trnrepTimer (s : State) : State :=
  let change := repKey s.report != repKey s.cord.repLast
  let was := (s.cord.repLast[1]?).getD 0 == 1
  if s.cordOn && ((s.armed && (decide (s.cord.repAt + usClk 100 ≤ s.clk) || change)) || (!s.armed && was && change)) then s.sendReport
  else s

def execTrnrepTimer (t : Nat) (s : State) : Out := .next (s.advance t).trnrepTimer

/-- TRNREP_TIMEOUT (R307): a chip of the job has been silent for 500 µs and counts as a REMOTE cause. -/
def State.trnrepTimeout (s : State) (a : Nat) : State :=
  let rep := s.splice.reps.get (fun _ => Report.none) a
  if rep.armed && decide (rep.at_ + usClk 500 ≤ s.clk) then
    (s.setSplice { s.splice with reps := s.splice.reps.set (fun _ => Report.none) a { rep with ready := false } }).remoteCause
  else s

def execTrnrepTimeout (t : Nat) (a : Fin 64) (s : State) : Out := .next ((s.advance t).trnrepTimeout a)

/-- TRNSTATE (R253, R307): a chip that does not act as master follows. -/
def State.trnstate (s : State) (h : Hdr) (q count : Nat) : State :=
  if !s.cordOn || h.from_ == s.addr then s
  else
    let s1 := s.forward h 0x51 [q, count]
    if s1.actMaster then s1
    else
      let s2 := s1.setCord { s1.cord with silent := false, stateAt := s1.clk }
      if s2.armed && decide (q ≤ 6) then (s2.follow q).trnShow else s2

def execTrnstate (t : Nat) (r : Fin 2) (hd : HopSeq) (a : Fin 64) (q : Fin 8) (count : BitVec 32) (s : State) : Out :=
  .next ((s.advance t).trnstate ⟨r, hd.hops, hd.seq.toNat, a⟩ q count.toNat)

/-- TRNSTATE_TIMER (R307): the transport master sends its state every 10 µs, and on a change. -/
def State.trnstateTimer (s : State) : State :=
  if s.cordOn && s.actMaster && (decide (s.cord.stateTx + usClk 10 ≤ s.clk) || decide (s.cord.stateTx < s.splice.since)) then s.sendState
  else s

def execTrnstateTimer (t : Nat) (s : State) : Out := .next (s.advance t).trnstateTimer

/-- TRNSTATE_TIMEOUT (R307): no state from the master for 200 µs: HOLD_N is held low. -/
def State.trnstateTimeout (s : State) : State :=
  if s.armed && !s.actMaster && decide (s.cord.stateAt + usClk 200 ≤ s.clk) then
    (s.setCord { s.cord with silent := true }).trnShow
  else s

def execTrnstateTimeout (t : Nat) (s : State) : Out := .next (s.advance t).trnstateTimeout

end Sys2Proof.Machine
end

