-- ==== Sys2Proof/Machine/HptOps.lean ====
section
/-! DEFINITION. Shared operations of the head ports: bursts and LAT (R173 to R181), the over-limit state (R200, R236),
training words (R186, R187), PRBS generators (R190), and counting lines in MONITOR (R328 to R330). -/

namespace Sys2Proof.Machine

open Sys2Proof

/-! ### Bursts (R174, R177, R181) -/

/-- What the burst of line `l` carries: zeros for a held unit, else the staged image, with ash-marked words as zeros (R177,
R386). -/
def maskWords (ash : Nat) : Nat → List Byte → List Byte
  | 0, bs => bs
  | n + 1, bs => if bitAt ash n then (maskWords ash n (bs.take (8 * n))) ++ List.replicate 8 0#8
      else (maskWords ash n (bs.take (8 * n))) ++ bs.drop (8 * n)

def State.burstImage (s : State) (h l ash : Nat) (image : List Byte) : List Byte :=
  if s.heldAt h l then zeroImage else maskWords ash 64 image

/-- What pins D0 to D3 carry when logical lane `k` carries `lane k` (R171, R187): lane k leaves on pin Dk, or on D(3 - k) where REV is
set, inverted where the pin's INV bit is. -/
def State.pinBits (s : State) (h : Nat) (lane : Nat → Nat) : List Nat :=
  (List.range 4).map (fun j =>
    let v := lane (if s.on (HPT_LANEMAP_REV h) then 3 - j else j)
    if bitAt (s.fld (HPT_LANEMAP_INV h)) j then 2 ^ 1024 - 1 - v else v)

/-- The bits and the trailer of a return as the head sent them: RETINV corrects the pair (R171). -/
def State.retBits (s : State) (h bits : Nat) : Nat := if s.on (HPT_LANEMAP_RETINV h) then 2 ^ 1024 - 1 - bits % 2 ^ 1024 else bits
def State.retTrail (s : State) (h tr : Nat) : Nat := if s.on (HPT_LANEMAP_RETINV h) then 255 - tr % 256 else tr

/-- What the device samples on RET in MONITOR, chain bits and trailer in turn, the first bit lowest: the received SCK is corrected by SCKINV
as the driven one is (R171, R182). While it rests high after that, every bit is taken one edge late (R186; DEDUCED, log entry 50). -/
def State.monSample (s : State) (h bits : Nat) (tr : Trailer) : Nat × Nat :=
  if tr.sck == s.on (HPT_LANEMAP_SCKINV h) then (bits, tr.bits.toNat)
  else (2 * bits % 2 ^ 1024, 128 * b2n (bitAt bits 1023) + tr.bits.toNat / 2)

/-- The head ports run: in Run, and not idled by a power-fail warning (R24, R360, R368). -/
def State.portsRun (s : State) : Bool := s.fld PWR_STAT_STATE == 0 && !s.on PWR_STAT_SAG

/-- The levels of the LAT and FIRE pairs (R171, R182): the strobe's level in DRIVE and TEST, inverted by LATINV and FIREINV. -/
def State.latPin (s : State) (h : Nat) : Bool :=
  ((s.head h).lat.any (fun p => decide ((s.head h).latFrom ≤ s.clk) && decide (s.clk < p.2)) && s.portsRun) != s.on (HPT_LANEMAP_LATINV h)
def State.firePin (s : State) (h : Nat) : Bool :=
  ((s.head h).pulse.any (fun p => decide (p.2 ≤ s.clk) && decide (s.clk < p.2 + s.fld (HPT_FIRE_FIREW h))) && s.portsRun) !=
    s.on (HPT_LANEMAP_FIREINV h)

/-- The half cycle of SCK that the burst in progress on port `h` has reached, one bit of a lane each; none between bursts (R173). -/
def State.sckHalf (s : State) (h : Nat) : Option Nat :=
  let e := (s.head h).prbsAt
  let start := e - s.burstClk h
  if e != 0 && s.portsRun && decide (start ≤ s.clk) && decide (s.clk < e) then some ((s.clk - start) * 3 / (2 * 2 ^ s.fld (HPT_RATE_RATE h)))
  else none

/-- The level of the SCK pair (R171, R173): a burst toggles it, high in the first half of each cycle; between bursts it rests low. SCKINV
inverts the pair. -/
def State.sckPin (s : State) (h : Nat) : Bool := (s.sckHalf h).any (fun i => i % 2 == 0) != s.on (HPT_LANEMAP_SCKINV h)

/-- The data lanes of port `h` are driven: its drivers are on, the head ports run (R24), and its unit is not disabled for the line that
comes next unless a burst runs (R36, R182). -/
def State.lanesOn (s : State) (h : Nat) : Bool :=
  s.fld (HPT_CTL_MODE h) % 2 == 1 && s.portsRun && (s.fld (HPT_CTL_MODE h) == 3 || s.enAt h (s.head h).next || (s.sckHalf h).isSome)

/-- The level of data pin D`k` of port `h`, none at high impedance: the bits of the burst, then low in the four trailer cycles and between
bursts (R173; between bursts DEDUCED, log entry 50). An inverted pair is low when its pin is high. -/
def State.lanePin (s : State) (h k : Nat) : Option Bool :=
  if !s.lanesOn h then none
  else
    let low := bitAt (s.fld (HPT_LANEMAP_INV h)) k
    match s.sckHalf h with
    | some i => some (if i < 1024 then bitAt ((s.head h).pins.getD k 0) i else low)
    | none => some low

/-- A burst begins now: it returns what the chains held and leaves `image` of line `l` in them. -/
def State.shiftIn (s : State) (h l : Nat) (image : List Byte) : State :=
  s.modHead h (fun x =>
    let c := x.lats % 4
    { x with ret := some (x.chainL, c, laneSig c x.chainI), chainI := image, chainL := l, prbsAt := s.clk + s.burstClk h
             pins := s.pinBits h (fun k => leNat (laneBytes k image)) })

/-- Has the gap after the latest burst passed (R173)? -/
def State.gapPast (s : State) (h : Nat) : Bool := (s.head h).prbsAt == 0 || decide ((s.head h).prbsAt + 8 ≤ s.clk)

/-- May the burst of line `l` of head `h` begin now (R177, R340)? A line before the one that fires next is late, and begins
as soon as it can. A port that is to leave DRIVE begins no further burst (R183). -/
def State.burstDue (s : State) (h l : Nat) : Bool :=
  let x := s.head h
  x.live && s.armed && s.portsRun && s.drives h && x.mode.isNone && x.before l && s.enAt h l && x.burst.isNone && s.gapPast h && decide (l ≤ x.next) &&
  decide (x.enab + 8 ≤ s.clk) &&
  (l != x.next || (match x.fireAt with | some i => decide (i + s.fld (HPT_TIME_SHDLY h) ≤ s.clk) | none => true))

/-! ### Training (R186, R187) -/

/-- The training words of pins D0 to D3. -/
def trainWords : List (BitVec 16) := [0x0421#16, 0x1249#16, 0x2A52#16, 0x5A52#16]

/-- What a returned word shows: its pin, whether it is inverted, and whether it is rotated by one bit. -/
def classify (w : BitVec 16) : Option (Nat × Bool × Bool) :=
  let cands := (List.range 4).flatMap (fun k =>
    let v := trainWords.getD k 0#16
    [(v, (k, false, false)), (~~~v, (k, true, false)),
     (v.rotateLeft 1, (k, false, true)), (v.rotateRight 1, (k, false, true)),
     ((~~~v).rotateLeft 1, (k, true, true)), ((~~~v).rotateRight 1, (k, true, true))])
  (cands.find? (fun c => c.1 == w)).map (fun c => c.2)

/-- The 1,024 bits of a lane that carries word `w`, most significant bit first, 64 times over; the first bit lowest (R186). -/
def trainLane (w : BitVec 16) : Nat :=
  (List.range 16).foldl (fun n t => n + b2n (w.getLsbD (15 - t)) * 2 ^ t) 0 * ((2 ^ 1024 - 1) / (2 ^ 16 - 1))

/-- The settings of the RET delay that pass step 2, in eighths of a bit: a fine step counts where its coarse delay has passed (R187). -/
def settingPasses (coarse fine n : Nat) : Bool := bitAt coarse (n / 8) && bitAt fine n

/-- The widest range of passing settings, the first of several: its first setting and its length (R187). -/
def widestRange (coarse fine : Nat) : Nat × Nat :=
  ((List.range 512).foldl (fun (a : Nat × Nat × Nat) n =>
    let run := if settingPasses coarse fine n then a.1 + 1 else 0
    if a.2.2 < run then (run, n + 1 - run, run) else (run, a.2)) (0, 0, 0)).2

/-- Its middle, the lower one of two (log entry 50). -/
def rangeMiddle (r : Nat × Nat) : Nat := r.1 + (r.2 - 1) / 2

/-- Result codes of R188. -/
def trOK : Nat := 0
def trNORET : Nat := 1
def trUNKNOWN : Nat := 2
def trPERM : Nat := 3
def trMIXSCK : Nat := 4
def trVERIFY : Nat := 5
def trLIVE : Nat := 6

/-- Training ends with a result (R188). The first good one is step 5 of the bring-up (R189). -/
def State.trainEnd (s : State) (h r : Nat) : State :=
  let s1 := ((s.setFld (HPT_TRAIN_RESULT h) r).setOn (HPT_TRAIN_VALID h)).setFld (HPT_TRAIN_BUSY h) 0
  let up := decide (r = trOK) && (s.head h).up < 5 && (decide (4 ≤ (s.head h).up) || ((s.head h).up == 3 && !s.on (HPT_BUSST_MASTER (h / 8))))
  (s1.setBit (HPT_HSTAT_TRAINED h) (r == trOK)).modHead h (fun x => { x with train := none, skip := true, up := if up then 5 else x.up })

/-- Step 5: the words of the four chains, as corrections or as the result that the step fails with (R187, R188). -/
def State.trainMap (s : State) (h : Nat) (tr : Train) : State :=
  let cs := (List.range 4).map (fun c => ((tr.words.find? (fun w => w.1 == c)).bind (fun w => w.2)).bind classify)
  if cs.any Option.isNone then s.trainEnd h trUNKNOWN
  else
    let cs := cs.map (fun c => c.getD (0, false, false))
    let inv := cs.foldl (fun m c => if c.2.1 then m ||| 2 ^ c.1 else m) 0
    let s1 := s.setFld (HPT_LANEMAP_INV h) inv
    let straight := cs.map (fun c => c.1) == [0, 1, 2, 3]
    let rev := cs.map (fun c => c.1) == [3, 2, 1, 0]
    if !straight && !rev then s1.trainEnd h trPERM
    else
      let s2 := s1.setBit (HPT_LANEMAP_REV h) rev
      let rot := cs.map (fun c => c.2.2)
      if rot.any id && !rot.all id then s2.trainEnd h trMIXSCK
      else (s2.setBit (HPT_LANEMAP_SCKINV h) (rot.all id)).modHead h (fun x => { x with train := some { tr with step := 6, n := 0 } })

/-- The setting that step 2 tries after `n`: every coarse one, then every fine one of a coarse delay that has passed. -/
def Train.after (tr : Train) : Option Nat :=
  (countUp (tr.at_ + 1) (575 - tr.at_)).find? (fun m => decide (m < 64) || bitAt tr.coarse ((m - 64) / 8))

/-- Step 2 is over, and with it step 3: the delay, and the polarity of RET, LAT and FIRE (R187). -/
def State.trainFound (s : State) (h : Nat) (tr : Train) : State :=
  let r := widestRange tr.coarse tr.fine
  if r.2 = 0 then s.trainEnd h trNORET
  else
    let s1 := (s.setFld (HPT_RETDLY_COARSE h) (rangeMiddle r / 8)).setFld (HPT_RETDLY_FINE h) (rangeMiddle r % 8)
    let s2 := ((s1.setBit (HPT_LANEMAP_RETINV h) tr.mark).setBit (HPT_LANEMAP_LATINV h) tr.llv).setBit (HPT_LANEMAP_FIREINV h) tr.flv
    s2.modHead h (fun x => { x with train := some { tr with step := 4, n := 0 } })

/-- A burst of step 2 returns trailer `raw`: the setting passes when all three of its trailers read MARK 101b or 010b (R187). -/
def State.trainSearch (s : State) (h : Nat) (tr : Train) (raw : Nat) : State :=
  let inv := trValid (255 - raw)
  let pass := trValid raw || inv
  let v := if inv then 255 - raw else raw
  let tr1 := if pass then { tr with mark := inv, llv := bitAt v 4, flv := bitAt v 3 } else tr
  let ok := tr.ok && pass
  if tr.n < 2 then s.modHead h (fun x => { x with train := some { tr1 with n := tr.n + 1, ok := ok } })
  else
    let tr2 := if !ok then tr1 else if tr.at_ < 64 then { tr1 with coarse := tr.coarse ||| 2 ^ tr.at_ }
      else { tr1 with fine := tr.fine ||| 2 ^ (tr.at_ - 64) }
    match tr2.after with
    | some m => s.modHead h (fun x => { x with train := some { tr2 with at_ := m, n := 0, ok := true } })
    | none => s.trainFound h tr2

/-- The word that a chain has returned, most significant bit first; none where the bits are not one word 64 times over (R186). -/
def laneWord (bits : Nat) : Option (BitVec 16) :=
  let w := (List.range 16).foldl (fun (w : BitVec 16) t => if bitAt bits t then w ||| (1#16 <<< (15 - t)) else w) 0#16
  if bits % 2 ^ 1024 = trainLane w then some w else none

/-- A burst of step 4 returns: its trailer names a chain; once all four are named step 5 follows (R187). -/
def State.trainName (s : State) (h : Nat) (tr : Train) (bits v : Nat) : State :=
  let c := trChain v
  let tr1 := if trValid v && !tr.words.any (fun w => w.1 == c) then { tr with words := tr.words ++ [(c, laneWord bits)] } else tr
  if tr1.words.length < 4 then s.modHead h (fun x => { x with train := some { tr1 with n := tr.n + 1 } }) else s.trainMap h tr1

/-- A burst of step 6 returns. What a burst shifts in comes back with the next one: the first return is still that of step 4's last burst, and
the four after it are compared (R187; DEDUCED, log entry 50). -/
def State.trainVerify (s : State) (h : Nat) (tr : Train) (bits v : Nat) : State :=
  let c := trChain v
  let good := trValid v && laneWord bits == some (trainWords.getD c 0#16)
  let right := if 0 < tr.n ∧ good then tr.right ||| 2 ^ c else tr.right
  if tr.n < 4 then s.modHead h (fun x => { x with train := some { tr with n := tr.n + 1, right := right } })
  else s.trainEnd h (if right = 15 then trOK else trVERIFY)

/-- The return of a training burst, `bits` and `raw` as sampled: its trailer is noted once the delay is found (R187, R201). -/
def State.trainReturn (s : State) (h : Nat) (tr : Train) (bits raw : Nat) : State :=
  let s1 := s.modHead h (fun x => { x with ret := none })
  if tr.step = 2 then (if trValid raw then s1.noteTrailer h raw else s1).trainSearch h tr raw
  else
    let v := s1.retTrail h raw
    let s2 := s1.noteTrailer h v
    if tr.step = 4 then s2.trainName h tr (s1.retBits h bits) v else s2.trainVerify h tr (s1.retBits h bits) v

/-- A training burst begins: words on the physical pins, from step 6 on with the corrections; in steps 4 and 6 a LAT follows it (R186, R187). -/
def State.trainBurst (s : State) (h : Nat) (tr : Train) : State :=
  let e := s.clk + s.burstClk h
  let latch := decide (tr.step = 4) || decide (tr.step = 6 ∧ tr.n < 4)
  let s1 := s.modHead h (fun x => { x with
    ret := some (0, x.lats % 4, 0#32), prbsAt := e
    pins := if tr.step = 6 then s.pinBits h (fun k => trainLane (trainWords.getD k 0#16)) else trainWords.map trainLane })
  if latch then s1.modHead h (fun x => { x with
    lats := (x.lats + 1) % 4, latFrom := e + 8, lat := some (0, e + 8 + s.fld (HPT_TIME_LATW h)) }) else s1

/-- What the board and the head answer to the bursts of training that TRAINING_DONE covers: trailers of step 2 by burst and setting, and
words with trailers of steps 4 and 6. -/
structure TrainFound where
  coarse : List Nat
  fine   : List Nat
  words  : List (BitVec 24)
  verify : Nat
  deriving DecidableEq, Repr

/-- The return of the next burst: its bits and its trailer; none once step 4 has used up what there is. -/
def TrainFound.answer (f : TrainFound) (tr : Train) : Option (Nat × Nat) :=
  let both := fun (w : Nat) => (trainLane (BitVec.ofNat 16 w), w / 2 ^ 16 % 256)
  if tr.step = 2 then some (0, if tr.at_ < 64 then bitsOf (f.coarse.getD tr.n 0) (8 * tr.at_) 8 else bitsOf (f.fine.getD tr.n 0) (8 * (tr.at_ - 64)) 8)
  else if tr.step = 4 then f.words[tr.n]?.map (fun w => both w.toNat)
  else some (if tr.n = 0 then (0, 0) else both (bitsOf f.verify (24 * (tr.n - 1)) 24))

/-- Training gives the rest of its bursts, at most `fuel` of them, and meets `f`. -/
def State.trained (s : State) (h : Nat) (f : TrainFound) : Nat → State
  | 0 => s
  | n + 1 =>
    match (s.head h).train with
    | some tr =>
      match f.answer tr with
      | some a => ((s.trainBurst h tr).trainReturn h tr a.1 a.2).trained h f n
      | none => s
    | none => s

/-- No training gives more bursts: three at each of 64 and 512 settings, four in step 4 and five in step 6. -/
def trainBursts : Nat := 3 * 576 + 4 + 5

/-! ### PRBS (R190) -/

/-- One step of the generator: PRBS-7 or PRBS-15, with the last stage as its output. -/
def prbsStep (p15 : Bool) (x : Nat) : Nat :=
  let w := if p15 then 15 else 7
  let b := (b2n (bitAt x (w - 1)) + b2n (bitAt x (w - 2))) % 2
  (2 * x + b) % 2 ^ w

def prbsRun (p15 : Bool) : Nat → Nat → Nat
  | 0, x => x
  | n + 1, x => prbsRun p15 n (prbsStep p15 x)

/-- The next `n` bits of a generator, the first one lowest. -/
def prbsBits (p15 : Bool) : Nat → Nat → Nat
  | 0, _ => 0
  | n + 1, x => b2n (bitAt x (if p15 then 14 else 6)) + 2 * prbsBits p15 n (prbsStep p15 x)

/-- All ones. -/
def prbsSeed (p15 : Bool) : Nat := if p15 then 0x7FFF else 0x7F

/-- The 1,024 bits of lane `k` in a burst at whose start lane 0's generator stands at `x`. -/
def laneBits (p15 : Bool) (k x : Nat) : Nat := prbsBits p15 1024 (prbsRun p15 (256 * k) x)

/-- How many of the low `n` bits of two numbers differ. -/
def bitDiff : Nat → Nat → Nat → Nat
  | 0, _, _ => 0
  | n + 1, a, b => b2n (bitAt a n != bitAt b n) + bitDiff n a b

/-- HPT_PRBSERR(c) of port `h`. -/
def prbsErr (h c : Nat) : Nat := HPT_PRBSERR0 h + 4 * c

/-! ### Counting lines in MONITOR (R328 to R330) -/

/-- The next line counts on a STANDBY; one not yet screened is passed unscreened (R330). -/
def State.countSeen (s : State) (h : Nat) : State :=
  let l := (s.head h).next
  let missed := s.enAt h l && decide ((s.head h).screen ≤ l) && !s.polSBLATE
  let s1 := s.lineCountedF h s.clk false
  if missed then
    let s2 := (s1.countReg TWN_SKIPLN 1).setOn TWN_STATE_SKIP
    s2.setTwin { s2.twin with skipAt := s2.twin.skipAt.set (fun _ => 0) h (l + 1) }
  else s1

/-- Every line of head `h` up to `l` counts, at most `fuel` of them. -/
def State.countTo (s : State) (h l : Nat) : Nat → State
  | 0 => s
  | n + 1 => if decide ((s.head h).next ≤ l) && (s.head h).live && s.armed && !s.on PWR_STAT_SAG then (s.countSeen h).countTo h l n else s

/-- Line `l` of head `h` counts on a port that watches the other chip, and with it what went before; elsewhere a port in MONITOR counts its
lines at its own FIRE instants (R37, R328). -/
def State.seenFired (s : State) (h l : Nat) : State :=
  if s.watching h then s.countTo h l (l + 1 - (s.head h).next) else s

/-- The enabled line of head `h` that follows line `l`. -/
def State.lineAfter (s : State) (h l : Nat) : Nat := ((countUp (l + 1) 64).find? (fun m => s.enAt h m)).getD (l + 1)

/-- The `n`th enabled line after `l`. -/
def State.linesAfter (s : State) (h : Nat) : Nat → Nat → Nat
  | 0, l => l
  | n + 1, l => s.linesAfter h n (s.lineAfter h l)

/-- Two TB0 times lie within 50 ns of each other. -/
def within50 (a b : Word) : Bool := decide ((a - b).toInt.natAbs ≤ 50)

/-- Port `h` aligns its LAT count (R329): an observed FIRE lies within 50 ns of a FIRED entry of line `l`. -/
def State.align (s : State) (h : Nat) : State :=
  let x := s.head h
  if x.mline.isSome then s
  else
    match (x.rfire.flatMap (fun r => (x.seen.filter (fun f => f.1 != 0 && within50 f.2 r.2)).map (fun f => (r.1, f.1)))).head? with
    | some (l, n) => s.modHead h (fun x => { x with mline := some (s.linesAfter h (x.obs - n) l), skip := true, seen := [] })
    | none => s

/-- A return observed on port `h` belongs to line `l`, or with `zero` to the flush burst that followed it: it is checked, held until the
line is screened, or discarded once four are held (R181, R184). -/
def State.pairReturn (s : State) (h l bits trailer : Nat) (zero : Bool) : State :=
  let x := s.head h
  let c := if x.skip && trValid trailer then trChain trailer else x.lats % 4
  let s1 := s.modHead h (fun x => { x with skip := false, lats := c })
  match (if zero then some zeroImage else x.ownImage l) with
  | some image => s1.checkReturn h l c (laneSig c image) bits trailer
  | none =>
    if decide (l < x.screen) || !s1.enAt h l then s1
    else
      let s2 := if 4 ≤ x.retq.length then s1.countReg (HPT_RETSKIP h) 1 else s1
      s2.modHead h (fun x => { x with retq := (if 4 ≤ x.retq.length then x.retq.drop 1 else x.retq) ++ [(l, bits, trailer + 256 * c)] })

/-- The observed return that waits on port `h` is paired: `lat` says that a LAT has followed its burst. Without one that burst was a
flush: it returned the latest line, and the return after it brings the flush's zeros (R181). -/
def State.pairObs (s : State) (h : Nat) (lat : Bool) : State :=
  let x := s.head h
  let s1 := match x.obsRet, x.mline with
    | some (bits, tr), some m => s.pairReturn h m bits tr x.obsFl
    | _, _ => s
  s1.modHead h (fun y => { y with obsRet := none, obsFl := !lat && x.obsRet.isSome })

/-- MODE of port `h` is to become `x`: into or out of DRIVE at the next hand-over slot, else now (R183). On a chip of a pair the drivers
stay off while the partner drives (R321). -/
def State.modeSet (s : State) (h x : Nat) : State :=
  let was := s.fld (HPT_CTL_MODE h)
  if was = x then s.modHead h (fun y => { y with mode := none })
  else if was = 1 ∨ x = 1 ∨ (x = 3 ∧ s.twinStrap ∧ s.partnerDrives) then s.modHead h (fun y => { y with mode := some x, modeTw := false })
  else s.applyMode h x

/-! ### Hearth's bring-up (R189) -/

/-- Step `n` of the bring-up of port `h` is done, where it stood at the step before. -/
def State.stepUp (s : State) (h n : Nat) : State := s.modHead h (fun x => if x.up + 1 = n then { x with up := n } else x)

/-- Port `h` may go to TEST for the first time: its temperature has been read, which the chip that masters the bus does (steps 4 and 5). -/
def State.testReady (s : State) (h : Nat) : Bool :=
  decide (4 ≤ (s.head h).up) || ((s.head h).up == 3 && !s.on (HPT_BUSST_MASTER (h / 8)))

end Sys2Proof.Machine
end

