-- ==== Sys2Proof/Machine/HptRows.lean ====
section
/-! DEFINITION. The head port commands: bursts, LAT and returns (R173 to R181, R184, R191), modes (R183), training and PRBS
(R185 to R190), and the temperature polls of the management buses (R198 to R200). -/

namespace Sys2Proof.Machine

open Sys2Proof

/-! ### Bursts and LAT (R173, R177, R181) -/

/-- A marked word has gone into the burst of line `l`: its twin line entry carries ASH (R386). -/
def State.burstAsh (s : State) (h l : Nat) : State :=
  if s.twinOn && (s.head h).lineAsh then s.modTline h l (fun x => { x with ash := true }) else s

/-- The words of staged line `g` are read. In those that `ash` names, both words of a pair of bits have changed by themselves; what is wrong
with a word is found there, at an address that the spec does not give (R384; log entry 5). The line as it then stands, and its marked words. -/
def State.stagRead (s : State) (g : Staged) (ash : Nat) : Staged × List Nat × State :=
  let u := ((List.range 64).filter (fun i => bitAt ash i && !(flawByte g.flaws (8 * i)).2)).foldl (fun (r : List Flaw × State) i =>
    let d := r.2.draw
    let e := d.2.addFlaw (r.1.filter (fun f => f.idx != i)) i (8 * (d.1.toNat % 2 ^ 14)) 3#72
    (e.1, e.2)) (g.flaws, s)
  let r := u.2.flawsRead rgSTAGING u.1
  ({ g with image := g.image.zipIdx.map (fun b => b.1 ^^^ BitVec.ofNat 8 (flawByte u.1 b.2).1), flaws := r.1 },
   (List.range 64).filter (fun i => (flawByte u.1 (8 * i)).2), r.2)

/-- The burst of the next line begins; `ash` names the staged words in which an uncorrectable error has come up since they were stored
(R384). A marked word is consumed and goes out as zeros (R386). Staging is on-chip SRAM, and a merge buffer that waits commits (R389). -/
def State.burstStart (s : State) (h ash : Nat) : State :=
  let x := s.head h
  match x.stag.find? (fun g => decide (x.bnext ≤ g.line)) with
  | some g =>
    let l := g.line
    if s.burstDue h l && (countUp x.bnext (l - x.bnext)).all (fun k => !s.enAt h k) then
      let r := if s.heldAt h l then (g, [], s) else s.mergeCommit.stagRead g ash
      let s1 := r.2.1.foldl (fun s _ => s.ashUsed) r.2.2
      let mask := r.2.1.foldl (fun n i => n ||| 2 ^ i) 0
      (s1.shiftIn h l (s1.burstImage h l mask r.1.image)).modHead h (fun x => { x with
        burst := some (l, s.clk + s.burstClk h), bnext := l + 1, lineAsh := !r.2.1.isEmpty
        stag := replaceFirst (fun g => g.line == l) (fun _ => r.1) x.stag }) |>.burstAsh h l
    else s
  | none => s

/-- In TEST the next burst of a training that runs begins, once the one before has returned (R187). -/
def State.testBurst (s : State) (h : Nat) : State :=
  match (s.head h).train with
  | some tr =>
    if s.fld (HPT_CTL_MODE h) == 3 && s.portsRun && (s.head h).ret.isNone && s.gapPast h && (s.head h).lat.all (fun p => decide (p.2 ≤ s.clk)) then
      s.trainBurst h tr else s
  | none => s

/-- BURST_START (R177, R187). -/
def execBurstStart (t : Nat) (h : Fin 64) (ash : BitVec 64) (s : State) : Out :=
  let s1 := s.advance t
  .next (if s1.fld (HPT_CTL_MODE h) = 3 then s1.testBurst h else s1.burstStart h ash.toNat)

/-- The LAT of the burst given rises (R175, R177). -/
def State.latRise (s : State) (h : Nat) : State :=
  let x := s.head h
  match x.burst with
  | some (l, e) =>
    let held := match x.instBefore l with
      | some i => decide (i + s.fld (HPT_FIRE_FHOLD h) ≤ s.clk)
      | none => true
    if s.drives h && s.portsRun && decide (e + 8 ≤ s.clk) && held then
      s.modHead h (fun x => { x with lat := some (l, s.clk + s.fld (HPT_TIME_LATW h)), latFrom := s.clk, lats := (x.lats + 1) % 4, burst := none })
    else s
  | none => s

def execLat (t : Nat) (h : Fin 64) (s : State) : Out := .next ((s.advance t).latRise h)

/-- FLUSH_BURST (R181): zeros, and no LAT. -/
def State.flushBurst (s : State) (h : Nat) : State :=
  let x := s.head h
  let due := match x.fireAt with | some i => decide (i + s.fld (HPT_TIME_SHDLY h) ≤ s.clk) | none => true
  if x.flush && s.drives h && s.portsRun && x.burst.isNone && s.gapPast h && due then
    (s.shiftIn h x.chainL zeroImage).modHead h (fun x => { x with flush := false })
  else s

def execFlushBurst (t : Nat) (h : Fin 64) (s : State) : Out := .next ((s.advance t).flushBurst h)

/-! ### Returns -/

/-- A return of port `h` in DRIVE: compared, or not where R191 says so. -/
def State.driveReturn (s : State) (h bits trailer : Nat) : State :=
  let x := s.head h
  match x.ret with
  | some (l, c, sig) =>
    let s1 := s.modHead h (fun x => { x with ret := none })
    if x.skip then
      s1.modHead h (fun x => { x with skip := false, lats := if trValid trailer then (x.lats + 4 + trChain trailer - c) % 4 else x.lats })
    else s1.checkReturn h l c sig bits trailer
  | none => s

/-- The search of step 2 on the bursts that MONITOR observes (R184): the `n`th of 64 samples RET at a coarse delay of `n` bits, and passes
where its trailer is valid. The middle of the widest passing range is the delay; where nothing has passed the next 64 bursts are searched
(DEDUCED, log entry 50). -/
def State.monitorLock (s : State) (h trailer : Nat) : State :=
  let x := s.head h
  let m := if trValid trailer then x.mpass ||| 2 ^ (x.obsN - 1) else x.mpass
  if x.obsN < 64 then s.modHead h (fun x => { x with mpass := m })
  else if m = 0 then s.modHead h (fun x => { x with mpass := 0, obsN := 0 })
  else
    let d := rangeMiddle (widestRange m (2 ^ 512 - 1))
    ((s.setFld (HPT_RETDLY_MCOARSE h) (d / 8)).setFld (HPT_RETDLY_MFINE h) (d % 8)).setOn (HPT_RETDLY_MLOCK h)

/-- No line follows the one that port `h` has latched last, as it observes it: the next return is that of the flush burst (R181). -/
def State.lastSeen (s : State) (h : Nat) : Bool :=
  match (s.head h).mline with
  | some m => !(s.head h).before (m + 1) || !s.enAt h (m + 1)
  | none => false

/-- A burst and its return are observed on port `h`: before MLOCK nothing is made of it, and a return that no LAT has followed is that of
a flush (R181, R184). -/
def State.obsReturn (s : State) (h bits trailer : Nat) : State :=
  let s1 := s.modHead h (fun x => { x with obsN := x.obsN + 1 })
  if !s.on (HPT_RETDLY_MLOCK h) then s1.monitorLock h trailer
  else
    let s2 := if (s.head h).obsRet.isSome then s1.pairObs h false else s1
    let s3 := (s2.noteTrailer h trailer).modHead h (fun x => { x with obsRet := some (bits, trailer) })
    if s3.lastSeen h then s3.pairObs h false else s3

/-- RETURN_CHECK (R187, R191, R200): the bits and the trailer of a return burst as sampled, which RETINV corrects. Nothing is sampled while
the clock of the head ports is gated (R24, R368). -/
def State.returned (s : State) (h bits : Nat) (trailer : Trailer) : State :=
  let m := s.fld (HPT_CTL_MODE h)
  let p := if m = 2 then s.monSample h bits trailer else (bits, trailer.bits.toNat)
  let b := s.retBits h p.1
  let tr := s.retTrail h p.2
  if !s.portsRun then s
  else if m = 1 then (if (s.head h).ret.isNone then s else ((s.noteTrailer h tr).driveReturn h b tr).overCheck h)
  else if m = 2 then s.obsReturn h b tr
  else match (s.head h).train with
    | some t => if m != 3 || (s.head h).ret.isNone then s else (s.trainReturn h t p.1 p.2).overCheck h
    | none => s

def execReturnCheck (t : Nat) (h : Fin 64) (bits : BitVec 1024) (trailer : Trailer) (s : State) : Out :=
  .next ((s.advance t).returned h bits.toNat trailer)

/-- A write `v` of HPT_RETST(h) (R192): its W1C bits clear, and with FAULT the port-out and the cause may end. -/
def State.retstWrite (s : State) (h : Nat) (v : Word) : State :=
  let was := s.on (HPT_RETST_FAULT h)
  let s1 := s.setReg (HPT_RETST h) (s.reg (HPT_RETST h) &&& ~~~(v &&& 0x800100F0#32))
  if was && v.getLsbD 16 then
    (if bitAt (s1.head h).outBy 1 then s1.endOut h 2 else s1).causeCheck
  else s1

/-- RETST_FAULT_CLEAR (R192). -/
def execRetstFaultClear (h : Fin 64) (v : BitVec 32) (s : State) : Out := .next (s.bar 5 (fun s => s.retstWrite h v))

/-! ### MODE (R183, R321, R336, R340) -/

/-- The drivers of port `h` may go over now. On a return the outgoing chip keeps them to the end of its FIRE pulse, and the
incoming one waits HOGAP longer; at a takeover ports follow one another by 40 ns (R336, R340). -/
def State.handTime (s : State) (h m : Nat) : Bool :=
  let x := s.head h
  if !s.twinStrap || (s.twin.ret.isSome && x.modeTw) then
    (match x.pulse with
     | some (_, i) => s.twin.ret.isNone ||
         (if m = 1 then !x.fireHi && decide (x.fall + s.fld HPT_HOGAP_GAP ≤ s.clk) else decide (i + s.fld (HPT_FIRE_FIREW h) ≤ s.clk))
     | none => true)
  else if m = 3 then !s.partnerDrives && !s.on TWN_STATE_STRAPDUP
  else m != 1 || (!s.partnerDrives && decide (s.twin.handAt + 16 ≤ s.clk) && s.on (HPT_HSTAT_TRAINED h) &&
    (List.range h).all (fun p => (s.head p).mode != some 1 || !s.on (HPT_HSTAT_TRAINED p)))

/-- Every port of every live head unit drives on this chip. -/
def State.allDrive (s : State) : Bool := s.liveHeads.all (fun h => s.drives h)

/-- The TWIN cause ends once the whole bar is driven (R333, R336). -/
def State.twinCauseOver (s : State) : State :=
  if s.role == roACTIVE && s.allDrive && !s.twin.holdTwin && bitAt (s.fld TRN_CAUSE_ACT) 5 then s.dropCause 5 else s

/-- Every port has moved on a return: the roles change. Ports without a live head unit move now, to DRIVE only where they are trained
(R335, R340), and the buses at their next idle. -/
def State.returnEnd (s : State) : State :=
  let live := s.liveHeads
  let toStandby := s.role == roACTIVE && live.all (fun h => s.fld (HPT_CTL_MODE h) == 2)
  let toActive := s.role == roSTANDBY && live.all (fun h => s.drives h)
  if s.twin.ret.isNone || !(toStandby || toActive) then s
  else
    let s1 := (s.setFld TWN_STATE_ROLE (if toActive then roACTIVE else roSTANDBY)).setTwin { s.twin with ret := none, moved := 0, released := 0 }
    let s2 := (List.range 64).foldl (fun s h =>
      if s.isLive h || (toActive && !s.on (HPT_HSTAT_TRAINED h)) then s else s.applyMode h (if toActive then 1 else 2)) s1
    let s3 := (s2.countReg TWN_RETCNT 1).setOn TWN_STATE_RETURNED
    let s4 := if toActive then s3.busTake else s3.busGive
    (s4.setDriven 64 (s4.twin.mast && s4.on TRN_CTL_MASTER)).trnShow

/-- MODE_HANDOVER (R183): a change of MODE that waits takes effect. A port that leaves its drivers after its chip has left ACTIVE is
reported in a RELEASED of its own (R333). -/
def State.modeHandover (s : State) (h : Nat) : State :=
  match (s.head h).mode with
  | some m =>
    if s.portsRun && s.handSlot h && s.handTime h m then
      let s1 := if m = 1 ∧ s.twinStrap ∧ s.twin.ret.isNone then
          (s.modHead h (fun x => { x with skip := true })).setTwin { s.twin with handAt := s.clk } else s
      let s2 := (s1.applyMode h m).setTwin { s1.twin with moved := if s1.twin.ret.isSome then s1.twin.moved ||| 2 ^ h else s1.twin.moved }
      let s2 := if s.drives h && s.isLive h && s.twin.ret.isNone && (s.role == roOUT || s.role == roSTANDBY) then s2.twinSend 0x18 [2 ^ h] else s2
      s2.twinCauseOver.returnEnd.readyShow
    else s
  | none => s

def execModeHandover (t : Nat) (h : Fin 64) (s : State) : Out := .next ((s.advance t).modeHandover h)

/-! ### MONITOR (R184, R328, R329) -/

/-- A LAT is observed on port `h`: it belongs to the line after the one before, the return of its burst to that one. -/
def State.latSeen (s : State) (h : Nat) : State :=
  if s.fld (HPT_CTL_MODE h) != 2 || !s.portsRun then s
  else
    let x := s.head h
    let s1 := (s.modHead h (fun x => { x with obs := x.obs + 1 })).pairObs h true
    match x.mline with
    | none => s1
    | some m =>
      let n := s1.lineAfter h m
      let s3 := s1.modHead h (fun y => { y with mline := some n, lats := (y.lats + 1) % 4 })
      s3.seenFired h (n - 1)

/-- MONITOR_LAT_OBSERVED (R184): the LAT pair of port `h.port` goes to level `h.up`, which LATINV corrects; the head latches on the rise (R171, R182). -/
def execMonitorLatObserved (t : Nat) (h : PairLevel) (s : State) : Out :=
  let s1 := s.advance t
  .next (if h.up == s1.on (HPT_LANEMAP_LATINV h.port) then s1 else ((s1.latSeen h.port).overCheck h.port).readyShow)

/-- A FIRE is observed on port `h` (R328, R329). -/
def State.fireSeen (s : State) (h : Nat) : State :=
  if s.fld (HPT_CTL_MODE h) != 2 || !s.portsRun then s
  else
    let s1 := (s.modHead h (fun x => { x with fireHi := true, seen := ((x.obs, s.tb0) :: x.seen).take 16 })).align h
    match (s1.head h).mline with
    | some m => (s1.modHead h (fun x => { x with pulse := some (m, s1.clk) })).seenFired h m
    | none => s1

/-- An observed FIRE falls: a return counts the hand-over gap from here (R340). -/
def State.fireFell (s : State) (h : Nat) : State :=
  if s.fld (HPT_CTL_MODE h) != 2 || !s.portsRun then s else s.modHead h (fun x => { x with fireHi := false, fall := s.clk })

/-- MONITOR_FIRE_OBSERVED (R328): the FIRE pair of port `h.port` goes to level `h.up`, which FIREINV corrects (R171, R182). -/
def execMonitorFireObserved (t : Nat) (h : PairLevel) (s : State) : Out :=
  let s1 := s.advance t
  .next (if h.up == s1.on (HPT_LANEMAP_FIREINV h.port) then s1.fireFell h.port else (s1.fireSeen h.port).readyShow)

/-! ### Training and PRBS -/

/-- A write of HPT_TRAIN.START (R185, R187, R202, R203): step 1. -/
def State.trainStart (s : State) (h : Nat) : State :=
  if s.on (HPT_TRAIN_BUSY h) then s.refuse erBUSY (HPT_TRAIN h)
  else if s.fld (HPT_CTL_MODE h) != 3 then s.refuse erNOTTEST (HPT_TRAIN h)
  else if s.enAt h (s.head h).next || s.fld (TRM_OUT_OUT h) != 0 || s.on (HPT_TEST_RUN h) then s.trainEnd h trLIVE
  else ((s.setOn (HPT_TRAIN_BUSY h)).setReg (HPT_LANEMAP h) 0#32).modHead h (fun x => { x with train := some Train.fresh, ret := none })

/-- HPT_TRAIN_START (R185). -/
def execHptTrainStart (h : Fin 64) (s : State) : Out := .next (s.bar 5 (fun s => s.trainStart h))

/-- TRAINING_DONE (R187): the bursts that training has still to give, and what they return. Training stands still while the port's clock is
gated, outside Run (R24, R368), and goes on where step 4 has not named every chain. -/
def execTrainingDone (t : Nat) (h : Fin 64) (c1 c2 c3 : BitVec 512) (f1 f2 f3 : BitVec 4096) (w0 w1 w2 w3 : BitVec 24) (verify : BitVec 96)
    (s : State) : Out :=
  let s1 := s.advance t
  let f : TrainFound := { coarse := [c1.toNat, c2.toNat, c3.toNat], fine := [f1.toNat, f2.toNat, f3.toNat]
                          words := [w0, w1, w2, w3], verify := verify.toNat }
  .next (if s1.portsRun && s1.fld (HPT_CTL_MODE h) == 3 && (s1.head h).ret.isNone then s1.trained h f trainBursts else s1)

/-- The timer that paces the PRBS bursts of port `h` (R190). -/
def tmPrbs (h : Nat) : Nat := 3000 + h

/-- PRBS testing runs on port `h` (R190). -/
def State.prbsOn (s : State) (h : Nat) : Bool := s.fld (HPT_CTL_MODE h) == 3 && s.on (HPT_TEST_RUN h)

/-- PRBS_BURST (R190): its LAT follows 8 core clocks after its end (R177). -/
def State.prbsBurst (s : State) (h : Nat) : State :=
  let x := s.head h
  let p15 := s.on (HPT_TEST_POLY h)
  let due := x.prbsN == 0 || s.timerOver (tmPrbs h) (usClk (s.fld (HPT_TEST_PER h)))
  if s.prbsOn h && s.portsRun && due && s.gapPast h && x.lat.all (fun p => decide (p.2 ≤ s.clk)) then
    let g := if x.prbsN = 0 then prbsSeed p15 else prbsRun p15 1024 x.prbs
    (s.startTimer (tmPrbs h)).modHead h (fun x => { x with
      prbsP := x.prbs, prbs := g, pins := s.pinBits h (fun k => laneBits p15 k g)
      prbsN := x.prbsN + 1, ret := some (0, x.lats % 4, 0#32), lats := (x.lats + 1) % 4, prbsAt := s.clk + s.burstClk h
      latFrom := s.clk + s.burstClk h + 8, lat := some (0, s.clk + s.burstClk h + 8 + s.fld (HPT_TIME_LATW h)) })
  else s

def execPrbsBurst (t : Nat) (h : Fin 64) (s : State) : Out := .next ((s.advance t).prbsBurst h)

/-- PRBS_RETURN_CHECK (R190): the first return after RUN is not compared; a trailer without its mark costs 1,024 errors on
the chain that was expected. The return of a burst given before RUN was cleared is compared as well (R183). -/
def State.prbsReturn (s : State) (h raw rawTr : Nat) : State :=
  let x := s.head h
  let bits := s.retBits h raw
  let trailer := s.retTrail h rawTr
  match x.ret with
  | some (_, c, _) =>
    if s.fld (HPT_CTL_MODE h) != 3 || !s.portsRun || x.train.isSome then s
    else
      let p15 := s.on (HPT_TEST_POLY h)
      let s1 := (s.noteTrailer h trailer).modHead h (fun x => { x with
        ret := none, lats := if trValid trailer then (x.lats + 4 + trChain trailer - c) % 4 else x.lats })
      if x.prbsN ≤ 1 then s1
      else if trValid trailer then
        let k := trChain trailer
        (s1.countReg (prbsErr h k) (bitDiff 1024 bits (laneBits p15 k x.prbsP))).countReg (HPT_PRBSCHK h) 1
      else (s1.countReg (prbsErr h c) 1024).countReg (HPT_PRBSCHK h) 1
  | none => s

def execPrbsReturnCheck (t : Nat) (h : Fin 64) (bits : BitVec 1024) (trailer : BitVec 8) (s : State) : Out :=
  .next (((s.advance t).prbsReturn h bits.toNat trailer.toNat).overCheck h)

/-! ### Temperature (R198 to R200) -/

/-- The head of bus `b` that is read next: the first present one, in position order from the one after the latest read, that has not been
read for TPOLL ms (R198). -/
def State.tempNext (s : State) (b : Nat) : Option Nat :=
  let late := (countUp (8 * b) 8).foldl (fun m h => if (s.head m).poll < (s.head h).poll then h else m) (8 * b)
  let hs := if (s.head late).poll = 0 then countUp (8 * b) 8 else (countUp (late + 1) 8).map (fun h => 8 * b + h % 8)
  hs.find? (fun h => s.on (HPT_HSTAT_PRESENT h) &&
    ((s.head h).poll == 0 || decide ((s.head h).poll + usClk (1000 * s.fld HPT_TCFG_TPOLL) ≤ s.clk)))



/-- TEMP_POLL (R198): a bus that this chip masters and that is idle reads the next present head. One that it is to take over it takes now
(R336, R340). -/
def State.tempPoll (s : State) (b : Nat) : State :=
  let s := s.busTurn b
  if s.on (HPT_BUSST_MASTER b) && s.on (HPT_BUSCFG_EN b) && s.buses.get (fun _ => 0) b == 0 && !s.hearthBus b &&
      s.fld PWR_STAT_STATE == 0 then
    match s.tempNext b with
    | some h =>
      let turn := s.svc.turn && s.reqField 0 1 / 8 != b
      ({ s with buses := s.buses.set (fun _ => 0) b (h + 1), svc := { s.svc with turn := turn } } : State).modHead h (fun x => { x with poll := s.clk })
    | none => s
  else s

def execTempPoll (t : Nat) (b : Fin 8) (s : State) : Out := .next ((s.advance t).tempPoll b)

/-- A read of head `h`'s sensor ends: `ok` is false on a NACK (R199, R200). The first one is step 4 of the bring-up (R189). A chip of a pair that is not ACTIVE takes the value from the
read that it observes (R194, R325). -/
def State.tempRead (s : State) (h : Nat) (ok : Bool) (v : Nat) : State :=
  let b := h / 8
  let mine := s.buses.get (fun _ => 0) b == h + 1
  if !mine && !(s.twinStrap && s.role != roACTIVE) then s
  else
    let s1 : State := (if mine then { s with buses := s.buses.set (fun _ => 0) b 0 } else s).busTurn b
    if ok then
      ((((s1.setFld (HPT_TEMP_TEMP h) v).setFld (HPT_TEMP_NACK h) 0).setFld (HPT_TEMP_STALE h) 0).startTimer (tmTemp h)).overCheck h |>.stepUp h 4
    else ((s1.setOn (HPT_TEMP_NACK h)).count (HPT_BUSST_NACKS b) 1).overCheck h

def execTempReadDone (t : Nat) (h : Fin 64) (ok : Bool) (v : BitVec 16) (s : State) : Out :=
  .next ((s.advance t).tempRead h ok v.toNat)

/-- TEMP_STALE (R200): no reading of a present head for TSTALE. -/
def State.tempStale (s : State) (h : Nat) : State :=
  if s.on (HPT_HSTAT_PRESENT h) && s.timerOver (tmTemp h) (usClk (10000 * s.fld HPT_TCFG_TSTALE)) then
    (s.setOn (HPT_TEMP_STALE h)).overCheck h
  else s

def execTempStale (t : Nat) (h : Fin 64) (s : State) : Out := .next ((s.advance t).tempStale h)

/-- BUS_CLEAR (R199): what the bus was doing ends with the STOP. -/
def execBusClear (t : Nat) (b : Fin 8) (s : State) : Out :=
  let s1 := s.advance t
  .next (if s1.on (HPT_BUSST_MASTER b) then
    ({ s1 with buses := s1.buses.set (fun _ => 0) b 0 } : State).setOn (HPT_BUSST_STUCK b) else s1)

end Sys2Proof.Machine
end

