-- ==== Sys2Proof/Machine/InsOps.lean ====
section
/-! DEFINITION. Inspection: the trigger targets and records (R266 to R268), the frames of a camera port and their repairs
(R265), the spill (R274), the image pipeline (R271 to R273), the statistics (R275) and the record ring (R279). -/

namespace Sys2Proof.Machine

/-! ### Triggers (R266, R267) -/

/-- Camera port `c` runs (R264): enabled, in Run. -/
def State.camOn (s : State) (c : Nat) : Bool := s.on (CAM_CTL_EN c) && s.fld PWR_STAT_STATE == 0 && s.on RST_STAT_DONE

/-- How far the next trigger target lies above travel count `p`, and the target, in 2^-24 count: the lowest of Torg + j TPITCH
CPL / 256 that is not dealt with. None where the targets have no spacing. -/
def State.trigGo (s : State) (c : Nat) (p : Int) : Option (Int × Int) :=
  let step : Int := s.fld (CAM_TPITCH_PITCH c) * (s.reg FIR_CPL).toNat
  if step = 0 then none
  else
    let d := wrapS 72 ((s.cam c).mark - s.fir.torg)
    let off := (d / step + 1) * step
    some (wrapS 72 (s.fir.torg + off - p * 2 ^ 24), wrapS 72 (s.fir.torg + off))

/-- The target `dq` ahead of the latest edge is reached now by prediction with A = 0, at the core clock nearest to it and not before the
edge is known (R230, R266). -/
def State.trigPredicted (s : State) (dq : Int) : Bool :=
  let den := max 1 ((s.spdK : Int) * s.tbInc 0)
  let num := dq * s.spdSum
  s.on FIR_CTL_PREDEN && s.spdValid && s.pos.ahead == 0 && !s.on POS_SPEEDST_DIR &&
  decide (num < (s.spdSum : Int) * 2 ^ 24 + s.kClk * den) &&
  decide (max (s.kClk : Int) ((2 * num + den) / (2 * den)) ≤ (s.clk : Int) - s.pos.edgeAt)

/-- What the position says at a trigger, or `ago` core clocks before a Frame Start, with interpolated travel count `tt`. -/
def State.trigNow (s : State) (tt : Int) (ago : Nat) : Trig :=
  let x := s.seenAt (s.clk - ago)
  { tb := s.tb0, at_ := s.clk - ago, tt := tt, sum := if s.spdValid then s.spdSum else 0, k := s.spdK
    nopos := !x.trust || !x.origin, rev := x.rev }

/-- Core clocks from the exposure of row 0 to that of row `r`, which record `x` places: the travel between them at the mean interval of the
record, 0 where speed was not valid (R268; DEDUCED, log entry 73). -/
def State.rowDelay (s : State) (c : Nat) (x : Trig) (r : Nat) : Nat :=
  nsClk ((r * signed 32 (s.reg (CAM_ROWPITCH c)).toNat * (s.reg FIR_CPL).toNat * x.sum).toNat / (2 ^ 24 * max 1 x.k))

/-- Was row `r` that record `x` places exposed while TRN_STATE.SEQ was not IDLE (R268)? `lead` adds the exposure delay of FRAME and
LINE. -/
def State.exposedInSplice (s : State) (c : Nat) (x : Trig) (r : Nat) (lead : Bool) : Bool :=
  (s.seenAt (x.at_ + s.rowDelay c x r + if lead then nsClk (s.fld (CAM_EXPDLY_NS c)) else 0)).splice

/-- A trigger record joins the queue of camera `c`; a full queue loses its oldest (R267). -/
def State.trigPush (s : State) (c : Nat) (r : Trig) : State :=
  if 64 ≤ (s.cam c).trigs.length then
    (s.modCam c (fun x => { x with trigs := x.trigs.drop 1 ++ [r] })).countReg (CAM_TRIGCNT c) 1
  else s.modCam c (fun x => { x with trigs := x.trigs ++ [r] })

/-- A trigger target of camera `c` is reached: its pin pulses and its record is queued. -/
def State.trigPulse (s : State) (c : Nat) : State :=
  let m := s.fld (CAM_TRIG_MODE c)
  if !s.camOn c || m == 0 || m == 3 || s.scan || s.trigOff then s
  else
    match s.trigGo c s.pos.h, s.trigGo c s.pos.t with
    | some (passed, target), some (dq, _) =>
      if decide (passed ≤ 0) || s.trigPredicted dq then
        let s1 := match (s.cam c).pin with
          | some n => s.evtPulse n (s.fld (CAM_TRIG_PW c))
          | none => s
        (s1.modCam c (fun x => { x with mark := target })).trigPush c (s1.trigNow s1.interp 0)
      else s
    | _, _ => s

/-- The travel count, in 1/256 count, `e` ns after the edge that made it `t`; before that edge, by the intervals before it. -/
def backTo (dir : Int) (sum k : Nat) : Int → Int → List Nat → Int
  | t, e, ivs =>
    if 0 ≤ e then 256 * t + (if sum = 0 then 0 else min 255 (256 * e * k / sum))
    else match ivs with
      | [] => 256 * t + (if sum = 0 then 0 else dir * (256 * e * k / sum))
      | iv :: l => backTo dir sum k (t - dir) (e + iv) l

/-- The interpolated travel count `ns` before now (R267). -/
def State.interpAgo (s : State) (ns : Nat) : Int :=
  let e := (s.tb0 - s.reg POS_EDGETB0 - BitVec.ofNat 32 ns).toInt
  let rev := s.on POS_SPEEDST_DIR
  backTo (if rev then -1 else 1) (if s.spdValid && !rev then s.spdSum else 0) s.spdK s.pos.t e s.pos.ivals

/-! ### Mapping (R268) -/

/-- The web line seen, in 1/256 line, of row `r` placed by record `x`; `lead` adds the exposure delay of FRAME and LINE. -/
def State.webLine (s : State) (c : Nat) (x : Trig) (r : Nat) (lead : Bool) : Option Int :=
  if x.nopos then none
  else
    let exp := s.fld (CAM_EXPDLY_NS c)
    let te := x.tt + (if lead && x.sum != 0 then ((2 * 256 * exp * x.k + x.sum) / (2 * x.sum) : Nat) else 0)
    let cpl : Int := (s.reg FIR_CPL).toNat
    let at_ := te * 2 ^ 16 + r * signed 32 (s.reg (CAM_ROWPITCH c)).toNat * cpl
    some (256 * (s.fir.lorg : Int) + wrapS 72 (at_ - s.fir.torg) / cpl - signed 32 (s.reg (CAM_DWOFS c)).toNat)

/-! ### Frames and flags (R265, R279) -/

/-- Flag bits of the statistics header. -/
def cfPARTIAL : Nat := 0
def cfSHORTL : Nat := 1
def cfLONGL : Nat := 2
def cfSHORTF : Nat := 3
def cfLONGF : Nat := 4
def cfHDR : Nat := 5
def cfCRC : Nat := 6
def cfNOFE : Nat := 7
def cfSPILLED : Nat := 8
def cfDROPPED : Nat := 9
def cfNOPOS : Nat := 10
def cfREVERSED : Nat := 11
def cfSPLICE : Nat := 12
def cfSTRIP : Nat := 13
def cfASH : Nat := 14

/-- The mask that flag `f` sets: with PARTIAL for any flag but SPILLED. -/
def flagMask (f : Nat) : Nat := if f = cfSPILLED then 2 ^ cfSPILLED else 2 ^ f ||| 1

/-- Change frame `n` of camera `c`. -/
def State.modFrame (s : State) (c n : Nat) (f : CamFrame → CamFrame) : State :=
  s.modCam c (fun x => { x with frames := replaceFirst (fun fr => fr.num == n) f x.frames })

/-- Flag `f` of frame `n` of camera `c`, also in CAM_STAT. -/
def State.frameFlag (s : State) (c n f : Nat) : State :=
  (s.modFrame c n (fun fr => { fr with flags := fr.flags ||| flagMask f })).setFld (CAM_STAT_FLAGS c) (s.fld (CAM_STAT_FLAGS c) ||| flagMask f)

/-- A repair (R265): its flag, and the CAMERR alarm. -/
def State.repair (s : State) (c n f : Nat) : State := (s.frameFlag c n f).alarm alCAMERR

/-- The open frame of camera `c`. -/
def State.openFrame (s : State) (c : Nat) : Option CamFrame := if (s.cam c).opened then (s.cam c).frames.getLast? else none

/-- Append a row to frame `n`. -/
def State.addRow (s : State) (c n : Nat) (r : CamRow) : State := s.modFrame c n (fun fr => { fr with rows := fr.rows ++ [r] })

/-- A line of CAM_FILL. -/
def State.fillPix (s : State) (c w : Nat) : List Nat := List.replicate w (s.fld (CAM_FILL_FILL c))

/-- Append a fill line at position `pos` to frame `n`. -/
def State.fillRow (s : State) (c n w : Nat) (pos : Option Int) : State :=
  (s.addRow c n ⟨s.fillPix c w, none, pos⟩).modFrame c n (fun fr => { fr with fills := fr.fills + 1 })

/-- Row `r` of frame `n`, which record `x` places, gives it SPLICE where it was exposed during a splice (R268). -/
def State.rowSplice (s : State) (c n : Nat) (x : Option Trig) (r : Nat) (lead : Bool) : State :=
  if x.any (fun x => s.exposedInSplice c x r lead) then s.frameFlag c n cfSPLICE else s

/-- The flags that a record gives the frame of its rows (R268); a row without record or position carries NOPOS. -/
def State.rowFlags (s : State) (c n : Nat) (x : Option Trig) (lead : Bool) : State :=
  match x with
  | none => s.frameFlag c n cfNOPOS
  | some r =>
    let s1 := if r.nopos then s.frameFlag c n cfNOPOS else s
    let s2 := if r.rev then s1.frameFlag c n cfREVERSED else s1
    s2.rowSplice c n (some r) 0 lead

/-- The lines that a short frame lacks are added (R265). -/
def State.frameFill (s : State) (c : Nat) (fr : CamFrame) : Nat → State
  | 0 => s
  | k + 1 =>
    let y := fr.flines - (k + 1)
    let m := s.fld (CAM_TRIG_MODE c)
    let pos := match fr.te with
      | some x => if m = 2 then none else s.webLine c x y (m == 1)
      | none => none
    (s.fillRow c fr.num fr.width pos).frameFill c fr k

/-- Pixels of a line of camera `c`: CAM_GEOM.WIDTH, and 16,384 where that is set higher (R270). -/
def State.camWidth (s : State) (c : Nat) : Nat := min 16384 (s.fld (CAM_GEOM_WIDTH c))

/-- The open frame of camera `c` ends: by its Frame End, or by the next Frame Start, which ends it as SHORTF (R265). -/
def State.frameEnd (s : State) (c : Nat) (fe : Bool) : State :=
  match s.openFrame c with
  | none => s
  | some fr =>
    let short := fr.flines - fr.rows.length
    let s1 := if short = 0 && fe then s else (s.repair c fr.num cfSHORTF).frameFill c fr short
    let s2 := if fe then s1 else s1.repair c fr.num cfNOFE
    (s2.modFrame c fr.num (fun f => { f with closed := true, endAt := s2.clk, outAt := max f.outAt s2.clk })).modCam c
      (fun x => { x with opened := false })

/-- Take the oldest trigger record of camera `c`. -/
def State.trigTake (s : State) (c : Nat) : Option Trig × State :=
  match (s.cam c).trigs with
  | [] => (none, s)
  | r :: l => (some r, s.modCam c (fun x => { x with trigs := l }))

/-- Is a packet of virtual channel `vc` for camera `c` (R263)? -/
def State.camVc (s : State) (c vc : Nat) : Bool := s.fld (CAM_CTL_VC c) == vc

/-- The lanes of camera `c` receive. -/
def State.camLink (s : State) (c : Nat) : State := s.setOn (CAM_STAT_LINK c)

/-- A Frame Start of camera `c` (R265, R267). -/
def State.frameStart (s : State) (c : Nat) : State :=
  let s0 := s.frameEnd c false
  let lim := 1000 * s0.fld (CAM_LATMAX_US c)
  let s1 := s0.modCam c (fun x => { x with trigs := x.trigs.filter (fun r => decide ((s0.tb0 - r.tb).toNat ≤ lim)) })
  let n := (s1.cam c).next
  let m := s1.fld (CAM_TRIG_MODE c)
  let taken : Option Trig × State :=
    if m = 1 then s1.trigTake c
    else if m = 2 then (none, s1)
    else (some (s1.trigNow (s1.interpAgo (s1.fld (CAM_EXPDLY_NS c))) (nsClk (s1.fld (CAM_EXPDLY_NS c)))), s1)
  let te := taken.1
  let s2 := taken.2
  let fr : CamFrame :=
    { num := n, start := s2.tb0, width := s2.camWidth c, flines := s2.fld (CAM_GEOM_FLINES c), flags := 0, rows := []
      lines := 0, fills := 0, te := te, closed := false, endAt := 0, outAt := s2.clk }
  let s3 := (s2.modCam c (fun x => { x with opened := true, next := (n + 1) % 2 ^ 32, frames := x.frames ++ [fr] })).setReg
    (CAM_FRAME c) (BitVec.ofNat 32 n)
  if m = 2 then s3 else s3.rowFlags c n te (m == 1)

/-! ### Normalisation and flat-field (R271) -/

/-- A raw pixel as 12 bits. -/
def State.normPix (s : State) (c : Nat) (v : BitVec 12) : Nat :=
  let d := s.fld (CAM_CTL_DT c)
  (v.toNat * 2 ^ (4 - 2 * d)) % 4096

/-- Clamp to 0 to 4,095 (R270). -/
def clamp12 (i : Int) : Nat := (max 0 (min 4095 i)).toNat

/-- A pixel through a flat-field entry. -/
def flatPix (v e : Nat) : Nat := clamp12 ((((v : Int) - bitsOf e 0 12) * bitsOf e 16 16 + 2048) / 4096)

/-- The words of the flat-field table of camera `c` that a line of `w` pixels reads are checked (R384); the merge buffer commits first (R389). -/
def State.ffTouch (s : State) (c w : Nat) : State :=
  ((s.tabs.ff.map (·.1)).filter (fun j => decide (16384 * c ≤ j) && decide (j < 16384 * c + w))).foldl
    (fun s j => s.regionTouch rgCAMERA j) s.mergeCommit

/-- Line `raw` of camera `c` passes the line buffers: of what is wrong in them, a free value says whether the line reads it, overwrites it, or
goes by (R384, R388). The line as it comes out, and whether a word of it is marked. -/
def State.lineRead (s : State) (c : Nat) (raw : List (Option Nat)) : List (Option Nat) × Bool × State :=
  let bytes := ceilDiv (raw.length * (8 + 2 * s.fld (CAM_CTL_DT c))) 8
  s.insp.lineErr.foldl (fun (r : List (Option Nat) × Bool × State) f =>
    let s := r.2.2
    let d := s.draw
    let k := d.1.toNat % 4
    if k = 0 then (r.1, r.2.1, d.2.setInsp { s.insp with lineErr := s.insp.lineErr ++ [f] })
    else if k = 1 then (r.1, r.2.1, d.2)
    else
      let e := (d.2.eccNote memSRAM rgCAMERA f.addr f.word).draw
      (if f.word.out.1 = 0#64 then r.1 else e.2.freePix bytes (e.1.toNat % max 1 (ceilDiv bytes 8)) r.1, r.2.1 || f.word.out.2, e.2))
    (raw, false, s.setInsp { s.insp with lineErr := [] })

/-- A pixel of row `y` after flat-field: a fill pixel, and one whose entry is marked, is CAM_FILL (R271, R386). -/
def State.rowPix (s : State) (c y x : Nat) (p : Option Nat) : Nat × Bool :=
  match p with
  | none => (s.fld (CAM_FILL_FILL c), false)
  | some v =>
    let o := (s.ffWord (16384 * c + x)).out
    if o.2 then (s.fld (CAM_FILL_FILL c), true) else (flatPix v (bitsOf o.1.toNat (32 * (y % 2)) 32), false)

/-- Line `raw` enters the pipeline as row `y` of frame `n` of camera `c`: flat-field, and the time it takes (R270). A line that the line buffers
give marked becomes a fill line, with ASH (R386; DEDUCED, log entry 92). -/
def State.pipeLine (s : State) (c n y : Nat) (raw : List (Option Nat)) : State × List Nat :=
  let r := s.lineRead c raw
  let s1 := r.2.2.ffTouch c raw.length
  let ps := r.1.zipIdx.map (fun px => s1.rowPix c y px.2 px.1)
  let bad := if r.2.1 then 1 else (ps.filter (·.2)).length
  let s2 := (List.range bad).foldl (fun s _ => s.ashUsed) s1
  let s3 := if bad = 0 then s2 else s2.frameFlag c n cfASH
  let free := max s3.clk s3.insp.pipeFree + ceilDiv raw.length 3
  ((s3.setInsp { s3.insp with pipeFree := free }).modFrame c n (fun fr => { fr with
     outAt := max fr.outAt free, fills := fr.fills + b2n r.2.1 }),
   if r.2.1 then s3.fillPix c raw.length else ps.map (·.1))

/-! ### A camera line (R265, R274) -/

/-- Bytes of a line of `k` pixels as received. -/
def State.lineBytes (s : State) (c k : Nat) : Nat := ceilDiv (k * (8 + 2 * s.fld (CAM_CTL_DT c))) 8

/-- The higher-priority camera (R274). -/
def State.insPrio (s : State) : Nat := s.fld INS_CTL_PRIO

/-- Is a line of camera `c` spilled on its arrival (R274)? -/
def State.mustSpill (s : State) (c : Nat) : Bool :=
  s.insp.spill.any (fun p => p.cam == c) ||
  (c != s.insPrio && decide (s.camWidth s.insPrio < 3 * (s.insp.pipeFree - s.clk)))

/-- Is there room for `k` bytes in the spill partition? -/
def State.spillRoom (s : State) (k : Nat) : Bool :=
  match s.partKind pkSPILL with
  | some i => decide ((s.insp.spill.map (·.bytes)).foldl (· + ·) 0 + k ≤ s.partBytes i)
  | none => false

/-- A sound line, as row `y` of the open frame: into the pipeline, the spill partition, or dropped. -/
def State.lineIn (s : State) (c : Nat) (fr : CamFrame) (y : Nat) (raw : List (Option Nat)) (bytes : Nat) (pos : Option Int) : State :=
  if !s.mustSpill c then
    let p := s.pipeLine c fr.num y raw
    p.1.addRow c fr.num ⟨p.2, none, pos⟩
  else if s.spillRoom bytes then
    let s1 := ((s.addRow c fr.num ⟨[], some raw, pos⟩).frameFlag c fr.num cfSPILLED).countReg (CAM_SPILLCNT c) 1
    (s1.setInsp { s1.insp with spill := s1.insp.spill ++ [⟨c, fr.num, y, bytes, false⟩] }).alarm alSPILL |>.stores pkSPILL 3 (ceilDiv bytes 64)
  else ((s.fillRow c fr.num fr.width pos).frameFlag c fr.num cfDROPPED).countReg (CAM_DROPCNT c) 1

/-- A repair of camera `c` that no open frame takes (R265): its flag in CAM_STAT, and the CAMERR alarm. -/
def State.repairAlone (s : State) (c f : Nat) : State :=
  (s.setFld (CAM_STAT_FLAGS c) (s.fld (CAM_STAT_FLAGS c) ||| flagMask f)).alarm alCAMERR

/-- A long packet of camera `c` (R265): `err` is 1 for a payload CRC error and 2 for a header that cannot be corrected. -/
def State.camLine (s : State) (c err : Nat) (pix : List (BitVec 12)) : State :=
  let s0 := if err = 2 then s.countReg (CAM_HDRCNT c) 1 else s
  match s0.openFrame c with
  | none => if err = 2 then s0.repairAlone c cfHDR else s0
  | some fr =>
    let m := s0.fld (CAM_TRIG_MODE c)
    let y := fr.rows.length
    let taken : Option Trig × State := if m = 2 then s0.trigTake c else (fr.te, s0)
    let rec_ := taken.1
    let s1 := if m = 2 then taken.2.rowFlags c fr.num rec_ true else taken.2.rowSplice c fr.num rec_ y (m == 1)
    let pos := match rec_ with
      | some x => s1.webLine c x (if m = 2 then 0 else y) (m != 0)
      | none => none
    if err = 2 then
      let s2 := s1.repair c fr.num cfHDR
      if y < fr.flines then s2.fillRow c fr.num fr.width pos else s2
    else
      let s2 := s1.modFrame c fr.num (fun f => { f with lines := f.lines + 1 })
      let s2 := if err = 1 then (s2.countReg (CAM_CRCCNT c) 1).repair c fr.num cfCRC else s2
      if fr.flines ≤ y then s2.repair c fr.num cfLONGF
      else if err = 1 then s2.fillRow c fr.num fr.width pos
      else
        let k := pix.length
        let s3 := if k < fr.width then s2.repair c fr.num cfSHORTL else if fr.width < k then s2.repair c fr.num cfLONGL else s2
        let raw := (pix.take fr.width).map (fun v => some (s3.normPix c v)) ++ List.replicate (fr.width - k) none
        s3.lineIn c fr y raw (s3.lineBytes c k) pos

/-- The oldest spilled line is replayed (R274); one that comes back marked, by what stands in its words or by an error `ash` that has come up
since, becomes a fill line (R386). -/
def State.replay (s : State) (ash : Bool) : State :=
  match s.insp.spill with
  | [] => s
  | p :: l =>
    if !s.camOn p.cam || decide (s.clk < s.insp.pipeFree) then s
    else
      let s0 := (s.storeUse 3 (ceilDiv p.bytes 64)).deviceReads (fun i => s.claimed i pkSPILL) (fun e => .spill 0 (e % max 1 (ceilDiv p.bytes 8)))
      let bad := ash || (s0.insp.spill[0]?.any (fun q => q.ash))
      let s1 := s0.setInsp { s0.insp with spill := l }
      match (s1.cam p.cam).frames.find? (fun fr => fr.num == p.frame) with
      | none => s1
      | some fr =>
        let row := fr.rows[p.row]?.getD ⟨[], none, none⟩
        let put := fun (s : State) (ps : List Nat) (n : Nat) => s.modFrame p.cam fr.num (fun f => { f with
          rows := f.rows.set p.row { row with pix := ps, raw := none }, fills := f.fills + n, outAt := max f.outAt s.clk })
        if bad then
          let s2 := (s1.ashUsed).frameFlag p.cam fr.num cfASH
          put s2 (s2.fillPix p.cam fr.width) 1
        else
          let r := s1.pipeLine p.cam fr.num p.row (row.raw.getD [])
          put r.1 r.2 0

/-! ### Demosaic, colour matrix and downsampling (R272, R273) -/

/-- Coordinate `i` of `n`, mirrored without repeating the edge; none where a single line has nothing to mirror. -/
def mirror (n : Nat) (i : Int) : Option Nat :=
  if 0 ≤ i ∧ i < n then some i.toNat
  else if n ≤ 1 then none
  else
    let j := i % (2 * ((n : Int) - 1))
    some (if j < n then j.toNat else (2 * ((n : Int) - 1) - j).toNat)

/-- The pixels of a frame: `base` numbers the free values that stand for what a frame of one line leaves unstated. -/
structure Mosaic where
  rows : List (List Nat)
  w : Nat
  h : Nat
  cfa : Nat
  base : Nat

/-- p(x, y) of R272. -/
def Mosaic.p (m : Mosaic) (x y : Int) : Int :=
  match mirror m.w x, mirror m.h y with
  | some i, some j => ((m.rows[j]?.getD [])[i]?.getD 0 : Nat)
  | some i, none => ((Config.freeWord (m.base + 5 * i + (y + 2).toNat)).toNat % 4096 : Nat)
  | none, _ => 0

/-- Colour of a site: 0 red, 1 green, 2 blue (R272). -/
def Mosaic.site (m : Mosaic) (x y : Int) : Nat :=
  let ex := x % 2 == 0
  let ey := y % 2 == 0
  if m.cfa = 1 then (if ey then (if ex then 0 else 1) else (if ex then 1 else 2))
  else if m.cfa = 2 then (if ey then (if ex then 1 else 0) else (if ex then 2 else 1))
  else if m.cfa = 3 then (if ey then (if ex then 1 else 2) else (if ex then 0 else 1))
  else (if ey then (if ex then 2 else 1) else (if ex then 1 else 0))

/-- Ĝ of R272. -/
def Mosaic.green (m : Mosaic) (x y : Int) : Int :=
  let p := m.p
  if m.site x y = 1 then p x y
  else
    let dH := (p (x - 1) y - p (x + 1) y).natAbs + (2 * p x y - p (x - 2) y - p (x + 2) y).natAbs
    let dV := (p x (y - 1) - p x (y + 1)).natAbs + (2 * p x y - p x (y - 2) - p x (y + 2)).natAbs
    let gH := (2 * (p (x - 1) y + p (x + 1) y) + 2 * p x y - p (x - 2) y - p (x + 2) y + 2) / 4
    let gV := (2 * (p x (y - 1) + p x (y + 1)) + 2 * p x y - p x (y - 2) - p x (y + 2) + 2) / 4
    if dH < dV then clamp12 gH else if dV < dH then clamp12 gV else ((clamp12 gH + clamp12 gV + 1) / 2 : Nat)

/-- What a neighbour's colour differs from its green by. -/
def Mosaic.diff (m : Mosaic) (x y : Int) : Int := m.p x y - m.green x y

/-- (R, G, B) of a pixel (R272). -/
def Mosaic.rgb (m : Mosaic) (x y : Int) : List Int :=
  let v := m.p x y
  if m.cfa = 0 then [v, v, v]
  else
    let g := m.green x y
    if m.site x y = 1 then
      let hor : Int := clamp12 (v + (m.diff (x - 1) y + m.diff (x + 1) y + 1) / 2)
      let ver : Int := clamp12 (v + (m.diff x (y - 1) + m.diff x (y + 1) + 1) / 2)
      if m.site (x + 1) y = 0 then [hor, g, ver] else [ver, g, hor]
    else
      let opp : Int := clamp12 (g + (m.diff (x - 1) (y - 1) + m.diff (x + 1) (y - 1) + m.diff (x - 1) (y + 1) + m.diff (x + 1) (y + 1) + 2) / 4)
      if m.site x y = 0 then [v, g, opp] else [opp, g, v]

/-- m(j) of the colour matrix of camera `c` (R286). -/
def State.camMtx (s : State) (c j : Nat) : Int := signed 16 (bitsOf (s.reg (CAM_MTX0 c + 4 * (j / 2))).toNat (16 * (j % 2)) 16)

/-- Output `i` of the colour matrix (R273). -/
def State.colour (s : State) (c i : Nat) (v : List Int) : Nat :=
  let sum := (List.range 3).foldl (fun (a : Int) j => a + s.camMtx c (3 * i + j) * (v[j]?.getD 0)) 0
  clamp12 ((sum + 512) / 1024 + signed 13 (s.reg (CAM_MOFS0 c + 4 * i)).toNat)

/-- The mean of a block, rounded half up (R273). -/
def blockMean (vs : List Nat) : Nat := (2 * vs.foldl (· + ·) 0 + vs.length) / (2 * max 1 vs.length)

/-- Channel `i` of a frame after downsampling by 2^dx and 2^dy: its lines (R273). -/
def State.camOut (s : State) (c i : Nat) (m : Mosaic) : List (List Nat) :=
  let dx := 2 ^ s.fld (CAM_DS_DX c)
  let dy := 2 ^ s.fld (CAM_DS_DY c)
  (List.range (ceilDiv m.h dy)).map (fun by_ => (List.range (ceilDiv m.w dx)).map (fun bx =>
    blockMean ((countUp (by_ * dy) (min dy (m.h - by_ * dy))).flatMap (fun (y : Nat) => (countUp (bx * dx) (min dx (m.w - bx * dx))).map (fun (x : Nat) =>
      s.colour c i (m.rgb (x : Int) (y : Int)))))))

/-- The web line of a downsampled row: the mean of the rows it combines that have one (R269). -/
def meanPos (rs : List CamRow) : Option Int :=
  let ps := rs.filterMap (·.pos)
  if ps.isEmpty then none else some (ps.foldl (· + ·) 0 / (ps.length : Int))

/-! ### Records (R275, R279) -/



/-- The channel entry of channel `i` with values `vs`. -/
def channelBody (i : Nat) (vs : List Nat) : List Byte :=
  leBytes 1 3 ++ leBytes 1 i ++ leBytes 2 (vs.foldl min 4095) ++ leBytes 2 (vs.foldl max 0) ++ leBytes 4 vs.length ++
  leBytes 6 (vs.foldl (· + ·) 0) ++ leBytes 8 ((vs.map (fun v => v * v)).foldl (· + ·) 0) ++
  (List.range 16).flatMap (fun b => leBytes 2 (min 65535 (vs.filter (fun v => v / 256 == b)).length))

/-- A web line and its fraction as bytes; `v` is what stands there without a position. -/
def webBytes (p : Option Int) (v : Nat) : List Byte :=
  let u := match p with | some w => unsign 48 w | none => v
  leBytes 5 (u / 256) ++ leBytes 1 u

/-- Some row of the frame shows a line of a due strip (R279). -/
def State.seesStrip (s : State) (rs : List CamRow) : Bool :=
  rs.any (fun r => match r.pos with
    | some w => s.insp.strips.any (fun p => decide ((p.1 : Int) ≤ w / 256) && decide (w / 256 < (p.1 + p.2 : Nat)))
    | none => false)

/-- A frame of camera `c` completes: its four statistics entries (R275, R279). -/
def State.frameStats (s : State) (c : Nat) (fr : CamFrame) : State :=
  let m : Mosaic := { rows := fr.rows.map (·.pix), w := fr.width, h := fr.rows.length, cfa := s.fld (CAM_CTL_CFA c), base := s.freeCtr }
  let s1 := if m.h ≤ 1 && m.cfa != 0 then { s with freeCtr := s.freeCtr + 5 * m.w + 5 } else s
  let dy := 2 ^ s1.fld (CAM_DS_DY c)
  let nl := ceilDiv m.h dy
  let f1 := s1.draw
  let f2 := f1.2.draw
  let pos := fun (b : Nat) => meanPos ((fr.rows.drop (b * dy)).take dy)
  let known := (pos 0).isSome && (pos (nl - 1)).isSome
  let s2 := if known then s1 else f2.2
  let s3 := if s2.seesStrip fr.rows then s2.frameFlag c fr.num cfSTRIP else s2
  let flags := (((s3.cam c).frames.find? (fun f => f.num == fr.num)).getD fr).flags
  let head := leBytes 1 2 ++ leBytes 1 c ++ leBytes 2 flags ++ leBytes 4 fr.num ++ webBytes (pos 0) f1.1.toNat ++
    webBytes (pos (nl - 1)) f2.1.toNat ++ leBytes 4 fr.start.toNat ++ leBytes 2 fr.lines ++ leBytes 2 (ceilDiv m.w (2 ^ s3.fld (CAM_DS_DX c))) ++
    leBytes 2 nl ++ leBytes 2 fr.fills ++ leBytes 4 (min 0xFFFFFFFF ((s3.clk - fr.endAt) / 400))
  (List.range 3).foldl (fun s i => s.insRecord (channelBody i (s.camOut c i m).flatten) false) (s3.insRecord head false)

/-- FRAME_COMPLETE: the oldest frame of camera `c` has left the pipeline (R274). -/
def State.frameDone (s : State) (c : Nat) : State :=
  match (s.cam c).frames with
  | [] => s
  | fr :: _ =>
    if s.camOn c && fr.closed && fr.rows.all (fun r => r.raw.isNone) && decide (fr.outAt ≤ s.clk) then
      (s.frameStats c fr).modCam c (fun x =>
        let f := (x.frames.find? (fun f => f.num == fr.num)).getD fr
        { x with frames := x.frames.drop 1, done := fr.num % 65536, parts := if f.flags.testBit cfPARTIAL then fr.num :: x.parts else x.parts })
    else s

end Sys2Proof.Machine
end

