-- ==== Sys2Proof/Machine/Auth.lean ====
section
/-! DEFINITION. Physical-presence authorisation as the protected operations use it (R409 to R413). -/

namespace Sys2Proof.Machine

/-- The timer of the running window of SVC_ASTAT. -/
def tmAuth : Nat := 2

/-- States of R410. -/
def auIDLE : Nat := 0
def auWAITING : Nat := 1
def auARMED : Nat := 2

/-- Is operation `op` authorised, for port `port` where it is a rank rewrite (R411)? -/
def State.authOk (s : State) (op port : Nat) : Bool :=
  s.fld SVC_ASTAT_STATE == auARMED && s.fld SVC_ASTAT_OP == op && (op != 3 || s.fld SVC_ASTAT_PORT == port)

/-- The authorisation returns to IDLE. -/
def State.authIdle (s : State) : State :=
  (((s.setFld SVC_ASTAT_STATE auIDLE).setFld SVC_ASTAT_OP 0).setFld SVC_ASTAT_PORT 0).setFld SVC_ASTAT_REMAIN 0

/-- The authorisation is consumed (R410). -/
def State.authUse (s : State) : State := s.authIdle.setOn SVC_ASTAT_USED

/-- Writes that wait directly behind a command and belong to its core clock: of the ceiling, of the override and of any register. -/
def State.writesBehind (s : State) : List Instr :=
  s.pending.takeWhile (fun c => match c with
    | .trmCeilWrite _ _ => true
    | .overrideActive t => decide (t ≤ s.clk)
    | .overrideStandby t => decide (t ≤ s.clk)
    | .overrideOut t => decide (t ≤ s.clk)
    | .registerWrite t _ _ _ _ => decide (t ≤ s.clk)
    | _ => false)

end Sys2Proof.Machine
end

