-- ==== Sys2Proof/Machine/PowerOps.lean ====
section
/-! DEFINITION. Shared operations of supplies, power states and resets: the resume record (R361, R362), what each
reset reaches (R372, R377, R378), delayed resets (R375), and entering and leaving Smoulder (R369). -/

namespace Sys2Proof.Machine

open Sys2Proof

def State.setPower (s : State) (p : Power) : State := { s with power := p }
def State.setSvc (s : State) (v : Svc) : State := { s with svc := v }

/-! ### Retention SRAM and the resume record -/

/-- Word `k` of the retention SRAM. -/
def State.retnWord (s : State) (k : Nat) : MWord := s.tabs.retn.get (fun _ => zeroWord) k
def State.setRetn (s : State) (k : Nat) (w : MWord) : State :=
  s.setTabs { s.tabs with retn := s.tabs.retn.set (fun _ => zeroWord) k w }

/-- The LIVE bit and resume line of head `h` (R361). -/
def State.recHead (s : State) (h : Nat) : Nat :=
  if s.armed && (s.head h).live then (s.head h).prints % 2 ^ 40 + 2 ^ 40 else 0

/-- Bytes 000h to 23Fh of the resume record, for reason `why` (R361). -/
def State.recBytes (s : State) (why : Nat) : List Byte :=
  let flags := b2n s.armed + 2 * b2n s.scan + 4 * s.fld TWN_STATE_ROLE + 32 * b2n s.actMaster
  leBytes 4 0x52525A44 ++ [1#8] ++ leBytes 1 flags ++ leBytes 1 why ++ leBytes 1 (s.fld TRN_STATE_SEQ) ++
  leBytes 4 s.tb0.toNat ++ leBytes 4 s.seed.toNat ++ leBytes 4 (s.reg CRD_JOBID).toNat ++
  leBytes 4 (s.reg FIR_CPL).toNat ++ leBytes 8 (unsign 64 s.pos.h) ++ leBytes 8 (unsign 64 s.pos.t) ++
  leBytes 8 (unsign 64 (s.fir.torg / 2 ^ 24)) ++ leBytes 4 (unsign 24 s.fir.torg) ++ leBytes 5 s.fir.lorg ++
  leBytes 7 0 ++ ((List.range 64).map (fun h => leBytes 8 (s.recHead h))).flatten

/-- Write bytes into the retention SRAM from offset 0, four to a word. -/
def State.retnWrite (s : State) (bs : List Byte) : State :=
  (List.range (bs.length / 4)).foldl (fun s k =>
    s.setRetn k (MWord.clean (BitVec.ofNat 64 (leNat ((bs.drop (4 * k)).take 4))))) s

/-- The resume record with its CRC (R361). -/
def State.putRecord (s : State) (why : Nat) : State :=
  let bs := s.recBytes why
  s.retnWrite (bs ++ leBytes 4 (crc32 bs).toNat)

/-- A read of word `k` of the retention SRAM (R384). -/
def State.retnTouch (s : State) (k : Nat) : State :=
  let w := s.retnWord k
  if w.unc || w.cor then (s.eccNote memRETN 0 (4 * k) w).setRetn k (w.healed s.corrWb) else s

/-- The check of the record at a reset release (R362, R386). -/
def State.checkRecord (s : State) : State :=
  let s1 := (List.range 145).foldl (fun s k => s.retnTouch k) s
  let ws := (List.range 145).map (fun k => (s1.retnWord k).out)
  let bad := (ws.filter (fun w => w.2)).length
  let s2 := (List.range bad).foldl (fun s _ => s.ashUsed) s1
  let bs := (ws.map (fun w => leBytes 4 w.1.toNat)).flatten
  let ok := bad == 0 && leNat (bs.take 5) == 0x0152525A44 && leNat (bs.drop 576) == (crc32 (bs.take 576)).toNat
  if ok then s2.setOn PWR_STAT_RECVALID else s2

/-- The freeze of a power-fail warning, or of a reset, of an armed job (R360, R361). -/
def State.failFreeze (s : State) : State :=
  if !s.armed then s else if s.splice.active then s.refreeze else s.freeze

/-! ### What a reset reaches -/

/-- The mask of a field. -/
def fldMask (f : Fld) : Word := BitVec.ofNat 32 ((2 ^ f.width - 1) <<< f.lo)

/-- Bits of registers that a SYSTEM or SOFT reset leaves: the AON values of R417, what straps and pins show, and what
the part was made with. -/
def keptBits : List (Nat × Word) :=
  [(SYS_ID, 0xFFFFFFFF#32), (SYS_CAPS, 0xFC#32), (POS_CTL, 0xFFFFFFFF#32),
   (POS_STATE, fldMask POS_STATE_POR ||| fldMask POS_STATE_BANKED), (POS_ZMODE, 0xFFFFFFFF#32), (POS_ZVAL, 0xFFFFFFFF#32),
   (TRN_STATE, fldMask TRN_STATE_DRVRDY), (PWR_CTL, fldMask PWR_CTL_WAKEMOT), (PWR_STAT, 0x7C#32),
   (PWR_WAKECNT, 0xFFFFFFFF#32), (CLK_STAT, fldMask CLK_STAT_MODE), (RST_CAUSE, 0xFFFFFFFF#32),
   (SVC_KVER, 0xFFFFFFFF#32), (SVC_ASTAT, fldMask SVC_ASTAT_SERVICE ||| fldMask SVC_ASTAT_SEALED)]

/-- What a SOFT reset leaves besides (R372): the configuration space. -/
def softBits : List (Nat × Word) := [(HIF_CTL, fldMask HIF_CTL_BME), (PWR_STAT, fldMask PWR_STAT_D3HOT)]

/-- Put back bits `m` of register `a` as `old` has them. -/
def State.keepBits (s old : State) (a : Nat) (m : Word) : State := s.setReg a ((s.reg a &&& ~~~m) ||| (old.reg a &&& m))

/-- The trim ceiling as the OTP gives it (R348). -/
def State.loadCeil (s : State) : State :=
  (List.range 3).foldl (fun s j => s.setReg (TRM_CEIL j) (s.otp.get (fun _ => 0#32) 1 &&& 0x3FFF#32)) s

/-- The TWIN strap as sampled. -/
def State.twinPins (s : State) : Nat := s.fld SYS_CAPS_TWIN

/-- TWN_STATE as the straps set it (R316, R341). -/
def State.strapState (s : State) : Word :=
  let n := s.twinPins
  if n = 1 then 0x4001#32 else if n = 2 then 1#32 else if n = 3 then fldMask TWN_STATE_CFGDIFF else 0#32

/-- The twin logic starts anew as its strap says (R316, R317, R341). -/
def State.twinAnew (s : State) : State :=
  let s1 : State := { s with twin := { Twin.reset with deadAt := s.clk } }
  (s1.setReg TWN_STATE s.strapState).setReg TWN_CTL (if s.twinStrap then 1#32 else 0#32)

/-- The position with what a reset other than an AON power-on leaves of it (R213). -/
def Pos.kept (p : Pos) : Pos :=
  { Pos.reset with cnt := p.cnt, ab := p.ab, z := p.z, raw := p.raw, t := p.t, zacc := p.zacc, h := p.h, phase := p.phase, armed := p.armed }

/-- The tables as a reset leaves them until the SRAM fill: what waited in the logic around them is gone (R164, R388). -/
def Tables.quiet (t : Tables) : Tables :=
  { t with latch := none, latchErr := Flaw.none, merge := [], reload := [], acted := [], scan := false, results := [], mapOut := [] }

/-- The tables as a reset of Kiln and the nozzle table leaves them: the merge buffers of other memories stand. -/
def Tables.quietKln (t : Tables) : Tables := { t.quiet with merge := t.merge.set (fun _ => none) memSRAM none }

/-- The chip drives channel `n` (R353): every one on a solo chip; of a pair, those of its ports in DRIVE or TEST, the speed demand as
transport master, and the auxiliary channels that it has claimed. -/
def State.mayDrive (s : State) (n : Nat) : Bool :=
  if !s.twinStrap then true
  else if !s.awake then false
  else if n < 64 then s.fld (HPT_CTL_MODE n) % 2 == 1
  else if n = 64 then s.twin.mast && s.on TRN_CTL_MASTER
  else s.fld (TRM_AUX_OWNER (n - 65)) != 0

/-- DRIVEN of every channel follows what the chip drives. -/
def State.drivenShow (s : State) : State := (List.range 68).foldl (fun s n => s.setDriven n (s.mayDrive n)) s

/-- Slot `k` of the flash holds `bs` from now on. -/
def State.setFlash (s : State) (k : Nat) (bs : List Byte) : State := if k = 0 then { s with flashA := bs } else { s with flashB := bs }

/-- The slot that FLASHWRITE programs (R407): the one that does not run, or slot A. -/
def State.flashTarget (s : State) : Nat := if s.fld SVC_BOOTST_SLOT = 0 then 1 else 0

/-- A reset that meets a FLASHWRITE (mailbox command 4) leaves its slot invalid (R413). One during which WRSEAL_N has been low counts as having
begun to erase (DESIGN CHOICE, log entry 94). -/
def State.flashCut (s : State) : State :=
  if s.svc.cmd == some 4 && s.svc.stat == 0 && s.svc.lo then s.setFlash s.flashTarget [] else s

/-- Every trim channel goes to 0 V at once (R350, R360). -/
def State.trimsZero (s : State) : State := (List.range 68).foldl (fun s n => s.trimZero n) s

/-- A SYSTEM or SOFT reset takes effect (R372, R378): everything but the AON domain and the retention SRAM. An AON power-on release that it
falls into keeps its wait (R376). A solo chip drives its trim channels, at 0 V, from the assertion on (R378). -/
def State.wipe (s : State) (soft : Bool) : State :=
  let p : Power := { Power.reset with stepAt := s.clk, dropped := s.power.dropped || !s.cord.queue.isEmpty, soft := soft, rails := s.power.rails
                                      poweron := s.power.poweron && !s.on RST_STAT_DONE }
  let s1 : State :=
    { s with regs := [], cfg := if soft then s.cfg else [], alarms := 0#64, timers := [], times := { s.times with rem := [], frcLat := 0 }, hostIf := HostIf.reset, streams := []
             bands := [], bandSeq := 0, ubase := [], uops := [], heads := [], buses := [], headMem := [], trims := { Trims.reset with changed := s.trimsZero.trims.changed }, pos := s.pos.kept, fir := { Fir.reset with sos := s.fir.sos }
             splice := Splice.reset, cord := Cord.reset, evts := [], portQ := [], tabs := s.leaveAll.tabs.quiet, kiln := Kiln.reset, insp := Insp.reset
             refs := [], refNext := [], power := p, svc := Svc.reset }
  let s2 := (keptBits ++ (if soft then softBits else [])).foldl (fun t k => t.keepBits s k.1 k.2) s1
  let s3 := (if soft then s2.loadCeil else s2.loadCeil.loadSub).twinAnew
  if s3.twinStrap then s3 else s3.drivenShow

/-- The same, with a FLASHWRITE that it cuts short (R413). -/
def State.clearAll (s : State) (soft : Bool) : State := s.flashCut.wipe soft

/-- What the time bases and the forerunner counter count by: the AON domain goes on with it in Banked, where the registers themselves
are not read (R289, R294). -/
def timeRegs : List Nat := [TIM_CTL, TIM_INC 0, TIM_INC 1, TIM_INC 2, TIM_INC 3, TIM_FRCCTL, TIM_FRCINC, CRD_CTL, CRD_CORR]

/-- The time bases go on as they did in `old`. -/
def State.keepTime (s old : State) : State :=
  let s1 := timeRegs.foldl (fun t a => t.setReg a (old.reg a)) s
  { s1 with times := { s1.times with rem := old.times.rem } }

/-- Kindling starts: it zeroes the private SRAM of Hearth, and acts on BOOT (R388, R401). What waited in its merge buffer is gone with it. Booting from flash is its first access to it. -/
def State.bootStart (s : State) : State :=
  let b := s.fld SYS_CAPS_BOOT
  let s0 := (s.setTabs { s.tabs with hsram := [] }).setMerge memHEARTH none
  let s1 := ((s0.setReg SVC_BOOTST 3#32).setReg SVC_FWVER 0#32).setReg SVC_FWSEQ 0#32
  if b = 0 then (s1.setFld SVC_BOOTST_STATE 1).setSvc { s1.svc with qspi := true }
  else if b = 1 then s1.setFld SVC_BOOTST_STATE 4
  else ((s1.setFld SVC_BOOTST_STATE 4).setOn SVC_BOOTST_RECOVERY).setBit SVC_BOOTST_BADSTRAP (b == 3)

/-- Hearth and its registers are reset (R377). -/
def State.hearthStop (s : State) : State :=
  let s1 := (s.flashCut.resetRange 0x240000 0x250000).setSvc { Svc.reset with qspi := s.svc.qspi }
  (s1.keepBits s SVC_KVER 0xFFFFFFFF#32).keepBits s SVC_ASTAT 0xC#32

/-- Hearth and its registers are reset, and Kindling starts at once (R373, R377, R413). -/
def State.hearthReset (s : State) : State := if 4 ≤ s.fld RST_STAT_STEP then s.hearthStop.bootStart else s.hearthStop

/-- The three reaches of R372. -/
def rcHEARTH : Nat := 1
def rcSOFT : Nat := 2
def rcSYSTEM : Nat := 3

/-- The flags of the position follow the counters, which a reset leaves, and with them those of line firing (R208, R209, R213, R219, R233). -/
def State.posAnew (s : State) : State := s.hwmUpdate.voteFlags.suspShow

/-- A Hearth-only reset in Ready or Smoulder wakes the device (R367, R376); in Smoulder Hearth starts on the return. -/
def State.hearthWake (s : State) : State :=
  if s.fld PWR_STAT_STATE = 1 then (s.setFld PWR_STAT_STATE 0).hearthReset
  else if s.fld PWR_STAT_STATE = 2 then s.hearthStop.setPower { s.power with waking := true, reboot := true }
  else s.hearthReset

/-- A reset of reach `r` takes effect; one that falls into a release starts it anew for the wider of the two (R376). -/
def State.takeReset (s : State) (r : Nat) : State :=
  let rel := !s.on RST_STAT_DONE
  if r = 0 then s
  else if r = rcHEARTH ∧ !rel then s.hearthWake
  else (s.clearAll (decide (r ≤ rcSOFT) && (!rel || s.power.soft))).posAnew

/-- What delays a reset (R375), as bits of RST_STAT from OTPDLY on: an OTP pulse, and a head-memory write. -/
def State.workBits (s : State) : Nat := 2 * b2n s.svc.pulse.isSome + 4 * b2n s.svc.page

/-- A reset of reach `r` is delayed for `bits`. -/
def State.delayReset (s : State) (r bits : Nat) : State :=
  (s.setReg RST_STAT (s.reg RST_STAT ||| BitVec.ofNat 32 (16 * (bits + 1)))).setPower { s.power with delay := some r, dlyBits := 16 * (bits + 1) }

/-- A reset from the source with RST_CAUSE bit `b` and reach `r` (R361, R372, R375, R376). During a power-fail warning,
and in Banked, it only leaves its cause. -/
def State.resetBy (s : State) (b r : Nat) : State :=
  let s0 := s.setFld RST_CAUSE_CAUSE (s.fld RST_CAUSE_CAUSE ||| 2 ^ b)
  let rec_ := decide (rcSOFT ≤ r) && s.armed
  let bits := s.workBits + 8 * b2n rec_
  if s.on PWR_STAT_SAG || s.fld PWR_STAT_STATE == 3 then s0
  else match s.power.delay with
    | some q =>
      let s1 := if rec_ && !bitAt s.power.dlyBits 7 then
          (let s2 := s0.failFreeze.putRecord (0x10 + b)
           (s2.setReg RST_STAT (s2.reg RST_STAT ||| 128#32)).setPower { s2.power with dlyBits := s2.power.dlyBits ||| 128 }) else s0
      s1.setPower { s1.power with delay := some (max q r) }
    | none =>
      if bits = 0 then s0.takeReset r
      else (if rec_ then s0.failFreeze.putRecord (0x10 + b) else s0).delayReset r bits

/-! ### Ready and Smoulder -/

/-- Event pins and trim outputs are brought up to date with the power state. -/
def State.pinsShow (s : State) : State := (List.range 8).foldl (fun s n => s.evtShow n) s

/-- Every trim channel goes to 0 V at once where R24 gives 0 V; on a twin-strapped chip it is high-impedance there (R353). -/
def State.trimsOff (s : State) : State :=
  (if s.twinStrap then (List.range 68).foldl (fun s n => s.setDriven n false) s else s).trimsZero

/-- The chip's Cord links go down (R299, R312). -/
def State.cordDown (s : State) : State :=
  let down := fun (s : State) (l : Nat) (f : Fld) => if s.on f then s.cordLink l false else s
  down (down s 0 CRD_STATE_UPE) 1 CRD_STATE_UPW

/-- The clocks of the twin link stop with the PLLs: it is down, and its lanes hold no alignment (R24, R318). -/
def State.twinSleep (s : State) : State :=
  if !s.twinStrap then s
  else
    let s1 := (s.setFld TWN_LINKST_LANES 0).linkDown
    s1.setTwin { s1.twin with lanesOk := false }

/-- The heartbeat is looked at again from now on: silence before the return counts for nothing (R320). -/
def State.twinWake (s : State) : State :=
  s.setTwin { s.twin with deadAt := s.clk, ivals := [], edge := if s.fld TWN_STATE_PALIVE = 0 then none else some s.clk }

/-- Entry into Smoulder (R312, R369), which no armed job meets. -/
def State.toSmoulder (s : State) : State :=
  if s.armed || !s.awake then s
  else
    let s1 := (s.trimsOff.schedDrop.cordDown.twinSleep.setFld CLK_STAT_PLLLOCK 0).setFld CLK_STAT_DRAMLOCK 0
    ((s1.camsQuiet.setFld PWR_STAT_STATE 2).setPower { s1.power with waking := false, wakeT := s1.pos.t }).pinsShow

/-- Something wakes the device from Ready or Smoulder: source bit `k` of PWR_WAKESRC (R367, R370). -/
def State.wake (s : State) (k : Nat) : State :=
  if s.fld PWR_STAT_STATE = 1 then (s.setFld PWR_STAT_STATE 0).setFld PWR_WAKESRC_SRC (2 ^ k)
  else if s.fld PWR_STAT_STATE = 2 ∧ !s.power.waking then
    (s.setFld PWR_WAKESRC_SRC (2 ^ k)).setPower { s.power with waking := true }
  else s

/-- The return from Smoulder is complete (R350, R369): polling resumes with a poll that treats GEN as changed, and
every output slews from 0. The interval list is discarded with INVALID set (R217). -/
def State.woken (s : State) : State :=
  if s.fld PWR_STAT_STATE = 2 ∧ s.power.waking then
    let s1 := ((s.setFld PWR_STAT_STATE 0).setOn CLK_STAT_PLLLOCK).setOn CLK_STAT_DRAMLOCK
    let s1 := if s1.power.reboot then s1.bootStart else s1
    let s2 := s1.setPower { s1.power with waking := false, reboot := false }
    let s3 := s2.setHif { s2.hostIf with polledOn := false, pollOld := s2.hostIf.sumOut || s2.hostIf.prodOut, nextPoll := s2.clk, statEnd := s2.clk + usClk (s2.fld HIF_STATPER_PER)
                                         statLen := usClk (s2.fld HIF_STATPER_PER) }
    (((List.range 68).foldl (fun s n => s.startTimer (tmTrim n)) s3.drivenShow).dropList false).pinsShow.twinWake
  else s

/-- A job ends; a device in D3hot then enters Smoulder (R62, R371). -/
def State.jobOver (s : State) : State := if s.on PWR_STAT_D3HOT then s.jobEnd.toSmoulder else s.jobEnd

/-! ### The release (R373) -/

/-- Have `n` AON clocks passed since the event that the gap counts from? -/
def State.gapOver (s : State) (n : Nat) : Bool := decide (s.power.stepAt + 25 * n ≤ s.clk)

/-- Step `q` begins; `ended` when it ends at once, or when the next step counts from its beginning. -/
def State.beginStep (s : State) (q : Nat) (ended : Bool) : State :=
  (s.setFld RST_STAT_STEP q).setPower { s.power with stepAt := s.clk, ended := ended }

/-- The step last begun ends now. -/
def State.endStep (s : State) : State := s.setPower { s.power with stepAt := s.clk, ended := true }

/-- Step 2 samples the straps (R363, R374): BOOT, CLKMODE and TWIN from bit 0 on. -/
def State.sampleStraps (s : State) (straps : Nat) : State :=
  let s1 := (s.setReg SYS_CAPS (putBits (s.reg SYS_CAPS) 2 6 straps)).setFld CLK_STAT_MODE (bitsOf straps 2 2)
  let s2 := s1.twinAnew
  if s2.twinStrap then (List.range 68).foldl (fun s n => s.setDriven n false) s2 else s2.drivenShow

/-- Step 7 has ended: the record is checked and the outputs take their first state (R312, R362, R378). A device that is still in D3hot, where
no job is armed now, enters Smoulder (R371). PWR_CTL.REQ goes back to 00b (R418). -/
def State.released (s : State) : State :=
  let s1 := (s.setOn RST_STAT_DONE).checkRecord
  let s2 := s1.setHif { s1.hostIf with nextPoll := s1.clk, statEnd := s1.clk + usClk (s1.fld HIF_STATPER_PER)
                                       statLen := usClk (s1.fld HIF_STATPER_PER) }
  let s3 := if s2.power.dropped then ((s2.setOn CRD_SCHEDST_DROPPED).alarm alCORD).setPower { s2.power with dropped := false } else s2
  let s4 := if s3.twinStrap then s3 else s3.drivenShow.busMastery true
  let s5 := ((List.range 64).foldl (fun s h => s.startTimer (tmTemp h)) s4).trnShow
  let s6 := (s5.setPower { s5.power with poweron := false }).setFld PWR_CTL_REQ 0
  if s6.on PWR_STAT_D3HOT then s6.toSmoulder else s6

/-- The load of the trim corrections from OTP begins (R351, R373). -/
def State.trimLoad (s : State) : State := { s with trims := { s.trims with load := true } }

/-- The next step of the release, when its gap has passed (R373, R376). Step 1 holds until every rail has passed 90 % of nominal (R427). -/
def State.releaseStep (s0 : State) (pins : ReleasePins) : State :=
  let s := s0.setPower { s0.power with rails := s0.power.rails || pins.rails }
  let q := s.fld RST_STAT_STEP
  if s.on RST_STAT_DONE || s.on PWR_STAT_SAG || s.fld PWR_STAT_STATE == 3 || !s.power.ended then s
  else if q = 0 then (if !s.power.poweron || s.gapOver 1600 then s.beginStep 1 true else s)
  else if q = 1 then (if s.power.rails && s.gapOver 16 then (s.beginStep 2 false).sampleStraps pins.straps.toNat else s)
  else if !s.gapOver 32 then s
  else if q = 2 then (s.beginStep 3 false).trimLoad
  else if q = 3 then (s.beginStep 4 true).bootStart
  else if q = 4 then s.beginStep 5 true
  else if q = 5 then s.beginStep 6 true
  else (s.beginStep 7 true).released

/-- The SRAM hardware fill (R388). -/
def Tables.filled (t : Tables) : Tables :=
  { Tables.reset with store := t.store, lat := t.lat, stale := t.stale, retn := t.retn, hsram := t.hsram }

/-! ### RST_BLKRST (R377) -/

/-- The host interface (R377). -/
def State.blkHif (s : State) : State :=
  ((s.resetRange 0x10000 0x20000).keepBits s HIF_CTL (fldMask HIF_CTL_BME)).setHif
    { HostIf.reset with nextPoll := s.clk, statEnd := s.clk + usClk 100, statLen := usClk 100 }

/-- The unit tree: head channels follow UNT_EFFTRIM to its reset value (R343). -/
def State.blkUnt (s : State) : State :=
  let s1 : State := { s.resetRange 0x30000 0x40000 with ubase := [], uops := [] }
  (List.range 64).foldl (fun s h => s.setWant h ((s.reg (UNT_EFFTRIM h)).toNat : Int)) s1

/-- Kiln and the nozzle table; their memories stand. -/
def State.blkKln (s : State) : State :=
  let s1 := (s.resetRange 0x40000 0x80000).resetRange 0x3F0000 0x400000
  let s2 : State := { s1 with portQ := [], kiln := Kiln.reset, tabs := s1.tabs.quietKln, hostIf := { s1.hostIf with xrange := 0 } }
  ((List.range 64).foldl (fun s h => s.modHead h (fun x => { x with stag := [], sels := [] })) s2).goldTasks

/-- The swath store. SWS_CAP keeps what the DRAM training has found: R103 has it follow SYS_CAPS.STORE, which no block reset changes (DEDUCED,
log entry 22). -/
def State.blkSws (s : State) : State :=
  ({ (s.leaveAll.resetRange 0x180000 0x190000).keepBits s SWS_CAP 0xFFFFFFFF#32 with bands := [], refs := [], refNext := [] } : State).setMerge 1 none

/-- The head ports: every port is OFF, and no trim channel of a port of a pair is driven (R353). The buses keep their master (R194), and
TRIM-RAMPs, which belong to the trim channels, run on (R39). -/
def State.blkHpt (s : State) : State :=
  let s0 : State := { s.resetRange 0x190000 0x1A0000 with heads := [], buses := [] }
  let s1 := (List.range 64).foldl (fun t h => t.modHead h (fun x => { x with ramps := (s.head h).ramps })) s0
  let s2 := (List.range 8).foldl (fun t b => t.keepBits s (HPT_BUSST b) 1#32) s1
  if s2.twinStrap then (List.range 64).foldl (fun s h => s.setDriven h false) s2 else s2

/-- The position: AON values stand (R213). -/
def State.blkPos (s : State) : State :=
  let s1 := s.resetRange 0x1A0000 0x1B0000
  let s2 := (keptBits.filter (fun b => decide (0x1A0000 ≤ b.1) && decide (b.1 < 0x1B0000))).foldl (fun t b => t.keepBits s b.1 b.2) s1
  (s2.setPos s2.pos.kept).posAnew

/-- Line firing; its suspension follows the position (R233). -/
def State.blkFir (s : State) : State :=
  ((s.resetRange 0x1B0000 0x1C0000).setFir { Fir.reset with sos := s.fir.sos }).suspShow

/-- Transport. -/
def State.blkTrn (s : State) : State :=
  (((s.resetRange 0x1C0000 0x1D0000).keepBits s TRN_STATE (fldMask TRN_STATE_DRVRDY)).setSplice Splice.reset).trnShow

/-- Time and event outputs; the time bases stand (R289). -/
def State.blkTim (s : State) : State :=
  ({ s.resetRange 0x1E0000 0x1F0000 with times := { s.times with rem := [], frcLat := 0 }, evts := [] } : State).pinsShow

/-- The Cord ring; queued actions are dropped (R312). -/
def State.blkCrd (s : State) : State :=
  let s1 : State := { s.resetRange 0x1F0000 0x200000 with cord := Cord.reset }
  if s.cord.queue.isEmpty then s1 else (s1.setOn CRD_SCHEDST_DROPPED).alarm alCORD

/-- The twin logic: its drivers go off. -/
def State.blkTwn (s : State) : State :=
  let s1 := (s.resetRange 0x200000 0x210000).twinAnew
  if s.twinStrap then (((s1.allPorts 0).busMastery false).setDriven 64 false).trnShow else s1

/-- The trim converters: every output goes to 0 V, what drives a channel drives it still, targets follow their sources once the corrections,
whose load starts anew, are there (R343, R351 to R353). -/
def State.blkTrm (s : State) : State :=
  let s0 := s.trimsZero
  let s1 : State := { s0.resetRange 0x210000 0x220000 with trims := { Trims.reset with changed := s0.trims.changed, load := true } }
  let s2 := (List.range 64).foldl (fun s h => s.setWant h ((s.reg (UNT_EFFTRIM h)).toNat : Int)) s1.loadCeil
  s2.retargetAll.drivenShow.trnShow

/-- Block `k` returns to its reset values; AON values stand, and no memory is filled. -/
def State.blockReset (s : State) (k : Nat) : State :=
  if k = 0 then s.blkHif
  else if k = 1 then { s.resetRange 0x20000 0x30000 with streams := [] }
  else if k = 2 then s.blkUnt
  else if k = 3 then s.blkKln
  else if k = 4 then s.blkSws
  else if k = 5 then s.blkHpt
  else if k = 6 then s.blkPos
  else if k = 7 then s.blkFir
  else if k = 8 then s.blkTrn
  else if k = 9 then (s.resetRange 0x1D0000 0x1D1000).insAnew
  else if k = 10 then (s.camOff 0).resetRange 0x1D1000 0x1D1200
  else if k = 11 then (s.camOff 1).resetRange 0x1D1200 0x1D1400
  else if k = 12 then s.blkTim
  else if k = 13 then s.blkCrd
  else if k = 14 then s.blkTwn
  else if k = 15 then s.blkTrm
  else if k = 16 then s.resetRange 0x230000 0x240000
  else if k = 17 then s.hearthWake
  else s

/-- The block resets of the bits of `m` take effect (R377): their bits stand until time goes on (log entry 2). The votes are looked at again
(R391). -/
def State.blockResets (s : State) (m : Word) : State :=
  let s1 := (List.range 18).foldl (fun s k => if m.getLsbD k then s.blockReset k else s) s
  (s1.setReg RST_BLKRST (s1.reg RST_BLKRST ||| m)).tripAll

/-- A write `v` of RST_BLKRST (R375, R377): an OTP pulse or a head-memory write that runs delays it, and during a power-fail warning it has no
effect (R360, R376). -/
def State.blkRst (s : State) (v : Word) : State :=
  let m := v &&& 0x3FFFF#32
  if s.on PWR_STAT_SAG then s
  else if s.armed && (m &&& 0x1F1FF#32) != 0#32 then s.refuse erARMED RST_BLKRST
  else if m = 0#32 then s
  else if s.power.delay.isSome then s.setPower { s.power with blocks := s.power.blocks ||| m }
  else if s.workBits = 0 then s.blockResets m
  else (s.setPower { s.power with blocks := m }).delayReset 0 s.workBits

/-- What delayed a reset is over: bits that the OTP pulse has programmed stand, and a rank record cut short fails its CRC (R375). -/
def State.endDelay (s : State) : State :=
  match s.power.delay with
  | none => s
  | some r =>
    let s1 : State := match s.svc.pulse with
      | some (k, v) => { s with otp := s.otp.set (fun _ => 0#32) k (s.otp.get (fun _ => 0#32) k ||| v) }
      | none => s
    let s1 := if s.svc.page then s1.setFld (HPT_HSTAT_RANKOK (s.reqField 0 1)) 0 else s1
    let bits := s.power.dlyBits
    let m := s.power.blocks
    let s2 := (s1.setPower { s1.power with delay := none, blocks := 0#32, dlyBits := 0 }).takeReset r
    let s3 := if rcSOFT ≤ r ∨ m = 0#32 then s2 else s2.blockResets m
    s3.setReg RST_STAT (s3.reg RST_STAT ||| BitVec.ofNat 32 bits)

end Sys2Proof.Machine
end

