-- ==== Sys2Proof/Machine/PowerRows.lean ====
section
/-! DEFINITION. Supplies, clocks, power states and resets (R310, R357 to R382). VBACK's level, the straps and what a
supply or a lock brings arrive as operands. -/

namespace Sys2Proof.Machine

open Sys2Proof

/-! ### Supplies (R357 to R360) -/

/-- The power-fail warning (R360, R376, R427): VMAIN crosses 3.05 V, or a rail falls while VMAIN stays good. -/
def State.powerFail (s : State) (rail vback : Bool) : State :=
  if s.fld PWR_STAT_STATE = 3 then s
  else
    let s1 := (((s.setOn PWR_STAT_PFW).setOn PWR_STAT_SAG).setBit PWR_STAT_VMAINOK rail).setBit PWR_STAT_VBACKOK vback
    let s2 := (s1.alarm alPWRWARN).failFreeze
    let s3 : State := { s2 with trims := { s2.trims with cut := true } }
    let s4 := (s3.retargetAll).trimsZero.trnShow
    (s4.setPower { s4.power with delay := none, blocks := 0#32, dlyBits := 0, railLow := s4.power.railLow || rail }).putRecord 1

def execPowerFailWarning (t : Nat) (rail vback : Bool) (s : State) : Out := .next ((s.advance t).powerFail rail vback)

/-- The changeover to VBACK (R24, R213, R312, R357, R413): the device enters Banked and everything but the AON domain is
off; POS_SPEED holds its last value inside Banked (R218). A BANKCH that was not enabled takes the voted count as a channel that becomes enabled does (R204; DEDUCED, log entry 56). -/
def State.changeover (s : State) (vback : Bool) : State :=
  if s.fld PWR_STAT_STATE = 3 then s
  else
    let b := s.fld POS_CTL_BANKCH
    let s0 := if s.chanOn b then s else s.setPos { s.pos with cnt := s.pos.cnt.set (fun _ => 0) b s.vote }
    let s1 := ((s0.clearAll false).keepTime s).setReg POS_SPEED (s.reg POS_SPEED)
    let s2 : State := { s1 with tabs := s1.storeFill.tabs.filled, power := { s1.power with rails := false } }
    let s3 := (((s2.setFld PWR_STAT_STATE 3).setFld PWR_STAT_VMAINOK 0).setBit PWR_STAT_VBACKOK vback).setOn PWR_STAT_BANKED
    let s4 := ((s3.setOn POS_STATE_BANKED).setReg SVC_BOOTST 3#32).pinsShow
    (s4.posJump s4.vote).voteFlags

def execChangeover (t : Nat) (vback : Bool) (s : State) : Out := .next ((s.advance t).changeover vback)

/-- On the return from Banked every other enabled channel takes the counter of BANKCH, and with it the vote; each Z takes the level that its
pin shows (R213, R214). -/
def State.bankReturn (s : State) : State :=
  let b := s.pos.chan (s.fld POS_CTL_BANKCH)
  let s1 := s.setPos { s.pos with
    cnt := (s.chans).foldl (fun m c => m.set (fun _ => 0) c b) s.pos.cnt
    z := (List.range 3).foldl (fun m c => m.set (fun _ => 1) c (s.pos.rawOf c / 4)) s.pos.z }
  (s1.posJump s1.vote).voteFlags.indexArm

/-- VMAIN has been good for 1 ms (R360): Banked, or a brownout, ends in a VMAINPOR reset; a warning that a rail raised ends once that rail has
recovered as well (R427). -/
def State.vmainGood (s0 : State) (v : Supplies) : State :=
  let s := s0.setPower { s0.power with railLow := s0.power.railLow && !v.rails }
  let s1 := (s.setOn PWR_STAT_VMAINOK).setBit PWR_STAT_VBACKOK v.vback
  if s.fld PWR_STAT_STATE = 3 then ((s1.setFld PWR_STAT_STATE 0).bankReturn).resetBy 1 rcSYSTEM
  else if s.on PWR_STAT_SAG && !s.power.railLow then ((s1.setFld PWR_STAT_SAG 0).setOn PWR_STAT_BROWNOUT).resetBy 1 rcSYSTEM
  else s1

def execVmainGood (t : Nat) (vback : Supplies) (s : State) : Out := .next ((s.advance t).vmainGood vback)

/-- An AON power-on (R213, R289, R359): everything takes its reset value. What the model carries beside the machine
stays: the waiting commands, the clock, the free values, what has been sent, the OTP, the flash and the levels of the pins. -/
def State.aonPor (s : State) (vback : Bool) : State :=
  let s1 : State :=
    { State.reset with pending := s.pending, clk := s.clk, freeCtr := s.freeCtr, readData := s.readData, readEP := s.readEP, out := s.out
                       sent := s.sent, flashA := s.flashCut.flashA, flashB := s.flashCut.flashB, otp := s.otp, serial := s.serial, pos := { Pos.reset with ab := s.pos.ab, z := s.pos.z, raw := s.pos.raw, phase := s.pos.phase }
                       fir := { Fir.reset with sos := s.fir.sos }
                       power := { Power.reset with stepAt := s.clk } }
  let pins : List (Nat × Word) :=
    [(SYS_ID, 0xFFFFFFFF#32), (TRN_STATE, fldMask TRN_STATE_DRVRDY), (SVC_KVER, 0xFFFFFFFF#32),
     (SVC_ASTAT, fldMask SVC_ASTAT_SERVICE ||| fldMask SVC_ASTAT_SEALED)]
  ((pins.foldl (fun t k => t.keepBits s k.1 k.2) s1).loadCeil.loadSub).setBit PWR_STAT_VBACKOK vback

/-- AONPOR (R359). -/
def execAonpor (t : Nat) (vback : Bool) (s : State) : Out := .next ((s.advance t).aonPor vback)

/-! ### Power states (R367 to R371) -/

/-- A write `v` of PWR_CTL (R5, R367): a request of Ready or Smoulder while a job is armed is refused. -/
def State.pwrCtl (s : State) (v : Word) : State :=
  let q := bitsOf v.toNat 0 2
  let s1 := s.setBit PWR_CTL_WAKEMOT (bitAt v.toNat 2)
  if q = 3 then s1
  else if q ≠ 0 ∧ s.armed then s1.refuse erARMED PWR_CTL
  else
    let s2 := s1.setFld PWR_CTL_REQ q
    if !s2.on RST_STAT_DONE then s2
    else if q = 0 then s2.wake 0
    else if q = 1 then (if s2.fld PWR_STAT_STATE = 0 then s2.camsQuiet.setFld PWR_STAT_STATE 1 else s2)
    else s2.toSmoulder

/-- A write reaches a register of the AON block where BAR0 serves it. -/
def State.aonBar (s : State) (f : State → State) : State := if s.aonOk then f s else s

def execPwrReqRun (t : Nat) (v : BitVec 32) (s : State) : Out := .next ((s.advance t).aonBar (fun s => s.pwrCtl v))
def execPwrReqReady (t : Nat) (v : BitVec 32) (s : State) : Out := .next ((s.advance t).aonBar (fun s => s.pwrCtl v))
def execPwrReqSmoulder (t : Nat) (v : BitVec 32) (s : State) : Out := .next ((s.advance t).aonBar (fun s => s.pwrCtl v))

/-- MOTION_WAKE (R370). -/
def State.motionWake (s : State) : State :=
  if s.on PWR_CTL_WAKEMOT && decide (s.fld PWR_WAKECNT_COUNTS ≤ (diff48 s.pos.t s.power.wakeT).natAbs) && s.fld PWR_STAT_STATE == 2
  then s.wake 1 else s

def execMotionWake (t : Nat) (s : State) : Out := .next ((s.advance t).motionWake)

/-- SERVICE_N_PRESS (R370, R410, R412, R434): the service pins change. Their levels show in SVC_ASTAT, and a FLASHWRITE that runs meets
WRSEAL_N. A press, SERVICE_N low for 10 ms, wakes from Smoulder, and it arms an authorisation that waits. -/
def State.servicePress (s : State) (p : ServicePins) : State :=
  let s0 := ((s.setBit SVC_ASTAT_SERVICE p.low).setBit SVC_ASTAT_SEALED p.wrseal).setSvc
    { s.svc with hi := s.svc.hi || p.wrseal, lo := s.svc.lo || !p.wrseal }
  if s.fld PWR_STAT_STATE = 3 || !(p.low && p.press) then s0
  else
    let s1 := if s0.fld PWR_STAT_STATE = 2 then s0.wake 2 else s0
    if s1.fld SVC_ASTAT_STATE = auWAITING ∧ s1.clk ≤ s1.timers.get (fun _ => 0) tmAuth + usClk 30000000 then
      ((s1.setFld SVC_ASTAT_STATE auARMED).setFld SVC_ASTAT_REMAIN 60).startTimer tmAuth
    else s1

def execServiceNPress (p : ServicePins) (s : State) : Out := .next ((s.advance p.t).servicePress p)

/-- D3HOT (R371): no memory request is issued, and without a job the device enters Smoulder. It is a configuration write, which is retried
before step 6 of the release (R373). -/
def State.d3hot (s : State) : State :=
  if !s.aonOk then s
  else
    let s1 := s.setOn PWR_STAT_D3HOT
    ((List.range 128).foldl (fun s st => s.holdState st) s1).toSmoulder

def execD3hot (t : Nat) (s : State) : Out := .next ((s.advance t).d3hot)

/-- D0_RETURN (R371). -/
def State.d0Return (s : State) : State :=
  if !s.on PWR_STAT_D3HOT || !s.aonOk then s
  else
    let s1 := s.setFld PWR_STAT_D3HOT 0
    let s2 := if s1.awake then s1.pollResume.flushHost else s1.wake 3
    (List.range 128).foldl (fun s st => s.holdState st) s2

def execD0Return (t : Nat) (s : State) : Out := .next ((s.advance t).d0Return)

/-- SMOULDER_RETURN_COMPLETE (R350, R369). -/
def execSmoulderReturnComplete (t : Nat) (s : State) : Out :=
  let s1 := (s.advance t).woken
  .next ((List.range 128).foldl (fun s st => s.holdState st) s1.flushHost)

/-! ### Clocks (R365, R366) -/

/-- REFLOSS (R365). -/
def execRefloss (t : Nat) (s : State) : Out :=
  let s1 := s.advance t
  .next (if s1.awake && s1.on CLK_STAT_PLLLOCK then (s1.setOn CLK_STAT_REFLOSS).countReg CLK_LOSSCNT 1 else s1)

/-- AON_TRIM (R366): the oscillator is trimmed by `ppm`. -/
def execAonTrim (t : Nat) (ppm : BitVec 16) (s : State) : Out :=
  let s1 := s.advance t
  .next (if s1.awake && s1.on CLK_STAT_PLLLOCK && s1.fld CLK_STAT_MODE != 3 then s1.setFld CLK_STAT_AONPPM ppm.toNat else s1)

/-! ### Reset sources (R372) -/

def execPerst (t : Nat) (s : State) : Out := .next ((s.advance t).resetBy 2 rcSYSTEM)
def execHotrst (t : Nat) (s : State) : Out := .next ((s.advance t).resetBy 3 rcSYSTEM)
def execResetn (t : Nat) (s : State) : Out := .next ((s.advance t).resetBy 4 rcSYSTEM)

/-- WDOG (R372): the watchdog expires. -/
def State.wdog (s : State) : State :=
  if s.on RST_WDCFG_EN then s.resetBy 5 (if s.on RST_WDCFG_FULL then rcSYSTEM else rcHEARTH) else s

def execWdog (t : Nat) (s : State) : Out := .next ((s.advance t).wdog)

/-- SYS_RESET (R379): a write `v` of SYS_RESET. -/
def State.sysResetWrite (s : State) (v : Word) : State :=
  if bitsOf v.toNat 24 8 = 0x5A ∧ bitAt v.toNat 0 ∧ s.on RST_STAT_DONE ∧ s.awake then s.resetBy 8 rcSOFT else s

def execSysReset (t : Nat) (v : BitVec 32) (s : State) : Out := .next ((s.advance t).sysResetWrite v)

/-- RESET_DELAY_END (R375). -/
def execResetDelayEnd (t : Nat) (s : State) : Out := .next (s.advance t).endDelay

/-- RST_BLKRST (R377). -/
def execRstBlkrst (t : Nat) (v : BitVec 32) (s : State) : Out := .next ((s.advance t).aonBar (fun s => s.blkRst v))

/-- SCHEDULED_ACTION_DUE (R310): every queued action whose time is due, snapshots before resets. -/
def State.schedDue (s : State) : State :=
  let due := s.cord.queue.filter (fun a => timeDue a.2 s.tb0)
  let s1 := if due.isEmpty then s else s.setCord { s.cord with queue := s.cord.queue.filter (fun a => !timeDue a.2 s.tb0) }
  let s2 := if due.any (fun a => a.1 == 0) then (s1.posSnap 1).timSnap 1 else s1
  if due.any (fun a => a.1 == 1) then s2.resetBy 7 rcSYSTEM else s2

def execScheduledActionDue (t : Nat) (s : State) : Out := .next (s.advance t).schedDue

/-! ### The release (R373) -/

/-- RESET_RELEASE_STEP (R373, R374): `straps` are BOOT, CLKMODE and TWIN as step 2 samples them. -/
def execResetReleaseStep (t : Nat) (straps : ReleasePins) (s : State) : Out := .next ((s.advance t).releaseStep straps)

/-- PLL_LOCK (R373): the PLLs lock, or 1,600 AON clocks have passed without. CLKMODE 11b never gets beyond step 2
(R363). -/
def State.pllLock (s : State) (ok : Bool) : State :=
  if s.fld RST_STAT_STEP != 2 || s.power.ended || s.on PWR_STAT_SAG || s.fld CLK_STAT_MODE == 3 then s
  else if ok then ((s.setOn CLK_STAT_PLLLOCK).setOn CLK_STAT_DRAMLOCK).endStep
  else if s.gapOver 1600 then (s.setOn CLK_STAT_NOLOCK).beginStep 2 false else s

def execPllLock (t : Nat) (ok : Bool) (s : State) : Out := .next ((s.advance t).pllLock ok)

/-- SRAM_FILL_DONE (R373, R388): 65,536 core clocks of fill are over. -/
def State.sramFill (s : State) : State :=
  if s.fld RST_STAT_STEP != 3 || s.power.ended || s.on PWR_STAT_SAG || decide (s.clk < s.power.stepAt + 65536) then s
  else ({ s with tabs := s.tabs.filled } : State).endStep

def execSramFillDone (t : Nat) (s : State) : Out := .next (s.advance t).sramFill

/-- DRAM_TRAINING_DONE (R26, R103, R373): the store size found, 0 for none; its fill starts. -/
def State.dramTrained (s : State) (store : Nat) : State :=
  if decide (s.fld RST_STAT_STEP < 5) || s.power.trained || s.on PWR_STAT_SAG || !s.awake then s
  else
    let s1 : State := { s.storeFill with power := { s.power with trained := true } }
    (s1.setFld SYS_CAPS_STORE store).setFld SWS_CAP_USABLE (7168 * store)

def execDramTrainingDone (t : Nat) (store : Fin 3) (s : State) : Out := .next ((s.advance t).dramTrained store)

/-- DRAMOK (R26): the store fill is complete. Where no store is found there is nothing to fill, and DRAMOK stays 0b (DESIGN CHOICE, log
entry 22). -/
def execDramok (t : Nat) (s : State) : Out :=
  let s1 := s.advance t
  .next (if s1.power.trained && s1.fld SYS_CAPS_STORE != 0 && !s1.on PWR_STAT_SAG && s1.awake then s1.setOn SYS_CAPS_DRAMOK else s1)

end Sys2Proof.Machine
end

