-- ==== Sys2Proof/Machine/TwinRows.lean ====
section
/-! DEFINITION. The twin commands: the link and its frames (R318, R319), the heartbeat (R320), roles and takeovers (R317,
R321, R322, R335 to R337), agreements (R326, R327), comparison (R328 to R333), the return (R340), joining (R339), the
configuration digest (R324) and the overrides (R342). -/

namespace Sys2Proof.Machine

open Sys2Proof

/-! ### Role changes -/

/-- Enter ACTIVE with every trained port to be driven, the mastership of the pair, and the buses at their next idle (R317, R325, R336). -/
def State.activate (s : State) : State :=
  let s1 := (s.setFld TWN_STATE_ROLE roACTIVE).setTwin { s.twin with
    mast := true, take := false, wait_ := false, swap := false, failed := false, released := 0, ret := none, handAt := s.clk - 16 }
  let s2 := (List.range 64).foldl (fun s h =>
    if s.on (HPT_HSTAT_TRAINED h) then s.modHead h (fun x => { x with mode := some 1, modeTw := true }) else s) s1
  (s2.busTake.setDriven 64 (s2.on TRN_CTL_MASTER)).trnShow

/-- Enter STANDBY: drivers off, every port in MONITOR (R317). -/
def State.standBy (s : State) : State :=
  let s1 := ((s.allPorts 2).busMastery false).setFld TWN_STATE_ROLE roSTANDBY
  let s2 := s1.setTwin { s1.twin with mast := false, take := false, ret := none, released := 0 }
  (s2.setDriven 64 false).trnShow

/-- PRIMED of the HELLO (R319): in PRIME, with the bring-up done and every port OFF. -/
def State.primed (s : State) : Bool :=
  s.role == roPRIME && s.twin.done && (List.range 64).all (fun h => s.fld (HPT_CTL_MODE h) == 0)

/-- The partner has read DEAD for CONFIRM with no HELLO in that time (R317, R335). -/
def State.partnerGone (s : State) : Bool :=
  let w := usClk s.polCONFIRM
  s.fld TWN_STATE_PALIVE == 0 && decide (s.twin.deadAt + w ≤ s.clk) &&
  (match s.twin.helloAt with | some t => decide (t + w ≤ s.clk) | none => true)

/-- A chip in PRIME masters the buses for the bring-up of the pair: the preferred one, or one whose partner reads DEAD (R194, R325). -/
def State.primeMaster (s : State) : Bool :=
  !s.on (HPT_BUSST_MASTER 0) && (s.partnerGone || s.preferred && s.fld TWN_STATE_PROLE != roACTIVE)

/-- Out of PRIME (R317, R322 and the bring-up in a pair): to STANDBY beside an ACTIVE partner, to ACTIVE once both chips are
done, or alone. -/
def State.primeStep (s : State) : State :=
  if s.role != roPRIME then s
  else if s.partnerGone then (let s1 := if s.primeMaster then s.busMastery true else s
                              if s1.primed then s1.activate else s1)
  else if s.on TWN_STATE_STRAPDUP then (List.range 64).foldl (fun s h =>
    if s.fld (HPT_CTL_MODE h) = 0 then s.modHead h (fun x => { x with mode := none }) else s.portTo h 0) s
  else if s.fld TWN_STATE_PROLE == roACTIVE then s.standBy
  else
    let s1 := if s.primeMaster then s.busMastery true else s
    if s1.preferred && s1.primed && s1.twin.pprimed && s1.fld TWN_STATE_PROLE == roPRIME then s1.activate else s1

/-- The drivers of every live port are off on the other chip, and its heartbeat says so. -/
def State.handedOver (s : State) : Bool := (s.liveMask &&& s.twin.released) == s.liveMask && !s.partnerDrives

/-- Case 1 of R335, and the hand-over at ARM (R340). -/
def State.takeCheck (s : State) : State :=
  if s.role != roSTANDBY || !s.handedOver then s
  else if s.twin.swap then s.activate
  else if s.twin.wait_ then s.setTwin { s.twin with take := true } else s

/-! ### The link -/

/-- The link comes up once both lanes hold, and after a down HELLO frames have passed both ways (R318). -/
def State.linkTry (s : State) : State :=
  if s.on TWN_LINKST_UP || !s.twin.lanesOk || !(s.twin.unbroken || s.twin.helloTx && s.twin.helloRx) then s
  else
    let s2 := (s.setOn TWN_LINKST_UP).setOn TWN_STATE_LINK
    if s2.role = roINIT ∧ s2.twin.helloAt.isSome then s2.setFld TWN_STATE_ROLE roPRIME else s2

/-- TWIN_LINK_CHANGE (R318): the alignment of the lanes, whether each sees a valid character every 1 µs, and the round trip. -/
def State.linkChange (s : State) (up : Bool) (lanes rtt : Nat) : State :=
  if !s.twinOn then s
  else
    let s1 := (s.setFld TWN_LINKST_LANES lanes).setFld TWN_LINKST_RTT rtt
    let ok := up && lanes == 3
    let s2 := s1.setTwin { s1.twin with lanesOk := ok }
    if ok then s2.linkTry else s2.linkDown

def execTwinLinkChange (t : Nat) (up : Bool) (lanes : BitVec 2) (rtt : BitVec 16) (s : State) : Out :=
  .next ((s.advance t).linkChange up lanes.toNat rtt.toNat).readyShow

/-- TWIN_FRAME_DROPPED (R318). -/
def execTwinFrameDropped (s : State) : Out := .next (if s.twinOn then s.countReg TWN_CRCERR 1 else s)

/-- TWIN_FRAME_RESEND (R319): the oldest frame that is due; the ninth time the link is taken as down. -/
def State.resend (s : State) : State :=
  match s.twin.unacked.find? (fun u => decide (u.at_ + usClk 2 ≤ s.clk)) with
  | some u =>
    if 8 ≤ u.tries then s.linkDown
    else
      let s1 := (s.twinPut u.seq u.frame.kind u.frame.body).countReg TWN_RESEND 1
      s1.setTwin { s1.twin with unacked := s1.twin.unacked.map (fun v =>
        if v.seq = u.seq then { v with at_ := s1.clk, tries := v.tries + 1 } else v) }
  | none => s

def execTwinFrameResend (t : Nat) (s : State) : Out := .next (s.advance t).resend.readyShow

/-- Frames up to the one acknowledged are done with. -/
def ackUpTo (ack : Nat) (l : List Unacked) : List Unacked :=
  if l.any (fun u => u.seq == ack) then (l.dropWhile (fun u => u.seq != ack)).drop 1 else l

/-- A frame of the link brings the last sequence number that the partner has received: frames up to it are done with (R318, R319). -/
def State.ackIn (s : State) (ack : Nat) : State := s.setTwin { s.twin with unacked := ackUpTo ack s.twin.unacked }

/-- An acknowledged frame comes in: one that has come before brings its acknowledgement and no more (R319). -/
def State.recv (s : State) (h : LinkHdr) (f : State → State) : State :=
  if !s.twinOn || !s.on TWN_LINKST_UP then s
  else
    let s1 := s.ackIn h.ack.toNat
    if s1.twin.seqIn = h.seq.toNat then s1 else (f (s1.setTwin { s1.twin with seqIn := h.seq.toNat })).readyShow

/-! ### HELLO (R319 to R322, R335) -/

/-- What a HELLO carries. -/
structure Hello where
  ack : Nat
  role : Nat
  ready : Bool
  reason : Nat
  strap : Nat
  primed : Bool
  armed : Bool
  digest : Word
  serial : Nat
  deriving DecidableEq, Repr

/-- Both chips are ACTIVE: the partner-strapped one, or with equal straps the one of higher serial number, gives way (R321,
R322). -/
def State.bothActive (s : State) : State :=
  if s.role != roACTIVE || s.fld TWN_STATE_PROLE != roACTIVE then s
  else if (if s.on TWN_STATE_STRAPDUP then decide (s.twin.pserial < s.serial.toNat) else !s.preferred) then s.standBy else s

/-- A HELLO is taken in. -/
def State.hello (s : State) (m : Hello) : State :=
  if !s.twinOn then s
  else
    let s1 := State.linkTry <| s.setTwin { s.twin with
      unacked := ackUpTo m.ack s.twin.unacked, helloAt := some s.clk, helloRx := true, rstSent := s.twin.rstSent && m.role != roINIT && m.role != roPRIME, fwd := s.twin.fwd && m.role != roINIT, released := if m.role = roACTIVE then 0 else s.twin.released, pstrap := m.strap, pready := m.ready, preason := m.reason
      pprimed := m.primed, parmed := m.armed, pserial := m.serial }
    let s2 := (s1.setFld TWN_STATE_PROLE m.role).setReg TWN_PCFGCRC m.digest
    let s3 := if m.strap = s2.fld SYS_CAPS_TWIN then s2.setOn TWN_STATE_STRAPDUP else s2
    let s4 := if s3.role = roINIT ∧ s3.on TWN_LINKST_UP then s3.setFld TWN_STATE_ROLE roPRIME else s3
    let s5 := s4.bothActive.primeStep
    let gone := m.role == roINIT || m.role == roPRIME || m.role == roOUT
    let s6 := if s5.role = roSTANDBY ∧ gone ∧ !s5.partnerDrives then s5.setTwin { s5.twin with take := true } else s5
    let s7 := if m.role = roOUT ∧ (s6.role = roACTIVE ∨ s6.role = roSTANDBY) then s6.askReset else s6
    s7.readyShow

def execHello (t : Nat) (ack : BitVec 8) (role : Fin 6) (ready : Bool) (reason : BitVec 4) (strap : BitVec 2)
    (primed armed : Bool) (digest : BitVec 32) (serial : BitVec 64) (s : State) : Out :=
  .next ((s.advance t).hello { ack := ack.toNat, role := role, ready := ready, reason := reason.toNat, strap := strap.toNat
                               primed := primed, armed := armed, digest := digest, serial := serial.toNat })

/-- The payload of a HELLO (R319), byte by byte and word by word. -/
def State.helloBody (s : State) : List Nat :=
  [s.role + 8 * s.fld TWN_STATE_READY + 16 * s.fld TWN_STATE_NRREASON,
   s.fld SYS_CAPS_TWIN + 4 * s.fld TWN_STATE_PALIVE + 16 * b2n s.primed + 32 * b2n s.armed, 0, (s.reg TWN_CFGCRC).toNat, s.tb0.toNat, s.serial.toNat]

/-- The timer of HELLO. -/
def tmHello : Nat := 3

/-! ### The heartbeat (R320) -/

/-- TWIN_ALIVE_EDGE. -/
def State.aliveEdge (s : State) : State :=
  if !s.twinStrap || !s.awake then s
  else
    let iv := match s.twin.edge with | some e => ((s.clk - e) :: s.twin.ivals).take 2 | none => []
    let drv := iv.length == 2 && iv.all (fun i => decide (i < 200))
    ((s.setTwin { s.twin with edge := some s.clk, ivals := iv }).setFld TWN_STATE_PALIVE (if drv then 2 else 1)).takeCheck

def execTwinAliveEdge (t : Nat) (s : State) : Out := .next (s.advance t).aliveEdge

/-- PALIVE_DEAD. -/
def State.aliveDead (s : State) : State :=
  match s.twin.edge with
  | some e =>
    if s.awake && s.fld TWN_STATE_PALIVE != 0 && decide (e + usClk (s.fld TWN_HB_HBTO) ≤ s.clk) then
      ((s.setFld TWN_STATE_PALIVE 0).setTwin { s.twin with deadAt := s.clk, ivals := [], edge := none }).takeCheck
    else s
  | none => s

def execPaliveDead (t : Nat) (s : State) : Out := .next (s.advance t).aliveDead

/-- Half-period of TWIN_ALIVE_OUT in core clocks. -/
def State.aliveHalf (s : State) : Nat :=
  if (List.range 64).any (fun h => s.fld (HPT_CTL_MODE h) % 2 == 1) then 100 else 400

/-- ALIVE_TOGGLE. -/
def execAliveToggle (t : Nat) (s : State) : Out :=
  let s1 := s.advance t
  .next (if s1.twinStrap && s1.awake && s1.on RST_STAT_DONE && decide (s1.twin.aliveAt + s1.aliveHalf ≤ s1.clk) then
    s1.setTwin { s1.twin with level := !s1.twin.level, aliveAt := s1.clk } else s1)

/-- CONFIRM_TIMEOUT (R317, R322, R335). -/
def State.confirm (s : State) : State :=
  if !s.twinOn || !s.partnerGone then s
  else if s.role = roINIT then (s.setFld TWN_STATE_ROLE roPRIME).primeStep
  else if s.role = roPRIME then s.primeStep
  else if s.role = roSTANDBY then s.setTwin { s.twin with take := true }
  else s

def execConfirmTimeout (t : Nat) (s : State) : Out := .next (s.advance t).confirm.readyShow

/-! ### TAKEOVER (R336 to R338) -/

/-- What a chip that becomes ACTIVE raises of the causes that a STANDBY does not (R251, R325, R330): those that persist, as at ARM, a loss of
TRUST, and a head that is data late. -/
def State.takeCauses (s : State) : State :=
  let s1 := s.standingCauses
  let s2 := if s1.on FIR_CTL_TRUSTACT && !s1.on POS_STATE_TRUST then s1.raiseCause 3 else s1
  if s2.liveHeads.any (fun h => (s2.head h).late.isSome) && !s2.dataCauseOver then s2.raiseCause 0 else s2

/-- The takeover: ACTIVE, the cause TWIN with its freeze, mastership and ports. A splice that has gone past its stop takes
its rewind, where the press backs up at all (R259, R337). -/
def State.takeover (s : State) : State :=
  if !s.twinOn || !(s.role == roSTANDBY || s.role == roPRIME) || !s.twin.take then s
  else
    let failed := s.twin.failed
    let s1 := s.activate
    let s2 := if s1.armed then (s1.raiseCause 5).takeCauses.spliceRequest.twinResume else s1
    let s3 := if failed then s2.noteSuspect.askReset else s2
    let s4 := if s3.splice.active && !s3.noRev && decide (3 ≤ s3.fld TRN_STATE_SEQ) then s3.setPos { s3.pos with rewind := some s3.splice.v } else s3
    let s5 := ((s4.countReg TWN_SWCNT 1).setOn TWN_STATE_SWITCHED)
    ((if s5.actMaster && s5.armed then s5.sendState else s5).twinCauseOver).readyShow

def execTakeover (t : Nat) (s : State) : Out := .next (s.advance t).takeover

/-- RELEASED (R335): the outgoing chip's drivers are off on the ports of a mask. -/
def State.releasedIn (s : State) (mask : Nat) : State :=
  (s.setTwin { s.twin with released := s.twin.released ||| mask, wait_ := s.twin.wait_ || (s.role == roSTANDBY && !s.twin.swap) }).takeCheck

def execReleased (t : Nat) (seq : LinkHdr) (mask : BitVec 64) (s : State) : Out :=
  .next ((s.advance t).recv seq (fun s => s.releasedIn mask.toNat))

/-- RSTREQ (R333): a reset with source TWINREQ and the effect of RESET_N. -/
def execRstreq (t : Nat) (seq : LinkHdr) (s : State) : Out :=
  let s1 := s.advance t
  .next (if s1.twinOn && s1.on TWN_LINKST_UP && s1.twin.seqIn != seq.seq.toNat then s1.resetBy 6 rcSYSTEM else s1)

/-! ### Agreements (R326, R327) -/

/-- A PROPOSE comes in: it merges with an own one of the same purpose and a common port, whose AGREE will then only confirm it, or is
answered. -/
def State.proposeIn (s : State) (purpose mask prop arg : Nat) : State :=
  match s.twin.agrees.find? (fun g => !g.done && g.purpose == purpose && (g.mask &&& mask) != 0) with
  | some g =>
    let a := max g.prop prop
    let s1 := (s.setTwin { s.twin with agrees := replaceFirst (fun x => x == g) (fun x => { x with done := true }) s.twin.agrees }).twinSend 0x11 [purpose, a]
    let s2 := s1.agreed purpose a g.arg
    if arg = g.arg then s2 else s2.agreed purpose a arg
  | none =>
    let a := max (s.proposal mask) prop
    (s.twinSend 0x11 [purpose, a]).agreed purpose a arg

def execPropose (t : Nat) (seq : LinkHdr) (purpose : Fin 6) (mask : BitVec 64) (prop : BitVec 40) (arg : BitVec 32) (s : State) : Out :=
  .next ((s.advance t).recv seq (fun s => s.proposeIn purpose mask.toNat prop.toNat arg.toNat))

/-- An AGREE comes in: the partner answers proposals of one purpose in the order in which they were sent. -/
def State.agreeIn (s : State) (purpose a : Nat) : State :=
  match s.twin.agrees.find? (fun g => g.purpose == purpose) with
  | some g =>
    let s1 := s.setTwin { s.twin with agrees := s.twin.agrees.erase g }
    if g.done then s1 else s1.agreed purpose a g.arg
  | none => s

def execAgree (t : Nat) (seq : LinkHdr) (purpose : Fin 6) (a : BitVec 40) (s : State) : Out :=
  .next ((s.advance t).recv seq (fun s => s.agreeIn purpose a.toNat))

/-- AGREE_TIMEOUT: the initiator takes its own proposal, and the link is taken as down. -/
def State.agreeTimeout (s : State) : State :=
  match s.twin.agrees.find? (fun g => decide (g.at_ + usClk 20 ≤ s.clk)) with
  | some g =>
    let s1 := s.setTwin { s.twin with agrees := s.twin.agrees.erase g }
    (if g.done then s1 else s1.agreed g.purpose g.prop g.arg).linkDown.readyShow
  | none => s

def execAgreeTimeout (t : Nat) (s : State) : Out := .next (s.advance t).agreeTimeout

/-- RETURN (R340): the ACTIVE partner-strapped chip starts the agreement once its preferred partner has been ready long
enough. -/
def State.returnDue (s : State) : Bool :=
  s.twinOn && s.role == roACTIVE && !s.preferred && s.polAUTORET && !s.on TWN_STATE_STRAPDUP && s.twin.pready &&
  s.fld TWN_STATE_PROLE == roSTANDBY && decide (2 ^ s.polRETLOG ≤ (s.reg TWN_GOODRUN).toNat) && s.twin.ret.isNone && s.armed

def execTwinReturn (t : Nat) (s : State) : Out :=
  let s1 := s.advance t
  .next (if s1.returnDue then s1.propose puRETURN s1.liveMask 0 else s1)

/-! ### Entries (R319, R328, R331) -/

/-- ENTRIES_SEND_TIMER (R319): 20 entries wait, or the oldest has waited 1 µs. -/
def State.entriesTimer (s : State) : State :=
  let due := decide (20 ≤ s.twin.out.length) || s.twin.out.head?.any (fun e => decide (e.at_ + usClk 1 ≤ s.clk))
  if !s.twinOn || !due then s
  else
    let es := s.twin.out.take 20
    let s1 := s.setTwin { s.twin with out := s.twin.out.drop 20 }
    if s1.on TWN_LINKST_UP then
      s1.twinPut s1.twin.seqOut 0x02 (es.flatMap (fun e => [e.kind, e.port + 64 * e.cls, e.line % 2 ^ 32, e.val.toNat, e.flags, 0]))
    else s1

def execEntriesSendTimer (t : Nat) (s : State) : Out := .next (s.advance t).entriesTimer

/-- A 32-bit line as the 40-bit line nearest to `near` (R319). -/
def extendLine (near l : Nat) : Nat :=
  ((near : Int) + signed 32 (unsign 32 ((l : Int) - near))).toNat

/-- Fields of a line entry's 12 bytes. -/
def entKind (e : BitVec 96) : Nat := bytesAt e.toNat 0 1
def entPort6 (e : BitVec 96) : Nat := bitsOf e.toNat 8 6
def entCls (e : BitVec 96) : Nat := bitsOf e.toNat 14 2
def entLine (e : BitVec 96) : Nat := bytesAt e.toNat 2 4
def entVal (e : BitVec 96) : Word := BitVec.ofNat 32 (bytesAt e.toNat 6 4)
def entAsh (e : BitVec 96) : Bool := bitAt e.toNat 82

/-- A FIRED entry of line `l` reaches a port in MONITOR (R328, R329). -/
def State.firedIn (s : State) (p l : Nat) (v : Word) : State :=
  if s.fld (HPT_CTL_MODE p) != 2 then s
  else
    let s1 := (s.modHead p (fun x => { x with rfire := ((l, v) :: x.rfire).take 16 })).align p
    s1.seenFired p l

/-- One entry of the partner (R319, R331). A FIRED entry carries the class of the return of the line before, and ASH of its own line. -/
def State.entryIn (s : State) (e : BitVec 96) : State :=
  let p := entPort6 e
  let l := extendLine (s.head p).next (entLine e)
  if l + 64 < (s.head p).next then s
  else
    let s := if entAsh e then s.modTline p l (fun x => { x with pash := true }) else s
    if entKind e = 1 then (s.modTline p l (fun x => { x with psig := some (entVal e) })).compareSig p l
    else if entKind e = 2 then
      let s1 := if l = 0 then s else (s.modTline p (l - 1) (fun x => { x with pcls := some (entCls e) })).compareCls p (l - 1)
      s1.firedIn p l (entVal e)
    else if entKind e = 3 then (s.modTline p l (fun x => { x with pcls := some (entCls e) })).compareCls p l
    else s

/-- ENTRIES_FRAME (R331). -/
def State.entriesIn (s : State) (f : EntryFrame) : State :=
  if !s.twinOn || !s.on TWN_LINKST_UP then s
  else (f.entries.foldl (fun s e => s.entryIn e) (s.ackIn f.ack.toNat)).readyShow

def execEntriesFrame (t : Nat) (es : EntryFrame) (s : State) : Out := .next ((s.advance t).entriesIn es)

/-- EMBRES (R333). A line's slot comes before its burst. -/
def State.embresIn (s : State) (r : EmbRes) : State :=
  match embTake r.line s.twin.emb with
  | some x => (s.setTwin { s.twin with emb := x.2 }).judgeEmber x.1 r
  | none => s.setTwin { s.twin with pemb := embAdd s.twin.pemb r }

def execEmbres (t : Nat) (seq : LinkHdr) (line : BitVec 40) (cmp fail : BitVec 16) (s : State) : Out :=
  .next ((s.advance t).recv seq (fun s =>
    s.embresIn { line := line.toNat, cmp := cmp.toNat, fail := fail.toNat, burst := false }))

/-- THERM (R325): the STANDBY's thermal state of a port; a port-out comes with its own agreement. -/
def State.thermIn (s : State) (p : Nat) (b : Bool) : State :=
  if s.role = roSTANDBY ∧ (s.head p).hot ≠ b then ((s.showOver p b).causeCheck).trnShow else s

def execTherm (t : Nat) (seq : LinkHdr) (p : Fin 64) (over_ : Bool) (s : State) : Out :=
  .next ((s.advance t).recv seq (fun s => s.thermIn p over_))

/-! ### Head records (R195, R196, R325) -/

/-- Byte `k` of the held records of port `p`. -/
def State.headByte (s : State) (p k : Nat) : Nat := s.headMem.get (fun _ => 0) (8192 * p + k)

/-- Bytes `k` to `k + n - 1` of them. -/
def State.headBytes (s : State) (p k n : Nat) : List Byte := (countUp k n).map (fun i => BitVec.ofNat 8 (s.headByte p i))

/-- Put bytes from offset `k` on. -/
def State.putHeadBytes (s : State) (p k : Nat) (bs : List Nat) : State :=
  { s with headMem := (List.range bs.length).foldl (fun m i => SMap.set (fun _ => 0) m (8192 * p + (k + i) % 8192) (bs.getD i 0 % 256)) s.headMem }

/-- IDOK (R195): magic, version and CRC of the identity record. -/
def State.idOk (s : State) (p : Nat) : Bool :=
  leNat (s.headBytes p 0 4) == 0x4D485A44 && s.headByte p 4 == 1 && leNat (s.headBytes p 0x3C 4) == (crc32 (s.headBytes p 0 0x3C)).toNat

/-- RANKOK (R196). -/
def State.rankOk (s : State) (p : Nat) : Bool := leNat (s.headBytes p 0xA1C 4) == (crc32 (s.headBytes p 0x100 0x91C)).toNat

/-- The registers that the held records fill (R201, R325). -/
def State.headFill (s : State) (p : Nat) : State :=
  let s1 := (((s.setReg (HPT_HTYPE p) (BitVec.ofNat 32 (leNat (s.headBytes p 0x10 4)))).setReg (HPT_HSERLO p)
    (BitVec.ofNat 32 (leNat (s.headBytes p 8 4)))).setReg (HPT_HSERHI p) (BitVec.ofNat 32 (leNat (s.headBytes p 0xC 4))))
  let s2 := ((s1.setOn (HPT_HSTAT_PRESENT p)).setBit (HPT_HSTAT_IDOK p) (s.idOk p)).setBit (HPT_HSTAT_RANKOK p) (s.rankOk p)
  (s2.setFld (HPT_HSTAT_VCLASS p) (s.headByte p 0x1A)).setFld (HPT_HSTAT_TLIMIT p) (s.headByte p 0x1B)

/-- Step 3 of the bring-up (R189): the fastest rate not above the head's limit, the firing hold and the latch setup from the identity
record. A limit below every rate leaves the slowest one, and a time beyond its field's range the nearest value in it (DESIGN CHOICE, log
entry 55). -/
def State.headSet (s : State) (p : Nat) : State :=
  if s.armed || !s.on (HPT_HSTAT_IDOK p) then s
  else
    let r := leNat (s.headBytes p 0x14 2)
    let s1 := s.setFld (HPT_RATE_RATE p) (if 600 ≤ r then 0 else if 300 ≤ r then 1 else 2)
    ((s1.modHead p (fun x => { x with up := max 3 x.up })).setFld (HPT_FIRE_FHOLD p) (min 16383 (nsClk (leNat (s.headBytes p 0x16 2))))).setFld (HPT_TIME_LATSU p)
      (max 8 (min 4095 (nsClk (leNat (s.headBytes p 0x18 2)))))

/-- The identity and rank records of port `p` go to the twin partner, 128 bytes a frame, from the chip that masters the bus (R325). -/
def State.sendRank (s : State) (p : Nat) : State :=
  if s.twinStrap && s.on (HPT_BUSST_MASTER (p / 8)) then
    (0 :: (List.range 19).map (fun k => 0x100 + 128 * k)).foldl (fun s o => s.twinSend 0x16 (p :: o :: (s.headBytes p o 128).map BitVec.toNat)) s
  else s

/-- After the bring-up the records of every head go to the partner, once (R325). -/
def State.sendRecords (s : State) : State :=
  if s.twin.done && !s.twin.fwd && s.on TWN_LINKST_UP && s.on (HPT_BUSST_MASTER 0) then
    ((List.range 64).foldl (fun s h => if s.on (HPT_HSTAT_PRESENT h) then s.sendRank h else s) s).setTwin
      { ((List.range 64).foldl (fun s h => if s.on (HPT_HSTAT_PRESENT h) then s.sendRank h else s) s).twin with fwd := true }
  else s

/-- HELLO_TIMER (R319): every 1 µs. `done` tells how far Hearth's bring-up of the heads has come (R189). -/
def State.helloTimer (s : State) (done : Bool) : State :=
  if !s.twinOn || !s.awake || !s.on RST_STAT_DONE || !s.timerOver tmHello (usClk 1) then s
  else
    let s1 := ((s.startTimer tmHello).setTwin { s.twin with done := done }).primeStep.readyShow
    let s2 := s1.twinPut s1.twin.seqOut 0x01 s1.helloBody
    (s2.setTwin { s2.twin with helloTx := true }).linkTry.sendRecords

def execHelloTimer (t : Nat) (done : Bool) (s : State) : Out := .next ((s.advance t).helloTimer done)

/-- HEADREC (R325): 128 bytes of head memory from the chip that masters the bus; the partner runs step 3 with them. -/
def execHeadrec (t : Nat) (seq : LinkHdr) (p : Fin 64) (off : BitVec 13) (data : BitVec 1024) (s : State) : Out :=
  .next ((s.advance t).recv seq (fun s =>
    if s.on (HPT_BUSST_MASTER (p / 8)) then s
    else ((s.putHeadBytes p off.toNat ((leBytes 128 data.toNat).map BitVec.toNat)).headFill p).headSet p))

/-! ### Joining (R339) -/

/-- What the join state says of stream `st`: its join entry, C and the END state before it. -/
def State.joinStream (s : State) (st : Nat) : List Nat :=
  match (s.strm st).descs.find? (fun d => d.phase != .done) with
  | some d => [st, d.count, d.cov0, b2n d.off0]
  | none => [st, (s.reg (STR_CONS st)).toNat, (s.strm st).covEnd, b2n (s.strm st).covOff]

/-- How many streams one JOIN frame tells of: 12 bytes and 11 for each fit its payload (DESIGN CHOICE, log entry 83). -/
def joinLen : Nat := 20

/-- The join state of this chip, in as many frames as it takes: the last one tells of fewer streams than it could. -/
def State.joinStates (s : State) : List (List Nat) :=
  let ss := ((List.range 128).filter (fun st => s.on (STR_CTL_EN st))).map (fun st => s.joinStream st)
  (List.range (ss.length / joinLen + 1)).map (fun k =>
    [s.seed.toNat, (s.reg CRD_JOBID).toNat, (s.reg HIF_CMDCONS).toNat] ++ ((ss.drop (joinLen * k)).take joinLen).flatten)

/-- JOIN: a write of TWN_CTL.JOIN. The request goes to the partner as an empty JOIN frame. -/
def State.joinWrite (s : State) : State :=
  if s.armed || !s.twinOn || s.role != roSTANDBY || s.fld TWN_STATE_PROLE != roACTIVE || !s.twin.parmed || !s.on TWN_LINKST_UP then
    s.refuse erJOINFAIL TWN_CTL
  else (s.twinSend 0x17 []).setTwin { (s.twinSend 0x17 []).twin with join := true }

def execJoin (t : Nat) (s : State) : Out := .next ((s.advance t).bar 14 State.joinWrite)

/-- A stream takes its join entry: nothing before it is fetched or completed here. -/
def State.joinAt (s : State) (w : BitVec 96) : State :=
  let st := bitsOf w.toNat 0 7
  (s.setReg (STR_CONS st) (BitVec.ofNat 32 (bitsOf w.toNat 8 32))).modStrm st (fun x => { x with
    descs := [], stray := x.strayAll, halt := none, pass := [], cover := [], covEnd := bitsOf w.toNat 40 40, covOff := bitAt w.toNat 7 })

/-- The join state arrives: the checks of ARM, then the job; the roles stand (R339). -/
def State.joinIn (s : State) (seed jobid cons : Word) (ws : List (BitVec 96)) : State :=
  let s0 := s.setTwin { s.twin with join := false }
  match s0.armCheck with
  | some (_, s1) => s1.refuse erJOINFAIL TWN_CTL
  | none =>
    let s1 := (s0.armJob seed.toNat).setReg CRD_JOBID jobid
    ws.foldl (fun s w => s.joinAt w) ((s1.setReg HIF_CMDCONS cons).setTwin { s1.twin with join := decide (ws.length = joinLen) })

/-- A further frame of the join state. -/
def State.joinMore (s : State) (ws : List (BitVec 96)) : State :=
  ws.foldl (fun s w => s.joinAt w) (s.setTwin { s.twin with join := decide (ws.length = joinLen) })

/-- JOIN_FRAME (R339): an ACTIVE chip answers the request with its join state, and computes its digest anew (R324); a chip that has asked
arms from it. -/
def execJoinFrame (t : Nat) (seq : LinkHdr) (seed jobid cons : BitVec 32) (ws : List (BitVec 96)) (s : State) : Out :=
  .next ((s.advance t).recv seq (fun s =>
    if s.role = roACTIVE ∧ s.armed then s.joinStates.foldl (fun s b => s.twinSend 0x17 b) (s.setTwin { s.twin with digest := false })
    else if s.twin.join then (if s.armed then s.joinMore ws else s.joinIn seed jobid cons ws) else s))

/-! ### The configuration digest (R324) -/

/-- A register as four bytes. -/
def State.regBytes (s : State) (a : Nat) : List Byte := leBytes 4 (s.reg a).toNat

/-- The registers of items 2 to 5. -/
def digestRegs : List Nat :=
  [KLN_CTL, KLN_COLS, KLN_ROTCFG, KLN_MTXCFG] ++ (List.range 4).map (fun j => KLN_MTXSEL j) ++ [KLN_EMBCTL] ++
  [FIR_CTL, FIR_CPL, FIR_ORGTLO, FIR_ORGTHI, FIR_ORGLNLO, FIR_ORGLNHI, FIR_ADV, FIR_URMAX, FIR_SCANCFG, FIR_PASSLEN, FIR_SOSOFS,
   FIR_MIRROR, FIR_PMCFG] ++ (List.range 16).flatMap (fun j => [FIR_PMASKLO j, FIR_PMASKHI j]) ++
  [TRN_CTL, TRN_VSET, TRN_SLEW, TRN_GOV, TRN_BACKUP, TRN_REVSPD, TRN_RESFILL, TRN_SETTLE, TRN_MOVETO, TRN_POLICY] ++
  (List.range 3).map (fun j => TRN_VLIM j) ++ (List.range 3).map (fun j => TRN_BKMAX j) ++ [INS_STRIP, INS_STRIPINT, CRD_JOBID]

/-- Everything the digest covers, in the order of R324. -/
def State.digestBytes (s : State) : List Byte :=
  leBytes 4 s.seed.toNat ++ digestRegs.flatMap (fun a => s.regBytes a) ++
  (List.range 128).flatMap (fun u => (List.range 8).flatMap (fun k => leBytes 4 (s.own (UNT_CTL u + 4 * k)))) ++
  (List.range 128).flatMap (fun st => leBytes 4 (s.fld (STR_CTL_EN st) + 2 * s.fld (STR_CTL_KIND st) +
    4 * s.fld (STR_CTL_SIZE st) + 64 * s.fld (STR_CTL_SKIPERR st))) ++
  (List.range 32).flatMap (fun i => s.regBytes (SWS_PBASE i) ++ s.regBytes (SWS_PSIZE i) ++ s.regBytes (SWS_PCTL i)) ++
  (List.range 64).flatMap (fun p => s.regBytes (HPT_TIME p) ++ s.regBytes (HPT_FIRE p)) ++
  (List.range 131072).flatMap (fun n => leBytes 8 ((s.ent n).mapped (s.entScreen n)).toNat) ++
  (List.range 64).flatMap (fun q => (List.range 256).flatMap (fun j => leBytes 2 (s.curveAt q (s.curve q).bank j).1)) ++
  (List.range 4).flatMap (fun m => (List.range (s.mtxDim m)).flatMap (fun y => (List.range (3 * s.mtxDim m)).flatMap (fun k =>
    leBytes 1 (s.mtxByte (cellOff m y 0 + k)).1)))

/-- CONFIG_DIGEST_DONE (R324). -/
def execConfigDigestDone (t : Nat) (s : State) : Out :=
  let s1 := s.advance t
  .next (if s1.twinOn && s1.armed && !s1.twin.digest then
    ((s1.setReg TWN_CFGCRC (crc32 s1.digestBytes)).setTwin { s1.twin with digest := true }).readyShow else s1)

/-! ### TWN_OVERRIDE (R342) -/

/-- An override with effect `f`, refused with `code` where `bad` holds. -/
def State.override (s : State) (bad : State → Bool) (f : State → State) : State :=
  if !s.authOk 4 0 then s.refuse erPROTECT TWN_OVERRIDE
  else if bad s then s.refuse erNOPART TWN_OVERRIDE
  else (f s.authUse).readyShow

/-- A host write of TWN_OVERRIDE waits behind a command, in its core clock, that would be accepted (R342, R411). -/
def State.overBehind (s : State) : Bool :=
  let ok := fun (x : Nat) => s.authOk 4 0 && (if x = 1 then !s.partnerDrives else if x = 2 then s.twin.pready else x == 3)
  s.writesBehind.any (fun c => match c with
    | .overrideActive _ => ok 1
    | .overrideStandby _ => ok 2
    | .overrideOut _ => ok 3
    | .registerWrite _ a len v false => a.sp.val == 0 && a.off.toNat == TWN_OVERRIDE && decide (0 < len.val) && ok (v.toNat % 4)
    | _ => false)

/-- ACTIVE takes over under R336, from STANDBY or, where the straps are equal, from PRIME (R322). -/
def State.overActive (s : State) : State :=
  s.override State.partnerDrives (fun s =>
    if s.twinOn && (s.role == roSTANDBY || s.role == roPRIME) then s.setTwin { s.twin with take := true } else s)

/-- STANDBY on the ACTIVE chip runs a return. -/
def State.overStandby (s : State) : State :=
  s.override (fun s => !s.twin.pready) (fun s =>
    if s.twinOn && s.role == roACTIVE && s.twin.ret.isNone then s.propose puRETURN s.liveMask 0 else s)

/-- OUT moves the chip to OUT. -/
def State.overOut (s : State) : State := s.override (fun _ => false) (fun s => if s.twinOn then s.goOut else s)

def execOverrideActive (t : Nat) (s : State) : Out := .next ((s.advance t).bar 14 State.overActive)
def execOverrideStandby (t : Nat) (s : State) : Out := .next ((s.advance t).bar 14 State.overStandby)
def execOverrideOut (t : Nat) (s : State) : Out := .next ((s.advance t).bar 14 State.overOut)

end Sys2Proof.Machine
end

