-- ==== Sys2Proof/Machine/FindOps.lean ====
section
/-! DEFINITION. The engines' findings (R269, R280): the column and the nozzle they belong to, whether a recipe makes them findings,
what they write within the bounds of R281, and the records that tell them (R279). -/

namespace Sys2Proof.Machine

open Sys2Proof

/-- The kinds of finding, as R279 numbers them less one. -/
def fkLOW : Nat := 0
def fkMISS : Nat := 1
def fkPOS : Nat := 2
def fkSTREAK : Nat := 3
def fkRECOVER : Nat := 4

/-- Actions of a defect record (R279). -/
def faNONE : Nat := 0
def faTRIM : Nat := 1
def faWEAK : Nat := 2
def faSUBST : Nat := 3
def faRESTORE : Nat := 4
def faNOAUTO : Nat := 8

/-! ### Column and nozzle (R269) -/

/-- The output column, in 1/256 column, on which downsampled pixel `x` of camera `c` is centred (R269). -/
def State.camCol (s : State) (c x : Nat) : Int :=
  signed 32 (s.reg (CAM_XOFS c)).toNat + ((2 * x + 1) * (s.reg (CAM_XSCALE c)).toNat / 512 : Nat)

/-- Does camera `c` map column `k`: does one of its downsampled pixels lie on it or beyond it on either side (R269)? -/
def State.camMaps (s : State) (c : Nat) (k : Int) : Bool :=
  s.on (CAM_CTL_EN c) && decide (s.camCol c 0 / 256 ≤ k) &&
  decide (k ≤ s.camCol c (ceilDiv (s.camWidth c) (2 ^ s.fld (CAM_DS_DX c)) - 1) / 256)

/-- Does camera `c` own column `k`: camera 0 owns every column that both map (R269)? -/
def State.camOwns (s : State) (c : Nat) (k : Int) : Bool := c == 0 || !s.camMaps 0 k

/-- The entries that the column map gives for column `k`. -/
def State.mapAt (s : State) (k : Int) : List Nat := if 0 ≤ k then s.mapOf k.toNat else []

/-- The nozzle that printed column `k` on web line `l` (R269): in single coverage the column's entry, in double coverage the SOLE one
or the member that the rotation chooses (R127, R133). -/
def State.nozzleOf (s : State) (k : Int) (l : Nat) : Option Nat :=
  let ns := s.mapAt k
  if !s.on KLN_CTL_LAYOUT then ns.head?
  else
    let b := rotationB (s.fld KLN_ROTCFG_SEQ) s.seed l k
    match ns.find? (fun n => ePart (s.mapWord n) == 2) with
    | some n => some n
    | none => ns.find? (fun n => ePart (s.mapWord n) == b2n b)

/-- The column on which finding `f` lies. -/
def State.findCol (s : State) (c : Nat) (f : Finding) : Int := (s.camCol c f.pix.toNat + f.off.toInt) / 256

/-- The nozzle entry of finding `f` of camera `c`: the one that the engine tells, else the one that printed there; a streak belongs to
one only where its column has one. -/
def State.findEntry (s : State) (c : Nat) (f : Finding) : Option Nat :=
  match f.entry with
  | some n => some n.toNat
  | none =>
    let k := s.findCol c f
    if f.kind.val = fkSTREAK then (match s.mapAt k with | [n] => some n | _ => none)
    else s.nozzleOf k f.line.toNat

/-! ### Cycles (R280 to R282) -/

/-- The engines of camera `c` come to a strip cycle: what belongs to an earlier one is over. -/
def State.camCycle (s : State) (c : Nat) : State :=
  let y := (s.reg INS_CYCLE).toNat
  if (s.cam c).cycle = y then s else s.modCam c (fun x => { x.anew with cycle := y })

/-- Consecutive cycles in which entry `n` has given a finding of kind `k`. -/
def State.runOf (s : State) (n k : Nat) : Nat :=
  match s.insp.runs.find? (fun r => r.ent == n && r.kind == k) with
  | some r => r.n
  | none => 0

/-- A finding of kind `k` on entry `n` in this cycle: one more than in the cycle before, or the first. -/
def State.runNote (s : State) (n k : Nat) : State :=
  let y := (s.reg INS_CYCLE).toNat
  let rest := s.insp.runs.filter (fun r => !(r.ent == n && r.kind == k))
  let m := match s.insp.runs.find? (fun r => r.ent == n && r.kind == k) with
    | some r => if r.cyc = y then r.n else if r.cyc + 1 = y then r.n + 1 else 1
    | none => 1
  s.setInsp { s.insp with runs := rest ++ [⟨n, k, y, m⟩] }

/-! ### What a finding writes (R281) -/

/-- One write: the entry, bits 36 to 0 as measured and as wanted, and the blend code. -/
structure Want where
  ent   : Nat
  seen  : Nat
  low   : Nat
  blend : Nat
  deriving DecidableEq, Repr

/-- Bits 36 to 0 of entry `n` as the measurement read them, or as they stand where it did not. -/
def State.seenLow (s : State) (f : Finding) (n : Nat) : Nat :=
  match f.seen.find? (fun p => p.1.toNat == n) with
  | some p => p.2.toNat
  | none => eLow (s.ent n).last.out.1

/-- Fields of bits 36 to 0. -/
def lowState (v : Nat) : Nat := bitsOf v 32 2
def lowPart (v : Nat) : Nat := bitsOf v 34 2
def lowTrim (v : Nat) : Int := signed 9 (bitsOf v 23 9)
def lowPut (v lo w x : Nat) : Nat := v - 2 ^ lo * bitsOf v lo w + 2 ^ lo * (x % 2 ^ w)

/-- Limit `x` to `lo` and `hi`. -/
def clampI (lo hi x : Int) : Int := max lo (min hi x)

/-- The TRIM that a change of entry `n` by `d` reaches (R281): at most MAXSTEP from the cycle's start, and within TRIMSPAN of the TRIM
most recently written by another writer; unchanged where no value is both. -/
def State.trimTo (s : State) (c r n v : Nat) (d : Int) : Int :=
  let old := lowTrim v
  let t0 := match (s.cam c).trim0.find? (fun p => p.1 == n) with | some p => p.2 | none => old
  let host := signed 9 (s.ent n).trim
  let st : Int := s.fld (INS_RTRIM_MAXSTEP r)
  let sp : Int := s.fld (INS_RTRIM_TRIMSPAN r)
  let x := clampI (host - sp) (host + sp) (clampI (t0 - st) (t0 + st) (clampI (-256) 255 (old + d)))
  if t0 - st ≤ x ∧ x ≤ t0 + st then x else old

/-- Bits 36 to 0 `v` of entry `n` with its TRIM changed as finding `f` asks. -/
def State.trimmed (s : State) (c r n v : Nat) (f : Finding) : Nat := lowPut v 23 9 (unsign 9 (s.trimTo c r n v f.step.toInt))

/-- A write of `g v` to entry `n`, where `v` is what the measurement read. -/
def State.wantOf (s : State) (f : Finding) (blend n : Nat) (g : Nat → Nat) : Want :=
  let v := s.seenLow f n
  ⟨n, v, g v, blend⟩

/-- Is a shortfall a case for substitution (R280): SUBTH is reached, or MISS has come in MISSCYC consecutive cycles? -/
def State.substDue (s : State) (r n : Nat) (f : Finding) : Bool :=
  decide ((s.fld (INS_RLIM_SUBTH r) : Int) ≤ f.size.toInt) ||
  (f.kind.val == fkMISS && decide (s.fld (INS_RCYC_MISSCYC r) ≤ s.runOf n fkMISS))

/-- The column of entry `n`, as the map has it (R281: the column's other mapped entry, its neighbours). -/
def State.colOf (s : State) (n : Nat) : Int := (eCol (s.mapWord n) : Int)

/-- The writes of a substitution of entry `n` (R281): STATE substituted; in double coverage the other mapped entry becomes
SOLE, in single coverage the neighbours are flagged toward it, without a fade. -/
def State.substWants (s : State) (r n : Nat) (f : Finding) : List Want :=
  let k := s.colOf n
  let put := fun v => lowPut v 32 2 2
  if s.on KLN_CTL_LAYOUT then
    let b := s.fld (INS_RTRIM_BLEND r)
    s.wantOf f b n put :: ((s.mapAt k).filter (fun m => m != n)).map (fun m => s.wantOf f b m (fun v => lowPut v 34 2 2))
  else
    s.wantOf f 0 n put :: ((s.mapAt (k - 1)).map (fun m => s.wantOf f 0 m (fun v => lowPut v 34 2 (lowPart v ||| 2))) ++
      (s.mapAt (k + 1)).map (fun m => s.wantOf f 0 m (fun v => lowPut v 34 2 (lowPart v ||| 1))))

/-- The writes of a restoration of entry `n` (R281): STATE normal, and the SOLE partner back to the member mode opposite
the restored entry's. -/
def State.restoreWants (s : State) (r n : Nat) (f : Finding) : List Want :=
  let b := s.fld (INS_RTRIM_BLEND r)
  let p := lowPart (s.seenLow f n)
  s.wantOf f b n (fun v => lowPut v 32 2 0) ::
    (if s.on KLN_CTL_LAYOUT && decide (p ≤ 1) then
      ((s.mapAt (s.colOf n)).filter (fun m => m != n && lowPart (s.seenLow f m) == 2)).map (fun m => s.wantOf f b m (fun v => lowPut v 34 2 (1 - p)))
    else [])

/-- The writes that change nothing are not made. -/
def effective (ws : List Want) : List Want := ws.filter (fun w => w.low != w.seen)

/-- What finding `f` on entry `n` calls for: the action and its writes (R281). -/
def State.planEntry (s : State) (c r n : Nat) (f : Finding) : Nat × List Want :=
  let v := s.seenLow f n
  let st := lowState v
  let b := s.fld (INS_RTRIM_BLEND r)
  let sz := f.size.toInt
  let weak : Int := s.fld (INS_RLIM_WEAKTH r)
  let well := decide (sz < weak - s.fld (INS_RLIM_HYST r))
  let short := f.kind.val == fkLOW || f.kind.val == fkMISS
  if st = 3 then (faNONE, [])
  else if short && st != 2 && s.substDue r n f && (s.on KLN_CTL_LAYOUT || s.on (INS_RCHAN_SUBSINGLE r)) then
    (faSUBST, effective (s.substWants r n f))
  else if f.kind.val = fkLOW then
    let t := s.trimmed c r n v f
    if st = 0 ∧ weak ≤ sz then (faWEAK, [⟨n, v, lowPut t 32 2 1, b⟩])
    else if st = 1 && well then (faRESTORE, [⟨n, v, lowPut t 32 2 0, b⟩])
    else if t = v then (faNONE, []) else (faTRIM, [⟨n, v, t, b⟩])
  else if f.kind.val = fkRECOVER then
    if st = 1 && well then (faRESTORE, [⟨n, v, lowPut v 32 2 0, b⟩])
    else if st = 2 && s.on INS_CTL_STRIPSUB && decide (s.fld (INS_RCYC_RESTCYC r) ≤ s.runOf n fkRECOVER) then
      (faRESTORE, effective (s.restoreWants r n f))
    else (faNONE, [])
  else (faNONE, [])

/-- What finding `f` of camera `c` calls for: a streak with REFACT trims every entry mapped to its column (R281). -/
def State.plan (s : State) (c : Nat) (n : Option Nat) (f : Finding) : Nat × List Want :=
  let r := s.fld (CAM_CTL_RECIPE c)
  let k := s.findCol c f
  if f.kind.val = fkSTREAK then
    if !s.on (INS_RCHAN_REFACT r) then (faNONE, [])
    else
      let ws := effective ((s.mapAt k).map (fun m => s.wantOf f (s.fld (INS_RTRIM_BLEND r)) m (fun v =>
        if lowState v = 3 then v else s.trimmed c r m v f)))
      if ws.isEmpty then (faNONE, []) else (faTRIM, ws)
  else match n with
    | some n => s.planEntry c r n f
    | none => (faNONE, [])

/-! ### Recipes (R280) -/

/-- Does the recipe make a measurement a finding (R280)? LOW needs WEAKTH, or is an excess; POS lies beyond POSTH; STREAK needs REFCMP,
STREAKTH over STREAKLEN lines, and its reference row. -/
def State.findHolds (s : State) (c : Nat) (f : Finding) : Bool :=
  let r := s.fld (CAM_CTL_RECIPE c)
  let sz := f.size.toInt
  if f.kind.val = fkLOW then decide (sz < 0) || decide ((s.fld (INS_RLIM_WEAKTH r) : Int) ≤ sz)
  else if f.kind.val = fkPOS then decide (s.fld (INS_RLIM_POSTH r) < sz.natAbs)
  else if f.kind.val = fkSTREAK then
    s.on (INS_RCHAN_REFCMP r) && decide (s.fld (INS_RSTREAK_STREAKTH r) ≤ sz.natAbs) &&
    decide (s.fld (INS_RSTREAK_STREAKLEN r) ≤ f.extent.toNat) && s.refs.any (fun x => x.row == f.line.toNat / 4 && !x.ash)
  else true

/-- The line E of the batch of this cycle's writes, of whichever camera, once it has begun (R282). -/
def State.batchE (s : State) : Option Nat :=
  match s.insp.batch with
  | some (y, e) => if y = (s.reg INS_CYCLE).toNat then some e else none
  | none => none

/-- May the engines write at all (R281, R284): AUTO, which a batch that has begun keeps, and on a pair the ACTIVE chip? -/
def State.autoOn (s : State) : Bool :=
  (s.batchE.isSome || s.on INS_CTL_AUTO) && !(s.twinStrap && s.role != roACTIVE)

/-- May the writes of finding `f` be made (R265, R280, R281)? What rests on a frame's statistics is a STREAK, whose expected response is formed
from them: those of a PARTIAL frame correct nothing (R265, R280; DEDUCED, log entry 69). -/
def State.autoMay (s : State) (c : Nat) (f : Finding) (ws : List Want) : Bool :=
  let r := s.fld (CAM_CTL_RECIPE c)
  s.autoOn && decide (s.fld (INS_RTRIM_MINCONF r) ≤ f.conf.toNat) && !(f.kind.val == fkSTREAK && (s.cam c).parts.contains f.frame.toNat) &&
  decide ((s.cam c).wrN + ws.length ≤ s.fld (INS_RCYC_MAXWR r)) &&
  ws.all (fun w => !(s.ent w.ent).last.poison && !s.tabs.reload.contains w.ent)

/-! ### Records and writes -/

/-- The highest next unscreened line over the live ports, plus INS_LEAD (R282). -/
def State.batchLine (s : State) : Nat := ((s.liveHeads.map (fun h => (s.head h).screen)).foldl max 0) + s.fld INS_LEAD_LINES

/-- An autonomous write as BATCH carries it: the entry's index, its new value, and bits 36 to 0 that it expects to replace. -/
abbrev AutoWr := Nat × BitVec 64 × Nat

/-- The value of a write, with CONF and STAMP (R152, R281). -/
def State.wantVal (s : State) (f : Finding) (w : Want) : BitVec 64 :=
  BitVec.ofNat 64 (w.low + 2 ^ 37 * w.blend + 2 ^ 48 * f.conf.toNat + 2 ^ 56 * ((s.reg INS_CYCLE).toNat % 256))

/-- Pass writes with line E to this chip's table update port, as engine `eng`. -/
def State.batchPass (s : State) (e eng : Nat) (ws : List AutoWr) : State :=
  let k := s.insp.writes
  ws.zipIdx.foldl (fun s w => s.portPut (.inspection (k + w.2) eng) (entRecord e w.1.1 w.1.2.1) (some w.1.2.2))
    (s.setInsp { s.insp with writes := k + ws.length })

/-- The BATCH frames of a batch: up to 8 writes each (R319, R325). -/
def State.batchSend (s : State) (e : Nat) : Nat → List AutoWr → State
  | 0, _ => s
  | _ + 1, [] => s
  | n + 1, ws => (s.twinSend 0x14 (e :: (ws.take 8).flatMap (fun w => [w.1, w.2.1.toNat, w.2.2]))).batchSend e n (ws.drop 8)

/-- Bytes 4 to 59 of the defect record of finding `f` (R279). -/
def State.defectBody (s : State) (c : Nat) (f : Finding) (n : Option Nat) (act written before : Nat) : List Byte :=
  leBytes 1 1 ++ leBytes 1 (f.kind.val + 1) ++ leBytes 1 act ++ leBytes 1 (c + 2 * f.eng.toNat) ++ leBytes 4 f.frame.toNat ++
  leBytes 4 (n.getD 0xFFFFFFFF) ++ leBytes 5 f.line.toNat ++ leBytes 3 0 ++
  leBytes 4 (unsign 32 (s.camCol c f.pix.toNat + f.off.toInt)) ++ leBytes 2 f.mag.toNat ++ leBytes 1 f.conf.toNat ++
  leBytes 1 ((s.reg INS_CYCLE).toNat % 256) ++ leBytes 8 written ++ leBytes 8 before ++
  leBytes 4 (if f.kind.val = fkSTREAK then f.extent.toNat else 0) ++ leBytes 8 0

/-- One more finding of its kind in the cycle's summary; streaks are not counted there. -/
def countFind (k : Nat) (cs : List Nat) : List Nat :=
  let i := if k = fkRECOVER then 3 else k
  if k = fkSTREAK then cs else cs.set i (cs[i]?.getD 0 + 1)

/-- The writes of finding `f` go out in the cycle's batch, whose E its first write fixes (R282), and its record waits for their
results (R283). -/
def State.findWrite (s : State) (c : Nat) (f : Finding) (n : Option Nat) (act : Nat) (ws : List Want) : State :=
  let e := s.batchE.getD s.batchLine
  let k := s.insp.writes
  let aw : List AutoWr := ws.map (fun w => (w.ent, s.wantVal f w, w.seen))
  let main := match ws.findIdx? (fun w => some w.ent == n) with | some i => i | none => 0
  let body := s.defectBody c f n act (match aw[main]? with | some w => w.2.1.toNat | none => 0) 0
  let s1 := s.modCam c (fun x => { x with
    wrN := x.wrN + ws.length
    trim0 := x.trim0 ++ (ws.filter (fun w => !x.trim0.any (fun p => p.1 == w.ent))).map (fun w => (w.ent, lowTrim w.seen)) })
  let s2 := s1.setInsp { s1.insp with batch := some ((s.reg INS_CYCLE).toNat, e), defects := s1.insp.defects ++ [⟨countUp k ws.length, k + main, body, false⟩] }
  (if s2.twinStrap then s2.batchSend e aw.length aw else s2).batchPass e f.eng.toNat aw

/-- A finding of camera `c` (R280 to R284): it is written where it may be, and is told in a record. -/
def State.finding (s : State) (c : Nat) (f : Finding) : State :=
  let n := s.findEntry c f
  if !s.camOwns c (s.findCol c f) || !s.findHolds c f then s
  else
    let s1 := match n with
      | some n => if f.kind.val = fkMISS || f.kind.val = fkRECOVER then s.runNote n f.kind.val else s
      | none => s
    let s2 := s1.modCam c (fun x => { x with counts := countFind f.kind.val x.counts })
    let p := s2.plan c n f
    let now := match n with | some n => (s2.ent n).last | none => MWord.clean 0#64
    let low := decide (f.conf.toNat < s2.fld (INS_RTRIM_MINCONF (s2.fld (CAM_CTL_RECIPE c))))
    if p.2.isEmpty then
      let act := if low || (s2.twinStrap && s2.role != roACTIVE) then faNOAUTO else faNONE
      s2.insRecord (s2.defectBody c f n act 0 now.out.1.toNat) now.poison
    else if s2.autoMay c f p.2 then s2.findWrite c f n p.1 p.2
    else s2.insRecord (s2.defectBody c f n faNOAUTO 0 now.out.1.toNat) now.poison

/-- The strip summary of camera `c` (R279): of `m` nozzles measured. With no write in the cycle the batch has no E, and the spec states
no value: it is free (log entry 5). -/
def State.stripSummary (s : State) (c m : Nat) : State :=
  let x := s.cam c
  let r := s.draw
  let e := match s.batchE with | some e => (e, s) | none => (r.1.toNat, r.2)
  e.2.insRecord (leBytes 1 4 ++ leBytes 1 c ++ leBytes 2 0 ++ leBytes 4 (s.reg INS_CYCLE).toNat ++ leBytes 5 s.insp.last ++ leBytes 3 0 ++
    leBytes 4 m ++ x.counts.flatMap (fun n => leBytes 2 (min 65535 n)) ++ leBytes 4 x.wrN ++ leBytes 5 e.1 ++
    leBytes 1 (s.fld (INS_RTRIM_BLEND (s.fld (CAM_CTL_RECIPE c))))) false

/-- A reference row is read from the store (R120): what is wrong in it is found (R384), and a marked row is consumed and counts as absent
(R276, R386). -/
def State.refRead (s : State) (i : Nat) : State :=
  let n := (s.refs[i]?.map (fun x => x.bytes)).getD []
  let s1 := (s.storeUse 2 (refSize n / 64)).deviceReads (fun j => s.claimed j pkREFERENCE) (fun e => .ref i (e % max 1 (ceilDiv n.length 8)))
  if s1.refs[i]?.any (fun x => x.ash) then s1.ashUsed.countReg INS_REFMISS 1 else s1

/-- Comparisons with reference rows (R276): one whose row is absent or overwritten is skipped and counted; the others read their rows. -/
def State.compare (s : State) (rows : List (Fin 128 × BitVec 38)) : State :=
  rows.foldl (fun s r =>
    match s.refs.findIdx? (fun x => x.stream == r.1.val && x.row == r.2.toNat) with
    | some i => s.refRead i
    | none => s.countReg INS_REFMISS 1) s

end Sys2Proof.Machine
end

