-- ==== Sys2Proof/Machine/InsRows.lean ====
section
/-! DEFINITION. The inspection commands: what a camera sends (R263 to R267), the pipeline's progress (R274, R275), a batch of
autonomous writes (R281 to R284, R325), and the accesses that do more than a register's own (R266, R286). -/

namespace Sys2Proof.Machine

open Sys2Proof

/-! ### Packets -/

/-- CAMERA_FRAME_START (R265, R267). -/
def execCameraFrameStart (t : Nat) (c : Fin 2) (vc : BitVec 2) (s : State) : Out :=
  let s1 := s.advance t
  .next (if !s1.camOn c then s1 else if s1.camVc c vc.toNat then (s1.camLink c).frameStart c else s1.camLink c)

/-- CAMERA_LINE (R263, R265): a header that cannot be corrected tells neither channel nor type. -/
def execCameraLine (t : Nat) (c : Fin 2) (vc : BitVec 2) (dt : BitVec 6) (err : Fin 3) (pixels : List (BitVec 12)) (s : State) : Out :=
  let s1 := s.advance t
  .next (if !s1.camOn c then s1
    else if err.val = 2 ∨ (s1.camVc c vc.toNat ∧ dt.toNat = 0x2A + s1.fld (CAM_CTL_DT c)) then (s1.camLink c).camLine c err pixels
    else s1.camLink c)

/-- CAMERA_FRAME_END (R265). -/
def execCameraFrameEnd (t : Nat) (c : Fin 2) (vc : BitVec 2) (s : State) : Out :=
  let s1 := s.advance t
  .next (if !s1.camOn c then s1 else if s1.camVc c vc.toNat then (s1.camLink c).frameEnd c true else s1.camLink c)

/-- SPILL_REPLAY (R274): `ash` says that a word of the line came back marked. -/
def execSpillReplay (t : Nat) (ash : Bool) (s : State) : Out := .next ((s.advance t).replay ash)

/-- FRAME_COMPLETE (R275). -/
def execFrameComplete (t : Nat) (c : Fin 2) (s : State) : Out := .next ((s.advance t).frameDone c)

/-- TRIGGER_PULSE (R266, R267). -/
def execTriggerPulse (t : Nat) (c : Fin 2) (s : State) : Out := .next ((s.advance t).trigPulse c)

/-! ### CAM_CTL and CAM_FFDATA -/

/-- A legal value of CAM_CTL from the one written: reserved codes of LANES, DT and CFA keep their fields (R5). -/
def camCtlLegal (old new : Word) : Word :=
  let a := if bitsOf new.toNat 1 2 = 3 then putBits new 1 2 (bitsOf old.toNat 1 2) else new
  let b := if bitsOf a.toNat 5 2 = 3 then putBits a 5 2 (bitsOf old.toNat 5 2) else a
  let c := if 4 < bitsOf b.toNat 7 3 then putBits b 7 3 (bitsOf old.toNat 7 3) else b
  c &&& 0xFFF#32

/-- CAM_CTL of port `c` takes the value `v` (R265, R266, R287, R296). -/
def State.camCtl (s : State) (c : Nat) (v : Word) : State :=
  if s.armed then s.refuse erARMED (CAM_CTL c)
  else
    let old := s.reg (CAM_CTL c)
    let s1 := s.setReg (CAM_CTL c) (camCtlLegal old v)
    let n := s1.fld (CAM_TRIG_PIN c)
    if old.getLsbD 0 == v.getLsbD 0 then s1
    else if v.getLsbD 0 then
      if s1.fld (TIM_EVTCTL_OWNER n) != evFREE then (s1.setFld (CAM_CTL_EN c) 0).refuse erOWNED (CAM_CTL c)
      else
        (((s1.evtOwn n (evCAM c)).setCam c { Cam.reset with pin := some n, mark := s1.pos.h * 2 ^ 24 }).setReg (CAM_FRAME c) 0#32)
    else (s1.camOff c).setFld (CAM_STAT_LINK c) 0

/-- CAM_ENABLE (R266). -/
def execCamEnable (c : Fin 2) (v : BitVec 32) (s : State) : Out := .next (s.bar (10 + c) (fun s => s.camCtl c v))

/-- The index of CAM_FFADDR moves on (R286). -/
def State.ffNext (s : State) (c : Nat) : State := s.setFld (CAM_FFADDR_INDEX c) ((s.fld (CAM_FFADDR_INDEX c) + 1) % 32768)

/-- BAR0 offset that stands for the flat-field entry at INDEX in the key space of the merge buffer. -/
def State.ffAt (s : State) (c : Nat) : Nat := FF_WIN + 131072 * c + 4 * s.fld (CAM_FFADDR_INDEX c)

/-- A write of `len` bytes at byte `off` of CAM_FFDATA (R271, R286, R287, R389): the reserved bits [15:12] stay 0. -/
def State.ffWrite (s : State) (c off len v : Nat) : State :=
  if s.armed then s.refuse erARMED (CAM_FFDATA c)
  else (s.windowPut (s.ffAt c + off) len (((v * 2 ^ (8 * off)) &&& 0xFFFF0FFF) / 2 ^ (8 * off))).ffNext c

/-- A read of CAM_FFDATA. -/
def State.ffRead (s : State) (c : Nat) : State := (s.windowGet (s.ffAt c) 4).ffNext c

/-- CAM_FFDATA_ACCESS (R286). -/
def execCamFfdataAccess (t : Nat) (c : Fin 2) (wr : Option (BitVec 32)) (s : State) : Out :=
  let s1 := s.advance t
  .next (match wr with
    | some v => s1.bar (10 + c) (fun s => s.ffWrite c 0 4 v.toNat)
    | none => s1.barRead (10 + c) (CAM_FFDATA c) (fun s => s.ffRead c))

/-! ### The engines (R276 to R284) -/

/-- INSPECTION_BATCH: the engines' state, their comparisons with reference rows, their findings, and with `measured` the summary of a
strip. -/
def State.inspectionBatch (s : State) (c busy backlog : Nat) (fs : List Finding) (measured : Option (BitVec 32))
    (rows : List (Fin 128 × BitVec 38)) : State :=
  let s0 := (s.setFld INS_ENGST_BUSY busy).setFld INS_ENGST_BACKLOG backlog
  if !s0.on INS_CTL_EN || s0.fld PWR_STAT_STATE != 0 then s0
  else
    let s1 := fs.foldl (fun s f => s.finding c f) ((s0.compare rows).camCycle c)
    match measured with
    | some m => s1.stripSummary c m.toNat
    | none => s1

def execInspectionBatch (t : Nat) (c : Fin 2) (busy : BitVec 4) (backlog : BitVec 16) (finds : List Finding) (measured : Option (BitVec 32))
    (rows : List (Fin 128 × BitVec 38)) (s : State) : Out :=
  .next ((s.advance t).bar 9 (fun s => s.inspectionBatch c busy.toNat backlog.toNat finds measured rows))

/-! ### The batch in a pair (R325) -/

/-- A write of a BATCH: its index, its value, and the bits that it expects to replace. -/
def awOf (w : BitVec 128) : AutoWr := (bitsOf w.toNat 0 17, BitVec.ofNat 64 (bitsOf w.toNat 17 64), bitsOf w.toNat 81 37)

/-- A BATCH comes in: a STANDBY passes its writes to its own port at the same E, as engine 0. -/
def State.batchIn (s : State) (e : Nat) (ws : List (BitVec 128)) : State :=
  if s.role != roSTANDBY || ws.isEmpty then s
  else
    let s1 := s.setTwin { s.twin with batch := s.twin.batch ++ [countUp s.insp.writes ws.length] }
    s1.batchPass e 0 (ws.map awOf)

def execBatch (t : Nat) (seq : LinkHdr) (e : BitVec 40) (ws : List (BitVec 128)) (s : State) : Out :=
  .next ((s.advance t).recv seq (fun s => s.batchIn e.toNat ws))

/-- BATCHRES: the STANDBY's result for each write. -/
def execBatchres (t : Nat) (seq : LinkHdr) (codes : List (BitVec 8)) (s : State) : Out :=
  .next ((s.advance t).recv seq (fun s =>
    s.setInsp { s.insp with partner := s.insp.partner ++ [(seq.seq.toNat, codes.map (·.toNat))] }))

end Sys2Proof.Machine
end

