-- ==== Sys2Proof/Machine/JobRows.lean ====
section
/-! DEFINITION. The commands of the command ring (R60 to R63), and the end of a DISARM. -/

namespace Sys2Proof.Machine

open Sys2Proof

/-- ARM (R61, R367): from Ready the device first returns to Run. -/
def State.armCmd (s : State) (raw : BitVec 256) : State × Option Nat :=
  let s0 := if s.fld PWR_STAT_STATE = 1 then s.setFld PWR_STAT_STATE 0 else s
  match s0.armCheck with
  | some (c, s1) => (s1, some c)
  | none => ((s0.armNow (cSeed raw)).readyShow, some 0)

def execArm (raw : BitVec 256) (s : State) : Out := ofRow (isCmd 1 raw) "ARM" (s.command raw (fun s _ => s.armCmd raw))

/-- The job of a DISARM is over. -/
def State.jobDone (s : State) : State := s.jobOver.readyShow

/-- DISARM (R62, R256): each live head ends at its own line E; with the origin awaited, or during a splice, at once. -/
def State.disarmCmd (s : State) (raw : BitVec 256) (slot : Nat) : State × Option Nat :=
  if !s.armed then (s, some 0x41)
  else if s.on FIR_STATE_NOORG || s.splice.active || decide (2 ≤ s.fld TRN_STATE_SEQ) then
    ((s.liveHeads.foldl (fun s h => s.endHere h) s).jobDone, some 0)
  else
    let s1 := s.liveHeads.foldl (fun s h => s.endHead h (cLine raw)) s
    (s1.setHif { s1.hostIf with disarm := some (raw, slot) }, none)

def execDisarm (raw : BitVec 256) (s : State) : Out :=
  ofRow (isCmd 2 raw) "DISARM" (s.command raw (fun s slot => s.disarmCmd raw slot))

/-- DISARM_COMPLETE (R62): every unit has passed its end line. -/
def State.disarmDone (s : State) : State :=
  match s.hostIf.disarm with
  | some (raw, slot) =>
    if s.armed && s.liveHeads.all (fun h => s.headEnded h) then
      let s1 := s.jobDone
      (s1.setHif { s1.hostIf with disarm := none }).cmdEnd slot (cStream raw) 0 (cLine raw) (cTag raw)
    else s
  | none => s

def execDisarmComplete (s : State) : Out := .next s.disarmDone

/-- Stream `st` returns to RUN from HALTED, fetching entry number `c` next; after an OVERRUN it waits for a consistent PROD
(R73). HCODE and HIDX keep what the halt put there: that RESTART clears the
ring-level errors is read as the end of the halt (DEDUCED, log entry 31). -/
def State.unhalt (s : State) (st : Nat) (c : Word) : State :=
  let s1 := s.setReg (STR_CONS st) c
  if s1.overrun st then s1.modStrm st (fun x => { x with rwait := true })
  else ((s1.modStrm st (fun x => { x with halt := none, rwait := false })).setFld (STR_STATE_STATE st) stRUN).holdState st

/-- The slot at which stream `st` halted (R71, R73). -/
def State.haltSlot (s : State) (st : Nat) : Word :=
  if (s.strm st).halt.isSome then s.reg (STR_CONS st) - 1#32 else s.reg (STR_CONS st)

/-- RESTART (R63). -/
def State.restartCmd (s : State) (st : Nat) : State × Option Nat :=
  if s.strState st != stHALTED then (s, some 0x44) else (s.unhalt st (s.haltSlot st), some 0)

def execRestart (raw : BitVec 256) (s : State) : Out :=
  ofRow (isCmd 3 raw) "RESTART" (s.command raw (fun s _ => s.restartCmd (cStream raw)))

/-- The lines of the halting descriptor print blank (R63, R72, R88). -/
def State.skipLines (s : State) (st : Nat) : State :=
  match (s.strm st).halt with
  | some raw =>
    if (dOp raw == 1 || dOp raw == 5) && s.armed && !s.on (STR_CTL_KIND st) && s.fld (STR_STATE_HCODE st) != 0x19 then
      s.place st (dLine raw) (dCount raw) (dOp raw == 1 && dEnd raw) .blank
    else s
  | none => s

/-- SKIP (R63). -/
def State.skipCmd (s : State) (st : Nat) : State × Option Nat :=
  if s.strState st != stHALTED then (s, some 0x44) else ((s.skipLines st).unhalt st (s.haltSlot st + 1#32), some 0)

def execSkip (raw : BitVec 256) (s : State) : Out :=
  ofRow (isCmd 4 raw) "SKIP" (s.command raw (fun s _ => s.skipCmd (cStream raw)))

/-- STATUS (R60, R74). -/
def execStatus (raw : BitVec 256) (s : State) : Out :=
  ofRow (isCmd 5 raw) "STATUS" (s.command raw (fun s _ => (s.statusBlock, some 0)))

/-- NOP (R60). -/
def execNop (raw : BitVec 256) (s : State) : Out := ofRow (isCmd 6 raw) "NOP" (s.command raw (fun s _ => (s, some 0)))

/-- BADCMD (R60): a reserved code, or bytes that must be 0 and are not. -/
def execBadcmd (raw : BitVec 256) (s : State) : Out :=
  ofRow (!(List.range 7).any (fun k => decide (1 ≤ k) && isCmd k raw)) "BADCMD" (s.command raw (fun s _ => (s, some 0x45)))

end Sys2Proof.Machine
end

