-- ==== Sys2Proof/Machine/StoreWin.lean ====
section
/-! DEFINITION. Memory integrity as commands meet it: the swath store through BAR2 (R121, R389), merge commits (R389),
scrubbing (R390), the flip mask (R393, R394) and the retention SRAM's window (R381). -/

namespace Sys2Proof.Machine

open Sys2Proof

/-! ### Hearth private SRAM (R383, R386, R389, R393, R397): words of 32 bits that Hearth firmware reads and writes -/

def State.hsWord (s : State) (k : Nat) : MWord := s.tabs.hsram.get (fun _ => zeroWord) k
def State.setHs (s : State) (k : Nat) (w : MWord) : State :=
  s.setTabs { s.tabs with hsram := s.tabs.hsram.set (fun _ => zeroWord) k w }

/-- A read of word `k` (R384). -/
def State.hsTouch (s : State) (k : Nat) : State :=
  let w := s.hsWord k
  if w.unc || w.cor then (s.eccNote memHEARTH 0 (4 * k) w).setHs k (w.healed s.corrWb) else s

/-- Its merge buffer commits (R389). -/
def State.hsMerge (s : State) : State :=
  match s.mergeBuf memHEARTH with
  | none => s
  | some b =>
    let s1 := s.setMerge memHEARTH none
    if b.mask = 15 then
      let c := s1.commitWord 3 32 (BitVec.ofNat 64 b.val)
      c.2.setHs b.key c.1
    else
      let s2 := s1.hsTouch b.key
      let o := (s2.hsWord b.key).out
      let v := BitVec.ofNat 64 (mergeBytes o.1.toNat b.val b.mask)
      let c := s2.commitWord 3 32 v
      if o.2 then (c.2.countReg ECC_MERGEASH 1).setHs b.key (MWord.marked c.1.raw) else c.2.setHs b.key c.1

/-- A read or a write reaches word `k` of it. -/
def State.hsAway (s : State) (k : Nat) : State :=
  match s.mergeBuf memHEARTH with
  | some b => if b.key = k then s else s.hsMerge
  | none => s



/-- Firmware stores `len` bytes `v` at byte `a`, within one word. -/
def State.hsPut (s : State) (a len v : Nat) : State :=
  if !s.firmwareOn || decide (len = 0) || decide (4 < a % 4 + len) || decide (0x80000 ≤ a) then s
  else
    let s1 := s.hsAway (a / 4)
    let b := ((s1.mergeBuf memHEARTH).getD ⟨a / 4, 0, 0, s1.clk⟩).add (a % 4) len v s1.clk
    let s2 := s1.setMerge memHEARTH (some b)
    if b.mask = 15 then s2.hsMerge else s2

/-- Firmware loads `len` bytes at byte `a`. A marked word is consumed with a firmware exception (R386, R400). -/
def State.hsGet (s : State) (a len : Nat) : State :=
  if !s.firmwareOn || decide (len = 0) || decide (4 < a % 4 + len) || decide (0x80000 ≤ a) then { s with readData := 0#64, readEP := false }
  else
    let k := a / 4
    let s1 := (s.hsAway k).hsTouch k
    let o := (s1.hsWord k).out
    let v := match s1.mergeBuf memHEARTH with
      | some b => if b.key = k then mergeBytes o.1.toNat b.val b.mask else o.1.toNat
      | none => o.1.toNat
    let s2 := if o.2 then s1.ashUsed.count SVC_HEXC_COUNT 1 else s1
    { s2 with readData := BitVec.ofNat 64 (bitsOf v (8 * (a % 4)) (8 * len)), readEP := o.2 }

/-! ### BAR2 (R121) -/

/-- The store byte address of BAR2 offset `off`, where the window serves it. -/
def State.bar2Addr (s : State) (off len : Nat) : Option Nat :=
  let a := s.fld SWS_WIN_BASE * 2 ^ 26 + off
  if s.storeReady && s.on SWS_CTL_WINEN && decide (a + len ≤ s.storeSize) then some a else none

/-- A write of `len` bytes `v` at BAR2 offset `off`, within one word. -/
def State.bar2Write (s : State) (off len v : Nat) : State :=
  if s.armed then s.swsErr erARMED 0
  else
    match s.bar2Addr off len with
    | none => s
    | some a =>
      let k := a / 8
      let s1 := (s.storeAway k).countReg (SWS_BW 5) 1
      let b := ((s1.mergeBuf memSTORE).getD ⟨k, 0, 0, s1.clk⟩).add (a % 8) len v s1.clk
      let s2 := s1.setMerge memSTORE (some b)
      if b.mask = 255 then s2.storeMerge else s2

/-- A read of `len` bytes at BAR2 offset `off`: buffered bytes lie over the stored ones, and a marked or uncorrectable word returns with the
EP bit (R121, R389). What the device keeps, or has left behind (R106), in a partition reads as a free value (log entries 5 and 37), marked or
not. -/
def State.bar2Read (s : State) (off len : Nat) : State :=
  match s.bar2Addr off len with
  | none => { s with readData := 0#64, readEP := false }
  | some a =>
    let k := a / 8
    let s0 := s.storeAway k
    let u := s0.unplaced k
    let s1 := (s0.wordTouch k).countReg (SWS_BW 5) 1
    let f := s1.draw
    let g := f.2.draw
    let o := if u then (f.1, g.1.getLsbD 0 || (s0.latWord k).unc) else (s1.storeWord k).out
    let s2 := if u then g.2 else s1
    let v := match s2.mergeBuf memSTORE with
      | some b => if b.key = k then mergeBytes o.1.toNat b.val b.mask else o.1.toNat
      | none => o.1.toNat
    { s2.ashSent o.2 with readData := BitVec.ofNat 64 (bitsOf v (8 * (a % 8)) (8 * len)), readEP := o.2 }

/-- BAR2_WINDOW_WRITE (R121): `len` bytes at an offset of the window, within one word of 8 bytes. -/
def execBar2WindowWrite (t : Nat) (off : BitVec 26) (len : Fin 9) (v : BitVec 64) (s : State) : Out :=
  let s1 := s.advance t
  .next (if len.val = 0 ∨ 8 < off.toNat % 8 + len.val then s1 else s1.bar2Write off.toNat len v.toNat)

/-! ### MERGE_COMMIT (R389) -/

/-- The merge buffer of memory `mem` commits when its last write is 4 µs old. -/
def State.mergeTimeout (s : State) (mem : Nat) : State :=
  match s.mergeBuf mem with
  | some b => if b.at_ + usClk 4 ≤ s.clk then (if mem = memSRAM then s.mergeCommit else if mem = memSTORE then s.storeMerge else s.hsMerge) else s
  | none => s

/-- MERGE_COMMIT; the other occasions of a commit are part of the accesses that bring them. -/
def execMergeCommit (t : Nat) (mem : Fin 3) (s : State) : Out := .next ((s.advance t).mergeTimeout mem)

/-! ### Scrubbing (R390) -/

/-- Timers that pace the scrub of the on-chip SRAM and of the store. -/
def tmScrub (mem : Nat) : Nat := 4000 + mem

/-- The scrubber's next step on memory `mem` is due. -/
def State.scrubDue (s : State) (mem : Nat) : Bool :=
  s.on ECC_CTL_SCRUBEN && s.awake && s.on RST_STAT_DONE &&
  (if mem = memSRAM then s.timerOver (tmScrub mem) 16
   else s.storeReady && s.timerOver (tmScrub mem) (usClk (s.fld ECC_CTL_SCRUBPER)))

/-! What a command says of errors: bits of a word of some memory have changed by themselves. Reads find them (R384). -/

/-- The regions of the on-chip SRAM that are filled, in the order in which the scrubber takes them. -/
def scrubOrder : List Nat := [rgTABLE, rgSHADOW, rgCURVE, rgMATRIX, rgMAP, rgCAMERA]

/-- Words in all of them. -/
def sramWords : Nat := (scrubOrder.map filledWords).foldl (· + ·) 0

/-- The region and the word that scrub position `p` names. -/
def scrubPlace : List Nat → Nat → Nat × Nat
  | [], _ => (rgTABLE, 0)
  | r :: l, p => if p < filledWords r then (r, p) else scrubPlace l (p - filledWords r)

/-- Where byte `a` of a memory lies that holds lines or rows `ps` (their heads, places and flaws), each of `n` words: where an error is known
there, and else where free values `d` and `e` say, which may be nowhere, for the spec does not lay such a memory out (log entry 92). -/
def flawPlace (ps : List (Nat × Nat × List Flaw)) (n a d e : Nat) : Option (Nat × Nat × Nat) :=
  match ps.find? (fun p => p.2.2.any (fun f => f.addr == a)) with
  | some p => some (p.1, p.2.1, ((p.2.2.find? (fun f => f.addr == a)).map (fun f => f.idx)).getD 0)
  | none => (ps[d % (ps.length + 1)]?).map (fun p => (p.1, p.2.1, e % max 1 n))

/-- An error in byte `a` of the staging buffers. -/
def State.stagUpset (s : State) (a : Nat) (flips : BitVec 72) : State :=
  let d := s.draw
  let e := d.2.draw
  let ps := s.heads.flatMap (fun x => x.2.stag.zipIdx.map (fun g => (x.1, g.2, g.1.flaws)))
  match flawPlace ps 64 a d.1.toNat e.1.toNat with
  | none => e.2
  | some (h, i, w) =>
    let f := e.2.addFlaw (((s.head h).stag[i]?.map (fun g => g.flaws)).getD []) w a flips
    f.2.modHead h (fun x => { x with stag := x.stag.modify i (fun g => { g with flaws := f.1 }) })

/-- An error in byte `a` of the tile cache. -/
def State.tileUpset (s : State) (a : Nat) (flips : BitVec 72) : State :=
  let d := s.draw
  let e := d.2.draw
  let ps := s.heads.flatMap (fun x => x.2.tile.zipIdx.map (fun g => (x.1, g.2, g.1.flaws)))
  match flawPlace ps (2 ^ 17) a d.1.toNat e.1.toNat with
  | none => e.2
  | some (h, i, v) =>
    match (s.head h).tile[i]? with
    | none => e.2
    | some t =>
      let w := v % max 1 (ceilDiv t.pix.length 8)
      if (t.pix.drop (8 * w)).isEmpty || mAny ((t.pix.drop (8 * w)).take 8) then e.2
      else
        let f := e.2.addFlaw t.flaws w a flips
        f.2.modHead h (fun x => { x with tile := x.tile.modify i (fun t => { t with flaws := f.1 }) })

/-- An error in a region of the on-chip SRAM that is written before it is read: the staging buffers, the tile cache, a camera line buffer, or
the latch of the table port while it holds bytes. -/
def State.looseUpset (s : State) (r a : Nat) (flips : BitVec 72) : State :=
  if r = rgSTAGING then s.stagUpset a flips
  else if r = rgTILE then s.tileUpset a flips
  else if r = rgCAMERA then
    let f := s.addFlaw s.insp.lineErr (a / 8) a flips
    f.2.setInsp { s.insp with lineErr := f.1 }
  else if r = rgOTHER ∧ s.tabs.latch.isSome then
    let f := s.addFlaw [s.tabs.latchErr] 0 a flips
    f.2.setTabs { f.2.tabs with latchErr := f.1.head?.getD Flaw.none }
  else s

/-- Bits `flips` change at byte `a`: of region `r` of the on-chip SRAM (memory 0), or (memory 1) of the store, of Hearth private SRAM
or of the retention SRAM, for `r` 0, 1 and 2. -/
def State.upset (s : State) (mem r a : Nat) (flips : BitVec 72) : State :=
  if flips = 0#72 then s
  else if mem = memSRAM then
    (if a / 8 < filledWords r then
      let f := s.flipWord (s.regionWord r (a / 8)) flips
      f.2.regionPut r (a / 8) f.1
    else s.looseUpset r (8 * (a / 8)) flips)
  else if r = 0 then s.storeUpset (a / 8) flips
  else
    let g := flips &&& 0x7F00000000FFFFFFFF#72
    if r = 1 ∧ a < 0x80000 then
      let f := s.flipWord (s.hsWord (a / 4)) g
      f.2.setHs (a / 4) f.1
    else if r = 2 ∧ a < 0x4000 then
      let f := s.flipWord (s.retnWord (a / 4)) g
      f.2.setRetn (a / 4) f.1
    else s

/-- The scrubber reads the next word of the on-chip SRAM: a merge buffer that holds another word commits (R389). -/
def State.scrubSram (s : State) : State :=
  let p := scrubPlace scrubOrder s.power.scrub
  let s1 := match s.mergeBuf memSRAM with
    | some b => if s.sramPlace b.key = p then s else s.mergeCommit
    | none => s
  (s1.regionTouch p.1 p.2).setPower { s1.power with scrub := (s1.power.scrub + 1) % sramWords }

/-- It reads the next burst of 64 bytes of the store. -/
def State.scrubStore (s : State) : State :=
  let p := s.power.burst
  let s1 := match s.mergeBuf memSTORE with
    | some b => if b.key / 8 = p then s else s.storeMerge
    | none => s
  ((s1.countReg (SWS_BW 4) 1).storeTouchAll (64 * p) 64).setPower
    { s1.power with burst := if s1.storeSize ≤ 64 * (p + 1) then 0 else p + 1 }

/-- SCRUB_STEP (R390): the next word of the SRAM, or the next burst of the store, in turn. Which bits of which word have changed before
it comes with the sender. -/
def State.scrubStep (s : State) (mem r a : Nat) (flips : BitVec 72) : State :=
  if !s.scrubDue mem then s
  else
    let s1 := (s.upset mem r a flips).startTimer (tmScrub mem)
    if mem = memSRAM then s1.scrubSram else s1.scrubStore

def execScrubStep (t : Nat) (mem : Fin 2) (region : Fin 9) (a : BitVec 35) (flips : BitVec 72) (s : State) : Out :=
  .next ((s.advance t).scrubStep mem region a.toNat flips)

/-! ### The flip mask (R393, R394, R396) -/

/-- A write `v` of ECC_FLIPCTL by the host, or by Hearth firmware, which alone may set TARGET 11b. -/
def State.flipWrite (s : State) (v : Word) (hearth : Bool) : State :=
  if s.armed && v.getLsbD 2 then s.refuse erARMED ECC_FLIPCTL
  else
    let w := v &&& 0x1F#32
    s.setReg ECC_FLIPCTL (if bitsOf v.toNat 0 2 = 3 ∧ !hearth then putBits w 0 2 (s.fld ECC_FLIPCTL_TARGET) else w)

/-- ECC_FLIPCTL_WRITE. -/
def execEccFlipctlWrite (v : BitVec 32) (hearth : Bool) (s : State) : Out := .next (s.byWriter hearth (fun s => s.bar 16 (fun s => s.flipWrite v hearth)))

/-! ### The retention SRAM's window (R381, R393) -/

/-- A write of the word at byte offset `x` of the retention SRAM; the record's area takes none. -/
def State.retnPut (s : State) (x : Nat) (v : Word) : State :=
  if x < 0x400 then s
  else
    let c := s.commitWord 2 32 (v.zeroExtend 64)
    c.2.setRetn (x / 4) c.1

/-- A read of it: a marked word returns with the EP bit (R386). -/
def State.retnGet (s : State) (x : Nat) : State :=
  let s1 := s.retnTouch (x / 4)
  let o := (s1.retnWord (x / 4)).out
  { s1.ashSent o.2 with readData := BitVec.ofNat 64 (bitsOf o.1.toNat 0 32), readEP := o.2 }

end Sys2Proof.Machine
end

