-- ==== Sys2Proof/Machine/SvcRows.lean ====
section
/-! DEFINITION. Hearth, Kindling and service (R397 to R415): booting an image (R401 to R404), the mailbox and its commands (R406
to R408), head-memory pages (R197) and service authorisation (R409 to R413). -/

namespace Sys2Proof.Machine

open Sys2Proof

/-! ### Firmware images (R401 to R404) -/

/-- SVC_BOOTST.STATE. -/
def bsLOADING : Nat := 1
def bsVERIFYING : Nat := 2
def bsRUNNING : Nat := 3
def bsWAITHOST : Nat := 4

/-- Firmware runs. -/
def State.fwRuns (s : State) : Bool := s.fld SVC_BOOTST_STATE == bsRUNNING

/-- A number of `n` bytes at byte `k` of an image. -/
def imgField (img : List Byte) (k n : Nat) : Nat := leNat ((img.drop k).take n)

/-- The header of an image of at most `lim` bytes is sound (R402). -/
def imgFormatOk (img : List Byte) (lim : Nat) : Bool :=
  let len := imgField img 0x10 4
  imgField img 0 4 == 0x57465A44 && imgField img 4 2 == 1 && imgField img 6 2 == 0x6420 &&
  decide (128 ≤ len) && decide (len ≤ min lim (4 * mib)) && decide (imgField img 0x14 4 ≤ 480 * 1024) &&
  imgField img 0x14 4 + imgField img 0x18 4 + imgField img 0x1C 4 == len - 128 && (img.drop 0x24).take 28 == List.replicate 28 0#8

/-- Its CRC matches. -/
def imgCrcOk (img : List Byte) : Bool := imgField img 0x20 4 == (crc32 ((img.take (imgField img 0x10 4)).drop 0x80)).toNat

/-- The image at store address `a`, of `lim` bytes at most: its header tells how long it is. -/
def State.image (s : State) (a lim : Nat) : List Byte :=
  s.storeBytes a (min (min lim (4 * mib)) (max 128 (imgField (s.storeBytes a 128) 0x10 4)))

/-- The verdict on an image, as a CODE of SVC_BOOTST: 0 valid. `sig` says whether the signature verifies, which rests on a key
that Kindling holds. -/
def imgCode (img : List Byte) (lim : Nat) (sig : Bool) : Nat :=
  if !imgFormatOk img lim then 4 else if !imgCrcOk img then 2 else if !sig then 3 else 0

/-- The store address of a host image. -/
def State.bootAddr (s : State) : Nat := 64 * s.fld SVC_BOOTADDRLO_ADDR + 2 ^ 32 * s.fld SVC_BOOTADDRHI_ADDR

/-- The bytes at which sections of an image begin and end (R402): Hearth, Stoker, inspection engine. -/
def imgSection (img : List Byte) (k : Nat) : List Byte :=
  let a := 0x80 + ((List.range k).map (fun j => imgField img (0x14 + 4 * j) 4)).foldl (· + ·) 0
  (img.drop a).take (imgField img (0x14 + 4 * k) 4)

/-- Kindling copies the sections of `img` where they run (R402); `mk` says which bytes of it come from marked words, whose mark the copy keeps
(R385). -/
def State.imgCopy (s : State) (img : List Byte) (mk : Nat → Bool) : State :=
  let h := imgSection img 0
  let m := (List.range (ceilDiv h.length 4)).foldl (fun (m : SMap MWord) k =>
    let v := BitVec.ofNat 64 (leNat ((h.drop (4 * k)).take 4))
    m.set (fun _ => zeroWord) k (if mk (0x80 + 4 * k) then MWord.marked v else MWord.clean v)) s.tabs.hsram
  { s.setTabs { s.tabs with hsram := m } with stokerMem := imgSection img 1, engineMem := imgSection img 2 }

/-- Byte `a` of the store lies in a marked word, or in one with an uncorrectable error; of what the device keeps there, a free value says it. -/
def State.storeMarked (s : State) (a : Nat) : Bool :=
  if s.unplaced (a / 8) then (s.latWord (a / 8)).unc || (Config.freeStore (s.freeCtr + 1) (a / 8)).getLsbD 0 else (s.storeWord (a / 8)).out.2

/-- Firmware `img` of slot `slot` starts (R402); bytes `mk` of it come from marked words. -/
def State.fwStart (s : State) (slot : Nat) (img : List Byte) (mk : Nat → Bool) : State :=
  let s1 := (s.imgCopy img mk).setFld SVC_BOOTST_SLOT slot
  ((((s1.setFld SVC_BOOTST_CODE 0).setFld SVC_BOOTST_STATE bsRUNNING).setReg SVC_FWVER (BitVec.ofNat 32 (imgField img 8 4))).setReg
    SVC_FWSEQ (BitVec.ofNat 32 (imgField img 0xC 4))).goldTasks

/-- The image at the start of flash slot `k` (R403): a byte that is not programmed reads as FFh. -/
def State.flashImage (s : State) (k : Nat) : List Byte :=
  let bs := if k = 0 then s.flashA else s.flashB
  let rd := fun (n : Nat) => (bs ++ List.replicate (n - bs.length) 0xFF#8).take n
  rd (max 128 (min (4 * mib) (imgField (rd 128) 0x10 4)))

/-- The slot that Kindling boots (R403): the valid one with the higher sequence, slot A when the sequences are equal; none where neither
is valid. Bit `k` of `sigs` says that the signature in slot `k` verifies. -/
def State.flashChoice (s : State) (sigs : Nat) : Option Nat :=
  let ok := fun (k : Nat) => imgCode (s.flashImage k) (4 * mib) (bitAt sigs k) == 0
  let seq := fun (k : Nat) => imgField (s.flashImage k) 0xC 4
  if ok 0 && (!ok 1 || decide (seq 1 ≤ seq 0)) then some 0 else if ok 1 then some 1 else none

/-- IMAGE_VERIFY_DONE: Kindling has looked at the flash slots, or at the image in the store. `sigs` and `ok` are the verdicts on the
signatures, which rest on a key that Kindling holds; `a` and `b` are what slots hold that were programmed outside the device. -/
def State.imageDone (s : State) (sigs : Nat) (ok : Bool) (a b : Option (List Byte)) : State :=
  let s := (match a with | some x => s.setFlash 0 x | none => s)
  let s := (match b with | some x => s.setFlash 1 x | none => s)
  let q := s.fld SVC_BOOTST_STATE
  if !s.awake then s
  else if q = bsLOADING then
    match s.flashChoice sigs with
    | some k => s.fwStart k (s.flashImage k) (fun _ => false)
    | none => (s.setFld SVC_BOOTST_CODE 1).setFld SVC_BOOTST_STATE bsWAITHOST
  else if q = bsVERIFYING then
    let img := s.image s.bootAddr (4 * mib)
    let c := imgCode img (4 * mib) ok
    let s0 := s.storeTouchAll s.bootAddr img.length
    let s1 : State := { s0 with freeCtr := s0.freeCtr + 2 }
    if c = 0 then s1.fwStart 2 img (fun i => s.storeMarked (s.bootAddr + i)) else (s1.setFld SVC_BOOTST_CODE c).setFld SVC_BOOTST_STATE bsWAITHOST
  else s

def execImageVerifyDone (t : Nat) (sigs : BitVec 2) (ok : Bool) (a b : Option (List (BitVec 8))) (s : State) : Out :=
  .next ((s.advance t).imageDone sigs.toNat ok a b)

/-- A write of SVC_BOOT.GO (R404, R415): discarded while firmware runs, refused with CODE NOSTORE while the store is not filled. One that
comes while Kindling is at an image changes nothing (DESIGN CHOICE, log entry 94). -/
def State.bootGo (s : State) : State :=
  if s.armed then s.refuse erARMED SVC_BOOT
  else if s.fwRuns then s
  else if !s.on SYS_CAPS_DRAMOK then s.setFld SVC_BOOTST_CODE 5
  else if s.fld SVC_BOOTST_STATE != bsWAITHOST then s
  else ((s.storeMerge.setFld SVC_BOOTST_CODE 0).setFld SVC_BOOTST_STATE bsVERIFYING)

/-- SVC_BOOT_GO. -/
def execSvcBootGo (t : Nat) (s : State) : Out := .next ((s.advance t).bar 17 State.bootGo)

/-! ### The mailbox (R406 to R408) -/

/-- Byte `k` of SVC_MBXREQ. -/
def State.reqByte (s : State) (k : Nat) : Byte := BitVec.ofNat 8 (bitsOf (s.reg (SVC_MBXREQ (k / 4))).toNat (8 * (k % 4)) 8)

/-- Commands of R407. -/
def mcVERSION : Nat := 1
def mcHEADREAD : Nat := 2
def mcRANKWRITE : Nat := 3
def mcFLASHWRITE : Nat := 4
def mcOTPPROG : Nat := 5
def mcGOLDEN : Nat := 6
def mcRETRAIN : Nat := 7

/-- STATUS codes of R408. -/
def stsOK : Nat := 0x00
def stsBADCMD : Nat := 0x02
def stsBADARG : Nat := 0x03
def stsPROTECT : Nat := 0x04
def stsSEALED : Nat := 0x05
def stsARMED : Nat := 0x06
def stsNOHEAD : Nat := 0x07
def stsVERIFY : Nat := 0x08
def stsOTPFAIL : Nat := 0x09
def stsNOFW : Nat := 0x0A
def stsI2CERR : Nat := 0x0B

/-- This chip masters the management bus of port `p`, and the head there has a valid identity (R194, R408). -/
def State.headHere (s : State) (p : Nat) : Bool := s.on (HPT_HSTAT_IDOK p) && s.on (HPT_BUSST_MASTER (p / 8))

/-- Head-memory bytes `o` to `o + n - 1` lie in one held record (R407). -/
def inRecord (o n : Nat) : Bool := decide (o + n ≤ 0x40) || (decide (0x100 ≤ o) && decide (o + n ≤ 0xA20))

/-- Bits that programming `v` into OTP word `k` would have to clear. -/
def State.otpClears (s : State) (k : Nat) (v : Word) : Bool := (s.otp.get (fun _ => 0#32) k &&& ~~~v) != 0#32

/-- What the start of command `c` already decides, 0 for nothing (R401, R407, R411). -/
def State.mbxJudge (s : State) (c : Nat) : Nat :=
  let p := s.reqField 0 1
  if decide (7 < c) || c == 0 then (if s.fwRuns then stsBADCMD else stsNOFW)
  else if !s.fwRuns && c != mcVERSION && c != mcFLASHWRITE then stsNOFW
  else if 256 < s.fld SVC_MBXCMD_LEN then stsBADARG
  else if c = mcVERSION ∨ c = mcGOLDEN then 0
  else if c = mcHEADREAD then
    let n := s.reqField 3 2
    if decide (63 < p) || n == 0 || decide (256 < n) || !inRecord (s.reqField 1 2) n then stsBADARG
    else if !s.headHere p then stsNOHEAD else 0
  else if c = mcRANKWRITE then
    if decide (63 < p) || decide (s.storeSize < s.reqField 1 8 + 2336) then stsBADARG
    else if s.armed then stsARMED
    else if !s.headHere p then stsNOHEAD
    else if !s.authOk 3 p then stsPROTECT else 0
  else if c = mcFLASHWRITE then
    if decide (s.storeSize < s.reqField 0 8 + s.reqField 8 4) || s.reqField 8 4 == 0 || decide (4 * mib < s.reqField 8 4) then stsBADARG
    else if s.armed then stsARMED else if !s.authOk 2 0 then stsPROTECT else 0
  else if c = mcOTPPROG then
    if 63 < s.reqField 0 2 then stsBADARG else if s.armed then stsARMED else if !s.authOk 1 0 then stsPROTECT else 0
  else if c = mcRETRAIN then
    if 63 < p then stsBADARG else if s.armed then stsARMED else if !s.headHere p then stsNOHEAD else 0
  else stsBADCMD

/-- RETRAIN's port goes to TEST, at a hand-over slot where it drives, and training begins there (R183, R185, R407). -/
def State.retrainOn (s : State) (p : Nat) : State :=
  match s.svc.back with
  | some (m, false) =>
    if s.fld (HPT_CTL_MODE p) = 3 then (s.setSvc { s.svc with back := some (m, true) }).trainStart p else s
  | _ => s

/-- A protected command takes its authorisation when it starts (R409), OTPPROG its pulse, unless WRSEAL_N is high then (R412), and RETRAIN
puts the port of a disabled head unit in TEST (R407). -/
def State.mbxStart (s : State) (c : Nat) : State :=
  let k := s.reqField 0 2
  let v := BitVec.ofNat 32 (s.reqField 2 4)
  let p := s.reqField 0 1
  let s1 := if c = mcRANKWRITE ∨ c = mcFLASHWRITE ∨ c = mcOTPPROG then s.authUse else s
  if c = mcRANKWRITE then (s1.storeMerge.storeTouchAll (s.reqField 1 8) 2336).setSvc { s1.svc with page := true, pages := 0, nack := false, turn := false }
  else if c = mcOTPPROG ∧ !s.on SVC_ASTAT_SEALED ∧ !s.otpClears k v then s1.setSvc { s1.svc with pulse := some (k, v) }
  else if c = mcFLASHWRITE then s1.storeMerge
  else if c = mcRETRAIN ∧ !s.enAt p (s.head p).next then
    ((s1.setSvc { s1.svc with back := some (s.fld (HPT_CTL_MODE p), false) }).modeSet p 3).retrainOn p
  else s1

/-- A write of SVC_MBXCTL.GO (R406): the request is taken as it stands. -/
def State.mbxGo (s : State) : State :=
  if s.on SVC_MBXCTL_BUSY then s.refuse erBUSY SVC_MBXCTL
  else
    let c := s.fld SVC_MBXCMD_CMD
    let z := s.on SVC_ASTAT_SEALED
    let s0 := s.setSvc { s.svc with req := (List.range 16).map (fun k => s.reqByte k), hi := z, lo := !z, back := none }
    let j := s0.mbxJudge c
    let s1 := ((s0.setOn SVC_MBXCTL_GO).setOn SVC_MBXCTL_BUSY)
    let s2 := if j = 0 then s1.mbxStart c else s1
    s2.setSvc { s2.svc with cmd := some c, stat := j, tasks := s2.svc.tasks ++ [(2, c)] }

/-- A write of GO with command `c` in SVC_MBXCMD. -/
def State.mbxCmd (s : State) (c : Nat) : State := s.bar 17 (fun s => if s.fld SVC_MBXCMD_CMD = c then s.mbxGo else s)

def execVersion (t : Nat) (s : State) : Out := .next ((s.advance t).mbxCmd mcVERSION)
def execHeadread (t : Nat) (s : State) : Out := .next ((s.advance t).mbxCmd mcHEADREAD)
def execRankwrite (t : Nat) (s : State) : Out := .next ((s.advance t).mbxCmd mcRANKWRITE)
def execFlashwrite (t : Nat) (s : State) : Out := .next ((s.advance t).mbxCmd mcFLASHWRITE)
def execOtpprog (t : Nat) (s : State) : Out := .next ((s.advance t).mbxCmd mcOTPPROG)
def execGolden (t : Nat) (s : State) : Out := .next ((s.advance t).mbxCmd mcGOLDEN)
def execRetrain (t : Nat) (s : State) : Out := .next ((s.advance t).mbxCmd mcRETRAIN)

/-- MAILBOX_BADCMD (R408): GO with a reserved command. -/
def execMailboxBadcmd (t : Nat) (s : State) : Out :=
  .next ((s.advance t).bar 17 (fun s => if s.fld SVC_MBXCMD_CMD = 0 ∨ 7 < s.fld SVC_MBXCMD_CMD then s.mbxGo else s))

/-! ### Head-memory pages (R197) -/

/-- Hearth firmware reads `len` bytes `v` of the head memory of port `p` from offset `o` on, over a bus that this chip masters, and holds
them (R189). With the last byte of the identity record the port's registers follow it (R195), with that of the rank record RANKOK (R196), which
a bring-up reads after the PRBS run, as its step 7. This is work of class 3: golden words that wait are computed first, and it does not begin
while a mailbox command waits or runs (R399). -/
def State.headTake (s : State) (p o len v : Nat) : State :=
  if !s.firmwareOn || s.svc.cmd.isSome || !s.on (HPT_BUSST_MASTER (p / 8)) || s.buses.get (fun _ => 0) (p / 8) != 0 || decide (8192 < o + len) ||
      (decide (0x40 < o + len) && decide ((s.head p).up < 6)) then s
  else
    let s0 := s.serveGold s.svc.tasks.length
    let s1 := s0.putHeadBytes p o ((leBytes len v).map BitVec.toNat)
    let s2 := if o ≤ 0x3F ∧ 0x3F < o + len then (s1.headFill p).headSet p else s1
    if o ≤ 0xA1F ∧ 0xA1F < o + len then (s2.setBit (HPT_HSTAT_RANKOK p) (s2.rankOk p)).stepUp p 7 else s2

/-- A page of the rank record has been written, or has not been acknowledged within 10 ms. It waits for a poll that runs on the bus (R198), and
for golden words, which come first (R399). RANKOK follows the record's CRC (R196). -/
def State.pageWrite (s : State) (ok : Bool) : State :=
  let p := s.reqField 0 1
  if !s.awake || !s.svc.page || s.buses.get (fun _ => 0) (p / 8) != 0 then s
  else
    let s0 := s.serveGold s.svc.tasks.length
    if !ok then s0.setSvc { s0.svc with page := false, nack := true }
    else
      let k := s.svc.pages
      let bs := (s0.storeBytes (s.reqField 1 8 + 32 * k) 32).map BitVec.toNat
      let s1 := s0.putHeadBytes p (0x100 + 32 * k) bs
      (s1.setBit (HPT_HSTAT_RANKOK p) (s1.rankOk p)).setSvc { s1.svc with pages := k + 1, page := decide (k + 1 < 73), turn := true }

/-- HEAD_MEMORY_PAGE_WRITE. -/
def execHeadMemoryPageWrite (t : Nat) (ok : Bool) (s : State) : Out := .next ((s.advance t).pageWrite ok)

/-! ### The end of a command -/

/-- Place `bs` in SVC_MBXRSP; bytes beyond them stand (R406). -/
def State.putRsp (s : State) (bs : List Byte) : State :=
  (List.range bs.length).foldl (fun s i => s.setReg (SVC_MBXRSP (i / 4)) (putBits (s.reg (SVC_MBXRSP (i / 4))) (8 * (i % 4)) 8 (bs.getD i 0#8).toNat)) s

/-- SVC_ERR holds the refusals PROTECT and SEALED of a mailbox command, as refused writes of GO (R411, R414; DEDUCED, log entry 26). -/
def State.mbxRefused (s : State) (st : Nat) : State :=
  if st = stsPROTECT then s.refuse erPROTECT SVC_MBXCTL else if st = stsSEALED then s.refuse erSEALED SVC_MBXCTL else s

/-- The command ends with `st` and response `bs`. -/
def State.mbxEnd (s : State) (st : Nat) (bs : List Byte) : State :=
  let r := if st = stsOK then bs else []
  let s1 := (((s.mbxRefused st).putRsp r).setFld SVC_MBXCTL_RLEN r.length).setFld SVC_MBXCTL_STATUS st
  (((s1.setFld SVC_MBXCTL_GO 0).setFld SVC_MBXCTL_BUSY 0).setOn SVC_MBXCTL_DONE).setSvc { s1.svc with cmd := none, stat := 0, pulse := none, page := false, back := none, tasks := s1.svc.tasks.filter (fun k => k.1 != 2) }

/-- The response of VERSION: four words, and four that the spec leaves open (log entry 5). -/
def State.versionEnd (s : State) : State :=
  let d := (List.range 4).foldl (fun (a : List Byte × State) _ => let x := a.2.draw; (a.1 ++ leBytes 4 x.1.toNat, x.2)) ([], s)
  d.2.mbxEnd stsOK (leBytes 4 (s.reg SVC_FWVER).toNat ++ leBytes 4 (s.reg SVC_FWSEQ).toNat ++ leBytes 4 (s.fld SVC_KVER_VERSION) ++
    leBytes 4 (s.fld SVC_BOOTST_SLOT) ++ d.1)

/-- HEADREAD: bytes of the records that the device holds of the head (R189, R407). -/
def State.headreadEnd (s : State) : State :=
  s.mbxEnd stsOK (s.headBytes (s.reqField 0 1) (s.reqField 1 2) (s.reqField 3 2))



/-- RANKWRITE ends: `ok` says that what is read back is what was written. -/
def State.rankEnd (s : State) (ok : Bool) : State :=
  let p := s.reqField 0 1
  if s.svc.nack then s.mbxEnd stsI2CERR []
  else
    let good := s.rankOk p
    let s1 := s.setBit (HPT_HSTAT_RANKOK p) (ok && good)
    if ok && good then (s1.sendRank p).mbxEnd stsOK [] else s1.mbxEnd stsVERIFY []

/-- The seal has stopped the erase and program commands (R412): a slot that they had changed by then is left invalid. -/
def State.flashSealed (s : State) (data : List Byte) : State :=
  if data = s.flashImage s.flashTarget then s
  else s.setFlash s.flashTarget (if imgCode data (4 * mib) true = 0 then [] else data)

/-- WRSEAL_N has read high at one of the flash commands of a FLASHWRITE (R412): it has been high the whole time, or high and low, and then
`w` tells it. -/
def State.sealMet (s : State) (w : Bool) : Bool := s.svc.hi && (!s.svc.lo || w)

/-- FLASHWRITE ends: `sig` is the signature's verdict, `w` whether WRSEAL_N read high at one of its commands, `data` what the slot holds when it
is read back. -/
def State.flashEnd (s : State) (sig w : Bool) (data : List Byte) : State :=
  let n := s.reqField 8 4
  let img := s.image (s.reqField 0 8) n
  let s1 := s.storeTouchAll (s.reqField 0 8) n
  if imgCode img n sig ≠ 0 then s1.mbxEnd stsVERIFY []
  else if s1.sealMet w then (s1.flashSealed data).mbxEnd stsSEALED []
  else
    let s2 := (s1.setFlash s1.flashTarget data).setSvc { s1.svc with qspi := true }
    if data = img then s2.mbxEnd stsOK (leBytes 1 s2.flashTarget) else s2.mbxEnd stsVERIFY []

/-- OTPPROG ends: SEALED where WRSEAL_N kept its pulse from being given; `ok` is the read-back's verdict; after a failed one, which of the bits
are programmed is open (log entry 5). -/
def State.otpEnd (s : State) (ok : Bool) : State :=
  if s.otpClears (s.reqField 0 2) (BitVec.ofNat 32 (s.reqField 2 4)) then s.mbxEnd stsOTPFAIL []
  else match s.svc.pulse with
    | none => s.mbxEnd stsSEALED []
    | some (k, v) =>
      let d := s.draw
      let w := if ok then v else v &&& BitVec.ofNat 32 d.1.toNat
      let s1 := if ok then s else d.2
      ({ s1 with otp := s1.otp.set (fun _ => 0#32) k (s1.otp.get (fun _ => 0#32) k ||| w) } : State).mbxEnd (if ok then stsOK else stsOTPFAIL) []



/-- GOLDEN ends: every vector's word is that of the curves and matrices in effect (R146, R399). -/
def State.goldenEnd (s : State) : State :=
  let s1 := (List.range 16).foldl (fun s v => s.recompute v) s
  s1.mbxEnd stsOK (leBytes 2 (s1.fld KLN_EMBCTL_GOLDVAL))

/-- RETRAIN ends with the result of the training that it has run (R188), and its port goes back to the MODE it had; for an enabled head unit,
which it does not train, the result is LIVE. It goes on while training runs. -/
def State.retrainEnd (s : State) : State :=
  let p := s.reqField 0 1
  match s.svc.back with
  | none => s.mbxEnd stsOK (leBytes 1 trLIVE)
  | some (_, false) => s.retrainOn p
  | some (m, true) =>
    if s.on (HPT_TRAIN_BUSY p) then s
    else (if s.armed then s else s.modeSet p m).mbxEnd stsOK (leBytes 1 (s.fld (HPT_TRAIN_RESULT p)))

/-- A rank rewrite is still under way. -/
def State.rankBusy (s : State) : Bool := s.svc.cmd == some mcRANKWRITE && s.svc.stat == 0 && s.svc.page

/-- MAILBOX_COMMAND_END (R406), where Hearth runs (R24); golden words that wait come first (R399). `wrseal` says that WRSEAL_N read high at one of
its flash commands, `sig` and `ok` what was found outside the chip, `data` what is read back from the flash. -/
def State.mailboxEnd (s : State) (wrseal sig ok : Bool) (data : List Byte) : State :=
  match s.svc.cmd with
  | none => s
  | some c =>
    if 1 < s.fld PWR_STAT_STATE then s
    else
      let s := s.serveGold s.svc.tasks.length
      if s.svc.stat ≠ 0 then s.mbxEnd s.svc.stat []
      else if s.rankBusy then s
      else if c = mcVERSION then s.versionEnd
      else if c = mcHEADREAD then s.headreadEnd
      else if c = mcRANKWRITE then s.rankEnd ok
      else if c = mcFLASHWRITE then s.flashEnd sig wrseal data
      else if c = mcOTPPROG then s.otpEnd ok
      else if c = mcGOLDEN then s.goldenEnd
      else s.retrainEnd

def execMailboxCommandEnd (t : Nat) (wrseal sig ok : Bool) (data : List (BitVec 8)) (s : State) : Out :=
  .next ((s.advance t).mailboxEnd wrseal sig ok data)

/-! ### Service authorisation (R409 to R411) -/

/-- A write `v` of SVC_ARM by the host (R398, R410): a defined operation waits, OP 00h cancels, a reserved one changes
nothing. -/
def State.svcArm (s : State) (v : Word) : State :=
  let op := bitsOf v.toNat 0 8
  let port := bitsOf v.toNat 8 6
  if 5 < op then s.setFld SVC_ARM_PORT port
  else
    let s1 := s.setReg SVC_ARM (v &&& 0x3FFF#32)
    if op = 0 then s1.authIdle
    else (((((s1.setFld SVC_ASTAT_STATE auWAITING).setFld SVC_ASTAT_OP op).setFld SVC_ASTAT_PORT port).setFld SVC_ASTAT_REMAIN 30).startTimer tmAuth)

/-- SVC_ARM. -/
def execSvcArm (t : Nat) (v : BitVec 32) (s : State) : Out := .next ((s.advance t).bar 17 (fun s => s.svcArm v))

/-- The window of the authorisation in core clocks: 30 s to wait for a press, 60 s armed. -/
def State.authWindow (s : State) : Nat := if s.fld SVC_ASTAT_STATE = auWAITING then usClk 30000000 else usClk 60000000

/-- AUTHORISATION_LAPSE (R410): the window is over, its last clock included, in which a press still counts (DEDUCED, log entry 95). -/
def State.authLapse (s : State) : State :=
  if s.fld SVC_ASTAT_STATE ≠ auIDLE ∧ s.timers.get (fun _ => 0) tmAuth + s.authWindow < s.clk then s.authIdle.setOn SVC_ASTAT_LAPSED else s

def execAuthorisationLapse (t : Nat) (s : State) : Out := .next (s.advance t).authLapse

end Sys2Proof.Machine
end

