-- ==== Sys2Proof/Machine/RegOps.lean ====
section
/-! DEFINITION. What any register takes from a write and gives to a read (R5 to R7): reserved encodings, the discards of an armed
job (R421), the plain effect of a write, RC fields, and the registers whose value is computed when it is read. -/

namespace Sys2Proof.Machine

/-! ### Banks -/

/-- The instance of a register bank (first address, instances, spacing) that lies at offset `a`. -/
def bankAt (a base count stride : Nat) : Option Nat :=
  if base ≤ a ∧ (a - base) % stride = 0 ∧ (a - base) / stride < count then some ((a - base) / stride) else none

/-- Offset `a` lies in one of these banks. -/
def inBanks (bs : List (Nat × Nat × Nat)) (a : Nat) : Bool := bs.any (fun b => (bankAt a b.1 b.2.1 b.2.2).isSome)

/-! ### Reserved encodings (R5) -/

/-- The values that a field may take: a bank, the field's place, and its least and greatest value. -/
structure Legal where
  base   : Nat
  count  : Nat
  stride : Nat
  lo     : Nat
  width  : Nat
  least  : Nat
  most   : Nat
  deriving DecidableEq, Repr

/-- Fields with reserved encodings whose rule is no more than R5's: the field keeps its previous value. -/
def legals : List Legal := [
  ⟨HIF_POLLPER, 1, 4, 0, 12, 1, 4000⟩, ⟨HIF_STATPER, 1, 4, 0, 17, 10, 100000⟩, ⟨HIF_CMDCTL, 1, 4, 1, 4, 0, 8⟩,
  ⟨KLN_COLS, 1, 4, 0, 18, 0, 131072⟩, ⟨KLN_MTXCFG, 1, 4, 0, 3, 0, 4⟩, ⟨KLN_MTXCFG, 1, 4, 4, 3, 0, 4⟩,
  ⟨KLN_MTXCFG, 1, 4, 8, 3, 0, 4⟩, ⟨KLN_MTXCFG, 1, 4, 12, 3, 0, 4⟩, ⟨KLN_EMBCTL, 1, 4, 4, 4, 1, 12⟩,
  ⟨HPT_RATE 0, 64, 256, 0, 2, 0, 2⟩, ⟨HPT_RETCFG 0, 64, 256, 8, 2, 0, 2⟩,
  ⟨POS_SPDAVG, 1, 4, 0, 9, 1, 256⟩, ⟨POS_STILLTO, 1, 4, 0, 20, 1, 1000000⟩, ⟨POS_REVWIN, 1, 4, 0, 16, 1, 65535⟩,
  ⟨FIR_CTL, 1, 4, 1, 2, 0, 2⟩, ⟨FIR_CPL, 1, 4, 0, 32, 0x4000, 0xFFFFFFFF⟩, ⟨FIR_SCANCFG, 1, 4, 0, 2, 0, 2⟩,
  ⟨TRN_SLEW, 1, 4, 0, 4, 1, 15⟩, ⟨TRN_SLEW, 1, 4, 4, 4, 1, 15⟩, ⟨TRN_SLEW, 1, 4, 8, 4, 1, 15⟩,
  ⟨INS_RQCTL, 1, 4, 1, 4, 0, 12⟩, ⟨INS_STRIP, 1, 4, 24, 6, 4, 32⟩, ⟨INS_STRIP, 1, 4, 30, 2, 1, 3⟩,
  ⟨INS_RCHAN 0, 4, 64, 0, 2, 0, 2⟩, ⟨CAM_TRIG 0, 2, 512, 0, 2, 0, 2⟩,
  ⟨TIM_CTL, 1, 4, 0, 8, 1, 255⟩, ⟨CRD_SCHED, 1, 4, 0, 2, 0, 1⟩, ⟨TWN_HB, 1, 4, 0, 8, 2, 255⟩,
  ⟨RST_WDCFG, 1, 4, 0, 16, 1, 65535⟩, ⟨ECC_CTL, 1, 4, 8, 8, 1, 255⟩,
  ⟨UNT_THERM 127, 1, 4, 0, 2, 1, 3⟩, ⟨UNT_THERM 127, 1, 4, 8, 8, 1, 255⟩, ⟨UNT_SLEW 127, 1, 4, 0, 4, 1, 15⟩]

/-- The value that the register at `a` takes when its fields would become those of `new`. -/
def keepReserved (a : Nat) (old new : Word) : Word :=
  legals.foldl (fun w r =>
    if (bankAt a r.base r.count r.stride).isSome &&
        !(decide (r.least ≤ bitsOf w.toNat r.lo r.width) && decide (bitsOf w.toNat r.lo r.width ≤ r.most))
    then putBits w r.lo r.width (bitsOf old.toNat r.lo r.width) else w) new

/-! ### Writes discarded while a job is armed (R421) -/

/-- Banks of registers to which a write during a job is discarded as ARMED, by R64, R151, R203, R226, R244, R262, R287, R315, R342
and R415. -/
def frozenBanks : List (Nat × Nat × Nat) := [
  (STR_BASELO 0, 128, 64), (STR_BASEHI 0, 128, 64),
  (KLN_CTL, 4, 4), (KLN_MTXSEL 0, 4, 4), (KLN_EMBCTL, 1, 4),
  (HPT_CTL 0, 64, 256), (HPT_RATE 0, 64, 256), (HPT_TIME 0, 64, 256), (HPT_FIRE 0, 64, 256), (HPT_LANEMAP 0, 64, 256),
  (HPT_RETDLY 0, 64, 256), (HPT_TEST 0, 64, 256), (HPT_HOGAP, 1, 4), (POS_REVWIN, 1, 4),
  (FIR_CTL, 6, 4), (FIR_SCANCFG, 5, 4), (FIR_PMASKLO 0, 16, 8), (FIR_PMASKHI 0, 16, 8),
  (TRN_CTL, 2, 4), (TRN_BACKUP, 2, 4), (TRN_MAN, 2, 4), (TRN_VLIM 0, 3, 4), (TRN_BKMAX 0, 3, 4),
  (INS_RQLO, 3, 4), (INS_STRIP, 2, 4), (INS_RCHAN 0, 4, 64), (INS_RLIM 0, 4, 64), (INS_RTRIM 0, 4, 64), (INS_RCYC 0, 4, 64),
  (INS_RSTREAK 0, 4, 64), (CAM_GEOM 0, 20, 4), (CAM_GEOM 1, 20, 4), (CAM_FRAME 0, 2, 512),
  (TIM_INC 0, 1, 4), (CRD_SYNC, 2, 4), (TWN_HB, 1, 4), (TWN_POLICY 0, 3, 4), (SVC_BOOTADDRLO, 2, 4)]

/-- Is a write at `a` discarded while a job is armed? Of the host interface only HIF_CTL, HIF_POLLPER and HIF_STATPER stay
writable (R64); every context register of a unit is frozen (R32). The effective registers of a unit are RO, and a write of one is no
discarded write of a context register: it records nothing (DESIGN CHOICE, log entry 23). -/
def frozen (a : Nat) : Bool :=
  if a < 0x20000 then decide (0x10000 ≤ a) && a != HIF_CTL && a != HIF_POLLPER && a != HIF_STATPER
  else if 0x30000 ≤ a ∧ a < 0x34000 then decide (a % 128 < 0x20)
  else inBanks frozenBanks a

/-- Record the discard of a write at `a`: a unit's in UNT_ERR (R32, R45), any other in its block's error register. -/
def State.armedAt (s : State) (a : Nat) : State :=
  if 0x30000 ≤ a ∧ a < 0x34000 then s.unitErr erARMED ((a - 0x30000) / 128) else s.refuse erARMED a

/-! ### The plain effect of a write (R6, R7) -/

/-- The value of a register in which a write puts `v` into the enabled bits `m` of its RW fields. -/
def RegRow.merged (r : RegRow) (old m v : Word) : Word :=
  let rw := BitVec.ofNat 32 r.rw
  (old &&& rw &&& ~~~m) ||| (v &&& m)

/-- RW fields take what is written, W1C bits written as 1 clear unless hardware has set them in this very core clock, W1S bits written as 1
are set; nothing else changes. A value outside a range that the table states without calling the rest reserved is stored as written:
HPT_TIME, HPT_TEST.PER, HPT_TCFG, HPT_RETCFG.LIMIT, CRD_SYNC, PWR_WAKECNT and their like (DESIGN CHOICE, log entry 24). -/
def State.plainWrite (s : State) (a : Nat) (r : RegRow) (m v : Word) : State :=
  let old := s.reg a
  let rw := BitVec.ofNat 32 r.rw &&& m
  let new := keepReserved a old ((old &&& ~~~rw) ||| (v &&& rw))
  let w1c := v &&& m &&& BitVec.ofNat 32 r.w1c
  let s1 := s.setReg a ((new &&& ~~~(s.stood a w1c)) ||| (v &&& m &&& BitVec.ofNat 32 r.w1s))
  if w1c = 0#32 then s1 else s1.standing a

/-! ### Registers whose value is computed when it is read -/

/-- The value of a 32-bit register from an integer. -/
def wordOf (i : Int) : Word := BitVec.ofNat 32 (unsign 32 i)

/-- Seconds left of an authorisation's window (R410). -/
def State.authRemain (s : State) : Nat :=
  if s.fld SVC_ASTAT_STATE = auIDLE then 0
  else ceilDiv (s.timers.get (fun _ => 0) tmAuth + s.authWindow - s.clk) (usClk 1000000)

/-- A stored register, with the fields that follow something else put in (R410, R414). -/
def State.liveSvc (s : State) (a : Nat) : Word :=
  if a = SVC_ASTAT then putBits (s.reg a) 24 8 s.authRemain
  else if a = SVC_MBXCTL then putBits (s.reg a) 0 1 (s.fld SVC_MBXCTL_BUSY)
  else s.reg a

/-- The position registers (R211, R212): a HI register holds what its LO register latched. -/
def State.livePos (s : State) (a : Nat) : Word :=
  let hi := fun k => s.pos.lat.get (fun _ => 0#32) k
  if a = POS_SNAPHI then hi 5 else if a = POS_CNTHI then hi 0 else if a = POS_TRAVHI then hi 1 else if a = POS_HWMHI then hi 2
  else if a = POS_ZACCHI then hi 3 else if a = POS_ZCAPHI then hi 4
  else match bankAt a (POS_CHCNT 0) 3 4 with
    | some c => wordOf (s.pos.chan c)
    | none => s.reg a

/-- The time bases and the forerunner counter (R289, R291, R294). -/
def State.liveTim (s : State) (a : Nat) : Word :=
  if a = TIM_FRCHI then BitVec.ofNat 32 (s.times.frcLat / 2 ^ 56)
  else if a = TIM_FRCFRAC then BitVec.ofNat 32 (s.times.frcLat % 2 ^ 24)
  else match bankAt a (TIM_TB 0) 4 32, bankAt a (TIM_ADJREM 0) 4 32 with
    | some b, _ => s.tb b
    | _, some b => wordOf (s.times.rem.get (fun _ => 0) b / 2 ^ 24)
    | _, _ => s.reg a

/-- The store's accounting (R116, R122). -/
def State.liveSws (s : State) (a : Nat) : Word :=
  match bankAt a (SWS_PUSE 0) 32 16, bankAt a (SWS_HIST 0) 128 4, bankAt a (SWS_RDLINE 0) 64 4 with
  | some i, _, _ => BitVec.ofNat 32 (s.partUsed i)
  | _, some st, _ => if s.armed then BitVec.ofNat 32 (s.swsHist st) else s.reg a
  | _, _, some h => if s.armed then BitVec.ofNat 32 (s.readLine h) else s.reg a
  | _, _, _ => s.reg a

/-- The value of the register at `a` as it stands. HPT_HSTAT reads 0 while no firmware runs (R405). -/
def State.live (s : State) (a : Nat) : Word :=
  if 0x20000 ≤ a ∧ a < 0x30000 then
    (match bankAt a (STR_FILL 0) 128 64 with | some st => BitVec.ofNat 32 (s.fillNow st) | none => s.reg a)
  else if 0x180000 ≤ a ∧ a < 0x190000 then s.liveSws a
  else if (bankAt a (HPT_HSTAT 0) 64 256).isSome then (if s.fwRuns then s.reg a else 0#32)
  else if 0x1a0000 ≤ a ∧ a < 0x1b0000 then s.livePos a
  else if 0x1e0000 ≤ a ∧ a < 0x1f0000 then s.liveTim a
  else if 0x240000 ≤ a ∧ a < 0x250000 then s.liveSvc a
  else if a = NZT_RELOAD then s.reloadWord
  else s.reg a

/-! ### Reads of RC fields (R7) -/

/-- The RC fields of the register in row `r` at `a`, as masks: two registers hold several. -/
def rcFields (a : Nat) (r : RegRow) : List Nat :=
  if a = POS_ILLCNT then [0xFF, 0xFF00, 0xFF0000] else if a = POS_REVCNT then [0xFFFF, 0xFFFF0000] else [r.rc]

/-- What is left of the counting field `f` of register `a` by a read that clears it: the events of the read's own core clock (R7). -/
def State.countKept (s : State) (a f : Nat) : Word :=
  let m := BitVec.ofNat 32 f
  let now := s.reg a &&& m
  let was := s.times.was.get regReset a &&& m
  if was ≤ now then now - was else now

/-- Every RC field of which the read of bits `m` covers a byte is cleared, whole. -/
def State.clearRead (s : State) (a : Nat) (r : RegRow) (m : Word) : State :=
  let hit := (rcFields a r).filter (fun f => BitVec.ofNat 32 f &&& m != 0#32)
  if hit.isEmpty then s
  else (s.setReg a (hit.foldl (fun w f => (w &&& ~~~(BitVec.ofNat 32 f)) ||| s.countKept a f) (s.reg a))).standing a

/-- Bits of the register at `a` that show what no command brings: HOLD_N as other devices drive it, where this chip does not drive
it low (R261). -/
def State.unseen (s : State) (a : Nat) : Word :=
  if a = TRN_STATE ∧ !s.on TRN_STATE_HOLDIN then fldMask TRN_STATE_HOLDIN else 0#32

/-- The value read: WO fields read 0 (R7), and reserved bits and unseen ones have a free value (R5, log entry 5). -/
def State.shown (s : State) (a : Nat) (r : RegRow) : Word × State :=
  let v := s.live a &&& ~~~(BitVec.ofNat 32 r.wo)
  let res := BitVec.ofNat 32 r.res ||| s.unseen a
  if res = 0#32 then (v, s)
  else
    let d := s.draw
    ((v &&& ~~~res) ||| (d.1.truncate 32 &&& res), d.2)

end Sys2Proof.Machine
end

