-- ==== Sys2Proof/Machine/TransRows.lean ====
section
/-! DEFINITION. The transport commands (R251 to R259). -/

namespace Sys2Proof.Machine

open Sys2Proof

/-- SPLICE_REQUEST (R251). -/
def execSpliceRequest (s : State) : Out := .next s.spliceRequest

/-- DRIVE_READY_CHANGE (R251): the level of DRIVE_READY_N, low when the drive is ready. The motion timeout of R258, which a DRIVE
cause never lets run out, starts anew as the drive becomes ready (DESIGN CHOICE, log entry 17). -/
def State.driveReady (s : State) (low : Bool) : State :=
  let s1 := s.setBit TRN_STATE_DRVRDY low
  if low then
    (let s2 := s1.dropCause 4
     if s.on TRN_STATE_DRVRDY then s2 else s2.setSplice { s2.splice with since := s2.clk })
  else if s.armed then s1.raiseCause 4 else s1

def execDriveReadyChange (low : Bool) (s : State) : Out := .next (s.driveReady low)

/-- The master's sequence is in state `q`. -/
def State.inSeq (s : State) (q : Nat) : Bool := s.armed && s.actMaster && s.fld TRN_STATE_SEQ == q

/-- START_TO_IDLE (R253): the drive is ready and every cause is clear on every chip. -/
def State.startToIdle (s : State) : State :=
  let s1 := s.causeCheck
  if s1.inSeq 1 && s1.on TRN_STATE_DRVRDY && s1.allClear then (s1.setSplice { s1.splice with taken := 0, causes := 0, reps := s1.splice.reps.map (fun r => (r.1, { r.2 with asked := false })) }).seqTo 0
  else s1

def execStartToIdle (s : State) : Out := .next s.startToIdle

/-- STOP_SETTLED (R253): the web has stood still for TRN_SETTLE ms. -/
def State.stopSettled (s : State) : State :=
  if s.inSeq 2 && s.settled then (if s.noRev then s.seqTo 4 else s.toBack) else s

def execStopSettled (t : Nat) (s : State) : Out := .next (s.advance t).stopSettled

/-- BACK_TARGET_REACHED (R254). -/
def State.backReached (s : State) : State :=
  if s.inSeq 3 && decide (diff48 s.pos.t s.splice.target ≤ 0) then s.seqTo 4 else s

def execBackTargetReached (s : State) : Out := .next s.backReached

/-- WAIT_TO_APPROACH (R253, R256): at rest, every cause clear on every chip, and a rewind that was requested taken. -/
def State.waitToApproach (s : State) : State :=
  let s1 := s.causeCheck
  if s1.inSeq 4 && s1.settled && s1.allClear && s1.pos.rewind.isNone then s1.toApproach else s1

def execWaitToApproach (t : Nat) (s : State) : Out := .next (s.advance t).waitToApproach

/-- APPROACH_TO_IDLE (R253, R260). -/
def State.approachToIdle (s : State) : State := if s.inSeq 5 && s.resumed then s.toIdle else s

def execApproachToIdle (s : State) : Out := .next s.approachToIdle

/-- SPLICE_FAULT (R258): a web that does not stop, or does not come back, in time. A DRIVE cause never causes FAULT. -/
def State.spliceFault (s : State) : State :=
  let late := decide (s.splice.since + usClk (1000 * s.fld TRN_MOVETO_MS) ≤ s.clk) && s.on TRN_STATE_DRVRDY
  if s.inSeq 2 && late && !s.on POS_SPEEDST_STILL then (s.setFld TRN_STATE_FLT 0).seqTo 6
  else if s.inSeq 3 && late && decide (0 < diff48 s.pos.t s.splice.target) then (s.setOn TRN_STATE_FLT).seqTo 6
  else s

def execSpliceFault (t : Nat) (s : State) : Out := .next (s.advance t).spliceFault

end Sys2Proof.Machine
end

