-- ==== Sys2Proof/Machine/TrimRows.lean ====
section
/-! DEFINITION. The trim converter commands (R346 to R354) and the slew of the speed demand (R246, R248). -/

namespace Sys2Proof.Machine

open Sys2Proof

/-! ### Slewing (R346) -/

/-- One step of channel `n`, when its slew interval has passed: its output moves one code toward its target. In Ready the
outputs hold (R350). -/
def State.trimStep (s : State) (n : Nat) : State :=
  let o := s.fld (TRM_OUT_OUT n)
  let g := s.fld (TRM_OUT_TARGET n)
  if s.fld PWR_STAT_STATE = 0 && o != g && s.timerOver (tmTrim n) (usClk (slewUs (s.trimSlewCode n))) then
    (s.setOut n (if o < g then o + 1 else o - 1)).startTimer (tmTrim n)
  else s

/-- TRIM_SLEW_STEP (R346). -/
def execTrimSlewStep (t : Nat) (n : Fin 68) (s : State) : Out := .next ((s.advance t).trimStep n)

/-- DEMAND_SLEW_STEP (R248): the demand output moves toward D. -/
def execDemandSlewStep (t : Nat) (s : State) : Out := .next ((((s.advance t).trnShow).trimStep 64).trnShow)

/-! ### The ceiling (R348, R392) -/

/-- A write of `v` to copy `j` of the ceiling raises the voted value. -/
def State.ceilRaises (s : State) (j : Nat) (v : Word) : Bool := decide (s.trimCeil < (s.setReg (TRM_CEIL j) (v &&& 0x3FFF#32)).trimCeil)

/-- Among them is a host write that raises the voted ceiling (R411). -/
def State.ceilBehind (s : State) : Bool :=
  s.writesBehind.any (fun c => match c with
    | .trmCeilWrite j v => s.ceilRaises j v
    | .registerWrite _ a len v false => a.sp.val == 0 && len.val == 4 &&
        (List.range 3).any (fun j => a.off.toNat == TRM_CEIL j && s.ceilRaises j (v.truncate 32))
    | _ => false)

/-- Copy `j` of the ceiling becomes `v`, by the host or by Hearth firmware: a write that raises the voted value needs its authorisation,
which a host write of the same core clock takes before one of Hearth (R348, R411). -/
def State.ceilWrite (s : State) (j : Nat) (v : Word) (hearth : Bool) : State :=
  let s1 := s.setReg (TRM_CEIL j) (v &&& 0x3FFF#32)
  let set := fun (s : State) =>
    (s.tripCheck tripBitCeil (s.reg (TRM_CEIL 0)) (s.reg (TRM_CEIL 1)) (s.reg (TRM_CEIL 2))).retargetAll
  if !s.ceilRaises j v then set s1
  else if s.authOk 5 0 && !(hearth && s.ceilBehind) then set s1.authUse
  else s.refuse erPROTECT (TRM_CEIL j)

/-- TRM_CEIL_WRITE (R348). -/
def execTrmCeilWrite (j : Fin 3) (v : BitVec 32) (s : State) : Out := .next (s.bar 15 (fun s => s.ceilWrite j v false))

/-! ### Auxiliary channels (R349) -/

/-- A write of TRM_AUX(k) by host software, or by Hearth firmware. -/
def State.auxWrite (s : State) (k : Nat) (v : Word) (hearth : Bool) : State :=
  let me := if hearth then 2 else 1
  let own := s.fld (TRM_AUX_OWNER k)
  if own ≠ 0 ∧ own ≠ me then s.refuse erOWNED (TRM_AUX k)
  else if bitAt v.toNat 20 then
    let slew := if bitsOf v.toNat 16 4 = 0 then s.fld (TRM_AUX_SLEW k) else bitsOf v.toNat 16 4
    ((((s.setFld (TRM_AUX_CODE k) (bitsOf v.toNat 0 14)).setFld (TRM_AUX_SLEW k) slew).setOn (TRM_AUX_CLAIM k)).setFld
      (TRM_AUX_OWNER k) me).setWant (65 + k) (bitsOf v.toNat 0 14 : Nat) |>.setDriven (65 + k) true
  else if own = me then
    (((s.setFld (TRM_AUX_CLAIM k) 0).setFld (TRM_AUX_OWNER k) 0).setWant (65 + k) 0).setDriven (65 + k) (!s.twinStrap)
  else s

/-- TRM_AUX_WRITE (R349). -/
def execTrmAuxWrite (k : Fin 3) (v : BitVec 32) (hearth : Bool) (s : State) : Out :=
  .next (s.byWriter hearth (fun s => s.bar 15 (fun s => s.auxWrite k v hearth)))

/-! ### Self-measurement (R352) -/

/-- Set or clear the fault bit of channel `n`. -/
def State.setFault (s : State) (n : Nat) (b : Bool) : State :=
  if n < 32 then s.setReg TRM_FAULTLO (putBits (s.reg TRM_FAULTLO) n 1 (b2n b))
  else if n < 64 then s.setReg TRM_FAULTHI (putBits (s.reg TRM_FAULTHI) (n - 32) 1 (b2n b))
  else s.setReg TRM_FAULTAUX (putBits (s.reg TRM_FAULTAUX) (n - 64) 1 (b2n b))

/-- A measurement of `v` units of 2.5 V / 65,536 lies within MONTOL codes of code `c`. -/
def State.measOk (s : State) (v c : Nat) : Bool :=
  decide (((v * 16383 : Nat) - (c * 65536 : Nat) : Int).natAbs ≤ s.fld TRM_CTL_MONTOL * 65536)

/-- Channel `n` is measured as `v`: compared when its output has stood for 20 µs, and in fault after two rounds out of
tolerance. -/
def State.measure (s : State) (n v : Nat) : State :=
  let still := decide (s.trims.changed.get (fun _ => 0) n + usClk 20 ≤ s.clk)
  let s1 := s.setReg (TRM_MEAS n) (BitVec.ofNat 32 (v + 2 ^ 31 * b2n still))
  if !still then s1
  else
    let k := if s.measOk v (s.fld (TRM_OUT_OUT n)) then 0 else min 2 (s.trims.bad.get (fun _ => 0) n + 1)
    let s2 : State := { s1 with trims := { s1.trims with bad := s1.trims.bad.set (fun _ => 0) n k } }
    if k < 2 then s2
    else
      let s3 := s2.setFault n true
      if n < 64 ∧ s3.on TRM_CTL_FAULTCUT then (s3.retarget n).trimZero n else s3

/-- MONITOR_CONVERSION (R352): the next of the 71 conversions of a round gives `v`. -/
def State.monitor (s : State) (v : Nat) : State :=
  if s.on TRM_CTL_MONEN && s.awake && s.on RST_STAT_DONE then
    let n := s.trims.next
    let s1 : State := { s with trims := { s.trims with next := (n + 1) % 71 } }
    if n < 68 then s1.measure n v else s1.setFld (TRM_MONX_VALUE (n - 68)) v
  else s

def execMonitorConversion (t : Nat) (v : BitVec 16) (s : State) : Out := .next ((s.advance t).monitor v.toNat)

/-! ### Corrections (R351) -/

/-- TRM_STAT.NOMINAL: head references run untrimmed. -/
def State.nominal (s : State) : State := s.setBit TRM_STAT_NOMINAL (s.on TRM_STAT_OTPBAD && s.on TRM_CTL_NOMOK)

/-- OTP_TRIM_LOAD_DONE (R351): the load that step 3 of a release began, or a reset of the block, is over; `ok` when the CRC is right. -/
def State.trimLoaded (s : State) (ok : Bool) : State :=
  if !s.trims.load || !s.awake then s
  else ((((({ s with trims := { s.trims with load := false } } : State).setOn TRM_STAT_LOADED).setBit TRM_STAT_OTPBAD (!ok))).nominal).retargetAll

def execOtpTrimLoadDone (ok : Bool) (s : State) : Out := .next (s.trimLoaded ok)

end Sys2Proof.Machine
end

