-- ==== Sys2Proof/Machine/RegWrites.lean ====
section
/-! DEFINITION. Writes of BAR0 registers, block by block: the registers that do more than take a value call the operation that
their own command calls, every other takes the plain effect of a write. `m` holds the enabled bits, `v` what is written to them. -/

namespace Sys2Proof.Machine

/-- A register without behaviour of its own: the write is discarded where an armed job freezes it. -/
def State.takeWrite (s : State) (a : Nat) (r : RegRow) (m v : Word) : State :=
  if s.armed && frozen a then s.armedAt a else s.plainWrite a r m v

/-- The value that a write of fewer than 4 bytes loads: the other bytes keep what was last written to them (R6; DEDUCED, log entry
8). A WO register holds it where no read shows it. -/
def State.loaded (s : State) (a : Nat) (m v : Word) : Word := (s.reg a &&& ~~~m) ||| (v &&& m)

/-! ### Host interface and streams (R53, R64, R67, R78, R79) -/

/-- Polling begins with a poll that treats GEN as changed, one period from now (R53). One still in progress from before is not that poll. -/
def State.pollStart (s : State) : State :=
  s.setHif { s.hostIf with polledOn := false, pollOld := s.hostIf.sumOut || s.hostIf.prodOut, nextPoll := s.clk + s.pollClk }

def State.hifWrite (s : State) (a : Nat) (r : RegRow) (m v : Word) : State :=
  match bankAt a (HIF_CQCTL 0) 8 16 with
  | some q => s.cqEnable q (r.merged (s.reg a) m v)
  | none =>
    let s1 := s.takeWrite a r m v
    if a = HIF_CTL ∧ s1.on HIF_CTL_POLLEN ∧ !s.on HIF_CTL_POLLEN then s1.pollStart else s1

def State.strWrite (s : State) (a : Nat) (r : RegRow) (m v : Word) : State :=
  match bankAt a (STR_CTL 0) 128 64 with
  | some st => s.streamEnable st (r.merged (s.reg a) m v)
  | none => s.takeWrite a r m v

/-! ### Partitions of the store (R105 to R107) -/

/-- The range of entry `i`, if not empty, overlaps that of another claimed entry. -/
def State.partOverlap (s : State) (i : Nat) : Bool :=
  let b := s.fld (SWS_PBASE_BASE i)
  let e := b + s.fld (SWS_PSIZE_SIZE i)
  decide (b < e) && (List.range 32).any (fun j => j != i && s.on (SWS_PCTL_CLAIMED j) &&
    decide (b < s.fld (SWS_PBASE_BASE j) + s.fld (SWS_PSIZE_SIZE j)) && decide (s.fld (SWS_PBASE_BASE j) < e))

/-- Why a claim of entry `i` for kind `k` and owner `o` is refused (R106), in the order of its table. -/
def State.claimRefused (s : State) (i k o : Nat) : Option Nat :=
  let size := s.fld (SWS_PSIZE_SIZE i)
  if s.partOverlap i then some erOWNED
  else if (k = pkELASTIC ∨ k = pkHISTORY) ∧ (s.partOf k o).isSome then some erOWNED
  else if (k = pkREFERENCE ∨ k = pkSTAGING ∨ k = pkSPILL) ∧ (s.partKind k).isSome then some erOWNED
  else if k = pkHISTORY ∧ !(decide (o < 32) && s.claimed o pkELASTIC) then some erUNPAIRED
  else if size = 0 ∨ s.fld SWS_CAP_USABLE < s.fld (SWS_PBASE_BASE i) + size then some erBOUNDS
  else none

/-- What an entry that is released held is lost: the bands of its stream, or of an elastic's history only the completed ones. -/
def State.partLost (s : State) (i : Nat) : State :=
  let o := s.fld (SWS_PCTL_OWNER i)
  let s := if s.on (SWS_PCTL_CLAIMED i) then s.leaveRange i else s
  if s.claimed i pkELASTIC then { s with bands := s.bands.filter (fun b => b.2.stream != o) }
  else if s.claimed i pkHISTORY then
    { s with bands := s.bands.filter (fun b => !(b.2.done && b.2.stream == s.fld (SWS_PCTL_OWNER o))) }
  else if s.claimed i pkREFERENCE then { s with refs := [] }
  else if s.claimed i pkSPILL then s.setInsp { s.insp with spill := [] }
  else s

/-- A write `v` of SWS_PCTL(i) (R5, R106, R107). -/
def State.partWrite (s : State) (i : Nat) (v : Word) : State :=
  let k := bitsOf v.toNat 0 3
  let o := bitsOf v.toNat 8 7
  if s.armed then s.swsErr erARMED i
  else if 6 ≤ k then s
  else if k = 0 then
    if s.claimed i pkELASTIC && (s.partOf pkHISTORY i).isSome then s.swsErr erOWNED i
    else (s.partLost i).setReg (SWS_PCTL i) (v &&& 0x7F00#32)
  else if s.on (SWS_PCTL_CLAIMED i) then s.swsErr erCLAIMED i
  else match s.claimRefused i k o with
    | some c => s.swsErr c i
    | none => s.setReg (SWS_PCTL i) ((v &&& 0x7F07#32) ||| 0x80000000#32)

/-- A write of the base or the size of entry `i` (R106, R107). -/
def State.partGeom (s : State) (i a : Nat) (r : RegRow) (m v : Word) : State :=
  if s.armed then s.swsErr erARMED i
  else if s.on (SWS_PCTL_CLAIMED i) then s.swsErr erCLAIMED i
  else s.plainWrite a r m v

def State.swsWrite (s : State) (a : Nat) (r : RegRow) (m v : Word) : State :=
  match bankAt a (SWS_PCTL 0) 32 16, bankAt a (SWS_PBASE 0) 32 16, bankAt a (SWS_PSIZE 0) 32 16 with
  | some i, _, _ => s.partWrite i (r.merged (s.reg a) m v)
  | _, some i, _ => s.partGeom i a r m v
  | _, _, some i => s.partGeom i a r m v
  | _, _, _ => if a = SWS_MARKS then (s.plainWrite a r m v).fillChanged else s.plainWrite a r m v

/-! ### Kiln and the table port (R147, R150, R151, R156, R157, R170) -/

/-- KLN_EMBREQ.BURST (R147). -/
def State.burstWant (s : State) : State := { s with kiln := { s.kiln with want := true } }

def State.klnWrite (s : State) (a : Nat) (r : RegRow) (m v : Word) : State :=
  if a = KLN_EMBREQ then (if (v &&& m).getLsbD 0 then s.burstWant else s) else s.takeWrite a r m v

def State.nztWrite (s : State) (a : Nat) (r : RegRow) (m v : Word) : State :=
  if a = NZT_QUERY then
    (let w := s.loaded a m v &&& 0x8003FFFF#32
     (s.setReg a w).nztQuery (bitsOf w.toNat 0 18) (w.getLsbD 31))
  else if a = NZT_SCAN then (if (v &&& m).getLsbD 0 then s.scanStart else s)
  else s.plainWrite a r m v

/-! ### Head ports (R182, R183, R190, R192, R200 to R203, R317) -/

/-- A write of HPT_CTL(h): on a chip of a pair the host has no say in it (R317). One that does not enable the byte of MODE changes
nothing (R6). Hearth leaves a position without IDOK OFF, puts none in TEST before its first temperature reading, and ends a bring-up with
MODE OFF (R189); it leaves every port of a mis-strapped pair OFF (R322). -/
def State.modeWrite (s : State) (h : Nat) (m v : Word) (hearth : Bool) : State :=
  let s1 := if s.twinStrap && !hearth then s.recordAt TWN_ERR erTWINMODE (HPT_CTL h) else s
  let x := bitsOf v.toNat 0 2
  if s.armed then s1.refuse erARMED (HPT_CTL h)
  else if (s.twinStrap && !hearth) || !m.getLsbD 0 || (hearth && x != 0 && (!s.on (HPT_HSTAT_IDOK h) || s.on TWN_STATE_STRAPDUP)) ||
      (hearth && x == 3 && !s.testReady h) then s1
  else if hearth && x == 0 then (s1.modeSet h x).stepUp h 8 else s1.modeSet h x

/-- A write of HPT_TEST(h) (R190, R202, R203): RUN is set only in TEST, and setting it starts the generators anew. In its bring-up Hearth sets RUN once
training has ended well, and clears it when the period of its configuration is over: step 6 (R189; DESIGN CHOICE, log entry 55). -/
def State.testWrite (s : State) (h a : Nat) (r : RegRow) (m v : Word) (hearth : Bool) : State :=
  let early := hearth && (decide ((s.head h).up < 5) || ((s.head h).up == 5 && s.on (HPT_TEST_RUN h) && m.getLsbD 1 && !v.getLsbD 1 &&
    decide (s.clk < (s.head h).runAt + Config.prbsRun)))
  if s.armed then s.refuse erARMED a
  else if (v &&& m).getLsbD 1 ∧ s.fld (HPT_CTL_MODE h) ≠ 3 then s.refuse erNOTTEST a
  else if early then s
  else
    let s1 := s.plainWrite a r m v
    if s1.on (HPT_TEST_RUN h) && !s.on (HPT_TEST_RUN h) then s1.modHead h (fun x => { x with prbsN := 0, runAt := s.clk })
    else if hearth && s.on (HPT_TEST_RUN h) && !s1.on (HPT_TEST_RUN h) then s1.stepUp h 6 else s1

/-- A write of HPT_TRAIN(h): VALID clears where written as 1, then START begins training (R185). -/
def State.trainWrite (s : State) (h a : Nat) (r : RegRow) (m v : Word) : State :=
  let s1 := s.plainWrite a r m v
  if (v &&& m).getLsbD 0 then s1.trainStart h else s1

/-- The fields of HPT_HTYPE, HPT_HSERLO, HPT_HSERHI and HPT_HSTAT, which only Hearth firmware writes (R201). IDOK and RANKOK need the checks
of the records held (R195, R196). -/
def State.headInfo (s : State) (h a : Nat) (r : RegRow) (m v : Word) : State :=
  let f := m &&& ~~~(BitVec.ofNat 32 r.res)
  let s1 := s.setReg a ((s.reg a &&& ~~~f) ||| (v &&& f))
  let s2 := if s1.on (HPT_HSTAT_IDOK h) && !s.idOk h then s1.setFld (HPT_HSTAT_IDOK h) 0 else s1
  (if s2.on (HPT_HSTAT_RANKOK h) && !s.rankOk h then s2.setFld (HPT_HSTAT_RANKOK h) 0 else s2).readyShow

/-- A register of port `h`, at offset `k` of its bank. -/
def State.portWrite (s : State) (h k a : Nat) (r : RegRow) (m v : Word) (hearth : Bool) : State :=
  if k = 0 then s.modeWrite h m v hearth
  else if k = 0x18 then s.trainWrite h a r m v
  else if k = 0x20 then s.retstWrite h (v &&& m)
  else if k = 0x44 then s.testWrite h a r m v hearth
  else if 0x50 ≤ k ∧ k ≤ 0x5C ∧ hearth then s.headInfo h a r m v
  else s.takeWrite a r m v

def State.hptWrite (s : State) (a : Nat) (r : RegRow) (m v : Word) (hearth : Bool) : State :=
  if a < 0x194000 then s.portWrite ((a - 0x190000) / 256) (a % 256) a r m v hearth
  else
    let s1 := s.takeWrite a r m v
    if a = HPT_TCFG then s1.overAll else s1

/-! ### Position (R204 to R226) -/

/-- A write of POS_ZMODE: during a job one that would change QUALA or QUALB is discarded whole (R226). -/
def State.zmodeWrite (s : State) (r : RegRow) (m v : Word) : State :=
  let new := r.merged (s.reg POS_ZMODE) m v
  if s.armed && bitsOf new.toNat 4 2 != bitsOf (s.reg POS_ZMODE).toNat 4 2 then s.refuse erARMED POS_ZMODE
  else s.plainWrite POS_ZMODE r m v

/-- A write of a POS register. One write of POS_VOTE with RESYNC and RETRUST resynchronises first, and NOMAJ is judged after it (DESIGN CHOICE, log
entry 57: R209 and R210 order the two in no way). -/
def State.posWrite (s : State) (a : Nat) (r : RegRow) (m v : Word) (hearth : Bool) : State :=
  let w := r.merged (s.reg a) m v
  if a = POS_CTL then s.posCtlWrite w
  else if a = POS_ZMODE then s.zmodeWrite r m v
  else if a = POS_VOTE then
    (let s1 := s.resyncAll (bitsOf (v &&& m).toNat 0 3)
     if (v &&& m).getLsbD 8 then s1.retrust.causeCheck else s1)
  else if a = POS_ENCO then s.encoWrite (w.getLsbD 4) (bitsOf w.toNat 0 3) hearth
  else if a = POS_SNAP then (if (v &&& m).getLsbD 0 then s.posSnap 0 else s)
  else if a = POS_SPDAVG then (s.takeWrite a r m v).putSpeed.speedDecay
  else if a = POS_REVWIN then (s.takeWrite a r m v).hwmUpdate
  else s.takeWrite a r m v

/-! ### Transport (R246 to R262, R391) -/

/-- The flags of the triplicated words of the transport after a write of a copy (R391). -/
def State.trnTrip (s : State) (a : Nat) : State :=
  if (bankAt a (TRN_VLIM 0) 3 4).isSome then s.tripCheck tripBitVlim (s.reg (TRN_VLIM 0)) (s.reg (TRN_VLIM 1)) (s.reg (TRN_VLIM 2))
  else if (bankAt a (TRN_BKMAX 0) 3 4).isSome then
    s.tripCheck tripBitBack (s.reg (TRN_BKMAX 0)) (s.reg (TRN_BKMAX 1)) (s.reg (TRN_BKMAX 2))
  else s

def State.trnWrite (s : State) (a : Nat) (r : RegRow) (m v : Word) : State :=
  if s.armed && frozen a then s.armedAt a
  else
    let s1 := (s.plainWrite a r m v).trnTrip a
    let s2 := if a = TRN_CTL ∧ s.twinStrap then s1.setDriven 64 (s1.twin.mast && s1.on TRN_CTL_MASTER) else s1
    s2.fillChanged

/-! ### Inspection (R266, R279, R284 to R287) -/

/-- A write `v` of INS_CTL: during a job only AUTO may be cleared (R284, R287). -/
def State.insCtl (s : State) (r : RegRow) (m v : Word) : State :=
  let old := s.reg INS_CTL
  let new := r.merged old m v
  if !s.armed then s.plainWrite INS_CTL r m v
  else if new.getLsbD 1 then s.refuse erARMED INS_CTL
  else
    let s1 := s.setFld INS_CTL_AUTO 0
    if new &&& 0x3D#32 = old &&& 0x3D#32 then s1 else s1.refuse erARMED INS_CTL

/-- A register of camera port `c`, at offset `k` of its bank; `off` and `len` are the enabled bytes. -/
def State.camWrite (s : State) (c k a : Nat) (r : RegRow) (m v : Word) (off len : Nat) : State :=
  if k = 0 then s.camCtl c (r.merged (s.reg a) m v)
  else if k = 0x54 then s.ffWrite c off len (bitsOf v.toNat (8 * off) (8 * len))
  else
    let s1 := s.takeWrite a r m v
    if k = 0xC ∧ s.on FIR_CTL_MODE ∧ s1.fld (CAM_TRIG_MODE c) ≠ 0 then s1.setFld (CAM_TRIG_MODE c) (s.fld (CAM_TRIG_MODE c)) else s1

def State.insWrite (s : State) (a : Nat) (r : RegRow) (m v : Word) (off len : Nat) : State :=
  if 0x1d1000 ≤ a then s.camWrite ((a - 0x1d1000) / 512) (a % 512) a r m v off len
  else if a = INS_CTL then s.insCtl r m v
  else
    let s1 := s.takeWrite a r m v
    if a = INS_RQCTL ∧ s1.on INS_RQCTL_EN ∧ !s.on INS_RQCTL_EN then s1.setReg INS_SEQ 0#32 else s1

/-! ### Time bases and event outputs (R289 to R298, R313, R315) -/

/-- A write of TIM_EVTCTL(n): ownership first; a claim that is refused discards the write. Then POL and TB, then GO and STOP. A
write of Hearth's drives a pin that it owns to the level that it writes to LEVEL (log entry 20). -/
def State.evtCtl (s : State) (n : Nat) (r : RegRow) (m v : Word) (hearth : Bool) : State :=
  let a := TIM_EVTCTL n
  let w := r.merged (s.reg a) m v
  let o := bitsOf w.toNat 0 3
  let s1 := s.evtOwnerWrite n o hearth
  if (o < 3 ∨ (hearth ∧ o = evHEARTH)) ∧ s1.fld (TIM_EVTCTL_OWNER n) ≠ o then s1
  else
    let s1 := if hearth && s1.fld (TIM_EVTCTL_OWNER n) == evHEARTH && m.getLsbD 9 then s1.setEvt n { s1.evt n with drive := v.getLsbD 9 } else s1
    let s2 := ((s1.setFld (TIM_EVTCTL_POL n) (bitsOf w.toNat 3 1)).setFld (TIM_EVTCTL_TB n) (bitsOf w.toNat 4 2)).evtShow n
    let s3 := if w.getLsbD 6 then s2.evtStart n else s2
    if w.getLsbD 7 then s3.evtStopNow n else s3

def State.timWrite (s : State) (a : Nat) (r : RegRow) (m v : Word) (hearth : Bool) : State :=
  match bankAt a (TIM_SET 0) 4 32, bankAt a (TIM_ADJ 0) 4 32, bankAt a (TIM_EVTCTL 0) 8 32 with
  | some b, _, _ => s.timSet b (s.loaded a m v)
  | _, some b, _ => s.timAdj b (s.loaded a m v)
  | _, _, some n => s.evtCtl n r m v hearth
  | _, _, _ =>
    let s1 := s.takeWrite a r m v
    if a = TIM_SNAP ∧ (v &&& m).getLsbD 0 then s1.timSnap 0
    else if a = TIM_FRCCTL ∧ (v &&& m).getLsbD 2 then s1.frcClear
    else s1

/-! ### Cord ring (R308 to R310, R314, R315) -/

def State.crdWrite (s : State) (a : Nat) (r : RegRow) (m v : Word) : State :=
  let w := r.merged (s.reg a) m v
  if a = CRD_CTL then s.cordCtl w
  else if a = CRD_BAR then (if m.getLsbD 0 then s.enter (bitsOf v.toNat 0 8) else s)
  else if a = CRD_BPOP then (if (v &&& m).getLsbD 0 then s.bpop else s)
  else if a = CRD_SCHED ∧ (v &&& m).getLsbD 31 then s.schedGo w
  else
    let s1 := s.takeWrite a r m v
    if a = CRD_BSEND ∧ (v &&& m).getLsbD 0 then s1.bsend else s1

/-! ### Twin pairing (R341, R342, R391) -/

/-- A write of TWN_CTL: EN is read-only on a solo chip and stands during a job; clearing it takes the link down. -/
def State.twinCtl (s : State) (m v : Word) : State :=
  let en := if m.getLsbD 0 then v.getLsbD 0 else s.on TWN_CTL_EN
  let s1 :=
    if !s.twinStrap || en == s.on TWN_CTL_EN then s
    else if s.armed then s.refuse erARMED TWN_CTL
    else (if en then s else s.linkDown).setBit TWN_CTL_EN en
  if (v &&& m).getLsbD 1 then s1.joinWrite else s1

/-- TWN_OVERRIDE.ROLE (R342), by the host or by Hearth firmware, which finds an authorisation taken that a host write of its core clock takes
(R411). -/
def State.overWrite (s : State) (x : Nat) (hearth : Bool) : State :=
  if hearth && decide (x ≠ 0) && s.overBehind then s.refuse erPROTECT TWN_OVERRIDE
  else if x = 1 then s.overActive else if x = 2 then s.overStandby else if x = 3 then s.overOut else s

def State.twnWrite (s : State) (a : Nat) (r : RegRow) (m v : Word) (hearth : Bool) : State :=
  if a = TWN_CTL then s.twinCtl m v
  else if a = TWN_OVERRIDE then s.overWrite (bitsOf (v &&& m).toNat 0 2) hearth
  else
    let s1 := s.takeWrite a r m v
    if (bankAt a (TWN_POLICY 0) 3 4).isSome then
      (s1.tripCheck tripBitTwin (s1.reg (TWN_POLICY 0)) (s1.reg (TWN_POLICY 1)) (s1.reg (TWN_POLICY 2))).readyShow
    else s1

/-! ### Trim converters (R348, R349, R351, R352, R355, R356) -/

/-- Heads in fault under FAULTCUT go to 0 V at once (R352). -/
def State.faultCut (s : State) : State :=
  if s.on TRM_CTL_FAULTCUT then (List.range 64).foldl (fun s h => if s.trimFault h then s.trimZero h else s) s else s

/-- A write of TRM_CTL: during a job one that changes NOMOK is discarded (R356). -/
def State.trmCtl (s : State) (r : RegRow) (m v : Word) : State :=
  if s.armed && (r.merged (s.reg TRM_CTL) m v).getLsbD 2 != (s.reg TRM_CTL).getLsbD 2 then s.refuse erARMED TRM_CTL
  else ((s.plainWrite TRM_CTL r m v).nominal).retargetAll.faultCut

def State.trmWrite (s : State) (a : Nat) (r : RegRow) (m v : Word) (hearth : Bool) : State :=
  let w := r.merged (s.reg a) m v
  match bankAt a (TRM_CEIL 0) 3 4, bankAt a (TRM_AUX 0) 3 4 with
  | some j, _ => s.ceilWrite j w hearth
  | _, some k => s.auxWrite k w hearth
  | _, _ =>
    if a = TRM_CTL then s.trmCtl r m v
    else
      let s1 := s.plainWrite a r m v
      if a = TRM_FAULTLO ∨ a = TRM_FAULTHI then s1.retargetAll else s1

/-! ### Power, clocks and reset (R367, R377, R379 to R382) -/

/-- A write of RST_WDCFG. During a job one that reaches FULL leaves it, and is recorded (R382). -/
def State.wdWrite (s : State) (r : RegRow) (m v : Word) : State :=
  let full := s.on RST_WDCFG_FULL
  let s1 := s.plainWrite RST_WDCFG r m v
  if s.armed && (m &&& fldMask RST_WDCFG_FULL) != 0#32 then (s1.setBit RST_WDCFG_FULL full).refuse erARMED RST_WDCFG else s1

def State.aonWrite (s : State) (a : Nat) (r : RegRow) (m v : Word) : State :=
  if a = PWR_CTL then (if m.getLsbD 0 then s.pwrCtl v else s)
  else if a = RST_BLKRST then s.blkRst (v &&& m)
  else if a = RST_WDCFG then s.wdWrite r m v
  else s.plainWrite a r m v

/-! ### Memory integrity (R391 to R396) -/

def State.eccWrite (s : State) (a : Nat) (r : RegRow) (m v : Word) (hearth : Bool) : State :=
  if a = ECC_FLIPCTL then s.flipWrite (r.merged (s.reg a) m v) hearth
  else if a = ECC_TRIPST then (s.plainWrite a r m v).tripAll
  else if 0x230100 ≤ a ∧ a < 0x230200 then (if hearth then s.goldWrite a ((a - 0x230100) / 16) m v else s)
  else s.plainWrite a r m v

/-! ### Hearth and service (R398, R404, R406, R410, R414, R415) -/

def State.svcWrite (s : State) (a : Nat) (r : RegRow) (m v : Word) (hearth : Bool) : State :=
  if a = SVC_BOOT then (if (v &&& m).getLsbD 0 then s.bootGo else if s.armed then s.refuse erARMED a else s)
  else if a = SVC_ARM then
    (if hearth then s else if m.getLsbD 0 then s.svcArm (r.merged (s.reg a) m v) else s.takeWrite a r m v)
  else if a = SVC_MBXCTL then
    (let s1 := (s.setReg a (s.reg a &&& ~~~(s.stood a (v &&& m &&& BitVec.ofNat 32 r.w1c)))).standing a
     if (v &&& m).getLsbD 0 then s1.mbxGo else s1)
  else s.takeWrite a r m v

/-! ### Any register -/

/-- A write of the unit tree: where it changes thermal limits or the tree, every head is judged anew (R33, R200). -/
def State.untWrite (s : State) (a : Nat) (r : RegRow) (m v : Word) : State :=
  let s1 := s.takeWrite a r m v
  if (a - 0x30000) % 128 = 0 ∨ (a - 0x30000) % 128 = 16 then s1.overAll else s1

/-- SYS_RESET is the one register of its block that takes a write (R379). -/
def State.sysWrite (s : State) (a : Nat) (m v : Word) : State :=
  if a = SYS_RESET then s.sysResetWrite (v &&& m) else s

/-- A write `v` into the enabled bits `m` (`len` bytes from byte `off` on) of the register at `a`. -/
def State.regWrite (s : State) (a : Nat) (r : RegRow) (m v : Word) (off len : Nat) (hearth : Bool) : State :=
  if a < 0x10000 then s.sysWrite a m v
  else if a < 0x20000 then s.hifWrite a r m v
  else if a < 0x30000 then s.strWrite a r m v
  else if a < 0x40000 then s.untWrite a r m v
  else if a < 0x80000 then s.klnWrite a r m v
  else if a < 0x190000 then s.swsWrite a r m v
  else if a < 0x1a0000 then s.hptWrite a r m v hearth
  else if a < 0x1b0000 then s.posWrite a r m v hearth
  else if a < 0x1c0000 then s.takeWrite a r m v
  else if a < 0x1d0000 then s.trnWrite a r m v
  else if a < 0x1e0000 then s.insWrite a r m v off len
  else if a < 0x1f0000 then s.timWrite a r m v hearth
  else if a < 0x200000 then s.crdWrite a r m v
  else if a < 0x210000 then s.twnWrite a r m v hearth
  else if a < 0x220000 then s.trmWrite a r m v hearth
  else if a < 0x230000 then s.aonWrite a r m v
  else if a < 0x240000 then s.eccWrite a r m v hearth
  else if a < 0x250000 then s.svcWrite a r m v hearth
  else s.nztWrite a r m v

end Sys2Proof.Machine
end

