-- ==== Sys2Proof/Machine/RegRows.lean ====
section
/-! DEFINITION. Host and Hearth accesses to BAR0 as a whole (R6, R50, R369, R373, R416 to R419): which accesses are served, the
windows, and the two commands that any register answers to. -/

namespace Sys2Proof.Machine

open Sys2Proof

/-! ### Windows (R419) -/

def winNZT (a : Nat) : Bool := decide (0x80000 ≤ a) && decide (a < 0x180000)
def winRET (a : Nat) : Bool := decide (0x224000 ≤ a) && decide (a < 0x228000)
def winMTX (a : Nat) : Bool := decide (0x300000 ≤ a) && decide (a < 0x3C8000)

/-! ### What is served -/

/-- The RST_BLKRST bit of the block that holds offset `a` (R381, R416). -/
def blkOf (a : Nat) : Nat :=
  if a < 0x20000 then 0 else if a < 0x30000 then 1 else if a < 0x40000 then 2 else if a < 0x180000 then 3
  else if a < 0x190000 then 4 else if a < 0x1a0000 then 5 else if a < 0x1b0000 then 6 else if a < 0x1c0000 then 7
  else if a < 0x1d0000 then 8 else if a < 0x1d1000 then 9 else if a < 0x1d1200 then 10 else if a < 0x1e0000 then 11
  else if a < 0x1f0000 then 12 else if a < 0x200000 then 13 else if a < 0x210000 then 14 else if a < 0x220000 then 15
  else if a < 0x240000 then 16 else if a < 0x250000 then 17 else 3

/-- Offset `a` is SYS_ID, SYS_CAPS or in the AON block: served from step 6 of a reset release on, and in Smoulder (R369, R373). -/
def aonServed (a : Nat) : Bool := decide (a < 8) || (decide (0x220000 ≤ a) && decide (a < 0x230000))

/-- BAR0 serves offset `a` at all: the rest of it from step 7 on, in Run and Ready. -/
def State.open_ (s : State) (a : Nat) : Bool := if aonServed a then s.aonOk else s.on RST_STAT_DONE && s.awake

/-- The block of offset `a`, a register's, stands in a reset of its own (R418). The SRAM windows go on: the reset fills no SRAM
(R377), and reads of curves and matrices are served at all times (R159). -/
def State.inReset (s : State) (a : Nat) : Bool :=
  !aonServed a && decide (0x10000 ≤ a) && !winNZT a && !winMTX a && (s.reg RST_BLKRST).getLsbD (blkOf a)

/-- An access of `len` bytes at `a` is one to a 32-bit word (R6). -/
def oneWord (a len : Nat) : Bool := decide (1 ≤ len) && decide (a % 4 + len ≤ 4)

/-! ### One 32-bit access -/

/-- A write of `len` bytes `v` at `a`, within one word. R381 speaks of 32-bit accesses to the retention window only: a write of 1 to 3
bytes there is dropped, and such a read returns 0 (DESIGN CHOICE, log entry 21). -/
def State.write32 (s : State) (a len v : Nat) (hearth : Bool) : State :=
  if !oneWord a len || !s.open_ a || s.inReset a then s
  else if winNZT a then s.nztWindow (a - 0x80000) len v
  else if winMTX a then s.curveMatrixWindow (a - 0x300000) len v
  else if winRET a then (if len = 4 then s.retnPut (a - 0x224000) (BitVec.ofNat 32 v) else s)
  else match regRowAt (a - a % 4) with
    | some r =>
      let m := byteMask (a % 4) len
      s.regWrite (a - a % 4) r m (BitVec.ofNat 32 (v * 2 ^ (8 * (a % 4))) &&& m) (a % 4) len hearth
    | none => s

/-- What a read answers: `v` on `len` bytes, marked `ep`. -/
def State.answer (s : State) (v : Nat) (ep : Bool) : State := { s with readData := BitVec.ofNat 64 v, readEP := ep }

/-- The bytes of a word that a read of `len` bytes at `a` returns. -/
def partOfWord (w : Word) (a len : Nat) : Nat := bitsOf w.toNat (8 * (a % 4)) (8 * len)

/-- The read of a register: those that a read changes otherwise than by its type (R418), then any other. -/
def State.regRead (s : State) (a len : Nat) (r : RegRow) : State :=
  let b := a - a % 4
  let cut := fun (s : State) => s.answer (partOfWord (s.readData.truncate 32) a len) s.readEP
  if b = POS_CNTLO then cut (s.posLoRead 0)
  else if b = POS_TRAVLO then cut (s.posLoRead 1)
  else if b = POS_HWMLO then cut (s.posLoRead 2)
  else if b = POS_ZACCLO then cut (s.posLoRead 3)
  else if b = POS_ZCAPLO then cut (s.posLoRead 4)
  else if b = POS_SNAPLO then cut (s.posLoRead 5)
  else if b = TIM_FRCLO then cut s.frcRead
  else if b = NZT_RELOAD then cut s.reloadRead
  else if b = CAM_FFDATA 0 then cut (s.ffRead 0)
  else if b = CAM_FFDATA 1 then cut (s.ffRead 1)
  else
    let p := s.shown b r
    (p.2.clearRead b r (byteMask (a % 4) len)).answer (partOfWord p.1 a len) false

/-- The reset value of the register at `a` (R417): what is not fixed is the ceiling word of the OTP, what the twin straps say, the Kindling
version, the level of WRSEAL_N, and the store's size. -/
def State.resetShown (s : State) (a : Nat) : Word :=
  if (bankAt a (TRM_CEIL 0) 3 4).isSome then s.otp.get (fun _ => 0#32) 1 &&& 0x3FFF#32
  else if a = TWN_CTL then (if s.twinStrap then 1#32 else 0#32)
  else if a = TWN_STATE then s.strapState
  else if a = SVC_KVER ∨ a = SWS_CAP then s.reg a
  else if a = SVC_ASTAT then s.reg a &&& 0xC#32
  else regReset a

/-- A read of `len` bytes at `a`, within one word. -/
def State.read32 (s : State) (a len : Nat) : State :=
  if !oneWord a len || !s.open_ a then s.answer 0 false
  else if s.inReset a then s.answer (partOfWord (s.resetShown (a - a % 4)) a len) false
  else if winNZT a || winMTX a then s.windowGet a len
  else if winRET a then (if len = 4 then s.retnGet (a - 0x224000) else s.answer 0 false)
  else match regRowAt (a - a % 4) with
    | some r => s.regRead a len r
    | none => s.answer 0 false

/-! ### Any access (R6) -/

/-- An 8-byte access aligned to 8 bytes is two of 32 bits, the lower address first. -/
def State.bar0Write (s : State) (a len v : Nat) (hearth : Bool) : State :=
  if len = 8 then
    (if a % 8 = 0 then (s.write32 a 4 (v % 2 ^ 32) hearth).write32 (a + 4) 4 (v / 2 ^ 32) hearth else s)
  else s.write32 a len v hearth

def State.bar0Read (s : State) (a len : Nat) : State :=
  if len = 8 then
    (if a % 8 = 0 then
      (let lo := s.read32 a 4
       let hi := lo.read32 (a + 4) 4
       hi.answer (lo.readData.toNat % 2 ^ 32 + 2 ^ 32 * (hi.readData.toNat % 2 ^ 32)) (lo.readEP || hi.readEP))
     else s.answer 0 false)
  else s.read32 a len

/-! ### The configuration space (R2, R46 to R50, R371) -/

/-- A field of the configuration space that would take a reserved encoding keeps its value (R5): Max Payload Size above 512 B, Max
Read Request Size above 4,096 B, and a Completion Timeout Value outside Ranges A and B. -/
def cfgKeep (a : Nat) (old new : Word) : Word :=
  if a = CFG_DEVCTL then
    (let w := if 2 < bitsOf new.toNat 5 3 then putBits new 5 3 (bitsOf old.toNat 5 3) else new
     if 5 < bitsOf w.toNat 12 3 then putBits w 12 3 (bitsOf old.toNat 12 3) else w)
  else if a = CFG_DEVCTL2 then
    (let k := bitsOf new.toNat 0 4
     if k = 0 ∨ k = 1 ∨ k = 2 ∨ k = 5 ∨ k = 6 then new else putBits new 0 4 (bitsOf old.toNat 0 4))
  else new

/-- A configuration write of `v` into the enabled bits `m` of the word at `a`: Bus Master Enable and the power state act as
their own commands do. -/
def State.cfgWrite (s : State) (a : Nat) (m v : Word) : State :=
  let old := s.cfgW a
  let rw := cfgRw a &&& m
  let new := cfgKeep a old ((old &&& ~~~rw) ||| (v &&& rw))
  let s1 := s.setCfg a (new &&& ~~~(v &&& m &&& cfgW1c a))
  if a = CFG_CMD ∧ m.getLsbD 2 ∧ v.getLsbD 2 ≠ s.on HIF_CTL_BME then s1.busMaster (v.getLsbD 2)
  else if a = CFG_PMCSR ∧ m.getLsbD 0 ∧ bitsOf v.toNat 0 2 = 3 ∧ !s.on PWR_STAT_D3HOT then s1.d3hot
  else if a = CFG_PMCSR ∧ m.getLsbD 0 ∧ bitsOf v.toNat 0 2 = 0 then s1.d0Return
  else s1

/-- The word at `a` as a configuration read returns it: where the spec leaves a word open, a free value (log entry 5). -/
def State.cfgShown (s : State) (a : Nat) : Word × State :=
  if cfgOpen a then (s.draw.1.truncate 32, s.draw.2) else (s.cfgLive a, s)

/-- A configuration request before step 6 of a release is retried, and changes nothing (R373). -/
def State.cfgAccess (s : State) (a len v : Nat) : State :=
  if !oneWord a len || !s.aonOk then s
  else
    let m := byteMask (a % 4) len
    s.cfgWrite (a - a % 4) m (BitVec.ofNat 32 (v * 2 ^ (8 * (a % 4))) &&& m)

def State.cfgRead (s : State) (a len : Nat) : State :=
  if !oneWord a len || !s.aonOk then s
  else
    let p := s.cfgShown (a - a % 4)
    p.2.answer (partOfWord p.1 a len) false

/-! ### The commands -/

/-- An access to BAR0 offset `a` at core clock `t` reaches a register in which a base step of that very clock sets bits or counts
(TIM_EVTSTAT, CRD_SCHEDST): what the step does is applied after the access (R7). -/
def State.stepAfter (s : State) (t a : Nat) : Bool :=
  !s.times.step.isEmpty && decide (t = s.clk + 1) &&
    (decide (a / 8 = CRD_SCHEDST / 8) || (List.range 8).any (fun n => decide (a / 8 = TIM_EVTSTAT n / 8)))

/-- An access at core clock `t` to BAR0 offset `a`, among the hardware updates of its clock (R7). -/
def State.accessAt (s : State) (t a : Nat) (f : State → State) : State :=
  if s.stepAfter t a then (f (s.goOn t)).takeSteps else f (s.advance t)

/-- REGISTER_WRITE (R6): a write of `len` bytes at `a`: an offset of BAR0, by the host or by Hearth firmware, or of the
configuration space, by the firmware into its private SRAM (R397), or what it reads of a head memory (R189). -/
def execRegisterWrite (t : Nat) (a : WritePlace) (len : Fin 9) (v : BitVec 64) (hearth : Bool) (s : State) : Out :=
  .next (if a.sp.val = 1 then (s.advance t).cfgAccess (a.off.toNat % 4096) len v.toNat
    else if a.sp.val = 2 then (if hearth then (s.advance t).hsPut a.off.toNat len v.toNat else s.advance t)
    else if a.sp.val = 3 then (if hearth then (s.advance t).headTake (a.off.toNat / 8192 % 64) (a.off.toNat % 8192) len v.toNat else s.advance t)
    else s.accessAt t a.off.toNat (fun s => s.byWriter hearth (fun s => s.bar0Write a.off.toNat len v.toNat hearth)))

/-- CLEARING_READ (R7): a read of `len` bytes at `a`, in BAR0, in BAR2 (R121) or in the configuration space, or by Hearth firmware of
its private SRAM (R397);
what it returns stands in readData. -/
def execClearingRead (t : Nat) (a : ReadPlace) (len : Fin 9) (s : State) : Out :=
  let s1 := s.advance t
  .next (if a.sp.val = 0 then s.accessAt t (a.off.toNat % 2 ^ 22) (fun s => s.bar0Read (a.off.toNat % 2 ^ 22) len)
    else if a.sp.val = 1 then (if len.val = 0 ∨ 8 < a.off.toNat % 8 + len.val then s1.answer 0 false else s1.bar2Read a.off.toNat len)
    else if a.sp.val = 2 then s1.cfgRead (a.off.toNat % 4096) len
    else s1.hsGet a.off.toNat len)

end Sys2Proof.Machine
end

