-- ==== Sys2Proof/Machine/Families.lean ====
section
/-! DEFINITION. Every family of meanings, gathered for the dispatcher. -/
end

