-- ==== Sys2Proof/Machine/Dispatch.lean ====
section
/-! DEFINITION. The one place that gives each command its meaning: one arm per constructor. -/

namespace Sys2Proof.Machine

open Sys2Proof

def exec (i : Instr) (s : State) : Host.Outcome State Fault Refusal :=
  match i with
  | .doorbellPoll t => Sys2Proof.Machine.execDoorbellPoll t s
  | .summaryReadDone t ok line => Sys2Proof.Machine.execSummaryReadDone t ok line s
  | .producerReadDone ok words => Sys2Proof.Machine.execProducerReadDone ok words s
  | .dfetch st poisoned => Sys2Proof.Machine.execDfetch st poisoned s
  | .band st raw => Sys2Proof.Machine.execBand st raw s
  | .mark st raw => Sys2Proof.Machine.execMark st raw s
  | .fence st raw => Sys2Proof.Machine.execFence st raw s
  | .table st raw => Sys2Proof.Machine.execTable st raw s
  | .strip st raw => Sys2Proof.Machine.execStrip st raw s
  | .scheduleEvent st raw => Sys2Proof.Machine.execScheduleEvent st raw s
  | .badopc st raw => Sys2Proof.Machine.execBadopc st raw s
  | .tableRecordReadDone st ok data => Sys2Proof.Machine.execTableRecordReadDone st ok data s
  | .bandAdmitted st => Sys2Proof.Machine.execBandAdmitted st s
  | .bandDataReadIssue st len => Sys2Proof.Machine.execBandDataReadIssue st len s
  | .bandDataArrival st ok data => Sys2Proof.Machine.execBandDataArrival st ok data s
  | .arm raw => Sys2Proof.Machine.execArm raw s
  | .disarm raw => Sys2Proof.Machine.execDisarm raw s
  | .disarmComplete => Sys2Proof.Machine.execDisarmComplete s
  | .restart raw => Sys2Proof.Machine.execRestart raw s
  | .skip raw => Sys2Proof.Machine.execSkip raw s
  | .status raw => Sys2Proof.Machine.execStatus raw s
  | .nop raw => Sys2Proof.Machine.execNop raw s
  | .badcmd raw => Sys2Proof.Machine.execBadcmd raw s
  | .commandReadFailed => Sys2Proof.Machine.execCommandReadFailed s
  | .heldCompletionsWritten => Sys2Proof.Machine.execHeldCompletionsWritten s
  | .statusPeriodEnd t load backlog sat => Sys2Proof.Machine.execStatusPeriodEnd t load backlog sat s
  | .busMasterEnableChange on => Sys2Proof.Machine.execBusMasterEnableChange on s
  | .cqEnableWrite q v => Sys2Proof.Machine.execCqEnableWrite q v s
  | .streamEnableWrite st v => Sys2Proof.Machine.execStreamEnableWrite st v s
  | .enable => Sys2Proof.Machine.execEnable s
  | .disable => Sys2Proof.Machine.execDisable s
  | .hold => Sys2Proof.Machine.execHold s
  | .release => Sys2Proof.Machine.execRelease s
  | .setDelay => Sys2Proof.Machine.execSetDelay s
  | .setXofs => Sys2Proof.Machine.execSetXofs s
  | .setDirofs => Sys2Proof.Machine.execSetDirofs s
  | .setPolicy => Sys2Proof.Machine.execSetPolicy s
  | .trimRamp => Sys2Proof.Machine.execTrimRamp s
  | .badop => Sys2Proof.Machine.execBadop s
  | .unitOperationEffect h => Sys2Proof.Machine.execUnitOperationEffect h s
  | .entries => Sys2Proof.Machine.execEntries s
  | .masked => Sys2Proof.Machine.execMasked s
  | .curve => Sys2Proof.Machine.execCurve s
  | .matrix => Sys2Proof.Machine.execMatrix s
  | .mtxsel => Sys2Proof.Machine.execMtxsel s
  | .tablePortWaitEnd => Sys2Proof.Machine.execTablePortWaitEnd s
  | .nztWindowWrite t a len v => Sys2Proof.Machine.execNztWindowWrite t a len v s
  | .nztLatchTimeout t => Sys2Proof.Machine.execNztLatchTimeout t s
  | .curveMatrixWindowWrite t a len v => Sys2Proof.Machine.execCurveMatrixWindowWrite t a len v s
  | .nztQuery key byEntry => Sys2Proof.Machine.execNztQuery key byEntry s
  | .nztScanStart => Sys2Proof.Machine.execNztScanStart s
  | .nztScanDone => Sys2Proof.Machine.execNztScanDone s
  | .nztReloadRead => Sys2Proof.Machine.execNztReloadRead s
  | .stokerFetch h => Sys2Proof.Machine.execStokerFetch h s
  | .refetchDone q y ok data => Sys2Proof.Machine.execRefetchDone q y ok data s
  | .lineScreen => Sys2Proof.Machine.execLineScreen s
  | .embreqBurst => Sys2Proof.Machine.execEmbreqBurst s
  | .fire t h => Sys2Proof.Machine.execFire t h s
  | .burstStart t h ash => Sys2Proof.Machine.execBurstStart t h ash s
  | .lat t h => Sys2Proof.Machine.execLat t h s
  | .latchDeadline t h => Sys2Proof.Machine.execLatchDeadline t h s
  | .delayedFire t h => Sys2Proof.Machine.execDelayedFire t h s
  | .flushBurst t h => Sys2Proof.Machine.execFlushBurst t h s
  | .returnCheck t h bits trailer => Sys2Proof.Machine.execReturnCheck t h bits trailer s
  | .retstFaultClear h v => Sys2Proof.Machine.execRetstFaultClear h v s
  | .modeHandover t h => Sys2Proof.Machine.execModeHandover t h s
  | .monitorLatObserved t h => Sys2Proof.Machine.execMonitorLatObserved t h s
  | .hptTrainStart h => Sys2Proof.Machine.execHptTrainStart h s
  | .trainingDone t h named coarse fine mark llv flv w0 w1 w2 w3 verify => Sys2Proof.Machine.execTrainingDone t h named coarse fine mark llv flv w0 w1 w2 w3 verify s
  | .prbsBurst t h => Sys2Proof.Machine.execPrbsBurst t h s
  | .prbsReturnCheck t h bits trailer => Sys2Proof.Machine.execPrbsReturnCheck t h bits trailer s
  | .tempPoll t b => Sys2Proof.Machine.execTempPoll t b s
  | .tempReadDone t h ok v => Sys2Proof.Machine.execTempReadDone t h ok v s
  | .tempStale t h => Sys2Proof.Machine.execTempStale t h s
  | .busClear t b => Sys2Proof.Machine.execBusClear t b s
  | .headMemoryPageWrite t ok => Sys2Proof.Machine.execHeadMemoryPageWrite t ok s
  | .encoderTransition t c a b => Sys2Proof.Machine.execEncoderTransition t c a b s
  | .rewind => Sys2Proof.Machine.execRewind s
  | .stillTimeout t => Sys2Proof.Machine.execStillTimeout t s
  | .speedDecayUpdate t => Sys2Proof.Machine.execSpeedDecayUpdate t s
  | .posCtlWrite v => Sys2Proof.Machine.execPosCtlWrite v s
  | .resync m => Sys2Proof.Machine.execResync m s
  | .retrust => Sys2Proof.Machine.execRetrust s
  | .posSnap t => Sys2Proof.Machine.execPosSnap t s
  | .posLoRead k => Sys2Proof.Machine.execPosLoRead k s
  | .encoClaim claim src hearth => Sys2Proof.Machine.execEncoClaim claim src hearth s
  | .sosEdge t n lvl => Sys2Proof.Machine.execSosEdge t n lvl s
  | .spliceRequest => Sys2Proof.Machine.execSpliceRequest s
  | .driveReadyChange low => Sys2Proof.Machine.execDriveReadyChange low s
  | .startToIdle => Sys2Proof.Machine.execStartToIdle s
  | .stopSettled t => Sys2Proof.Machine.execStopSettled t s
  | .backTargetReached => Sys2Proof.Machine.execBackTargetReached s
  | .waitToApproach t => Sys2Proof.Machine.execWaitToApproach t s
  | .approachToIdle => Sys2Proof.Machine.execApproachToIdle s
  | .spliceFault t => Sys2Proof.Machine.execSpliceFault t s
  | .demandSlewStep t => Sys2Proof.Machine.execDemandSlewStep t s
  | .cameraFrameStart t c vc => Sys2Proof.Machine.execCameraFrameStart t c vc s
  | .cameraLine t c vc dt err pixels => Sys2Proof.Machine.execCameraLine t c vc dt err pixels s
  | .cameraFrameEnd t c vc => Sys2Proof.Machine.execCameraFrameEnd t c vc s
  | .spillReplay t ash => Sys2Proof.Machine.execSpillReplay t ash s
  | .frameComplete t c => Sys2Proof.Machine.execFrameComplete t c s
  | .triggerPulse t c => Sys2Proof.Machine.execTriggerPulse t c s
  | .inspectionBatch t c busy backlog finds measured rows => Sys2Proof.Machine.execInspectionBatch t c busy backlog finds measured rows s
  | .camEnable c v => Sys2Proof.Machine.execCamEnable c v s
  | .camFfdataAccess t c wr => Sys2Proof.Machine.execCamFfdataAccess t c wr s
  | .timSet t b v => Sys2Proof.Machine.execTimSet t b v s
  | .timAdj t b v => Sys2Proof.Machine.execTimAdj t b v s
  | .timSnap t => Sys2Proof.Machine.execTimSnap t s
  | .timFrcloRead t => Sys2Proof.Machine.execTimFrcloRead t s
  | .frcClr t => Sys2Proof.Machine.execFrcClr t s
  | .evtOwnerWrite n o hearth => Sys2Proof.Machine.execEvtOwnerWrite n o hearth s
  | .evtGo t n => Sys2Proof.Machine.execEvtGo t n s
  | .evtStop n => Sys2Proof.Machine.execEvtStop n s
  | .evtPulseStart t n => Sys2Proof.Machine.execEvtPulseStart t n s
  | .evtPulseEnd t n => Sys2Proof.Machine.execEvtPulseEnd t n s
  | .cordLinkChange l up => Sys2Proof.Machine.execCordLinkChange l up s
  | .discover t r hd mine crossed a expect => Sys2Proof.Machine.execDiscover t r hd mine crossed a expect s
  | .discoverProbeTimer t => Sys2Proof.Machine.execDiscoverProbeTimer t s
  | .probe l => Sys2Proof.Machine.execProbe l s
  | .reply l rtt turn => Sys2Proof.Machine.execReply l rtt turn s
  | .syncTimer t => Sys2Proof.Machine.execSyncTimer t s
  | .sync t r hd a time frac => Sys2Proof.Machine.execSync t r hd a time frac s
  | .holdover t => Sys2Proof.Machine.execHoldover t s
  | .oreq t r hd a job => Sys2Proof.Machine.execOreq t r hd a job s
  | .oreqTimer t => Sys2Proof.Machine.execOreqTimer t s
  | .osnap t r hd a job w map => Sys2Proof.Machine.execOsnap t r hd a job w map s
  | .originSnapshotDue t => Sys2Proof.Machine.execOriginSnapshotDue t s
  | .origin r hd a job w line frac valid => Sys2Proof.Machine.execOrigin r hd a job w line frac valid s
  | .bcast r hd a msg map => Sys2Proof.Machine.execBcast r hd a msg map s
  | .crdBsendGo t => Sys2Proof.Machine.execCrdBsendGo t s
  | .crdBpop => Sys2Proof.Machine.execCrdBpop s
  | .barrierEnter id => Sys2Proof.Machine.execBarrierEnter id s
  | .gather r hd a id map mm => Sys2Proof.Machine.execGather r hd a id map mm s
  | .releaseFrame r hd a id mm => Sys2Proof.Machine.execReleaseFrame r hd a id mm s
  | .crdSchedGo t v => Sys2Proof.Machine.execCrdSchedGo t v s
  | .sched t r hd a kind w map => Sys2Proof.Machine.execSched t r hd a kind w map s
  | .scheduledActionDue t => Sys2Proof.Machine.execScheduledActionDue t s
  | .cordFrameLost t isSched => Sys2Proof.Machine.execCordFrameLost t isSched s
  | .crdEnableWrite v => Sys2Proof.Machine.execCrdEnableWrite v s
  | .trnrep t r hd a job armed g causes back ready => Sys2Proof.Machine.execTrnrep t r hd a job armed g causes back ready s
  | .trnrepTimer t => Sys2Proof.Machine.execTrnrepTimer t s
  | .trnrepTimeout t a => Sys2Proof.Machine.execTrnrepTimeout t a s
  | .trnstate t r hd a q count => Sys2Proof.Machine.execTrnstate t r hd a q count s
  | .trnstateTimer t => Sys2Proof.Machine.execTrnstateTimer t s
  | .trnstateTimeout t => Sys2Proof.Machine.execTrnstateTimeout t s
  | .hello t ack role ready reason strap primed armed digest serial => Sys2Proof.Machine.execHello t ack role ready reason strap primed armed digest serial s
  | .helloTimer t done => Sys2Proof.Machine.execHelloTimer t done s
  | .entriesFrame t es => Sys2Proof.Machine.execEntriesFrame t es s
  | .propose t seq purpose mask prop arg => Sys2Proof.Machine.execPropose t seq purpose mask prop arg s
  | .agree t seq purpose a => Sys2Proof.Machine.execAgree t seq purpose a s
  | .agreeTimeout t => Sys2Proof.Machine.execAgreeTimeout t s
  | .embres t seq line cmp fail => Sys2Proof.Machine.execEmbres t seq line cmp fail s
  | .therm t seq p over_ => Sys2Proof.Machine.execTherm t seq p over_ s
  | .batch t seq e ws => Sys2Proof.Machine.execBatch t seq e ws s
  | .batchres t seq codes => Sys2Proof.Machine.execBatchres t seq codes s
  | .headrec t seq p off data => Sys2Proof.Machine.execHeadrec t seq p off data s
  | .join t => Sys2Proof.Machine.execJoin t s
  | .joinFrame t seq seed jobid cons ws => Sys2Proof.Machine.execJoinFrame t seq seed jobid cons ws s
  | .released t seq mask => Sys2Proof.Machine.execReleased t seq mask s
  | .rstreq t seq => Sys2Proof.Machine.execRstreq t seq s
  | .twinFrameResend t => Sys2Proof.Machine.execTwinFrameResend t s
  | .twinLinkChange t up lanes rtt => Sys2Proof.Machine.execTwinLinkChange t up lanes rtt s
  | .twinAliveEdge t => Sys2Proof.Machine.execTwinAliveEdge t s
  | .paliveDead t => Sys2Proof.Machine.execPaliveDead t s
  | .aliveToggle t => Sys2Proof.Machine.execAliveToggle t s
  | .confirmTimeout t => Sys2Proof.Machine.execConfirmTimeout t s
  | .takeover t => Sys2Proof.Machine.execTakeover t s
  | .twinReturn t => Sys2Proof.Machine.execTwinReturn t s
  | .configDigestDone t => Sys2Proof.Machine.execConfigDigestDone t s
  | .overrideActive t => Sys2Proof.Machine.execOverrideActive t s
  | .overrideStandby t => Sys2Proof.Machine.execOverrideStandby t s
  | .overrideOut t => Sys2Proof.Machine.execOverrideOut t s
  | .trimSlewStep t n => Sys2Proof.Machine.execTrimSlewStep t n s
  | .trmCeilWrite j v => Sys2Proof.Machine.execTrmCeilWrite j v s
  | .trmAuxWrite k v hearth => Sys2Proof.Machine.execTrmAuxWrite k v hearth s
  | .monitorConversion t v => Sys2Proof.Machine.execMonitorConversion t v s
  | .otpTrimLoadDone ok => Sys2Proof.Machine.execOtpTrimLoadDone ok s
  | .powerFailWarning t rail vback => Sys2Proof.Machine.execPowerFailWarning t rail vback s
  | .changeover t vback => Sys2Proof.Machine.execChangeover t vback s
  | .vmainGood t vback => Sys2Proof.Machine.execVmainGood t vback s
  | .aonpor t vback => Sys2Proof.Machine.execAonpor t vback s
  | .pwrReqRun t v => Sys2Proof.Machine.execPwrReqRun t v s
  | .pwrReqReady t v => Sys2Proof.Machine.execPwrReqReady t v s
  | .pwrReqSmoulder t v => Sys2Proof.Machine.execPwrReqSmoulder t v s
  | .motionWake t => Sys2Proof.Machine.execMotionWake t s
  | .serviceNPress p => Sys2Proof.Machine.execServiceNPress p s
  | .d3hot t => Sys2Proof.Machine.execD3hot t s
  | .d0Return t => Sys2Proof.Machine.execD0Return t s
  | .refloss t => Sys2Proof.Machine.execRefloss t s
  | .aonTrim t ppm => Sys2Proof.Machine.execAonTrim t ppm s
  | .perst t => Sys2Proof.Machine.execPerst t s
  | .hotrst t => Sys2Proof.Machine.execHotrst t s
  | .resetn t => Sys2Proof.Machine.execResetn t s
  | .wdog t => Sys2Proof.Machine.execWdog t s
  | .sysReset t v => Sys2Proof.Machine.execSysReset t v s
  | .resetDelayEnd t => Sys2Proof.Machine.execResetDelayEnd t s
  | .resetReleaseStep t straps => Sys2Proof.Machine.execResetReleaseStep t straps s
  | .pllLock t ok => Sys2Proof.Machine.execPllLock t ok s
  | .sramFillDone t => Sys2Proof.Machine.execSramFillDone t s
  | .dramTrainingDone t store => Sys2Proof.Machine.execDramTrainingDone t store s
  | .dramok t => Sys2Proof.Machine.execDramok t s
  | .rstBlkrst t v => Sys2Proof.Machine.execRstBlkrst t v s
  | .scrubStep t mem region a flips => Sys2Proof.Machine.execScrubStep t mem region a flips s
  | .mergeCommit t mem => Sys2Proof.Machine.execMergeCommit t mem s
  | .eccFlipctlWrite v hearth => Sys2Proof.Machine.execEccFlipctlWrite v hearth s
  | .imageVerifyDone t slot ok ver seq => Sys2Proof.Machine.execImageVerifyDone t slot ok ver seq s
  | .svcBootGo t => Sys2Proof.Machine.execSvcBootGo t s
  | .version t => Sys2Proof.Machine.execVersion t s
  | .headread t => Sys2Proof.Machine.execHeadread t s
  | .rankwrite t => Sys2Proof.Machine.execRankwrite t s
  | .flashwrite t => Sys2Proof.Machine.execFlashwrite t s
  | .otpprog t => Sys2Proof.Machine.execOtpprog t s
  | .golden t => Sys2Proof.Machine.execGolden t s
  | .retrain t => Sys2Proof.Machine.execRetrain t s
  | .mailboxBadcmd t => Sys2Proof.Machine.execMailboxBadcmd t s
  | .mailboxCommandEnd t wrseal sig ok data => Sys2Proof.Machine.execMailboxCommandEnd t wrseal sig ok data s
  | .svcArm t v => Sys2Proof.Machine.execSvcArm t v s
  | .authorisationLapse t => Sys2Proof.Machine.execAuthorisationLapse t s
  | .registerWrite t a len v hearth => Sys2Proof.Machine.execRegisterWrite t a len v hearth s
  | .clearingRead t a len => Sys2Proof.Machine.execClearingRead t a len s
  | .bar2WindowWrite t off len v => Sys2Proof.Machine.execBar2WindowWrite t off len v s
  | .monitorFireObserved t h => Sys2Proof.Machine.execMonitorFireObserved t h s
  | .encoderIndexChange c z => Sys2Proof.Machine.execEncoderIndexChange c z s
  | .cordFrameDropped => Sys2Proof.Machine.execCordFrameDropped s
  | .twinFrameDropped => Sys2Proof.Machine.execTwinFrameDropped s
  | .timeBaseSlewEnd t b => Sys2Proof.Machine.execTimeBaseSlewEnd t b s
  | .smoulderReturnComplete t => Sys2Proof.Machine.execSmoulderReturnComplete t s
  | .columnMapRebuildDone => Sys2Proof.Machine.execColumnMapRebuildDone s
  | .entriesSendTimer t => Sys2Proof.Machine.execEntriesSendTimer t s

end Sys2Proof.Machine
end

