-- ==== Sys2Proof/WellFormed.lean ====
section
/-! DEFINITION. When a command is well formed: its operands are ones that a wire of the hardware can carry, where
their types do not already say so. -/

namespace Sys2Proof

open Sys2Proof.Machine

/-- Is the command well formed? -/
def Instr.wellFormed : Instr → Bool
  | .doorbellPoll _ => true
  | .summaryReadDone _ _ _ => true
  | .producerReadDone _ _ => true
  | .dfetch _ _ => true
  | .band _ raw => dOp raw == 1
  | .mark _ raw => dOp raw == 2
  | .fence _ raw => dOp raw == 3
  | .table _ raw => dOp raw == 4
  | .strip _ raw => dOp raw == 5
  | .scheduleEvent _ raw => dOp raw == 6
  | .badopc _ raw => dOp raw == 0 || decide (7 ≤ dOp raw)
  | .tableRecordReadDone _ _ data => decide (data.length ≤ 256)
  | .bandAdmitted _ => true
  | .bandDataReadIssue _ len => (decide (0 < len.toNat) && decide (len.toNat ≤ 4096))
  | .bandDataArrival _ _ data => decide (data.length ≤ 4096)
  | .arm raw => isCmd 1 raw
  | .disarm raw => isCmd 2 raw
  | .disarmComplete => true
  | .restart raw => isCmd 3 raw
  | .skip raw => isCmd 4 raw
  | .status raw => isCmd 5 raw
  | .nop raw => isCmd 6 raw
  | .badcmd raw => !(List.range 7).any (fun k => decide (1 ≤ k) && isCmd k raw)
  | .commandReadFailed => true
  | .heldCompletionsWritten => true
  | .statusPeriodEnd _ _ _ _ => true
  | .busMasterEnableChange _ => true
  | .cqEnableWrite _ _ => true
  | .streamEnableWrite _ _ => true
  | .enable => true
  | .disable => true
  | .hold => true
  | .release => true
  | .setDelay => true
  | .setXofs => true
  | .setDirofs => true
  | .setPolicy => true
  | .trimRamp => true
  | .badop => true
  | .unitOperationEffect _ => true
  | .entries => true
  | .masked => true
  | .curve => true
  | .matrix => true
  | .mtxsel => true
  | .tablePortWaitEnd => true
  | .nztWindowWrite _ _ len _ => decide (0 < len.val)
  | .nztLatchTimeout _ => true
  | .curveMatrixWindowWrite _ _ len _ => decide (0 < len.val)
  | .nztQuery _ _ => true
  | .nztScanStart => true
  | .nztScanDone => true
  | .nztReloadRead => true
  | .stokerFetch _ => true
  | .refetchDone _ _ _ data => decide (data.length ≤ 65539)
  | .lineScreen => true
  | .embreqBurst => true
  | .fire _ _ => true
  | .burstStart _ _ _ => true
  | .lat _ _ => true
  | .latchDeadline _ _ => true
  | .delayedFire _ _ => true
  | .flushBurst _ _ => true
  | .returnCheck _ _ _ _ => true
  | .retstFaultClear _ _ => true
  | .modeHandover _ _ => true
  | .monitorLatObserved _ _ => true
  | .hptTrainStart _ => true
  | .trainingDone _ _ _ _ _ _ _ _ _ _ _ _ _ => true
  | .prbsBurst _ _ => true
  | .prbsReturnCheck _ _ _ _ => true
  | .tempPoll _ _ => true
  | .tempReadDone _ _ _ _ => true
  | .tempStale _ _ => true
  | .busClear _ _ => true
  | .headMemoryPageWrite _ _ => true
  | .encoderTransition _ _ _ _ => true
  | .rewind => true
  | .stillTimeout _ => true
  | .speedDecayUpdate _ => true
  | .posCtlWrite _ => true
  | .resync _ => true
  | .retrust => true
  | .posSnap _ => true
  | .posLoRead _ => true
  | .encoClaim _ _ _ => true
  | .sosEdge _ _ _ => true
  | .spliceRequest => true
  | .driveReadyChange _ => true
  | .startToIdle => true
  | .stopSettled _ => true
  | .backTargetReached => true
  | .waitToApproach _ => true
  | .approachToIdle => true
  | .spliceFault _ => true
  | .demandSlewStep _ => true
  | .cameraFrameStart _ _ _ => true
  | .cameraLine _ _ _ _ _ _ => true
  | .cameraFrameEnd _ _ _ => true
  | .spillReplay _ _ => true
  | .frameComplete _ _ => true
  | .triggerPulse _ _ => true
  | .inspectionBatch _ _ _ _ _ _ _ => true
  | .camEnable _ _ => true
  | .camFfdataAccess _ _ _ => true
  | .timSet _ _ _ => true
  | .timAdj _ _ _ => true
  | .timSnap _ => true
  | .timFrcloRead _ => true
  | .frcClr _ => true
  | .evtOwnerWrite _ _ _ => true
  | .evtGo _ _ => true
  | .evtStop _ => true
  | .evtPulseStart _ _ => true
  | .evtPulseEnd _ _ => true
  | .cordLinkChange _ _ => true
  | .discover _ _ _ _ _ _ _ => true
  | .discoverProbeTimer _ => true
  | .probe _ => true
  | .reply _ _ _ => true
  | .syncTimer _ => true
  | .sync _ _ _ _ _ _ => true
  | .holdover _ => true
  | .oreq _ _ _ _ _ => true
  | .oreqTimer _ => true
  | .osnap _ _ _ _ _ _ _ => true
  | .originSnapshotDue _ => true
  | .origin _ _ _ _ _ _ _ _ => true
  | .bcast _ _ _ _ _ => true
  | .crdBsendGo _ => true
  | .crdBpop => true
  | .barrierEnter _ => true
  | .gather _ _ _ _ _ _ => true
  | .releaseFrame _ _ _ _ _ => true
  | .crdSchedGo _ _ => true
  | .sched _ _ _ _ _ _ _ => true
  | .scheduledActionDue _ => true
  | .cordFrameLost _ _ => true
  | .crdEnableWrite _ => true
  | .trnrep _ _ _ _ _ _ _ _ _ _ => true
  | .trnrepTimer _ => true
  | .trnrepTimeout _ _ => true
  | .trnstate _ _ _ _ _ _ => true
  | .trnstateTimer _ => true
  | .trnstateTimeout _ => true
  | .hello _ _ _ _ _ _ _ _ _ _ => true
  | .helloTimer _ _ => true
  | .entriesFrame _ es => decide (es.entries.length ≤ 20)
  | .propose _ _ purpose _ _ _ => decide (purpose.val ≠ 0)
  | .agree _ _ purpose _ => decide (purpose.val ≠ 0)
  | .agreeTimeout _ => true
  | .embres _ _ _ _ _ => true
  | .therm _ _ _ _ => true
  | .batch _ _ _ ws => decide (ws.length ≤ 8)
  | .batchres _ _ codes => decide (codes.length ≤ 8)
  | .headrec _ _ _ off _ => decide (off.toNat % 128 = 0)
  | .join _ => true
  | .joinFrame _ _ _ _ _ ws => decide (ws.length ≤ 128)
  | .released _ _ _ => true
  | .rstreq _ _ => true
  | .twinFrameResend _ => true
  | .twinLinkChange _ _ _ _ => true
  | .twinAliveEdge _ => true
  | .paliveDead _ => true
  | .aliveToggle _ => true
  | .confirmTimeout _ => true
  | .takeover _ => true
  | .twinReturn _ => true
  | .configDigestDone _ => true
  | .overrideActive _ => true
  | .overrideStandby _ => true
  | .overrideOut _ => true
  | .trimSlewStep _ _ => true
  | .trmCeilWrite _ _ => true
  | .trmAuxWrite _ _ _ => true
  | .monitorConversion _ _ => true
  | .otpTrimLoadDone _ => true
  | .powerFailWarning _ _ _ => true
  | .changeover _ _ => true
  | .vmainGood _ _ => true
  | .aonpor _ _ => true
  | .pwrReqRun _ v => decide (v.toNat % 4 = 0)
  | .pwrReqReady _ v => decide (v.toNat % 4 = 1)
  | .pwrReqSmoulder _ v => decide (v.toNat % 4 = 2)
  | .motionWake _ => true
  | .serviceNPress _ => true
  | .d3hot _ => true
  | .d0Return _ => true
  | .refloss _ => true
  | .aonTrim _ _ => true
  | .perst _ => true
  | .hotrst _ => true
  | .resetn _ => true
  | .wdog _ => true
  | .sysReset _ _ => true
  | .resetDelayEnd _ => true
  | .resetReleaseStep _ _ => true
  | .pllLock _ _ => true
  | .sramFillDone _ => true
  | .dramTrainingDone _ _ => true
  | .dramok _ => true
  | .rstBlkrst _ _ => true
  | .scrubStep _ _ _ _ _ => true
  | .mergeCommit _ _ => true
  | .eccFlipctlWrite _ _ => true
  | .imageVerifyDone _ _ _ _ _ => true
  | .svcBootGo _ => true
  | .version _ => true
  | .headread _ => true
  | .rankwrite _ => true
  | .flashwrite _ => true
  | .otpprog _ => true
  | .golden _ => true
  | .retrain _ => true
  | .mailboxBadcmd _ => true
  | .mailboxCommandEnd _ _ _ _ _ => true
  | .svcArm _ _ => true
  | .authorisationLapse _ => true
  | .registerWrite _ a _ _ hearth => decide (a.off.toNat < if a.sp.val = 0 then 2 ^ 22 else if a.sp.val = 1 then 4096 else 0x80000) &&
    (a.sp.val != 2 || hearth)
  | .clearingRead _ a _ => a.sp.val == 1 || decide (a.off.toNat < if a.sp.val = 0 then 2 ^ 22 else if a.sp.val = 2 then 4096 else 0x80000)
  | .bar2WindowWrite _ _ _ _ => true
  | .monitorFireObserved _ _ => true
  | .encoderIndexChange _ _ => true
  | .cordFrameDropped => true
  | .twinFrameDropped => true
  | .timeBaseSlewEnd _ _ => true
  | .smoulderReturnComplete _ => true
  | .columnMapRebuildDone => true
  | .entriesSendTimer _ => true

end Sys2Proof
end

