-- ==== Sys2Proof/Safety.lean ====
section
/-! DEFINITION. What counts as a safe state and a safe run, in the terms the statements use: the registers and every
memory of the state are in their one canonical form. -/

namespace Sys2Proof.Machine

open Sys2Proof

/-- The registers are held in their canonical form. -/
def State.regsWf (s : State) : Bool := s.regs.wf regReset

/-- The memories that hold tables are held in their canonical form: nozzle entries and their shadow copies, curves,
matrices, merge buffers, flat-field entries, swath store words and the errors in them, retention words, shadow copies of curves and
matrices, check states of map words, and Hearth private SRAM. -/
def Tables.wf (t : Tables) : Bool :=
  t.ents.wf (fun _ => NEnt.fill) && (t.shadow.wf (fun _ => fillWord) && (t.curves.wf (fun _ => zeroWord) &&
  (t.cstate.wf (fun _ => Curve.fill) && (t.mtx.wf (fun _ => onesWord) && (t.merge.wf (fun _ => none) &&
  (t.ff.wf (fun _ => ffFill) && (t.store.wf (fun _ => none) && (t.lat.wf (fun _ => zeroWord) && (t.retn.wf (fun _ => zeroWord) &&
  (t.cshadow.wf (fun _ => zeroWord) && (t.mshadow.wf (fun _ => onesWord) && (t.codes.wf (fun _ => zeroWord) &&
  t.hsram.wf (fun _ => zeroWord)))))))))))))

/-- The registers, the configuration space and every memory (the tables, the OTP and the held head records) are in canonical form. -/
def State.canonical (s : State) : Prop :=
  s.regsWf = true ∧ s.tabs.wf = true ∧ SMap.wf (fun _ => 0#32) s.otp = true ∧ SMap.wf (fun _ => 0) s.headMem = true ∧
  SMap.wf cfgReset s.cfg = true

/-- The command completes on `s`: exec answers a next state, and `P` holds of it. -/
def Runs (c : Instr) (s : State) (P : State → Prop) : Prop := ∃ t, exec c s = .next t ∧ P t

end Sys2Proof.Machine
end

