-- ==== Sys2Proof/Certificates/Slice0/Obligations.lean ====
section
/-! DEFINITION. The statements for the provers. -/

open Sys2Proof Sys2Proof.Machine

/-- A step is the front command's effect on the state with the queue's rest. -/
def Obligations.StepRunsFrontCommand : Prop :=
  ∀ (c : Instr) (cs : List Instr) (s : State), s.pending = c :: cs → step s = exec c { s with pending := cs }

/-- An idle step (log entry 2): one core clock, or one AON clock of 25. -/
def Obligations.EmptyQueueTicks : Prop :=
  ∀ s : State, s.pending = [] →
    (s.fld PWR_STAT_STATE ≤ 1 → step s = .next (s.advance (s.clk + 1))) ∧
    (1 < s.fld PWR_STAT_STATE → step s = .next (s.advance (s.clk + 25)))

/-- What reset leaves. -/
def Obligations.ResetIsCanonical : Prop :=
  State.reset.canonical ∧ State.reset.pending = [] ∧ (∀ a, State.reset.reg a = regReset a) ∧ State.reset.armed = false ∧
  (∀ n, eState (State.reset.mapWord n) = 3)

/-- The canonical form of the registers and of every memory is an invariant of every step. -/
def Obligations.EveryStepKeepsCanonicalForm : Prop :=
  ∀ s t : State, s.canonical → step s = .next t → t.canonical

/-- No well-formed command stops the block; what does stop it, and that nothing is refused. -/
def Obligations.WellFormedCommandsComplete : Prop :=
  (∀ (c : Instr) (s : State), c.wellFormed = true → ∃ t, exec c s = .next t) ∧
  (∀ (c : Instr) (cs : List Instr) (s : State), s.pending = c :: cs → c.wellFormed = true → ∃ t, step s = .next t) ∧
  (∀ (c : Instr) (s : State) (r : Refusal), exec c s ≠ .refused r) ∧
  (∀ (c : Instr) (s : State) (f : Fault), exec c s = .fault f → c.wellFormed = false ∧
    ((∃ st raw, c = .band st raw ∨ c = .mark st raw ∨ c = .fence st raw ∨ c = .table st raw ∨ c = .strip st raw ∨
      c = .scheduleEvent st raw ∨ c = .badopc st raw) ∨
     (∃ raw, c = .arm raw ∨ c = .disarm raw ∨ c = .restart raw ∨ c = .skip raw ∨ c = .status raw ∨ c = .nop raw ∨ c = .badcmd raw)))

/-- The frame of every command: the queue and the serial number. -/
def Obligations.ExecLeavesQueueAndSerial : Prop :=
  ∀ (c : Instr) (s t : State), exec c s = .next t → t.pending = s.pending ∧ t.serial = s.serial

/-- Time only goes on, and output is only ever added to. -/
def Obligations.TimeAndOutputOnlyGrow : Prop :=
  (∀ s t : State, step s = .next t → s.clk ≤ t.clk) ∧
  (∀ s t : State, s.pending = [] → step s = .next t → s.clk < t.clk) ∧
  (∀ s t : State, step s = .next t → (∃ l, t.out = s.out ++ l) ∧ (∃ l, t.sent = s.sent ++ l))

/-- The form of R420's error registers, and of counting fields (R7, and the chapters' "saturating"). -/
def Obligations.RefusalsAndCountsAreKept : Prop :=
  (∀ (s : State) (e c a : Nat), (s.reg e).getLsbD 31 = true → s.recordAt e c a = s) ∧
  (∀ (s : State) (e c a : Nat), s.canonical → (s.reg e).getLsbD 31 = false → c < 256 → a < 2 ^ 22 →
    bitsOf ((s.recordAt e c a).reg e).toNat 0 8 = c ∧ bitsOf ((s.recordAt e c a).reg e).toNat 8 22 = a ∧
    bitsOf ((s.recordAt e c a).reg e).toNat 31 1 = 1) ∧
  (∀ (s : State) (e c a b : Nat), b ≠ e → (s.recordAt e c a).reg b = s.reg b) ∧
  (∀ (s : State) (e c a : Nat), ∃ r, s.recordAt e c a = { s with regs := r }) ∧
  (∀ (s : State) (f : Fld) (n : Nat), s.canonical → 0 < f.width → f.lo + f.width ≤ 32 →
    (s.count f n).fld f = min (2 ^ f.width - 1) (s.fld f + n) ∧
    (∀ i, i < f.lo ∨ f.lo + f.width ≤ i → ((s.count f n).reg f.addr).getLsbD i = (s.reg f.addr).getLsbD i) ∧
    (∀ a, a ≠ f.addr → (s.count f n).reg a = s.reg a) ∧
    (∃ r, s.count f n = { s with regs := r }))

/-- A SYSTEM reset from its source to the state it leaves (R372, R378). -/
def Obligations.SystemResetLeavesAonValues : Prop :=
  ∀ (t b : Nat) (s u v : State), s.canonical → s.advance t = u → u.on PWR_STAT_SAG = false → u.fld PWR_STAT_STATE ≠ 3 →
    u.power.delay = none → u.armed = false → u.svc.pulse = none → u.svc.page = false → b = 2 ∨ b = 3 → u.resetBy b rcSYSTEM = v →
    (b = 2 → exec (.perst t) s = .next v) ∧ (b = 3 → exec (.hotrst t) s = .next v) ∧
    v.fld RST_CAUSE_CAUSE = (u.fld RST_CAUSE_CAUSE ||| 2 ^ b) % 512 ∧
    (∀ a, keptBits.all (fun k => k.1 != a) = true → (∀ j, j < 3 → a ≠ TRM_CEIL j) → a ≠ TWN_STATE → a ≠ TWN_CTL → a ≠ FIR_STATE →
      a ≠ POS_REVCNT → v.reg a = regReset a) ∧
    v.pos.t = u.pos.t ∧ v.pos.zacc = u.pos.zacc ∧ (v.pos.h = u.pos.h ∨ v.pos.h = u.pos.t) ∧ v.pos.cnt = u.pos.cnt ∧
    v.times.tb = u.times.tb ∧ v.times.frc = u.times.frc ∧ v.tabs.retn = u.tabs.retn ∧
    v.armed = false ∧ v.portQ = [] ∧ v.heads = [] ∧ v.bands = []

/-- Polling (R53, R54, R60): each command, where its condition holds, and the whole next state. -/
def Obligations.PollingRuns : Prop :=
  (∀ (t : Nat) (s u : State), s.advance t = u → u.on HIF_CTL_POLLEN = true → u.canMaster = true → u.hostIf.nextPoll ≤ u.clk →
    u.hostIf.sumOut = false → u.hostIf.prodOut = false →
    exec (.doorbellPoll t) s = .next (u.setHif { u.hostIf with
      nextPoll := u.hostIf.nextPoll + 100 * u.fld HIF_POLLPER_PER, sumOut := true, pollOld := false, pollAt := u.clk })) ∧
  (∀ (t : Nat) (s u : State), s.advance t = u → u.on HIF_CTL_POLLEN = true → u.canMaster = true → u.hostIf.nextPoll ≤ u.clk →
    (u.hostIf.sumOut = true ∨ u.hostIf.prodOut = true) →
    exec (.doorbellPoll t) s = .next (u.setHif { u.hostIf with nextPoll := u.hostIf.nextPoll + 100 * u.fld HIF_POLLPER_PER })) ∧
  (∀ (t : Nat) (s u : State), s.advance t = u → (u.on HIF_CTL_POLLEN = false ∨ u.canMaster = false ∨ u.clk < u.hostIf.nextPoll) →
    exec (.doorbellPoll t) s = .next u) ∧
  (∀ (t : Nat) (line : BitVec 512) (s u : State), s.advance t = u → u.hostIf.sumOut = true →
    exec (.summaryReadDone t true line) s = .next (((u.setHif { u.hostIf with
      sumOut := false, prodOut := (wordAt line.toNat 0 != u.hostIf.gen || !u.hostIf.polledOn) && u.canMaster
      genNext := wordAt line.toNat 0, cmdProd := wordAt line.toNat 1
      cqCons := (List.range 8).foldl (fun m q => SMap.set (fun _ => 0#32) m q (wordAt line.toNat (2 + q))) u.hostIf.cqCons
      cmdBad := u.hostIf.cmdBad && !decide (0 < (wordAt line.toNat 1 - u.reg HIF_CMDCONS).toInt) }).setFld
        HIF_RTT_NS (min 65535 ((u.clk - u.hostIf.pollAt) * 5 / 2))).flushHost)) ∧
  (∀ (t : Nat) (line : BitVec 512) (s u : State), s.advance t = u → u.hostIf.sumOut = true →
    exec (.summaryReadDone t false line) s = .next ((u.setHif { u.hostIf with sumOut := false }).pollFailed)) ∧
  (∀ (words : BitVec 4096) (s : State), s.hostIf.prodOut = true →
    exec (.producerReadDone true words) s = .next ((List.range 128).foldl (fun s st => s.takeProd st (wordAt words.toNat st))
      (s.setHif { s.hostIf with prodOut := false, gen := s.hostIf.genNext, polledOn := !s.hostIf.pollOld }))) ∧
  (∀ (words : BitVec 4096) (s : State), s.hostIf.prodOut = true →
    exec (.producerReadDone false words) s = .next ((s.setHif { s.hostIf with prodOut := false }).pollFailed)) ∧
  (∀ s : State, s.cmdOk = true → exec .commandReadFailed s =
    .next (s.pollFailed.setHif { s.pollFailed.hostIf with cmdBad := true })) ∧
  (∀ s : State, s.canonical → (s.pollFailed).fld HIF_POLLERR_COUNT = min 65535 (s.fld HIF_POLLERR_COUNT + 1) ∧
    s.pollFailed.alarms = s.alarms ||| (1#64 <<< alPOLLERR))

/-- A failed descriptor read halts its stream; a reserved opcode is rejected (R71, R73, R80). -/
def Obligations.FetchFailuresHalt : Prop :=
  (∀ (st : Fin 128) (s u : State), s.atSlot st = u → u.fetchOk st = true → u.fetchTurn st = true → u.overrun st = false →
    exec (.dfetch st true) s = .next (((u.tookTurn st).aer aerPOISON).ringHalt st 0x21) ∧
    exec (.dfetch st false) s = .next (((u.tookTurn st).readFailed false).ringHalt st 0x20)) ∧
  (∀ (st : Fin 128) (poisoned : Bool) (s u : State), s.atSlot st = u → u.fetchOk st = true → u.fetchTurn st = true → u.overrun st = true →
    exec (.dfetch st poisoned) s = .next (u.ringHalt st 0x23)) ∧
  (∀ (st : Fin 128) (poisoned : Bool) (s u : State), s.atSlot st = u → (u.fetchOk st = false ∨ u.fetchTurn st = false) →
    exec (.dfetch st poisoned) s = .next u) ∧
  (∀ (st : Fin 128) (raw : BitVec 256) (s u : State), s.atSlot st = u → u.fetchOk st = true → u.fetchTurn st = true → u.overrun st = false →
    raw.toNat % 256 = 0 ∨ 7 ≤ raw.toNat % 256 →
    exec (.badopc st raw) s = .next (((u.tookTurn st).takeDesc st raw).reject st (u.newDesc st raw) 0x10)) ∧
  (∀ (st : Fin 128) (raw : BitVec 256) (s u : State), s.atSlot st = u → u.fetchOk st = true → u.fetchTurn st = true → u.overrun st = true →
    raw.toNat % 256 = 0 ∨ 7 ≤ raw.toNat % 256 →
    exec (.badopc st raw) s = .next (u.ringHalt st 0x23)) ∧
  (∀ (st : Fin 128) (raw : BitVec 256) (s : State), ¬ (raw.toNat % 256 = 0 ∨ 7 ≤ raw.toNat % 256) →
    exec (.badopc st raw) s = .fault (.illFormed "BADOPC")) ∧
  (∀ (s : State) (st : Fin 128) (code : Nat), s.canonical → (s.ringHalt st code).strState st = stHALTED ∧
    (s.ringHalt st code).fld (STR_STATE_HCODE st) = code % 256 ∧ (s.ringHalt st code).out = s.out)

/-- Bands and strips (R58, R86, R94, R100, R108). -/
def Obligations.BandsAndStripsRun : Prop :=
  (∀ (st : Fin 128) (raw : BitVec 256) (s u v : State), s.atSlot st = u → u.fetchOk st = true → u.fetchTurn st = true → u.overrun st = false →
    raw.toNat % 256 = 1 → (u.tookTurn st).takeDesc st raw = v → v.bandCheck st raw = none →
    exec (.band st raw) s = .next ((v.bandAccept st (u.newDesc st raw)).fillChanged)) ∧
  (∀ (st : Fin 128) (raw : BitVec 256) (s u v : State) (code : Nat), s.atSlot st = u → u.fetchOk st = true → u.fetchTurn st = true →
    u.overrun st = false → raw.toNat % 256 = 1 → (u.tookTurn st).takeDesc st raw = v → v.bandCheck st raw = some code →
    exec (.band st raw) s = .next (v.reject st (u.newDesc st raw) code)) ∧
  (∀ (st : Nat) (d : Desc) (s : State), s.firstKept st (dLine d.raw) (dCount d.raw) = dLine d.raw + dCount d.raw →
    s.bandAccept st d = (s.place st (dLine d.raw) (dCount d.raw) (dEnd d.raw) (.band (s.bandSeq + 1))).doneNow st d 0
      (dLine d.raw + dCount d.raw)) ∧
  (∀ (st : Fin 128) (raw : BitVec 256) (s u v : State), s.atSlot st = u → u.fetchOk st = true → u.fetchTurn st = true → u.overrun st = false →
    raw.toNat % 256 = 5 → (u.tookTurn st).takeDesc st raw = v → v.stripCheck st raw = none →
    exec (.strip st raw) s = .next ((v.stripAccept st (u.newDesc st raw)).fillChanged)) ∧
  (∀ (st : Fin 128) (raw : BitVec 256) (s u v : State) (code : Nat), s.atSlot st = u → u.fetchOk st = true → u.fetchTurn st = true →
    u.overrun st = false → raw.toNat % 256 = 5 → (u.tookTurn st).takeDesc st raw = v → v.stripCheck st raw = some code →
    exec (.strip st raw) s = .next (v.reject st (u.newDesc st raw) code)) ∧
  (∀ (st : Fin 128) (s : State) (d : Desc), (s.strm st).descs.find? (fun d => d.phase = .waitAdmit) = some d →
    s.admits st (bandSize d.raw) = true → bandFetch d.raw ≠ 0 →
    exec (.bandAdmitted st) s = .next (((s.makeRoom st (bandSize d.raw)).setBand d.seq
      ⟨st, dLine d.raw, dCount d.raw, d.first, dWidth d.raw, dFmt d.raw, dRes d.raw, dNoref d.raw, bandSize d.raw, [], false, false,
        0, [], [], dAddr d.raw, dStride d.raw, []⟩).waits st d .reading)) ∧
  (∀ (st : Fin 128) (len : BitVec 13) (s : State) (d : Desc) (n : Nat), s.wantsData st = some d → s.canMaster = true →
    s.bandReads < 248 → s.dataTurn st = true → min (min (min len.toNat 4096) s.mrrs) (bandFetch d.raw - d.issued) = n → 0 < n →
    exec (.bandDataReadIssue st len) s = .next ((s.modDesc st d.count (fun x => { x with
      issued := x.issued + n, reads := x.reads ++ [n] })).setHif { s.hostIf with turnB := (st + 1) % 128 })) ∧
  (∀ (st : Fin 128) (data : List (BitVec 9)) (s : State) (d : Desc),
    (s.strm st).stray = [] → (s.strm st).descs.find? (fun d => d.phase = .reading && !d.reads.isEmpty) = some d →
    exec (.bandDataArrival st false data) s = .next (((s.readFailed false).modDesc st d.count (fun x => { x with
      reads := x.reads.tail })).reject st d 0x22)) ∧
  (∀ (st : Fin 128) (data : List (BitVec 9)) (s v w : State) (d : Desc) (c : Cut), (s.strm st).stray = [] →
    (s.strm st).descs.find? (fun d => d.phase = .reading && !d.reads.isEmpty) = some d →
    (if mAny (data.take (d.reads.headD 0)) then s.aer aerPOISON else s) = v →
    cutRows (dFmt d.raw) (dWidth d.raw) (bandRows (dCount d.raw) (dRes d.raw) - (v.band d.seq).rows.length)
      (d.tail ++ data.take (d.reads.headD 0)) = c →
    ((v.setBand d.seq { v.band d.seq with rows := (v.band d.seq).rows ++ c.rows }).storesBand
      st (ceilDiv (data.take (d.reads.headD 0)).length 64)).modDesc st d.count (fun x => { x with
        got := d.got + (data.take (d.reads.headD 0)).length, tail := c.rest
        reads := answerRead (data.take (d.reads.headD 0)).length x.reads }) = w →
    (∀ code, c.bad = some code → exec (.bandDataArrival st true data) s = .next (w.reject st d code)) ∧
    (c.bad = none → d.got + (data.take (d.reads.headD 0)).length < bandFetch d.raw →
      exec (.bandDataArrival st true data) s = .next w) ∧
    (c.bad = none → bandFetch d.raw ≤ d.got + (data.take (d.reads.headD 0)).length →
      (v.band d.seq).rows.length + c.rows.length < bandRows (dCount d.raw) (dRes d.raw) →
      exec (.bandDataArrival st true data) s = .next (w.reject st d 0x12)) ∧
    (c.bad = none → bandFetch d.raw ≤ d.got + (data.take (d.reads.headD 0)).length →
      bandRows (dCount d.raw) (dRes d.raw) ≤ (v.band d.seq).rows.length + c.rows.length →
      exec (.bandDataArrival st true data) s = .next (w.bandReady st d (!c.rest.isEmpty)))) ∧
  (∀ (w n : Nat) (row rest : List (BitVec 9)), 4 ≤ row.length → mAny row = false → row.length = 4 + hdrLen row →
    rowOk w row = false → cutRows 4 w (n + 1) (row ++ rest) = ⟨[], row ++ rest, some 0x17⟩) ∧
  (∀ (st : Fin 128) (data : List (BitVec 9)) (s : State) (n : Nat) (l : List Nat), (s.strm st).stray = n :: l →
    exec (.bandDataArrival st false data) s = .next ((s.readFailed false).modStrm st (fun x => { x with stray := l })) ∧
    exec (.bandDataArrival st true data) s = .next ((if mAny (data.take n) then s.aer aerPOISON else s).modStrm st (fun x => { x with
      stray := answerRead (min n data.length) (n :: l) }))) ∧
  (∀ (st : Fin 128) (s : State) (d : Desc), (s.strm st).descs.find? (fun d => d.phase = .waitAdmit) = some d →
    s.admits st (bandSize d.raw) = true → bandFetch d.raw = 0 →
    exec (.bandAdmitted st) s = .next ((((s.makeRoom st (bandSize d.raw)).setBand d.seq
      ⟨st, dLine d.raw, dCount d.raw, d.first, dWidth d.raw, dFmt d.raw, dRes d.raw, dNoref d.raw, bandSize d.raw, [], false, false,
        0, [], [], dAddr d.raw, dStride d.raw, []⟩).waits st d .reading).reject st d 0x12))

/-- MARK, FENCE, TABLE and SCHEDULE-EVENT (R91 to R96). -/
def Obligations.MarksFencesTablesRun : Prop :=
  (∀ (st : Fin 128) (raw : BitVec 256) (s u v : State) (d : Desc), s.atSlot st = u → u.fetchOk st = true → u.fetchTurn st = true →
    u.overrun st = false → (u.tookTurn st).takeDesc st raw = v → u.newDesc st raw = d →
    (raw.toNat % 256 = 2 → markForm raw = true → exec (.mark st raw) s = .next (v.lineWait st d)) ∧
    (raw.toNat % 256 = 2 → markForm raw = false → exec (.mark st raw) s = .next (v.reject st d 0x15)) ∧
    (raw.toNat % 256 = 3 → fenceForm raw = true → exec (.fence st raw) s = .next v.flushAll) ∧
    (raw.toNat % 256 = 3 → fenceForm raw = false → exec (.fence st raw) s = .next (v.reject st d 0x15)) ∧
    (raw.toNat % 256 = 4 → tableForm raw = true → 0 < dLen raw → dLen raw % 16 = 0 → dLen raw ≤ 1048576 → dAddr raw % 16 = 0 →
      exec (.table st raw) s = .next (v.waits st d .table)) ∧
    (raw.toNat % 256 = 4 → tableForm raw = false → exec (.table st raw) s = .next (v.reject st d 0x15)) ∧
    (raw.toNat % 256 = 4 → tableForm raw = true → (dLen raw = 0 ∨ dLen raw % 16 ≠ 0 ∨ 1048576 < dLen raw) →
      exec (.table st raw) s = .next (v.reject st d 0x11)) ∧
    (raw.toNat % 256 = 4 → tableForm raw = true → 0 < dLen raw → dLen raw % 16 = 0 → dLen raw ≤ 1048576 → dAddr raw % 16 ≠ 0 →
      exec (.table st raw) s = .next (v.reject st d 0x16)) ∧
    (raw.toNat % 256 = 6 → v.eventForm raw = true → dCount raw ≠ 0 → exec (.scheduleEvent st raw) s = .next (v.lineWait st d)) ∧
    (raw.toNat % 256 = 6 → v.eventForm raw = false → exec (.scheduleEvent st raw) s = .next (v.reject st d 0x15)) ∧
    (raw.toNat % 256 = 6 → v.eventForm raw = true → dCount raw = 0 → exec (.scheduleEvent st raw) s = .next (v.reject st d 0x11))) ∧
  (∀ (st : Nat) (d : Desc) (s : State), s.armed = false →
    s.lineWait st d = s.modDesc st d.count (fun x => { x with phase := .waitLine, first := dLine x.raw })) ∧
  (∀ (st : Nat) (d : Desc) (s : State), s.armed = true → (s.members (dUnit d.raw)).isEmpty = true →
    s.lineWait st d = s.doneNow st d 0 (dLine d.raw)) ∧
  (∀ (st : Fin 128) (data : List (BitVec 128)) (s : State) (d : Desc),
    (s.strm st).descs.find? (fun d => d.phase = .table && decide (d.got < dLen d.raw)) = some d → s.canMaster = true →
    (s.strm st).pass.contains d.count = false → s.on (STR_CTL_SKIPERR st) = true → d.out = 0 →
    exec (.tableRecordReadDone st false data) s = .next ((((s.readFailed true).modDesc st d.count (fun x => { x with
      got := dLen x.raw, tail := [], status := 0x22 })).modDesc st d.count (fun x => { x with blank := true })).doneNow st d 0x22 d.first)) ∧
  (∀ (st : Fin 128) (data : List (BitVec 128)) (s : State) (d : Desc) (bytes : List Byte) (rest : State × List Byte),
    (s.strm st).descs.find? (fun d => d.phase = .table && decide (d.got < dLen d.raw)) = some d → s.canMaster = true →
    (data.map (fun w => leBytes 16 w.toNat)).flatten.take (dLen d.raw - d.got) = bytes →
    ((s.stores pkSTAGING 4 (ceilDiv bytes.length 64)).modDesc st d.count (fun x => { x with got := d.got + bytes.length })).passRecords
      st d.count (decide (dLen d.raw ≤ d.got + bytes.length)) (d.tail.map (fun b => b.truncate 8) ++ bytes).length
      (d.tail.map (fun b => b.truncate 8) ++ bytes) = rest →
    exec (.tableRecordReadDone st true data) s =
      .next (rest.1.modDesc st d.count (fun x => { x with tail := rest.2.map (fun b => b.zeroExtend 9) })))

/-- The command ring (R60 to R63). -/
def Obligations.CommandRingRuns : Prop :=
  (∀ (raw : BitVec 256) (s u : State), s.cmdOk = true → s.setReg HIF_CMDCONS (s.reg HIF_CMDCONS + 1#32) = u → isCmd 1 raw = true →
    u.fld PWR_STAT_STATE = 0 → u.armCheck = none →
    exec (.arm raw) s = .next (((u.armNow (cSeed raw)).readyShow).cmdEnd ((s.reg HIF_CMDCONS).toNat % s.cmdN) (cStream raw) 0 0 (cTag raw))) ∧
  (∀ (raw : BitVec 256) (s u v : State) (code : Nat), s.cmdOk = true → s.setReg HIF_CMDCONS (s.reg HIF_CMDCONS + 1#32) = u → isCmd 1 raw = true →
    u.fld PWR_STAT_STATE = 0 → u.armCheck = some (code, v) →
    exec (.arm raw) s = .next (v.cmdEnd ((s.reg HIF_CMDCONS).toNat % s.cmdN) (cStream raw) code 0 (cTag raw))) ∧
  (∀ (raw : BitVec 256) (s u : State), s.cmdOk = true → s.setReg HIF_CMDCONS (s.reg HIF_CMDCONS + 1#32) = u → isCmd 2 raw = true →
    u.armed = false →
    exec (.disarm raw) s = .next (u.cmdEnd ((s.reg HIF_CMDCONS).toNat % s.cmdN) (cStream raw) 0x41 (cLine raw) (cTag raw))) ∧
  (∀ (raw : BitVec 256) (s u w : State), s.cmdOk = true → s.setReg HIF_CMDCONS (s.reg HIF_CMDCONS + 1#32) = u → isCmd 2 raw = true →
    u.armed = true → u.on FIR_STATE_NOORG = false → u.splice.active = false → u.fld TRN_STATE_SEQ < 2 →
    u.liveHeads.foldl (fun s h => s.endHead h (cLine raw)) u = w →
    exec (.disarm raw) s = .next (w.setHif { w.hostIf with disarm := some (raw, (s.reg HIF_CMDCONS).toNat % s.cmdN) })) ∧
  (∀ (raw : BitVec 256) (s u : State), s.cmdOk = true → s.setReg HIF_CMDCONS (s.reg HIF_CMDCONS + 1#32) = u → isCmd 2 raw = true →
    u.armed = true → u.on FIR_STATE_NOORG = true →
    exec (.disarm raw) s = .next (((u.liveHeads.foldl (fun s h => s.endHere h) u).jobDone).cmdEnd
      ((s.reg HIF_CMDCONS).toNat % s.cmdN) (cStream raw) 0 (cLine raw) (cTag raw))) ∧
  (∀ (raw : BitVec 256) (slot : Nat) (s : State), s.hostIf.disarm = some (raw, slot) → s.armed = true →
    s.liveHeads.all (fun h => s.headEnded h) = true →
    exec .disarmComplete s = .next ((s.jobDone.setHif { s.jobDone.hostIf with disarm := none }).cmdEnd slot (cStream raw) 0
      (cLine raw) (cTag raw))) ∧
  (∀ (raw : BitVec 256) (s u : State), s.cmdOk = true → s.setReg HIF_CMDCONS (s.reg HIF_CMDCONS + 1#32) = u → isCmd 3 raw = true →
    exec (.restart raw) s = .next (if u.strState (cStream raw) = stHALTED then
        (u.unhalt (cStream raw) (u.haltSlot (cStream raw))).cmdEnd ((s.reg HIF_CMDCONS).toNat % s.cmdN) (cStream raw) 0 0 (cTag raw)
      else u.cmdEnd ((s.reg HIF_CMDCONS).toNat % s.cmdN) (cStream raw) 0x44 0 (cTag raw))) ∧
  (∀ (raw : BitVec 256) (s u : State), s.cmdOk = true → s.setReg HIF_CMDCONS (s.reg HIF_CMDCONS + 1#32) = u → isCmd 4 raw = true →
    exec (.skip raw) s = .next (if u.strState (cStream raw) = stHALTED then
        ((u.skipLines (cStream raw)).unhalt (cStream raw) (u.haltSlot (cStream raw) + 1#32)).cmdEnd
          ((s.reg HIF_CMDCONS).toNat % s.cmdN) (cStream raw) 0 0 (cTag raw)
      else u.cmdEnd ((s.reg HIF_CMDCONS).toNat % s.cmdN) (cStream raw) 0x44 0 (cTag raw))) ∧
  (∀ (raw : BitVec 256) (s u : State), s.cmdOk = true → s.setReg HIF_CMDCONS (s.reg HIF_CMDCONS + 1#32) = u → isCmd 5 raw = true →
    exec (.status raw) s = .next (u.statusBlock.cmdEnd ((s.reg HIF_CMDCONS).toNat % s.cmdN) (cStream raw) 0 0 (cTag raw))) ∧
  (∀ (raw : BitVec 256) (s u : State), s.cmdOk = true → s.setReg HIF_CMDCONS (s.reg HIF_CMDCONS + 1#32) = u → isCmd 6 raw = true →
    exec (.nop raw) s = .next (u.cmdEnd ((s.reg HIF_CMDCONS).toNat % s.cmdN) (cStream raw) 0 0 (cTag raw))) ∧
  (∀ (raw : BitVec 256) (s u : State), s.cmdOk = true → s.setReg HIF_CMDCONS (s.reg HIF_CMDCONS + 1#32) = u →
    (∀ k, 1 ≤ k → k < 7 → isCmd k raw = false) →
    exec (.badcmd raw) s = .next (u.cmdEnd ((s.reg HIF_CMDCONS).toNat % s.cmdN) (cStream raw) 0x45 0 (cTag raw)))

/-- Queues, streams, the status period and Bus Master Enable (R49, R57, R66, R67, R74, R79). -/
def Obligations.HostQueuesRun : Prop :=
  (∀ s : State, exec .heldCompletionsWritten s = .next s.flushHost) ∧
  (∀ (t : Nat) (load : Fin 101) (backlog : BitVec 8) (low : Bool) (s u p w : State), s.advance t = u → u.on RST_STAT_DONE = true →
    u.awake = true → u.hostIf.statEnd ≤ u.clk → (u.serveGold (u.svc.tasks.length - backlog.toNat)).periodFigures load backlog.toNat low = p →
    p.setHif { p.hostIf with statEnd := p.hostIf.statEnd + 400 * p.fld HIF_STATPER_PER, statLen := 400 * p.fld HIF_STATPER_PER } = w →
    exec (.statusPeriodEnd t load backlog low) s = .next (if w.on HIF_CTL_STATEN && w.canMaster then w.statusBlock else w)) ∧
  (∀ s : State, s.aonOk = true → exec (.busMasterEnableChange false) s =
    .next ((List.range 128).foldl (fun s st => s.holdState st) (s.setFld HIF_CTL_BME 0))) ∧
  (∀ s : State, s.aonOk = true → exec (.busMasterEnableChange true) s =
    .next ((List.range 128).foldl (fun s st => s.holdState st) ((s.setFld HIF_CTL_BME 1).pollResume.flushHost))) ∧
  (∀ (q : Fin 8) (v : BitVec 32) (s : State) (n : Nat), s.barOk 0 = true → s.armed = false →
    (if 13 ≤ bitsOf v.toNat 1 4 then s.fld (HIF_CQCTL_SIZE q) else bitsOf v.toNat 1 4) = n →
    (bitAt v.toNat 0 = false → exec (.cqEnableWrite q v) s =
      .next (((s.setFld (HIF_CQCTL_EN q) 0).setFld (HIF_CQCTL_SIZE q) n).setReg (HIF_CQPROD q) 0#32)) ∧
    (bitAt v.toNat 0 = true → exec (.cqEnableWrite q v) s =
      .next (((s.setFld (HIF_CQCTL_EN q) 1).setFld (HIF_CQCTL_SIZE q) n).flushHost))) ∧
  (∀ (q : Fin 8) (v : BitVec 32) (s : State), s.barOk 0 = true → s.armed = true →
    exec (.cqEnableWrite q v) s = .next (s.recordAt HIF_ERR erARMED (HIF_CQCTL q))) ∧
  (∀ (st : Fin 128) (v : BitVec 32) (s u : State) (n : Nat), s.barOk 1 = true → s.armed = false →
    (if 13 ≤ bitsOf v.toNat 2 4 then s.fld (STR_CTL_SIZE st) else bitsOf v.toNat 2 4) = n →
    s.setReg (STR_CTL st) (putBits v 2 4 n &&& 0x77F#32) = u →
    (bitAt v.toNat 0 = true → s.on (STR_CTL_EN st) = false →
      exec (.streamEnableWrite st v) s = .next ((u.setFld (STR_STATE_STATE st) stRUN).holdState st)) ∧
    (bitAt v.toNat 0 = true → s.on (STR_CTL_EN st) = true → exec (.streamEnableWrite st v) s = .next u.flushHost) ∧
    (bitAt v.toNat 0 = false → exec (.streamEnableWrite st v) s = .next ((((u.setReg (STR_CONS st) 0#32).setReg (STR_DONE st) 0#32).setFld
      (STR_STATE_STATE st) stOFF).setStrm st { Stream.reset with prod := (u.strm st).prod, stray := (u.strm st).strayAll }))) ∧
  (∀ (st : Fin 128) (v : BitVec 32) (s : State), s.barOk 1 = true → s.armed = true →
    exec (.streamEnableWrite st v) s = .next (s.recordAt HIF_ERR erARMED (STR_CTL st))) ∧
  (∀ (t : Nat) (load : Fin 101) (backlog : BitVec 8) (low : Bool) (s u : State), s.advance t = u →
    (u.on RST_STAT_DONE = false ∨ u.awake = false ∨ u.clk < u.hostIf.statEnd) → exec (.statusPeriodEnd t load backlog low) s = .next u) ∧
  (∀ (s : State) (up : Bool), s.aonOk = false → exec (.busMasterEnableChange up) s = .next s) ∧
  (∀ (q : Fin 8) (st : Fin 128) (v : BitVec 32) (s : State), (s.barOk 0 = false → exec (.cqEnableWrite q v) s = .next s) ∧
    (s.barOk 1 = false → exec (.streamEnableWrite st v) s = .next s))

/-- The unit operation records and their codes (R38). -/
def Obligations.UnitRecordsRun : Prop :=
  (∀ (s p v : State) (r : PortReq) (l : List PortReq), s.portQ = r :: l → s.judgeOp (rawOp r.bytes) = none →
    ({ s with portQ := l } : State) = p →
    (p.opAccept ⟨uUnit (rawOp r.bytes), uCode (rawOp r.bytes), uLine (rawOp r.bytes), uArg (rawOp r.bytes)⟩).portResult r.src 0 = v →
    (rCode r.bytes = 1 → exec .enable s = .next v) ∧ (rCode r.bytes = 2 → exec .disable s = .next v) ∧
    (rCode r.bytes = 3 → exec .hold s = .next v) ∧ (rCode r.bytes = 4 → exec .release s = .next v) ∧
    (rCode r.bytes = 5 → exec .setDelay s = .next v) ∧ (rCode r.bytes = 6 → exec .setXofs s = .next v) ∧
    (rCode r.bytes = 7 → exec .setDirofs s = .next v) ∧ (rCode r.bytes = 8 → exec .setPolicy s = .next v) ∧
    (rCode r.bytes = 9 → exec .trimRamp s = .next v)) ∧
  (∀ (s v : State) (r : PortReq) (l : List PortReq) (e : Nat), s.portQ = r :: l → s.judgeOp (rawOp r.bytes) = some e →
    (({ s with portQ := l } : State).unitErr e (uUnit (rawOp r.bytes))).portResult r.src e = v →
    (rCode r.bytes = 1 → exec .enable s = .next v) ∧ (rCode r.bytes = 2 → exec .disable s = .next v) ∧
    (rCode r.bytes = 3 → exec .hold s = .next v) ∧ (rCode r.bytes = 4 → exec .release s = .next v) ∧
    (rCode r.bytes = 5 → exec .setDelay s = .next v) ∧ (rCode r.bytes = 6 → exec .setXofs s = .next v) ∧
    (rCode r.bytes = 7 → exec .setDirofs s = .next v) ∧ (rCode r.bytes = 8 → exec .setPolicy s = .next v) ∧
    (rCode r.bytes = 9 → exec .trimRamp s = .next v)) ∧
  (∀ (s : State) (c : Nat), (s.portQ = [] ∨ ∃ (r : PortReq) (l : List PortReq), s.portQ = r :: l ∧ rCode r.bytes = c) →
    (c ≠ 1 → exec .enable s = .next s) ∧ (c ≠ 2 → exec .disable s = .next s) ∧ (c ≠ 3 → exec .hold s = .next s) ∧
    (c ≠ 4 → exec .release s = .next s) ∧ (c ≠ 5 → exec .setDelay s = .next s) ∧ (c ≠ 6 → exec .setXofs s = .next s) ∧
    (c ≠ 7 → exec .setDirofs s = .next s) ∧ (c ≠ 8 → exec .setPolicy s = .next s) ∧ (c ≠ 9 → exec .trimRamp s = .next s)) ∧
  (∀ (s : State) (o : UOp), (s.opAccept o).uops = s.uops ++ [o]) ∧
  (∀ (s : State) (r : PortReq) (l : List PortReq), s.portQ = r :: l → codeReserved (rCode r.bytes) = true →
    0x40 ≤ rCode r.bytes → rCode r.bytes < 0x80 →
    exec .badop s = .next (({ s with portQ := l } : State).portRefuse r erBADOP (rIndex r.bytes))) ∧
  (∀ (s : State) (r : PortReq) (l : List PortReq), s.portQ = r :: l → codeReserved (rCode r.bytes) = false → exec .badop s = .next s) ∧
  (∀ (s : State) (r : PortReq) (l : List PortReq), s.portQ = r :: l → codeReserved (rCode r.bytes) = true →
    (rCode r.bytes < 0x40 ∨ 0x80 ≤ rCode r.bytes) →
    exec .badop s = .next ((({ s with portQ := l } : State).unitErr erBADOP (uUnit (rawOp r.bytes))).portResult r.src erBADOP)) ∧
  (∀ s : State, s.portQ = [] → exec .badop s = .next s) ∧
  (∀ c : Nat, c < 256 → (codeReserved c = true ↔ c = 0 ∨ (10 ≤ c ∧ c ≠ 0x40 ∧ c ≠ 0x41 ∧ c ≠ 0x44 ∧ c ≠ 0x45 ∧ c ≠ 0x46)))

/-- UNIT_OPERATION_EFFECT (R39). -/
def Obligations.UnitEffectsShow : Prop :=
  (∀ (h : Fin 64) (s : State), s.armed = true → s.isLive h = true →
    exec (.unitOperationEffect h) s = .next (((s.putEffHead h).putEffGroups h).overCheck h)) ∧
  (∀ (h : Fin 64) (s : State), s.armed = false ∨ s.isLive h = false → exec (.unitOperationEffect h) s = .next s) ∧
  (∀ (h : Fin 64) (s : State), s.canonical → s.armed = true → s.isLive h = true →
    Runs (.unitOperationEffect h) s (fun w => ∃ v : State, w = v.overCheck h ∧
      v.reg (UNT_EFFDW h) = BitVec.ofNat 32 (unsign 32 (s.effAt h (s.head h).next).dw) ∧
      v.reg (UNT_EFFX h) = BitVec.ofNat 32 (unsign 18 (s.effAt h (s.head h).next).x) ∧
      ((v.reg (UNT_EFFCTL h)).getLsbD 0 = (s.effAt h (s.head h).next).en) ∧
      ((v.reg (UNT_EFFCTL h)).getLsbD 1 = (s.effAt h (s.head h).next).hold) ∧ v.uops = s.uops ∧ v.tabs = s.tabs)) ∧
  (∀ (s : State) (o : UOp) (u line : Nat), s.armed = true → s.uops = [o] → o.unit = u → o.line ≤ line →
    (o.code = 1 → (s.ownAt u line).en = true) ∧ (o.code = 2 → (s.ownAt u line).en = false) ∧
    (o.code = 3 → (s.ownAt u line).hold = true) ∧ (o.code = 4 → (s.ownAt u line).hold = false) ∧
    (o.code = 5 → (s.ownAt u line).dw = o.arg.toInt) ∧ (o.code = 6 → (s.ownAt u line).x = signed 18 o.arg.toNat) ∧
    (o.code = 7 → (s.ownAt u line).fwd = signed 16 o.arg.toNat ∧ (s.ownAt u line).rev = signed 16 (o.arg.toNat / 2 ^ 16)) ∧
    (o.code = 8 → (s.ownAt u line).pol = bitsOf o.arg.toNat 0 2 ∧ (s.ownAt u line).tl = bitsOf o.arg.toNat 8 8) ∧
    (o.code = 9 → (s.ownAt u line).adj = signed 15 (bitsOf o.arg.toNat 0 15))) ∧
  (∀ (s : State) (u line : Nat), s.armed = true → (∀ o ∈ s.uops, o.unit ≠ u ∨ line < o.line) →
    s.ownAt u line = ({ s with uops := [] } : State).ownAt u line)

/-- The table update records and their codes (R167). -/
def Obligations.TableRecordsRun : Prop :=
  (∀ (s u v : State) (r : PortReq) (l : List PortReq), s.portQ = r :: l → r.waits = false → s.settleBase r = u →
    u.judge r = .accept → ((u.portPop).carry r).portResult r.src 0 = v →
    (rCode r.bytes = 0x40 → exec .entries s = .next v) ∧ (rCode r.bytes = 0x41 → exec .masked s = .next v) ∧
    (rCode r.bytes = 0x44 → exec .curve s = .next v) ∧ (rCode r.bytes = 0x45 → exec .matrix s = .next v) ∧
    (rCode r.bytes = 0x46 → exec .mtxsel s = .next v)) ∧
  (∀ (s u v : State) (r : PortReq) (l : List PortReq) (e x : Nat), s.portQ = r :: l → r.waits = false → s.settleBase r = u →
    u.judge r = .refuse e x → (u.portPop).portRefuse r e x = v →
    (rCode r.bytes = 0x40 → exec .entries s = .next v) ∧ (rCode r.bytes = 0x41 → exec .masked s = .next v) ∧
    (rCode r.bytes = 0x44 → exec .curve s = .next v) ∧ (rCode r.bytes = 0x45 → exec .matrix s = .next v) ∧
    (rCode r.bytes = 0x46 → exec .mtxsel s = .next v)) ∧
  (∀ (s u v : State) (r : PortReq) (l : List PortReq) (n : Nat), s.portQ = r :: l → r.waits = false → s.settleBase r = u →
    u.judge r = .wait n → ({ u with portQ := { r with waits := true } :: u.portQ.tail } : State).count KLN_BLENDST_WAITS n = v →
    (rCode r.bytes = 0x40 → exec .entries s = .next v) ∧ (rCode r.bytes = 0x41 → exec .masked s = .next v) ∧
    (rCode r.bytes = 0x44 → exec .curve s = .next v) ∧ (rCode r.bytes = 0x45 → exec .matrix s = .next v) ∧
    (rCode r.bytes = 0x46 → exec .mtxsel s = .next v)) ∧
  (∀ (s u : State) (r : PortReq) (l : List PortReq), s.portQ = r :: l → r.waits = true → s.settleBase r = u → u.judge r = .accept →
    exec .tablePortWaitEnd s = .next (((u.portPop).carry r).portResult r.src 0)) ∧
  (∀ (s u : State) (r : PortReq) (l : List PortReq) (e x : Nat), s.portQ = r :: l → r.waits = true → s.settleBase r = u →
    u.judge r = .refuse e x → exec .tablePortWaitEnd s = .next ((u.portPop).portRefuse r e x)) ∧
  (∀ (s : State) (r : PortReq) (l : List PortReq), s.portQ = r :: l → r.waits = false → exec .tablePortWaitEnd s = .next s) ∧
  (∀ (s : State) (r : PortReq) (e x : Nat), r.src = .bar0 ∨ r.src = .reload →
    s.portRefuse r e x = (s.nztErr e x r.src.writer).countReg NZT_REFUSED 1) ∧
  (∀ (c : Instr) (s m : State) (r : PortReq) (l : List PortReq), s.canonical → s.armed = false → s.portQ = r :: l →
    (r.src = .bar0 ∨ ∃ st c, r.src = .stream st c) → s.portPop.mergeCommit = m →
    r.expect = none → r.ash = false → (c = .entries ∧ r.waits = false ∨ c = .tablePortWaitEnd ∧ r.waits = true) → rCode r.bytes = 0x40 →
    byteOf r.bytes 1 = 0 → byteOf r.bytes 2 = 0 → byteOf r.bytes 3 = 0 → fieldOf r.bytes 14 2 = 0 → 0 < rCount r.bytes →
    rIndex r.bytes + rCount r.bytes ≤ 131072 → r.bytes.length = 16 + 16 * ceilDiv (rCount r.bytes) 2 →
    (rCount r.bytes % 2 = 1 → fieldOf r.bytes (16 + 8 * rCount r.bytes) 8 = 0) →
    (∀ j, j < rCount r.bytes → eReserved (BitVec.ofNat 64 (fieldOf r.bytes (16 + 8 * j) 8)) = 0) →
    Runs c s (fun t => t.portQ = m.portQ ∧ (∀ j, j < rCount r.bytes →
      (t.ent (rIndex r.bytes + j)).base = MWord.clean (BitVec.ofNat 64 (fieldOf r.bytes (16 + 8 * j) 8)) ∧
      (t.ent (rIndex r.bytes + j)).chg = []) ∧
      (∀ n, n < rIndex r.bytes ∨ rIndex r.bytes + rCount r.bytes ≤ n → t.ent n = m.ent n))) ∧
  (∀ (s u m : State) (r : PortReq) (l : List PortReq) (n : Nat) (v : BitVec 64), s.canonical → s.portQ = r :: l →
    (r.src = .bar0 ∨ ∃ st c, r.src = .stream st c) → r.ash = false → r.waits = false → rCode r.bytes = 0x41 → s.settleBase r = u →
    u.judge r = .accept → u.portPop = m → rIndex r.bytes = n → (u.ent n).last.out.2 = false →
    ((u.ent n).last.out.1 &&& ~~~(BitVec.ofNat 64 (fieldOf r.bytes 24 8))) |||
      (BitVec.ofNat 64 (fieldOf r.bytes 16 8) &&& BitVec.ofNat 64 (fieldOf r.bytes 24 8)) = v →
    Runs .masked s (fun t => t.portQ = m.portQ ∧ (t.ent n).last = MWord.clean v ∧ (∀ k, k ≠ n → t.ent k = u.ent k) ∧
      (u.armed = false ∨ u.isLive (entPort n) = false → (t.ent n).base = MWord.clean v ∧ (t.ent n).chg = []) ∧
      (u.armed = true → u.isLive (entPort n) = true → u.isChange n v false = true → ∃ o, (t.ent n).base = (u.ent n).base ∧ (t.ent n).chg =
        (u.ent n).chg.filter (fun d => decide (d.e < rLine r.bytes)) ++ [⟨rLine r.bytes, fadeLen (eBlend v), o, MWord.clean v⟩]) ∧
      (u.armed = true → u.isLive (entPort n) = true → u.isChange n v false = false → (u.ent n).chg = [] → (t.ent n).base = MWord.clean v ∧
        (t.ent n).chg = []))) ∧
  (∀ (c : Instr) (s m : State) (r : PortReq) (l : List PortReq) (q : Nat), s.canonical → s.portQ = r :: l →
    (r.src = .bar0 ∨ ∃ st c, r.src = .stream st c) → (c = .curve ∧ r.waits = false ∨ c = .tablePortWaitEnd ∧ r.waits = true) →
    rCode r.bytes = 0x44 → s.judge r = .accept → s.portPop.mergeCommit = m → byteOf r.bytes 2 = q →
    Runs c s (fun t => t.portQ = m.portQ ∧ t.fld KLN_EMBCTL_GOLDVAL = 0 ∧
      (m.armed = false → (t.curve q).bank = (m.curve q).bank ∧
        ∀ j, j < 256 → t.curveAt q (m.curve q).bank j = (fieldOf r.bytes (16 + 2 * j) 2, false)) ∧
      (m.armed = true → (∀ j, j < 256 → t.curveAt q (1 - (m.curve q).bank) j = (fieldOf r.bytes (16 + 2 * j) 2, false)) ∧
        (m.liveHeads ≠ [] → t.curve q = { m.curve q with wr := 1 - (m.curve q).bank, pend := some (rLine r.bytes, m.liveHeads) }) ∧
        (m.liveHeads = [] → (t.curve q).bank = 1 - (m.curve q).bank ∧ (t.curve q).pend = none)))) ∧
  (∀ (s m : State) (r : PortReq) (l : List PortReq) (k : Nat), s.canonical → s.portQ = r :: l →
    (r.src = .bar0 ∨ ∃ st c, r.src = .stream st c) → r.waits = false → rCode r.bytes = 0x45 → s.judge r = .accept →
    s.portPop.mergeCommit = m → byteOf r.bytes 2 = k → rCount r.bytes = 1 →
    Runs .matrix s (fun t => t.portQ = m.portQ ∧ (∀ v, v < 16 → v % 4 = k → t.fld KLN_EMBCTL_GOLDVAL / 2 ^ v % 2 = 0) ∧
      (∀ j, j < 3 * s.mtxDim k → (t.mtxByte (cellOff k (rIndex r.bytes) 0 + j)).1 = byteOf r.bytes (16 + j)))) ∧
  (∀ (s m : State) (r : PortReq) (l : List PortReq), s.canonical → s.portQ = r :: l →
    (r.src = .bar0 ∨ ∃ st c, r.src = .stream st c) → r.waits = false → rCode r.bytes = 0x46 → s.judge r = .accept →
    s.portPop.mergeCommit = m → byteOf r.bytes 3 < 4 →
    Runs .mtxsel s (fun t => t.portQ = m.portQ ∧
      (m.armed = false → ∀ h : Fin 64, t.mtxSel h =
        if (m.members (byteOf r.bytes 2)).contains h.val then byteOf r.bytes 3 else m.mtxSel h) ∧
      (m.armed = true → ∀ h : Fin 64, (t.head h).sels = (if (m.members (byteOf r.bytes 2)).contains h.val
        then insertSel (rLine r.bytes, byteOf r.bytes 3) (m.head h).sels else (m.head h).sels) ∧ t.mtxSel h = m.mtxSel h))) ∧
  (∀ (c : Instr) (s m : State) (r : PortReq) (l : List PortReq) (j : Nat), s.canonical → s.portQ = r :: l → s.armed = true →
    (r.src = .bar0 ∨ ∃ st c, r.src = .stream st c) → r.ash = false →
    (c = .entries ∧ r.waits = false ∨ c = .tablePortWaitEnd ∧ r.waits = true) → rCode r.bytes = 0x40 → s.judge r = .accept →
    s.portPop.mergeCommit = m → j < rCount r.bytes →
    Runs c s (fun t => t.portQ = m.portQ ∧
      (t.ent (rIndex r.bytes + j)).last = MWord.clean (BitVec.ofNat 64 (fieldOf r.bytes (16 + 8 * j) 8)) ∧
      (m.isLive (entPort (rIndex r.bytes + j)) = true →
        m.isChange (rIndex r.bytes + j) (BitVec.ofNat 64 (fieldOf r.bytes (16 + 8 * j) 8)) false = true →
        ∃ o, (t.ent (rIndex r.bytes + j)).chg = (m.ent (rIndex r.bytes + j)).chg.filter (fun d => decide (d.e < rLine r.bytes)) ++
          [⟨rLine r.bytes, fadeLen (eBlend (BitVec.ofNat 64 (fieldOf r.bytes (16 + 8 * j) 8))), o,
            MWord.clean (BitVec.ofNat 64 (fieldOf r.bytes (16 + 8 * j) 8))⟩]) ∧
      (∀ n, n < rIndex r.bytes ∨ rIndex r.bytes + rCount r.bytes ≤ n → t.ent n = m.ent n)))

/-- Windows, queries, scans and the reload queue. -/
def Obligations.TableWindowsRun : Prop :=
  (∀ (t : Nat) (a : BitVec 20) (len : Fin 5) (v : BitVec 32) (s u : State), s.advance t = u → u.barOk 3 = true →
    a.toNat % 4 + len.val ≤ 4 →
    exec (.nztWindowWrite t a len v) s = .next (if u.armed then u.latchWrite a.toNat len.val v.toNat
      else u.windowPut (NZT_WIN + a.toNat) len.val v.toNat)) ∧
  (∀ (t : Nat) (a : BitVec 20) (len : Fin 5) (v : BitVec 32) (s u : State), s.advance t = u → u.barOk 3 = true →
    a.toNat % 4 + len.val ≤ 4 → a.toNat < 0xC8000 →
    exec (.curveMatrixWindowWrite t a len v) s = .next (if u.armed then
        u.nztErr erARMED (if a.toNat < 0xC0000 then a.toNat / 0x30000 else (a.toNat - 0xC0000) / 512) 2
      else u.windowPut (MTX_WIN + a.toNat) len.val v.toNat)) ∧
  (∀ (t : Nat) (s u : State) (l : Narrow), s.advance t = u → u.tabs.latch = some l →
    exec (.nztLatchTimeout t) s = .next (if l.at_ + 1600 ≤ u.clk then
      (u.setLatch none).latchLost l.key else u)) ∧
  (∀ (k : BitVec 18) (s : State), s.barOk 3 = true → exec (.nztQuery k false) s = .next
    ((s.setReg NZT_QRESA (queryWord (s.mapOf k.toNat)[0]? (decide (2 < (s.colEnts k.toNat).length)))).setReg
      NZT_QRESB (queryWord (s.mapOf k.toNat)[1]? false))) ∧
  (∀ (k : BitVec 18) (s : State), s.barOk 3 = true →
    ¬ (k.toNat < 131072 ∧ eState (s.mapWord k.toNat) ≠ 3 ∧ eCol (s.mapWord k.toNat) < s.ncol) →
    exec (.nztQuery k true) s = .next ((s.setReg NZT_QRESA 0#32).setReg NZT_QRESB 0#32)) ∧
  (∀ s : State, s.barOk 3 = true → exec .nztScanStart s = .next (if s.tabs.scan then s
    else ({ s with tabs := { s.tabs with scan := true } } : State).setFld NZT_SCANST_BUSY 1)) ∧
  (∀ s : State, s.tabs.scan = true → exec .nztScanDone s = .next
    ((((({ s with tabs := { s.tabs with scan := false } } : State).setFld NZT_SCANST_BUSY 0).setFld NZT_SCANZERO_COLS
      (s.ncol - s.usedCols.length)).setFld NZT_SCANONE_COLS (s.usedCols.filter (fun k => s.colOne k)).length).setFld
      NZT_SCANDUP_COLS (s.usedCols.filter (fun k => s.colDup k)).length)) ∧
  (∀ s : State, exec .columnMapRebuildDone s = .next { s with tabs := { s.tabs with mapOut := [] } }) ∧
  (∀ (s : State), s.barOk 3 = true → exec .nztReloadRead s = .next
    ((({ s with freeCtr := s.freeCtr + 1, readEP := false, tabs := { s.tabs with reload := s.tabs.reload.tail }
                readData := BitVec.ofNat 64 (s.reloadWord ||| ((Config.freeWord s.freeCtr).truncate 32 &&& 0x3FFE0000#32)).toNat }
      : State)).setFld NZT_RELCNT_COUNT (s.tabs.reload.length - 1))) ∧
  (∀ (t : Nat) (a : BitVec 20) (len : Fin 5) (v : BitVec 32) (s u : State), s.canonical → s.advance t = u → u.barOk 3 = true →
    1 ≤ len.val → a.toNat % 4 + len.val ≤ 4 → u.armed = false → u.mergeBuf memSRAM = none →
    Runs (.nztWindowWrite t a len v) s (fun w => w.tabs.ents = u.tabs.ents ∧ w.mergeBuf memSRAM = some
      ⟨(NZT_WIN + a.toNat) / 8, (2 ^ len.val - 1) * 2 ^ (a.toNat % 8),
        mergeBytes 0 (v.toNat * 2 ^ (8 * (a.toNat % 8))) ((2 ^ len.val - 1) * 2 ^ (a.toNat % 8)), u.clk⟩) ∧
    (a.toNat < 0xC8000 → Runs (.curveMatrixWindowWrite t a len v) s (fun w => w.tabs.mtx = u.tabs.mtx ∧ w.tabs.curves = u.tabs.curves ∧
      w.mergeBuf memSRAM = some ⟨(MTX_WIN + a.toNat) / 8, (2 ^ len.val - 1) * 2 ^ (a.toNat % 8),
        mergeBytes 0 (v.toNat * 2 ^ (8 * (a.toNat % 8))) ((2 ^ len.val - 1) * 2 ^ (a.toNat % 8)), u.clk⟩))) ∧
  (∀ (t : Nat) (a : BitVec 20) (len : Fin 5) (v : BitVec 32) (s u : State), s.advance t = u → u.barOk 3 = true →
    1 ≤ len.val → a.toNat % 8 + len.val ≤ 4 → u.armed = true → u.tabs.latch = none →
    Runs (.nztWindowWrite t a len v) s (fun w => w.tabs.ents = u.tabs.ents ∧ w.portQ = u.portQ ∧ w.tabs.latch = some
      ⟨a.toNat / 8, (2 ^ len.val - 1) * 2 ^ (a.toNat % 8),
        mergeBytes 0 (v.toNat * 2 ^ (8 * (a.toNat % 8))) ((2 ^ len.val - 1) * 2 ^ (a.toNat % 8)), u.clk⟩)) ∧
  (∀ (t : Nat) (s u : State) (l : Narrow), s.canonical → s.advance t = u → u.tabs.latch = some l → l.at_ + 1600 ≤ u.clk →
    Runs (.nztLatchTimeout t) s (fun w => w.tabs.latch = none ∧ w.tabs.ents = u.tabs.ents ∧ w.on NZT_ERR_VALID = true ∧
      (w.reg NZT_REFUSED).toNat = min ((u.reg NZT_REFUSED).toNat + 1) (2 ^ 32 - 1)))

/-- The Stokers and Kiln. -/
def Obligations.StokerAndKilnRun : Prop :=
  (∀ (h : Fin 64) (s : State), s.armed = true → s.fld PWR_STAT_STATE = 0 → s.on FIR_STATE_NOORG = false → s.isLive h = true → (s.head h).next ≤ (s.head h).tileTo →
    (s.head h).tileTo < (s.head h).next + 128 → (s.head h).before (s.head h).tileTo = true → s.enAt h (s.head h).tileTo = false →
    exec (.stokerFetch h) s = .next ((s.modHead h (fun x => { x with tileTo := (s.head h).tileTo + 1 })).refBuild h)) ∧
  (∀ (h : Fin 64) (s : State) (st q y : Nat) (x : Bool × State), s.armed = true → s.fld PWR_STAT_STATE = 0 → s.on FIR_STATE_NOORG = false → s.isLive h = true →
    (s.head h).next ≤ (s.head h).tileTo → (s.head h).tileTo < (s.head h).next + 128 → (s.head h).before (s.head h).tileTo = true →
    s.enAt h (s.head h).tileTo = true → s.streamOf h = some st → (s.strm st).kindAt (s.head h).tileTo = .band q →
    (s.band q).ready = true → (s.rowsFor (s.band q) (s.head h).tileTo).find? (fun y => ((s.head h).row q y).isNone) = some y →
    (s.head h).tile.length < 64 → State.stokerRows h q (s.decodeRows h q y) s = x →
    exec (.stokerFetch h) s = .next (if x.1 then (x.2.tileRow h q y).tileStep h else x.2)) ∧
  (∀ (h q y : Nat) (ys : List Nat) (s u : State),
    (s.storeUse 0 (ceilDiv ((s.band q).rows[y]?.getD []).length 64)).deviceReads (fun i => s.ringPart (s.band q).stream i)
      (fun e => .row q y (e % max 1 (ceilDiv ((s.band q).rows[y]?.getD []).length 8))) = u →
    ((s.band q).refet.contains y = true → State.stokerRows h q (y :: ys) s = (false, s.refetch q y)) ∧
    ((s.band q).refet.contains y = false → (u.band q).mustRefetch y = true → State.stokerRows h q (y :: ys) s = (false, u.refetch q y)) ∧
    ((s.band q).refet.contains y = false → (u.band q).mustRefetch y = false →
      State.stokerRows h q (y :: ys) s = State.stokerRows h q ys (u.modHead h (fun x => { x with decAt := some (q, y) }))) ∧
    State.stokerRows h q [] s = (true, s)) ∧
  (∀ (h : Fin 64) (s : State), (s.head h).next ≤ (s.head h).tileTo →
    s.armed = false ∨ s.fld PWR_STAT_STATE ≠ 0 ∨ s.on FIR_STATE_NOORG = true ∨ s.isLive h = false ∨ (s.head h).next + 128 ≤ (s.head h).tileTo →
    exec (.stokerFetch h) s = .next s) ∧
  (∀ (q y : Nat) (data : List (BitVec 9)) (s u : State), (s.band q).asked.any (fun a => a.1 == y) = true → mAny data = false →
    data.length = ((s.band q).rows[y]?.getD []).length → fmtTurf (s.band q).fmt = false →
    s.storesBand (s.band q).stream (ceilDiv data.length 64) = u →
    exec (.refetchDone q y true data) s = .next (u.setBand q { s.band q with
      refet := (s.band q).refet.filter (fun z => z != y), rows := (s.band q).rows.set y data
      asked := (s.band q).asked.filter (fun a => a.1 != y) })) ∧
  (∀ (q y : Nat) (data : List (BitVec 9)) (s u : State), (s.band q).asked.any (fun a => a.1 == y) = true → s.readFailed true = u →
    exec (.refetchDone q y false data) s = .next ((u.setBand q { s.band q with
      refet := (s.band q).refet.filter (fun z => z != y), refail := (s.band q).refail ++ [y]
      asked := (s.band q).asked.filter (fun a => a.1 != y) }).countReg ECC_REFAIL 1)) ∧
  (∀ (q y : Nat) (ok : Bool) (data : List (BitVec 9)) (s : State), (s.band q).asked.any (fun a => a.1 == y) = false →
    exec (.refetchDone q y ok data) s = .next s) ∧
  (∀ (s : State) (p l : Nat), s.screenNext = some (p, l) → exec .lineScreen s = .next (s.screenLine p l)) ∧
  (∀ (s : State), s.screenNext = none → exec .lineScreen s = .next s) ∧
  (∀ (s : State), s.barOk 3 = true → exec .embreqBurst s = .next { s with kiln := { s.kiln with want := true } }) ∧
  (∀ (s : State) (p l : Nat), s.canonical → s.screenNext = some (p, l) →
    Runs .lineScreen s (fun v => l < (v.head p).screen ∧ (∃ g ∈ (v.head p).stag, g.line = l ∧ g.sig = crc32 g.image)))

/-- FIRE and underrun (R177 to R179, R234). -/
def Obligations.FiringRuns : Prop :=
  (∀ (t : Nat) (h : Fin 64) (s u : State) (l i : Nat) (r : List (Nat × Nat)), s.advance t = u → (u.head h).placed = (l, i) :: r →
    (u.head h).live = true → u.firingOn = true → u.on POS_STATE_TRUST = true → u.on POS_STATE_REVERSED = false →
    l = (u.head h).next → i ≤ u.clk → (u.head h).before l = true → u.follows h l = false →
    (u.enAt h l = true → u.drives h = true → u.heldAt h l = false → u.latched h l i = true → (u.head h).urline ≠ some l →
      exec (.fire t h) s = .next ((u.firePulse h l).lineCountedF h i false)) ∧
    (u.enAt h l = false ∨ u.drives h = false ∨ u.heldAt h l = true → exec (.fire t h) s = .next (u.lineCountedF h i false)) ∧
    (u.enAt h l = true → u.drives h = true → u.heldAt h l = false → (u.latched h l i = false ∨ (u.head h).urline = some l) →
      exec (.fire t h) s = .next (if u.on FIR_CTL_URPOL = true ∧ u.delayFits h l i = true
        then (u.modHead h (fun x => { x with delay := x.delay ++ [(l, i)] })).linePassed h i
        else (((u.countReg FIR_URCNT 1).setFld FIR_STATE_UR 1).noteUnderrun h l).lineCountedF h i true))) ∧
  (∀ (t : Nat) (h : Fin 64) (s u : State), s.advance t = u → (u.head h).placed = [] → exec (.fire t h) s = .next u) ∧
  (∀ (s : State) (h l : Nat), s.firePulse h l = if s.fld (TRM_OUT_OUT h) ≠ 0 ∧ s.on (TRM_OUT_DRIVEN h) = true
      then s.modHead h (fun x => { x with pulse := some (l, s.clk) }) else s.countReg (HPT_NOVOLT h) 1) ∧
  (∀ (t : Nat) (h : Fin 64) (s u : State) (l i : Nat), s.advance t = u → l = (u.head h).next → (u.head h).instOf l = some i →
    (u.head h).live = true → u.firingOn = true → (u.head h).before l = true → u.inPass l = true → u.enAt h l = true →
    i ≤ u.clk + (u.fld (HPT_TIME_LATSU h) + u.fld (HPT_TIME_LATW h) + u.burstClk h + 8) →
    exec (.latchDeadline t h) s = .next (if u.drives h = true ∧ (u.head h).bnext = l ∧ u.heldAt h l = false ∧ u.lateCause h l = none
      then (u.firstLate h l).modHead h (fun x => { x with urline := some l }) else u.firstLate h l)) ∧
  (∀ (t : Nat) (h : Fin 64) (s u : State) (l i : Nat) (r : List (Nat × Nat)), s.advance t = u → (u.head h).delay = (l, i) :: r →
    u.firingOn = true → u.enAt h l = true → u.drives h = true → u.heldAt h l = false →
    (u.delayFits h l i = true → (u.on POS_STATE_TRUST = false ∨ u.on POS_STATE_REVERSED = true ∨ u.latched h l u.clk = false ∨ u.clk < i) →
      exec (.delayedFire t h) s = .next u) ∧
    (u.delayFits h l i = true → u.on POS_STATE_TRUST = true → u.on POS_STATE_REVERSED = false → u.latched h l u.clk = true → i ≤ u.clk →
      exec (.delayedFire t h) s = .next (((((u.countReg FIR_DLYCNT 1).setFld FIR_STATE_DLY 1).noteUnderrun h l).firePulse h l).delayOver h l i false)) ∧
    (u.delayFits h l i = false →
      exec (.delayedFire t h) s = .next ((((u.countReg FIR_URCNT 1).setFld FIR_STATE_UR 1).noteUnderrun h l).delayOver h l i true))) ∧
  (∀ (t : Nat) (h : Fin 64) (s u : State), s.advance t = u → (u.head h).delay = [] → exec (.delayedFire t h) s = .next u)

/-- Bursts (R173, R177, R181). -/
def Obligations.BurstsRun : Prop :=
  (∀ (t : Nat) (h : Fin 64) (ash : BitVec 64) (s u w : State) (g : Staged) (r : Staged × List Nat × State) (image : List Byte),
    s.advance t = u → u.fld (HPT_CTL_MODE h) ≠ 3 →
    (u.head h).stag.find? (fun g => decide ((u.head h).bnext ≤ g.line)) = some g → u.burstDue h g.line = true →
    (countUp (u.head h).bnext (g.line - (u.head h).bnext)).all (fun k => !u.enAt h k) = true →
    (if u.heldAt h g.line = true then (g, [], u) else u.mergeCommit.stagRead g ash.toNat) = r →
    r.2.1.foldl (fun s _ => s.ashUsed) r.2.2 = w →
    (if w.heldAt h g.line = true then zeroImage else maskWords (r.2.1.foldl (fun n i => n ||| 2 ^ i) 0) 64 r.1.image) = image →
    exec (.burstStart t h ash) s = .next (((w.shiftIn h g.line image).modHead h (fun x => { x with
      burst := some (g.line, u.clk + u.burstClk h), bnext := g.line + 1, lineAsh := !r.2.1.isEmpty
      stag := replaceFirst (fun y => y.line == g.line) (fun _ => r.1) (u.head h).stag })).burstAsh h g.line)) ∧
  (∀ (s : State) (g : Staged), g.flaws = [] → s.stagRead g 0 = (g, [], s)) ∧
  (∀ (t : Nat) (h : Fin 64) (ash : BitVec 64) (s u : State), s.advance t = u → u.fld (HPT_CTL_MODE h) ≠ 3 →
    (u.head h).stag.find? (fun g => decide ((u.head h).bnext ≤ g.line)) = none → exec (.burstStart t h ash) s = .next u) ∧
  (∀ (t : Nat) (h : Fin 64) (ash : BitVec 64) (s u : State), s.advance t = u → u.fld (HPT_CTL_MODE h) = 3 →
    ((u.head h).train = none → exec (.burstStart t h ash) s = .next u) ∧
    (∀ (tr : Train) (e : Nat), (u.head h).train = some tr → u.portsRun = true → (u.head h).ret = none → u.gapPast h = true →
      (∀ l z, (u.head h).lat = some (l, z) → z ≤ u.clk) → u.clk + u.burstClk h = e →
      Runs (.burstStart t h ash) s (fun v => (v.head h).prbsAt = e ∧ (v.head h).ret = some (0, (u.head h).lats % 4, 0#32) ∧
        (tr.step ≠ 6 → (v.head h).pins = trainWords.map trainLane) ∧
        (tr.step = 6 → (v.head h).pins = u.pinBits h (fun k => trainLane (trainWords.getD k 0#16))) ∧
        (tr.step = 4 ∨ tr.step = 6 ∧ tr.n < 4 → (v.head h).lat = some (0, e + 8 + u.fld (HPT_TIME_LATW h)) ∧ (v.head h).latFrom = e + 8 ∧
          (v.head h).lats = ((u.head h).lats + 1) % 4) ∧
        (tr.step ≠ 4 → (tr.step ≠ 6 ∨ 4 ≤ tr.n) → (v.head h).lat = (u.head h).lat ∧ (v.head h).lats = (u.head h).lats)))) ∧
  (∀ (s : State) (h : Nat), s.burstClk h = (516 * 4 * 2 ^ s.fld (HPT_RATE_RATE h) + 2) / 3) ∧
  (∀ (t : Nat) (h : Fin 64) (s u : State) (l e : Nat), s.advance t = u → (u.head h).burst = some (l, e) → u.drives h = true →
    u.portsRun = true → e + 8 ≤ u.clk → (∀ i, (u.head h).instBefore l = some i → i + u.fld (HPT_FIRE_FHOLD h) ≤ u.clk) →
    exec (.lat t h) s = .next (u.modHead h (fun x => { x with
      lat := some (l, u.clk + u.fld (HPT_TIME_LATW h)), latFrom := u.clk, lats := (x.lats + 1) % 4, burst := none }))) ∧
  (∀ (t : Nat) (h : Fin 64) (s u : State), s.advance t = u → (u.head h).burst = none → exec (.lat t h) s = .next u) ∧
  (∀ (t : Nat) (h : Fin 64) (s u : State), s.advance t = u → (u.head h).flush = true → u.drives h = true → u.portsRun = true →
    (u.head h).burst = none → u.gapPast h = true → (∀ i, (u.head h).fireAt = some i → i + u.fld (HPT_TIME_SHDLY h) ≤ u.clk) →
    exec (.flushBurst t h) s = .next ((u.shiftIn h (u.head h).chainL zeroImage).modHead h (fun x => { x with flush := false }))) ∧
  (∀ (t : Nat) (h : Fin 64) (s u : State), s.advance t = u → (u.head h).flush = false → exec (.flushBurst t h) s = .next u) ∧
  (∀ (s : State) (h l : Nat) (image : List Byte), s.shiftIn h l image = s.modHead h (fun x => { x with
    ret := some (x.chainL, x.lats % 4, laneSig (x.lats % 4) x.chainI), chainI := image, chainL := l, prbsAt := s.clk + s.burstClk h
    pins := s.pinBits h (fun k => leNat (laneBytes k image)) }))

/-- Start-of-scan (R238). -/
def Obligations.ScanPassesRun : Prop :=
  (∀ (t : Nat) (n : Fin 2) (lvl : Bool) (k : BitVec 8) (s u v : State), s.advance t = u →
    u.setFir { u.fir with sos := u.fir.sos - b2n (bitAt u.fir.sos n) * 2 ^ n.val + b2n lvl * 2 ^ n.val } = v →
    (k.toNat < u.filtN → exec (.sosEdge t n ⟨lvl, k⟩) s = .next u) ∧
    (u.filtN ≤ k.toNat → exec (.sosEdge t n ⟨lvl, k⟩) s = .next (
      if bitAt u.fir.sos n ≠ lvl ∧ lvl ≠ bitAt (u.fld FIR_SCANCFG_SOSPOL) n ∧ u.sosQualified n = true then v.passStart (n == 1) else v))) ∧
  (∀ (s u v w : State) (rev : Bool), s.passEarly = u →
    (u.setFir { u.fir with passT := u.pos.t }).setPos { u.pos with h := u.pos.t, sgn := if rev then -1 else 1, norev := false } = v →
    ((((((v.setReg FIR_SOSTB0 (v.tbBefore v.kClk)).setFld FIR_STATE_INPASS 1).setBit FIR_STATE_PDIR rev).setFld POS_STATE_REVERSED 0).setFld
      FIR_STATE_SUSPR 0).countReg FIR_PASS 1) = w →
    s.passStart rev = if w.passOver then w.endPass else w) ∧
  (∀ s : State, s.on FIR_STATE_INPASS = false → s.passEarly = s)

/-- RETRUST and the action on a loss of TRUST. -/
def Obligations.TrustAndOriginRun : Prop :=
  (∀ s : State, s.barOk 6 = true → s.on POS_STATE_NOMAJ = false →
    exec .retrust s = .next (((s.setFld POS_STATE_TRUST 1).setFld FIR_STATE_SUSPT 0).causeCheck)) ∧
  (∀ s : State, s.barOk 6 = true → s.on POS_STATE_NOMAJ = true → exec .retrust s = .next s.causeCheck) ∧
  (∀ (s u : State), s.on POS_STATE_TRUST = true → u.on POS_STATE_TRUST = false → u.armed = true → u.on FIR_CTL_TRUSTACT = true →
    State.trustAct s u = u.withdraw.raiseCause 3) ∧
  (∀ (s u : State), s.on POS_STATE_TRUST = true → u.on POS_STATE_TRUST = false → u.armed = false ∨ u.on FIR_CTL_TRUSTACT = false →
    State.trustAct s u = u.withdraw) ∧
  (∀ (s u : State), s.on POS_STATE_TRUST = false ∨ u.on POS_STATE_TRUST = true → State.trustAct s u = u)

/-- Returns (R184, R191, R192). -/
def Obligations.ReturnsAreChecked : Prop :=
  (∀ (t : Nat) (h : Fin 64) (bits : BitVec 1024) (tr : BitVec 8) (z : Bool) (s u : State) (x : Nat × Nat × Word), s.advance t = u →
    u.portsRun = true → u.fld (HPT_CTL_MODE h) = 1 → (u.head h).ret = some x →
    exec (.returnCheck t h bits ⟨tr, z⟩) s = .next (((u.noteTrailer h (u.retTrail h tr.toNat)).driveReturn h (u.retBits h bits.toNat)
      (u.retTrail h tr.toNat)).overCheck h)) ∧
  (∀ (t : Nat) (h : Fin 64) (bits : BitVec 1024) (tr : BitVec 8) (z : Bool) (s u : State), s.advance t = u → u.portsRun = true →
    u.fld (HPT_CTL_MODE h) = 2 →
    (z = u.on (HPT_LANEMAP_SCKINV h) → exec (.returnCheck t h bits ⟨tr, z⟩) s =
      .next (u.obsReturn h (u.retBits h bits.toNat) (u.retTrail h tr.toNat))) ∧
    (z ≠ u.on (HPT_LANEMAP_SCKINV h) → exec (.returnCheck t h bits ⟨tr, z⟩) s =
      .next (u.obsReturn h (u.retBits h (2 * bits.toNat % 2 ^ 1024)) (u.retTrail h (128 * b2n (bitAt bits.toNat 1023) + tr.toNat / 2))))) ∧
  (∀ (t : Nat) (h : Fin 64) (bits : BitVec 1024) (tr : Trailer) (s u : State), s.advance t = u →
    u.portsRun = false ∨ u.fld (HPT_CTL_MODE h) = 0 ∨ (u.fld (HPT_CTL_MODE h) = 1 ∧ (u.head h).ret = none) ∨
      (u.fld (HPT_CTL_MODE h) = 3 ∧ ((u.head h).train = none ∨ (u.head h).ret = none)) →
    exec (.returnCheck t h bits tr) s = .next u) ∧
  (∀ (t : Nat) (h : Fin 64) (bits : BitVec 1024) (tr : BitVec 8) (z : Bool) (s u : State) (x : Nat × Nat × Word) (g : Train),
    s.advance t = u → u.portsRun = true → u.fld (HPT_CTL_MODE h) = 3 → (u.head h).ret = some x → (u.head h).train = some g →
    exec (.returnCheck t h bits ⟨tr, z⟩) s = .next ((u.trainReturn h g bits.toNat tr.toNat).overCheck h)) ∧
  (∀ (s : State) (h bits tr l c : Nat) (sig : Word), (s.head h).ret = some (l, c, sig) → (s.head h).skip = false →
    s.driveReturn h bits tr = (s.modHead h (fun x => { x with ret := none })).checkReturn h l c sig bits tr) ∧
  (∀ (s u : State) (h bits tr l c : Nat) (sig : Word), returnClass c sig bits tr = 0 →
    ((s.countReg (HPT_RETCHK h) 1).modHead h (fun x => { x with cls := 0 })).setFld (HPT_RETST_RUN h) 0 = u → u.twinOn = false →
    s.checkReturn h l c sig bits tr = u) ∧
  (∀ (s : State) (h bits tr l c k : Nat) (sig : Word), returnClass c sig bits tr = k → k ≠ 0 → s.twinOn = false →
    ((((s.countReg (HPT_RETCHK h) 1).modHead h (fun x => { x with cls := k })).retFail h l c k).retLimit h = false →
      s.checkReturn h l c sig bits tr = ((s.countReg (HPT_RETCHK h) 1).modHead h (fun x => { x with cls := k })).retFail h l c k) ∧
    ((((s.countReg (HPT_RETCHK h) 1).modHead h (fun x => { x with cls := k })).retFail h l c k).retLimit h = true →
      s.checkReturn h l c sig bits tr =
        (((s.countReg (HPT_RETCHK h) 1).modHead h (fun x => { x with cls := k })).retFail h l c k).retFault h)) ∧
  (∀ (s v : State) (h : Fin 64) (l c k : Nat), s.canonical → c < 4 → 0 < k → k < 4 → s.retFail h l c k = v →
    v.reg (HPT_RETERR h) = BitVec.ofNat 32 (min (2 ^ 32 - 1) ((s.reg (HPT_RETERR h)).toNat + 1)) ∧
    v.fld (HPT_RETST_LANES h) = s.fld (HPT_RETST_LANES h) ||| 2 ^ c ∧
    v.fld (HPT_RETST_RUN h) = min 255 (s.fld (HPT_RETST_RUN h) + 1) ∧ v.on (HPT_RETST_VALID h) = true ∧
    (h.val < 32 → (v.reg HPT_RETSUMLO).getLsbD h = true) ∧ (32 ≤ h.val → (v.reg HPT_RETSUMHI).getLsbD (h - 32) = true) ∧
    (s.on (HPT_RETST_VALID h) = false → v.fld (HPT_RETST_FIRST h) = k ∧ v.fld (HPT_RETST_LANE h) = c ∧
      v.reg (HPT_RETLINE h) = BitVec.ofNat 32 l) ∧
    (s.on (HPT_RETST_VALID h) = true → v.fld (HPT_RETST_FIRST h) = s.fld (HPT_RETST_FIRST h) ∧
      v.fld (HPT_RETST_LANE h) = s.fld (HPT_RETST_LANE h) ∧ v.reg (HPT_RETLINE h) = s.reg (HPT_RETLINE h))) ∧
  (∀ (s : State) (h : Nat), (s.retLimit h = true ↔ s.fld (HPT_RETCFG_LIMIT h) ≤ s.fld (HPT_RETST_RUN h) ∧ s.on (HPT_RETST_FAULT h) = false)) ∧
  (∀ (s u : State) (h : Nat), s.setFld (HPT_RETST_FAULT h) 1 = u →
    (s.fld (HPT_RETCFG_ACTION h) = 0 → s.retFault h = u) ∧
    (s.fld (HPT_RETCFG_ACTION h) = 1 → s.on KLN_CTL_LAYOUT = true → s.retFault h = u.beginOut h 2) ∧
    (s.fld (HPT_RETCFG_ACTION h) = 1 → s.on KLN_CTL_LAYOUT = false → s.retFault h = u) ∧
    (s.fld (HPT_RETCFG_ACTION h) = 2 → s.armed = true → s.retFault h = u.raiseCause 2) ∧
    (s.fld (HPT_RETCFG_ACTION h) = 2 → s.armed = false → s.retFault h = u)) ∧
  (∀ (s : State) (h bits tr l c : Nat) (sig : Word), (s.head h).ret = some (l, c, sig) → (s.head h).skip = true →
    s.driveReturn h bits tr = (s.modHead h (fun x => { x with ret := none })).modHead h (fun x => { x with
      skip := false, lats := if trValid tr then (x.lats + 4 + trChain tr - c) % 4 else x.lats })) ∧
  (∀ (h : Fin 64) (v : BitVec 32) (s u : State), s.barOk 5 = true →
    s.setReg (HPT_RETST h) (s.reg (HPT_RETST h) &&& ~~~(v &&& 0x800100F0#32)) = u →
    exec (.retstFaultClear h v) s = .next (if s.on (HPT_RETST_FAULT h) = true ∧ v.getLsbD 16 = true then
      (if bitAt (u.head h).outBy 1 then u.endOut h 2 else u).causeCheck else u)) ∧
  (∀ (t : Nat) (h : Fin 64) (up : Bool) (s u : State), s.advance t = u →
    (up = u.on (HPT_LANEMAP_LATINV h) → exec (.monitorLatObserved t ⟨h, up⟩) s = .next u) ∧
    (up = u.on (HPT_LANEMAP_FIREINV h) → exec (.monitorFireObserved t ⟨h, up⟩) s = .next (
      if u.fld (HPT_CTL_MODE h) = 2 ∧ u.portsRun = true then u.modHead h (fun x => { x with fireHi := false, fall := u.clk }) else u))) ∧
  (∀ (t : Nat) (h : Fin 64) (up : Bool) (s u : State), s.advance t = u → u.fld (HPT_CTL_MODE h) ≠ 2 ∨ u.portsRun = false →
    (up ≠ u.on (HPT_LANEMAP_LATINV h) → exec (.monitorLatObserved t ⟨h, up⟩) s = .next ((u.overCheck h).readyShow)) ∧
    (up ≠ u.on (HPT_LANEMAP_FIREINV h) → exec (.monitorFireObserved t ⟨h, up⟩) s = .next u.readyShow)) ∧
  (∀ (t : Nat) (h : Fin 64) (up : Bool) (s u : State), s.advance t = u → up ≠ u.on (HPT_LANEMAP_LATINV h) →
    u.fld (HPT_CTL_MODE h) = 2 → u.portsRun = true → (u.head h).mline = none →
    exec (.monitorLatObserved t ⟨h, up⟩) s =
      .next ((((u.modHead h (fun x => { x with obs := x.obs + 1 })).pairObs h true).overCheck h).readyShow)) ∧
  (∀ (t : Nat) (h : Fin 64) (up : Bool) (s u v : State) (m : Nat), s.advance t = u → up ≠ u.on (HPT_LANEMAP_FIREINV h) →
    u.fld (HPT_CTL_MODE h) = 2 → u.portsRun = true →
    (u.modHead h (fun x => { x with fireHi := true, seen := ((x.obs, u.tb0) :: x.seen).take 16 })).align h = v → (v.head h).mline = some m →
    exec (.monitorFireObserved t ⟨h, up⟩) s =
      .next ((v.modHead h (fun x => { x with pulse := some (m, v.clk) })).seenFired h m).readyShow)

/-- MODE, training and PRBS. -/
def Obligations.PortTestsRun : Prop :=
  (∀ (t : Nat) (h : Fin 64) (s u v : State) (m : Nat), s.advance t = u → (u.head h).mode = some m → u.portsRun = true → u.handSlot h = true →
    u.handTime h m = true →
    ((if m = 1 ∧ u.twinStrap = true ∧ u.twin.ret.isNone = true then
      (u.modHead h (fun x => { x with skip := true })).setTwin { u.twin with handAt := u.clk } else u)) = v →
    (u.drives h = false ∨ u.isLive h = false ∨ u.twin.ret.isSome = true ∨ (u.role ≠ roOUT ∧ u.role ≠ roSTANDBY)) →
    exec (.modeHandover t h) s = .next ((((v.applyMode h m).setTwin { v.twin with
      moved := if v.twin.ret.isSome then v.twin.moved ||| 2 ^ h.val else v.twin.moved }).twinCauseOver.returnEnd).readyShow)) ∧
  (∀ (t : Nat) (h : Fin 64) (s u v : State) (m : Nat), s.advance t = u → (u.head h).mode = some m → u.portsRun = true →
    u.handSlot h = true → u.handTime h m = true →
    ((if m = 1 ∧ u.twinStrap = true then
      (u.modHead h (fun x => { x with skip := true })).setTwin { u.twin with handAt := u.clk } else u)) = v →
    u.drives h = true → u.isLive h = true → u.twin.ret = none → u.role = roOUT ∨ u.role = roSTANDBY →
    exec (.modeHandover t h) s = .next ((((v.applyMode h m).setTwin { v.twin with moved := v.twin.moved }).twinSend 0x18 [2 ^ h.val]).twinCauseOver.returnEnd.readyShow)) ∧
  (∀ (t : Nat) (h : Fin 64) (s u : State), s.advance t = u → u.portsRun = false ∨ u.handSlot h = false ∨
    (∃ m, (u.head h).mode = some m ∧ u.handTime h m = false) → exec (.modeHandover t h) s = .next u) ∧
  (∀ (t : Nat) (h : Fin 64) (s u : State), s.advance t = u → (u.head h).mode = none → exec (.modeHandover t h) s = .next u) ∧
  (∀ (h : Fin 64) (s : State), s.barOk 5 = true → s.on (HPT_TRAIN_BUSY h) = true →
    exec (.hptTrainStart h) s = .next (s.recordAt HPT_ERR erBUSY (HPT_TRAIN h))) ∧
  (∀ (h : Fin 64) (s : State), s.barOk 5 = true → s.on (HPT_TRAIN_BUSY h) = false → s.fld (HPT_CTL_MODE h) ≠ 3 →
    exec (.hptTrainStart h) s = .next (s.recordAt HPT_ERR erNOTTEST (HPT_TRAIN h))) ∧
  (∀ (h : Fin 64) (s : State), s.barOk 5 = true → s.on (HPT_TRAIN_BUSY h) = false → s.fld (HPT_CTL_MODE h) = 3 →
    s.enAt h (s.head h).next = false → s.fld (TRM_OUT_OUT h) = 0 → s.on (HPT_TEST_RUN h) = false →
    exec (.hptTrainStart h) s = .next (((s.setFld (HPT_TRAIN_BUSY h) 1).setReg (HPT_LANEMAP h) 0#32).modHead h
      (fun x => { x with train := some ⟨2, 0, 0, true, 0, 0, false, false, false, [], 0⟩, ret := none }))) ∧
  (∀ (h : Fin 64) (s : State), s.barOk 5 = true → s.on (HPT_TRAIN_BUSY h) = false → s.fld (HPT_CTL_MODE h) = 3 →
    (s.enAt h (s.head h).next = true ∨ s.fld (TRM_OUT_OUT h) ≠ 0 ∨ s.on (HPT_TEST_RUN h) = true) →
    exec (.hptTrainStart h) s = .next (s.trainEnd h trLIVE)) ∧
  (∀ (t : Nat) (h : Fin 64) (c1 c2 c3 : BitVec 512) (f1 f2 f3 : BitVec 4096) (w0 w1 w2 w3 : BitVec 24) (verify : BitVec 96)
    (s u : State) (f : TrainFound), s.advance t = u →
    (⟨[c1.toNat, c2.toNat, c3.toNat], [f1.toNat, f2.toNat, f3.toNat], [w0, w1, w2, w3], verify.toNat⟩ : TrainFound) = f →
    (u.portsRun = true → u.fld (HPT_CTL_MODE h) = 3 → (u.head h).ret = none →
      exec (.trainingDone t h c1 c2 c3 f1 f2 f3 w0 w1 w2 w3 verify) s = .next (u.trained h f 1737)) ∧
    (u.portsRun = false ∨ u.fld (HPT_CTL_MODE h) ≠ 3 ∨ (u.head h).ret ≠ none →
      exec (.trainingDone t h c1 c2 c3 f1 f2 f3 w0 w1 w2 w3 verify) s = .next u)) ∧
  (∀ (s : State) (h n : Nat) (f : TrainFound),
    ((s.head h).train = none → s.trained h f n = s) ∧
    (∀ tr, (s.head h).train = some tr → f.answer tr = none → s.trained h f n = s) ∧
    (∀ (tr : Train) (a : Nat × Nat), (s.head h).train = some tr → f.answer tr = some a →
      s.trained h f (n + 1) = ((s.trainBurst h tr).trainReturn h tr a.1 a.2).trained h f n)) ∧
  (∀ (s : State) (h raw : Nat) (tr : Train) (pass inv : Bool), tr.step = 2 → trValid (255 - raw) = inv → (trValid raw || inv) = pass →
    (tr.n < 2 → ∃ x : Train, (s.trainSearch h tr raw) = s.modHead h (fun y => { y with train := some x }) ∧ x.n = tr.n + 1 ∧
      x.ok = (tr.ok && pass) ∧ x.at_ = tr.at_ ∧ x.coarse = tr.coarse ∧ x.fine = tr.fine) ∧
    (2 ≤ tr.n → (tr.ok && pass) = true → tr.at_ < 63 → ∃ x : Train, (s.trainSearch h tr raw) = s.modHead h (fun y => { y with train := some x }) ∧
      x.n = 0 ∧ x.ok = true ∧ x.at_ = tr.at_ + 1 ∧ x.coarse = tr.coarse ||| 2 ^ tr.at_ ∧ x.mark = inv)) ∧
  (∀ (s : State) (h : Fin 64) (tr : Train) (r : Nat × Nat), s.canonical → (widestRange tr.coarse tr.fine) = r →
    (r.2 = 0 → s.trainFound h tr = s.trainEnd h trNORET) ∧
    (r.2 ≠ 0 → ∀ v, s.trainFound h tr = v →
      v.fld (HPT_RETDLY_COARSE h) = (r.1 + (r.2 - 1) / 2) / 8 % 64 ∧ v.fld (HPT_RETDLY_FINE h) = (r.1 + (r.2 - 1) / 2) % 8 ∧
      v.on (HPT_LANEMAP_RETINV h) = tr.mark ∧ v.on (HPT_LANEMAP_LATINV h) = tr.llv ∧ v.on (HPT_LANEMAP_FIREINV h) = tr.flv ∧
      (v.head h).train = some { tr with step := 4, n := 0 })) ∧
  (∀ (t : Nat) (h : Fin 64) (s u : State), s.advance t = u → u.fld (HPT_CTL_MODE h) = 3 → u.on (HPT_TEST_RUN h) = true →
    u.portsRun = true → (u.head h).prbsN = 0 → u.gapPast h = true → (∀ l z, (u.head h).lat = some (l, z) → z ≤ u.clk) →
    exec (.prbsBurst t h) s = .next ((u.startTimer (tmPrbs h)).modHead h (fun x => { x with
      prbsP := (u.head h).prbs, prbs := prbsSeed (u.on (HPT_TEST_POLY h))
      pins := u.pinBits h (fun k => laneBits (u.on (HPT_TEST_POLY h)) k (prbsSeed (u.on (HPT_TEST_POLY h))))
      prbsN := x.prbsN + 1, ret := some (0, x.lats % 4, 0#32), lats := (x.lats + 1) % 4, prbsAt := u.clk + u.burstClk h
      latFrom := u.clk + u.burstClk h + 8, lat := some (0, u.clk + u.burstClk h + 8 + u.fld (HPT_TIME_LATW h)) }))) ∧
  (∀ (t : Nat) (h : Fin 64) (bits : BitVec 1024) (tr : BitVec 8) (s u v : State) (l c : Nat) (sig : Word), s.advance t = u →
    (u.head h).ret = some (l, c, sig) → u.fld (HPT_CTL_MODE h) = 3 → u.portsRun = true → (u.head h).train = none → 1 < (u.head h).prbsN →
    trValid (u.retTrail h tr.toNat) = true → ((u.noteTrailer h (u.retTrail h tr.toNat)).modHead h (fun x => { x with
      ret := none, lats := (x.lats + 4 + trChain (u.retTrail h tr.toNat) - c) % 4 })) = v →
    exec (.prbsReturnCheck t h bits tr) s = .next (((v.countReg (prbsErr h (trChain (u.retTrail h tr.toNat))) (bitDiff 1024
      (u.retBits h bits.toNat) (laneBits (u.on (HPT_TEST_POLY h)) (trChain (u.retTrail h tr.toNat)) (u.head h).prbsP))).countReg
      (HPT_PRBSCHK h) 1).overCheck h)) ∧
  (∀ (t : Nat) (h : Fin 64) (s u : State) (m : Nat), s.canonical → s.advance t = u → u.twinStrap = false → u.twin.ret = none →
    u.role = roACTIVE → u.portsRun = true → (u.head h).mode = some m → m ≤ 3 → u.handSlot h = true →
    Runs (.modeHandover t h) s (fun w => w.fld (HPT_CTL_MODE h) = m ∧ (w.head h).mode = none)) ∧
  (∀ (t : Nat) (h : Fin 64) (c1 c2 c3 : BitVec 512) (f1 f2 f3 : BitVec 4096) (w0 w1 w2 w3 : BitVec 24) (verify : BitVec 96)
    (s u : State) (f : TrainFound) (tr : Train) (a : Nat × Nat) (v : Nat), s.canonical → s.advance t = u →
    (⟨[c1.toNat, c2.toNat, c3.toNat], [f1.toNat, f2.toNat, f3.toNat], [w0, w1, w2, w3], verify.toNat⟩ : TrainFound) = f →
    u.portsRun = true → u.fld (HPT_CTL_MODE h) = 3 → (u.head h).ret = none → (u.head h).train = some tr → tr.step = 6 → tr.n = 4 →
    f.answer tr = some a → u.retTrail h a.2 = v → trValid v = true →
    laneWord (u.retBits h a.1) = some (trainWords.getD (trChain v) 0#16) → tr.right ||| 2 ^ trChain v = 15 →
    Runs (.trainingDone t h c1 c2 c3 f1 f2 f3 w0 w1 w2 w3 verify) s (fun w =>
      w.fld (HPT_TRAIN_RESULT h) = trOK ∧ w.on (HPT_TRAIN_VALID h) = true ∧ w.on (HPT_TRAIN_BUSY h) = false ∧
      w.on (HPT_HSTAT_TRAINED h) = true ∧ (w.head h).train = none ∧ (w.head h).skip = true))

/-- The management buses (R197 to R200). -/
def Obligations.HeadBusesRun : Prop :=
  (∀ (t : Nat) (b : Fin 8) (s u : State) (h : Nat), s.advance t = u → u.twin.busIn = 0 → u.twin.busOut = 0 →
    u.on (HPT_BUSST_MASTER b) = true → u.on (HPT_BUSCFG_EN b) = true →
    u.buses.get (fun _ => 0) b = 0 → u.hearthBus b = false → u.fld PWR_STAT_STATE = 0 → u.tempNext b = some h →
    exec (.tempPoll t b) s = .next (({ u with buses := u.buses.set (fun _ => 0) b (h + 1), svc := { u.svc with
      turn := u.svc.turn && bitsOf (u.reg (SVC_MBXREQ 0)).toNat 0 8 / 8 != b.val } } : State).modHead h (fun x => { x with poll := u.clk }))) ∧
  (∀ (t : Nat) (b : Fin 8) (s u : State), s.advance t = u → u.twin.busIn = 0 → u.twin.busOut = 0 →
    u.on (HPT_BUSST_MASTER b) = false ∨ u.tempNext b = none →
    exec (.tempPoll t b) s = .next u) ∧
  (∀ (t : Nat) (h : Fin 64) (v : BitVec 16) (s u : State), s.advance t = u → u.twin.busIn = 0 → u.twin.busOut = 0 →
    u.buses.get (fun _ => 0) (h / 8) = h + 1 →
    exec (.tempReadDone t h true v) s = .next ((((((({ u with buses := u.buses.set (fun _ => 0) (h / 8) 0 } : State).setFld
      (HPT_TEMP_TEMP h) v.toNat).setFld (HPT_TEMP_NACK h) 0).setFld (HPT_TEMP_STALE h) 0).startTimer (tmTemp h)).overCheck h).stepUp h 4)) ∧
  (∀ (t : Nat) (h : Fin 64) (v : BitVec 16) (s u : State), s.advance t = u → u.twin.busIn = 0 → u.twin.busOut = 0 →
    u.buses.get (fun _ => 0) (h / 8) = h + 1 →
    exec (.tempReadDone t h false v) s = .next (((({ u with buses := u.buses.set (fun _ => 0) (h / 8) 0 } : State).setFld
      (HPT_TEMP_NACK h) 1).count (HPT_BUSST_NACKS (h / 8)) 1).overCheck h)) ∧
  (∀ (t : Nat) (h : Fin 64) (v : BitVec 16) (ok : Bool) (s u : State), s.advance t = u → u.buses.get (fun _ => 0) (h / 8) ≠ h + 1 →
    u.twinStrap = false → exec (.tempReadDone t h ok v) s = .next u) ∧
  (∀ (t : Nat) (h : Fin 64) (s u : State), s.advance t = u → u.on (HPT_HSTAT_PRESENT h) = true →
    u.timerOver (tmTemp h) (4000000 * u.fld HPT_TCFG_TSTALE) = true →
    exec (.tempStale t h) s = .next ((u.setFld (HPT_TEMP_STALE h) 1).overCheck h)) ∧
  (∀ (t : Nat) (h : Fin 64) (s u : State), s.advance t = u → u.on (HPT_HSTAT_PRESENT h) = false →
    exec (.tempStale t h) s = .next u) ∧
  (∀ (t : Nat) (b : Fin 8) (s u : State), s.advance t = u → exec (.busClear t b) s = .next (if u.on (HPT_BUSST_MASTER b) then
    ({ u with buses := u.buses.set (fun _ => 0) b 0 } : State).setFld (HPT_BUSST_STUCK b) 1 else u)) ∧
  (∀ (t : Nat) (s u v : State), s.advance t = u → u.awake = true → u.svc.page = true → u.buses.get (fun _ => 0) (u.reqField 0 1 / 8) = 0 →
    u.svc.tasks = [] → u.putHeadBytes (u.reqField 0 1) (0x100 + 32 * u.svc.pages) ((u.storeBytes (u.reqField 1 8 + 32 * u.svc.pages) 32).map BitVec.toNat) = v →
    exec (.headMemoryPageWrite t true) s = .next ((v.setBit (HPT_HSTAT_RANKOK (u.reqField 0 1)) (v.rankOk (u.reqField 0 1))).setSvc
      { u.svc with pages := u.svc.pages + 1, page := decide (u.svc.pages + 1 < 73), turn := true })) ∧
  (∀ (t : Nat) (s u : State), s.advance t = u → u.awake = true → u.svc.page = true → u.buses.get (fun _ => 0) (u.reqField 0 1 / 8) = 0 →
    exec (.headMemoryPageWrite t false) s = .next ((u.serveGold u.svc.tasks.length).setSvc { (u.serveGold u.svc.tasks.length).svc with page := false, nack := true })) ∧
  (∀ (t : Nat) (ok : Bool) (s u : State), s.advance t = u → u.svc.page = false → exec (.headMemoryPageWrite t ok) s = .next u)

/-- R207, for each channel. -/
def Obligations.IllegalTransitionsAreCounted : Prop :=
  (∀ (t : Nat) (c : Fin 3) (a b : Bool) (n : BitVec 8) (s u : State), s.canonical → s.advance t = u → u.filtN ≤ n.toNat →
    u.chanOn c = true → u.pos.pins c < 4 → bitAt (u.pos.pins c) 1 ≠ a → bitAt (u.pos.pins c) 0 ≠ b →
    Runs (.encoderTransition t c a ⟨b, n⟩) s (fun v =>
      v.pos.cnt = u.pos.cnt ∧ v.pos.t = u.pos.t ∧ v.pos.h = u.pos.h ∧ v.pos.zacc = u.pos.zacc ∧
      bitsOf (v.reg POS_ILLCNT).toNat (8 * c) 8 = min 255 (bitsOf (u.reg POS_ILLCNT).toNat (8 * c) 8 + 1) ∧
      (∀ d : Fin 3, d ≠ c → bitsOf (v.reg POS_ILLCNT).toNat (8 * d) 8 = bitsOf (u.reg POS_ILLCNT).toNat (8 * d) 8) ∧
      v.fld POS_STATE_ILL = u.fld POS_STATE_ILL ||| 2 ^ c.val ∧ v.alarms.getLsbD alENCERR = true))

/-- The counters and the vote (R205, R206, R208, R219). -/
def Obligations.EncoderCountsMove : Prop :=
  (∀ (t : Nat) (c : Fin 3) (a b : Bool) (n : BitVec 8) (s u v : State), s.advance t = u →
    u.setPos { u.pos with raw := u.pos.raw.set (fun _ => 7) c (u.pos.rawOf c / 4 * 4 + abOf a b) } = v → n.toNat < v.filtN →
    exec (.encoderTransition t c a ⟨b, n⟩) s = .next v) ∧
  (∀ (t : Nat) (c : Fin 3) (a b : Bool) (n : BitVec 8) (s x u v w : State), s.advance t = x →
    x.setPos { x.pos with raw := x.pos.raw.set (fun _ => 7) c (x.pos.rawOf c / 4 * 4 + abOf a b) } = u → u.filtN ≤ n.toNat →
    u.transition c (abOf a b) = v → State.trustAct u v = w →
    (diff48 v.pos.t u.pos.t = 0 → exec (.encoderTransition t c a ⟨b, n⟩) s = .next w.trigSkip) ∧
    (diff48 v.pos.t u.pos.t ≠ 0 → exec (.encoderTransition t c a ⟨b, n⟩) s =
      .next (w.fireEdge (decide (w.pos.sgn * diff48 v.pos.t u.pos.t < 0))).trigSkip)) ∧
  (∀ (c : Fin 3) (ab : Nat) (u : State), u.chanOn c = false →
    u.transition c ab = u.setPos { u.pos with ab := u.pos.ab.set (fun _ => 3) c ab }) ∧
  (∀ (c : Fin 3) (ab : Nat) (u w v : State) (d : Int), u.chanOn c = true → quadStep (u.pos.pins c) ab = some d →
    u.setPos { u.pos with ab := u.pos.ab.set (fun _ => 3) c ab
                          cnt := u.pos.cnt.set (fun _ => 0) c (wrapS 48 (u.pos.chan c + if u.on POS_CTL_SENSE then -d else d)) } = w →
    -(2 : Int) ^ 47 ≤ u.pos.t → u.pos.t < 2 ^ 47 → -(2 : Int) ^ 47 ≤ w.vote → w.vote < 2 ^ 47 → u.transition c ab = v →
    v.pos.ab = w.pos.ab ∧ v.pos.cnt = w.pos.cnt ∧ v.pos.t = w.vote ∧ (v.pos.h = u.pos.h ∨ v.pos.h = w.vote) ∧
    v.hostIf = u.hostIf ∧ v.heads = u.heads ∧ v.tabs = u.tabs)

/-- The reading discipline of R212. -/
def Obligations.LoReadsLatchHi : Prop :=
  (∀ (k : Fin 6) (s : State), s.barOk 6 = true →
    Runs (.posLoRead k) s (fun v =>
      v.readData.toNat = s.posPair k % 2 ^ 32 ∧
      v.pos = { s.pos with lat := s.pos.lat.set (fun _ => 0#32) k (BitVec.ofNat 32 (s.posPair k / 2 ^ 32)) } ∧
      (SMap.wf (fun _ => 0#32) s.pos.lat = true → v.pos.lat.get (fun _ => 0#32) k = BitVec.ofNat 32 (s.posPair k / 2 ^ 32)) ∧
      (∀ j : Fin 6, j ≠ k → v.pos.lat.get (fun _ => 0#32) j = s.pos.lat.get (fun _ => 0#32) j) ∧ v.regs = s.regs)) ∧
  (∀ (k : Fin 6) (s : State), s.live ([POS_CNTHI, POS_TRAVHI, POS_HWMHI, POS_ZACCHI, POS_ZCAPHI, POS_SNAPHI].getD k 0) =
    s.pos.lat.get (fun _ => 0#32) k) ∧
  (∀ (x : Int), -(2 : Int) ^ 47 ≤ x → x < 2 ^ 47 → unsign 64 x / 2 ^ 32 =
    bitsOf (unsign 48 x) 32 16 + 2 ^ 16 * (if x < 0 then 65535 else 0)) ∧
  (∀ (k : Fin 6) (s : State), s.barOk 6 = false → exec (.posLoRead k) s = .next { s with readData := 0#64, readEP := false })

/-- R220. -/
def Obligations.RewindsWait : Prop :=
  (∀ s : State, s.pos.rewind = none → exec .rewind s = .next s) ∧
  (∀ (s : State) (v : Int), s.pos.rewind = some v → -(s.fld POS_REVWIN_COUNTS : Int) ≤ diff48 s.pos.t v → exec .rewind s = .next s) ∧
  (∀ (s : State) (v : Int), s.canonical → s.pos.rewind = some v → diff48 s.pos.t v < -(s.fld POS_REVWIN_COUNTS : Int) →
    Runs .rewind s (fun w => w.pos = { s.pos with h := v, rewind := none } ∧ w.on POS_STATE_REVERSED = true ∧
      w.on FIR_STATE_SUSPR = true ∧ w.fld POS_REVCNT_REWIND = min 65535 (s.fld POS_REVCNT_REWIND + 1) ∧
      w.fld POS_REVCNT_REV = s.fld POS_REVCNT_REV)) ∧
  (∀ (s : State) (v : Int), s.pos.rewind = some v → diff48 s.pos.t v < -(s.fld POS_REVWIN_COUNTS : Int) →
    Runs .rewind s (fun w => w.pos = { s.pos with h := v, rewind := none }))

/-- The other position commands. -/
def Obligations.PositionCommandsRun : Prop :=
  (∀ (c : Fin 3) (z : Bool) (n : BitVec 8) (s v : State),
    s.setPos { s.pos with raw := s.pos.raw.set (fun _ => 7) c (4 * b2n z + s.pos.rawOf c % 4) } = v →
    n.toNat < v.filtN ∨ v.fld PWR_STAT_STATE = 3 → exec (.encoderIndexChange c ⟨z, n⟩) s = .next v) ∧
  (∀ (c : Fin 3) (z : Bool) (n : BitVec 8) (s v u : State),
    s.setPos { s.pos with raw := s.pos.raw.set (fun _ => 7) c (4 * b2n z + s.pos.rawOf c % 4) } = v →
    v.filtN ≤ n.toNat → v.fld PWR_STAT_STATE ≠ 3 → v.setPos { v.pos with z := v.pos.z.set (fun _ => 1) c (b2n z) } = u →
    exec (.encoderIndexChange c ⟨z, n⟩) s = .next (if u.votedIndex then u else u.setPos { u.pos with armed := true })) ∧
  (∀ (t : Nat) (s u : State), s.advance t = u → u.awake = true → u.on POS_SPEEDST_STILL = false →
    1000 * u.fld POS_STILLTO_TIMEOUT ≤ (u.tb0 - u.reg POS_EDGETB0).toNat →
    exec (.stillTimeout t) s = .next (((((u.setPos { u.pos with ivals := [], edge := false }).setBit POS_SPEEDST_STILL true).setBit
      POS_SPEEDST_INVALID false).putSpeed).startTimer 1)) ∧
  (∀ (t : Nat) (s u : State), s.advance t = u → u.on POS_SPEEDST_STILL = true → exec (.stillTimeout t) s = .next u) ∧
  (∀ (t e : Nat) (s u : State), s.advance t = u → u.awake = true → u.on POS_SPEEDST_STILL = false →
    u.on POS_SPEEDST_INVALID = false → (u.tb0 - u.reg POS_EDGETB0).toNat = e →
    exec (.speedDecayUpdate t) s = .next (if u.spdSum < e * u.spdK
      then u.setReg POS_SPEED (BitVec.ofNat 32 ((16000000000 + e / 2) / e)) else u)) ∧
  (∀ (v : BitVec 32) (s : State), s.barOk 6 = true → s.armed = true →
    exec (.posCtlWrite v) s = .next (s.recordAt POS_ERR erARMED POS_CTL)) ∧
  (∀ (v : BitVec 32) (s u : State), s.barOk 6 = true → s.armed = false →
    (((List.range 3).filter (fun c => v.getLsbD c && !(s.reg POS_CTL).getLsbD c)).foldl
      (fun r c => r.setPos { r.pos with cnt := r.pos.cnt.set (fun _ => 0) c s.vote, ab := r.pos.ab.set (fun _ => 3) c (r.pos.rawOf c % 4) }) (s.setReg POS_CTL (posCtlLegal (s.reg POS_CTL) v))) = u →
    (u.vote = u.pos.t → exec (.posCtlWrite v) s = .next u.voteFlags.indexArm) ∧
    (u.vote ≠ u.pos.t → exec (.posCtlWrite v) s =
      .next (((u.posJump u.vote).dropList (s.on POS_SPEEDST_STILL)).voteFlags.indexArm))) ∧
  (∀ (m : BitVec 3) (s : State), s.barOk 6 = true → exec (.resync m) s = .next ((List.range 3).foldl (fun s c =>
    if bitAt m.toNat c then (if s.chanOn c && decide (2 ≤ s.chans.length) then
      (s.setPos { s.pos with cnt := s.pos.cnt.set (fun _ => 0) c s.vote }).voteFlags else s) else s) s)) ∧
  (∀ (t : Nat) (s u : State), s.advance t = u → u.barOk 6 = true → exec (.posSnap t) s = .next (u.posSnap 0)) ∧
  (∀ (claim : Bool) (src : Fin 8) (hearth : Bool) (s : State), s.barOk 6 = true →
    (hearth = true → s.firmwareOn = true) → (s.fld POS_ENCO_OWNER = 0 ∨ s.fld POS_ENCO_OWNER = if hearth then 2 else 1) → src.val < 4 →
    exec (.encoClaim claim src hearth) s = .next (((s.setFld POS_ENCO_SRC (if claim then src.val else 0)).setFld POS_ENCO_CLAIM
      (if claim then 1 else 0)).setFld POS_ENCO_OWNER (if claim then (if hearth then 2 else 1) else 0))) ∧
  (∀ (claim : Bool) (src : Fin 8) (hearth : Bool) (s : State), s.barOk 6 = true → (hearth = true → s.firmwareOn = true) → s.fld POS_ENCO_OWNER ≠ 0 →
    s.fld POS_ENCO_OWNER ≠ (if hearth then 2 else 1) →
    exec (.encoClaim claim src hearth) s = .next (s.recordAt POS_ERR erOWNED POS_ENCO)) ∧
  (∀ (claim : Bool) (src : Fin 8) (s : State), s.firmwareOn = false → exec (.encoClaim claim src true) s = .next s) ∧
  (∀ (t : Nat) (s u : State), s.canonical → s.advance t = u → u.barOk 6 = true →
    Runs (.posSnap t) s (fun w => w.reg POS_SNAPTB0 = u.tb0 ∧ (w.reg POS_SNAPLO).toNat = unsign 48 u.pos.t % 2 ^ 32 ∧
      bitsOf (w.reg POS_SNAPHI).toNat 0 16 = bitsOf (unsign 48 u.pos.t) 32 16 ∧ bitsOf (w.reg POS_SNAPHI).toNat 28 2 = 0 ∧
      (w.reg POS_SNAPHI).getLsbD 31 = true))

/-- The transport's commands, where each leads. -/
def Obligations.TransportRuns : Prop :=
  (∀ (s u r : State), s.freezeDue = true → s.fld TRN_STATE_SEQ = 0 → s.splice.active = false →
    s.setSplice { s.splice with taken := s.splice.taken ||| (s.fld TRN_CAUSE_ACT &&& (127 - s.splice.taken))
                                causes := s.splice.causes ||| (s.fld TRN_CAUSE_ACT &&& (127 - s.splice.taken)) } = u →
    (s.fld TRN_CAUSE_ACT &&& (127 - s.splice.taken)) % 64 ≠ 0 →
    (if u.freeze.splice.hold = true then u.freeze.setSplice { u.freeze.splice with
      taken := u.freeze.splice.taken ||| s.fld TRN_CAUSE_ACT, causes := u.freeze.splice.causes ||| s.fld TRN_CAUSE_ACT } else u.freeze) = r →
    exec .spliceRequest s = .next (if r.actMaster then (r.countReg TRN_SPLCNT 1).seqTo 2 else r)) ∧
  (∀ s : State, s.freezeDue = false → exec .spliceRequest s = .next s) ∧
  (∀ s : State, s.on TRN_STATE_DRVRDY = true → exec (.driveReadyChange true) s = .next ((s.setBit TRN_STATE_DRVRDY true).dropCause 4)) ∧
  (∀ s u : State, s.on TRN_STATE_DRVRDY = false → (s.setBit TRN_STATE_DRVRDY true).dropCause 4 = u →
    exec (.driveReadyChange true) s = .next (u.setSplice { u.splice with since := u.clk })) ∧
  (∀ s u : State, s.setBit TRN_STATE_DRVRDY false = u →
    exec (.driveReadyChange false) s = .next (if s.armed then u.raiseCause 4 else u)) ∧
  (∀ s u : State, s.causeCheck = u → u.inSeq 1 = true → u.on TRN_STATE_DRVRDY = true → u.allClear = true →
    exec .startToIdle s = .next ((u.setSplice { u.splice with
      taken := 0, causes := 0, reps := u.splice.reps.map (fun r => (r.1, { r.2 with asked := false })) }).seqTo 0)) ∧
  (∀ s u : State, s.causeCheck = u → u.inSeq 1 = false ∨ u.on TRN_STATE_DRVRDY = false ∨ u.allClear = false →
    exec .startToIdle s = .next u) ∧
  (∀ (t : Nat) (s u : State), s.advance t = u → u.inSeq 2 = true → u.settled = true →
    exec (.stopSettled t) s = .next (if u.noRev then u.seqTo 4 else u.toBack)) ∧
  (∀ s : State, s.inSeq 3 = true → exec .backTargetReached s =
    .next (if diff48 s.pos.t s.splice.target ≤ 0 then s.seqTo 4 else s)) ∧
  (∀ (t : Nat) (s u : State), (s.advance t).causeCheck = u → u.inSeq 4 = true → u.settled = true → u.allClear = true →
    u.pos.rewind = none → exec (.waitToApproach t) s = .next u.toApproach) ∧
  (∀ s : State, s.inSeq 5 = true → exec .approachToIdle s = .next (if s.resumed then s.toIdle else s)) ∧
  (∀ (t : Nat) (s u : State), s.advance t = u → u.splice.since + 400000 * u.fld TRN_MOVETO_MS ≤ u.clk →
    u.on TRN_STATE_DRVRDY = true →
    (u.inSeq 2 = true → u.on POS_SPEEDST_STILL = false → exec (.spliceFault t) s = .next ((u.setFld TRN_STATE_FLT 0).seqTo 6)) ∧
    (u.inSeq 2 = false → u.inSeq 3 = true → 0 < diff48 u.pos.t u.splice.target →
      exec (.spliceFault t) s = .next ((u.setFld TRN_STATE_FLT 1).seqTo 6))) ∧
  (∀ (t : Nat) (s u : State), s.advance t = u → u.on TRN_STATE_DRVRDY = false → exec (.spliceFault t) s = .next u) ∧
  (∀ (t : Nat) (s u : State), s.advance t = u → exec (.demandSlewStep t) s = .next (((u.trnShow).trimStep 64).trnShow)) ∧
  (∀ s : State, s.canonical → s.freezeDue = true → s.fld TRN_STATE_SEQ = 0 → s.splice.active = false → s.actMaster = true →
    (s.fld TRN_CAUSE_ACT &&& (127 - s.splice.taken)) % 64 ≠ 0 →
    Runs .spliceRequest s (fun w => w.fld TRN_STATE_SEQ = 2 ∧ w.splice.active = true ∧ w.splice.hold = true ∧
      (w.reg TRN_SPLCNT).toNat = min ((s.reg TRN_SPLCNT).toNat + 1) (2 ^ 32 - 1))) ∧
  (∀ s u : State, s.canonical → s.causeCheck = u → u.inSeq 1 = true → u.on TRN_STATE_DRVRDY = true → u.allClear = true →
    Runs .startToIdle s (fun w => w.fld TRN_STATE_SEQ = 0 ∧ w.splice.causes = 0)) ∧
  (∀ (t : Nat) (s u : State), s.canonical → s.advance t = u → u.inSeq 2 = true → u.settled = true →
    Runs (.stopSettled t) s (fun w => w.fld TRN_STATE_SEQ = if u.on TRN_CTL_NOREV = true ∨ u.scan = true then 4 else 3)) ∧
  (∀ s : State, s.canonical → s.inSeq 3 = true → diff48 s.pos.t s.splice.target ≤ 0 →
    Runs .backTargetReached s (fun w => w.fld TRN_STATE_SEQ = 4)) ∧
  (∀ (t : Nat) (s u : State), s.canonical → (s.advance t).causeCheck = u → u.inSeq 4 = true → u.settled = true → u.allClear = true →
    u.pos.rewind = none → Runs (.waitToApproach t) s (fun w => w.fld TRN_STATE_SEQ = 5)) ∧
  (∀ s : State, s.canonical → s.inSeq 5 = true → s.resumed = true →
    Runs .approachToIdle s (fun w => w.fld TRN_STATE_SEQ = 0 ∧ w.splice.active = false)) ∧
  (∀ (t : Nat) (s u : State), s.canonical → s.advance t = u → u.splice.since + 400000 * u.fld TRN_MOVETO_MS ≤ u.clk →
    u.on TRN_STATE_DRVRDY = true → u.inSeq 2 = true → u.on POS_SPEEDST_STILL = false →
    Runs (.spliceFault t) s (fun w => w.fld TRN_STATE_SEQ = 6 ∧ w.fld TRN_STATE_FLT = 0)) ∧
  (∀ (t : Nat) (s v : State) (o g : Nat), s.canonical → (s.advance t).trnShow = v → v.fld (TRM_OUT_OUT 64) = o →
    v.fld (TRM_OUT_TARGET 64) = g → o ≠ g → v.fld PWR_STAT_STATE = 0 →
    v.timerOver (tmTrim 64) (usClk (slewUs (v.trimSlewCode 64))) = true →
    Runs (.demandSlewStep t) s (fun w => w.fld (TRM_OUT_OUT 64) = if o < g then o + 1 else o - 1))

/-- Camera ports. -/
def Obligations.CamerasRun : Prop :=
  (∀ (t : Nat) (c : Fin 2) (vc : BitVec 2) (dt : BitVec 6) (err : Fin 3) (px : List (BitVec 12)) (s u : State), s.advance t = u →
    u.camOn c = false → exec (.cameraFrameStart t c vc) s = .next u ∧ exec (.cameraLine t c vc dt err px) s = .next u ∧
      exec (.cameraFrameEnd t c vc) s = .next u) ∧
  (∀ (t : Nat) (c : Fin 2) (vc : BitVec 2) (s u : State), s.advance t = u → u.camOn c = true →
    exec (.cameraFrameStart t c vc) s = .next (if u.fld (CAM_CTL_VC c) = vc.toNat then (u.setFld (CAM_STAT_LINK c) 1).frameStart c
      else u.setFld (CAM_STAT_LINK c) 1) ∧
    exec (.cameraFrameEnd t c vc) s = .next (if u.fld (CAM_CTL_VC c) = vc.toNat then (u.setFld (CAM_STAT_LINK c) 1).frameEnd c true
      else u.setFld (CAM_STAT_LINK c) 1)) ∧
  (∀ (t : Nat) (c : Fin 2) (vc : BitVec 2) (dt : BitVec 6) (err : Fin 3) (px : List (BitVec 12)) (s u : State), s.advance t = u →
    u.camOn c = true → exec (.cameraLine t c vc dt err px) s = .next (
      if err.val = 2 ∨ (u.fld (CAM_CTL_VC c) = vc.toNat ∧ dt.toNat = 0x2A + u.fld (CAM_CTL_DT c))
      then (u.setFld (CAM_STAT_LINK c) 1).camLine c err px else u.setFld (CAM_STAT_LINK c) 1)) ∧
  (∀ (t : Nat) (s u : State), s.advance t = u → u.insp.spill = [] → exec (.spillReplay t false) s = .next u) ∧
  (∀ (t : Nat) (s u w v : State) (p : Spill) (l : List Spill) (fr : CamFrame), s.advance t = u → u.insp.spill = p :: l →
    u.camOn p.cam = true → u.insp.pipeFree ≤ u.clk →
    (u.storeUse 3 (ceilDiv p.bytes 64)).deviceReads (fun i => u.claimed i pkSPILL) (fun e => .spill 0 (e % max 1 (ceilDiv p.bytes 8))) = w →
    w.setInsp { w.insp with spill := l } = v →
    (v.cam p.cam).frames.find? (fun fr => fr.num == p.frame) = some fr →
    exec (.spillReplay t true) s = .next ((((v.ashUsed).frameFlag p.cam fr.num cfASH)).modFrame p.cam fr.num (fun f => { f with
      rows := f.rows.set p.row { (fr.rows[p.row]?.getD ⟨[], none, none⟩) with
        pix := (((v.ashUsed).frameFlag p.cam fr.num cfASH)).fillPix p.cam fr.width, raw := none }
      fills := f.fills + 1, outAt := max f.outAt (((v.ashUsed).frameFlag p.cam fr.num cfASH)).clk }))) ∧
  (∀ (t : Nat) (c : Fin 2) (s u : State) (fr : CamFrame) (l : List CamFrame), s.advance t = u → (u.cam c).frames = fr :: l →
    u.camOn c = true → fr.closed = true → fr.rows.all (fun r => r.raw.isNone) = true → fr.outAt ≤ u.clk →
    exec (.frameComplete t c) s = .next ((u.frameStats c fr).modCam c (fun x => { x with
      frames := x.frames.drop 1, done := fr.num % 65536
      parts := if ((x.frames.find? (fun f => f.num == fr.num)).getD fr).flags.testBit cfPARTIAL then fr.num :: x.parts else x.parts }))) ∧
  (∀ (t : Nat) (c : Fin 2) (s u : State), s.advance t = u → (u.cam c).frames = [] → exec (.frameComplete t c) s = .next u) ∧
  (∀ (t : Nat) (c : Fin 2) (s u : State) (passed target dq x : Int) (n : Nat), s.advance t = u → u.camOn c = true →
    (u.fld (CAM_TRIG_MODE c) = 1 ∨ u.fld (CAM_TRIG_MODE c) = 2) → u.scan = false → u.trigOff = false →
    u.trigGo c u.pos.h = some (passed, target) → u.trigGo c u.pos.t = some (dq, x) → passed ≤ 0 ∨ u.trigPredicted dq = true → (u.cam c).pin = some n →
    exec (.triggerPulse t c) s = .next (((u.evtPulse n (u.fld (CAM_TRIG_PW c))).modCam c (fun x => { x with mark := target })).trigPush c
      ((u.evtPulse n (u.fld (CAM_TRIG_PW c))).trigNow (u.evtPulse n (u.fld (CAM_TRIG_PW c))).interp 0))) ∧
  (∀ (c : Fin 2) (v : BitVec 32) (s : State), s.barOk (10 + c) = true → s.armed = true →
    exec (.camEnable c v) s = .next (s.recordAt INS_ERR erARMED (CAM_CTL c))) ∧
  (∀ (c : Fin 2) (v : BitVec 32) (s : State), s.barOk (10 + c) = true → s.armed = false →
    (s.reg (CAM_CTL c)).getLsbD 0 = v.getLsbD 0 →
    exec (.camEnable c v) s = .next (s.setReg (CAM_CTL c) (camCtlLegal (s.reg (CAM_CTL c)) v))) ∧
  (∀ (c : Fin 2) (v : BitVec 32) (s u : State), s.barOk (10 + c) = true → s.armed = false →
    (s.reg (CAM_CTL c)).getLsbD 0 = false → v.getLsbD 0 = true → s.setReg (CAM_CTL c) (camCtlLegal (s.reg (CAM_CTL c)) v) = u →
    u.fld (TIM_EVTCTL_OWNER (u.fld (CAM_TRIG_PIN c))) = evFREE →
    exec (.camEnable c v) s = .next (((u.evtOwn (u.fld (CAM_TRIG_PIN c)) (evCAM c)).setCam c
      { Cam.reset with pin := some (u.fld (CAM_TRIG_PIN c)), mark := u.pos.h * 2 ^ 24 }).setReg (CAM_FRAME c) 0#32)) ∧
  (∀ (t : Nat) (c : Fin 2) (v : BitVec 32) (s u : State), s.advance t = u → u.barOk (10 + c) = true →
    exec (.camFfdataAccess t c (some v)) s = .next (if u.armed then u.recordAt INS_ERR erARMED (CAM_FFDATA c)
      else (u.windowPut (u.ffAt c) 4 (v.toNat &&& 0xFFFF0FFF)).ffNext c) ∧
    exec (.camFfdataAccess t c none) s = .next ((u.windowGet (u.ffAt c) 4).ffNext c)) ∧
  (∀ (t : Nat) (c : Fin 2) (vc : BitVec 2) (s u : State), s.canonical → s.advance t = u → u.camOn c = true →
    u.fld (CAM_CTL_VC c) = vc.toNat → (u.cam c).opened = false → u.fld (CAM_TRIG_MODE c) = 0 →
    Runs (.cameraFrameStart t c vc) s (fun w => (w.cam c).opened = true ∧ (w.cam c).frames.length = (u.cam c).frames.length + 1 ∧
      w.reg (CAM_FRAME c) = BitVec.ofNat 32 (u.cam c).next)) ∧
  (∀ (t : Nat) (c : Fin 2) (vc : BitVec 2) (dt : BitVec 6) (px : List (BitVec 12)) (s u : State) (fr : CamFrame), s.advance t = u →
    u.camOn c = true → u.fld (CAM_CTL_VC c) = vc.toNat → dt.toNat = 0x2A + u.fld (CAM_CTL_DT c) → (u.cam c).opened = true →
    (u.cam c).frames = [fr] → fr.rows.length < fr.flines →
    Runs (.cameraLine t c vc dt 0 px) s (fun w => ∃ fr', (w.cam c).frames = [fr'] ∧ fr'.lines = fr.lines + 1 ∧
      fr'.rows.length = fr.rows.length + 1)) ∧
  (∀ (t : Nat) (c : Fin 2) (vc : BitVec 2) (s u : State) (fr : CamFrame), s.advance t = u → u.camOn c = true →
    u.fld (CAM_CTL_VC c) = vc.toNat → u.openFrame c = some fr →
    Runs (.cameraFrameEnd t c vc) s (fun w => (w.cam c).opened = false)) ∧
  (∀ (t : Nat) (c : Fin 2) (wr : Option (BitVec 32)) (s u : State), s.canonical → s.advance t = u → u.barOk (10 + c) = true →
    u.armed = false → Runs (.camFfdataAccess t c wr) s (fun w => w.fld (CAM_FFADDR_INDEX c) = (u.fld (CAM_FFADDR_INDEX c) + 1) % 32768))

/-- Batches. -/
def Obligations.InspectionBatchesRun : Prop :=
  (∀ (t : Nat) (c : Fin 2) (busy : BitVec 4) (bl : BitVec 16) (fs : List Finding) (m : Option (BitVec 32)) (rows : List (Fin 128 × BitVec 38))
    (s u w : State), s.advance t = u → u.barOk 9 = true →
    (u.setFld INS_ENGST_BUSY busy.toNat).setFld INS_ENGST_BACKLOG bl.toNat = w →
    (w.on INS_CTL_EN = false ∨ w.fld PWR_STAT_STATE ≠ 0 → exec (.inspectionBatch t c busy bl fs m rows) s = .next w) ∧
    (w.on INS_CTL_EN = true → w.fld PWR_STAT_STATE = 0 → exec (.inspectionBatch t c busy bl fs m rows) s = .next (match m with
      | some k => (fs.foldl (fun s f => s.finding c f) ((w.compare rows).camCycle c)).stripSummary c k.toNat
      | none => fs.foldl (fun s f => s.finding c f) ((w.compare rows).camCycle c)))) ∧
  (∀ (c : Fin 2) (f : Finding) (s : State), s.camOwns c (s.findCol c f) = false ∨ s.findHolds c f = false → s.finding c f = s) ∧
  (∀ (c : Fin 2) (f : Finding) (s : State), s.autoOn = false ∨ f.conf.toNat < s.fld (INS_RTRIM_MINCONF (s.fld (CAM_CTL_RECIPE c))) →
    (s.finding c f).portQ = s.portQ ∧ (s.finding c f).tabs = s.tabs) ∧
  (∀ (t : Nat) (seq : LinkHdr) (e : BitVec 40) (ws : List (BitVec 128)) (s u : State), s.advance t = u →
    exec (.batch t seq e ws) s = .next (u.recv seq (fun s => if s.role = roSTANDBY ∧ ws ≠ [] then
      (s.setTwin { s.twin with batch := s.twin.batch ++ [countUp s.insp.writes ws.length] }).batchPass e.toNat 0 (ws.map awOf) else s))) ∧
  (∀ (t : Nat) (seq : LinkHdr) (codes : List (BitVec 8)) (s u : State), s.advance t = u →
    exec (.batchres t seq codes) s = .next (u.recv seq (fun s => s.setInsp { s.insp with
      partner := s.insp.partner ++ [(seq.seq.toNat, codes.map (·.toNat))] }))) ∧
  (∀ (t : Nat) (c : Fin 2) (busy : BitVec 4) (bl : BitVec 16) (s u : State), s.canonical → s.advance t = u → u.barOk 9 = true →
    u.on INS_CTL_EN = true → u.fld PWR_STAT_STATE = 0 →
    Runs (.inspectionBatch t c busy bl [] none []) s (fun w => w.fld INS_ENGST_BUSY = busy.toNat ∧ w.fld INS_ENGST_BACKLOG = bl.toNat ∧
      (w.cam c).cycle = (u.reg INS_CYCLE).toNat)) ∧
  (∀ (s : State) (y e : Nat), s.insp.batch = some (y, e) →
    s.batchE = if y = (s.reg INS_CYCLE).toNat then some e else none) ∧
  (∀ (t : Nat) (seq : LinkHdr) (e : BitVec 40) (ws : List (BitVec 128)) (codes : List (BitVec 8)) (s u : State), s.advance t = u →
    u.twinOn = true → u.on TWN_LINKST_UP = true → u.twin.seqIn ≠ seq.seq.toNat →
    (u.role = roSTANDBY → ws ≠ [] →
      Runs (.batch t seq e ws) s (fun w => w.twin.seqIn = seq.seq.toNat ∧ w.insp.writes = u.insp.writes + ws.length)) ∧
    Runs (.batchres t seq codes) s (fun w => w.twin.seqIn = seq.seq.toNat ∧
      w.insp.partner = u.insp.partner ++ [(seq.seq.toNat, codes.map (·.toNat))]))

/-- R293, with the position snapshot at the same clock. -/
def Obligations.SnapshotsCaptureTimeBases : Prop :=
  (∀ (t : Nat) (s u : State), s.canonical → s.advance t = u → u.barOk 12 = true →
    Runs (.timSnap t) s (fun v => (∀ b, b < 4 → v.reg (TIM_SNAPTB b) = u.tb b) ∧
      v.reg64 TIM_SNAPFRCLO TIM_SNAPFRCHI = u.times.frc / 2 ^ 24 % 2 ^ 64 ∧ v.fld TIM_SNAP_SRC = 0 ∧ v.times = u.times)) ∧
  (∀ (t : Nat) (s u : State), s.canonical → s.advance t = u →
    (∃ w, (0, w) ∈ u.cord.queue ∧ timeDue w u.tb0 = true) → (∀ a ∈ u.cord.queue, timeDue a.2 u.tb0 = true → a.1 ≠ 1) →
    Runs (.scheduledActionDue t) s (fun v => (∀ b, b < 4 → v.reg (TIM_SNAPTB b) = u.tb b) ∧
      v.reg64 TIM_SNAPFRCLO TIM_SNAPFRCHI = u.times.frc / 2 ^ 24 % 2 ^ 64 ∧ v.fld TIM_SNAP_SRC = 1 ∧ v.times = u.times ∧
      v.reg POS_SNAPTB0 = u.tb0 ∧ bitsOf (v.reg POS_SNAPHI).toNat 28 2 = 1 ∧
      (v.reg POS_SNAPLO).toNat = unsign 48 u.pos.t % 2 ^ 32 ∧
      v.cord.queue = u.cord.queue.filter (fun a => !timeDue a.2 u.tb0)))

/-- Time bases (R289, R291, R294). -/
def Obligations.TimeBasesRun : Prop :=
  (∀ (t : Nat) (b : Fin 4) (v : BitVec 32) (s u : State), s.advance t = u → u.barOk 12 = true → b ≠ 0 ∨ (u.armed = false ∧ u.disciplined = false) →
    exec (.timSet t b v) s = .next (({ u with times := { u.times with step := u.times.step.set (fun _ => 0) b (v.toNat + 1) } } : State).setReg
      (TIM_SET b) v)) ∧
  (∀ (t : Nat) (s u : State), s.times.step ≠ [] → s.clk < t → (s.goOn (s.clk + 1)).takeSteps = u → u.clk = s.clk + 1 →
    s.advance t = (if t = s.clk + 1 then u else u.goOn t)) ∧
  (∀ (b : Nat) (v : BitVec 32) (s u : State), s.times.step = [(b, v.toNat + 1)] →
    { s with times := { s.times with step := [] } } = u → s.takeSteps = u.tbPut b (v.toNat * 2 ^ 24)) ∧
  (∀ (t : Nat) (v : BitVec 32) (s u : State), s.advance t = u → u.barOk 12 = true → u.armed = true →
    exec (.timSet t 0 v) s = .next (u.recordAt TIM_ERR erARMED (TIM_SET 0))) ∧
  (∀ (t : Nat) (v : BitVec 32) (s u : State), s.advance t = u → u.barOk 12 = true → u.armed = false → u.disciplined = true →
    exec (.timSet t 0 v) s = .next (u.recordAt TIM_ERR erDISC (TIM_SET 0)) ∧
    exec (.timAdj t 0 v) s = .next (u.recordAt TIM_ERR erDISC (TIM_ADJ 0))) ∧
  (∀ (t : Nat) (b : Fin 4) (v : BitVec 32) (s u : State), s.advance t = u → u.barOk 12 = true → b ≠ 0 ∨ u.disciplined = false →
    exec (.timAdj t b v) s = .next (({ u with times := { u.times with rem := u.times.rem.set (fun _ => 0) b (v.toInt * 2 ^ 24) } } : State).setReg
      (TIM_ADJ b) v)) ∧
  (∀ (t : Nat) (s u : State), s.advance t = u → u.barOk 12 = true →
    exec (.timFrcloRead t) s = .next { u with readData := BitVec.ofNat 64 (u.times.frc / 2 ^ 24 % 2 ^ 32), readEP := false
                                              times := { u.times with frcLat := u.times.frc } } ∧
    exec (.frcClr t) s = .next { u with times := { u.times with frc := 0 } }) ∧
  (∀ (t : Nat) (b : Fin 4) (s u : State), s.advance t = u → u.times.rem.get (fun _ => 0) b = 0 →
    exec (.timeBaseSlewEnd t b) s = .next (u.setReg (TIM_ADJREM b) 0#32)) ∧
  (∀ (t : Nat) (b : Fin 4) (s u : State), s.advance t = u → u.times.rem.get (fun _ => 0) b ≠ 0 →
    exec (.timeBaseSlewEnd t b) s = .next u) ∧
  (∀ (t : Nat) (s u : State), s.advance t = u → (∀ a ∈ u.cord.queue, timeDue a.2 u.tb0 = false) →
    exec (.scheduledActionDue t) s = .next u) ∧
  (∀ (s : State) (b a : Nat), b ≠ 0 → s.tbPut b a =
    ({ s with times := { s.times with tb := s.times.tb.set (fun _ => 0) b a } } : State).evtStepped b)

/-- Event pins (R296 to R298). -/
def Obligations.EventPinsRun : Prop :=
  (∀ (n o : Fin 8) (s : State), s.barOk 12 = true → s.fld (TIM_EVTCTL_OWNER n) = 0 → (o = 1 ∨ o = 2) →
    exec (.evtOwnerWrite n o false) s = .next ((s.setFld (TIM_EVTCTL_OWNER n) o).evtShow n)) ∧
  (∀ (n : Fin 8) (s : State), s.barOk 12 = true → s.firmwareOn = true → s.fld (TIM_EVTCTL_OWNER n) = 0 →
    exec (.evtOwnerWrite n 5 true) s = .next ((s.setFld (TIM_EVTCTL_OWNER n) 5).evtShow n)) ∧
  (∀ (n : Fin 8) (s : State), s.barOk 12 = true → s.fld (TIM_EVTCTL_OWNER n) = 1 →
    exec (.evtOwnerWrite n 0 false) s = .next (((s.setEvt n Evt.reset).setFld (TIM_EVTCTL_OWNER n) 0).evtShow n)) ∧
  (∀ (n o : Fin 8) (s : State), s.barOk 12 = true → 3 ≤ s.fld (TIM_EVTCTL_OWNER n) → o.val < 3 →
    exec (.evtOwnerWrite n o false) s = .next (s.recordAt TIM_ERR erOWNED (TIM_EVTCTL n))) ∧
  (∀ (t : Nat) (n : Fin 8) (s u : State), s.advance t = u → u.barOk 12 = true → u.fld (TIM_EVTCTL_OWNER n) = 1 →
    (u.fld (TIM_EVTWIDTH_WIDTH n) = 0 ∨ ((u.reg (TIM_EVTPER n)).toNat ≠ 0 ∧ (u.reg (TIM_EVTPER n)).toNat ≤ 10 * u.fld (TIM_EVTWIDTH_WIDTH n))) →
    exec (.evtGo t n) s = .next (u.recordAt TIM_ERR erBADTIME (TIM_EVTCTL n))) ∧
  (∀ (t : Nat) (n : Fin 8) (s u : State), s.advance t = u → u.barOk 12 = true → u.fld (TIM_EVTCTL_OWNER n) = 1 →
    u.fld (TIM_EVTWIDTH_WIDTH n) ≠ 0 → ((u.reg (TIM_EVTPER n)).toNat = 0 ∨ 10 * u.fld (TIM_EVTWIDTH_WIDTH n) < (u.reg (TIM_EVTPER n)).toNat) →
    exec (.evtGo t n) s = .next ((u.setEvt n { u.evt n with
      run := true, start := u.reg (TIM_EVTSTART n), width := u.fld (TIM_EVTWIDTH_WIDTH n)
      per := (u.reg (TIM_EVTPER n)).toNat, cnt := u.fld (TIM_EVTCNT_COUNT n), nextJ := 0, last := false }).evtCatch n)) ∧
  (∀ (n : Fin 8) (s : State), s.barOk 12 = true → (s.evt n).run = true → (s.evt n).ends ≠ [] →
    exec (.evtStop n) s = .next (s.setEvt n { s.evt n with last := true })) ∧
  (∀ (n : Fin 8) (s : State), s.canonical → s.barOk 12 = true → (s.evt n).run = true → (s.evt n).ends = [] →
    Runs (.evtStop n) s (fun w => (w.evt n).run = false ∧
      (0 < (s.evt n).cnt → 0 < (s.evt n).per → w.on (TIM_EVTSTAT_DONE n) = true))) ∧
  (∀ (n : Fin 8) (s : State), s.barOk 12 = true → (s.evt n).run = false → exec (.evtStop n) s = .next s) ∧
  (∀ (t : Nat) (n : Fin 8) (s u v : State), s.advance t = u → (u.evt n).run = true → (u.evt n).last = false →
    timeDue ((u.evt n).startOf (u.evt n).nextJ) (u.tb (u.fld (TIM_EVTCTL_TB n))) = true →
    u.setEvt n { u.evt n with nextJ := (u.evt n).nextJ + 1
                              last := decide ((u.evt n).per = 0) || decide ((u.evt n).cnt = (u.evt n).nextJ + 1) } = v →
    (v.awake = true → exec (.evtPulseStart t n) s = .next (v.evtPulse n (u.evt n).width)) ∧
    (v.awake = false → exec (.evtPulseStart t n) s = .next (if (u.evt n).per = 0 ∨ (u.evt n).cnt = (u.evt n).nextJ + 1
      then (v.count (TIM_EVTSTAT_MISSED n) 1).evtOver n else v.count (TIM_EVTSTAT_MISSED n) 1))) ∧
  (∀ (t : Nat) (n : Fin 8) (s u : State), s.advance t = u → (u.evt n).run = false → exec (.evtPulseStart t n) s = .next u) ∧
  (∀ (t : Nat) (n : Fin 8) (s u : State), s.advance t = u → (u.evt n).run = false →
    exec (.evtPulseEnd t n) s = .next ((u.setEvt n { u.evt n with ends := (u.evt n).ends.filter (fun x => decide (u.clk < x)) }).evtShow n))

/-- The ring's commands while the ring does not work. -/
def Obligations.CordFramesNeedTheRing : Prop :=
  (∀ (t : Nat) (s u : State) (r : Fin 2) (hops : Fin 128) (seq : BitVec 8) (a : Fin 64) (job w : BitVec 32) (map : BitVec 64)
    (kind : BitVec 2) (q : Fin 8) (g : Fin 257) (cs : BitVec 7) (back : BitVec 40) (f16 : BitVec 16) (b1 b2 : Bool),
    s.advance t = u → u.cordOn = false →
    exec (.discover t r ⟨hops, seq⟩ b1 b2 a cs) s = .next u ∧ exec (.discoverProbeTimer t) s = .next u ∧ exec (.syncTimer t) s = .next u ∧
    exec (.sync t r ⟨hops, seq⟩ a w f16) s = .next u ∧ exec (.holdover t) s = .next u ∧ exec (.oreqTimer t) s = .next u ∧
    exec (.oreq t r ⟨hops, seq⟩ a job) s = .next u ∧ exec (.osnap t r ⟨hops, seq⟩ a job w map) s = .next u ∧
    exec (.sched t r ⟨hops, seq⟩ a kind w map) s = .next u ∧ exec (.trnrep t r ⟨hops, seq⟩ a job b1 g cs back b2) s = .next u ∧
    exec (.trnrepTimer t) s = .next u ∧ exec (.trnstate t r ⟨hops, seq⟩ a q w) s = .next u ∧ exec (.trnstateTimer t) s = .next u) ∧
  (∀ (s : State) (l r : Fin 2) (hops : Fin 128) (seq : BitVec 8) (a : Fin 64) (job w : BitVec 32) (line : BitVec 40)
    (f24 g24 : BitVec 24) (id : BitVec 8) (msg : BitVec 128) (map : BitVec 64) (b : Bool), s.cordOn = false →
    exec (.probe l) s = .next s ∧ exec (.reply l f24 g24) s = .next s ∧ exec (.origin r ⟨hops, seq⟩ a job w line f24 b) s = .next s ∧
    exec (.bcast r ⟨hops, seq⟩ a msg map) s = .next s ∧ exec (.gather r ⟨hops, seq⟩ a id map b) s = .next s ∧
    exec (.releaseFrame r ⟨hops, seq⟩ a id b) s = .next s ∧ exec .cordFrameDropped s = .next s)

/-- Topology. -/
def Obligations.CordTopologyRuns : Prop :=
  (∀ (s : State), exec (.cordLinkChange 0 false) s = .next ((if s.on CRD_STATE_UPE
    then ((s.setBit CRD_STATE_UPE false).countReg CRD_LINKDN 1).alarm alCORD else s.setBit CRD_STATE_UPE false).ringShow false false)) ∧
  (∀ (s u : State), s.setBit CRD_STATE_UPW true = u → exec (.cordLinkChange 1 true) s =
    .next ((u.setCord { u.cord with discAt := 0, probe := u.cord.probe.drop (fun k => k == 1) }).ringShow (s.fld CRD_STATE_RING == 1) false)) ∧
  (∀ (t left : Nat) (hops : Fin 128) (seq : BitVec 8) (a : Fin 64) (e : BitVec 7) (s u v w : State), s.advance t = u → u.cordOn = true →
    u.cord.disc.get (fun _ => 0) 0 = left → left ≠ 0 →
    (u.setFld CRD_TRAV_NS (min 16777215 ((u.clk + 1 - left) * 5 / 2))).setFld CRD_STATE_NODES hops = v →
    (if hops.val = u.fld CRD_CTL_EXPECT then v else (v.setFld CRD_STATE_MEMBER 1).alarm alCORD) = w →
    exec (.discover t 0 ⟨hops, seq⟩ true false a e) s =
      .next ((w.setCord { w.cord with disc := w.cord.disc.set (fun _ => 0) 0 0 }).ringShow true false)) ∧
  (∀ (t : Nat) (r : Fin 2) (hops : Fin 128) (seq : BitVec 8) (a : Fin 64) (e : BitVec 7) (s u : State), s.advance t = u → u.cordOn = true →
    u.cord.disc.get (fun _ => 0) r = 0 → exec (.discover t r ⟨hops, seq⟩ true false a e) s = .next u) ∧
  (∀ (t : Nat) (r : Fin 2) (hops : Fin 128) (seq : BitVec 8) (x : Bool) (a : Fin 64) (e : BitVec 7) (s u v : State), s.advance t = u →
    u.cordOn = true → u.setCord { u.cord with found := u.cord.found ||| 2 ^ a.val } = v →
    exec (.discover t r ⟨hops, seq⟩ false x a e) s = .next ((if a.val = u.addr then (v.setFld CRD_STATE_ADDRCONF 1).alarm alCORD else v).forward
      ⟨r, hops, seq.toNat, a⟩ 1 [e.toNat])) ∧
  (∀ (t q : Nat) (s u : State), s.advance t = u → u.cordOn = true → u.on CRD_STATE_UPE = true → u.on CRD_STATE_UPW = true →
    u.cord.disc = [] → u.cord.discAt = 0 → u.cord.probe = [] → u.cord.txSeq = q → q < 252 →
    Runs (.discoverProbeTimer t) s (fun w =>
      w.sent = u.sent ++ [⟨0, 1, [u.addr, 1, q, u.fld CRD_CTL_EXPECT]⟩, ⟨1, 1, [u.addr, 1, q + 1, u.fld CRD_CTL_EXPECT]⟩,
        ⟨2, 2, [u.addr, 1, q + 2, u.tb0.toNat]⟩, ⟨3, 2, [u.addr, 1, q + 3, u.tb0.toNat]⟩] ∧
      w.cord.txSeq = q + 4 ∧ w.cord.found = u.cord.found ||| 2 ^ u.addr)) ∧
  (∀ (l : Fin 2) (s u : State), s.cordOn = true → ({ s with freeCtr := s.freeCtr + 1 } : State).sendFrame (2 + l) 3
      [s.addr, 1, s.cord.txSeq, (Config.freeWord s.freeCtr).toNat % 2 ^ 16] = u →
    exec (.probe l) s = .next (u.setCord { u.cord with txSeq := (s.cord.txSeq + 1) % 256 })) ∧
  (∀ (l : Fin 2) (rtt turn : BitVec 24) (s : State) (ds : List Nat), s.cordOn = true →
    (((rtt.toNat - turn.toNat) / 2) :: s.cord.hops.get (fun _ => []) l).take 16 = ds →
    exec (.reply l rtt turn) s = .next ((s.setCord { s.cord with hops := s.cord.hops.set (fun _ => []) l ds }).setFld
      (if l = 0 then CRD_HOPE_DELAY else CRD_HOPW_DELAY) (min 65535 (avg ds)))) ∧
  (∀ s : State, s.cordOn = true → exec .cordFrameDropped s = .next ((s.countReg CRD_CRCERR 1).alarm alCORD)) ∧
  (∀ (v : BitVec 32) (s : State), s.barOk 13 = true → s.armed = true →
    exec (.crdEnableWrite v) s = .next (s.recordAt CRD_ERR erARMED CRD_CTL)) ∧
  (∀ (v : BitVec 32) (s u : State), s.barOk 13 = true → s.armed = false → s.setReg CRD_CTL (v &&& 0x007F3F1F#32) = u →
    (v.getLsbD 0 = false → exec (.crdEnableWrite v) s = .next u.cordClear ∧ u.cordClear.cord.sentAt = s.cord.sentAt ∧
      u.cordClear.cord.sentSeq = s.cord.sentSeq ∧ u.cordClear.cord.schedAt = s.cord.schedAt ∧ u.cordClear.cord.schedSeq = s.cord.schedSeq) ∧
    (v.getLsbD 0 = true → s.on CRD_CTL_EN = false → exec (.crdEnableWrite v) s =
      .next ((u.setCord { u.cord with found := 2 ^ u.addr, syncAt := u.clk }).ringShow false false)))

/-- Press time. -/
def Obligations.PressTimeRuns : Prop :=
  (∀ (t : Nat) (s u v : State), s.advance t = u → u.cordOn = true → u.on CRD_CTL_TMASTER = true →
    (u.cord.syncTx = 0 ∨ u.cord.syncTx + u.fld CRD_SYNC_PER * 4000 ≤ u.clk + 1) →
    (u.originate 0 0x10 [u.tb0.toNat, bitsOf (u.tbAcc 0) 8 16]).originate 1 0x10 [u.tb0.toNat, bitsOf (u.tbAcc 0) 8 16] = v →
    exec (.syncTimer t) s = .next (v.setCord { v.cord with syncTx := u.clk + 1 })) ∧
  (∀ (t : Nat) (r : Fin 2) (hops : Fin 128) (seq : BitVec 8) (a : Fin 64) (time : BitVec 32) (frac : BitVec 16) (s u : State), s.advance t = u →
    u.cordOn = true → a.val = u.addr → exec (.sync t r ⟨hops, seq⟩ a time frac) s = .next u) ∧
  (∀ (t x : Nat) (r : Fin 2) (hops : Fin 128) (seq : BitVec 8) (a : Fin 64) (time : BitVec 32) (frac : BitVec 16) (s u v w : State),
    s.advance t = u → u.cordOn = true → a.val ≠ u.addr →
    time.toNat * 2 ^ 16 + frac.toNat + u.hopIn r * 2 ^ 12 + (Config.freeWord u.freeCtr).toNat % 2 ^ 24 = x →
    ({ u with freeCtr := u.freeCtr + 1 } : State).forward ⟨r, hops, seq.toNat, a⟩ 0x10 [x / 2 ^ 16 % 2 ^ 32, x % 2 ^ 16] = v →
    (v.tmNow = none ∨ v.tmNow = some a.val) → (v.cord.near.get (fun _ => (0, 0)) (1 - r)).2 = 0 →
    v.setCord { v.cord with tmFrom := some a.val, tmAt := v.clk, near := v.cord.near.set (fun _ => (0, 0)) r (hops, v.clk + 1) } = w →
    exec (.sync t r ⟨hops, seq⟩ a time frac) s = .next (w.discipline (u.syncOffset r time.toNat frac.toNat))) ∧
  (∀ (s u v : State) (off : Int), (s.setReg CRD_OFFSET (BitVec.ofNat 32 (unsign 32 (sat32 (off / 2 ^ 24))))).setFld CRD_STATE_HOLDOVER 0 = u →
    off.natAbs < u.fld CRD_SYNC_STEPTH * 1000 * 2 ^ 24 → 0 < u.fld CRD_SYNC_PER →
    u.setReg CRD_CORR (BitVec.ofNat 32 (unsign 32 (max (-(((u.reg (TIM_INC 0)).toNat * u.fld CRD_SYNC_SLEWMAX / 1000000 : Nat) : Int))
      (min (((u.reg (TIM_INC 0)).toNat * u.fld CRD_SYNC_SLEWMAX / 1000000 : Nat) : Int) (Int.tdiv off (16 * (u.fld CRD_SYNC_PER * 4000 : Nat))))))) = v →
    20 * 2 ^ 24 ≤ off.natAbs → off.natAbs < 100 * 2 ^ 24 →
    s.discipline off = v.setCord { v.cord with good := 0, syncAt := v.clk }) ∧
  (∀ (t : Nat) (s u : State), s.advance t = u → u.cordOn = true → u.on CRD_CTL_TMASTER = false →
    u.cord.syncAt + u.fld CRD_SYNC_TO * u.fld CRD_SYNC_PER * 4000 ≤ u.clk →
    Runs (.holdover t) s (fun v => v.cord = { u.cord with good := 0, tmFrom := none } ∧ v.alarms = u.alarms ||| (1#64 <<< alCORD) ∧
      (s.canonical → v.on CRD_STATE_HOLDOVER = true ∧ v.on CRD_STATE_LOCK = false)))

/-- Line agreement (R306). -/
def Obligations.LineAgreementRuns : Prop :=
  (∀ (t : Nat) (s u v : State), s.advance t = u → u.cordOn = true → u.awaitsOrigin = true →
    (u.cord.oreqAt = 0 ∨ u.cord.oreqAt + 400000 ≤ u.clk + 1) → u.originate 0 0x20 [(u.reg CRD_JOBID).toNat] = v →
    exec (.oreqTimer t) s = .next (v.setCord { v.cord with oreqAt := u.clk + 1 })) ∧
  (∀ (t : Nat) (r : Fin 2) (hops : Fin 128) (seq : BitVec 8) (a : Fin 64) (s u v : State), s.advance t = u → u.cordOn = true → a.val ≠ u.addr →
    u.forward ⟨r, hops, seq.toNat, a⟩ 0x20 [(u.reg CRD_JOBID).toNat] = v → v.lineMaster = true → v.reg CRD_JOBID = u.reg CRD_JOBID →
    v.cord.snap = none →
    exec (.oreq t r ⟨hops, seq⟩ a (u.reg CRD_JOBID)) s = .next ((v.setCord { v.cord with
      snap := some (v.tb0 + BitVec.ofNat 32 (2 * v.fld CRD_TRAV_NS + 10000)) }).originate 0 0x21
      [(u.reg CRD_JOBID).toNat, (v.tb0 + BitVec.ofNat 32 (2 * v.fld CRD_TRAV_NS + 10000)).toNat, 2 ^ v.addr])) ∧
  (∀ (t : Nat) (r : Fin 2) (hops : Fin 128) (seq : BitVec 8) (a : Fin 64) (job : BitVec 32) (s u : State), s.advance t = u →
    a.val = u.addr → exec (.oreq t r ⟨hops, seq⟩ a job) s = .next u) ∧
  (∀ (t : Nat) (r : Fin 2) (hops : Fin 128) (seq : BitVec 8) (a : Fin 64) (job w : BitVec 32) (map : BitVec 64) (s u v : State), s.advance t = u →
    u.cordOn = true → a.val ≠ u.addr → u.on CRD_CTL_LMASTER = false → u.cord.lmFrom = none →
    u.setCord { u.cord with lmFrom := some a.val } = v →
    exec (.osnap t r ⟨hops, seq⟩ a job w map) s = .next (if v.awaitsOrigin = true ∧ job = v.reg CRD_JOBID ∧ timeDue w v.tb0 = false then
        (v.setCord { v.cord with snap := some w }).forward ⟨r, hops, seq.toNat, a⟩ 0x21 [job.toNat, w.toNat, map.toNat ||| 2 ^ v.addr]
      else v.forward ⟨r, hops, seq.toNat, a⟩ 0x21 [job.toNat, w.toNat, map.toNat])) ∧
  (∀ (t : Nat) (w : Word) (s u : State), s.advance t = u → u.cord.snap = some w → timeDue w u.tb0 = true → u.lineMaster = false →
    exec (.originSnapshotDue t) s = .next (u.setCord { u.cord with
      snap := none, cap := some (w, u.interp, u.on POS_STATE_TRUST && !u.on POS_STATE_REVERSED) })) ∧
  (∀ (t : Nat) (s u : State), s.advance t = u → u.cord.snap = none → exec (.originSnapshotDue t) s = .next u) ∧
  (∀ (r : Fin 2) (hops : Fin 128) (seq : BitVec 8) (a : Fin 64) (w : BitVec 32) (line : BitVec 40) (frac : BitVec 24) (s v : State)
    (valid : Bool) (tc : Int), s.cordOn = true → a.val ≠ s.addr → s.on CRD_CTL_LMASTER = false → s.cord.lmFrom = some a.val →
    (s.setCord { s.cord with lmFrom := some a.val }).forward ⟨r, hops, seq.toNat, a⟩ 0x22
      [(s.reg CRD_JOBID).toNat, w.toNat, line.toNat, frac.toNat, b2n valid] = v →
    v.awaitsOrigin = true → v.reg CRD_JOBID = s.reg CRD_JOBID → v.cord.cap = some (w, tc, true) →
    exec (.origin r ⟨hops, seq⟩ a (s.reg CRD_JOBID) w line frac valid) s = .next (if valid
      then v.originTaken w tc ((line.toNat * 2 ^ 24 + frac.toNat : Nat) : Int) else v.setCord { v.cord with cap := none }))

/-- Broadcasts and barriers (R308, R309, R311). -/
def Obligations.BroadcastsAndBarriersRun : Prop :=
  (∀ (r : Fin 2) (hops : Fin 128) (seq : BitVec 8) (a : Fin 64) (msg : BitVec 128) (map : BitVec 64) (s : State), s.cordOn = true →
    a.val ≠ s.addr →
    exec (.bcast r ⟨hops, seq⟩ a msg map) s = .next (if s.cord.inbox.length < 8 then
        (s.setCord { s.cord with inbox := s.cord.inbox ++ [(a.val, msg.toNat)] }).brxShow.forward ⟨r, hops, seq.toNat, a⟩ 0x30
          [msg.toNat, map.toNat ||| 2 ^ s.addr]
      else ((s.setFld CRD_BRXSTAT_OVF 1).alarm alCORD).forward ⟨r, hops, seq.toNat, a⟩ 0x30 [msg.toNat, map.toNat])) ∧
  (∀ (r : Fin 2) (hops : Fin 128) (seq : BitVec 8) (a : Fin 64) (msg : BitVec 128) (map : BitVec 64) (s : State), s.cordOn = true →
    a.val = s.addr →
    exec (.bcast r ⟨hops, seq⟩ a msg map) s = .next (if s.on CRD_BSEND_BUSY = true ∧ seq.toNat = s.cord.sentSeq then
      (s.setReg64 CRD_BACKLO CRD_BACKHI map.toNat).setFld CRD_BSEND_BUSY 0 else s)) ∧
  (∀ (t : Nat) (s u : State), s.advance t = u → u.barOk 13 = true → u.on CRD_BSEND_BUSY = true →
    exec (.crdBsendGo t) s = .next (u.recordAt CRD_ERR erBUSY CRD_BSEND)) ∧
  (∀ (t : Nat) (s u v : State), s.advance t = u → u.barOk 13 = true → u.on CRD_BSEND_BUSY = false → u.on CRD_CTL_EN = true →
    u.originate 0 0x30 [(List.range 4).foldl (fun m j => m + (u.reg (CRD_BTX j)).toNat * 2 ^ (32 * j)) 0, 0] = v →
    exec (.crdBsendGo t) s = .next ((v.setFld CRD_BSEND_BUSY 1).setCord { v.cord with sentAt := u.clk, sentSeq := u.cord.txSeq })) ∧
  (∀ s : State, s.barOk 13 = true → exec .crdBpop s = .next ((s.setCord { s.cord with inbox := s.cord.inbox.tail }).brxShow)) ∧
  (∀ (id : BitVec 8) (s u : State), s.barOk 13 = true → (s.setFld CRD_BARST_ID id.toNat).setFld CRD_BARST_WAITING 1 = u →
    (u.cord.gather = none → u.on CRD_CTL_EN = true →
      exec (.barrierEnter id) s = .next (if u.initiator then u.originate 0 0x31 [id.toNat, 2 ^ u.addr, 0] else u)) ∧
    (∀ g, u.cord.gather = some g → exec (.barrierEnter id) s = .next ((u.setCord { u.cord with gather := none }).forward g.hdr 0x31
      [g.id, g.map ||| 2 ^ u.addr, b2n (g.mm || g.id != u.fld CRD_BARST_ID)]))) ∧
  (∀ (r : Fin 2) (hops : Fin 128) (seq : BitVec 8) (a : Fin 64) (id : BitVec 8) (map : BitVec 64) (mm : Bool) (s : State), s.cordOn = true →
    a.val ≠ s.addr →
    (s.on CRD_BARST_WAITING = false → exec (.gather r ⟨hops, seq⟩ a id map mm) s =
      .next (s.setCord { s.cord with gather := some ⟨⟨r, hops, seq.toNat, a⟩, id.toNat, map.toNat, mm⟩ })) ∧
    (s.on CRD_BARST_WAITING = true → exec (.gather r ⟨hops, seq⟩ a id map mm) s =
      .next ((s.setCord { s.cord with gather := none }).forward ⟨r, hops, seq.toNat, a⟩ 0x31
        [id.toNat, map.toNat ||| 2 ^ s.addr, b2n (mm || id.toNat != s.fld CRD_BARST_ID)]))) ∧
  (∀ (r : Fin 2) (hops : Fin 128) (seq : BitVec 8) (a : Fin 64) (id : BitVec 8) (map : BitVec 64) (mm : Bool) (s u : State), s.cordOn = true →
    a.val = s.addr → s.on CRD_BARST_WAITING = true → (s.setFld CRD_BARST_WAITING 0).setFld CRD_BARST_DONE 1 = u →
    exec (.gather r ⟨hops, seq⟩ a id map mm) s =
      .next ((if mm then (u.setFld CRD_BARST_MISMATCH 1).alarm alCORD else u).originate 0 0x32 [id.toNat, b2n mm])) ∧
  (∀ (r : Fin 2) (hops : Fin 128) (seq : BitVec 8) (a : Fin 64) (id : BitVec 8) (mm : Bool) (s u v : State), s.cordOn = true → a.val ≠ s.addr →
    s.forward ⟨r, hops, seq.toNat, a⟩ 0x32 [id.toNat, b2n mm] = u → u.on CRD_BARST_WAITING = true →
    (u.setFld CRD_BARST_WAITING 0).setFld CRD_BARST_DONE 1 = v →
    exec (.releaseFrame r ⟨hops, seq⟩ a id mm) s = .next (if mm then (v.setFld CRD_BARST_MISMATCH 1).alarm alCORD else v)) ∧
  (∀ (t : Nat) (s u : State), s.advance t = u → u.on CRD_BSEND_BUSY = true → u.cord.sentAt + 400000 ≤ u.clk →
    exec (.cordFrameLost t false) s =
      .next ((((u.setFld CRD_BSEND_BUSY 0).setFld CRD_BSEND_LOST 1).setReg64 CRD_BACKLO CRD_BACKHI 0).alarm alCORD)) ∧
  (∀ (t : Nat) (s u : State), s.advance t = u → u.on CRD_BSEND_BUSY = false → u.on CRD_SCHEDST_BUSY = false →
    exec (.cordFrameLost t false) s = .next u ∧ exec (.cordFrameLost t true) s = .next u)

/-- Scheduled actions (R310). -/
def Obligations.ScheduledActionsRun : Prop :=
  (∀ (t : Nat) (v : BitVec 32) (s u : State), s.advance t = u → u.barOk 13 = true → 2 ≤ bitsOf v.toNat 0 2 → u.on CRD_SCHEDST_BUSY = true →
    exec (.crdSchedGo t v) s = .next (u.recordAt CRD_ERR erBUSY CRD_SCHED)) ∧
  (∀ (t : Nat) (v : BitVec 32) (s u w : State), s.advance t = u → u.barOk 13 = true → bitsOf v.toNat 0 2 < 2 →
    u.setFld CRD_SCHED_KIND (bitsOf v.toNat 0 2) = w → w.on CRD_SCHEDST_BUSY = true →
    exec (.crdSchedGo t v) s = .next (w.recordAt CRD_ERR erBUSY CRD_SCHED)) ∧
  (∀ (t : Nat) (v : BitVec 32) (s u w : State), s.advance t = u → u.barOk 13 = true → bitsOf v.toNat 0 2 < 2 →
    u.setFld CRD_SCHED_KIND (bitsOf v.toNat 0 2) = w → w.on CRD_SCHEDST_BUSY = false →
    (w.reg CRD_SCHEDT - w.tb0).toInt < (w.fld CRD_TRAV_NS + 10000 : Nat) →
    exec (.crdSchedGo t v) s = .next (w.recordAt CRD_ERR erSCHEDLATE CRD_SCHED)) ∧
  (∀ (t : Nat) (v : BitVec 32) (s u w x : State), s.advance t = u → u.barOk 13 = true → bitsOf v.toNat 0 2 < 2 →
    u.setFld CRD_SCHED_KIND (bitsOf v.toNat 0 2) = w → w.on CRD_SCHEDST_BUSY = false → w.on CRD_CTL_EN = true →
    ((w.fld CRD_TRAV_NS + 10000 : Nat) : Int) ≤ (w.reg CRD_SCHEDT - w.tb0).toInt →
    (w.schedTake (w.fld CRD_SCHED_KIND) (w.reg CRD_SCHEDT)).1.originate 0 0x40 [w.fld CRD_SCHED_KIND, (w.reg CRD_SCHEDT).toNat,
      if (w.schedTake (w.fld CRD_SCHED_KIND) (w.reg CRD_SCHEDT)).2 then 2 ^ w.addr else 0] = x →
    exec (.crdSchedGo t v) s = .next ((x.setFld CRD_SCHEDST_BUSY 1).setCord { x.cord with schedAt := w.clk, schedSeq := u.cord.txSeq })) ∧
  (∀ (t : Nat) (r : Fin 2) (hops : Fin 128) (seq : BitVec 8) (a : Fin 64) (k : BitVec 2) (w : BitVec 32) (map : BitVec 64) (s u : State),
    s.advance t = u → u.cordOn = true → a.val ≠ u.addr → k.toNat ≤ 1 → (k = 1#2 → u.on CRD_CTL_RSTEN = true) → timeDue w u.tb0 = false →
    u.cord.queue.length < 4 →
    exec (.sched t r ⟨hops, seq⟩ a k w map) s = .next ((u.setCord { u.cord with queue := u.cord.queue ++ [(k.toNat, w)] }).forward
      ⟨r, hops, seq.toNat, a⟩ 0x40 [k.toNat, w.toNat, map.toNat ||| 2 ^ u.addr])) ∧
  (∀ (t : Nat) (r : Fin 2) (hops : Fin 128) (seq : BitVec 8) (a : Fin 64) (k : BitVec 2) (w : BitVec 32) (map : BitVec 64) (s u : State),
    s.advance t = u → u.cordOn = true → a.val ≠ u.addr →
    (2 ≤ k.toNat ∨ (k = 1#2 ∧ u.on CRD_CTL_RSTEN = false) ∨ timeDue w u.tb0 = true ∨ 4 ≤ u.cord.queue.length) →
    exec (.sched t r ⟨hops, seq⟩ a k w map) s = .next (u.forward ⟨r, hops, seq.toNat, a⟩ 0x40 [k.toNat, w.toNat, map.toNat])) ∧
  (∀ (t : Nat) (r : Fin 2) (hops : Fin 128) (seq : BitVec 8) (a : Fin 64) (k : BitVec 2) (w : BitVec 32) (map : BitVec 64) (s u v : State),
    s.advance t = u → u.cordOn = true → a.val = u.addr → u.on CRD_SCHEDST_BUSY = true → seq.toNat = u.cord.schedSeq →
    ((u.setReg64 CRD_SCHEDACKLO CRD_SCHEDACKHI map.toNat).setFld CRD_SCHEDST_BUSY 0).setFld CRD_SCHEDST_DONE 1 = v →
    exec (.sched t r ⟨hops, seq⟩ a k w map) s = .next (if (List.range 64).any (fun i => bitAt u.cord.found i && !bitAt map.toNat i)
      then (v.setFld CRD_SCHEDST_MISSED 1).alarm alCORD else v)) ∧
  (∀ (t : Nat) (s u : State), s.advance t = u → u.on CRD_SCHEDST_BUSY = true → u.cord.schedAt + 400000 ≤ u.clk →
    exec (.cordFrameLost t true) s = .next (((((u.setFld CRD_SCHEDST_BUSY 0).setFld CRD_SCHEDST_LOST 1).setFld CRD_SCHEDST_MISSED 1).setReg64
      CRD_SCHEDACKLO CRD_SCHEDACKHI 0).alarm alCORD)) ∧
  (∀ (t : Nat) (w : Word) (s u : State), s.advance t = u → u.cord.queue = [(1, w)] → timeDue w u.tb0 = true →
    exec (.scheduledActionDue t) s = .next ((u.setCord { u.cord with queue := [] }).resetBy 7 rcSYSTEM))

/-- Transport frames (R307). -/
def Obligations.TransportFramesRun : Prop :=
  (∀ (t : Nat) (r : Fin 2) (hops : Fin 128) (seq : BitVec 8) (a : Fin 64) (job : BitVec 32) (armed : Bool) (g : Fin 257) (cs : BitVec 7)
    (back : BitVec 40) (rdy : Bool) (s u v : State), s.advance t = u → u.cordOn = true → a.val ≠ u.addr →
    u.forward ⟨r, hops, seq.toNat, a⟩ 0x50 [job.toNat, b2n armed, g, cs.toNat, back.toNat, b2n rdy] = v →
    exec (.trnrep t r ⟨hops, seq⟩ a job armed g cs back rdy) s = .next (((v.setSplice { v.splice with
      reps := v.splice.reps.set (fun _ => Report.none) a (if armed = true ∧ job = v.reg CRD_JOBID
        then ⟨g, cs.toNat, rdy, back.toNat, v.clk, true, (v.splice.reps.get (fun _ => Report.none) a).asked || cs.toNat != 0⟩
        else Report.none) }).remoteCause).trnShow)) ∧
  (∀ (t : Nat) (r : Fin 2) (hops : Fin 128) (seq : BitVec 8) (a : Fin 64) (job : BitVec 32) (armed : Bool) (g : Fin 257) (cs : BitVec 7)
    (back : BitVec 40) (rdy : Bool) (s u : State), s.advance t = u → a.val = u.addr →
    exec (.trnrep t r ⟨hops, seq⟩ a job armed g cs back rdy) s = .next u) ∧
  (∀ (t : Nat) (s u : State), s.advance t = u → u.cordOn = true → u.armed = true →
    (u.cord.repAt + 40000 ≤ u.clk ∨ repKey u.report ≠ repKey u.cord.repLast) → exec (.trnrepTimer t) s = .next u.sendReport) ∧
  (∀ (t : Nat) (a : Fin 64) (s u : State) (x : Report), s.advance t = u → u.splice.reps.get (fun _ => Report.none) a = x → x.armed = true →
    x.at_ + 200000 ≤ u.clk →
    exec (.trnrepTimeout t a) s = .next ((u.setSplice { u.splice with
      reps := u.splice.reps.set (fun _ => Report.none) a { x with ready := false } }).remoteCause)) ∧
  (∀ (t : Nat) (a : Fin 64) (s u : State), s.advance t = u → (u.splice.reps.get (fun _ => Report.none) a).armed = false →
    exec (.trnrepTimeout t a) s = .next u) ∧
  (∀ (t : Nat) (r : Fin 2) (hops : Fin 128) (seq : BitVec 8) (a : Fin 64) (q : Fin 8) (n : BitVec 32) (s u v w : State), s.advance t = u →
    u.cordOn = true → a.val ≠ u.addr → u.forward ⟨r, hops, seq.toNat, a⟩ 0x51 [q, n.toNat] = v → v.actMaster = false →
    v.setCord { v.cord with silent := false, stateAt := v.clk } = w →
    exec (.trnstate t r ⟨hops, seq⟩ a q n) s = .next (if w.armed = true ∧ q.val ≤ 6 then (w.follow q).trnShow else w)) ∧
  (∀ (t : Nat) (s u : State), s.advance t = u → u.cordOn = true → u.actMaster = true → u.cord.stateTx + 4000 ≤ u.clk →
    exec (.trnstateTimer t) s = .next u.sendState) ∧
  (∀ (t : Nat) (s u : State), s.advance t = u → u.armed = true → u.actMaster = false → u.cord.stateAt + 80000 ≤ u.clk →
    exec (.trnstateTimeout t) s = .next ((u.setCord { u.cord with silent := true }).trnShow)) ∧
  (∀ (t : Nat) (s u : State), s.advance t = u → u.armed = false → exec (.trnstateTimeout t) s = .next u)

/-- The twin link and its unacknowledged frames (R318, R319). -/
def Obligations.TwinLinkRuns : Prop :=
  (∀ (t : Nat) (rtt : BitVec 16) (s u v : State), s.advance t = u → u.twinOn = true →
    (((u.setFld TWN_LINKST_LANES 3).setFld TWN_LINKST_RTT rtt.toNat).setTwin { u.twin with lanesOk := true }) = v →
    v.on TWN_LINKST_UP = false → v.role ≠ roINIT →
    (v.twin.unbroken = true ∨ (v.twin.helloTx = true ∧ v.twin.helloRx = true) →
      exec (.twinLinkChange t true 3#2 rtt) s = .next (((v.setFld TWN_LINKST_UP 1).setFld TWN_STATE_LINK 1).readyShow)) ∧
    (v.twin.unbroken = false → v.twin.helloRx = false → exec (.twinLinkChange t true 3#2 rtt) s = .next v.readyShow)) ∧
  (∀ (t : Nat) (up : Bool) (lanes : BitVec 2) (rtt : BitVec 16) (s u v : State), s.advance t = u → u.twinOn = true →
    up = false ∨ lanes ≠ 3#2 →
    ((((u.setFld TWN_LINKST_LANES lanes.toNat).setFld TWN_LINKST_RTT rtt.toNat).setFld TWN_LINKST_UP 0).setFld TWN_STATE_LINK 0) = v →
    exec (.twinLinkChange t up lanes rtt) s = .next (v.setTwin { v.twin with
      lanesOk := false, unacked := [], unbroken := false, helloTx := false, helloRx := false }).readyShow) ∧
  (∀ s : State, s.twinOn = true → exec .twinFrameDropped s = .next (s.countReg TWN_CRCERR 1)) ∧
  (∀ s : State, s.twinOn = false → exec .twinFrameDropped s = .next s) ∧
  (∀ (t : Nat) (up : Bool) (lanes : BitVec 2) (rtt : BitVec 16) (f : EntryFrame) (ack : BitVec 8) (role : Fin 6) (ready : Bool)
    (reason : BitVec 4) (strap : BitVec 2) (primed armed done : Bool) (digest : BitVec 32) (serial : BitVec 64) (s u : State),
    s.advance t = u → u.twinOn = false →
    exec (.twinLinkChange t up lanes rtt) s = .next u ∧ exec (.helloTimer t done) s = .next u ∧
    exec (.hello t ack role ready reason strap primed armed digest serial) s = .next u ∧
    exec (.entriesSendTimer t) s = .next u ∧ exec (.entriesFrame t f) s = .next u ∧
    (u.twin.unacked = [] → exec (.twinFrameResend t) s = .next u)) ∧
  (∀ (t : Nat) (s u v : State) (f : Unacked), s.advance t = u →
    u.twin.unacked.find? (fun f => decide (f.at_ + 800 ≤ u.clk)) = some f → f.tries < 8 →
    (u.sendFrame lkTWIN f.frame.kind (u.twinFrame f.seq f.frame.kind f.frame.body)).countReg TWN_RESEND 1 = v →
    exec (.twinFrameResend t) s = .next (v.setTwin { v.twin with unacked := v.twin.unacked.map (fun g =>
      if g.seq = f.seq then { g with at_ := v.clk, tries := g.tries + 1 } else g) }).readyShow) ∧
  (∀ (t : Nat) (s u : State) (f : Unacked), s.advance t = u →
    u.twin.unacked.find? (fun f => decide (f.at_ + 800 ≤ u.clk)) = some f → 8 ≤ f.tries →
    exec (.twinFrameResend t) s = .next u.linkDown.readyShow) ∧
  (∀ (t : Nat) (done : Bool) (s u v : State), s.advance t = u → u.twinOn = true → u.awake = true → u.on RST_STAT_DONE = true →
    u.timerOver tmHello 400 = true → (((u.startTimer tmHello).setTwin { u.twin with done := done }).primeStep).readyShow = v →
    v.on TWN_LINKST_UP = true → v.twin.fwd = true →
    exec (.helloTimer t done) s = .next ((v.sendFrame lkTWIN 0x01 (v.twinFrame v.twin.seqOut 0x01 v.helloBody)).setTwin { v.twin with
      helloTx := true })) ∧
  (∀ (t : Nat) (ack : BitVec 8) (role : Fin 6) (ready : Bool) (reason : BitVec 4) (strap : BitVec 2) (primed armed : Bool)
    (digest : BitVec 32) (serial : BitVec 64) (s u v : State), s.advance t = u → u.twinOn = true →
    strap.toNat ≠ u.fld SYS_CAPS_TWIN →
    ((u.setTwin { u.twin with
      unacked := ackUpTo ack.toNat u.twin.unacked, helloAt := some u.clk, helloRx := true
      rstSent := u.twin.rstSent && role.val != roINIT && role.val != roPRIME, fwd := u.twin.fwd && role.val != roINIT
      released := if role.val = roACTIVE then 0 else u.twin.released, pstrap := strap.toNat, pready := ready
      preason := reason.toNat, pprimed := primed, parmed := armed, pserial := serial.toNat }).setFld TWN_STATE_PROLE role).setReg
      TWN_PCFGCRC digest = v → v.role = u.role → v.fld TWN_STATE_PROLE = role → v.fld SYS_CAPS_TWIN = u.fld SYS_CAPS_TWIN →
    (u.role = roSTANDBY → u.on TWN_LINKST_UP = true → role.val = roSTANDBY ∨ role.val = roACTIVE →
      exec (.hello t ack role ready reason strap primed armed digest serial) s = .next v.readyShow) ∧
    (u.role = roSTANDBY → u.on TWN_LINKST_UP = true → v.partnerDrives = false → role.val = roINIT ∨ role.val = roPRIME →
      exec (.hello t ack role ready reason strap primed armed digest serial) s = .next ((v.setTwin { v.twin with take := true }).readyShow)) ∧
    (u.role = roACTIVE → u.on TWN_LINKST_UP = true → role.val ≠ roACTIVE → role.val ≠ roOUT →
      exec (.hello t ack role ready reason strap primed armed digest serial) s = .next v.readyShow) ∧
    (u.role = roACTIVE → u.on TWN_LINKST_UP = true → role.val = roACTIVE → v.on TWN_STATE_STRAPDUP = false →
      exec (.hello t ack role ready reason strap primed armed digest serial) s =
        .next (if v.preferred then v else v.standBy).readyShow) ∧
    (u.role = roPRIME → u.on TWN_LINKST_UP = true → role.val = roACTIVE →
      exec (.hello t ack role ready reason strap primed armed digest serial) s = .next v.primeStep.readyShow) ∧
    (u.role = roINIT → u.on TWN_LINKST_UP = false → u.twin.lanesOk = false →
      exec (.hello t ack role ready reason strap primed armed digest serial) s = .next v.readyShow) ∧
    (u.role = roINIT → u.on TWN_LINKST_UP = true → role.val = roACTIVE → (v.setFld TWN_STATE_ROLE roPRIME).role = roPRIME →
      exec (.hello t ack role ready reason strap primed armed digest serial) s = .next (v.setFld TWN_STATE_ROLE roPRIME).primeStep.readyShow)) ∧
  (∀ s : State, s.role = roPRIME → s.partnerGone = false → s.on TWN_STATE_STRAPDUP = false → s.fld TWN_STATE_PROLE = roACTIVE →
    s.primeStep = s.standBy) ∧
  (∀ (t : Nat) (s u v : State) (e : TEntry) (l : List TEntry), s.advance t = u → u.twinOn = true → u.twin.out = e :: l →
    (20 ≤ u.twin.out.length ∨ e.at_ + 400 ≤ u.clk) → u.setTwin { u.twin with out := u.twin.out.drop 20 } = v →
    v.on TWN_LINKST_UP = true →
    exec (.entriesSendTimer t) s = .next (v.sendFrame lkTWIN 0x02 (v.twinFrame v.twin.seqOut 0x02 ((u.twin.out.take 20).flatMap (fun e =>
      [e.kind, e.port + 64 * e.cls, e.line % 2 ^ 32, e.val.toNat, e.flags, 0]))))) ∧
  (∀ (t : Nat) (s u : State), s.advance t = u → u.twin.out = [] → exec (.entriesSendTimer t) s = .next u) ∧
  (∀ (t : Nat) (ack : BitVec 8) (es : List (BitVec 96)) (s u : State), s.advance t = u → u.twinOn = true → u.on TWN_LINKST_UP = true →
    exec (.entriesFrame t ⟨ack, es⟩) s = .next (es.foldl (fun s e => s.entryIn e) (u.setTwin { u.twin with
      unacked := ackUpTo ack.toNat u.twin.unacked })).readyShow) ∧
  (∀ (t : Nat) (f : EntryFrame) (s u : State), s.advance t = u → u.on TWN_LINKST_UP = false →
    exec (.entriesFrame t f) s = .next u) ∧
  (∀ (t : Nat) (ack : BitVec 8) (role : Fin 6) (ready : Bool) (reason : BitVec 4) (strap : BitVec 2) (primed armed : Bool)
    (digest : BitVec 32) (serial : BitVec 64) (s u : State), s.canonical → s.advance t = u → u.twinOn = true → u.role = roSTANDBY →
    u.on TWN_LINKST_UP = true → role ≠ 0 → role ≠ 1 → role ≠ 2 → role ≠ 5 → strap.toNat ≠ u.fld SYS_CAPS_TWIN →
    Runs (.hello t ack role ready reason strap primed armed digest serial) s (fun w => w.fld TWN_STATE_PROLE = role ∧
      w.reg TWN_PCFGCRC = digest ∧ w.twin.helloAt = some u.clk ∧ w.twin.pready = ready ∧ w.role = roSTANDBY))

/-- What a SIG entry does (R319, R331, R332). -/
def Obligations.LineEntriesAreCompared : Prop :=
  (∀ near l : Nat, near ≤ l + 2 ^ 31 → l < near + 2 ^ 31 → extendLine near (l % 2 ^ 32) = l) ∧
  (∀ (s : State) (e : BitVec 96), extendLine (s.head (entPort6 e)).next (entLine e) + 64 < (s.head (entPort6 e)).next →
    s.entryIn e = s) ∧
  (∀ (s : State) (e : BitVec 96) (p l : Nat), entPort6 e = p → extendLine (s.head p).next (entLine e) = l →
    (s.head p).next ≤ l + 64 → entKind e = 1 →
    (entAsh e = false → s.entryIn e = (s.modTline p l (fun x => { x with psig := some (entVal e) })).compareSig p l) ∧
    (entAsh e = true → s.entryIn e = ((s.modTline p l (fun x => { x with pash := true })).modTline p l
      (fun x => { x with psig := some (entVal e) })).compareSig p l)) ∧
  (∀ (s v : State) (p l : Nat) (a b : Word), (s.tline p l).sig = some a → (s.tline p l).psig = some b → (s.tline p l).sigs = false →
    a ≠ b → s.modTline p l (fun x => { x with sigs := true }) = v → v.tline p l = { s.tline p l with sigs := true } →
    ((s.tline p l).kind = none → s.compareSig p l = if (s.tline p l).ash || (s.tline p l).pash
      then (v.modTline p l (fun x => { x with kind := some 0 })).noteDiv p l 0
      else ((v.modTline p l (fun x => { x with kind := some 1 })).noteDiv p l 1).emberDiv) ∧
    ((s.tline p l).kind = some 0 → s.compareSig p l = v)) ∧
  (∀ (s : State) (p l k : Nat), s.canonical → (s.noteDiv p l k).reg TWN_GOODRUN = 0#32 ∧ (s.noteDiv p l k).on TWN_STATE_DIV = true ∧
    ((s.noteDiv p l k).reg TWN_DIVCNT).toNat = min ((s.reg TWN_DIVCNT).toNat + 1) (2 ^ 32 - 1)) ∧
  (∀ (s : State) (p l : Nat) (a : Word), (s.tline p l).sig = some a → (s.tline p l).psig = some a → (s.tline p l).sigs = false →
    (s.compareSig p l).reg TWN_DIVCNT = s.reg TWN_DIVCNT ∧ ((s.compareSig p l).tline p l).sigs = true) ∧
  (∀ (s : State) (p l : Nat), (s.tline p l).sigs = true → s.compareSig p l = s)

/-- PROPOSE, AGREE, their timeout and RETURN (R326, R327, R340). -/
def Obligations.AgreementsRun : Prop :=
  (∀ (t : Nat) (seq : LinkHdr) (purpose : Fin 6) (mask : BitVec 64) (prop : BitVec 40) (arg : BitVec 32) (s u v : State),
    s.advance t = u → u.twinOn = true → u.on TWN_LINKST_UP = true → u.twin.seqIn ≠ seq.seq.toNat →
    u.setTwin { u.twin with unacked := ackUpTo seq.ack.toNat u.twin.unacked, seqIn := seq.seq.toNat } = v →
    v.twin.agrees.find? (fun g => !g.done && g.purpose == purpose.val && (g.mask &&& mask.toNat) != 0) = none →
    exec (.propose t seq purpose mask prop arg) s = .next (((v.twinSend 0x11 [purpose, max (v.proposal mask.toNat) prop.toNat]).agreed
      purpose (max (v.proposal mask.toNat) prop.toNat) arg.toNat).readyShow)) ∧
  (∀ (t : Nat) (seq : LinkHdr) (purpose : Fin 6) (mask : BitVec 64) (prop : BitVec 40) (arg : BitVec 32) (s u v w : State) (g : Agreement),
    s.advance t = u → u.twinOn = true → u.on TWN_LINKST_UP = true → u.twin.seqIn ≠ seq.seq.toNat →
    u.setTwin { u.twin with unacked := ackUpTo seq.ack.toNat u.twin.unacked, seqIn := seq.seq.toNat } = v →
    v.twin.agrees.find? (fun g => !g.done && g.purpose == purpose.val && (g.mask &&& mask.toNat) != 0) = some g →
    ((v.setTwin { v.twin with agrees := replaceFirst (fun x => x == g) (fun x => { x with done := true }) v.twin.agrees }).twinSend 0x11
      [purpose, max g.prop prop.toNat]).agreed purpose (max g.prop prop.toNat) g.arg = w →
    exec (.propose t seq purpose mask prop arg) s =
      .next ((if arg.toNat = g.arg then w else w.agreed purpose (max g.prop prop.toNat) arg.toNat).readyShow)) ∧
  (∀ (t : Nat) (seq : LinkHdr) (purpose : Fin 6) (a : BitVec 40) (s u v w : State) (g : Agreement),
    s.advance t = u → u.twinOn = true → u.on TWN_LINKST_UP = true → u.twin.seqIn ≠ seq.seq.toNat →
    u.setTwin { u.twin with unacked := ackUpTo seq.ack.toNat u.twin.unacked, seqIn := seq.seq.toNat } = v → v.twin.agrees.find? (fun g => g.purpose == purpose.val) = some g →
    v.setTwin { v.twin with agrees := v.twin.agrees.erase g } = w →
    exec (.agree t seq purpose a) s = .next ((if g.done then w else w.agreed purpose a.toNat g.arg).readyShow)) ∧
  (∀ (t : Nat) (seq : LinkHdr) (purpose : Fin 6) (mask : BitVec 64) (prop a : BitVec 40) (arg : BitVec 32) (s u : State),
    s.advance t = u →
    (u.twinOn = false ∨ u.on TWN_LINKST_UP = false →
      exec (.propose t seq purpose mask prop arg) s = .next u ∧ exec (.agree t seq purpose a) s = .next u) ∧
    (u.twinOn = true → u.on TWN_LINKST_UP = true → u.twin.seqIn = seq.seq.toNat →
      exec (.propose t seq purpose mask prop arg) s = .next (u.setTwin { u.twin with unacked := ackUpTo seq.ack.toNat u.twin.unacked }) ∧
      exec (.agree t seq purpose a) s = .next (u.setTwin { u.twin with unacked := ackUpTo seq.ack.toNat u.twin.unacked }))) ∧
  (∀ (l : List Unacked) (a : Nat), (l.any (fun u => u.seq == a) = false → ackUpTo a l = l) ∧
    (∀ (x y : List Unacked) (f : Unacked), l = x ++ f :: y → f.seq = a → (∀ g ∈ x, g.seq ≠ a) → ackUpTo a l = y)) ∧
  (∀ (s : State) (m : Nat), s.proposal m = ((maskPorts m).map (fun p => (s.head p).screen)).foldl max 0 + s.polAGLEAD) ∧
  (∀ (t : Nat) (s u w : State) (g : Agreement), s.advance t = u →
    u.twin.agrees.find? (fun g => decide (g.at_ + 8000 ≤ u.clk)) = some g →
    u.setTwin { u.twin with agrees := u.twin.agrees.erase g } = w →
    exec (.agreeTimeout t) s = .next ((if g.done then w else w.agreed g.purpose g.prop g.arg).linkDown.readyShow)) ∧
  (∀ (t : Nat) (s u : State), s.advance t = u → u.twin.agrees = [] → exec (.agreeTimeout t) s = .next u) ∧
  (∀ (t : Nat) (s u : State), s.advance t = u → u.returnDue = true →
    exec (.twinReturn t) s = .next (u.propose puRETURN u.liveMask 0)) ∧
  (∀ (t : Nat) (s u : State), s.advance t = u → u.returnDue = false → exec (.twinReturn t) s = .next u) ∧
  (∀ (s : State) (mask arg purpose : Nat), s.twin.agrees = [] → s.twinOn = true → s.on TWN_LINKST_UP = true →
    ∃ q, (s.propose purpose mask arg).twin.agrees = [⟨purpose, mask, s.proposal mask, arg, s.clk, false⟩] ∧
      (s.propose purpose mask arg).sent = s.sent ++ [⟨lkTWIN, 0x10, s.twinFrame q 0x10 [purpose, mask, s.proposal mask, arg]⟩]) ∧
  (∀ (t : Nat) (seq : LinkHdr) (purpose : Fin 6) (mask : BitVec 64) (prop : BitVec 40) (arg : BitVec 32) (s u v : State) (a : Nat),
    s.canonical → s.advance t = u → u.twinOn = true → u.on TWN_LINKST_UP = true → u.twin.seqIn ≠ seq.seq.toNat →
    u.setTwin { u.twin with unacked := ackUpTo seq.ack.toNat u.twin.unacked, seqIn := seq.seq.toNat } = v →
    v.twin.agrees.find? (fun g => !g.done && g.purpose == purpose.val && (g.mask &&& mask.toNat) != 0) = none →
    max (v.proposal mask.toNat) prop.toNat = a →
    (purpose.val = puEMBER → Runs (.propose t seq purpose mask prop arg) s (fun w => w.kiln.burst = u.kiln.burst ++ [a] ∧
      w.reg TWN_AGREE = BitVec.ofNat 32 a)) ∧
    (purpose.val = puRETURN → Runs (.propose t seq purpose mask prop arg) s (fun w => w.twin.ret = some a ∧
      w.reg TWN_AGREE = BitVec.ofNat 32 a))) ∧
  (∀ (t : Nat) (seq : LinkHdr) (purpose : Fin 6) (a : BitVec 40) (s u : State) (g : Agreement), s.canonical →
    s.advance t = u → u.twinOn = true → u.on TWN_LINKST_UP = true → u.twin.seqIn ≠ seq.seq.toNat →
    u.twin.agrees.find? (fun g => g.purpose == purpose.val) = some g → g.done = false →
    (purpose.val = puEMBER → Runs (.agree t seq purpose a) s (fun w => w.kiln.burst = u.kiln.burst ++ [a.toNat] ∧
      w.twin.agrees = u.twin.agrees.erase g ∧ w.reg TWN_AGREE = BitVec.ofNat 32 a.toNat)) ∧
    (purpose.val = puRETURN → Runs (.agree t seq purpose a) s (fun w => w.twin.ret = some a.toNat ∧
      w.twin.agrees = u.twin.agrees.erase g ∧ w.reg TWN_AGREE = BitVec.ofNat 32 a.toNat))) ∧
  (∀ (t : Nat) (s u : State) (g : Agreement), s.canonical → s.advance t = u →
    u.twin.agrees.find? (fun g => decide (g.at_ + 8000 ≤ u.clk)) = some g → g.done = false → g.purpose = puEMBER →
    Runs (.agreeTimeout t) s (fun w => w.kiln.burst = u.kiln.burst ++ [g.prop] ∧ w.twin.agrees = u.twin.agrees.erase g ∧
      w.on TWN_LINKST_UP = false))

/-- EMBRES, THERM, HEADREC, RELEASED and RSTREQ. -/
def Obligations.TwinMessagesRun : Prop :=
  (∀ (t : Nat) (seq : LinkHdr) (line : BitVec 40) (cmp fail : BitVec 16) (s u v : State), s.advance t = u → u.twinOn = true →
    u.on TWN_LINKST_UP = true → u.twin.seqIn ≠ seq.seq.toNat → u.setTwin { u.twin with unacked := ackUpTo seq.ack.toNat u.twin.unacked, seqIn := seq.seq.toNat } = v →
    embTake line.toNat v.twin.emb = none →
    exec (.embres t seq line cmp fail) s = .next ((v.setTwin { v.twin with
      pemb := embAdd v.twin.pemb ⟨line.toNat, cmp.toNat, fail.toNat, false⟩ }).readyShow)) ∧
  (∀ (t : Nat) (seq : LinkHdr) (line : BitVec 40) (cmp fail : BitVec 16) (s u v : State) (x : EmbRes) (l : List EmbRes), s.advance t = u →
    u.twinOn = true → u.on TWN_LINKST_UP = true → u.twin.seqIn ≠ seq.seq.toNat → u.setTwin { u.twin with unacked := ackUpTo seq.ack.toNat u.twin.unacked, seqIn := seq.seq.toNat } = v →
    embTake line.toNat v.twin.emb = some (x, l) →
    exec (.embres t seq line cmp fail) s = .next (((v.setTwin { v.twin with
      emb := l }).judgeEmber x ⟨line.toNat, cmp.toNat, fail.toNat, false⟩).readyShow)) ∧
  (∀ (s : State) (a b : EmbRes) (v : Nat),
    (List.range 16).find? (fun v => bitAt ((a.fail ||| b.fail) &&& (a.cmp &&& b.cmp)) v) = some v →
    (bitAt a.fail v = true → bitAt b.fail v = true → s.judgeEmber a b = s.verdict 3) ∧
    (bitAt a.fail v = true → bitAt b.fail v = false → s.judgeEmber a b = s.verdict (if s.role = roACTIVE then 1 else 2)) ∧
    (bitAt a.fail v = false → s.judgeEmber a b = s.verdict (if s.role = roACTIVE then 2 else 1))) ∧
  (∀ (s : State) (a b : EmbRes), (∀ v, v < 16 → bitAt ((a.fail ||| b.fail) &&& (a.cmp &&& b.cmp)) v = false) →
    s.judgeEmber a b = if a.burst = true ∧ s.twin.divOpen = true then s.verdict 4 else s) ∧
  (∀ (t : Nat) (seq : LinkHdr) (p : Fin 64) (b : Bool) (s u v : State), s.advance t = u → u.twinOn = true →
    u.on TWN_LINKST_UP = true → u.twin.seqIn ≠ seq.seq.toNat → u.setTwin { u.twin with unacked := ackUpTo seq.ack.toNat u.twin.unacked, seqIn := seq.seq.toNat } = v →
    exec (.therm t seq p b) s = .next ((if v.role = roSTANDBY ∧ (v.head p).hot ≠ b then ((v.showOver p b).causeCheck).trnShow else v).readyShow)) ∧
  (∀ (t : Nat) (seq : LinkHdr) (p : Fin 64) (off : BitVec 13) (data : BitVec 1024) (s u v : State), s.advance t = u → u.twinOn = true →
    u.on TWN_LINKST_UP = true → u.twin.seqIn ≠ seq.seq.toNat → u.setTwin { u.twin with unacked := ackUpTo seq.ack.toNat u.twin.unacked, seqIn := seq.seq.toNat } = v →
    exec (.headrec t seq p off data) s = .next ((if v.on (HPT_BUSST_MASTER (p / 8)) = true then v else
      ((v.putHeadBytes p off.toNat ((leBytes 128 data.toNat).map BitVec.toNat)).headFill p).headSet p).readyShow)) ∧
  (∀ (t : Nat) (seq : LinkHdr) (mask : BitVec 64) (s u v : State), s.advance t = u → u.twinOn = true →
    u.on TWN_LINKST_UP = true → u.twin.seqIn ≠ seq.seq.toNat → u.setTwin { u.twin with unacked := ackUpTo seq.ack.toNat u.twin.unacked, seqIn := seq.seq.toNat } = v →
    exec (.released t seq mask) s = .next (((v.setTwin { v.twin with
      released := v.twin.released ||| mask.toNat, wait_ := v.twin.wait_ || (v.role == roSTANDBY && !v.twin.swap) }).takeCheck).readyShow)) ∧
  (∀ (t : Nat) (seq : LinkHdr) (s u : State), s.advance t = u → u.twinOn = true → u.on TWN_LINKST_UP = true → u.twin.seqIn ≠ seq.seq.toNat →
    exec (.rstreq t seq) s = .next (u.resetBy 6 rcSYSTEM)) ∧
  (∀ (t : Nat) (seq : LinkHdr) (line : BitVec 40) (cmp fail : BitVec 16) (p : Fin 64) (b : Bool) (off : BitVec 13) (data : BitVec 1024)
    (mask : BitVec 64) (s u v : State), s.advance t = u →
    (u.twinOn = false ∨ u.on TWN_LINKST_UP = false →
      exec (.embres t seq line cmp fail) s = .next u ∧ exec (.therm t seq p b) s = .next u ∧
      exec (.headrec t seq p off data) s = .next u ∧ exec (.released t seq mask) s = .next u ∧ exec (.rstreq t seq) s = .next u) ∧
    (u.twinOn = true → u.on TWN_LINKST_UP = true → u.twin.seqIn = seq.seq.toNat →
      u.setTwin { u.twin with unacked := ackUpTo seq.ack.toNat u.twin.unacked } = v →
      exec (.embres t seq line cmp fail) s = .next v ∧ exec (.therm t seq p b) s = .next v ∧
      exec (.headrec t seq p off data) s = .next v ∧ exec (.released t seq mask) s = .next v ∧ exec (.rstreq t seq) s = .next u)) ∧
  (∀ (t : Nat) (seq : LinkHdr) (mask : BitVec 64) (s u : State), s.canonical → s.advance t = u → u.twinOn = true →
    u.on TWN_LINKST_UP = true → u.twin.seqIn ≠ seq.seq.toNat → u.role ≠ roSTANDBY →
    Runs (.released t seq mask) s (fun w => w.twin.released = u.twin.released ||| mask.toNat ∧ w.twin.seqIn = seq.seq.toNat)) ∧
  (∀ (t : Nat) (seq : LinkHdr) (p : Fin 64) (off : BitVec 13) (data : BitVec 1024) (s u : State), s.canonical → s.advance t = u →
    u.twinOn = true → u.on TWN_LINKST_UP = true → u.twin.seqIn ≠ seq.seq.toNat → u.on (HPT_BUSST_MASTER (p / 8)) = false →
    Runs (.headrec t seq p off data) s (fun w => w.on (HPT_HSTAT_PRESENT p) = true ∧
      w.reg (HPT_HTYPE p) = BitVec.ofNat 32 (leNat (w.headBytes p 0x10 4)))) ∧
  (∀ (t : Nat) (seq : LinkHdr) (p : Fin 64) (b : Bool) (s u : State), s.canonical → s.advance t = u → u.twinOn = true →
    u.on TWN_LINKST_UP = true → u.twin.seqIn ≠ seq.seq.toNat → u.role ≠ roSTANDBY →
    Runs (.therm t seq p b) s (fun w => w.twin.seqIn = seq.seq.toNat ∧ w.heads = u.heads))

/-- Heartbeat, CONFIRM, TAKEOVER and the digest. -/
def Obligations.TwinLifeRuns : Prop :=
  (∀ (t : Nat) (s u v : State) (e d : Nat) (r : List Nat), s.advance t = u → u.twinStrap = true → u.awake = true → u.twin.edge = some e →
    u.twin.ivals = d :: r → u.setTwin { u.twin with edge := some u.clk, ivals := [u.clk - e, d] } = v →
    exec (.twinAliveEdge t) s = .next (v.setFld TWN_STATE_PALIVE (if u.clk - e < 200 ∧ d < 200 then 2 else 1)).takeCheck) ∧
  (∀ (t : Nat) (s u v : State), s.advance t = u → u.twinStrap = true → u.awake = true → u.twin.edge = none →
    u.setTwin { u.twin with edge := some u.clk, ivals := [] } = v →
    exec (.twinAliveEdge t) s = .next (v.setFld TWN_STATE_PALIVE 1).takeCheck) ∧
  (∀ (t : Nat) (s u : State) (e : Nat), s.advance t = u → u.twin.edge = some e → u.awake = true → u.fld TWN_STATE_PALIVE ≠ 0 →
    exec (.paliveDead t) s = .next (if e + 400 * u.fld TWN_HB_HBTO ≤ u.clk then ((u.setFld TWN_STATE_PALIVE 0).setTwin
      { u.twin with deadAt := u.clk, ivals := [], edge := none }).takeCheck else u)) ∧
  (∀ (t : Nat) (s u : State), s.advance t = u → u.twinStrap = true → u.awake = true → u.on RST_STAT_DONE = true →
    u.twin.aliveAt + u.aliveHalf ≤ u.clk →
    exec (.aliveToggle t) s = .next (u.setTwin { u.twin with level := !u.twin.level, aliveAt := u.clk })) ∧
  (∀ (t : Nat) (s u : State), s.advance t = u → (u.twinStrap = false ∨ u.awake = false ∨ u.on RST_STAT_DONE = false ∨ u.clk < u.twin.aliveAt + u.aliveHalf) →
    exec (.aliveToggle t) s = .next u) ∧
  (∀ s : State, s.aliveHalf = if (List.range 64).any (fun h => s.fld (HPT_CTL_MODE h) % 2 == 1) then 100 else 400) ∧
  (∀ (t : Nat) (s u : State), s.advance t = u → u.twinOn = true → u.partnerGone = true → u.role = roSTANDBY →
    exec (.confirmTimeout t) s = .next (u.setTwin { u.twin with take := true }).readyShow) ∧
  (∀ (t : Nat) (s u : State), s.advance t = u → u.twinOn = true → u.partnerGone = true → u.role = roINIT →
    exec (.confirmTimeout t) s = .next ((u.setFld TWN_STATE_ROLE roPRIME).primeStep).readyShow) ∧
  (∀ (t : Nat) (s u : State), s.advance t = u → u.partnerGone = false → exec (.confirmTimeout t) s = .next u.readyShow) ∧
  (∀ (t : Nat) (s u v w : State), s.advance t = u → u.twinOn = true → u.role = roSTANDBY → u.twin.take = true → u.twin.failed = false → u.activate = v →
    v.armed = false → v.splice.active = false → (v.countReg TWN_SWCNT 1).setOn TWN_STATE_SWITCHED = w → w.armed = false →
    exec (.takeover t) s = .next w.twinCauseOver.readyShow) ∧
  (∀ (t : Nat) (s u : State), s.advance t = u → (u.twinOn = false ∨ (u.role ≠ roSTANDBY ∧ u.role ≠ roPRIME) ∨ u.twin.take = false) → exec (.takeover t) s = .next u) ∧
  (∀ (t : Nat) (s u v w : State), s.advance t = u → u.twinOn = true → u.role = roSTANDBY → u.twin.take = true → u.twin.failed = false →
    u.activate = v → v.armed = true → v.splice.active = false → ((v.raiseCause 5).takeCauses.spliceRequest.twinResume) = w →
    w.splice.active = false →
    exec (.takeover t) s = .next ((if ((w.countReg TWN_SWCNT 1).setOn TWN_STATE_SWITCHED).actMaster &&
        ((w.countReg TWN_SWCNT 1).setOn TWN_STATE_SWITCHED).armed then ((w.countReg TWN_SWCNT 1).setOn TWN_STATE_SWITCHED).sendState
      else (w.countReg TWN_SWCNT 1).setOn TWN_STATE_SWITCHED).twinCauseOver).readyShow) ∧
  (∀ (t : Nat) (s u v : State), s.advance t = u → u.twinOn = true → u.armed = true → u.twin.digest = false →
    u.setReg TWN_CFGCRC (crc32 u.digestBytes) = v →
    exec (.configDigestDone t) s = .next ((v.setTwin { u.twin with digest := true }).readyShow)) ∧
  (∀ (t : Nat) (s u : State), s.advance t = u → (u.twinOn = false ∨ u.armed = false ∨ u.twin.digest = true) →
    exec (.configDigestDone t) s = .next u) ∧
  (∀ (t : Nat) (s u : State), s.canonical → s.advance t = u → u.twinOn = true → u.role = roSTANDBY → u.twin.take = true → u.twin.failed = false →
    u.armed = false → u.splice.active = false →
    Runs (.takeover t) s (fun w => w.role = roACTIVE ∧ w.on TWN_STATE_SWITCHED = true ∧ w.twin.take = false ∧ w.twin.mast = true)) ∧
  (∀ (t : Nat) (s u : State), s.canonical → s.advance t = u → u.twinOn = true → u.armed = true → u.twin.digest = false →
    Runs (.configDigestDone t) s (fun w => w.reg TWN_CFGCRC = crc32 u.digestBytes ∧ w.twin.digest = true))

/-- JOIN and TWN_OVERRIDE (R339, R342). -/
def Obligations.JoinAndOverridesRun : Prop :=
  (∀ (t : Nat) (s u : State), s.advance t = u → u.barOk 14 = true → u.armed = false → u.twinOn = true → u.role = roSTANDBY →
    u.fld TWN_STATE_PROLE = roACTIVE → u.twin.parmed = true → u.on TWN_LINKST_UP = true →
    exec (.join t) s = .next ((u.twinSend 0x17 []).setTwin { (u.twinSend 0x17 []).twin with join := true })) ∧
  (∀ (t : Nat) (s u : State), s.advance t = u → u.barOk 14 = true →
    (u.armed = true ∨ u.twinOn = false ∨ u.role ≠ roSTANDBY ∨ u.fld TWN_STATE_PROLE ≠ roACTIVE ∨ u.twin.parmed = false ∨ u.on TWN_LINKST_UP = false) →
    exec (.join t) s = .next (u.refuse erJOINFAIL TWN_CTL)) ∧
  (∀ (t : Nat) (seq : LinkHdr) (seed jobid cons : BitVec 32) (ws : List (BitVec 96)) (s u v : State), s.advance t = u →
    u.twinOn = true → u.on TWN_LINKST_UP = true → u.twin.seqIn ≠ seq.seq.toNat → u.setTwin { u.twin with unacked := ackUpTo seq.ack.toNat u.twin.unacked, seqIn := seq.seq.toNat } = v →
    v.role = roACTIVE → v.armed = true →
    exec (.joinFrame t seq seed jobid cons ws) s =
      .next (((v.setTwin { v.twin with digest := false }).joinStates.foldl (fun s b => s.twinSend 0x17 b)
        (v.setTwin { v.twin with digest := false })).readyShow)) ∧
  (∀ (t : Nat) (seq : LinkHdr) (seed jobid cons : BitVec 32) (ws : List (BitVec 96)) (s u v w x : State), s.advance t = u →
    u.twinOn = true → u.on TWN_LINKST_UP = true → u.twin.seqIn ≠ seq.seq.toNat → u.setTwin { u.twin with unacked := ackUpTo seq.ack.toNat u.twin.unacked, seqIn := seq.seq.toNat } = v →
    v.armed = false → v.twin.join = true → v.setTwin { v.twin with join := false } = w → w.armCheck = none →
    ((w.armJob seed.toNat).setReg CRD_JOBID jobid).setReg HIF_CMDCONS cons = x →
    exec (.joinFrame t seq seed jobid cons ws) s = .next ((ws.foldl (fun s w => s.joinAt w)
      (x.setTwin { x.twin with join := decide (ws.length = 20) })).readyShow)) ∧
  (∀ (t : Nat) (seq : LinkHdr) (seed jobid cons : BitVec 32) (ws : List (BitVec 96)) (s u v w x : State) (k : Nat), s.advance t = u →
    u.twinOn = true → u.on TWN_LINKST_UP = true → u.twin.seqIn ≠ seq.seq.toNat → u.setTwin { u.twin with unacked := ackUpTo seq.ack.toNat u.twin.unacked, seqIn := seq.seq.toNat } = v →
    v.armed = false → v.twin.join = true → v.setTwin { v.twin with join := false } = w → w.armCheck = some (k, x) →
    exec (.joinFrame t seq seed jobid cons ws) s = .next ((x.refuse erJOINFAIL TWN_CTL).readyShow)) ∧
  (∀ (t : Nat) (s u : State), s.advance t = u → u.barOk 14 = true → u.authOk 4 0 = false →
    exec (.overrideActive t) s = .next (u.refuse erPROTECT TWN_OVERRIDE) ∧
    exec (.overrideStandby t) s = .next (u.refuse erPROTECT TWN_OVERRIDE) ∧
    exec (.overrideOut t) s = .next (u.refuse erPROTECT TWN_OVERRIDE)) ∧
  (∀ (t : Nat) (s u : State), s.advance t = u → u.barOk 14 = true → u.authOk 4 0 = true → u.partnerDrives = true →
    exec (.overrideActive t) s = .next (u.refuse erNOPART TWN_OVERRIDE)) ∧
  (∀ (t : Nat) (s u v : State), s.advance t = u → u.barOk 14 = true → u.authOk 4 0 = true → u.partnerDrives = false → u.authUse = v →
    v.twinOn = true → v.role = roSTANDBY → exec (.overrideActive t) s = .next (v.setTwin { v.twin with take := true }).readyShow) ∧
  (∀ (t : Nat) (s u v : State), s.advance t = u → u.barOk 14 = true → u.authOk 4 0 = true → u.role = roACTIVE →
    u.twin.pready = true → u.authUse = v → v.twinOn = true → v.role = roACTIVE → v.twin.ret = none →
    exec (.overrideStandby t) s = .next (v.propose puRETURN v.liveMask 0).readyShow) ∧
  (∀ (t : Nat) (s u : State), s.advance t = u → u.barOk 14 = true → u.authOk 4 0 = true → u.role = roACTIVE →
    u.twin.pready = false → exec (.overrideStandby t) s = .next (u.refuse erNOPART TWN_OVERRIDE)) ∧
  (∀ (t : Nat) (s u v : State), s.advance t = u → u.barOk 14 = true → u.authOk 4 0 = true → u.authUse = v → v.twinOn = true →
    exec (.overrideOut t) s = .next v.goOut.readyShow) ∧
  (∀ (t : Nat) (seq : LinkHdr) (seed jobid cons : BitVec 32) (s u v w : State), s.canonical → s.advance t = u →
    u.twinOn = true → u.on TWN_LINKST_UP = true → u.twin.seqIn ≠ seq.seq.toNat → u.setTwin { u.twin with unacked := ackUpTo seq.ack.toNat u.twin.unacked, seqIn := seq.seq.toNat } = v →
    v.armed = false → v.twin.join = true → v.setTwin { v.twin with join := false } = w → w.armCheck = none →
    Runs (.joinFrame t seq seed jobid cons []) s (fun x => x.reg CRD_JOBID = jobid ∧ x.reg HIF_CMDCONS = cons ∧ x.armed = true ∧
      x.twin.join = false)) ∧
  (∀ (t : Nat) (s u v : State), s.canonical → s.advance t = u → u.barOk 14 = true → u.authOk 4 0 = true → u.partnerDrives = false →
    u.authUse = v → v.twinOn = true → v.role = roPRIME →
    Runs (.overrideActive t) s (fun w => w.twin.take = true ∧ w.twin = { v.twin with take := true, input := w.twin.input }))

/-- Slewing and the other trim commands. -/
def Obligations.TrimChannelsSlewOneCode : Prop :=
  (∀ (t : Nat) (n : Fin 68) (s u : State), s.canonical → s.advance t = u → u.fld PWR_STAT_STATE = 0 →
    u.fld (TRM_OUT_OUT n) ≠ u.fld (TRM_OUT_TARGET n) →
    u.timerOver (tmTrim n) (400 * slewUs (u.trimSlewCode n)) = true →
    Runs (.trimSlewStep t n) s (fun v => v.fld (TRM_OUT_TARGET n) = u.fld (TRM_OUT_TARGET n) ∧
      v.fld (TRM_OUT_OUT n) = if u.fld (TRM_OUT_OUT n) < u.fld (TRM_OUT_TARGET n) then u.fld (TRM_OUT_OUT n) + 1
        else u.fld (TRM_OUT_OUT n) - 1)) ∧
  (∀ (t : Nat) (n : Fin 68) (s u : State), s.advance t = u → (u.fld PWR_STAT_STATE ≠ 0 ∨ u.fld (TRM_OUT_OUT n) = u.fld (TRM_OUT_TARGET n) ∨
    u.timerOver (tmTrim n) (400 * slewUs (u.trimSlewCode n)) = false) → exec (.trimSlewStep t n) s = .next u) ∧
  (slewUs 1 = 1 ∧ slewUs 10 = 512 ∧ slewUs 11 = 1000 ∧ slewUs 15 = 16000) ∧
  (∀ (j : Fin 3) (v : BitVec 32) (s u : State), s.barOk 15 = true → s.setReg (TRM_CEIL j) (v &&& 0x3FFF#32) = u → u.trimCeil ≤ s.trimCeil →
    exec (.trmCeilWrite j v) s =
      .next ((u.tripCheck tripBitCeil (u.reg (TRM_CEIL 0)) (u.reg (TRM_CEIL 1)) (u.reg (TRM_CEIL 2))).retargetAll)) ∧
  (∀ (j : Fin 3) (v : BitVec 32) (s u w : State), s.barOk 15 = true → s.setReg (TRM_CEIL j) (v &&& 0x3FFF#32) = u → s.trimCeil < u.trimCeil →
    s.authOk 5 0 = true → u.authUse = w →
    exec (.trmCeilWrite j v) s =
      .next ((w.tripCheck tripBitCeil (w.reg (TRM_CEIL 0)) (w.reg (TRM_CEIL 1)) (w.reg (TRM_CEIL 2))).retargetAll)) ∧
  (∀ (j : Fin 3) (v : BitVec 32) (s u : State), s.barOk 15 = true → s.setReg (TRM_CEIL j) (v &&& 0x3FFF#32) = u → s.trimCeil < u.trimCeil →
    s.authOk 5 0 = false → exec (.trmCeilWrite j v) s = .next (s.refuse erPROTECT (TRM_CEIL j))) ∧
  (∀ (k : Fin 3) (v : BitVec 32) (s : State), s.barOk 15 = true → s.fld (TRM_AUX_OWNER k) = 2 →
    exec (.trmAuxWrite k v false) s = .next (s.refuse erOWNED (TRM_AUX k))) ∧
  (∀ (k : Fin 3) (v : BitVec 32) (s : State), s.barOk 15 = true → s.fld (TRM_AUX_OWNER k) = 1 → v.getLsbD 20 = false →
    exec (.trmAuxWrite k v false) s = .next ((((s.setFld (TRM_AUX_CLAIM k) 0).setFld (TRM_AUX_OWNER k) 0).setWant (65 + k) 0).setDriven
      (65 + k) (!s.twinStrap))) ∧
  (∀ (k : Fin 3) (v : BitVec 32) (s : State), s.barOk 15 = true → s.fld (TRM_AUX_OWNER k) = 0 → v.getLsbD 20 = true →
    bitsOf v.toNat 16 4 ≠ 0 →
    exec (.trmAuxWrite k v false) s = .next ((((((s.setFld (TRM_AUX_CODE k) (bitsOf v.toNat 0 14)).setFld (TRM_AUX_SLEW k)
      (bitsOf v.toNat 16 4)).setOn (TRM_AUX_CLAIM k)).setFld (TRM_AUX_OWNER k) 1).setWant (65 + k) (bitsOf v.toNat 0 14 : Nat)).setDriven
      (65 + k) true)) ∧
  (∀ (t : Nat) (v : BitVec 16) (s u w : State), s.advance t = u → u.on TRM_CTL_MONEN = true → u.awake = true → u.on RST_STAT_DONE = true →
    ({ u with trims := { u.trims with next := (u.trims.next + 1) % 71 } } : State) = w →
    exec (.monitorConversion t v) s = .next (if u.trims.next < 68 then w.measure u.trims.next v.toNat
      else w.setFld (TRM_MONX_VALUE (u.trims.next - 68)) v.toNat)) ∧
  (∀ (s : State) (n v : Nat), s.clk < s.trims.changed.get (fun _ => 0) n + 8000 →
    s.measure n v = s.setReg (TRM_MEAS n) (BitVec.ofNat 32 v)) ∧
  (∀ (t : Nat) (v : BitVec 16) (s u : State), s.advance t = u → u.on TRM_CTL_MONEN = false → exec (.monitorConversion t v) s = .next u) ∧
  (∀ (ok : Bool) (s : State), s.trims.load = true → s.awake = true →
    exec (.otpTrimLoadDone ok) s = .next (((({ s with trims := { s.trims with load := false } } : State).setOn TRM_STAT_LOADED).setBit
      TRM_STAT_OTPBAD (!ok)).nominal).retargetAll) ∧
  (∀ (ok : Bool) (s : State), s.trims.load = false ∨ s.awake = false → exec (.otpTrimLoadDone ok) s = .next s) ∧
  (∀ (ok : Bool) (s : State), s.canonical → s.trims.load = true → s.awake = true →
    Runs (.otpTrimLoadDone ok) s (fun w => w.on TRM_STAT_LOADED = true ∧ w.on TRM_STAT_OTPBAD = !ok ∧ w.trims.load = false))

/-- The supplies (R357 to R360). -/
def Obligations.SuppliesRun : Prop :=
  (∀ (t : Nat) (rail vback : Bool) (s u v w : State), s.advance t = u → u.fld PWR_STAT_STATE ≠ 3 →
    ((((((u.setOn PWR_STAT_PFW).setOn PWR_STAT_SAG).setBit PWR_STAT_VMAINOK rail).setBit PWR_STAT_VBACKOK vback).alarm alPWRWARN).failFreeze) = v →
    ((({ v with trims := { v.trims with cut := true } } : State).retargetAll).trimsZero.trnShow) = w →
    exec (.powerFailWarning t rail vback) s = .next ((w.setPower { w.power with delay := none, blocks := 0#32, dlyBits := 0, railLow := w.power.railLow || rail }).putRecord 1)) ∧
  (∀ (t : Nat) (rail vback : Bool) (s u : State), s.advance t = u → u.fld PWR_STAT_STATE = 3 →
    exec (.powerFailWarning t rail vback) s = .next u ∧ exec (.changeover t vback) s = .next u) ∧
  (∀ (t : Nat) (vback : Bool) (s u y v w x : State), s.advance t = u → u.fld PWR_STAT_STATE ≠ 3 →
    (if u.chanOn (u.fld POS_CTL_BANKCH) = true then u else u.setPos { u.pos with
      cnt := u.pos.cnt.set (fun _ => 0) (u.fld POS_CTL_BANKCH) u.vote }) = y → ((y.clearAll false).keepTime u).setReg POS_SPEED (u.reg POS_SPEED) = v →
    ((((({ v with tabs := v.storeFill.tabs.filled, power := { v.power with rails := false } } : State).setFld PWR_STAT_STATE 3).setFld PWR_STAT_VMAINOK 0).setBit
      PWR_STAT_VBACKOK vback).setOn PWR_STAT_BANKED) = w →
    ((w.setOn POS_STATE_BANKED).setReg SVC_BOOTST 3#32).pinsShow = x →
    exec (.changeover t vback) s = .next ((x.posJump x.vote).voteFlags)) ∧
  (∀ (t : Nat) (vback rails : Bool) (s u v : State), s.advance t = u →
    ((u.setPower { u.power with railLow := u.power.railLow && !rails }).setOn PWR_STAT_VMAINOK).setBit PWR_STAT_VBACKOK vback = v →
    (u.fld PWR_STAT_STATE = 3 → exec (.vmainGood t ⟨vback, rails⟩) s = .next (((v.setFld PWR_STAT_STATE 0).bankReturn).resetBy 1 rcSYSTEM)) ∧
    (u.fld PWR_STAT_STATE ≠ 3 → u.on PWR_STAT_SAG = true → u.power.railLow = false ∨ rails = true →
      exec (.vmainGood t ⟨vback, rails⟩) s = .next (((v.setFld PWR_STAT_SAG 0).setOn PWR_STAT_BROWNOUT).resetBy 1 rcSYSTEM)) ∧
    (u.fld PWR_STAT_STATE ≠ 3 → u.on PWR_STAT_SAG = false ∨ (u.power.railLow = true ∧ rails = false) →
      exec (.vmainGood t ⟨vback, rails⟩) s = .next v)) ∧
  (∀ (t : Nat) (vback : Bool) (s : State),
    Runs (.aonpor t vback) s (fun v => v.reg RST_STAT = regReset RST_STAT ∧ v.reg HIF_CTL = regReset HIF_CTL ∧
      v.reg POS_CTL = regReset POS_CTL ∧ v.heads = [] ∧ v.tabs = Tables.reset ∧ v.portQ = [] ∧ v.otp = s.otp ∧ v.out = (s.advance t).out)) ∧
  (∀ (t : Nat) (rail vback : Bool) (s u : State), s.canonical → s.advance t = u → u.fld PWR_STAT_STATE ≠ 3 →
    Runs (.powerFailWarning t rail vback) s (fun w => w.on PWR_STAT_PFW = true ∧ w.on PWR_STAT_SAG = true ∧
      w.on PWR_STAT_VMAINOK = rail ∧ w.on PWR_STAT_VBACKOK = vback ∧ w.trims.cut = true) ∧
    Runs (.changeover t vback) s (fun w => w.fld PWR_STAT_STATE = 3 ∧ w.on PWR_STAT_BANKED = true ∧ w.on POS_STATE_BANKED = true ∧
      w.tabs.store = [] ∧ w.heads = [])) ∧
  (∀ (t : Nat) (vback : Supplies) (s u : State), s.canonical → s.advance t = u → u.fld PWR_STAT_STATE = 3 → u.on PWR_STAT_SAG = false →
    u.armed = false → u.power.delay = none → u.svc.pulse = none → u.svc.page = false →
    Runs (.vmainGood t vback) s (fun w => w.fld PWR_STAT_STATE = 0 ∧ bitAt (w.fld RST_CAUSE_CAUSE) 1 = true ∧ w.on RST_STAT_DONE = false))

/-- Power states (R365 to R371). -/
def Obligations.PowerStatesRun : Prop :=
  (∀ (t : Nat) (v : BitVec 32) (s u : State), s.advance t = u → u.aonOk = true →
    exec (.pwrReqRun t v) s = .next (u.pwrCtl v) ∧ exec (.pwrReqReady t v) s = .next (u.pwrCtl v) ∧
    exec (.pwrReqSmoulder t v) s = .next (u.pwrCtl v)) ∧
  (∀ (t : Nat) (v : BitVec 32) (s u : State), s.advance t = u → u.aonOk = false →
    exec (.pwrReqRun t v) s = .next u ∧ exec (.pwrReqReady t v) s = .next u ∧ exec (.pwrReqSmoulder t v) s = .next u) ∧
  (∀ (t : Nat) (v : BitVec 32) (s u w : State), s.advance t = u → u.aonOk = true → u.setBit PWR_CTL_WAKEMOT (v.getLsbD 2) = w →
    u.armed = true → bitsOf v.toNat 0 2 = 1 ∨ bitsOf v.toNat 0 2 = 2 → exec (.pwrReqReady t v) s = .next (w.refuse erARMED PWR_CTL)) ∧
  (∀ (t : Nat) (v : BitVec 32) (s u w : State), s.advance t = u → u.aonOk = true →
    (u.setBit PWR_CTL_WAKEMOT (v.getLsbD 2)).setFld PWR_CTL_REQ 1 = w → u.armed = false → bitsOf v.toNat 0 2 = 1 →
    w.on RST_STAT_DONE = true → w.fld PWR_STAT_STATE = 0 →
    exec (.pwrReqReady t v) s = .next (w.camsQuiet.setFld PWR_STAT_STATE 1)) ∧
  (∀ (t : Nat) (v : BitVec 32) (s u w : State), s.advance t = u → u.aonOk = true →
    (u.setBit PWR_CTL_WAKEMOT (v.getLsbD 2)).setFld PWR_CTL_REQ 2 = w → u.armed = false → bitsOf v.toNat 0 2 = 2 →
    w.on RST_STAT_DONE = true → exec (.pwrReqSmoulder t v) s = .next w.toSmoulder) ∧
  (∀ (t : Nat) (v : BitVec 32) (s u w : State), s.advance t = u → u.aonOk = true →
    (u.setBit PWR_CTL_WAKEMOT (v.getLsbD 2)).setFld PWR_CTL_REQ 0 = w → bitsOf v.toNat 0 2 = 0 →
    w.on RST_STAT_DONE = true → exec (.pwrReqRun t v) s = .next (w.wake 0)) ∧
  (∀ (s : State) (k : Nat), s.fld PWR_STAT_STATE = 1 → s.wake k = (s.setFld PWR_STAT_STATE 0).setFld PWR_WAKESRC_SRC (2 ^ k)) ∧
  (∀ (t : Nat) (s u : State), s.advance t = u → exec (.motionWake t) s = .next (
    if u.on PWR_CTL_WAKEMOT = true ∧ u.fld PWR_WAKECNT_COUNTS ≤ (diff48 u.pos.t u.power.wakeT).natAbs ∧ u.fld PWR_STAT_STATE = 2
    then u.wake 1 else u)) ∧
  (∀ (t : Nat) (low press hi : Bool) (s u v : State), s.advance t = u →
    ((u.setBit SVC_ASTAT_SERVICE low).setBit SVC_ASTAT_SEALED hi).setSvc { u.svc with hi := u.svc.hi || hi, lo := u.svc.lo || !hi } = v →
    (low = false ∨ press = false ∨ v.fld PWR_STAT_STATE = 3 → exec (.serviceNPress ⟨t, low, press, hi⟩) s = .next v) ∧
    (low = true → press = true → v.fld PWR_STAT_STATE ≤ 1 → v.fld SVC_ASTAT_STATE = auWAITING →
      v.clk ≤ v.timers.get (fun _ => 0) tmAuth + 12000000000 → exec (.serviceNPress ⟨t, low, press, hi⟩) s =
        .next (((v.setFld SVC_ASTAT_STATE auARMED).setFld SVC_ASTAT_REMAIN 60).startTimer tmAuth)) ∧
    (low = true → press = true → v.fld PWR_STAT_STATE = 2 → (v.wake 2).fld SVC_ASTAT_STATE ≠ auWAITING →
      exec (.serviceNPress ⟨t, low, press, hi⟩) s = .next (v.wake 2)) ∧
    (low = true → press = true → v.fld PWR_STAT_STATE ≤ 1 → v.fld SVC_ASTAT_STATE ≠ auWAITING →
      exec (.serviceNPress ⟨t, low, press, hi⟩) s = .next v)) ∧
  (∀ (t : Nat) (s u : State), s.advance t = u → u.aonOk = true →
    exec (.d3hot t) s = .next ((List.range 128).foldl (fun s st => s.holdState st) (u.setOn PWR_STAT_D3HOT)).toSmoulder) ∧
  (∀ (t : Nat) (s u v : State), s.advance t = u → u.on PWR_STAT_D3HOT = true → u.aonOk = true →
    u.setFld PWR_STAT_D3HOT 0 = v →
    exec (.d0Return t) s = .next ((List.range 128).foldl (fun s st => s.holdState st)
      (if v.awake then v.pollResume.flushHost else v.wake 3))) ∧
  (∀ (t : Nat) (s u : State), s.advance t = u → u.on PWR_STAT_D3HOT = false → exec (.d0Return t) s = .next u) ∧
  (∀ (t : Nat) (s u : State), s.advance t = u →
    exec (.smoulderReturnComplete t) s = .next ((List.range 128).foldl (fun s st => s.holdState st) u.woken.flushHost)) ∧
  (∀ s : State, (s.fld PWR_STAT_STATE ≠ 2 ∨ s.power.waking = false) → s.woken = s) ∧
  (∀ (t : Nat) (s u : State), s.advance t = u → exec (.refloss t) s = .next (
    if u.awake = true ∧ u.on CLK_STAT_PLLLOCK = true then (u.setOn CLK_STAT_REFLOSS).countReg CLK_LOSSCNT 1 else u)) ∧
  (∀ (t : Nat) (ppm : BitVec 16) (s u : State), s.advance t = u → exec (.aonTrim t ppm) s = .next (
    if u.awake = true ∧ u.on CLK_STAT_PLLLOCK = true ∧ u.fld CLK_STAT_MODE ≠ 3 then u.setFld CLK_STAT_AONPPM ppm.toNat else u)) ∧
  (∀ (t : Nat) (v : BitVec 32) (s u : State), s.canonical → s.advance t = u → u.aonOk = true → u.armed = false → u.on RST_STAT_DONE = true →
    (bitsOf v.toNat 0 2 = 1 → u.fld PWR_STAT_STATE = 0 → Runs (.pwrReqReady t v) s (fun w => w.fld PWR_STAT_STATE = 1)) ∧
    (bitsOf v.toNat 0 2 = 2 → u.awake = true → Runs (.pwrReqSmoulder t v) s (fun w => w.fld PWR_STAT_STATE = 2)) ∧
    (bitsOf v.toNat 0 2 = 0 → u.fld PWR_STAT_STATE = 1 →
      Runs (.pwrReqRun t v) s (fun w => w.fld PWR_STAT_STATE = 0 ∧ w.fld PWR_WAKESRC_SRC = 1))) ∧
  (∀ (t : Nat) (s u : State), s.canonical → s.advance t = u → u.aonOk = true →
    Runs (.d3hot t) s (fun w => w.on PWR_STAT_D3HOT = true ∧ w.fld PWR_STAT_STATE = if u.armed = false ∧ u.awake = true then 2
      else u.fld PWR_STAT_STATE)) ∧
  (∀ (t : Nat) (s u : State), s.canonical → s.advance t = u → u.aonOk = true → u.on PWR_STAT_D3HOT = true → u.fld PWR_STAT_STATE = 2 →
    u.power.waking = false →
    Runs (.d0Return t) s (fun w => w.on PWR_STAT_D3HOT = false ∧ w.power.waking = true ∧ w.fld PWR_WAKESRC_SRC = 8)) ∧
  (∀ (t : Nat) (s u : State), s.canonical → s.advance t = u → u.fld PWR_STAT_STATE = 2 → u.power.waking = true → u.power.reboot = false →
    Runs (.smoulderReturnComplete t) s (fun w => w.fld PWR_STAT_STATE = 0 ∧ w.on CLK_STAT_PLLLOCK = true ∧ w.power.waking = false))

/-- Resets (R372 to R379). -/
def Obligations.ResetsAndReleaseRun : Prop :=
  (∀ (t : Nat) (s u : State), s.advance t = u → exec (.resetn t) s = .next (u.resetBy 4 rcSYSTEM)) ∧
  (∀ (t : Nat) (s u : State), s.advance t = u →
    exec (.wdog t) s = .next (if u.on RST_WDCFG_EN then u.resetBy 5 (if u.on RST_WDCFG_FULL then rcSYSTEM else rcHEARTH) else u)) ∧
  (∀ (t : Nat) (v : BitVec 32) (s u : State), s.advance t = u → bitsOf v.toNat 24 8 = 0x5A → v.getLsbD 0 = true →
    u.on RST_STAT_DONE = true → u.awake = true → exec (.sysReset t v) s = .next (u.resetBy 8 rcSOFT)) ∧
  (∀ (t : Nat) (v : BitVec 32) (s u : State), s.advance t = u → (bitsOf v.toNat 24 8 ≠ 0x5A ∨ v.getLsbD 0 = false) →
    exec (.sysReset t v) s = .next u) ∧
  (∀ (s : State) (b r : Nat), s.on PWR_STAT_SAG = false → s.fld PWR_STAT_STATE ≠ 3 → s.power.delay = none → s.svc.pulse = none →
    s.svc.page = false → (r = rcHEARTH ∨ s.armed = false) →
    s.resetBy b r = (s.setFld RST_CAUSE_CAUSE (s.fld RST_CAUSE_CAUSE ||| 2 ^ b)).takeReset r) ∧
  (∀ (s : State) (b r : Nat), (s.on PWR_STAT_SAG = true ∨ s.fld PWR_STAT_STATE = 3) →
    s.resetBy b r = s.setFld RST_CAUSE_CAUSE (s.fld RST_CAUSE_CAUSE ||| 2 ^ b)) ∧
  (∀ (t : Nat) (s u v w : State) (r k : Nat) (b : Word), s.advance t = u → u.power.delay = some r → u.svc.pulse = some (k, b) →
    u.svc.page = false →
    ({ u with otp := u.otp.set (fun _ => 0#32) k (u.otp.get (fun _ => 0#32) k ||| b) } : State) = v →
    (v.setPower { v.power with delay := none, blocks := 0#32, dlyBits := 0 }).takeReset r = w → (rcSOFT ≤ r ∨ u.power.blocks = 0#32) →
    exec (.resetDelayEnd t) s = .next (w.setReg RST_STAT (w.reg RST_STAT ||| BitVec.ofNat 32 u.power.dlyBits))) ∧
  (∀ (t : Nat) (s u : State), s.advance t = u → u.power.delay = none → exec (.resetDelayEnd t) s = .next u) ∧
  (∀ (t : Nat) (straps : BitVec 6) (rails : Bool) (s u v : State), s.advance t = u →
    u.setPower { u.power with rails := u.power.rails || rails } = v → v.on RST_STAT_DONE = false → v.on PWR_STAT_SAG = false →
    v.fld PWR_STAT_STATE ≠ 3 → v.power.ended = true →
    exec (.resetReleaseStep t ⟨straps, rails⟩) s = .next (match v.fld RST_STAT_STEP with
      | 0 => if v.power.poweron = false ∨ v.power.stepAt + 40000 ≤ v.clk then v.beginStep 1 true else v
      | 1 => if v.power.rails = true ∧ v.power.stepAt + 400 ≤ v.clk then (v.beginStep 2 false).sampleStraps straps.toNat else v
      | 2 => if v.power.stepAt + 800 ≤ v.clk then (v.beginStep 3 false).trimLoad else v
      | 3 => if v.power.stepAt + 800 ≤ v.clk then (v.beginStep 4 true).bootStart else v
      | 4 => if v.power.stepAt + 800 ≤ v.clk then v.beginStep 5 true else v
      | 5 => if v.power.stepAt + 800 ≤ v.clk then v.beginStep 6 true else v
      | _ => if v.power.stepAt + 800 ≤ v.clk then (v.beginStep 7 true).released else v)) ∧
  (∀ (t : Nat) (straps : BitVec 6) (rails : Bool) (s u v : State), s.advance t = u →
    u.setPower { u.power with rails := u.power.rails || rails } = v → (v.on RST_STAT_DONE = true ∨ v.power.ended = false) →
    exec (.resetReleaseStep t ⟨straps, rails⟩) s = .next v) ∧
  (∀ (t : Nat) (s u : State), s.advance t = u → u.fld RST_STAT_STEP = 2 → u.power.ended = false → u.on PWR_STAT_SAG = false →
    u.fld CLK_STAT_MODE ≠ 3 →
    exec (.pllLock t true) s = .next ((u.setOn CLK_STAT_PLLLOCK).setOn CLK_STAT_DRAMLOCK).endStep ∧
    exec (.pllLock t false) s = .next (if u.power.stepAt + 40000 ≤ u.clk then (u.setOn CLK_STAT_NOLOCK).beginStep 2 false else u)) ∧
  (∀ (t : Nat) (s u : State), s.advance t = u → u.fld RST_STAT_STEP = 3 → u.power.ended = false → u.on PWR_STAT_SAG = false →
    u.power.stepAt + 65536 ≤ u.clk → exec (.sramFillDone t) s = .next ({ u with tabs := u.tabs.filled } : State).endStep) ∧
  (∀ (t : Nat) (store : Fin 3) (s u : State), s.advance t = u → 5 ≤ u.fld RST_STAT_STEP → u.power.trained = false →
    u.on PWR_STAT_SAG = false → u.awake = true →
    exec (.dramTrainingDone t store) s = .next ((({ u.storeFill with power := { u.power with trained := true } } :
      State).setFld SYS_CAPS_STORE store).setFld SWS_CAP_USABLE (7168 * store))) ∧
  (∀ (t : Nat) (s u : State), s.advance t = u → u.power.trained = true → u.fld SYS_CAPS_STORE ≠ 0 → u.on PWR_STAT_SAG = false →
    u.awake = true → exec (.dramok t) s = .next (u.setOn SYS_CAPS_DRAMOK)) ∧
  (∀ (t : Nat) (s u : State), s.advance t = u → u.power.trained = false → exec (.dramok t) s = .next u) ∧
  (∀ (t : Nat) (v : BitVec 32) (s u : State), s.advance t = u → u.aonOk = true → u.on PWR_STAT_SAG = false → u.armed = true → v &&& 0x1F1FF#32 ≠ 0#32 →
    exec (.rstBlkrst t v) s = .next (u.refuse erARMED RST_BLKRST)) ∧
  (∀ (t : Nat) (v : BitVec 32) (s u : State), s.advance t = u → u.aonOk = true → u.on PWR_STAT_SAG = false → (u.armed = false ∨ v &&& 0x1F1FF#32 = 0#32) →
    v &&& 0x3FFFF#32 ≠ 0#32 → u.power.delay = none →
    (u.svc.pulse = none → u.svc.page = false → exec (.rstBlkrst t v) s = .next (u.blockResets (v &&& 0x3FFFF#32))) ∧
    (u.svc.pulse ≠ none → exec (.rstBlkrst t v) s =
      .next ((u.setPower { u.power with blocks := v &&& 0x3FFFF#32 }).delayReset 0 u.workBits))) ∧
  (∀ (t : Nat) (v : BitVec 32) (s u : State), s.advance t = u → u.on PWR_STAT_SAG = true → exec (.rstBlkrst t v) s = .next u) ∧
  (∀ (s u : State) (m : Word), (List.range 18).foldl (fun s k => if m.getLsbD k then s.blockReset k else s) s = u →
    s.blockResets m = (u.setReg RST_BLKRST (u.reg RST_BLKRST ||| m)).tripAll) ∧
  (∀ (t : Nat) (s u : State), s.canonical → s.advance t = u → u.on PWR_STAT_SAG = false → u.fld PWR_STAT_STATE ≠ 3 →
    u.power.delay = none → u.svc.pulse = none → u.svc.page = false → u.armed = false → u.on RST_STAT_DONE = true →
    Runs (.resetn t) s (fun w => bitAt (w.fld RST_CAUSE_CAUSE) 4 = true ∧ w.on RST_STAT_DONE = false ∧ w.fld RST_STAT_STEP = 0 ∧
      w.heads = [] ∧ w.streams = []) ∧
    (u.on RST_WDCFG_EN = true → u.on RST_WDCFG_FULL = true →
      Runs (.wdog t) s (fun w => bitAt (w.fld RST_CAUSE_CAUSE) 5 = true ∧ w.on RST_STAT_DONE = false)) ∧
    (∀ v : BitVec 32, bitsOf v.toNat 24 8 = 0x5A → v.getLsbD 0 = true → u.awake = true →
      Runs (.sysReset t v) s (fun w => bitAt (w.fld RST_CAUSE_CAUSE) 8 = true ∧ w.on RST_STAT_DONE = false)) ∧
    (∀ seq : LinkHdr, u.twinOn = true → u.on TWN_LINKST_UP = true → u.twin.seqIn ≠ seq.seq.toNat →
      Runs (.rstreq t seq) s (fun w => bitAt (w.fld RST_CAUSE_CAUSE) 6 = true ∧ w.on RST_STAT_DONE = false)))

/-- Kiln's configuration during a job (R151). -/
def Obligations.KilnWritesFrozen : Prop :=
  (∀ (t : Nat) (a : BitVec 22) (len : Fin 9) (v : BitVec 64) (hearth : Bool) (s u : State), s.advance t = u → u.armed = true →
    u.barOk 3 = true → (hearth = true → u.firmwareOn = true) → 1 ≤ len.val → a.toNat % 4 + len.val ≤ 4 →
    a.toNat - a.toNat % 4 ∈ [KLN_CTL, KLN_COLS, KLN_ROTCFG, KLN_MTXCFG, KLN_MTXSEL 0, KLN_MTXSEL 1, KLN_MTXSEL 2, KLN_MTXSEL 3, KLN_EMBCTL] →
    exec (.registerWrite t ⟨0, a⟩ len v hearth) s = .next (u.recordAt KLN_ERR erARMED (a.toNat - a.toNat % 4))) ∧
  (∀ (t : Nat) (a : BitVec 22) (len : Fin 9) (v : BitVec 64) (hearth : Bool) (s u : State), s.advance t = u → u.armed = true →
    u.barOk 3 = true → (hearth = true → u.firmwareOn = true) → 1 ≤ len.val → len.val ≤ 4 → a.toNat = KLN_EMBREQ → v.getLsbD 0 = true →
    exec (.registerWrite t ⟨0, a⟩ len v hearth) s = .next { u with kiln := { u.kiln with want := true } }) ∧
  (∀ (t : Nat) (a : BitVec 22) (v : BitVec 64) (hearth : Bool) (s u : State), s.canonical → s.advance t = u → u.armed = true →
    u.barOk 3 = true → (hearth = true → u.firmwareOn = true) → a.toNat ∈ [KLN_EMBSTAT, KLN_ERR] → v.getLsbD 31 = true → (u.times.was.get regReset a.toNat).getLsbD 31 = true →
    Runs (.registerWrite t ⟨0, a⟩ 4 v hearth) s (fun w => (w.reg a.toNat).getLsbD 31 = false ∧
      ∀ i, i < 31 → (w.reg a.toNat).getLsbD i = (u.reg a.toNat).getLsbD i)) ∧
  (∀ (t k : Nat) (a : BitVec 26) (s u : State), s.canonical → s.advance t = u → u.armed = true → u.barOk 3 = true →
    (a.toNat, k) ∈ [(KLN_EMBSTAT, 0xFFFF), (KLN_EMBPASS, 0xFFFFFFFF), (KLN_BLENDST, 0xFFFF0000), (KLN_ASHCNT, 0xFFFFFFFF),
      (KLN_BADENT, 0xFFFFFFFF)] → u.times.was.get regReset a.toNat = u.reg a.toNat →
    Runs (.clearingRead t ⟨0, a⟩ 4) s (fun w => w.reg a.toNat = u.reg a.toNat &&& ~~~(BitVec.ofNat 32 k)))

/-- Accesses to BAR0, BAR2 and the configuration space (R5 to R7, R50, R121, R369, R373, R418, R419). -/
def Obligations.RegisterAccessesRun : Prop :=
  (∀ (t : Nat) (a : BitVec 22) (len : Fin 9) (v : BitVec 64) (hearth : Bool) (s u : State), s.stepAfter t a.toNat = false → s.advance t = u →
    (len.val = 8 ∧ a.toNat % 8 ≠ 0) ∨ (len.val ≠ 8 ∧ (len.val = 0 ∨ 4 < a.toNat % 4 + len.val ∨ u.open_ a.toNat = false ∨
      u.inReset a.toNat = true ∨ (winNZT a.toNat = false ∧ winMTX a.toNat = false ∧ winRET a.toNat = false ∧
        regRowAt (a.toNat - a.toNat % 4) = none))) →
    exec (.registerWrite t ⟨0, a⟩ len v hearth) s = .next u) ∧
  (∀ (t : Nat) (a : BitVec 22) (v : BitVec 64) (hearth : Bool) (s u : State), s.stepAfter t a.toNat = false → s.advance t = u →
    (hearth = true → u.firmwareOn = true) → a.toNat % 8 = 0 →
    exec (.registerWrite t ⟨0, a⟩ 8 v hearth) s =
      .next ((u.write32 a.toNat 4 (v.toNat % 2 ^ 32) hearth).write32 (a.toNat + 4) 4 (v.toNat / 2 ^ 32) hearth)) ∧
  (∀ (t : Nat) (a : BitVec 22) (len : Fin 9) (v : BitVec 64) (hearth : Bool) (s u : State), s.stepAfter t a.toNat = false → s.advance t = u →
    (hearth = true → u.firmwareOn = true) → 1 ≤ len.val → a.toNat % 4 + len.val ≤ 4 → u.open_ a.toNat = true → u.inReset a.toNat = false →
    (winNZT a.toNat = true → exec (.registerWrite t ⟨0, a⟩ len v hearth) s = .next (u.nztWindow (a.toNat - 0x80000) len v.toNat)) ∧
    (winMTX a.toNat = true →
      exec (.registerWrite t ⟨0, a⟩ len v hearth) s = .next (u.curveMatrixWindow (a.toNat - 0x300000) len v.toNat)) ∧
    (winRET a.toNat = true → exec (.registerWrite t ⟨0, a⟩ len v hearth) s =
      .next (if len.val = 4 then u.retnPut (a.toNat - 0x224000) (BitVec.ofNat 32 v.toNat) else u)) ∧
    (∀ (r : RegRow) (m : Word), winNZT a.toNat = false → winMTX a.toNat = false → winRET a.toNat = false →
      regRowAt (a.toNat - a.toNat % 4) = some r → byteMask (a.toNat % 4) len = m →
      exec (.registerWrite t ⟨0, a⟩ len v hearth) s = .next (u.regWrite (a.toNat - a.toNat % 4) r m
        (BitVec.ofNat 32 (v.toNat * 2 ^ (8 * (a.toNat % 4))) &&& m) (a.toNat % 4) len hearth))) ∧
  (∀ (t : Nat) (a : BitVec 22) (len : Fin 9) (v : BitVec 64) (s u : State), s.stepAfter t a.toNat = false → s.advance t = u →
    u.firmwareOn = false → exec (.registerWrite t ⟨0, a⟩ len v true) s = .next u) ∧
  (∀ (s u : State) (a off len : Nat) (r : RegRow) (m v : Word) (hearth : Bool), 0x30000 ≤ a → a < 0x34000 →
    (if s.armed = true ∧ a % 128 < 0x20 then s.unitErr erARMED ((a - 0x30000) / 128) else s.plainWrite a r m v) = u →
    (a % 128 ≠ 0 → a % 128 ≠ 16 → s.regWrite a r m v off len hearth = u) ∧
    (a % 128 = 0 ∨ a % 128 = 16 → s.regWrite a r m v off len hearth = u.overAll)) ∧
  (∀ (s : State) (a i : Nat) (r : RegRow) (m v : Word), s.canonical → i < 32 →
    legals.all (fun l => (bankAt a l.base l.count l.stride).isNone) = true → r.rw &&& r.w1c = 0 → r.rw &&& r.w1s = 0 → r.w1c &&& r.w1s = 0 →
    ((s.plainWrite a r m v).reg a).getLsbD i =
      if m.getLsbD i then
        (if r.rw.testBit i then v.getLsbD i else if r.w1c.testBit i then (s.reg a).getLsbD i && !(v.getLsbD i && (s.times.was.get regReset a).getLsbD i)
         else if r.w1s.testBit i then (s.reg a).getLsbD i || v.getLsbD i else (s.reg a).getLsbD i)
      else (s.reg a).getLsbD i) ∧
  (∀ (s : State) (a b : Nat) (r : RegRow) (m v : Word), b ≠ a → (s.plainWrite a r m v).reg b = s.reg b) ∧
  (∀ (t : Nat) (a : BitVec 22) (len : Fin 9) (v : BitVec 64) (hearth : Bool) (s u : State), s.advance t = u →
    (len.val = 0 ∨ 4 < a.toNat % 4 + len.val ∨ u.aonOk = false) → exec (.registerWrite t ⟨1, a⟩ len v hearth) s = .next u) ∧
  (∀ (t : Nat) (a : BitVec 26) (len : Fin 9) (s u : State), s.stepAfter t a.toNat = false → s.advance t = u → a.toNat < 2 ^ 22 → len.val ≠ 8 →
    (len.val = 0 ∨ 4 < a.toNat % 4 + len.val ∨ u.open_ a.toNat = false ∨ (u.inReset a.toNat = false ∧ winNZT a.toNat = false ∧
      winMTX a.toNat = false ∧ winRET a.toNat = false ∧ regRowAt (a.toNat - a.toNat % 4) = none)) →
    exec (.clearingRead t ⟨0, a⟩ len) s = .next { u with readData := 0#64, readEP := false }) ∧
  (∀ (t : Nat) (a : BitVec 26) (s u v w : State), s.stepAfter t a.toNat = false → s.advance t = u → a.toNat < 2 ^ 22 → a.toNat % 8 = 0 → u.read32 a.toNat 4 = v →
    v.read32 (a.toNat + 4) 4 = w → exec (.clearingRead t ⟨0, a⟩ 8) s =
      .next (w.answer (v.readData.toNat % 2 ^ 32 + 2 ^ 32 * (w.readData.toNat % 2 ^ 32)) (v.readEP || w.readEP))) ∧
  (∀ (t : Nat) (a : BitVec 26) (len : Fin 9) (s u : State), s.stepAfter t a.toNat = false → s.advance t = u → a.toNat < 2 ^ 22 → 1 ≤ len.val → a.toNat % 4 + len.val ≤ 4 →
    u.open_ a.toNat = true → u.inReset a.toNat = true → exec (.clearingRead t ⟨0, a⟩ len) s =
      .next (u.answer (bitsOf (u.resetShown (a.toNat - a.toNat % 4)).toNat (8 * (a.toNat % 4)) (8 * len)) false)) ∧
  (∀ (s : State) (a : Nat), a < 0x100000 → a ≠ SWS_CAP → s.resetShown a = regReset a) ∧
  (∀ (t : Nat) (a : BitVec 26) (s u : State) (r : RegRow), s.canonical → s.advance t = u → a.toNat < 2 ^ 22 → a.toNat % 4 = 0 →
    u.open_ a.toNat = true → u.inReset a.toNat = false → winNZT a.toNat = false → winMTX a.toNat = false → winRET a.toNat = false →
    regRowAt a.toNat = some r → 0x40000 ≤ a.toNat → a.toNat < 0x80000 → r.rc ≠ 0 → r.rc < 2 ^ 32 → r.res = 0 → r.wo = 0 →
    u.times.was.get regReset a.toNat = u.reg a.toNat →
    Runs (.clearingRead t ⟨0, a⟩ 4) s (fun w => w.readData.toNat = (u.reg a.toNat).toNat ∧ w.readEP = false ∧
      w.reg a.toNat = u.reg a.toNat &&& ~~~(BitVec.ofNat 32 r.rc))) ∧
  (∀ (t : Nat) (a : BitVec 26) (len : Fin 9) (s u : State), s.advance t = u →
    (len.val = 0 ∨ 8 < a.toNat % 8 + len.val ∨ u.bar2Addr a.toNat len = none) →
    exec (.clearingRead t ⟨1, a⟩ len) s = .next { u with readData := 0#64, readEP := false }) ∧
  (∀ (t : Nat) (a : BitVec 26) (len : Fin 9) (s u : State), s.advance t = u →
    exec (.clearingRead t ⟨2, a⟩ len) s = .next (u.cfgRead (a.toNat % 4096) len)) ∧
  (∀ (t : Nat) (a : BitVec 22) (len : Fin 9) (v : BitVec 64) (hearth : Bool) (s : State), s.stepAfter t a.toNat = true →
    (hearth = true → (s.goOn t).firmwareOn = true) →
    exec (.registerWrite t ⟨0, a⟩ len v hearth) s = .next (((s.goOn t).bar0Write a.toNat len v.toNat hearth).takeSteps)) ∧
  (∀ (t : Nat) (a : BitVec 26) (len : Fin 9) (s : State), a.toNat < 2 ^ 22 → s.stepAfter t a.toNat = true →
    exec (.clearingRead t ⟨0, a⟩ len) s = .next (((s.goOn t).bar0Read a.toNat len).takeSteps)) ∧
  (∀ (s : State) (t a : Nat), s.stepAfter t a = true ↔ s.times.step ≠ [] ∧ t = s.clk + 1 ∧
    (a / 8 = CRD_SCHEDST / 8 ∨ ∃ n < 8, a / 8 = TIM_EVTSTAT n / 8))

/-- Memory integrity as commands meet it (R121, R389, R390, R393, R394). -/
def Obligations.MemoryIntegrityRuns : Prop :=
  (∀ (t : Nat) (mem : Fin 2) (region : Fin 9) (a : BitVec 35) (flips : BitVec 72) (s u : State), s.advance t = u →
    u.scrubDue mem = false → exec (.scrubStep t mem region a flips) s = .next u) ∧
  (∀ (t : Nat) (region : Fin 9) (a : BitVec 35) (flips : BitVec 72) (s u v : State) (r j : Nat), s.advance t = u → u.scrubDue 0 = true →
    (u.upset 0 region a.toNat flips).startTimer (tmScrub 0) = v → v.mergeBuf memSRAM = none → scrubPlace scrubOrder v.power.scrub = (r, j) →
    exec (.scrubStep t 0 region a flips) s = .next ((v.regionTouch r j).setPower { (v.regionTouch r j).power with
      scrub := ((v.regionTouch r j).power.scrub + 1) % sramWords })) ∧
  (∀ (t : Nat) (region : Fin 9) (a : BitVec 35) (flips : BitVec 72) (s u v w : State) (p : Nat), s.advance t = u → u.scrubDue 1 = true →
    (u.upset 1 region a.toNat flips).startTimer (tmScrub 1) = v → v.mergeBuf memSTORE = none → v.power.burst = p →
    (v.countReg (SWS_BW 4) 1).storeTouchAll (64 * p) 64 = w →
    exec (.scrubStep t 1 region a flips) s = .next (w.setPower { w.power with
      burst := if w.storeSize ≤ 64 * (p + 1) then 0 else p + 1 })) ∧
  (∀ (s : State) (mem r a : Nat), s.upset mem r a 0#72 = s) ∧
  (∀ (s : State) (r j : Nat), (s.regionWord r j).unc = false → (s.regionWord r j).cor = false → s.regionTouch r j = s) ∧
  (∀ (t : Nat) (mem : Fin 3) (s u : State), s.advance t = u → u.mergeBuf mem = none → exec (.mergeCommit t mem) s = .next u) ∧
  (∀ (t : Nat) (mem : Fin 3) (s u : State) (b : Narrow), s.advance t = u → u.mergeBuf mem = some b →
    (u.clk < b.at_ + 1600 → exec (.mergeCommit t mem) s = .next u) ∧
    (b.at_ + 1600 ≤ u.clk → mem = 0 → exec (.mergeCommit t mem) s = .next u.mergeCommit) ∧
    (b.at_ + 1600 ≤ u.clk → mem = 1 → exec (.mergeCommit t mem) s = .next u.storeMerge) ∧
    (b.at_ + 1600 ≤ u.clk → mem = 2 → exec (.mergeCommit t mem) s = .next u.hsMerge)) ∧
  (∀ (s : State) (b : Narrow), s.mergeBuf memSTORE = some b →
    (b.mask = 255 → s.on ECC_FLIPCTL_ARM = false →
      s.storeMerge = ((if (s.setMerge memSTORE none).unplaced b.key = true then ((s.setMerge memSTORE none).placeOf b.key).2
        else s.setMerge memSTORE none).hostWord b.key (if (s.setMerge memSTORE none).unplaced b.key = true
          then ((s.setMerge memSTORE none).placeOf b.key).1 else .idle) (MWord.clean (BitVec.ofNat 64 b.val)))) ∧
    (b.mask ≠ 255 → (s.setMerge memSTORE none).unplaced b.key = false → (s.storeWord b.key).unc = false → (s.storeWord b.key).cor = false → (s.storeWord b.key).ash = true →
      s.on ECC_FLIPCTL_ARM = false →
      s.storeMerge = ((s.setMerge memSTORE none).countReg ECC_MERGEASH 1).hostWord b.key .idle
        (MWord.marked (BitVec.ofNat 64 (mergeBytes (s.storeWord b.key).data.toNat b.val b.mask))))) ∧
  (∀ (s : State) (k : Nat) (w : MWord), s.hostWord k .idle w = (s.setStore k w).setLat k zeroWord) ∧
  (∀ (v : BitVec 32) (s : State), s.firmwareOn = false → exec (.eccFlipctlWrite v true) s = .next s) ∧
  (∀ (v : BitVec 32) (hearth : Bool) (s : State), s.barOk 16 = true → (hearth = true → s.firmwareOn = true) →
    (s.armed = true → v.getLsbD 2 = true → exec (.eccFlipctlWrite v hearth) s = .next (s.refuse erARMED ECC_FLIPCTL)) ∧
    ((s.armed = false ∨ v.getLsbD 2 = false) → (bitsOf v.toNat 0 2 ≠ 3 ∨ hearth = true) →
      exec (.eccFlipctlWrite v hearth) s = .next (s.setReg ECC_FLIPCTL (v &&& 0x1F#32))) ∧
    ((s.armed = false ∨ v.getLsbD 2 = false) → bitsOf v.toNat 0 2 = 3 → hearth = false → exec (.eccFlipctlWrite v hearth) s =
      .next (s.setReg ECC_FLIPCTL (putBits (v &&& 0x1F#32) 0 2 (s.fld ECC_FLIPCTL_TARGET))))) ∧
  (∀ (v : BitVec 32) (hearth : Bool) (s : State), s.barOk 16 = false → exec (.eccFlipctlWrite v hearth) s = .next s) ∧
  (∀ (s : State) (target w : Nat) (v : BitVec 64),
    (s.on ECC_FLIPCTL_ARM = false → s.commitWord target w v = (MWord.clean v, s)) ∧
    (s.on ECC_FLIPCTL_ARM = true → s.fld ECC_FLIPCTL_TARGET = target → s.on ECC_FLIPCTL_ASH = true →
      s.commitWord target w v = (MWord.marked v, if s.on ECC_FLIPCTL_PERSIST then s else s.setFld ECC_FLIPCTL_ARM 0))) ∧
  (∀ (t : Nat) (off : BitVec 26) (len : Fin 9) (v : BitVec 64) (s u : State), s.advance t = u →
    ((len.val = 0 ∨ 8 < off.toNat % 8 + len.val) → exec (.bar2WindowWrite t off len v) s = .next u) ∧
    (1 ≤ len.val → off.toNat % 8 + len.val ≤ 8 → u.armed = true → exec (.bar2WindowWrite t off len v) s = .next (u.swsErr erARMED 0)) ∧
    (u.armed = false → u.bar2Addr off.toNat len = none → exec (.bar2WindowWrite t off len v) s = .next u) ∧
    (∀ (a : Nat) (x : State) (b : Narrow), 1 ≤ len.val → off.toNat % 8 + len.val ≤ 8 → u.armed = false →
      u.bar2Addr off.toNat len = some a → (u.storeAway (a / 8)).countReg (SWS_BW 5) 1 = x →
      ((x.mergeBuf memSTORE).getD ⟨a / 8, 0, 0, x.clk⟩).add (a % 8) len v.toNat x.clk = b →
      exec (.bar2WindowWrite t off len v) s =
        .next (if b.mask = 255 then (x.setMerge memSTORE (some b)).storeMerge else x.setMerge memSTORE (some b))))

/-- Firmware images and the mailbox (R401 to R408). -/
def Obligations.FirmwareAndMailboxRun : Prop :=
  (∀ (t : Nat) (sigs : BitVec 2) (ok : Bool) (a b : List (BitVec 8)) (s u : State), (s.advance t).setFlash 0 a = u →
    exec (.imageVerifyDone t sigs ok (some a) (some b)) s = exec (.imageVerifyDone t sigs ok none none) ((u.setFlash 1 b))) ∧
  (∀ (t : Nat) (sigs : BitVec 2) (ok : Bool) (s u : State), s.advance t = u → u.awake = true → u.fld SVC_BOOTST_STATE = bsLOADING →
    (∀ k, u.flashChoice sigs.toNat = some k → exec (.imageVerifyDone t sigs ok none none) s = .next (u.fwStart k (u.flashImage k) (fun _ => false))) ∧
    (u.flashChoice sigs.toNat = none → exec (.imageVerifyDone t sigs ok none none) s =
      .next ((u.setFld SVC_BOOTST_CODE 1).setFld SVC_BOOTST_STATE bsWAITHOST))) ∧
  (∀ (t : Nat) (sigs : BitVec 2) (ok : Bool) (s u v : State) (img : List Byte), s.advance t = u → u.awake = true →
    u.fld SVC_BOOTST_STATE = bsVERIFYING → u.image u.bootAddr (4 * mib) = img → ({ u.storeTouchAll u.bootAddr img.length with
      freeCtr := (u.storeTouchAll u.bootAddr img.length).freeCtr + 2 } : State) = v →
    (imgFormatOk img (4 * mib) = true → imgCrcOk img = true → ok = true →
      exec (.imageVerifyDone t sigs ok none none) s = .next (v.fwStart 2 img (fun i => u.storeMarked (u.bootAddr + i)))) ∧
    (imgCode img (4 * mib) ok ≠ 0 → exec (.imageVerifyDone t sigs ok none none) s =
      .next ((v.setFld SVC_BOOTST_CODE (imgCode img (4 * mib) ok)).setFld SVC_BOOTST_STATE bsWAITHOST))) ∧
  (∀ (t : Nat) (sigs : BitVec 2) (ok : Bool) (s u : State), s.advance t = u → u.fld SVC_BOOTST_STATE ≠ bsLOADING →
    u.fld SVC_BOOTST_STATE ≠ bsVERIFYING → exec (.imageVerifyDone t sigs ok none none) s = .next u) ∧
  (∀ (t : Nat) (s u : State), s.advance t = u → u.barOk 17 = true →
    (u.armed = true → exec (.svcBootGo t) s = .next (u.refuse erARMED SVC_BOOT)) ∧
    (u.armed = false → u.fwRuns = true → exec (.svcBootGo t) s = .next u) ∧
    (u.armed = false → u.fwRuns = false → u.on SYS_CAPS_DRAMOK = false →
      exec (.svcBootGo t) s = .next (u.setFld SVC_BOOTST_CODE 5)) ∧
    (u.armed = false → u.fwRuns = false → u.on SYS_CAPS_DRAMOK = true → u.fld SVC_BOOTST_STATE = bsWAITHOST →
      exec (.svcBootGo t) s = .next ((u.storeMerge.setFld SVC_BOOTST_CODE 0).setFld SVC_BOOTST_STATE bsVERIFYING))) ∧
  (∀ (t : Nat) (s u g x : State), s.advance t = u → u.barOk 17 = true → u.on SVC_MBXCTL_BUSY = false →
    u.setSvc { u.svc with req := (List.range 16).map (fun k => u.reqByte k), hi := u.on SVC_ASTAT_SEALED, lo := !u.on SVC_ASTAT_SEALED
                          back := none } = g → (g.setOn SVC_MBXCTL_GO).setOn SVC_MBXCTL_BUSY = x →
    (u.fld SVC_MBXCMD_CMD = 1 → exec (.version t) s = .next (x.setSvc { x.svc with cmd := some 1, stat := g.mbxJudge 1, tasks := x.svc.tasks ++ [(2, 1)] })) ∧
    (u.fld SVC_MBXCMD_CMD = 2 → exec (.headread t) s = .next (x.setSvc { x.svc with cmd := some 2, stat := g.mbxJudge 2, tasks := x.svc.tasks ++ [(2, 2)] })) ∧
    (u.fld SVC_MBXCMD_CMD = 6 → exec (.golden t) s = .next (x.setSvc { x.svc with cmd := some 6, stat := g.mbxJudge 6, tasks := x.svc.tasks ++ [(2, 6)] })) ∧
    (u.fld SVC_MBXCMD_CMD = 7 → exec (.retrain t) s =
      .next (if g.mbxJudge 7 = 0 then (x.mbxStart 7).setSvc { (x.mbxStart 7).svc with cmd := some 7, stat := 0, tasks := (x.mbxStart 7).svc.tasks ++ [(2, 7)] }
        else x.setSvc { x.svc with cmd := some 7, stat := g.mbxJudge 7, tasks := x.svc.tasks ++ [(2, 7)] })) ∧
    (u.fld SVC_MBXCMD_CMD = 3 → exec (.rankwrite t) s =
      .next (if g.mbxJudge 3 = 0 then (x.mbxStart 3).setSvc { (x.mbxStart 3).svc with cmd := some 3, stat := 0, tasks := (x.mbxStart 3).svc.tasks ++ [(2, 3)] }
        else x.setSvc { x.svc with cmd := some 3, stat := g.mbxJudge 3, tasks := x.svc.tasks ++ [(2, 3)] })) ∧
    (u.fld SVC_MBXCMD_CMD = 4 → exec (.flashwrite t) s =
      .next (if g.mbxJudge 4 = 0 then (x.mbxStart 4).setSvc { (x.mbxStart 4).svc with cmd := some 4, stat := 0, tasks := (x.mbxStart 4).svc.tasks ++ [(2, 4)] }
        else x.setSvc { x.svc with cmd := some 4, stat := g.mbxJudge 4, tasks := x.svc.tasks ++ [(2, 4)] })) ∧
    (u.fld SVC_MBXCMD_CMD = 5 → exec (.otpprog t) s =
      .next (if g.mbxJudge 5 = 0 then (x.mbxStart 5).setSvc { (x.mbxStart 5).svc with cmd := some 5, stat := 0, tasks := (x.mbxStart 5).svc.tasks ++ [(2, 5)] }
        else x.setSvc { x.svc with cmd := some 5, stat := g.mbxJudge 5, tasks := x.svc.tasks ++ [(2, 5)] })) ∧
    (u.fld SVC_MBXCMD_CMD = 0 ∨ 7 < u.fld SVC_MBXCMD_CMD → exec (.mailboxBadcmd t) s =
      .next (x.setSvc { x.svc with cmd := some (u.fld SVC_MBXCMD_CMD), stat := (if u.fwRuns then stsBADCMD else stsNOFW), tasks := x.svc.tasks ++ [(2, u.fld SVC_MBXCMD_CMD)] }))) ∧
  (∀ (t : Nat) (s u : State), s.advance t = u → u.barOk 17 = true → u.on SVC_MBXCTL_BUSY = true →
    (∀ p ∈ ([(1, .version t), (2, .headread t), (3, .rankwrite t), (4, .flashwrite t), (5, .otpprog t), (6, .golden t), (7, .retrain t)] :
      List (Nat × Instr)), u.fld SVC_MBXCMD_CMD = p.1 → exec p.2 s = .next (u.refuse erBUSY SVC_MBXCTL)) ∧
    (u.fld SVC_MBXCMD_CMD = 0 ∨ 7 < u.fld SVC_MBXCMD_CMD → exec (.mailboxBadcmd t) s = .next (u.refuse erBUSY SVC_MBXCTL))) ∧
  (∀ (t : Nat) (s u : State), s.advance t = u →
    (∀ p ∈ ([(1, .version t), (2, .headread t), (3, .rankwrite t), (4, .flashwrite t), (5, .otpprog t), (6, .golden t), (7, .retrain t)] :
      List (Nat × Instr)), u.fld SVC_MBXCMD_CMD ≠ p.1 → exec p.2 s = .next u) ∧
    (1 ≤ u.fld SVC_MBXCMD_CMD → u.fld SVC_MBXCMD_CMD ≤ 7 → exec (.mailboxBadcmd t) s = .next u)) ∧
  (∀ s : State, (256 < s.fld SVC_MBXCMD_LEN → s.mbxJudge 1 = stsBADARG) ∧ (s.fld SVC_MBXCMD_LEN ≤ 256 → s.mbxJudge 1 = 0) ∧
    (s.fwRuns = false → s.mbxJudge 2 = stsNOFW) ∧ (s.fwRuns = true → s.fld SVC_MBXCMD_LEN ≤ 256 → s.reqField 0 1 ≤ 63 →
      s.headHere (s.reqField 0 1) = false → s.armed = false → s.mbxJudge 7 = stsNOHEAD)) ∧
  (∀ (t : Nat) (wrseal sig ok : Bool) (data : List (BitVec 8)) (s u : State), s.advance t = u →
    (u.svc.cmd = none ∨ 1 < u.fld PWR_STAT_STATE) → exec (.mailboxCommandEnd t wrseal sig ok data) s = .next u) ∧
  (∀ (t : Nat) (wrseal sig ok : Bool) (data : List (BitVec 8)) (s u v : State) (c : Nat), s.advance t = u → u.svc.cmd = some c →
    u.fld PWR_STAT_STATE ≤ 1 → u.serveGold u.svc.tasks.length = v →
    v.svc = { u.svc with tasks := v.svc.tasks } →
    (u.svc.stat ≠ 0 → exec (.mailboxCommandEnd t wrseal sig ok data) s = .next (v.mbxEnd u.svc.stat [])) ∧
    (u.svc.stat = 0 → c = 3 → u.svc.page = true → exec (.mailboxCommandEnd t wrseal sig ok data) s = .next v) ∧
    (u.svc.stat = 0 → c = 3 → u.svc.page = false → exec (.mailboxCommandEnd t wrseal sig ok data) s = .next (v.rankEnd ok)) ∧
    (u.svc.stat = 0 → c = 1 → exec (.mailboxCommandEnd t wrseal sig ok data) s = .next v.versionEnd) ∧
    (u.svc.stat = 0 → c = 2 → exec (.mailboxCommandEnd t wrseal sig ok data) s = .next v.headreadEnd) ∧
    (u.svc.stat = 0 → c = 4 → exec (.mailboxCommandEnd t wrseal sig ok data) s = .next (v.flashEnd sig wrseal data)) ∧
    (u.svc.stat = 0 → c = 5 → exec (.mailboxCommandEnd t wrseal sig ok data) s = .next (v.otpEnd ok)) ∧
    (u.svc.stat = 0 → c = 6 → exec (.mailboxCommandEnd t wrseal sig ok data) s = .next v.goldenEnd) ∧
    (u.svc.stat = 0 → c = 7 → exec (.mailboxCommandEnd t wrseal sig ok data) s = .next v.retrainEnd)) ∧
  (∀ (s : State) (st : Nat), s.canonical → st < 256 → (s.mbxEnd st []).fld SVC_MBXCTL_STATUS = st ∧ (s.mbxEnd st []).on SVC_MBXCTL_GO = false ∧
    (s.mbxEnd st []).on SVC_MBXCTL_BUSY = false ∧ (s.mbxEnd st []).fld SVC_MBXCTL_RLEN = 0 ∧ (s.mbxEnd st []).on SVC_MBXCTL_DONE = true ∧
    (s.mbxEnd st []).svc.cmd = none) ∧
  (∀ (t : Nat) (sigs : BitVec 2) (s u : State) (img : List Byte), s.canonical → s.advance t = u → u.awake = true →
    u.fld SVC_BOOTST_STATE = bsVERIFYING → u.image u.bootAddr (4 * mib) = img → imgFormatOk img (4 * mib) = true → imgCrcOk img = true →
    Runs (.imageVerifyDone t sigs true none none) s (fun w => w.fld SVC_BOOTST_STATE = bsRUNNING ∧ w.fld SVC_BOOTST_CODE = 0 ∧
      w.fld SVC_BOOTST_SLOT = 2 ∧ w.reg SVC_FWVER = BitVec.ofNat 32 (imgField img 8 4) ∧
      w.reg SVC_FWSEQ = BitVec.ofNat 32 (imgField img 0xC 4))) ∧
  (∀ (t : Nat) (wrseal sig ok : Bool) (data : List (BitVec 8)) (s u : State), s.canonical → s.advance t = u → u.svc.cmd = some 1 →
    u.awake = true → u.svc.stat = 0 → u.svc.tasks = [] →
    Runs (.mailboxCommandEnd t wrseal sig ok data) s (fun w => w.fld SVC_MBXCTL_STATUS = 0 ∧ w.on SVC_MBXCTL_BUSY = false ∧
      w.on SVC_MBXCTL_DONE = true ∧ w.svc.cmd = none))

/-- The protected operations (R409), with the authorisation's own states (R410). -/
def Obligations.AuthorisationProtects : Prop :=
  (∀ s : State, s.mbxJudge 5 = 0 → s.authOk 1 0 = true) ∧ (∀ s : State, s.mbxJudge 4 = 0 → s.authOk 2 0 = true) ∧
  (∀ s : State, s.mbxJudge 3 = 0 → s.authOk 3 (s.reqField 0 1) = true) ∧
  (∀ s : State, s.fwRuns = true → s.fld SVC_MBXCMD_LEN ≤ 256 → s.reqField 0 2 ≤ 63 → s.armed = false → s.authOk 1 0 = false → s.mbxJudge 5 = stsPROTECT) ∧
  (∀ s : State, s.fld SVC_MBXCMD_LEN ≤ 256 → s.reqField 0 8 + s.reqField 8 4 ≤ s.storeSize → 1 ≤ s.reqField 8 4 → s.reqField 8 4 ≤ 4 * mib → s.armed = false →
    s.authOk 2 0 = false → s.mbxJudge 4 = stsPROTECT) ∧
  (∀ (s : State) (op p : Nat), s.authOk op p = true ↔ s.fld SVC_ASTAT_STATE = auARMED ∧ s.fld SVC_ASTAT_OP = op ∧
    (op = 3 → s.fld SVC_ASTAT_PORT = p)) ∧
  (∀ s : State, s.mbxStart 4 = s.authUse.storeMerge) ∧
  (∀ s u : State, s.authUse = u → (∃ x, s.mbxStart 5 = u.setSvc x)) ∧
  (∀ s u v : State, s.authUse = u → u.storeMerge.storeTouchAll (s.reqField 1 8) 2336 = v →
    s.mbxStart 3 = v.setSvc { u.svc with page := true, pages := 0, nack := false, turn := false }) ∧
  (∀ (s : State) (refuse : State → Bool) (f : State → State),
    (s.authOk 4 0 = true → refuse s = false → s.override refuse f = (f s.authUse).readyShow) ∧
    (s.authOk 4 0 = false → s.override refuse f = s.refuse erPROTECT TWN_OVERRIDE)) ∧
  (∀ (s u w : State) (j : Nat) (v : Word) (hearth : Bool), s.setReg (TRM_CEIL j) (v &&& 0x3FFF#32) = u → s.trimCeil < u.trimCeil → u.authUse = w →
    (s.authOk 5 0 = true → (hearth = true → s.ceilBehind = false) → s.ceilWrite j v hearth =
      (w.tripCheck tripBitCeil (w.reg (TRM_CEIL 0)) (w.reg (TRM_CEIL 1)) (w.reg (TRM_CEIL 2))).retargetAll) ∧
    (s.authOk 5 0 = false ∨ (hearth = true ∧ s.ceilBehind = true) → s.ceilWrite j v hearth = s.refuse erPROTECT (TRM_CEIL j))) ∧
  (∀ (s : State) (x : Nat), x ≠ 0 → s.overBehind = true → s.overWrite x true = s.refuse erPROTECT TWN_OVERRIDE) ∧
  (∀ s : State, s.canonical → s.authUse.fld SVC_ASTAT_STATE = auIDLE ∧ s.authUse.on SVC_ASTAT_USED = true) ∧
  (∀ (t : Nat) (v : BitVec 32) (s u : State), s.canonical → s.advance t = u → u.barOk 17 = true →
    (1 ≤ bitsOf v.toNat 0 8 → bitsOf v.toNat 0 8 ≤ 5 → Runs (.svcArm t v) s (fun w => w.fld SVC_ASTAT_STATE = auWAITING ∧
      w.fld SVC_ASTAT_OP = bitsOf v.toNat 0 8 ∧ w.fld SVC_ASTAT_PORT = bitsOf v.toNat 8 6 ∧ w.fld SVC_ASTAT_REMAIN = 30 ∧
      w.timers = u.timers.set (fun _ => 0) tmAuth u.clk)) ∧
    (bitsOf v.toNat 0 8 = 0 → Runs (.svcArm t v) s (fun w => w.fld SVC_ASTAT_STATE = auIDLE)) ∧
    (6 ≤ bitsOf v.toNat 0 8 → Runs (.svcArm t v) s (fun w => w.reg SVC_ASTAT = u.reg SVC_ASTAT))) ∧
  (∀ (t : Nat) (s u : State), s.advance t = u →
    (u.fld SVC_ASTAT_STATE ≠ auIDLE → u.timers.get (fun _ => 0) tmAuth + u.authWindow < u.clk →
      exec (.authorisationLapse t) s = .next (u.authIdle.setOn SVC_ASTAT_LAPSED)) ∧
    ((u.fld SVC_ASTAT_STATE = auIDLE ∨ u.clk ≤ u.timers.get (fun _ => 0) tmAuth + u.authWindow) → exec (.authorisationLapse t) s = .next u))
end

