-- ==== Sys2Proof/Laws/Bits.lean ====
section
/-! SUPPORT. A bit field of a register word reads back what was put into it, and the fields beside it stand. -/

namespace Sys2Proof.Machine

/-- Bit `i` of a field is bit `lo + i` of the number. -/
theorem testBit_bitsOf (v lo w i : Nat) : (bitsOf v lo w).testBit i = (decide (i < w) && v.testBit (lo + i)) := by
  unfold bitsOf
  rw [Nat.testBit_mod_two_pow, Nat.testBit_shiftRight]

/-- Bit `i` of a word with a field replaced. -/
theorem getLsbD_putBits (v : Word) (lo w x i : Nat) (h : lo + w ≤ 32) :
    (putBits v lo w x).getLsbD i = if lo ≤ i ∧ i < lo + w then x.testBit (i - lo) else v.getLsbD i := by
  unfold putBits
  have hw : 2 ^ w - 1 = 2 ^ w - 1 := rfl
  by_cases hi : i < 32
  · simp only [BitVec.getLsbD_or, BitVec.getLsbD_and, BitVec.getLsbD_not, BitVec.getLsbD_ofNat, hi, Nat.testBit_shiftLeft,
      Nat.testBit_two_pow_sub_one, Nat.testBit_mod_two_pow, decide_true, Bool.true_and]
    by_cases h1 : lo ≤ i
    · by_cases h2 : i < lo + w
      · have h3 : i - lo < w := by omega
        simp [h1, h2, h3]
      · have h3 : ¬ i - lo < w := by omega
        simp [h1, h2, h3]
    · simp [h1]
  · have h1 : ¬ (lo ≤ i ∧ i < lo + w) := by omega
    rw [if_neg h1, BitVec.getLsbD_of_ge _ _ (by omega), BitVec.getLsbD_of_ge _ _ (by omega)]

/-- A field reads back what was put into it, cut to its width. -/
theorem bitsOf_putBits (v : Word) (lo w x : Nat) (h : lo + w ≤ 32) :
    bitsOf (putBits v lo w x).toNat lo w = x % 2 ^ w := by
  apply Nat.eq_of_testBit_eq
  intro i
  rw [testBit_bitsOf, Nat.testBit_mod_two_pow]
  by_cases hi : i < w
  · have := getLsbD_putBits v lo w x (lo + i) h
    rw [BitVec.getLsbD] at this
    rw [this, if_pos (by omega), Nat.add_sub_cancel_left]
  · simp [hi]

/-- A field beside the one replaced stands. -/
theorem bitsOf_putBits_beside (v : Word) (lo w x lo' w' : Nat) (hd : lo + w ≤ lo' ∨ lo' + w' ≤ lo) (h : lo + w ≤ 32) :
    bitsOf (putBits v lo w x).toNat lo' w' = bitsOf v.toNat lo' w' := by
  apply Nat.eq_of_testBit_eq
  intro i
  rw [testBit_bitsOf, testBit_bitsOf]
  by_cases hi : i < w'
  · have := getLsbD_putBits v lo w x (lo' + i) h
    rw [BitVec.getLsbD, BitVec.getLsbD] at this
    rw [this, if_neg (by omega)]
  · simp [hi]

end Sys2Proof.Machine
end

