-- ==== Sys2Proof/Laws/SMap.lean ====
section
/-! SUPPORT. Laws of sparse storage: what a write leaves readable, and that every operation keeps the canonical form. -/

namespace Sys2Proof.Machine

variable {α : Type} [DecidableEq α] {d : Nat → α}

/-- In a canonical map a key below the first one reads as an unlisted key. -/
theorem SMap.get_below : ∀ {m : SMap α} {lo k : Nat}, SMap.wfFrom d lo m = true → k < lo → SMap.get d m k = d k
  | [], _, _, _, _ => rfl
  | (k', v) :: m, lo, k, h, hk => by
    simp only [SMap.wfFrom, Bool.and_eq_true, decide_eq_true_eq] at h
    have hne : k ≠ k' := by omega
    simp only [SMap.get, if_neg hne]
    exact SMap.get_below h.2 (by omega)

/-- A read after a write to another key. -/
theorem SMap.get_set_ne : ∀ (m : SMap α) {k k' : Nat} (v : α), k' ≠ k → SMap.get d (SMap.set d m k v) k' = SMap.get d m k'
  | [], k, k', v, h => by
    unfold SMap.set
    split <;> simp [SMap.get, h]
  | (k₁, v₁) :: m, k, k', v, h => by
    have ih := SMap.get_set_ne m v h
    unfold SMap.set
    repeat' split
    all_goals simp_all [SMap.get]

/-- A read after a write to the same key of a canonical map. -/
theorem SMap.get_set_eq : ∀ {m : SMap α} {lo : Nat} (k : Nat) (v : α), SMap.wfFrom d lo m = true →
    SMap.get d (SMap.set d m k v) k = v
  | [], _, k, v, _ => by
    unfold SMap.set
    split <;> simp_all [SMap.get]
  | (k₁, v₁) :: m, lo, k, v, h => by
    have h' := h
    simp only [SMap.wfFrom, Bool.and_eq_true, decide_eq_true_eq] at h
    unfold SMap.set
    split
    · split
      · rename_i h1 h2
        have hne : k ≠ k₁ := by omega
        simp only [SMap.get, if_neg hne]
        rw [SMap.get_below h.2 (by omega), h2]
      · simp [SMap.get]
    · split
      · split
        · rename_i h1 h2 h3
          rw [SMap.get_below h.2 (by omega), h3]
        · simp [SMap.get]
      · rename_i h1 h2
        simp only [SMap.get, if_neg h2]
        exact SMap.get_set_eq k v h.2

/-- A lower bound may be lowered. -/
theorem SMap.wfFrom_mono {lo lo' : Nat} (m : SMap α) (hl : lo' ≤ lo) (h : SMap.wfFrom d lo m = true) : SMap.wfFrom d lo' m = true := by
  cases m with
  | nil => rfl
  | cons a m =>
    simp only [SMap.wfFrom, Bool.and_eq_true, decide_eq_true_eq] at h ⊢
    exact ⟨⟨by omega, h.1.2⟩, h.2⟩

/-- A write keeps the canonical form. -/
theorem SMap.wfFrom_set : ∀ (m : SMap α) {lo : Nat} (k : Nat) (v : α), SMap.wfFrom d lo m = true → lo ≤ k →
    SMap.wfFrom d lo (SMap.set d m k v) = true
  | [], _, k, v, _, hk => by
    unfold SMap.set
    split <;> simp_all [SMap.wfFrom]
  | (k₁, v₁) :: m, lo, k, v, h, hk => by
    have h' := h
    simp only [SMap.wfFrom, Bool.and_eq_true, decide_eq_true_eq] at h
    unfold SMap.set
    split
    · split
      · exact h'
      · rename_i h1 h2
        simp only [SMap.wfFrom, Bool.and_eq_true, decide_eq_true_eq]
        exact ⟨⟨hk, h2⟩, ⟨by omega, h.1.2⟩, h.2⟩
    · split
      · rename_i h1 h2
        split
        · exact SMap.wfFrom_mono m (by omega) h.2
        · rename_i h3
          simp only [SMap.wfFrom, Bool.and_eq_true, decide_eq_true_eq]
          exact ⟨⟨hk, h3⟩, by subst h2; exact h.2⟩
      · simp only [SMap.wfFrom, Bool.and_eq_true, decide_eq_true_eq]
        exact ⟨h.1, SMap.wfFrom_set m k v h.2 (by omega)⟩

/-- Removing keys keeps the canonical form. -/
theorem SMap.wfFrom_drop (p : Nat → Bool) : ∀ (m : SMap α) {lo : Nat}, SMap.wfFrom d lo m = true → SMap.wfFrom d lo (SMap.drop p m) = true
  | [], _, _ => rfl
  | (k, v) :: m, lo, h => by
    simp only [SMap.wfFrom, Bool.and_eq_true, decide_eq_true_eq] at h
    have ih := SMap.wfFrom_drop p m h.2
    unfold SMap.drop at ih ⊢
    by_cases hp : p k
    · simp only [List.filter, hp, Bool.not_true]
      exact SMap.wfFrom_mono _ (by omega) ih
    · simp only [List.filter, hp, Bool.not_false, SMap.wfFrom, Bool.and_eq_true, decide_eq_true_eq]
      exact ⟨h.1, ih⟩

/-- A key that is not removed reads as before. -/
theorem SMap.get_drop_keep (p : Nat → Bool) : ∀ (m : SMap α) {k : Nat}, p k = false → SMap.get d (SMap.drop p m) k = SMap.get d m k
  | [], _, _ => rfl
  | (k₁, v₁) :: m, k, h => by
    have ih := SMap.get_drop_keep p m h
    unfold SMap.drop at ih ⊢
    by_cases hp : p k₁
    · simp only [List.filter, hp, Bool.not_true]
      have hne : k ≠ k₁ := by intro e; subst e; simp [h] at hp
      simpa [SMap.get, hne] using ih
    · simp only [List.filter, hp, Bool.not_false, SMap.get]
      split <;> simp_all

/-- A removed key reads as an unlisted one. -/
theorem SMap.get_drop_gone (p : Nat → Bool) : ∀ (m : SMap α) {k : Nat}, p k = true → SMap.get d (SMap.drop p m) k = d k
  | [], _, _ => rfl
  | (k₁, v₁) :: m, k, h => by
    have ih := SMap.get_drop_gone p m h
    unfold SMap.drop at ih ⊢
    by_cases hp : p k₁
    · simp only [List.filter, hp, Bool.not_true]
      exact ih
    · simp only [List.filter, hp, Bool.not_false, SMap.get]
      have hne : k ≠ k₁ := by intro e; subst e; exact hp h
      simpa [hne] using ih

@[simp] theorem SMap.wf_nil : SMap.wf d [] = true := rfl

@[simp] theorem SMap.wf_set {m : SMap α} {k : Nat} {v : α} (h : SMap.wf d m = true) : SMap.wf d (SMap.set d m k v) = true :=
  SMap.wfFrom_set m k v h (Nat.zero_le k)

@[simp] theorem SMap.wf_drop {m : SMap α} {p : Nat → Bool} (h : SMap.wf d m = true) : SMap.wf d (SMap.drop p m) = true :=
  SMap.wfFrom_drop p m h

end Sys2Proof.Machine
end

