-- ==== Sys2Proof/Laws/Kept.lean ====
section
/-! SUPPORT. What every operation keeps: registers, configuration space and memories in their canonical form, the queue, and the serial
number. The Kept files of this folder say so of each operation, file by file; a prover cites them and never unfolds. -/

namespace Sys2Proof.Machine

open Sys2Proof

/-- `s` continues `base`: registers and memories are canonical, queue and serial number are those of `base`, time and
the count of free values have not gone back, and what `base` had sent stands. -/
def State.kept (base s : State) : Prop :=
  SMap.wf regReset s.regs = true ∧ s.tabs.wf = true ∧ SMap.wf (fun _ => 0#32) s.otp = true ∧
  SMap.wf (fun _ => 0) s.headMem = true ∧ SMap.wf cfgReset s.cfg = true ∧ s.pending = base.pending ∧ s.serial = base.serial ∧
  base.clk ≤ s.clk ∧ base.freeCtr ≤ s.freeCtr ∧ base.out <+: s.out ∧ base.sent <+: s.sent

/-- A canonical state continues itself. -/
theorem State.canonical.kept {s : State} (h : s.canonical) : State.kept s s :=
  ⟨h.1, h.2.1, h.2.2.1, h.2.2.2.1, h.2.2.2.2, rfl, rfl, Nat.le_refl _, Nat.le_refl _, List.prefix_refl _, List.prefix_refl _⟩

/-- What continues another state is canonical. -/
theorem State.kept.canonical {base s : State} (h : State.kept base s) : s.canonical :=
  ⟨h.1, h.2.1, h.2.2.1, h.2.2.2.1, h.2.2.2.2.1⟩

variable {base : State}

/-- An update of the other fields changes nothing of what is kept. -/
@[simp] theorem State.kept_mk (s : State) (readData : BitVec 64) (timers : SMap Nat) (readEP : Bool) (alarms : BitVec 64) (times : Times) (hostIf :
    HostIf) (streams : SMap Stream) (bands : SMap Band) (bandSeq : Nat) (ubase : SMap Word) (uops : List UOp)
    (heads : SMap Head) (trims : Trims) (pos : Pos) (fir : Fir) (splice : Splice) (cord : Cord) (evts : SMap Evt)
    (portQ : List PortReq) (kiln : Kiln) (insp : Insp) (refs : List RefRow) (refNext : SMap Nat) (buses :
    SMap Nat) (power : Power) (svc : Svc)
    (flashA flashB stokerMem engineMem : List Byte) (twin : Twin) :
    State.kept base ⟨s.pending, s.clk, s.freeCtr, readData, timers, readEP, s.regs, s.cfg, alarms, s.out, times, hostIf, streams, bands,
      bandSeq, ubase, uops, heads, trims, s.otp, pos, fir, splice, cord, s.sent, evts, portQ, s.tabs, kiln, insp,
      refs, refNext, buses, s.headMem, power, svc, flashA, flashB, stokerMem, engineMem, twin, s.serial⟩ ↔ State.kept base s :=
  ⟨id, id⟩

/-- Tables in canonical form, part by part. -/
theorem Tables.wf_iff (t : Tables) : t.wf = true ↔
    t.ents.wf (fun _ => NEnt.fill) = true ∧ t.shadow.wf (fun _ => fillWord) = true ∧ t.curves.wf (fun _ => zeroWord) = true ∧
    t.cstate.wf (fun _ => Curve.fill) = true ∧ t.mtx.wf (fun _ => onesWord) = true ∧ t.merge.wf (fun _ => none) = true ∧
    t.ff.wf (fun _ => ffFill) = true ∧ t.store.wf (fun _ => none) = true ∧ t.lat.wf (fun _ => zeroWord) = true ∧
    t.retn.wf (fun _ => zeroWord) = true ∧
    t.cshadow.wf (fun _ => zeroWord) = true ∧ t.mshadow.wf (fun _ => onesWord) = true ∧ t.codes.wf (fun _ => zeroWord) = true ∧
    t.hsram.wf (fun _ => zeroWord) = true := by
  simp [Tables.wf]

/-- An update of what is no memory changes nothing of the memories' form. -/
@[simp] theorem Tables.wf_mk (t : Tables) (mapOut : List Nat) (latch : Option Narrow) (latchErr : Flaw) (stale : List (Nat × Nat)) (reload acted : List Nat)
    (scan : Bool) (results : List (Nat × Nat)) :
    Tables.wf ⟨t.ents, t.shadow, t.cshadow, t.mshadow, t.curves, t.cstate, t.mtx, t.codes, mapOut, latch, latchErr, t.merge, t.ff, t.store, t.lat, stale, t.retn, t.hsram, reload,
      acted, scan, results⟩ = t.wf := by
  unfold Tables.wf; exact Eq.refl _

/-- Other tables in canonical form. -/
theorem State.kept.withTabs {s : State} (h : State.kept base s) {t : Tables} (ht : t.wf = true) :
    State.kept base { s with tabs := t } := ⟨h.1, ht, h.2.2⟩

/-- A write of an OTP word beside them. -/
@[simp] theorem State.kept_otp (s : State) (readData : BitVec 64) (timers : SMap Nat) (readEP : Bool) (alarms : BitVec 64) (times : Times) (hostIf :
    HostIf) (streams : SMap Stream) (bands : SMap Band) (bandSeq : Nat) (ubase : SMap Word) (uops : List UOp)
    (heads : SMap Head) (trims : Trims) (pos : Pos) (fir : Fir) (splice : Splice) (cord : Cord) (evts : SMap Evt)
    (portQ : List PortReq) (kiln : Kiln) (insp : Insp) (refs : List RefRow) (refNext : SMap Nat) (buses :
    SMap Nat) (power : Power) (svc : Svc)
    (flashA flashB stokerMem engineMem : List Byte) (twin : Twin)
    (k : Nat) (v : Word) (hw : State.kept base s) :
    State.kept base ⟨s.pending, s.clk, s.freeCtr, readData, timers, readEP, s.regs, s.cfg, alarms, s.out, times, hostIf, streams, bands,
      bandSeq, ubase, uops, heads, trims, SMap.set (fun _ => 0#32) s.otp k v, pos, fir, splice, cord, s.sent, evts, portQ, s.tabs, kiln, insp,
      refs, refNext, buses, s.headMem, power, svc, flashA, flashB, stokerMem, engineMem, twin, s.serial⟩ :=
  ⟨hw.1, hw.2.1, SMap.wf_set hw.2.2.1, hw.2.2.2⟩

/-- Other tables in canonical form beside them. -/
theorem State.kept_tabs (s : State) (readData : BitVec 64) (timers : SMap Nat) (readEP : Bool) (alarms : BitVec 64) (times : Times) (hostIf :
    HostIf) (streams : SMap Stream) (bands : SMap Band) (bandSeq : Nat) (ubase : SMap Word) (uops : List UOp)
    (heads : SMap Head) (trims : Trims) (pos : Pos) (fir : Fir) (splice : Splice) (cord : Cord) (evts : SMap Evt)
    (portQ : List PortReq) (kiln : Kiln) (insp : Insp) (refs : List RefRow) (refNext : SMap Nat) (buses :
    SMap Nat) (power : Power) (svc : Svc)
    (flashA flashB stokerMem engineMem : List Byte) (twin : Twin)
    (t : Tables) (hw : State.kept base s) (ht : s.tabs.wf = true → t.wf = true) :
    State.kept base ⟨s.pending, s.clk, s.freeCtr, readData, timers, readEP, s.regs, s.cfg, alarms, s.out, times, hostIf, streams, bands,
      bandSeq, ubase, uops, heads, trims, s.otp, pos, fir, splice, cord, s.sent, evts, portQ, t, kiln, insp,
      refs, refNext, buses, s.headMem, power, svc, flashA, flashB, stokerMem, engineMem, twin, s.serial⟩ :=
  ⟨hw.1, ht hw.2.1, hw.2.2⟩

/-- The tables keep their form through a reset that drops what waits. -/
theorem Tables.wf_quiet {t : Tables} (h : t.wf = true) : t.quiet.wf = true := by
  rw [Tables.wf_iff] at *
  obtain ⟨h1, h2, h3, h4, h5, h6, h7, h8, h9, h10, h11, h12, h13, h14⟩ := h
  exact ⟨h1, h2, h3, h4, h5, rfl, h7, h8, h9, h10, h11, h12, h13, h14⟩

theorem Tables.wf_quietKln {t : Tables} (h : t.wf = true) : t.quietKln.wf = true := by
  rw [Tables.wf_iff] at *
  obtain ⟨h1, h2, h3, h4, h5, h6, h7, h8, h9, h10, h11, h12, h13, h14⟩ := h
  exact ⟨h1, h2, h3, h4, h5, SMap.wf_set h6, h7, h8, h9, h10, h11, h12, h13, h14⟩

/-- The tables keep their form through the fill of the on-chip memories. -/
theorem Tables.wf_filled {t : Tables} (h : t.wf = true) : t.filled.wf = true := by
  rw [Tables.wf_iff] at *
  obtain ⟨h1, h2, h3, h4, h5, h6, h7, h8, h9, h10, h11, h12, h13, h14⟩ := h
  exact ⟨rfl, rfl, rfl, rfl, rfl, rfl, rfl, h8, h9, h10, rfl, rfl, rfl, h14⟩

/-- The tables keep their form when Hearth private SRAM holds other words in canonical form. -/
theorem Tables.wf_hsram {t : Tables} (h : t.wf = true) {m : SMap MWord} (hm : m.wf (fun _ => zeroWord) = true) :
    ({ t with hsram := m } : Tables).wf = true := by
  rw [Tables.wf_iff] at *
  obtain ⟨h1, h2, h3, h4, h5, h6, h7, h8, h9, h10, h11, h12, h13, h14⟩ := h
  exact ⟨h1, h2, h3, h4, h5, h6, h7, h8, h9, h10, h11, h12, h13, hm⟩

/-- A fold of updates that keep a map's form keeps it. -/
theorem smap_foldl {α β : Type} [DecidableEq α] {d : Nat → α} {f : SMap α → β → SMap α} (l : List β) {m : SMap α}
    (h : m.wf d = true) (hf : ∀ m x, SMap.wf d m = true → SMap.wf d (f m x) = true) : SMap.wf d (l.foldl f m) = true := by
  induction l generalizing m with
  | nil => exact h
  | cons a l ih => exact ih (hf m a h)

/-- Either branch keeps what it must. -/
@[simp] theorem kept_ite {c : Prop} [Decidable c] {a b : State} (ha : State.kept base a)
    (hb : State.kept base b) : State.kept base (if c then a else b) := by split <;> assumption

/-- A fold of steps that keep it keeps it. -/
@[simp] theorem kept_foldl {β : Type} {f : State → β → State} (l : List β) {s : State} (h : State.kept base s)
    (hf : ∀ s x, State.kept base s → State.kept base (f s x)) : State.kept base (l.foldl f s) := by
  induction l generalizing s with
  | nil => exact h
  | cons a l ih => exact ih (hf s a h)

end Sys2Proof.Machine
end

