-- ==== Sys2Proof/Laws/KeptOps.lean ====
section
/-! SUPPORT. Every operation of Machine/Ops.lean keeps registers and memories in their canonical form, the queue and the serial number. -/

namespace Sys2Proof.Machine

variable {base : State}

@[simp] theorem State.setReg_kept (s : State) (a : Nat) (v : Word) (hw : State.kept base s) :
    State.kept base (State.setReg s a v) := ⟨SMap.wf_set hw.1, hw.2⟩

@[simp] theorem State.setFld_kept (s : State) (f : Fld) (x : Nat) (hw : State.kept base s) :
    State.kept base (State.setFld s f x) := by simp (maxDischargeDepth := 60) [State.setFld, hw]

@[simp] theorem State.setOn_kept (s : State) (f : Fld) (hw : State.kept base s) :
    State.kept base (State.setOn s f) := by simp (maxDischargeDepth := 60) [State.setOn, hw]

@[simp] theorem State.setBit_kept (s : State) (f : Fld) (b : Bool) (hw : State.kept base s) :
    State.kept base (State.setBit s f b) := by simp (maxDischargeDepth := 60) [State.setBit, hw]

@[simp] theorem State.count_kept (s : State) (f : Fld) (n : Nat) (hw : State.kept base s) :
    State.kept base (State.count s f n) := by simp (maxDischargeDepth := 60) [State.count, hw]

@[simp] theorem State.countReg_kept (s : State) (a : Nat) (n : Nat) (hw : State.kept base s) :
    State.kept base (State.countReg s a n) := by simp (maxDischargeDepth := 60) [State.countReg, hw]

@[simp] theorem State.resetRange_kept (s : State) (lo hi : Nat) (hw : State.kept base s) :
    State.kept base (State.resetRange s lo hi) := by
  unfold State.resetRange
  refine ⟨?_, hw.2⟩
  simp [hw.1]

@[simp] theorem State.setReg64_kept (s : State) (lo hi v : Nat) (hw : State.kept base s) :
    State.kept base (State.setReg64 s lo hi v) := by simp (maxDischargeDepth := 60) [State.setReg64, hw]

@[simp] theorem State.recordAt_kept (s : State) (e code a : Nat) (hw : State.kept base s) :
    State.kept base (State.recordAt s e code a) := by
  unfold State.recordAt
  repeat' split
  all_goals simp (maxDischargeDepth := 60) +contextual [*]

@[simp] theorem State.refuse_kept (s : State) (code a : Nat) (hw : State.kept base s) :
    State.kept base (State.refuse s code a) := by
  unfold State.refuse
  repeat' split
  all_goals simp (maxDischargeDepth := 60) +contextual [*]

@[simp] theorem State.unitErr_kept (s : State) (code unit : Nat) (hw : State.kept base s) :
    State.kept base (State.unitErr s code unit) := by simp (maxDischargeDepth := 60) [State.unitErr, hw]

@[simp] theorem State.swsErr_kept (s : State) (code part : Nat) (hw : State.kept base s) :
    State.kept base (State.swsErr s code part) := by simp (maxDischargeDepth := 60) [State.swsErr, hw]

@[simp] theorem State.nztErr_kept (s : State) (code index writer : Nat) (hw : State.kept base s) :
    State.kept base (State.nztErr s code index writer) := by simp (maxDischargeDepth := 60) [State.nztErr, hw]

@[simp] theorem State.tbMove_kept (s : State) (dt b : Nat) (hw : State.kept base s) :
    State.kept base (State.tbMove s dt b) := by simp (maxDischargeDepth := 60) [State.tbMove, hw]

@[simp] theorem State.startTimer_kept (s : State) (k : Nat) (hw : State.kept base s) :
    State.kept base (State.startTimer s k) := by simp (maxDischargeDepth := 60) [State.startTimer, hw]

@[simp] theorem State.alarm_kept (s : State) (i : Nat) (hw : State.kept base s) :
    State.kept base (State.alarm s i) := by simp (maxDischargeDepth := 60) [State.alarm, hw]

@[simp] theorem State.draw_kept (s : State) (hw : State.kept base s) : State.kept base s.draw.2 := by
  obtain ⟨k1, k2, k3, k4, k5, k6, k7, k8, k9, k10⟩ := hw
  exact ⟨k1, k2, k3, k4, k5, k6, k7, k8, Nat.le_succ_of_le k9, k10⟩

@[simp] theorem State.emit_kept (s : State) (addr : Nat) (bytes : List Byte) (poison : Bool) (hw : State.kept base s) :
    State.kept base (State.emit s addr bytes poison) := by
  obtain ⟨k1, k2, k3, k4, k5, k6, k7, k8, k9, k10, k11⟩ := hw
  exact ⟨k1, k2, k3, k4, k5, k6, k7, k8, k9, k10.trans (List.prefix_append _ _), k11⟩

@[simp] theorem State.sendFrame_kept (s : State) (link kind : Nat) (body : List Nat) (hw : State.kept base s) :
    State.kept base (State.sendFrame s link kind body) := by
  obtain ⟨k1, k2, k3, k4, k5, k6, k7, k8, k9, k10, k11⟩ := hw
  exact ⟨k1, k2, k3, k4, k5, k6, k7, k8, k9, k10, k11.trans (List.prefix_append _ _)⟩

@[simp] theorem State.bar_kept (s : State) (blk : Nat) (f : State → State) (hw : State.kept base s) (hf : ∀ s : State, State.kept base s → State.kept base (f s)) :
    State.kept base (State.bar s blk f) := by
  unfold State.bar
  repeat' split
  all_goals simp (maxDischargeDepth := 60) +contextual [*]

@[simp] theorem State.barRead_kept (s : State) (blk a : Nat) (f : State → State) (hw : State.kept base s) (hf : ∀ s : State, State.kept base s → State.kept base (f s)) :
    State.kept base (State.barRead s blk a f) := by
  unfold State.barRead
  repeat' split
  all_goals simp (maxDischargeDepth := 60) +contextual [*]

@[simp] theorem State.portAdd_kept (s : State) (r : PortReq) (hw : State.kept base s) :
    State.kept base (State.portAdd s r) := by simp (maxDischargeDepth := 60) [State.portAdd, hw]

@[simp] theorem State.portPut_kept (s : State) (src : PortSrc) (bytes : List Byte) (expect : Option Nat) (hw : State.kept base s) :
    State.kept base (State.portPut s src bytes expect) := by simp (maxDischargeDepth := 60) [State.portPut, hw]

@[simp] theorem State.setInsp_kept (s : State) (x : Insp) (hw : State.kept base s) :
    State.kept base (State.setInsp s x) := by simp (maxDischargeDepth := 60) [State.setInsp, hw]

@[simp] theorem State.byWriter_kept (s : State) (hearth : Bool) (f : State → State) (hw : State.kept base s) (hf : ∀ s : State, State.kept base s → State.kept base (f s)) :
    State.kept base (State.byWriter s hearth f) := by simp (maxDischargeDepth := 60) [State.byWriter, hw, hf]

end Sys2Proof.Machine
end

