-- ==== Sys2Proof/Laws/KeptTimeOps.lean ====
section
/-! SUPPORT. Every operation of Machine/TimeOps.lean keeps registers and memories in their canonical form, the queue and the serial number. -/

namespace Sys2Proof.Machine

variable {base : State}

@[simp] theorem State.setEvt_kept (s : State) (n : Nat) (e : Evt) (hw : State.kept base s) :
    State.kept base (State.setEvt s n e) := by simp (maxDischargeDepth := 60) [State.setEvt, hw]

@[simp] theorem State.evtShow_kept (s : State) (n : Nat) (hw : State.kept base s) :
    State.kept base (State.evtShow s n) := by simp (maxDischargeDepth := 60) [State.evtShow, hw]

@[simp] theorem State.evtPulse_kept (s : State) (n w : Nat) (hw : State.kept base s) :
    State.kept base (State.evtPulse s n w) := by simp (maxDischargeDepth := 60) [State.evtPulse, hw]

@[simp] theorem State.evtOver_kept (s : State) (n : Nat) (hw : State.kept base s) :
    State.kept base (State.evtOver s n) := by simp (maxDischargeDepth := 60) [State.evtOver, hw]

@[simp] theorem State.evtCatch_kept (s : State) (n : Nat) (hw : State.kept base s) :
    State.kept base (State.evtCatch s n) := by simp (maxDischargeDepth := 60) [State.evtCatch, hw]

@[simp] theorem State.evtStepped_kept (s : State) (b : Nat) (hw : State.kept base s) :
    State.kept base (State.evtStepped s b) := by simp (maxDischargeDepth := 60) +contextual [State.evtStepped, hw]

@[simp] theorem State.schedStepped_kept (old s : State) (hw : State.kept base s) :
    State.kept base (State.schedStepped old s) := by simp (maxDischargeDepth := 60) [State.schedStepped, hw]

@[simp] theorem State.tbPut_kept (s : State) (b acc : Nat) (hw : State.kept base s) :
    State.kept base (State.tbPut s b acc) := by simp (maxDischargeDepth := 60) [State.tbPut, hw]

@[simp] theorem State.tbStep_kept (s : State) (b : Nat) (v : Word) (hw : State.kept base s) :
    State.kept base (State.tbStep s b v) := by simp (maxDischargeDepth := 60) [State.tbStep, hw]

@[simp] theorem State.timSnap_kept (s : State) (src : Nat) (hw : State.kept base s) :
    State.kept base (State.timSnap s src) := by simp (maxDischargeDepth := 60) +contextual [State.timSnap, hw]

@[simp] theorem State.evtOwn_kept (s : State) (n o : Nat) (hw : State.kept base s) :
    State.kept base (State.evtOwn s n o) := by simp (maxDischargeDepth := 60) [State.evtOwn, hw]

@[simp] theorem State.noteSeen_kept (s : State) (hw : State.kept base s) :
    State.kept base (State.noteSeen s) := by simp (maxDischargeDepth := 60) [State.noteSeen, hw]

/-- Time goes on to a clock that is not before the present one. -/
theorem State.goOn_kept (s0 : State) (t : Nat) (hw : State.kept base s0) (ht : s0.clk ≤ t) : State.kept base (s0.goOn t) := by
  have hc : base.clk ≤ s0.clk := hw.2.2.2.2.2.2.2.1
  unfold State.goOn
  extract_lets s dt frc s1 s2 tm
  have h0 : State.kept base s := by simp (maxDischargeDepth := 60) [s, hw]
  have h1 : State.kept base s1 := by simp (maxDischargeDepth := 60) [s1, h0]
  have h2 : State.kept base s2 := by simp only [s2]; split <;> simp [h1]
  obtain ⟨k1, k2, k3, k4, k5, k6, k7, k8, k9⟩ := h2
  exact ⟨k1, k2, k3, k4, k5, k6, k7, by dsimp only; omega, k9⟩

@[simp] theorem State.takeSteps_kept (s : State) (hw : State.kept base s) :
    State.kept base (State.takeSteps s) := by
  unfold State.takeSteps
  exact kept_foldl _ (by simp (maxDischargeDepth := 60) [hw]) (fun t kv ht => by simp (maxDischargeDepth := 60) [ht])

@[simp] theorem State.standing_kept (s : State) (a : Nat) (hw : State.kept base s) :
    State.kept base (State.standing s a) := by simp (maxDischargeDepth := 60) [State.standing, hw]

@[simp] theorem State.advance_kept (s : State) (t : Nat) (hw : State.kept base s) :
    State.kept base (State.advance s t) := by
  unfold State.advance
  split
  · exact hw
  · extract_lets s1
    have h1 : State.kept base s1 := by
      simp only [s1]
      split
      · exact hw
      · exact State.takeSteps_kept _ (State.goOn_kept s _ hw (Nat.le_succ _))
    split
    · exact h1
    · exact State.goOn_kept s1 t h1 (by omega)

@[simp] theorem State.tick_kept (s : State) (hw : State.kept base s) :
    State.kept base (State.tick s) := by simp (maxDischargeDepth := 60) [State.tick, hw]

end Sys2Proof.Machine
end

