-- ==== Sys2Proof/Laws/KeptTiming.lean ====
section
/-! SUPPORT. Every operation of Machine/Timing.lean keeps registers and memories in their canonical form, the queue and the serial number. -/

namespace Sys2Proof.Machine

variable {base : State}

@[simp] theorem State.timSet_kept (s : State) (b : Nat) (v : Word) (hw : State.kept base s) :
    State.kept base (State.timSet s b v) := by simp (maxDischargeDepth := 60) [State.timSet, hw]

@[simp] theorem State.timAdj_kept (s : State) (b : Nat) (v : Word) (hw : State.kept base s) :
    State.kept base (State.timAdj s b v) := by simp (maxDischargeDepth := 60) [State.timAdj, hw]

@[simp] theorem State.frcRead_kept (s : State) (hw : State.kept base s) :
    State.kept base (State.frcRead s) := by simp (maxDischargeDepth := 60) [State.frcRead, hw]

@[simp] theorem State.frcClear_kept (s : State) (hw : State.kept base s) :
    State.kept base (State.frcClear s) := by simp (maxDischargeDepth := 60) [State.frcClear, hw]

@[simp] theorem State.evtOwnerWrite_kept (s : State) (n o : Nat) (hearth : Bool) (hw : State.kept base s) :
    State.kept base (State.evtOwnerWrite s n o hearth) := by simp (maxDischargeDepth := 60) [State.evtOwnerWrite, hw]

@[simp] theorem State.evtStart_kept (s : State) (n : Nat) (hw : State.kept base s) :
    State.kept base (State.evtStart s n) := by simp (maxDischargeDepth := 60) [State.evtStart, hw]

@[simp] theorem State.evtStopNow_kept (s : State) (n : Nat) (hw : State.kept base s) :
    State.kept base (State.evtStopNow s n) := by simp (maxDischargeDepth := 60) [State.evtStopNow, hw]

@[simp] theorem State.evtDue_kept (s : State) (n : Nat) (hw : State.kept base s) :
    State.kept base (State.evtDue s n) := by simp (maxDischargeDepth := 60) [State.evtDue, hw]

@[simp] theorem State.evtEnd_kept (s : State) (n : Nat) (hw : State.kept base s) :
    State.kept base (State.evtEnd s n) := by simp (maxDischargeDepth := 60) [State.evtEnd, hw]

end Sys2Proof.Machine
end

