-- ==== Sys2Proof/Laws/KeptVote.lean ====
section
/-! SUPPORT. Every operation of Machine/Vote.lean keeps registers and memories in their canonical form, the queue and the serial number. -/

namespace Sys2Proof.Machine

variable {base : State}

@[simp] theorem State.tripCheck_kept (s : State) (k : Nat) (a b c : Word) (hw : State.kept base s) :
    State.kept base (State.tripCheck s k a b c) := by simp (maxDischargeDepth := 60) [State.tripCheck, hw]

@[simp] theorem State.tripAll_kept (s : State) (hw : State.kept base s) :
    State.kept base (State.tripAll s) := by simp (maxDischargeDepth := 60) +contextual [State.tripAll, hw]

end Sys2Proof.Machine
end

