-- ==== Sys2Proof/Laws/KeptTrimOps.lean ====
section
/-! SUPPORT. Every operation of Machine/TrimOps.lean keeps registers and memories in their canonical form, the queue and the serial number. -/

namespace Sys2Proof.Machine

variable {base : State}

@[simp] theorem State.setHead_kept (s : State) (h : Nat) (x : Head) (hw : State.kept base s) :
    State.kept base (State.setHead s h x) := by simp (maxDischargeDepth := 60) [State.setHead, hw]

@[simp] theorem State.modHead_kept (s : State) (h : Nat) (f : Head → Head) (hw : State.kept base s) :
    State.kept base (State.modHead s h f) := by simp (maxDischargeDepth := 60) [State.modHead, hw]

@[simp] theorem State.setSettled_kept (s : State) (n : Nat) (b : Bool) (hw : State.kept base s) :
    State.kept base (State.setSettled s n b) := by simp (maxDischargeDepth := 60) [State.setSettled, hw]

@[simp] theorem State.trimSettle_kept (s : State) (n : Nat) (hw : State.kept base s) :
    State.kept base (State.trimSettle s n) := by simp (maxDischargeDepth := 60) [State.trimSettle, hw]

@[simp] theorem State.retarget_kept (s : State) (n : Nat) (hw : State.kept base s) :
    State.kept base (State.retarget s n) := by simp (maxDischargeDepth := 60) [State.retarget, hw]

@[simp] theorem State.setWant_kept (s : State) (n : Nat) (c : Int) (hw : State.kept base s) :
    State.kept base (State.setWant s n c) := by simp (maxDischargeDepth := 60) [State.setWant, hw]

@[simp] theorem State.retargetAll_kept (s : State) (hw : State.kept base s) :
    State.kept base (State.retargetAll s) := by simp (maxDischargeDepth := 60) +contextual [State.retargetAll, hw]

@[simp] theorem State.setOut_kept (s : State) (n c : Nat) (hw : State.kept base s) :
    State.kept base (State.setOut s n c) := by simp (maxDischargeDepth := 60) [State.setOut, hw]

@[simp] theorem State.trimZero_kept (s : State) (n : Nat) (hw : State.kept base s) :
    State.kept base (State.trimZero s n) := by simp (maxDischargeDepth := 60) [State.trimZero, hw]

@[simp] theorem State.setDriven_kept (s : State) (n : Nat) (b : Bool) (hw : State.kept base s) :
    State.kept base (State.setDriven s n b) := by simp (maxDischargeDepth := 60) [State.setDriven, hw]

end Sys2Proof.Machine
end

