-- ==== Sys2Proof/Laws/KeptMem.lean ====
section
/-! SUPPORT. Every operation of Machine/Mem.lean keeps registers and memories in their canonical form, the queue and the serial number. -/

namespace Sys2Proof.Machine

variable {base : State}

@[simp] theorem State.eccFirst_kept (s : State) (mem region addr kind : Nat) (hw : State.kept base s) :
    State.kept base (State.eccFirst s mem region addr kind) := by simp (maxDischargeDepth := 60) [State.eccFirst, hw]

@[simp] theorem State.eccNote_kept (s : State) (mem region addr : Nat) (w : MWord) (hw : State.kept base s) :
    State.kept base (State.eccNote s mem region addr w) := by simp (maxDischargeDepth := 60) [State.eccNote, hw]

@[simp] theorem State.ashUsed_kept (s : State) (hw : State.kept base s) :
    State.kept base (State.ashUsed s) := by simp (maxDischargeDepth := 60) [State.ashUsed, hw]

@[simp] theorem State.ashSent_kept (s : State) (m : Bool) (hw : State.kept base s) :
    State.kept base (State.ashSent s m) := by simp (maxDischargeDepth := 60) [State.ashSent, hw]

theorem State.setTabs_wf_kept (s : State) (t : Tables) (hw : State.kept base s) (ht : t.wf = true) :
    State.kept base (s.setTabs t) := ⟨hw.1, ht, hw.2.2⟩

@[simp] theorem State.setTabs_kept (s : State) (t : Tables) (hw : State.kept base s) (ht : t.wf = s.tabs.wf) :
    State.kept base (s.setTabs t) := ⟨hw.1, ht.trans hw.2.1, hw.2.2⟩

@[simp] theorem State.storeErr_kept (s : State) (v : BitVec 64) (err : BitVec 72) (hw : State.kept base s) :
    State.kept base (State.storeErr s v err |>.2) := by
  unfold State.storeErr
  repeat' split
  all_goals simp (maxDischargeDepth := 60) [hw]

@[simp] theorem State.flipWord_kept (s : State) (w : MWord) (flips : BitVec 72) (hw : State.kept base s) :
    State.kept base (State.flipWord s w flips |>.2) := by
  unfold State.flipWord
  repeat' split
  all_goals simp (maxDischargeDepth := 60) [hw]

@[simp] theorem State.commitWord_kept (s : State) (target w : Nat) (v : BitVec 64) (hw : State.kept base s) :
    State.kept base (State.commitWord s target w v |>.2) := by
  unfold State.commitWord
  repeat' split
  all_goals simp (maxDischargeDepth := 60) [hw]

@[simp] theorem State.setMerge_kept (s : State) (mem : Nat) (n : Option Narrow) (hw : State.kept base s) :
    State.kept base (State.setMerge s mem n) := by
  have h := (Tables.wf_iff _).1 hw.2.1
  exact State.setTabs_wf_kept _ _ hw (by rw [Tables.wf_iff]; simp [h])

@[simp] theorem State.flawsRead_kept (s : State) (r : Nat) (fs : List Flaw) (hw : State.kept base s) :
    State.kept base ((State.flawsRead s r fs).2) := by
  unfold State.flawsRead
  exact kept_foldl _ hw (fun t f ht => by simp (maxDischargeDepth := 60) [ht])

@[simp] theorem State.addFlaw_kept (s : State) (fs : List Flaw) (i a : Nat) (flips : BitVec 72) (hw : State.kept base s) :
    State.kept base ((State.addFlaw s fs i a flips).2) := by simp (maxDischargeDepth := 60) [State.addFlaw, hw]

end Sys2Proof.Machine
end

