-- ==== Sys2Proof/Laws/KeptCamOps.lean ====
section
/-! SUPPORT. Every operation of Machine/CamOps.lean keeps registers and memories in their canonical form, the queue and the serial number. -/

namespace Sys2Proof.Machine

variable {base : State}

@[simp] theorem State.setCam_kept (s : State) (c : Nat) (x : Cam) (hw : State.kept base s) :
    State.kept base (State.setCam s c x) := by simp (maxDischargeDepth := 60) [State.setCam, hw]

@[simp] theorem State.modCam_kept (s : State) (c : Nat) (f : Cam → Cam) (hw : State.kept base s) :
    State.kept base (State.modCam s c f) := by simp (maxDischargeDepth := 60) [State.modCam, hw]

@[simp] theorem State.camDrop_kept (s : State) (c : Nat) (hw : State.kept base s) :
    State.kept base (State.camDrop s c) := by simp (maxDischargeDepth := 60) [State.camDrop, hw]

@[simp] theorem State.camsQuiet_kept (s : State) (hw : State.kept base s) :
    State.kept base (State.camsQuiet s) := by simp (maxDischargeDepth := 60) [State.camsQuiet, hw]

@[simp] theorem State.camOff_kept (s : State) (c : Nat) (hw : State.kept base s) :
    State.kept base (State.camOff s c) := by
  unfold State.camOff
  repeat' split
  all_goals simp (maxDischargeDepth := 60) +contextual [*]

@[simp] theorem State.insAnew_kept (s : State) (hw : State.kept base s) :
    State.kept base (State.insAnew s) := by simp (maxDischargeDepth := 60) [State.insAnew, hw]

@[simp] theorem State.trigMark_kept (s : State) (v : Int) (hw : State.kept base s) :
    State.kept base (State.trigMark s v) := by simp (maxDischargeDepth := 60) [State.trigMark, hw]

@[simp] theorem State.trigSkip_kept (s : State) (hw : State.kept base s) :
    State.kept base (State.trigSkip s) := by simp (maxDischargeDepth := 60) [State.trigSkip, hw]

@[simp] theorem State.insRecord_kept (s : State) (body : List Byte) (poison : Bool) (hw : State.kept base s) :
    State.kept base (State.insRecord s body poison) := by simp (maxDischargeDepth := 60) [State.insRecord, hw]

@[simp] theorem State.defectBefore_kept (s : State) (k : Nat) (w : BitVec 64) (ep : Bool) (hw : State.kept base s) :
    State.kept base (State.defectBefore s k w ep) := by simp (maxDischargeDepth := 60) [State.defectBefore, hw]

@[simp] theorem State.defectResult_kept (s : State) (k code : Nat) (hw : State.kept base s) :
    State.kept base (State.defectResult s k code) := by simp (maxDischargeDepth := 60) +contextual [State.defectResult, hw]

end Sys2Proof.Machine
end

