-- ==== Sys2Proof/Laws/KeptPosOps.lean ====
section
/-! SUPPORT. Every operation of Machine/PosOps.lean keeps registers and memories in their canonical form, the queue and the serial number. -/

namespace Sys2Proof.Machine

variable {base : State}

@[simp] theorem State.setPos_kept (s : State) (p : Pos) (hw : State.kept base s) :
    State.kept base (State.setPos s p) := by simp (maxDischargeDepth := 60) [State.setPos, hw]

@[simp] theorem State.pinsAt_kept (s : State) (c v : Nat) (hw : State.kept base s) :
    State.kept base (State.pinsAt s c v) := by simp (maxDischargeDepth := 60) [State.pinsAt, hw]

@[simp] theorem State.distrust_kept (s : State) (hw : State.kept base s) :
    State.kept base (State.distrust s) := by simp (maxDischargeDepth := 60) [State.distrust, hw]

@[simp] theorem State.suspShow_kept (s : State) (hw : State.kept base s) :
    State.kept base (State.suspShow s) := by simp (maxDischargeDepth := 60) [State.suspShow, hw]

@[simp] theorem State.voteFlags_kept (s : State) (hw : State.kept base s) :
    State.kept base (State.voteFlags s) := by simp (maxDischargeDepth := 60) [State.voteFlags, hw]

@[simp] theorem State.putSpeed_kept (s : State) (hw : State.kept base s) :
    State.kept base (State.putSpeed s) := by simp (maxDischargeDepth := 60) [State.putSpeed, hw]

@[simp] theorem State.dropList_kept (s : State) (still : Bool) (hw : State.kept base s) :
    State.kept base (State.dropList s still) := by simp (maxDischargeDepth := 60) [State.dropList, hw]

@[simp] theorem State.speedEdge_kept (s : State) (te : Word) (rev : Bool) (hw : State.kept base s) :
    State.kept base (State.speedEdge s te rev) := by simp (maxDischargeDepth := 60) [State.speedEdge, hw]

@[simp] theorem State.hwmUpdate_kept (s : State) (hw : State.kept base s) :
    State.kept base (State.hwmUpdate s) := by simp (maxDischargeDepth := 60) [State.hwmUpdate, hw]

@[simp] theorem State.indexEvent_kept (s : State) (te : Word) (hw : State.kept base s) :
    State.kept base (State.indexEvent s te) := by simp (maxDischargeDepth := 60) [State.indexEvent, hw]

@[simp] theorem State.indexCheck_kept (s : State) (te : Word) (hw : State.kept base s) :
    State.kept base (State.indexCheck s te) := by simp (maxDischargeDepth := 60) [State.indexCheck, hw]

@[simp] theorem State.votedMove_kept (s : State) (d : Int) (te : Word) (hw : State.kept base s) :
    State.kept base (State.votedMove s d te) := by simp (maxDischargeDepth := 60) [State.votedMove, hw]

@[simp] theorem State.illegal_kept (s : State) (c : Nat) (hw : State.kept base s) :
    State.kept base (State.illegal s c) := by simp (maxDischargeDepth := 60) [State.illegal, hw]

@[simp] theorem State.posJump_kept (s : State) (v : Int) (hw : State.kept base s) :
    State.kept base (State.posJump s v) := by simp (maxDischargeDepth := 60) [State.posJump, hw]

@[simp] theorem State.indexArm_kept (s : State) (hw : State.kept base s) :
    State.kept base (State.indexArm s) := by simp (maxDischargeDepth := 60) [State.indexArm, hw]

@[simp] theorem State.transition_kept (s : State) (c ab : Nat) (hw : State.kept base s) :
    State.kept base (State.transition s c ab) := by
  simp only [State.transition]
  repeat' split
  all_goals simp_all (maxDischargeDepth := 60) +contextual

@[simp] theorem State.posSnap_kept (s : State) (src : Nat) (hw : State.kept base s) :
    State.kept base (State.posSnap s src) := by simp (maxDischargeDepth := 60) [State.posSnap, hw]

@[simp] theorem State.takeRewind_kept (s : State) (hw : State.kept base s) :
    State.kept base (State.takeRewind s) := by
  unfold State.takeRewind
  repeat' split
  all_goals simp (maxDischargeDepth := 60) +contextual [*]

end Sys2Proof.Machine
end

