-- ==== Sys2Proof/Laws/KeptPosition.lean ====
section
/-! SUPPORT. Every operation of Machine/Position.lean keeps registers and memories in their canonical form, the queue and the serial number. -/

namespace Sys2Proof.Machine

variable {base : State}

@[simp] theorem State.stillTimeout_kept (s : State) (hw : State.kept base s) :
    State.kept base (State.stillTimeout s) := by simp (maxDischargeDepth := 60) [State.stillTimeout, hw]

@[simp] theorem State.speedDecay_kept (s : State) (hw : State.kept base s) :
    State.kept base (State.speedDecay s) := by simp (maxDischargeDepth := 60) [State.speedDecay, hw]

@[simp] theorem State.posCtlWrite_kept (s : State) (v : Word) (hw : State.kept base s) :
    State.kept base (State.posCtlWrite s v) := by simp (maxDischargeDepth := 60) +contextual [State.posCtlWrite, hw]

@[simp] theorem State.posResync_kept (s : State) (c : Nat) (hw : State.kept base s) :
    State.kept base (State.posResync s c) := by simp (maxDischargeDepth := 60) [State.posResync, hw]

@[simp] theorem State.resyncAll_kept (s : State) (m : Nat) (hw : State.kept base s) :
    State.kept base (State.resyncAll s m) := by simp (maxDischargeDepth := 60) +contextual [State.resyncAll, hw]

@[simp] theorem State.retrust_kept (s : State) (hw : State.kept base s) :
    State.kept base (State.retrust s) := by simp (maxDischargeDepth := 60) [State.retrust, hw]

@[simp] theorem State.posLoRead_kept (s : State) (k : Nat) (hw : State.kept base s) :
    State.kept base (State.posLoRead s k) := by simp (maxDischargeDepth := 60) [State.posLoRead, hw]

@[simp] theorem State.encoWrite_kept (s : State) (claim : Bool) (src : Nat) (hearth : Bool) (hw : State.kept base s) :
    State.kept base (State.encoWrite s claim src hearth) := by simp (maxDischargeDepth := 60) [State.encoWrite, hw]

@[simp] theorem State.indexLevel_kept (s : State) (c : Nat) (z : Bool) (hw : State.kept base s) :
    State.kept base (State.indexLevel s c z) := by simp (maxDischargeDepth := 60) [State.indexLevel, hw]

end Sys2Proof.Machine
end

