-- ==== Sys2Proof/Laws/KeptUnits.lean ====
section
/-! SUPPORT. Every operation of Machine/Units.lean keeps registers and memories in their canonical form, the queue and the serial number. -/

namespace Sys2Proof.Machine

variable {base : State}

@[simp] theorem State.putEff_kept (s : State) (u : Nat) (e : Eff) (hw : State.kept base s) :
    State.kept base (State.putEff s u e) := by simp (maxDischargeDepth := 60) [State.putEff, hw]

@[simp] theorem State.putEffHead_kept (s : State) (h : Nat) (hw : State.kept base s) :
    State.kept base (State.putEffHead s h) := by simp (maxDischargeDepth := 60) [State.putEffHead, hw]

@[simp] theorem State.putEffGroup_kept (s : State) (g : Nat) (hw : State.kept base s) :
    State.kept base (State.putEffGroup s g) := by simp (maxDischargeDepth := 60) [State.putEffGroup, hw]

@[simp] theorem State.putEffGroups_kept (s : State) (h : Nat) (hw : State.kept base s) :
    State.kept base (State.putEffGroups s h) := by simp (maxDischargeDepth := 60) +contextual [State.putEffGroups, hw]

@[simp] theorem State.resolveAll_kept (s : State) (hw : State.kept base s) :
    State.kept base (State.resolveAll s) := by simp (maxDischargeDepth := 60) +contextual [State.resolveAll, hw]

@[simp] theorem State.ownWrite_kept (s : State) (o : UOp) (hw : State.kept base s) :
    State.kept base (State.ownWrite s o) := by
  unfold State.ownWrite
  repeat' split
  all_goals simp (maxDischargeDepth := 60) +contextual [*]

@[simp] theorem State.withOp_kept (s : State) (o : UOp) (hw : State.kept base s) :
    State.kept base (State.withOp s o) := by simp (maxDischargeDepth := 60) [State.withOp, hw]

@[simp] theorem State.tileBack_kept (s : State) (hs : List Nat) (l : Nat) (hw : State.kept base s) :
    State.kept base (State.tileBack s hs l) := by simp (maxDischargeDepth := 60) +contextual [State.tileBack, hw]

@[simp] theorem State.flushNow_kept (s old : State) (h : Nat) (hw : State.kept base s) :
    State.kept base (State.flushNow s old h) := by simp (maxDischargeDepth := 60) [State.flushNow, hw]

@[simp] theorem State.opAccept_kept (s : State) (o : UOp) (hw : State.kept base s) :
    State.kept base (State.opAccept s o) := by simp (maxDischargeDepth := 60) +contextual [State.opAccept, hw]

end Sys2Proof.Machine
end

