-- ==== Sys2Proof/Laws/KeptStreams.lean ====
section
/-! SUPPORT. Every operation of Machine/Streams.lean keeps registers and memories in their canonical form, the queue and the serial number. -/

namespace Sys2Proof.Machine

variable {base : State}

@[simp] theorem State.setStrm_kept (s : State) (st : Nat) (x : Stream) (hw : State.kept base s) :
    State.kept base (State.setStrm s st x) := by simp (maxDischargeDepth := 60) [State.setStrm, hw]

@[simp] theorem State.modStrm_kept (s : State) (st : Nat) (f : Stream → Stream) (hw : State.kept base s) :
    State.kept base (State.modStrm s st f) := by simp (maxDischargeDepth := 60) [State.modStrm, hw]

@[simp] theorem State.cqWrite_kept (s : State) (q : Nat) (e : List Byte) (hw : State.kept base s) :
    State.kept base (State.cqWrite s q e) := by simp (maxDischargeDepth := 60) [State.cqWrite, hw]

@[simp] theorem State.modDesc_kept (s : State) (st c : Nat) (f : Desc → Desc) (hw : State.kept base s) :
    State.kept base (State.modDesc s st c f) := by simp (maxDischargeDepth := 60) [State.modDesc, hw]

@[simp] theorem State.dropReads_kept (s : State) (st c : Nat) (hw : State.kept base s) :
    State.kept base (State.dropReads s st c) := by
  unfold State.dropReads
  repeat' split
  all_goals simp (maxDischargeDepth := 60) +contextual [*]

@[simp] theorem State.complete_kept (s : State) (st c status first : Nat) (hw : State.kept base s) :
    State.kept base (State.complete s st c status first) := by simp (maxDischargeDepth := 60) [State.complete, hw]

@[simp] theorem State.popDesc_kept (s : State) (st : Nat) (hw : State.kept base s) :
    State.kept base (State.popDesc s st) := by simp (maxDischargeDepth := 60) [State.popDesc, hw]

@[simp] theorem State.flushGo_kept (n : Nat) (s : State) (st : Nat) (hw : State.kept base s) :
    State.kept base (State.flushGo n s st) := by
  induction n generalizing s with
  | zero => exact hw
  | succ n ih =>
    unfold State.flushGo
    repeat' split
    all_goals simp (maxDischargeDepth := 60) [hw, ih]

@[simp] theorem State.holdState_kept (s : State) (st : Nat) (hw : State.kept base s) :
    State.kept base (State.holdState s st) := by simp (maxDischargeDepth := 60) [State.holdState, hw]

@[simp] theorem State.flush_kept (s : State) (st : Nat) (hw : State.kept base s) :
    State.kept base (State.flush s st) := by
  simp only [State.flush]
  repeat' split
  all_goals simp_all (maxDischargeDepth := 60) +contextual

@[simp] theorem State.flushOnce_kept (s : State) (hw : State.kept base s) :
    State.kept base (State.flushOnce s) := by simp (maxDischargeDepth := 60) +contextual [State.flushOnce, hw]

@[simp] theorem State.flushAll_kept (s : State) (hw : State.kept base s) :
    State.kept base (State.flushAll s) := by simp (maxDischargeDepth := 60) +contextual [State.flushAll, hw]

@[simp] theorem State.haltAt_kept (s : State) (st c code : Nat) (raw : Option (BitVec 256)) (hw : State.kept base s) :
    State.kept base (State.haltAt s st c code raw) := by simp (maxDischargeDepth := 60) [State.haltAt, hw]

@[simp] theorem State.discardAfter_kept (s : State) (st c : Nat) (hw : State.kept base s) :
    State.kept base (State.discardAfter s st c) := by simp (maxDischargeDepth := 60) [State.discardAfter, hw]

@[simp] theorem State.place_kept (s : State) (st start n : Nat) (endFlag : Bool) (src : CoverSrc) (hw : State.kept base s) :
    State.kept base (State.place s st start n endFlag src) := by simp (maxDischargeDepth := 60) [State.place, hw]

end Sys2Proof.Machine
end

