-- ==== Sys2Proof/Laws/KeptTableOps.lean ====
section
/-! SUPPORT. Every operation of Machine/TableOps.lean keeps registers and memories in their canonical form, the queue and the serial number. -/

namespace Sys2Proof.Machine

variable {base : State}

@[simp] theorem State.setCode_kept (s : State) (k : Nat) (w : MWord) (hw : State.kept base s) :
    State.kept base (State.setCode s k w) := by
  have h := (Tables.wf_iff _).1 hw.2.1
  exact State.setTabs_wf_kept _ _ hw (by rw [Tables.wf_iff]; simp [h])

@[simp] theorem State.setEnt_kept (s : State) (n : Nat) (e : NEnt) (hw : State.kept base s) :
    State.kept base (State.setEnt s n e) := by
  have h := (Tables.wf_iff _).1 hw.2.1
  exact State.setTabs_wf_kept _ _ hw (by rw [Tables.wf_iff]; simp [h])

@[simp] theorem State.setShadow_kept (s : State) (n : Nat) (w : MWord) (hw : State.kept base s) :
    State.kept base (State.setShadow s n w) := by
  have h := (Tables.wf_iff _).1 hw.2.1
  exact State.setTabs_wf_kept _ _ hw (by rw [Tables.wf_iff]; simp [h])

@[simp] theorem State.unact_kept (s : State) (n : Nat) (hw : State.kept base s) :
    State.kept base (State.unact s n) := by simp (maxDischargeDepth := 60) [State.unact, hw]

@[simp] theorem State.putBlend_kept (s : State) (hw : State.kept base s) :
    State.kept base (State.putBlend s) := by simp (maxDischargeDepth := 60) [State.putBlend, hw]

@[simp] theorem State.entNow_kept (s : State) (n : Nat) (w : MWord) (autoWr : Bool) (hw : State.kept base s) :
    State.kept base (State.entNow s n w autoWr) := by simp (maxDischargeDepth := 60) [State.entNow, hw]

@[simp] theorem State.entMeta_kept (s : State) (n : Nat) (w : MWord) (autoWr : Bool) (hw : State.kept base s) :
    State.kept base (State.entMeta s n w autoWr) := by simp (maxDischargeDepth := 60) [State.entMeta, hw]

@[simp] theorem State.entChange_kept (s : State) (n e b : Nat) (w : MWord) (autoWr : Bool) (hw : State.kept base s) :
    State.kept base (State.entChange s n e b w autoWr) := by simp (maxDischargeDepth := 60) [State.entChange, hw]

@[simp] theorem State.entWrite_kept (s : State) (n e : Nat) (w : MWord) (reload autoWr : Bool) (hw : State.kept base s) :
    State.kept base (State.entWrite s n e w reload autoWr) := by simp (maxDischargeDepth := 60) [State.entWrite, hw]

@[simp] theorem State.setCurve_kept (s : State) (q : Nat) (c : Curve) (hw : State.kept base s) :
    State.kept base (State.setCurve s q c) := by
  have h := (Tables.wf_iff _).1 hw.2.1
  exact State.setTabs_wf_kept _ _ hw (by rw [Tables.wf_iff]; simp [h])

@[simp] theorem State.setCurveWord_kept (s : State) (k : Nat) (w : MWord) (hw : State.kept base s) :
    State.kept base (State.setCurveWord s k w) := by
  have h := (Tables.wf_iff _).1 hw.2.1
  exact State.setTabs_wf_kept _ _ hw (by rw [Tables.wf_iff]; simp [h])

@[simp] theorem State.curveSettle_kept (s : State) (q : Nat) (hw : State.kept base s) :
    State.kept base (State.curveSettle s q) := by
  simp only [State.curveSettle]
  repeat' split
  all_goals simp_all (maxDischargeDepth := 60) +contextual

@[simp] theorem State.setCurveShadow_kept (s : State) (q w : Nat) (v : MWord) (hw : State.kept base s) :
    State.kept base (State.setCurveShadow s q w v) := by
  have h := (Tables.wf_iff _).1 hw.2.1
  exact State.setTabs_wf_kept _ _ hw (by rw [Tables.wf_iff]; simp [h])

@[simp] theorem State.setMtxShadow_kept (s : State) (k : Nat) (v : MWord) (hw : State.kept base s) :
    State.kept base (State.setMtxShadow s k v) := by
  have h := (Tables.wf_iff _).1 hw.2.1
  exact State.setTabs_wf_kept _ _ hw (by rw [Tables.wf_iff]; simp [h])

@[simp] theorem State.curveLoad_kept (s : State) (q b : Nat) (vs : List Nat) (hw : State.kept base s) :
    State.kept base (State.curveLoad s q b vs) := by simp (maxDischargeDepth := 60) +contextual [State.curveLoad, hw]

@[simp] theorem State.setMtxWord_kept (s : State) (k : Nat) (w : MWord) (hw : State.kept base s) :
    State.kept base (State.setMtxWord s k w) := by
  have h := (Tables.wf_iff _).1 hw.2.1
  exact State.setTabs_wf_kept _ _ hw (by rw [Tables.wf_iff]; simp [h])

@[simp] theorem State.mtxWrite_kept (s : State) (o : Nat) (bs : List Byte) (hw : State.kept base s) :
    State.kept base (State.mtxWrite s o bs) := by simp (maxDischargeDepth := 60) +contextual [State.mtxWrite, hw]

@[simp] theorem State.putMtxSel_kept (s : State) (p m : Nat) (hw : State.kept base s) :
    State.kept base (State.putMtxSel s p m) := by simp (maxDischargeDepth := 60) [State.putMtxSel, hw]

@[simp] theorem State.goldTasks_kept (s : State) (hw : State.kept base s) :
    State.kept base (State.goldTasks s) := by simp (maxDischargeDepth := 60) [State.goldTasks, hw]

@[simp] theorem State.goldCurve_kept (s : State) (hw : State.kept base s) :
    State.kept base (State.goldCurve s) := by simp (maxDischargeDepth := 60) [State.goldCurve, hw]

@[simp] theorem State.goldMatrix_kept (s : State) (m : Nat) (hw : State.kept base s) :
    State.kept base (State.goldMatrix s m) := by simp (maxDischargeDepth := 60) +contextual [State.goldMatrix, hw]

@[simp] theorem State.switchAt_kept (s : State) (p l : Nat) (hw : State.kept base s) :
    State.kept base (State.switchAt s p l) := by
  simp only [State.switchAt]
  repeat' (first | assumption | split | (refine kept_foldl _ ?_ ?_) | (intro _ _ _))
  all_goals simp (maxDischargeDepth := 60) +contextual [*]

@[simp] theorem State.fadeEnd_kept (s : State) (p : Nat) (hw : State.kept base s) :
    State.kept base (State.fadeEnd s p) := by simp (maxDischargeDepth := 60) +contextual [State.fadeEnd, hw]

@[simp] theorem State.passed_kept (s : State) (p l : Nat) (hw : State.kept base s) :
    State.kept base (State.passed s p l) := by simp (maxDischargeDepth := 60) [State.passed, hw]

@[simp] theorem State.tablesQuiet_kept (s : State) (hw : State.kept base s) :
    State.kept base (State.tablesQuiet s) := by
  unfold State.tablesQuiet
  extract_lets ns s1 s2 s3
  have h1 : State.kept base s1 := by simp (maxDischargeDepth := 60) +contextual [s1, hw]
  have h2 : State.kept base s2 := kept_foldl _ h1 (fun t q ht => by (try dsimp only); split <;> simp (maxDischargeDepth := 60) [ht])
  have h3 : State.kept base s3 := kept_foldl _ h2 (fun t q ht => by (try dsimp only); split <;> simp (maxDischargeDepth := 60) [ht])
  simp (maxDischargeDepth := 60) [h3]

@[simp] theorem State.queueMarked_kept (s : State) (n : Nat) (hw : State.kept base s) :
    State.kept base (State.queueMarked s n) := by simp (maxDischargeDepth := 60) [State.queueMarked, hw]

end Sys2Proof.Machine
end

