-- ==== Sys2Proof/Laws/KeptStore.lean ====
section
/-! SUPPORT. Every operation of Machine/Store.lean keeps registers and memories in their canonical form, the queue and the serial number. -/

namespace Sys2Proof.Machine

variable {base : State}

@[simp] theorem State.setBand_kept (s : State) (q : Nat) (b : Band) (hw : State.kept base s) :
    State.kept base (State.setBand s q b) := by simp (maxDischargeDepth := 60) [State.setBand, hw]

@[simp] theorem State.dirFree_kept (s : State) (hw : State.kept base s) :
    State.kept base (State.dirFree s) := by
  unfold State.dirFree
  repeat' split
  all_goals simp (maxDischargeDepth := 60) +contextual [*]

@[simp] theorem State.makeRoom_kept (s : State) (st n : Nat) (hw : State.kept base s) :
    State.kept base (State.makeRoom s st n) := by simp (maxDischargeDepth := 60) [State.makeRoom, hw]

@[simp] theorem State.setStore_kept (s : State) (k : Nat) (w : MWord) (hw : State.kept base s) :
    State.kept base (State.setStore s k w) := by
  have h := (Tables.wf_iff _).1 hw.2.1
  exact State.setTabs_wf_kept _ _ hw (by rw [Tables.wf_iff]; simp [h])

@[simp] theorem State.storeTouch_kept (s : State) (k : Nat) (hw : State.kept base s) :
    State.kept base (State.storeTouch s k) := by simp (maxDischargeDepth := 60) [State.storeTouch, hw]

@[simp] theorem State.placeOf_kept (s : State) (k : Nat) (hw : State.kept base s) :
    State.kept base ((State.placeOf s k).2) := by simp (maxDischargeDepth := 60) [State.placeOf, hw]

@[simp] theorem State.placedWord_kept (s : State) (p : Placed) (hw : State.kept base s) :
    State.kept base ((State.placedWord s p).2) := by
  unfold State.placedWord
  dsimp only
  repeat' split
  all_goals simp (maxDischargeDepth := 60) [hw]

@[simp] theorem State.placedPut_kept (s : State) (p : Placed) (w : MWord) (hw : State.kept base s) :
    State.kept base (State.placedPut s p w) := by
  unfold State.placedPut
  repeat' split
  all_goals simp (maxDischargeDepth := 60) +contextual [*]

@[simp] theorem State.placedFlip_kept (s : State) (p : Placed) (x : BitVec 64) (mark : Bool) (hw : State.kept base s) :
    State.kept base (State.placedFlip s p x mark) := by
  unfold State.placedFlip
  split
  · dsimp only
    have h1 : ∀ i : Insp, State.kept base (s.setInsp i) := fun i => State.setInsp_kept _ _ hw
    split <;> simp (maxDischargeDepth := 60) [h1]
  · exact hw
  · simp (maxDischargeDepth := 60) [hw]

@[simp] theorem State.setLat_kept (s : State) (k : Nat) (w : MWord) (hw : State.kept base s) :
    State.kept base (State.setLat s k w) := by
  have h := (Tables.wf_iff _).1 hw.2.1
  exact State.setTabs_wf_kept _ _ hw (by rw [Tables.wf_iff]; simp [h])

@[simp] theorem State.placedTouch_kept (s : State) (k : Nat) (p : Placed) (hw : State.kept base s) :
    State.kept base (State.placedTouch s k p) := by
  unfold State.placedTouch
  dsimp only
  repeat' split
  all_goals simp (maxDischargeDepth := 60) [hw]

@[simp] theorem State.deviceReads_kept (s : State) (i : Nat → Bool) (p : Nat → Placed) (hw : State.kept base s) :
    State.kept base (State.deviceReads s i p) := by
  simp only [State.deviceReads]
  repeat' (first | assumption | split | (refine kept_foldl _ ?_ ?_) | (intro _ _ _))
  all_goals simp (maxDischargeDepth := 60) +contextual [*]

@[simp] theorem State.wordTouch_kept (s : State) (k : Nat) (hw : State.kept base s) :
    State.kept base (State.wordTouch s k) := by
  unfold State.wordTouch
  repeat' split
  all_goals simp (maxDischargeDepth := 60) [hw]

@[simp] theorem State.storeTouchAll_kept (s : State) (a n : Nat) (hw : State.kept base s) :
    State.kept base (State.storeTouchAll s a n) := by simp (maxDischargeDepth := 60) +contextual [State.storeTouchAll, hw]

@[simp] theorem State.storeUpset_kept (s : State) (k : Nat) (flips : BitVec 72) (hw : State.kept base s) :
    State.kept base (State.storeUpset s k flips) := by simp (maxDischargeDepth := 60) [State.storeUpset, hw]

@[simp] theorem State.hostWord_kept (s : State) (k : Nat) (p : Placed) (w : MWord) (hw : State.kept base s) :
    State.kept base (State.hostWord s k p w) := by simp (maxDischargeDepth := 60) [State.hostWord, hw]

@[simp] theorem State.storeMerge_kept (s : State) (hw : State.kept base s) :
    State.kept base (State.storeMerge s) := by
  unfold State.storeMerge
  split
  · exact hw
  · extract_lets s1 at_ c s2 w o v c2
    have h1 : State.kept base s1 := by simp (maxDischargeDepth := 60) [s1, hw]
    have ha : State.kept base at_.2 := by simp only [at_]; split <;> simp (maxDischargeDepth := 60) [h1]
    split
    · simp (maxDischargeDepth := 60) [c, ha]
    · have h2 : State.kept base s2 := by simp only [s2]; split <;> simp (maxDischargeDepth := 60) [h1, ha]
      have h3 : State.kept base w.2 := by simp only [w]; split <;> simp (maxDischargeDepth := 60) [h2]
      split <;> simp (maxDischargeDepth := 60) [c2, h3]

@[simp] theorem State.storeAway_kept (s : State) (k : Nat) (hw : State.kept base s) :
    State.kept base (State.storeAway s k) := by
  unfold State.storeAway
  repeat' split
  all_goals simp (maxDischargeDepth := 60) +contextual [*]

@[simp] theorem State.storeUse_kept (s : State) (c n : Nat) (hw : State.kept base s) :
    State.kept base (State.storeUse s c n) := by simp (maxDischargeDepth := 60) [State.storeUse, hw]

@[simp] theorem State.partTaken_kept (s : State) (p : Nat → Bool) (hw : State.kept base s) :
    State.kept base (State.partTaken s p) := by
  have h := (Tables.wf_iff _).1 hw.2.1
  exact hw.withTabs (by rw [Tables.wf_iff]; simp [h])

@[simp] theorem State.stores_kept (s : State) (k c n : Nat) (hw : State.kept base s) :
    State.kept base (State.stores s k c n) := by simp (maxDischargeDepth := 60) [State.stores, hw]

@[simp] theorem State.storesBand_kept (s : State) (st n : Nat) (hw : State.kept base s) :
    State.kept base (State.storesBand s st n) := by simp (maxDischargeDepth := 60) [State.storesBand, hw]

@[simp] theorem State.stagingRead_kept (s : State) (n : Nat) (hw : State.kept base s) :
    State.kept base (State.stagingRead s n) := by simp (maxDischargeDepth := 60) [State.stagingRead, hw]

@[simp] theorem State.leaveRange_kept (s : State) (i : Nat) (hw : State.kept base s) :
    State.kept base (State.leaveRange s i) := by simp (maxDischargeDepth := 60) [State.leaveRange, hw]

@[simp] theorem State.leaveAll_kept (s : State) (hw : State.kept base s) :
    State.kept base (State.leaveAll s) := by simp (maxDischargeDepth := 60) +contextual [State.leaveAll, hw]

@[simp] theorem State.storeFill_kept (s : State) (hw : State.kept base s) :
    State.kept base (State.storeFill s) := by
  have h := (Tables.wf_iff _).1 hw.2.1
  obtain ⟨h1, h2, h3, h4, h5, h6, h7, h8, h9, h10, h11, h12, h13, h14⟩ := h
  exact State.setTabs_wf_kept _ _ hw (by rw [Tables.wf_iff]; exact ⟨h1, h2, h3, h4, h5, h6, h7, rfl, rfl, h10, h11, h12, h13, h14⟩)

end Sys2Proof.Machine
end

