-- ==== Sys2Proof/Laws/KeptTwinEnt.lean ====
section
/-! SUPPORT. Every operation of Machine/TwinEnt.lean keeps registers and memories in their canonical form, the queue and the serial number. -/

namespace Sys2Proof.Machine

variable {base : State}

@[simp] theorem State.setTwin_kept (s : State) (t : Twin) (hw : State.kept base s) :
    State.kept base (State.setTwin s t) := by simp (maxDischargeDepth := 60) [State.setTwin, hw]

@[simp] theorem State.twinPut_kept (s : State) (q kind : Nat) (body : List Nat) (hw : State.kept base s) :
    State.kept base (State.twinPut s q kind body) := by simp (maxDischargeDepth := 60) [State.twinPut, hw]

@[simp] theorem State.twinSend_kept (s : State) (kind : Nat) (body : List Nat) (hw : State.kept base s) :
    State.kept base (State.twinSend s kind body) := by simp (maxDischargeDepth := 60) [State.twinSend, hw]

@[simp] theorem State.pushEntry_kept (s : State) (e : TEntry) (hw : State.kept base s) :
    State.kept base (State.pushEntry s e) := by simp (maxDischargeDepth := 60) [State.pushEntry, hw]

@[simp] theorem State.setTline_kept (s : State) (x : TLine) (hw : State.kept base s) :
    State.kept base (State.setTline s x) := by simp (maxDischargeDepth := 60) [State.setTline, hw]

@[simp] theorem State.modTline_kept (s : State) (p l : Nat) (f : TLine → TLine) (hw : State.kept base s) :
    State.kept base (State.modTline s p l f) := by simp (maxDischargeDepth := 60) [State.modTline, hw]

@[simp] theorem State.dropLines_kept (s : State) (p l : Nat) (hw : State.kept base s) :
    State.kept base (State.dropLines s p l) := by simp (maxDischargeDepth := 60) [State.dropLines, hw]

@[simp] theorem State.countGood_kept (s : State) (l : Nat) (hw : State.kept base s) :
    State.kept base (State.countGood s l) := by simp (maxDischargeDepth := 60) [State.countGood, hw]

end Sys2Proof.Machine
end

