-- ==== Sys2Proof/Laws/KeptFireOps.lean ====
section
/-! SUPPORT. Every operation of Machine/FireOps.lean keeps registers and memories in their canonical form, the queue and the serial number. -/

namespace Sys2Proof.Machine

variable {base : State}

@[simp] theorem State.setFir_kept (s : State) (f : Fir) (hw : State.kept base s) :
    State.kept base (State.setFir s f) := by simp (maxDischargeDepth := 60) [State.setFir, hw]

@[simp] theorem State.setSplice_kept (s : State) (x : Splice) (hw : State.kept base s) :
    State.kept base (State.setSplice s x) := by simp (maxDischargeDepth := 60) [State.setSplice, hw]

@[simp] theorem State.raiseCause_kept (s : State) (k : Nat) (hw : State.kept base s) :
    State.kept base (State.raiseCause s k) := by simp (maxDischargeDepth := 60) [State.raiseCause, hw]

@[simp] theorem State.dropCause_kept (s : State) (k : Nat) (hw : State.kept base s) :
    State.kept base (State.dropCause s k) := by simp (maxDischargeDepth := 60) [State.dropCause, hw]

@[simp] theorem State.causeCheck_kept (s : State) (hw : State.kept base s) :
    State.kept base (State.causeCheck s) := by simp (maxDischargeDepth := 60) +contextual [State.causeCheck, hw]

@[simp] theorem State.trnShow_kept (s : State) (hw : State.kept base s) :
    State.kept base (State.trnShow s) := by simp (maxDischargeDepth := 60) [State.trnShow, hw]

@[simp] theorem State.fillChanged_kept (s : State) (hw : State.kept base s) :
    State.kept base (State.fillChanged s) := by simp (maxDischargeDepth := 60) [State.fillChanged, hw]

@[simp] theorem State.dataLate_kept (s : State) (h l : Nat) (hw : State.kept base s) :
    State.kept base (State.dataLate s h l) := by
  unfold State.dataLate
  repeat' split
  all_goals simp (maxDischargeDepth := 60) +contextual [*]

@[simp] theorem State.bandDone_kept (s : State) (d : Desc) (hw : State.kept base s) :
    State.kept base (State.bandDone s d) := by simp (maxDischargeDepth := 60) [State.bandDone, hw]

@[simp] theorem State.settleStream_kept (s : State) (st : Nat) (hw : State.kept base s) :
    State.kept base (State.settleStream s st) := by simp (maxDischargeDepth := 60) +contextual [State.settleStream, hw]

@[simp] theorem State.settleLines_kept (s : State) (hw : State.kept base s) :
    State.kept base (State.settleLines s) := by simp (maxDischargeDepth := 60) +contextual [State.settleLines, hw]

@[simp] theorem State.eventPulses_kept (s : State) (h l : Nat) (hw : State.kept base s) :
    State.kept base (State.eventPulses s h l) := by simp (maxDischargeDepth := 60) +contextual [State.eventPulses, hw]

@[simp] theorem State.putLastOf_kept (s : State) (u : Nat) (hw : State.kept base s) :
    State.kept base (State.putLastOf s u) := by simp (maxDischargeDepth := 60) [State.putLastOf, hw]

@[simp] theorem State.putLast_kept (s : State) (h : Nat) (hw : State.kept base s) :
    State.kept base (State.putLast s h) := by simp (maxDischargeDepth := 60) +contextual [State.putLast, hw]

@[simp] theorem State.startRamps_kept (s : State) (h l : Nat) (hw : State.kept base s) :
    State.kept base (State.startRamps s h l) := by simp (maxDischargeDepth := 60) [State.startRamps, hw]

@[simp] theorem State.endPass_kept (s : State) (hw : State.kept base s) :
    State.kept base (State.endPass s) := by simp (maxDischargeDepth := 60) [State.endPass, hw]

end Sys2Proof.Machine
end

