-- ==== Sys2Proof/Laws/KeptWindowOps.lean ====
section
/-! SUPPORT. Every operation of Machine/WindowOps.lean keeps registers and memories in their canonical form, the queue and the serial number. -/

namespace Sys2Proof.Machine

variable {base : State}

@[simp] theorem State.setFf_kept (s : State) (j : Nat) (w : MWord) (hw : State.kept base s) :
    State.kept base (State.setFf s j w) := by
  have h := (Tables.wf_iff _).1 hw.2.1
  exact State.setTabs_wf_kept _ _ hw (by rw [Tables.wf_iff]; simp [h])

@[simp] theorem State.setBlend_kept (s : State) (n : Nat) (w : MWord) (hw : State.kept base s) :
    State.kept base (State.setBlend s n w) := by
  unfold State.setBlend
  repeat' split
  all_goals simp (maxDischargeDepth := 60) +contextual [*]

@[simp] theorem State.setLast_kept (s : State) (n : Nat) (w : MWord) (hw : State.kept base s) :
    State.kept base (State.setLast s n w) := by simp (maxDischargeDepth := 60) [State.setLast, hw]

@[simp] theorem State.regionPut_kept (s : State) (r j : Nat) (w : MWord) (hw : State.kept base s) :
    State.kept base (State.regionPut s r j w) := by simp (maxDischargeDepth := 60) [State.regionPut, hw]

@[simp] theorem State.regionTouch_kept (s : State) (r j : Nat) (hw : State.kept base s) :
    State.kept base (State.regionTouch s r j) := by simp (maxDischargeDepth := 60) [State.regionTouch, hw]

@[simp] theorem State.sramTouch_kept (s : State) (k : Nat) (hw : State.kept base s) :
    State.kept base (State.sramTouch s k) := by simp (maxDischargeDepth := 60) [State.sramTouch, hw]

@[simp] theorem State.sramCommit_kept (s : State) (k : Nat) (w src : MWord) (hw : State.kept base s) :
    State.kept base (State.sramCommit s k w src) := by simp (maxDischargeDepth := 60) [State.sramCommit, hw]

@[simp] theorem State.commitSram_kept (s : State) (k : Nat) (v : BitVec 64) (hw : State.kept base s) :
    State.kept base (State.commitSram s k v |>.2) := by
  unfold State.commitSram
  repeat' split
  all_goals simp (maxDischargeDepth := 60) [hw]

@[simp] theorem State.mergeCommit_kept (s : State) (hw : State.kept base s) :
    State.kept base (State.mergeCommit s) := by
  unfold State.mergeCommit
  repeat' split
  all_goals simp (maxDischargeDepth := 60) [hw]

@[simp] theorem State.mergeAway_kept (s : State) (k : Nat) (hw : State.kept base s) :
    State.kept base (State.mergeAway s k) := by
  unfold State.mergeAway
  repeat' split
  all_goals simp (maxDischargeDepth := 60) +contextual [*]

@[simp] theorem State.windowPut_kept (s : State) (a len v : Nat) (hw : State.kept base s) :
    State.kept base (State.windowPut s a len v) := by simp (maxDischargeDepth := 60) [State.windowPut, hw]

@[simp] theorem State.windowGet_kept (s : State) (a len : Nat) (hw : State.kept base s) :
    State.kept base (State.windowGet s a len) := by simp (maxDischargeDepth := 60) [State.windowGet, hw]

@[simp] theorem State.passEntry_kept (s : State) (n : Nat) (l : Narrow) (m : Bool) (hw : State.kept base s) :
    State.kept base (State.passEntry s n l m) := by simp (maxDischargeDepth := 60) [State.passEntry, hw]

@[simp] theorem State.latchLost_kept (s : State) (n : Nat) (hw : State.kept base s) :
    State.kept base (State.latchLost s n) := by simp (maxDischargeDepth := 60) [State.latchLost, hw]

@[simp] theorem State.setLatch_kept (s : State) (l : Option Narrow) (hw : State.kept base s) :
    State.kept base (State.setLatch s l) := by simp (maxDischargeDepth := 60) [State.setLatch, hw]

@[simp] theorem State.latchRead_kept (s : State) (l : Narrow) (hw : State.kept base s) :
    State.kept base ((State.latchRead s l).2.2) := by
  unfold State.latchRead
  dsimp only
  split <;> simp (maxDischargeDepth := 60) [hw]

@[simp] theorem State.latchWrite_kept (s : State) (a len v : Nat) (hw : State.kept base s) :
    State.kept base (State.latchWrite s a len v) := by
  have hf : ∀ (t : State) (n : Nat) (l : Narrow), State.kept base t → State.kept base (if l.mask / 16 % 16 = 15 then
      ((t.latchRead l).2.2.setLatch none).passEntry n (t.latchRead l).1 (t.latchRead l).2.1 else t.setLatch (some l)) :=
    fun t n l ht => by split <;> simp (maxDischargeDepth := 60) [ht]
  unfold State.latchWrite
  dsimp only
  repeat' split
  all_goals simp (maxDischargeDepth := 60) [hw]

end Sys2Proof.Machine
end

