-- ==== Sys2Proof/Laws/KeptPortOps.lean ====
section
/-! SUPPORT. Every operation of Machine/PortOps.lean keeps registers and memories in their canonical form, the queue and the serial number. -/

namespace Sys2Proof.Machine

variable {base : State}

@[simp] theorem State.tableResult_kept (s : State) (st c code : Nat) (hw : State.kept base s) :
    State.kept base (State.tableResult s st c code) := by
  simp only [State.tableResult]
  repeat' split
  all_goals simp_all (maxDischargeDepth := 60) +contextual

@[simp] theorem State.batchReport_kept (s : State) (hw : State.kept base s) :
    State.kept base (State.batchReport s) := by
  unfold State.batchReport
  split
  · exact hw
  · dsimp only
    split
    · exact hw
    · exact State.twinSend_kept _ _ _ (State.setTabs_wf_kept _ _ (by simp [hw]) (by simpa using hw.2.1))

@[simp] theorem State.insResult_kept (s : State) (k code : Nat) (hw : State.kept base s) :
    State.kept base (State.insResult s k code) := by simp (maxDischargeDepth := 60) [State.insResult, hw]

@[simp] theorem State.portResult_kept (s : State) (src : PortSrc) (code : Nat) (hw : State.kept base s) :
    State.kept base (State.portResult s src code) := by
  unfold State.portResult
  repeat' split
  all_goals simp (maxDischargeDepth := 60) +contextual [*]

@[simp] theorem State.portRefuse_kept (s : State) (r : PortReq) (code index : Nat) (hw : State.kept base s) :
    State.kept base (State.portRefuse s r code index) := by
  unfold State.portRefuse
  repeat' split
  all_goals simp (maxDischargeDepth := 60) +contextual [*]

@[simp] theorem State.portPop_kept (s : State) (hw : State.kept base s) :
    State.kept base (State.portPop s) := by simp (maxDischargeDepth := 60) [State.portPop, hw]

@[simp] theorem State.writeEntries_kept (s : State) (r : PortReq) (hw : State.kept base s) :
    State.kept base (State.writeEntries s r) := by simp (maxDischargeDepth := 60) +contextual [State.writeEntries, hw]

@[simp] theorem State.writeCurve_kept (s : State) (r : PortReq) (hw : State.kept base s) :
    State.kept base (State.writeCurve s r) := by simp (maxDischargeDepth := 60) +contextual [State.writeCurve, hw]

@[simp] theorem State.writeMatrix_kept (s : State) (r : PortReq) (hw : State.kept base s) :
    State.kept base (State.writeMatrix s r) := by simp (maxDischargeDepth := 60) +contextual [State.writeMatrix, hw]

@[simp] theorem State.writeMtxsel_kept (s : State) (r : PortReq) (hw : State.kept base s) :
    State.kept base (State.writeMtxsel s r) := by simp (maxDischargeDepth := 60) +contextual [State.writeMtxsel, hw]

@[simp] theorem State.carry_kept (s : State) (r : PortReq) (hw : State.kept base s) :
    State.kept base (State.carry s r) := by simp (maxDischargeDepth := 60) [State.carry, hw]

@[simp] theorem State.readBase_kept (s : State) (n : Nat) (hw : State.kept base s) :
    State.kept base (State.readBase s n) := by simp (maxDischargeDepth := 60) [State.readBase, hw]

@[simp] theorem State.settleBase_kept (s : State) (r : PortReq) (hw : State.kept base s) :
    State.kept base (State.settleBase s r) := by
  unfold State.settleBase
  repeat' split
  all_goals simp (maxDischargeDepth := 60) +contextual [*]

@[simp] theorem State.serve_kept (s : State) (r : PortReq) (hw : State.kept base s) :
    State.kept base (State.serve s r) := by
  simp only [State.serve]
  repeat' split
  all_goals simp_all (maxDischargeDepth := 60) +contextual

@[simp] theorem State.serveIf_kept (s : State) (p : Nat → Bool) (hw : State.kept base s) :
    State.kept base (State.serveIf s p) := by
  unfold State.serveIf
  repeat' split
  all_goals simp (maxDischargeDepth := 60) +contextual [*]

@[simp] theorem State.serveOp_kept (s : State) (r : PortReq) (hw : State.kept base s) :
    State.kept base (State.serveOp s r) := by
  simp only [State.serveOp]
  repeat' split
  all_goals simp_all (maxDischargeDepth := 60) +contextual

@[simp] theorem State.serveOpIf_kept (s : State) (p : Nat → Bool) (hw : State.kept base s) :
    State.kept base (State.serveOpIf s p) := by
  unfold State.serveOpIf
  repeat' split
  all_goals simp (maxDischargeDepth := 60) +contextual [*]

end Sys2Proof.Machine
end

