-- ==== Sys2Proof/Laws/KeptTwinOps.lean ====
section
/-! SUPPORT. Every operation of Machine/TwinOps.lean keeps registers and memories in their canonical form, the queue and the serial number. -/

namespace Sys2Proof.Machine

variable {base : State}

@[simp] theorem State.portOutFrom_kept (s : State) (p a bit : Nat) (hw : State.kept base s) :
    State.kept base (State.portOutFrom s p a bit) := by simp (maxDischargeDepth := 60) [State.portOutFrom, hw]

@[simp] theorem State.portOutTo_kept (s : State) (p a bit : Nat) (hw : State.kept base s) :
    State.kept base (State.portOutTo s p a bit) := by simp (maxDischargeDepth := 60) [State.portOutTo, hw]

@[simp] theorem State.applyMode_kept (s : State) (h m : Nat) (hw : State.kept base s) :
    State.kept base (State.applyMode s h m) := by
  unfold State.applyMode
  extract_lets was drv mon s1 s2
  have h1 : State.kept base s1 := State.modHead_kept _ _ _ (State.setFld_kept _ _ _ hw)
  have h2 : State.kept base s2 := by simp only [s2]; split <;> simp (maxDischargeDepth := 60) [h1]
  split <;> simp (maxDischargeDepth := 60) [h2]

@[simp] theorem State.portTo_kept (s : State) (h m : Nat) (hw : State.kept base s) :
    State.kept base (State.portTo s h m) := by simp (maxDischargeDepth := 60) [State.portTo, hw]

@[simp] theorem State.allPorts_kept (s : State) (m : Nat) (hw : State.kept base s) :
    State.kept base (State.allPorts s m) := by simp (maxDischargeDepth := 60) +contextual [State.allPorts, hw]

@[simp] theorem State.busMastery_kept (s : State) (b : Bool) (hw : State.kept base s) :
    State.kept base (State.busMastery s b) := by simp (maxDischargeDepth := 60) +contextual [State.busMastery, hw]

@[simp] theorem State.busTake_kept (s : State) (hw : State.kept base s) :
    State.kept base (State.busTake s) := by simp (maxDischargeDepth := 60) [State.busTake, hw]

@[simp] theorem State.busGive_kept (s : State) (hw : State.kept base s) :
    State.kept base (State.busGive s) := by simp (maxDischargeDepth := 60) +contextual [State.busGive, hw]

@[simp] theorem State.busTurn_kept (s : State) (b : Nat) (hw : State.kept base s) :
    State.kept base (State.busTurn s b) := by simp (maxDischargeDepth := 60) [State.busTurn, hw]

@[simp] theorem State.propose_kept (s : State) (purpose mask arg : Nat) (hw : State.kept base s) :
    State.kept base (State.propose s purpose mask arg) := by simp (maxDischargeDepth := 60) [State.propose, hw]

@[simp] theorem State.reloadAt_kept (s : State) (l n : Nat) (hw : State.kept base s) :
    State.kept base (State.reloadAt s l n) := by simp (maxDischargeDepth := 60) [State.reloadAt, hw]

@[simp] theorem State.agreed_kept (s : State) (purpose a arg : Nat) (hw : State.kept base s) :
    State.kept base (State.agreed s purpose a arg) := by simp (maxDischargeDepth := 60) [State.agreed, hw]

@[simp] theorem State.beginOut_kept (s : State) (p bit : Nat) (hw : State.kept base s) :
    State.kept base (State.beginOut s p bit) := by simp (maxDischargeDepth := 60) [State.beginOut, hw]

@[simp] theorem State.endOut_kept (s : State) (p bit : Nat) (hw : State.kept base s) :
    State.kept base (State.endOut s p bit) := by simp (maxDischargeDepth := 60) [State.endOut, hw]

@[simp] theorem State.retFault_kept (s : State) (h : Nat) (hw : State.kept base s) :
    State.kept base (State.retFault s h) := by simp (maxDischargeDepth := 60) [State.retFault, hw]

@[simp] theorem State.linkDown_kept (s : State) (hw : State.kept base s) :
    State.kept base (State.linkDown s) := by simp (maxDischargeDepth := 60) [State.linkDown, hw]

@[simp] theorem State.goOut_kept (s : State) (hw : State.kept base s) :
    State.kept base (State.goOut s) := by simp (maxDischargeDepth := 60) [State.goOut, hw]

@[simp] theorem State.noteDiv_kept (s : State) (p l k : Nat) (hw : State.kept base s) :
    State.kept base (State.noteDiv s p l k) := by simp (maxDischargeDepth := 60) [State.noteDiv, hw]

@[simp] theorem State.emberDiv_kept (s : State) (hw : State.kept base s) :
    State.kept base (State.emberDiv s) := by simp (maxDischargeDepth := 60) [State.emberDiv, hw]

@[simp] theorem State.rxDiv_kept (s : State) (p : Nat) (own : Bool) (hw : State.kept base s) :
    State.kept base (State.rxDiv s p own) := by simp (maxDischargeDepth := 60) [State.rxDiv, hw]

@[simp] theorem State.divAct_kept (s : State) (p k : Nat) (own : Bool) (hw : State.kept base s) :
    State.kept base (State.divAct s p k own) := by simp (maxDischargeDepth := 60) [State.divAct, hw]

@[simp] theorem State.diverge_kept (s : State) (p l k : Nat) (own : Bool) (hw : State.kept base s) :
    State.kept base (State.diverge s p l k own) := by
  simp only [State.diverge]
  repeat' split
  all_goals simp_all (maxDischargeDepth := 60) +contextual

@[simp] theorem State.goodLine_kept (s : State) (p l : Nat) (hw : State.kept base s) :
    State.kept base (State.goodLine s p l) := by simp (maxDischargeDepth := 60) [State.goodLine, hw]

@[simp] theorem State.compareSig_kept (s : State) (p l : Nat) (hw : State.kept base s) :
    State.kept base (State.compareSig s p l) := by
  simp only [State.compareSig]
  repeat' split
  all_goals simp_all (maxDischargeDepth := 60) +contextual

@[simp] theorem State.compareCls_kept (s : State) (p l : Nat) (hw : State.kept base s) :
    State.kept base (State.compareCls s p l) := by
  simp only [State.compareCls]
  repeat' split
  all_goals simp_all (maxDischargeDepth := 60) +contextual

@[simp] theorem State.twinScreened_kept (s : State) (p l : Nat) (sig : Word) (ash : Bool) (hw : State.kept base s) :
    State.kept base (State.twinScreened s p l sig ash) := by simp (maxDischargeDepth := 60) [State.twinScreened, hw]

@[simp] theorem State.noteSuspect_kept (s : State) (hw : State.kept base s) :
    State.kept base (State.noteSuspect s) := by simp (maxDischargeDepth := 60) [State.noteSuspect, hw]

@[simp] theorem State.askReset_kept (s : State) (hw : State.kept base s) :
    State.kept base (State.askReset s) := by simp (maxDischargeDepth := 60) [State.askReset, hw]

@[simp] theorem State.verdict_kept (s : State) (v : Nat) (hw : State.kept base s) :
    State.kept base (State.verdict s v) := by simp (maxDischargeDepth := 60) [State.verdict, hw]

@[simp] theorem State.judgeEmber_kept (s : State) (own other : EmbRes) (hw : State.kept base s) :
    State.kept base (State.judgeEmber s own other) := by
  simp only [State.judgeEmber]
  repeat' split
  all_goals simp_all (maxDischargeDepth := 60) +contextual

@[simp] theorem State.emberTwin_kept (s : State) (r : EmbRes) (hw : State.kept base s) :
    State.kept base (State.emberTwin s r) := by
  simp only [State.emberTwin]
  repeat' split
  all_goals simp_all (maxDischargeDepth := 60) +contextual

@[simp] theorem State.readyShow_kept (s : State) (hw : State.kept base s) :
    State.kept base (State.readyShow s) := by simp (maxDischargeDepth := 60) [State.readyShow, hw]

end Sys2Proof.Machine
end

