-- ==== Sys2Proof/Laws/KeptEmberOps.lean ====
section
/-! SUPPORT. Every operation of Machine/EmberOps.lean keeps registers and memories in their canonical form, the queue and the serial number. -/

namespace Sys2Proof.Machine

variable {base : State}

@[simp] theorem State.curveMarked_kept (s : State) (q : Nat) (hw : State.kept base s) :
    State.kept base (State.curveMarked s q) := by simp (maxDischargeDepth := 60) [State.curveMarked, hw]

@[simp] theorem State.emberMarks_kept (s : State) (v p l : Nat) (hw : State.kept base s) :
    State.kept base (State.emberMarks s v p l) := by
  unfold State.emberMarks
  extract_lets ns n s1 s2
  have h1 : State.kept base s1 := by simp only [s1]; split <;> simp (maxDischargeDepth := 60) [hw]
  have h2 : State.kept base s2 := kept_foldl _ h1 (fun t q ht => by (try dsimp only); split <;> simp (maxDischargeDepth := 60) [ht])
  split <;> simp (maxDischargeDepth := 60) [h2]

@[simp] theorem State.kilnReads_kept (s : State) (cs ms : List Nat) (hw : State.kept base s) :
    State.kept base (State.kilnReads s cs ms) := by simp (maxDischargeDepth := 60) +contextual [State.kilnReads, hw]

@[simp] theorem State.emberReads_kept (s : State) (v p l : Nat) (hw : State.kept base s) :
    State.kept base (State.emberReads s v p l) := by simp (maxDischargeDepth := 60) [State.emberReads, hw]

@[simp] theorem State.emberRun_kept (s : State) (v p l : Nat) (hw : State.kept base s) :
    State.kept base (State.emberRun s v p l) := by simp (maxDischargeDepth := 60) [State.emberRun, hw]

@[simp] theorem State.emberBurst_kept (s : State) (p l : Nat) (hw : State.kept base s) :
    State.kept base (State.emberBurst s p l) := by simp (maxDischargeDepth := 60) +contextual [State.emberBurst, hw]

@[simp] theorem State.emberSlot_kept (s : State) (v p l : Nat) (hw : State.kept base s) :
    State.kept base (State.emberSlot s v p l) := by simp (maxDischargeDepth := 60) [State.emberSlot, hw]

@[simp] theorem State.emberAfter_kept (s : State) (p l : Nat) (hw : State.kept base s) :
    State.kept base (State.emberAfter s p l) := by simp (maxDischargeDepth := 60) [State.emberAfter, hw]

@[simp] theorem State.lateOver_kept (s : State) (p l : Nat) (hw : State.kept base s) :
    State.kept base (State.lateOver s p l) := by
  unfold State.lateOver
  repeat' split
  all_goals simp (maxDischargeDepth := 60) +contextual [*]

@[simp] theorem State.goldWrite_kept (s : State) (a g : Nat) (m v : Word) (hw : State.kept base s) :
    State.kept base (State.goldWrite s a g m v) := by simp (maxDischargeDepth := 60) [State.goldWrite, hw]

@[simp] theorem State.putGold_kept (s : State) (v : Nat) (g : Word) (hw : State.kept base s) :
    State.kept base (State.putGold s v g) := by simp (maxDischargeDepth := 60) [State.putGold, hw]

@[simp] theorem State.recompute_kept (s : State) (v : Nat) (hw : State.kept base s) :
    State.kept base (State.recompute s v) := by simp (maxDischargeDepth := 60) [State.recompute, hw]

@[simp] theorem State.serveGold_kept (s : State) (n : Nat) (hw : State.kept base s) :
    State.kept base (State.serveGold s n) := by simp (maxDischargeDepth := 60) +contextual [State.serveGold, hw]

end Sys2Proof.Machine
end

