-- ==== Sys2Proof/Laws/KeptLineOps.lean ====
section
/-! SUPPORT. Every operation of Machine/LineOps.lean keeps registers and memories in their canonical form, the queue and the serial number. -/

namespace Sys2Proof.Machine

variable {base : State}

@[simp] theorem State.firedEntry_kept (s : State) (h l i : Nat) (nofire : Bool) (hw : State.kept base s) :
    State.kept base (State.firedEntry s h l i nofire) := by simp (maxDischargeDepth := 60) [State.firedEntry, hw]

@[simp] theorem State.returnStep_kept (s : State) (h l : Nat) (pulsed : Bool) (hw : State.kept base s) :
    State.kept base (State.returnStep s h l pulsed) := by
  unfold State.returnStep
  repeat' split
  all_goals simp (maxDischargeDepth := 60) +contextual [*]

@[simp] theorem State.twinCounted_kept (s : State) (h l i : Nat) (nofire : Bool) (hw : State.kept base s) :
    State.kept base (State.twinCounted s h l i nofire) := by simp (maxDischargeDepth := 60) [State.twinCounted, hw]

@[simp] theorem State.showSig_kept (s : State) (h l : Nat) (hw : State.kept base s) :
    State.kept base (State.showSig s h l) := by
  unfold State.showSig
  repeat' split
  all_goals simp (maxDischargeDepth := 60) +contextual [*]

@[simp] theorem State.passedBy_kept (s : State) (h l : Nat) (hw : State.kept base s) :
    State.kept base (State.passedBy s h l) := by simp (maxDischargeDepth := 60) [State.passedBy, hw]

@[simp] theorem State.hotFreeze_kept (s : State) (h l : Nat) (hw : State.kept base s) :
    State.kept base (State.hotFreeze s h l) := by simp (maxDischargeDepth := 60) [State.hotFreeze, hw]

@[simp] theorem State.thermBit_kept (s : State) (h : Nat) (b : Bool) (hw : State.kept base s) :
    State.kept base (State.thermBit s h b) := by simp (maxDischargeDepth := 60) [State.thermBit, hw]

@[simp] theorem State.showOver_kept (s : State) (h : Nat) (b : Bool) (hw : State.kept base s) :
    State.kept base (State.showOver s h b) := by simp (maxDischargeDepth := 60) [State.showOver, hw]

@[simp] theorem State.hotSplice_kept (s : State) (h : Nat) (hw : State.kept base s) :
    State.kept base (State.hotSplice s h) := by
  simp only [State.hotSplice]
  repeat' split
  all_goals simp_all (maxDischargeDepth := 60) +contextual

@[simp] theorem State.thermEnter_kept (s : State) (h : Nat) (hw : State.kept base s) :
    State.kept base (State.thermEnter s h) := by simp (maxDischargeDepth := 60) [State.thermEnter, hw]

@[simp] theorem State.thermLeave_kept (s : State) (h : Nat) (hw : State.kept base s) :
    State.kept base (State.thermLeave s h) := by simp (maxDischargeDepth := 60) [State.thermLeave, hw]

@[simp] theorem State.setOver_kept (s : State) (h : Nat) (b : Bool) (hw : State.kept base s) :
    State.kept base (State.setOver s h b) := by simp (maxDischargeDepth := 60) [State.setOver, hw]

@[simp] theorem State.overCheck_kept (s : State) (h : Nat) (hw : State.kept base s) :
    State.kept base (State.overCheck s h) := by simp (maxDischargeDepth := 60) [State.overCheck, hw]

@[simp] theorem State.overAll_kept (s : State) (hw : State.kept base s) :
    State.kept base (State.overAll s) := by simp (maxDischargeDepth := 60) +contextual [State.overAll, hw]

@[simp] theorem State.linePassed_kept (s : State) (h i : Nat) (hw : State.kept base s) :
    State.kept base (State.linePassed s h i) := by simp (maxDischargeDepth := 60) [State.linePassed, hw]

@[simp] theorem State.lineFired_kept (s : State) (h l i : Nat) (nofire : Bool) (hw : State.kept base s) :
    State.kept base (State.lineFired s h l i nofire) := by simp (maxDischargeDepth := 60) [State.lineFired, hw]

@[simp] theorem State.lineCountedF_kept (s : State) (h i : Nat) (nofire : Bool) (hw : State.kept base s) :
    State.kept base (State.lineCountedF s h i nofire) := by simp (maxDischargeDepth := 60) [State.lineCountedF, hw]

@[simp] theorem State.lineCounted_kept (s : State) (h i : Nat) (hw : State.kept base s) :
    State.kept base (State.lineCounted s h i) := by
  simp only [State.lineCounted]
  repeat' split
  all_goals simp_all (maxDischargeDepth := 60) +contextual

@[simp] theorem State.delayOver_kept (s : State) (h l i : Nat) (nofire : Bool) (hw : State.kept base s) :
    State.kept base (State.delayOver s h l i nofire) := by simp (maxDischargeDepth := 60) [State.delayOver, hw]

@[simp] theorem State.loseDelayed_kept (s : State) (h n : Nat) (hw : State.kept base s) :
    State.kept base (State.loseDelayed s h n) := by
  induction n generalizing s  with
  | zero => exact hw
  | succ n ih =>
    unfold State.loseDelayed
    repeat' split
    all_goals simp (maxDischargeDepth := 60) [hw, ih]

@[simp] theorem State.lineLost_kept (s : State) (h i : Nat) (hw : State.kept base s) :
    State.kept base (State.lineLost s h i) := by
  simp only [State.lineLost]
  repeat' split
  all_goals simp_all (maxDischargeDepth := 60) +contextual

@[simp] theorem State.firstLate_kept (s : State) (h l : Nat) (hw : State.kept base s) :
    State.kept base (State.firstLate s h l) := by simp (maxDischargeDepth := 60) [State.firstLate, hw]

@[simp] theorem State.placeFrom_kept (s : State) (h n l : Nat) (hw : State.kept base s) :
    State.kept base (State.placeFrom s h n l) := by
  induction n generalizing s l with
  | zero => exact hw
  | succ n ih =>
    unfold State.placeFrom
    repeat' split
    all_goals simp (maxDischargeDepth := 60) [hw, ih]

@[simp] theorem State.loseFrom_kept (s : State) (h n : Nat) (hw : State.kept base s) :
    State.kept base (State.loseFrom s h n) := by
  induction n generalizing s  with
  | zero => exact hw
  | succ n ih =>
    unfold State.loseFrom
    repeat' split
    all_goals simp (maxDischargeDepth := 60) [hw, ih]

@[simp] theorem State.withdraw_kept (s : State) (hw : State.kept base s) :
    State.kept base (State.withdraw s) := by simp (maxDischargeDepth := 60) +contextual [State.withdraw, hw]

@[simp] theorem State.fireEdge_kept (s : State) (rev : Bool) (hw : State.kept base s) :
    State.kept base (State.fireEdge s rev) := by
  unfold State.fireEdge
  repeat' split
  all_goals simp (maxDischargeDepth := 60) +contextual [hw]

end Sys2Proof.Machine
end

