-- ==== Sys2Proof/Laws/KeptFiring.lean ====
section
/-! SUPPORT. Every operation of Machine/Firing.lean keeps registers and memories in their canonical form, the queue and the serial number. -/

namespace Sys2Proof.Machine

variable {base : State}

@[simp] theorem State.trustAct_kept (s0 s : State) (hw : State.kept base s) :
    State.kept base (State.trustAct s0 s) := by simp (maxDischargeDepth := 60) [State.trustAct, hw]

@[simp] theorem State.encoder_kept (s : State) (c ab : Nat) (hw : State.kept base s) :
    State.kept base (State.encoder s c ab) := by simp (maxDischargeDepth := 60) [State.encoder, hw]

@[simp] theorem State.noteUnderrun_kept (s : State) (h l : Nat) (hw : State.kept base s) :
    State.kept base (State.noteUnderrun s h l) := by simp (maxDischargeDepth := 60) [State.noteUnderrun, hw]

@[simp] theorem State.skipLine_kept (s : State) (h l : Nat) (hw : State.kept base s) :
    State.kept base (State.skipLine s h l) := by simp (maxDischargeDepth := 60) [State.skipLine, hw]

@[simp] theorem State.firePulse_kept (s : State) (h l : Nat) (hw : State.kept base s) :
    State.kept base (State.firePulse s h l) := by simp (maxDischargeDepth := 60) [State.firePulse, hw]

@[simp] theorem State.fireLine_kept (s : State) (h l i : Nat) (hw : State.kept base s) :
    State.kept base (State.fireLine s h l i) := by simp (maxDischargeDepth := 60) [State.fireLine, hw]

@[simp] theorem State.fire_kept (s : State) (h : Nat) (hw : State.kept base s) :
    State.kept base (State.fire s h) := by
  simp only [State.fire]
  repeat' split
  all_goals simp_all (maxDischargeDepth := 60) +contextual

@[simp] theorem State.delayedFire_kept (s : State) (h : Nat) (hw : State.kept base s) :
    State.kept base (State.delayedFire s h) := by
  unfold State.delayedFire
  repeat' split
  all_goals simp (maxDischargeDepth := 60) +contextual [*]

@[simp] theorem State.latchDeadline_kept (s : State) (h : Nat) (hw : State.kept base s) :
    State.kept base (State.latchDeadline s h) := by
  simp only [State.latchDeadline]
  repeat' split
  all_goals simp_all (maxDischargeDepth := 60) +contextual

@[simp] theorem State.losePass_kept (s : State) (h n : Nat) (hw : State.kept base s) :
    State.kept base (State.losePass s h n) := by
  induction n generalizing s  with
  | zero => exact hw
  | succ n ih =>
    unfold State.losePass
    repeat' split
    all_goals simp (maxDischargeDepth := 60) [hw, ih]

@[simp] theorem State.passEarly_kept (s : State) (hw : State.kept base s) :
    State.kept base (State.passEarly s) := by
  unfold State.passEarly
  split
  · extract_lets n s1
    have h1 : State.kept base s1 := by simp (maxDischargeDepth := 60) +contextual [s1, hw]
    simp (maxDischargeDepth := 60) [h1]
  · exact hw

@[simp] theorem State.passStart_kept (s : State) (rev : Bool) (hw : State.kept base s) :
    State.kept base (State.passStart s rev) := by simp (maxDischargeDepth := 60) +contextual [State.passStart, hw]

@[simp] theorem State.sosEdge_kept (s : State) (n : Nat) (lvl : Bool) (hw : State.kept base s) :
    State.kept base (State.sosEdge s n lvl) := by simp (maxDischargeDepth := 60) [State.sosEdge, hw]

end Sys2Proof.Machine
end

