-- ==== Sys2Proof/Laws/KeptUnitRows.lean ====
section
/-! SUPPORT. Every operation of Machine/UnitRows.lean keeps registers and memories in their canonical form, the queue and the serial number. -/

namespace Sys2Proof.Machine

variable {base : State}

@[simp] theorem State.serveBadop_kept (s : State) (hw : State.kept base s) :
    State.kept base (State.serveBadop s) := by
  unfold State.serveBadop
  repeat' split
  all_goals simp (maxDischargeDepth := 60) +contextual [*]

end Sys2Proof.Machine
end

