-- ==== Sys2Proof/Laws/KeptTableRows.lean ====
section
/-! SUPPORT. Every operation of Machine/TableRows.lean keeps registers and memories in their canonical form, the queue and the serial number. -/

namespace Sys2Proof.Machine

variable {base : State}

@[simp] theorem State.nztWindow_kept (s : State) (a len v : Nat) (hw : State.kept base s) :
    State.kept base (State.nztWindow s a len v) := by simp (maxDischargeDepth := 60) [State.nztWindow, hw]

@[simp] theorem State.latchTimeout_kept (s : State) (hw : State.kept base s) :
    State.kept base (State.latchTimeout s) := by
  unfold State.latchTimeout
  repeat' split
  all_goals simp (maxDischargeDepth := 60) +contextual [*]

@[simp] theorem State.curveMatrixWindow_kept (s : State) (a len v : Nat) (hw : State.kept base s) :
    State.kept base (State.curveMatrixWindow s a len v) := by simp (maxDischargeDepth := 60) [State.curveMatrixWindow, hw]

@[simp] theorem State.nztQuery_kept (s : State) (key : Nat) (byEntry : Bool) (hw : State.kept base s) :
    State.kept base (State.nztQuery s key byEntry) := by simp (maxDischargeDepth := 60) [State.nztQuery, hw]

@[simp] theorem State.scanStart_kept (s : State) (hw : State.kept base s) :
    State.kept base (State.scanStart s) := by simp (maxDischargeDepth := 60) [State.scanStart, hw]

@[simp] theorem State.scanDone_kept (s : State) (hw : State.kept base s) :
    State.kept base (State.scanDone s) := by simp (maxDischargeDepth := 60) [State.scanDone, hw]

@[simp] theorem State.reloadRead_kept (s : State) (hw : State.kept base s) :
    State.kept base (State.reloadRead s) := by simp (maxDischargeDepth := 60) [State.reloadRead, hw]

end Sys2Proof.Machine
end

