-- ==== Sys2Proof/Laws/KeptRetOps.lean ====
section
/-! SUPPORT. Every operation of Machine/RetOps.lean keeps registers and memories in their canonical form, the queue and the serial number. -/

namespace Sys2Proof.Machine

variable {base : State}

@[simp] theorem State.retSum_kept (s : State) (h : Nat) (hw : State.kept base s) :
    State.kept base (State.retSum s h) := by simp (maxDischargeDepth := 60) [State.retSum, hw]

@[simp] theorem State.retFail_kept (s : State) (h l c k : Nat) (hw : State.kept base s) :
    State.kept base (State.retFail s h l c k) := by simp (maxDischargeDepth := 60) [State.retFail, hw]

@[simp] theorem State.checkReturn_kept (s : State) (h l c : Nat) (sig : Word) (bits trailer : Nat) (hw : State.kept base s) :
    State.kept base (State.checkReturn s h l c sig bits trailer) := by simp (maxDischargeDepth := 60) [State.checkReturn, hw]

@[simp] theorem State.noteTrailer_kept (s : State) (h trailer : Nat) (hw : State.kept base s) :
    State.kept base (State.noteTrailer s h trailer) := by simp (maxDischargeDepth := 60) [State.noteTrailer, hw]

@[simp] theorem State.checkHeld_kept (s : State) (h l : Nat) (image : List Byte) (hw : State.kept base s) :
    State.kept base (State.checkHeld s h l image) := by
  unfold State.checkHeld
  repeat' split
  all_goals simp (maxDischargeDepth := 60) +contextual [*]

end Sys2Proof.Machine
end

