-- ==== Sys2Proof/Laws/KeptKilnOps.lean ====
section
/-! SUPPORT. Every operation of Machine/KilnOps.lean keeps registers and memories in their canonical form, the queue and the serial number. -/

namespace Sys2Proof.Machine

variable {base : State}

@[simp] theorem State.mapAsOf_kept (s : State) (p l : Nat) (hw : State.kept base s) :
    State.kept base (State.mapAsOf s p l) := by simp (maxDischargeDepth := 60) [State.mapAsOf, hw]

@[simp] theorem State.markedEntry_kept (s : State) (n : Nat) (hw : State.kept base s) :
    State.kept base (State.markedEntry s n) := by simp (maxDischargeDepth := 60) [State.markedEntry, hw]

@[simp] theorem State.readEntries_kept (s : State) (p : Nat) (hw : State.kept base s) :
    State.kept base (State.readEntries s p) := by simp (maxDischargeDepth := 60) +contextual [State.readEntries, hw]

@[simp] theorem State.readMap_kept (s : State) (p l : Nat) (hw : State.kept base s) :
    State.kept base (State.readMap s p l) := by
  simp only [State.readMap]
  repeat' (first | assumption | split | (refine kept_foldl _ ?_ ?_) | (intro _ _ _))
  all_goals simp (maxDischargeDepth := 60) +contextual [*]

@[simp] theorem State.lineCounts_kept (s : State) (m : Nat) (outs : List NozzleOut) (hw : State.kept base s) :
    State.kept base (State.lineCounts s m outs) := by
  unfold State.lineCounts
  extract_lets s1 s2 xr hh s3 n s5 s6
  have h3 : State.kept base s3 := by simp (maxDischargeDepth := 60) [s3, s2, s1, hw]
  have h5 : State.kept base s5 := by simp only [s5]; split <;> simp (maxDischargeDepth := 60) [h3]
  have h6 : State.kept base s6 := kept_foldl _ h5 (fun t q ht => by (try dsimp only); split <;> simp (maxDischargeDepth := 60) [ht])
  split <;> simp (maxDischargeDepth := 60) [h6]

@[simp] theorem State.tilePrune_kept (s : State) (p : Nat) (hw : State.kept base s) :
    State.kept base (State.tilePrune s p) := by simp (maxDischargeDepth := 60) [State.tilePrune, hw]

@[simp] theorem State.tileRead_kept (s : State) (p l : Nat) (hw : State.kept base s) :
    State.kept base (State.tileRead s p l) := by
  simp only [State.tileRead]
  repeat' (first | assumption | split | (refine kept_foldl _ ?_ ?_) | (intro _ _ _))
  all_goals simp (maxDischargeDepth := 60) +contextual [*]

@[simp] theorem State.screenLine_kept (s : State) (p l : Nat) (hw : State.kept base s) :
    State.kept base (State.screenLine s p l) := by simp (maxDischargeDepth := 60) +contextual [State.screenLine, hw]

end Sys2Proof.Machine
end

