-- ==== Sys2Proof/Laws/KeptCfgOps.lean ====
section
/-! SUPPORT. Every operation of Machine/CfgOps.lean keeps registers and memories in their canonical form, the queue and the serial number. -/

namespace Sys2Proof.Machine

variable {base : State}

@[simp] theorem State.setCfg_kept (s : State) (a : Nat) (v : Word) (hw : State.kept base s) :
    State.kept base (s.setCfg a v) := ⟨hw.1, hw.2.1, hw.2.2.1, hw.2.2.2.1, SMap.wf_set hw.2.2.2.2.1, hw.2.2.2.2.2⟩

@[simp] theorem State.loadSub_kept (s : State) (hw : State.kept base s) :
    State.kept base (State.loadSub s) := by
  unfold State.loadSub
  exact State.setCfg_kept _ _ _ hw

@[simp] theorem State.aer_kept (s : State) (b : Nat) (hw : State.kept base s) :
    State.kept base (State.aer s b) := by simp (maxDischargeDepth := 60) [State.aer, hw]

@[simp] theorem State.readFailed_kept (s : State) (orPoison : Bool) (hw : State.kept base s) :
    State.kept base (State.readFailed s orPoison) := by simp (maxDischargeDepth := 60) [State.readFailed, hw]

end Sys2Proof.Machine
end

