-- ==== Sys2Proof/Laws/KeptKilnRows.lean ====
section
/-! SUPPORT. Every operation of Machine/KilnRows.lean keeps registers and memories in their canonical form, the queue and the serial number. -/

namespace Sys2Proof.Machine

variable {base : State}

@[simp] theorem State.refForm_kept (s : State) (st r : Nat) (hw : State.kept base s) :
    State.kept base (State.refForm s st r) := by simp (maxDischargeDepth := 60) [State.refForm, hw]

@[simp] theorem State.refBuild_kept (s : State) (h : Nat) (hw : State.kept base s) :
    State.kept base (State.refBuild s h) := by
  unfold State.refBuild
  repeat' split
  all_goals simp (maxDischargeDepth := 60) +contextual [*]

@[simp] theorem State.refetch_kept (s : State) (q y : Nat) (hw : State.kept base s) :
    State.kept base (State.refetch s q y) := by simp (maxDischargeDepth := 60) [State.refetch, hw]

@[simp] theorem State.tileRow_kept (s : State) (h q y : Nat) (hw : State.kept base s) :
    State.kept base (State.tileRow s h q y) := by simp (maxDischargeDepth := 60) [State.tileRow, hw]

@[simp] theorem State.stokerRows_kept (h q : Nat) (ys : List Nat) (s : State) (hw : State.kept base s) :
    State.kept base ((State.stokerRows h q ys s).2) := by
  induction ys generalizing s with
  | nil => exact hw
  | cons y ys ih =>
    unfold State.stokerRows
    extract_lets b n s1
    have h1 : State.kept base s1 := by simp (maxDischargeDepth := 60) [s1, hw]
    split
    · simp (maxDischargeDepth := 60) [hw]
    · split
      · simp (maxDischargeDepth := 60) [h1]
      · exact ih _ (by simp (maxDischargeDepth := 60) [h1])

@[simp] theorem State.tileStep_kept (s : State) (h : Nat) (hw : State.kept base s) :
    State.kept base (State.tileStep s h) := by simp (maxDischargeDepth := 60) [State.tileStep, hw]

@[simp] theorem State.stokerFetch_kept (s : State) (h : Nat) (hw : State.kept base s) :
    State.kept base (State.stokerFetch s h) := by
  unfold State.stokerFetch
  extract_lets x t l
  have ht : State.kept base t := by simp only [t]; split <;> simp (maxDischargeDepth := 60) [hw]
  have hs : State.kept base (t.tileStep h) := State.tileStep_kept _ _ ht
  have hr : ∀ q ys, State.kept base (State.stokerRows h q ys t).2 := fun q ys => State.stokerRows_kept _ _ _ _ ht
  have hk : ∀ q y ys, State.kept base (if (State.stokerRows h q ys t).1 = true
      then ((State.stokerRows h q ys t).2.tileRow h q y).tileStep h else (State.stokerRows h q ys t).2) :=
    fun q y ys => kept_ite (by simp (maxDischargeDepth := 60) [hr]) (hr _ _)
  repeat' (first | exact ht | exact hs | exact hk _ _ _ | split | extract_lets | dsimp only)

@[simp] theorem State.refetchDone_kept (s : State) (q y : Nat) (ok : Bool) (data : List MByte) (hw : State.kept base s) :
    State.kept base (State.refetchDone s q y ok data) := by simp (maxDischargeDepth := 60) [State.refetchDone, hw]

end Sys2Proof.Machine
end

