-- ==== Sys2Proof/Laws/KeptHostOps.lean ====
section
/-! SUPPORT. Every operation of Machine/HostOps.lean keeps registers and memories in their canonical form, the queue and the serial number. -/

namespace Sys2Proof.Machine

variable {base : State}

@[simp] theorem State.setHif_kept (s : State) (h : HostIf) (hw : State.kept base s) :
    State.kept base (State.setHif s h) := by simp (maxDischargeDepth := 60) [State.setHif, hw]

@[simp] theorem State.pollFailed_kept (s : State) (hw : State.kept base s) :
    State.kept base (State.pollFailed s) := by simp (maxDischargeDepth := 60) [State.pollFailed, hw]

@[simp] theorem State.statusBlock_kept (s : State) (hw : State.kept base s) :
    State.kept base (State.statusBlock s) := by simp (maxDischargeDepth := 60) [State.statusBlock, hw]

@[simp] theorem State.cmdFlush_kept (s : State) (hw : State.kept base s) :
    State.kept base (State.cmdFlush s) := by
  unfold State.cmdFlush
  repeat' split
  all_goals simp (maxDischargeDepth := 60) +contextual [*]

@[simp] theorem State.flushHost_kept (s : State) (hw : State.kept base s) :
    State.kept base (State.flushHost s) := by simp (maxDischargeDepth := 60) [State.flushHost, hw]

@[simp] theorem State.cmdEnd_kept (s : State) (slot stream status first tag : Nat) (hw : State.kept base s) :
    State.kept base (State.cmdEnd s slot stream status first tag) := by simp (maxDischargeDepth := 60) [State.cmdEnd, hw]

@[simp] theorem State.command_kept (s : State) (raw : BitVec 256) (f : State → Nat → State × Option Nat) (hw : State.kept base s) (hf : ∀ (s : State) n, State.kept base s → State.kept base (f s n).1) :
    State.kept base (State.command s raw f) := by
  simp only [State.command]
  repeat' split
  all_goals simp_all (maxDischargeDepth := 60) +contextual

@[simp] theorem State.uncover_kept (s : State) (st : Nat) (d : Desc) (hw : State.kept base s) :
    State.kept base (State.uncover s st d) := by simp (maxDischargeDepth := 60) [State.uncover, hw]

@[simp] theorem State.haltDesc_kept (s : State) (st : Nat) (d : Desc) (code : Nat) (hw : State.kept base s) :
    State.kept base (State.haltDesc s st d code) := by simp (maxDischargeDepth := 60) [State.haltDesc, hw]

@[simp] theorem State.rejectFirst_kept (s : State) (raw : BitVec 256) (hw : State.kept base s) :
    State.kept base (State.rejectFirst s raw |>.2) := by
  unfold State.rejectFirst
  repeat' split
  all_goals simp (maxDischargeDepth := 60) [hw]

@[simp] theorem State.reject_kept (s : State) (st : Nat) (d : Desc) (code : Nat) (hw : State.kept base s) :
    State.kept base (State.reject s st d code) := by
  unfold State.reject
  extract_lets s00 s0 s0b lines r s1 s2 s3 s4
  have h00 : State.kept base s00 := State.dropReads_kept _ _ _ hw
  have h0 : State.kept base s0 := h00
  have h0b : State.kept base s0b := by simp only [s0b]; split <;> simp (maxDischargeDepth := 60) [h0]
  have hr : State.kept base r.2 := by simp (maxDischargeDepth := 60) [r, h0b]
  split
  · have h1 : State.kept base s1 := by simp (maxDischargeDepth := 60) [s1, hr]
    split
    · have h2 : State.kept base s2 := by simp (maxDischargeDepth := 60) [s2, h1]
      have h3 : State.kept base s3 := by simp only [s3]; split <;> simp (maxDischargeDepth := 60) [h2]
      simp (maxDischargeDepth := 60) [h3]
    · simp (maxDischargeDepth := 60) [h1]
  · have h4 : State.kept base s4 := by simp (maxDischargeDepth := 60) [s4, hr]
    split <;> simp (maxDischargeDepth := 60) [h4]

@[simp] theorem State.ringHalt_kept (s : State) (st code : Nat) (hw : State.kept base s) :
    State.kept base (State.ringHalt s st code) := by simp (maxDischargeDepth := 60) [State.ringHalt, hw]

@[simp] theorem State.skipSlots_kept (s : State) (st n : Nat) (hw : State.kept base s) :
    State.kept base (State.skipSlots s st n) := by
  induction n generalizing s  with
  | zero => exact hw
  | succ n ih =>
    unfold State.skipSlots
    repeat' split
    all_goals simp (maxDischargeDepth := 60) [hw, ih]

@[simp] theorem State.takeDesc_kept (s : State) (st : Nat) (raw : BitVec 256) (hw : State.kept base s) :
    State.kept base (State.takeDesc s st raw) := by
  unfold State.takeDesc
  simp [hw]

@[simp] theorem State.atSlot_kept (s : State) (st : Nat) (hw : State.kept base s) :
    State.kept base (State.atSlot s st) := State.skipSlots_kept _ _ _ hw

@[simp] theorem State.tookTurn_kept (s : State) (st : Nat) (hw : State.kept base s) :
    State.kept base (State.tookTurn s st) := by simp (maxDischargeDepth := 60) [State.tookTurn, hw]

@[simp] theorem State.fetched_kept (s : State) (st : Nat) (raw : BitVec 256) (f : State → Desc → State)
    (hw : State.kept base s) (hf : ∀ (s : State) d, State.kept base s → State.kept base (f s d)) :
    State.kept base (State.fetched s st raw f) := by
  have h0 : State.kept base (s.atSlot st) := by simp only [State.atSlot_kept, hw]
  unfold State.fetched
  generalize s.atSlot st = t at h0
  dsimp only
  split
  · exact h0
  · split
    · simp [h0]
    · apply hf; simp [h0]

@[simp] theorem State.waits_kept (s : State) (st : Nat) (d : Desc) (ph : Phase) (hw : State.kept base s) :
    State.kept base (State.waits s st d ph) := by simp (maxDischargeDepth := 60) [State.waits, hw]

@[simp] theorem State.doneNow_kept (s : State) (st : Nat) (d : Desc) (status first : Nat) (hw : State.kept base s) :
    State.kept base (State.doneNow s st d status first) := by simp (maxDischargeDepth := 60) [State.doneNow, hw]

end Sys2Proof.Machine
end

