-- ==== Sys2Proof/Laws/KeptHostRows.lean ====
section
/-! SUPPORT. Every operation of Machine/HostRows.lean keeps registers and memories in their canonical form, the queue and the serial number. -/

namespace Sys2Proof.Machine

variable {base : State}

@[simp] theorem State.doorbellPoll_kept (s : State) (hw : State.kept base s) :
    State.kept base (State.doorbellPoll s) := by simp (maxDischargeDepth := 60) [State.doorbellPoll, hw]

@[simp] theorem State.takeSummary_kept (s : State) (line : Nat) (hw : State.kept base s) :
    State.kept base (State.takeSummary s line) := by simp (maxDischargeDepth := 60) [State.takeSummary, hw]

@[simp] theorem State.summaryDone_kept (s : State) (ok : Bool) (line : Nat) (hw : State.kept base s) :
    State.kept base (State.summaryDone s ok line) := by simp (maxDischargeDepth := 60) [State.summaryDone, hw]

@[simp] theorem State.takeProd_kept (s : State) (st : Nat) (v : Word) (hw : State.kept base s) :
    State.kept base (State.takeProd s st v) := by simp (maxDischargeDepth := 60) [State.takeProd, hw]

@[simp] theorem State.producerDone_kept (s : State) (ok : Bool) (words : Nat) (hw : State.kept base s) :
    State.kept base (State.producerDone s ok words) := by simp (maxDischargeDepth := 60) +contextual [State.producerDone, hw]

@[simp] theorem State.dfetch_kept (s : State) (st : Nat) (poisoned : Bool) (hw : State.kept base s) :
    State.kept base (State.dfetch s st poisoned) := by
  have h0 : State.kept base (s.atSlot st) := by simp only [State.atSlot_kept, hw]
  unfold State.dfetch
  generalize s.atSlot st = t at h0
  dsimp only
  split
  · exact h0
  · repeat' split
    all_goals simp (maxDischargeDepth := 60) [h0]

@[simp] theorem State.cqEnable_kept (s : State) (q : Nat) (v : Word) (hw : State.kept base s) :
    State.kept base (State.cqEnable s q v) := by simp (maxDischargeDepth := 60) [State.cqEnable, hw]

@[simp] theorem State.streamEnable_kept (s : State) (st : Nat) (v : Word) (hw : State.kept base s) :
    State.kept base (State.streamEnable s st v) := by simp (maxDischargeDepth := 60) [State.streamEnable, hw]

@[simp] theorem State.pollResume_kept (s : State) (hw : State.kept base s) :
    State.kept base (State.pollResume s) := by simp (maxDischargeDepth := 60) [State.pollResume, hw]

@[simp] theorem State.busMaster_kept (s : State) (on : Bool) (hw : State.kept base s) :
    State.kept base (State.busMaster s on) := by simp (maxDischargeDepth := 60) +contextual [State.busMaster, hw]

@[simp] theorem State.periodFigures_kept (s : State) (load : Nat) (backlog : Nat) (low : Bool) (hw : State.kept base s) :
    State.kept base (State.periodFigures s load backlog low) := by simp (maxDischargeDepth := 60) [State.periodFigures, hw]

@[simp] theorem State.statusPeriodEnd_kept (s : State) (load : Nat) (backlog : Nat) (low : Bool) (hw : State.kept base s) :
    State.kept base (State.statusPeriodEnd s load backlog low) := by simp (maxDischargeDepth := 60) [State.statusPeriodEnd, hw]

end Sys2Proof.Machine
end

