-- ==== Sys2Proof/Laws/KeptBandRows.lean ====
section
/-! SUPPORT. Every operation of Machine/BandRows.lean keeps registers and memories in their canonical form, the queue and the serial number. -/

namespace Sys2Proof.Machine

variable {base : State}

@[simp] theorem State.bandAccept_kept (s : State) (st : Nat) (d : Desc) (hw : State.kept base s) :
    State.kept base (State.bandAccept s st d) := by simp (maxDischargeDepth := 60) [State.bandAccept, hw]

@[simp] theorem State.lineWait_kept (s : State) (st : Nat) (d : Desc) (hw : State.kept base s) :
    State.kept base (State.lineWait s st d) := by simp (maxDischargeDepth := 60) [State.lineWait, hw]

@[simp] theorem State.stripTaken_kept (s : State) (start : Nat) (hw : State.kept base s) :
    State.kept base (State.stripTaken s start) := by simp (maxDischargeDepth := 60) [State.stripTaken, hw]

@[simp] theorem State.stripAccept_kept (s : State) (st : Nat) (d : Desc) (hw : State.kept base s) :
    State.kept base (State.stripAccept s st d) := by simp (maxDischargeDepth := 60) [State.stripAccept, hw]

@[simp] theorem State.passRecords_kept (s : State) (st c : Nat) (last : Bool) (n : Nat) (bs : List Byte) (hw : State.kept base s) :
    State.kept base (State.passRecords s st c last n bs |>.1) := by
  induction n generalizing s bs with
  | zero => exact hw
  | succ n ih =>
    unfold State.passRecords
    dsimp only
    split
    · exact hw
    · exact ih _ _ (by simp (maxDischargeDepth := 60) [hw])

@[simp] theorem State.tableData_kept (s : State) (st : Nat) (ok : Bool) (data : List (BitVec 128)) (hw : State.kept base s) :
    State.kept base (State.tableData s st ok data) := by
  unfold State.tableData
  split
  · exact hw
  · rename_i d _
    split
    · exact hw
    · split
      · extract_lets s1 s2
        have h1 : State.kept base s1 := by simp (maxDischargeDepth := 60) [s1, hw]
        have h2 : State.kept base s2 := by simp only [s2]; split <;> simp (maxDischargeDepth := 60) [h1]
        split <;> simp (maxDischargeDepth := 60) [h2]
      · simp (maxDischargeDepth := 60) [hw]

@[simp] theorem State.bandAdmit_kept (s : State) (st : Nat) (hw : State.kept base s) :
    State.kept base (State.bandAdmit s st) := by
  unfold State.bandAdmit
  repeat' split
  all_goals simp (maxDischargeDepth := 60) +contextual [*]

@[simp] theorem State.bandIssue_kept (s : State) (st len : Nat) (hw : State.kept base s) :
    State.kept base (State.bandIssue s st len) := by
  unfold State.bandIssue
  repeat' split
  all_goals simp (maxDischargeDepth := 60) +contextual [*]

@[simp] theorem State.bandReady_kept (s : State) (st : Nat) (d : Desc) (slack : Bool) (hw : State.kept base s) :
    State.kept base (State.bandReady s st d slack) := by simp (maxDischargeDepth := 60) [State.bandReady, hw]

@[simp] theorem State.bandTake_kept (s : State) (st : Nat) (ok : Bool) (data : List MByte) (hw : State.kept base s) :
    State.kept base (State.bandTake s st ok data) := by
  simp only [State.bandTake]
  repeat' split
  all_goals simp_all (maxDischargeDepth := 60) +contextual

@[simp] theorem State.bandData_kept (s : State) (st : Nat) (ok : Bool) (data : List MByte) (hw : State.kept base s) :
    State.kept base (State.bandData s st ok data) := by
  simp only [State.bandData]
  repeat' split
  all_goals simp_all (maxDischargeDepth := 60) +contextual

end Sys2Proof.Machine
end

