-- ==== Sys2Proof/Laws/KeptTransOps.lean ====
section
/-! SUPPORT. Every operation of Machine/TransOps.lean keeps registers and memories in their canonical form, the queue and the serial number. -/

namespace Sys2Proof.Machine

variable {base : State}

@[simp] theorem State.freeze_kept (s : State) (hw : State.kept base s) :
    State.kept base (State.freeze s) := by simp (maxDischargeDepth := 60) +contextual [State.freeze, hw]

@[simp] theorem State.seqTo_kept (s : State) (q : Nat) (hw : State.kept base s) :
    State.kept base (State.seqTo s q) := by simp (maxDischargeDepth := 60) [State.seqTo, hw]

@[simp] theorem State.toStop_kept (s : State) (hw : State.kept base s) :
    State.kept base (State.toStop s) := by simp (maxDischargeDepth := 60) [State.toStop, hw]

@[simp] theorem State.refreeze_kept (s : State) (hw : State.kept base s) :
    State.kept base (State.refreeze s) := by simp (maxDischargeDepth := 60) +contextual [State.refreeze, hw]

@[simp] theorem State.spliceRequest_kept (s : State) (hw : State.kept base s) :
    State.kept base (State.spliceRequest s) := by simp (maxDischargeDepth := 60) [State.spliceRequest, hw]

@[simp] theorem State.toBack_kept (s : State) (hw : State.kept base s) :
    State.kept base (State.toBack s) := by simp (maxDischargeDepth := 60) [State.toBack, hw]

@[simp] theorem State.passLost_kept (s : State) (h n k : Nat) (hw : State.kept base s) :
    State.kept base (State.passLost s h n k |>.1) := by
  induction n generalizing s k with
  | zero => exact hw
  | succ n ih =>
    unfold State.passLost
    dsimp only
    split
    · exact ih _ _ (by simp (maxDischargeDepth := 60) [hw])
    · exact hw

@[simp] theorem State.zoneAdd_kept (s : State) (h n : Nat) (hw : State.kept base s) :
    State.kept base (State.zoneAdd s h n) := by simp (maxDischargeDepth := 60) [State.zoneAdd, hw]

@[simp] theorem State.releaseLost_kept (s : State) (hw : State.kept base s) :
    State.kept base (State.releaseLost s) := by
  unfold State.releaseLost
  exact kept_foldl _ (by simp (maxDischargeDepth := 60) [hw]) (fun t h ht => by
    have := State.passLost_kept t h lineFuel 0 ht
    dsimp only
    generalize t.passLost h lineFuel 0 = r at this
    simp (maxDischargeDepth := 60) [this])

@[simp] theorem State.toApproach_kept (s : State) (hw : State.kept base s) :
    State.kept base (State.toApproach s) := by simp (maxDischargeDepth := 60) [State.toApproach, hw]

@[simp] theorem State.zoneRecord_kept (s : State) (hw : State.kept base s) :
    State.kept base (State.zoneRecord s) := by simp (maxDischargeDepth := 60) [State.zoneRecord, hw]

@[simp] theorem State.spliceForget_kept (s : State) (hw : State.kept base s) :
    State.kept base (State.spliceForget s) := by simp (maxDischargeDepth := 60) +contextual [State.spliceForget, hw]

@[simp] theorem State.toIdle_kept (s : State) (hw : State.kept base s) :
    State.kept base (State.toIdle s) := by simp (maxDischargeDepth := 60) [State.toIdle, hw]

@[simp] theorem State.spliceEnd_kept (s : State) (hw : State.kept base s) :
    State.kept base (State.spliceEnd s) := by simp (maxDischargeDepth := 60) [State.spliceEnd, hw]

@[simp] theorem State.startOver_kept (s : State) (hw : State.kept base s) :
    State.kept base (State.startOver s) := by simp (maxDischargeDepth := 60) [State.startOver, hw]

@[simp] theorem State.follow_kept (s : State) (q : Nat) (hw : State.kept base s) :
    State.kept base (State.follow s q) := by simp (maxDischargeDepth := 60) [State.follow, hw]

@[simp] theorem State.pointBack_kept (s : State) (h : Nat) (hw : State.kept base s) :
    State.kept base (State.pointBack s h) := by
  unfold State.pointBack
  extract_lets x
  split
  · extract_lets f scr s1 s2
    have h1 : State.kept base s1 := State.modHead_kept _ _ _ hw
    split
    · exact h1
    · have h2 : State.kept base s2 := kept_foldl _ h1 (fun t k ht => by simp (maxDischargeDepth := 60) [ht])
      exact State.setSplice_kept _ _ (State.zoneAdd_kept _ _ _ (State.modHead_kept _ _ _ h2))
  · exact hw

@[simp] theorem State.twinResume_kept (s : State) (hw : State.kept base s) :
    State.kept base (State.twinResume s) := by simp (maxDischargeDepth := 60) +contextual [State.twinResume, hw]

end Sys2Proof.Machine
end

