-- ==== Sys2Proof/Laws/KeptTransRows.lean ====
section
/-! SUPPORT. Every operation of Machine/TransRows.lean keeps registers and memories in their canonical form, the queue and the serial number. -/

namespace Sys2Proof.Machine

variable {base : State}

@[simp] theorem State.driveReady_kept (s : State) (low : Bool) (hw : State.kept base s) :
    State.kept base (State.driveReady s low) := by simp (maxDischargeDepth := 60) [State.driveReady, hw]

@[simp] theorem State.startToIdle_kept (s : State) (hw : State.kept base s) :
    State.kept base (State.startToIdle s) := by simp (maxDischargeDepth := 60) [State.startToIdle, hw]

@[simp] theorem State.stopSettled_kept (s : State) (hw : State.kept base s) :
    State.kept base (State.stopSettled s) := by simp (maxDischargeDepth := 60) [State.stopSettled, hw]

@[simp] theorem State.backReached_kept (s : State) (hw : State.kept base s) :
    State.kept base (State.backReached s) := by simp (maxDischargeDepth := 60) [State.backReached, hw]

@[simp] theorem State.waitToApproach_kept (s : State) (hw : State.kept base s) :
    State.kept base (State.waitToApproach s) := by simp (maxDischargeDepth := 60) [State.waitToApproach, hw]

@[simp] theorem State.approachToIdle_kept (s : State) (hw : State.kept base s) :
    State.kept base (State.approachToIdle s) := by simp (maxDischargeDepth := 60) [State.approachToIdle, hw]

@[simp] theorem State.spliceFault_kept (s : State) (hw : State.kept base s) :
    State.kept base (State.spliceFault s) := by simp (maxDischargeDepth := 60) [State.spliceFault, hw]

end Sys2Proof.Machine
end

