-- ==== Sys2Proof/Laws/KeptAuth.lean ====
section
/-! SUPPORT. Every operation of Machine/Auth.lean keeps registers and memories in their canonical form, the queue and the serial number. -/

namespace Sys2Proof.Machine

variable {base : State}

@[simp] theorem State.authIdle_kept (s : State) (hw : State.kept base s) :
    State.kept base (State.authIdle s) := by simp (maxDischargeDepth := 60) [State.authIdle, hw]

@[simp] theorem State.authUse_kept (s : State) (hw : State.kept base s) :
    State.kept base (State.authUse s) := by simp (maxDischargeDepth := 60) [State.authUse, hw]

end Sys2Proof.Machine
end

