-- ==== Sys2Proof/Laws/KeptTrimRows.lean ====
section
/-! SUPPORT. Every operation of Machine/TrimRows.lean keeps registers and memories in their canonical form, the queue and the serial number. -/

namespace Sys2Proof.Machine

variable {base : State}

@[simp] theorem State.trimStep_kept (s : State) (n : Nat) (hw : State.kept base s) :
    State.kept base (State.trimStep s n) := by simp (maxDischargeDepth := 60) [State.trimStep, hw]

@[simp] theorem State.ceilWrite_kept (s : State) (j : Nat) (v : Word) (hearth : Bool) (hw : State.kept base s) :
    State.kept base (State.ceilWrite s j v hearth) := by simp (maxDischargeDepth := 60) [State.ceilWrite, hw]

@[simp] theorem State.auxWrite_kept (s : State) (k : Nat) (v : Word) (hearth : Bool) (hw : State.kept base s) :
    State.kept base (State.auxWrite s k v hearth) := by simp (maxDischargeDepth := 60) [State.auxWrite, hw]

@[simp] theorem State.setFault_kept (s : State) (n : Nat) (b : Bool) (hw : State.kept base s) :
    State.kept base (State.setFault s n b) := by simp (maxDischargeDepth := 60) [State.setFault, hw]

@[simp] theorem State.measure_kept (s : State) (n v : Nat) (hw : State.kept base s) :
    State.kept base (State.measure s n v) := by simp (maxDischargeDepth := 60) [State.measure, hw]

@[simp] theorem State.monitor_kept (s : State) (v : Nat) (hw : State.kept base s) :
    State.kept base (State.monitor s v) := by simp (maxDischargeDepth := 60) [State.monitor, hw]

@[simp] theorem State.nominal_kept (s : State) (hw : State.kept base s) :
    State.kept base (State.nominal s) := by simp (maxDischargeDepth := 60) [State.nominal, hw]

@[simp] theorem State.trimLoaded_kept (s : State) (ok : Bool) (hw : State.kept base s) :
    State.kept base (State.trimLoaded s ok) := by simp (maxDischargeDepth := 60) [State.trimLoaded, hw]

end Sys2Proof.Machine
end

