-- ==== Sys2Proof/Laws/KeptJobOps.lean ====
section
/-! SUPPORT. Every operation of Machine/JobOps.lean keeps registers and memories in their canonical form, the queue and the serial number. -/

namespace Sys2Proof.Machine

variable {base : State}

theorem State.armCheck_kept (s : State) (hw : State.kept base s) (c : Nat × State)
    (h : s.armCheck = some c) : State.kept base c.2 := by
  unfold State.armCheck at h
  repeat' split at h
  all_goals simp at h
  all_goals subst h
  all_goals simp (maxDischargeDepth := 60) [hw]

@[simp] theorem State.putOrigin_kept (s : State) (torg : Int) (lorg : Nat) (hw : State.kept base s) :
    State.kept base (State.putOrigin s torg lorg) := by simp (maxDischargeDepth := 60) [State.putOrigin, hw]

@[simp] theorem State.takeOrigin_kept (s : State) (hw : State.kept base s) :
    State.kept base (State.takeOrigin s) := by simp (maxDischargeDepth := 60) [State.takeOrigin, hw]

@[simp] theorem State.startHead_kept (s : State) (h : Nat) (hw : State.kept base s) :
    State.kept base (State.startHead s h) := by simp (maxDischargeDepth := 60) [State.startHead, hw]

@[simp] theorem State.startHeads_kept (s : State) (hw : State.kept base s) :
    State.kept base (State.startHeads s) := by simp (maxDischargeDepth := 60) +contextual [State.startHeads, hw]

@[simp] theorem State.recheckWaits_kept (s : State) (hw : State.kept base s) :
    State.kept base (State.recheckWaits s) := by simp (maxDischargeDepth := 60) +contextual [State.recheckWaits, hw]

@[simp] theorem State.clearCover_kept (s : State) (hw : State.kept base s) :
    State.kept base (State.clearCover s) := by simp (maxDischargeDepth := 60) +contextual [State.clearCover, hw]

@[simp] theorem State.standingCauses_kept (s : State) (hw : State.kept base s) :
    State.kept base (State.standingCauses s) := by simp (maxDischargeDepth := 60) [State.standingCauses, hw]

@[simp] theorem State.armOut_kept (s : State) (h : Nat) (hw : State.kept base s) :
    State.kept base (State.armOut s h) := by simp (maxDischargeDepth := 60) [State.armOut, hw]

@[simp] theorem State.armSwap_kept (s : State) (hw : State.kept base s) :
    State.kept base (State.armSwap s) := by simp (maxDischargeDepth := 60) [State.armSwap, hw]

@[simp] theorem State.dropModes_kept (s : State) (hw : State.kept base s) :
    State.kept base (State.dropModes s) := by simp (maxDischargeDepth := 60) +contextual [State.dropModes, hw]

@[simp] theorem State.armJob_kept (s : State) (seed : Nat) (hw : State.kept base s) :
    State.kept base (State.armJob s seed) := by simp (maxDischargeDepth := 60) +contextual [State.armJob, hw]

@[simp] theorem State.armNow_kept (s : State) (seed : Nat) (hw : State.kept base s) :
    State.kept base (State.armNow s seed) := by simp (maxDischargeDepth := 60) +contextual [State.armNow, hw]

@[simp] theorem State.endHead_kept (s : State) (h e : Nat) (hw : State.kept base s) :
    State.kept base (State.endHead s h e) := by simp (maxDischargeDepth := 60) [State.endHead, hw]

@[simp] theorem State.endHere_kept (s : State) (h : Nat) (hw : State.kept base s) :
    State.kept base (State.endHere s h) := by simp (maxDischargeDepth := 60) [State.endHere, hw]

@[simp] theorem State.keepFigures_kept (s : State) (hw : State.kept base s) :
    State.kept base (State.keepFigures s) := by simp (maxDischargeDepth := 60) +contextual [State.keepFigures, hw]

@[simp] theorem State.abortAll_kept (s : State) (hw : State.kept base s) :
    State.kept base (State.abortAll s) := by simp (maxDischargeDepth := 60) +contextual [State.abortAll, hw]

@[simp] theorem State.unhaltAll_kept (s : State) (hw : State.kept base s) :
    State.kept base (State.unhaltAll s) := by simp (maxDischargeDepth := 60) +contextual [State.unhaltAll, hw]

@[simp] theorem State.returnCut_kept (s : State) (hw : State.kept base s) :
    State.kept base (State.returnCut s) := by simp (maxDischargeDepth := 60) +contextual [State.returnCut, hw]

@[simp] theorem State.jobEnd_kept (s : State) (hw : State.kept base s) :
    State.kept base (State.jobEnd s) := by simp (maxDischargeDepth := 60) +contextual [State.jobEnd, hw]

end Sys2Proof.Machine
end

