-- ==== Sys2Proof/Laws/KeptCordOps.lean ====
section
/-! SUPPORT. Every operation of Machine/CordOps.lean keeps registers and memories in their canonical form, the queue and the serial number. -/

namespace Sys2Proof.Machine

variable {base : State}

@[simp] theorem State.setCord_kept (s : State) (c : Cord) (hw : State.kept base s) :
    State.kept base (State.setCord s c) := by simp (maxDischargeDepth := 60) [State.setCord, hw]

@[simp] theorem State.ringSend_kept (s : State) (r kind : Nat) (body : List Nat) (hw : State.kept base s) :
    State.kept base (State.ringSend s r kind body) := by simp (maxDischargeDepth := 60) [State.ringSend, hw]

@[simp] theorem State.forward_kept (s : State) (h : Hdr) (kind : Nat) (body : List Nat) (hw : State.kept base s) :
    State.kept base (State.forward s h kind body) := by simp (maxDischargeDepth := 60) [State.forward, hw]

@[simp] theorem State.originate_kept (s : State) (r kind : Nat) (body : List Nat) (hw : State.kept base s) :
    State.kept base (State.originate s r kind body) := by simp (maxDischargeDepth := 60) [State.originate, hw]

@[simp] theorem State.ringShow_kept (s : State) (back crossed : Bool) (hw : State.kept base s) :
    State.kept base (State.ringShow s back crossed) := by simp (maxDischargeDepth := 60) [State.ringShow, hw]

@[simp] theorem State.discipline_kept (s : State) (off : Int) (hw : State.kept base s) :
    State.kept base (State.discipline s off) := by simp (maxDischargeDepth := 60) [State.discipline, hw]

@[simp] theorem State.followLow_kept (s : State) (f : Fld) (old : Option Nat) (a : Nat) (hw : State.kept base s) :
    State.kept base (State.followLow s f old a |>.1) := by
  unfold State.followLow
  repeat' split
  all_goals simp (maxDischargeDepth := 60) [hw]

@[simp] theorem State.capture_kept (s : State) (w : Word) (hw : State.kept base s) :
    State.kept base (State.capture s w) := by simp (maxDischargeDepth := 60) [State.capture, hw]

@[simp] theorem State.originTaken_kept (s : State) (w : Word) (t lam : Int) (hw : State.kept base s) :
    State.kept base (State.originTaken s w t lam) := by simp (maxDischargeDepth := 60) [State.originTaken, hw]

@[simp] theorem State.sendReport_kept (s : State) (hw : State.kept base s) :
    State.kept base (State.sendReport s) := by simp (maxDischargeDepth := 60) [State.sendReport, hw]

@[simp] theorem State.remoteCause_kept (s : State) (hw : State.kept base s) :
    State.kept base (State.remoteCause s) := by simp (maxDischargeDepth := 60) [State.remoteCause, hw]

@[simp] theorem State.sendState_kept (s : State) (hw : State.kept base s) :
    State.kept base (State.sendState s) := by simp (maxDischargeDepth := 60) [State.sendState, hw]

@[simp] theorem State.brxShow_kept (s : State) (hw : State.kept base s) :
    State.kept base (State.brxShow s) := by simp (maxDischargeDepth := 60) +contextual [State.brxShow, hw]

@[simp] theorem State.schedTake_kept (s : State) (kind : Nat) (w : Word) (hw : State.kept base s) :
    State.kept base (State.schedTake s kind w |>.1) := by
  unfold State.schedTake
  repeat' split
  all_goals simp (maxDischargeDepth := 60) [hw]

@[simp] theorem State.schedDrop_kept (s : State) (hw : State.kept base s) :
    State.kept base (State.schedDrop s) := by simp (maxDischargeDepth := 60) [State.schedDrop, hw]

@[simp] theorem State.putMap_kept (s : State) (lo hi map : Nat) (hw : State.kept base s) :
    State.kept base (State.putMap s lo hi map) := by simp (maxDischargeDepth := 60) [State.putMap, hw]

@[simp] theorem State.cordClear_kept (s : State) (hw : State.kept base s) :
    State.kept base (State.cordClear s) := by simp (maxDischargeDepth := 60) [State.cordClear, hw]

end Sys2Proof.Machine
end

