-- ==== Sys2Proof/Laws/KeptCordRows.lean ====
section
/-! SUPPORT. Every operation of Machine/CordRows.lean keeps registers and memories in their canonical form, the queue and the serial number. -/

namespace Sys2Proof.Machine

variable {base : State}

@[simp] theorem State.cordLink_kept (s : State) (l : Nat) (up : Bool) (hw : State.kept base s) :
    State.kept base (State.cordLink s l up) := by simp (maxDischargeDepth := 60) [State.cordLink, hw]

@[simp] theorem State.discover_kept (s : State) (h : Hdr) (mine crossed : Bool) (expect : Nat) (hw : State.kept base s) :
    State.kept base (State.discover s h mine crossed expect) := by
  unfold State.discover
  repeat' split
  all_goals simp (maxDischargeDepth := 60) +contextual [*]

@[simp] theorem State.probeOut_kept (s : State) (l : Nat) (hw : State.kept base s) :
    State.kept base (State.probeOut s l) := by simp (maxDischargeDepth := 60) [State.probeOut, hw]

@[simp] theorem State.discoverOut_kept (s : State) (hw : State.kept base s) :
    State.kept base (State.discoverOut s) := by simp (maxDischargeDepth := 60) [State.discoverOut, hw]

@[simp] theorem State.discoverTimer_kept (s : State) (hw : State.kept base s) :
    State.kept base (State.discoverTimer s) := by simp (maxDischargeDepth := 60) [State.discoverTimer, hw]

@[simp] theorem State.probe_kept (s : State) (l : Nat) (hw : State.kept base s) :
    State.kept base (State.probe s l) := by
  simp only [State.probe]
  repeat' (first | assumption | split | (refine kept_foldl _ ?_ ?_) | (intro _ _ _))
  all_goals simp (maxDischargeDepth := 60) +contextual [*]

@[simp] theorem State.replyIn_kept (s : State) (l rtt turn : Nat) (hw : State.kept base s) :
    State.kept base (State.replyIn s l rtt turn) := by simp (maxDischargeDepth := 60) [State.replyIn, hw]

@[simp] theorem State.syncTimer_kept (s : State) (hw : State.kept base s) :
    State.kept base (State.syncTimer s) := by simp (maxDischargeDepth := 60) [State.syncTimer, hw]

@[simp] theorem State.sync_kept (s : State) (h : Hdr) (time frac : Nat) (hw : State.kept base s) :
    State.kept base (State.sync s h time frac) := by
  unfold State.sync
  split
  · exact hw
  · extract_lets a est s1 f other near cc s2
    have h1 : State.kept base s1 := by simp (maxDischargeDepth := 60) [s1, hw]
    have h2 : State.kept base f.1 := by simp (maxDischargeDepth := 60) [f, h1]
    split
    · exact h2
    · have h3 : State.kept base s2 := State.setCord_kept _ _ h2
      split <;> simp (maxDischargeDepth := 60) [h3]

@[simp] theorem State.holdover_kept (s : State) (hw : State.kept base s) :
    State.kept base (State.holdover s) := by simp (maxDischargeDepth := 60) [State.holdover, hw]

@[simp] theorem State.oreqTimer_kept (s : State) (hw : State.kept base s) :
    State.kept base (State.oreqTimer s) := by simp (maxDischargeDepth := 60) [State.oreqTimer, hw]

@[simp] theorem State.oreq_kept (s : State) (h : Hdr) (job : Word) (hw : State.kept base s) :
    State.kept base (State.oreq s h job) := by simp (maxDischargeDepth := 60) [State.oreq, hw]

@[simp] theorem State.osnap_kept (s : State) (h : Hdr) (job w : Word) (map : Nat) (hw : State.kept base s) :
    State.kept base (State.osnap s h job w map) := by
  unfold State.osnap
  split
  · exact hw
  · extract_lets f cc s1
    have h1 : State.kept base s1 := by simp (maxDischargeDepth := 60) [s1, f, hw]
    split <;> simp (maxDischargeDepth := 60) [h1]

@[simp] theorem State.snapshotDue_kept (s : State) (hw : State.kept base s) :
    State.kept base (State.snapshotDue s) := by
  unfold State.snapshotDue
  repeat' split
  all_goals simp (maxDischargeDepth := 60) +contextual [*]

@[simp] theorem State.origin_kept (s : State) (h : Hdr) (job w : Word) (line frac : Nat) (valid : Bool) (hw : State.kept base s) :
    State.kept base (State.origin s h job w line frac valid) := by
  unfold State.origin
  split
  · exact hw
  · extract_lets f cc s1
    have h1 : State.kept base s1 := by simp (maxDischargeDepth := 60) [s1, f, hw]
    repeat' split
    all_goals simp (maxDischargeDepth := 60) [h1]

@[simp] theorem State.bcast_kept (s : State) (h : Hdr) (msg map : Nat) (hw : State.kept base s) :
    State.kept base (State.bcast s h msg map) := by simp (maxDischargeDepth := 60) [State.bcast, hw]

@[simp] theorem State.bsend_kept (s : State) (hw : State.kept base s) :
    State.kept base (State.bsend s) := by simp (maxDischargeDepth := 60) [State.bsend, hw]

@[simp] theorem State.bpop_kept (s : State) (hw : State.kept base s) :
    State.kept base (State.bpop s) := by simp (maxDischargeDepth := 60) [State.bpop, hw]

@[simp] theorem State.gatherOn_kept (s : State) (g : Gather) (hw : State.kept base s) :
    State.kept base (State.gatherOn s g) := by simp (maxDischargeDepth := 60) [State.gatherOn, hw]

@[simp] theorem State.barDone_kept (s : State) (mm : Bool) (hw : State.kept base s) :
    State.kept base (State.barDone s mm) := by simp (maxDischargeDepth := 60) [State.barDone, hw]

@[simp] theorem State.enter_kept (s : State) (id : Nat) (hw : State.kept base s) :
    State.kept base (State.enter s id) := by
  simp only [State.enter]
  repeat' split
  all_goals simp_all (maxDischargeDepth := 60) +contextual

@[simp] theorem State.gather_kept (s : State) (g : Gather) (hw : State.kept base s) :
    State.kept base (State.gather s g) := by simp (maxDischargeDepth := 60) [State.gather, hw]

@[simp] theorem State.releaseFrame_kept (s : State) (h : Hdr) (id : Nat) (mm : Bool) (hw : State.kept base s) :
    State.kept base (State.releaseFrame s h id mm) := by simp (maxDischargeDepth := 60) [State.releaseFrame, hw]

@[simp] theorem State.schedGo_kept (s : State) (v : Word) (hw : State.kept base s) :
    State.kept base (State.schedGo s v) := by
  unfold State.schedGo
  extract_lets s0 kind w r s1
  have h0 : State.kept base s0 := by simp only [s0]; split <;> simp (maxDischargeDepth := 60) [hw]
  have h1 : State.kept base s1 := by simp only [s1, r]; split <;> simp (maxDischargeDepth := 60) [h0]
  repeat' split
  all_goals simp (maxDischargeDepth := 60) [h0, h1]

@[simp] theorem State.sched_kept (s : State) (h : Hdr) (kind : Nat) (w : Word) (map : Nat) (hw : State.kept base s) :
    State.kept base (State.sched s h kind w map) := by
  unfold State.sched
  split
  · exact hw
  · split
    · split
      · extract_lets s1
        have h1 : State.kept base s1 := by simp (maxDischargeDepth := 60) [s1, hw]
        split <;> simp (maxDischargeDepth := 60) [h1]
      · exact hw
    · extract_lets q
      have h1 : State.kept base q.1 := by simp (maxDischargeDepth := 60) [q, hw]
      simp (maxDischargeDepth := 60) [h1]

@[simp] theorem State.frameLost_kept (s : State) (isSched : Bool) (hw : State.kept base s) :
    State.kept base (State.frameLost s isSched) := by simp (maxDischargeDepth := 60) [State.frameLost, hw]

@[simp] theorem State.cordCtl_kept (s : State) (v : Word) (hw : State.kept base s) :
    State.kept base (State.cordCtl s v) := by simp (maxDischargeDepth := 60) [State.cordCtl, hw]

@[simp] theorem State.trnrep_kept (s : State) (h : Hdr) (job : Word) (armed : Bool) (g causes back : Nat) (ready : Bool) (hw : State.kept base s) :
    State.kept base (State.trnrep s h job armed g causes back ready) := by simp (maxDischargeDepth := 60) [State.trnrep, hw]

@[simp] theorem State.trnrepTimer_kept (s : State) (hw : State.kept base s) :
    State.kept base (State.trnrepTimer s) := by simp (maxDischargeDepth := 60) [State.trnrepTimer, hw]

@[simp] theorem State.trnrepTimeout_kept (s : State) (a : Nat) (hw : State.kept base s) :
    State.kept base (State.trnrepTimeout s a) := by simp (maxDischargeDepth := 60) [State.trnrepTimeout, hw]

@[simp] theorem State.trnstate_kept (s : State) (h : Hdr) (q count : Nat) (hw : State.kept base s) :
    State.kept base (State.trnstate s h q count) := by simp (maxDischargeDepth := 60) [State.trnstate, hw]

@[simp] theorem State.trnstateTimer_kept (s : State) (hw : State.kept base s) :
    State.kept base (State.trnstateTimer s) := by simp (maxDischargeDepth := 60) [State.trnstateTimer, hw]

@[simp] theorem State.trnstateTimeout_kept (s : State) (hw : State.kept base s) :
    State.kept base (State.trnstateTimeout s) := by simp (maxDischargeDepth := 60) [State.trnstateTimeout, hw]

end Sys2Proof.Machine
end

