-- ==== Sys2Proof/Laws/KeptPowerOps.lean ====
section
/-! SUPPORT. Every operation of Machine/PowerOps.lean keeps registers and memories in their canonical form, the queue and the serial number. -/

namespace Sys2Proof.Machine

variable {base : State}

@[simp] theorem State.setPower_kept (s : State) (p : Power) (hw : State.kept base s) :
    State.kept base (State.setPower s p) := by simp (maxDischargeDepth := 60) [State.setPower, hw]

@[simp] theorem State.setSvc_kept (s : State) (v : Svc) (hw : State.kept base s) :
    State.kept base (State.setSvc s v) := by simp (maxDischargeDepth := 60) [State.setSvc, hw]

@[simp] theorem State.setRetn_kept (s : State) (k : Nat) (w : MWord) (hw : State.kept base s) :
    State.kept base (State.setRetn s k w) := by
  have h := (Tables.wf_iff _).1 hw.2.1
  exact State.setTabs_wf_kept _ _ hw (by rw [Tables.wf_iff]; simp [h])

@[simp] theorem State.retnWrite_kept (s : State) (bs : List Byte) (hw : State.kept base s) :
    State.kept base (State.retnWrite s bs) := by simp (maxDischargeDepth := 60) +contextual [State.retnWrite, hw]

@[simp] theorem State.putRecord_kept (s : State) (why : Nat) (hw : State.kept base s) :
    State.kept base (State.putRecord s why) := by simp (maxDischargeDepth := 60) [State.putRecord, hw]

@[simp] theorem State.retnTouch_kept (s : State) (k : Nat) (hw : State.kept base s) :
    State.kept base (State.retnTouch s k) := by simp (maxDischargeDepth := 60) [State.retnTouch, hw]

@[simp] theorem State.checkRecord_kept (s : State) (hw : State.kept base s) :
    State.kept base (State.checkRecord s) := by simp (maxDischargeDepth := 60) +contextual [State.checkRecord, hw]

@[simp] theorem State.failFreeze_kept (s : State) (hw : State.kept base s) :
    State.kept base (State.failFreeze s) := by simp (maxDischargeDepth := 60) [State.failFreeze, hw]

@[simp] theorem State.keepBits_kept (s old : State) (a : Nat) (m : Word) (hw : State.kept base s) :
    State.kept base (State.keepBits s old a m) := by simp (maxDischargeDepth := 60) [State.keepBits, hw]

@[simp] theorem State.loadCeil_kept (s : State) (hw : State.kept base s) :
    State.kept base (State.loadCeil s) := by simp (maxDischargeDepth := 60) +contextual [State.loadCeil, hw]

@[simp] theorem State.twinAnew_kept (s : State) (hw : State.kept base s) :
    State.kept base (State.twinAnew s) := by simp (maxDischargeDepth := 60) [State.twinAnew, hw]

@[simp] theorem State.drivenShow_kept (s : State) (hw : State.kept base s) :
    State.kept base (State.drivenShow s) := by simp (maxDischargeDepth := 60) +contextual [State.drivenShow, hw]

@[simp] theorem State.setFlash_kept (s : State) (k : Nat) (bs : List Byte) (hw : State.kept base s) :
    State.kept base (State.setFlash s k bs) := by simp (maxDischargeDepth := 60) [State.setFlash, hw]

@[simp] theorem State.flashCut_kept (s : State) (hw : State.kept base s) :
    State.kept base (State.flashCut s) := by simp (maxDischargeDepth := 60) [State.flashCut, hw]

@[simp] theorem State.trimsZero_kept (s : State) (hw : State.kept base s) :
    State.kept base (State.trimsZero s) := by simp (maxDischargeDepth := 60) +contextual [State.trimsZero, hw]

@[simp] theorem State.wipe_kept (s : State) (soft : Bool) (hw : State.kept base s) :
    State.kept base (State.wipe s soft) := by
  unfold State.wipe
  have hl : State.kept base s.leaveAll := State.leaveAll_kept _ hw
  extract_lets pw p tm tr fr s1 s2 s3
  have h1 : State.kept base s1 := ⟨SMap.wf_nil, Tables.wf_quiet hl.2.1, hw.2.2.1, SMap.wf_nil, (by cases soft; exact SMap.wf_nil; exact hw.2.2.2.2.1), hw.2.2.2.2.2.1, hw.2.2.2.2.2.2⟩
  have h2 : State.kept base s2 := kept_foldl _ h1 (fun t k ht => by simp (maxDischargeDepth := 60) [ht])
  have h3 : State.kept base s3 := by simp only [s3]; split <;> simp (maxDischargeDepth := 60) [h2]
  split
  · exact h3
  · simp (maxDischargeDepth := 60) [h3]

@[simp] theorem State.clearAll_kept (s : State) (soft : Bool) (hw : State.kept base s) :
    State.kept base (State.clearAll s soft) := by simp (maxDischargeDepth := 60) [State.clearAll, hw]

@[simp] theorem State.keepTime_kept (s old : State) (hw : State.kept base s) :
    State.kept base (State.keepTime s old) := by
  unfold State.keepTime
  extract_lets s1
  have h1 : State.kept base s1 := kept_foldl _ hw (fun t q ht => by simp (maxDischargeDepth := 60) [ht])
  simp (maxDischargeDepth := 60) [h1]

@[simp] theorem State.bootStart_kept (s : State) (hw : State.kept base s) :
    State.kept base (State.bootStart s) := by
  have h0 : State.kept base (s.setTabs { s.tabs with hsram := [] }) := State.setTabs_wf_kept _ _ hw (Tables.wf_hsram hw.2.1 (m := []) rfl)
  unfold State.bootStart
  extract_lets b tt s0 s1 sv
  have hs : State.kept base s0 := State.setMerge_kept _ _ _ h0
  have h1 : State.kept base s1 := by simp (maxDischargeDepth := 60) [s1, hs]
  repeat' split
  all_goals simp (maxDischargeDepth := 60) [h1]

@[simp] theorem State.hearthStop_kept (s : State) (hw : State.kept base s) :
    State.kept base (State.hearthStop s) := by simp (maxDischargeDepth := 60) [State.hearthStop, hw]

@[simp] theorem State.hearthReset_kept (s : State) (hw : State.kept base s) :
    State.kept base (State.hearthReset s) := by simp (maxDischargeDepth := 60) [State.hearthReset, hw]

@[simp] theorem State.posAnew_kept (s : State) (hw : State.kept base s) :
    State.kept base (State.posAnew s) := by simp (maxDischargeDepth := 60) [State.posAnew, hw]

@[simp] theorem State.hearthWake_kept (s : State) (hw : State.kept base s) :
    State.kept base (State.hearthWake s) := by simp (maxDischargeDepth := 60) [State.hearthWake, hw]

@[simp] theorem State.takeReset_kept (s : State) (r : Nat) (hw : State.kept base s) :
    State.kept base (State.takeReset s r) := by simp (maxDischargeDepth := 60) +contextual [State.takeReset, hw]

@[simp] theorem State.delayReset_kept (s : State) (r bits : Nat) (hw : State.kept base s) :
    State.kept base (State.delayReset s r bits) := by simp (maxDischargeDepth := 60) [State.delayReset, hw]

@[simp] theorem State.resetBy_kept (s : State) (b r : Nat) (hw : State.kept base s) :
    State.kept base (State.resetBy s b r) := by
  unfold State.resetBy
  repeat' split
  all_goals simp (maxDischargeDepth := 60) +contextual [*]

@[simp] theorem State.pinsShow_kept (s : State) (hw : State.kept base s) :
    State.kept base (State.pinsShow s) := by simp (maxDischargeDepth := 60) +contextual [State.pinsShow, hw]

@[simp] theorem State.trimsOff_kept (s : State) (hw : State.kept base s) :
    State.kept base (State.trimsOff s) := by simp (maxDischargeDepth := 60) +contextual [State.trimsOff, hw]

@[simp] theorem State.cordDown_kept (s : State) (hw : State.kept base s) :
    State.kept base (State.cordDown s) := by simp (maxDischargeDepth := 60) [State.cordDown, hw]

@[simp] theorem State.twinSleep_kept (s : State) (hw : State.kept base s) :
    State.kept base (State.twinSleep s) := by simp (maxDischargeDepth := 60) [State.twinSleep, hw]

@[simp] theorem State.twinWake_kept (s : State) (hw : State.kept base s) :
    State.kept base (State.twinWake s) := by simp (maxDischargeDepth := 60) [State.twinWake, hw]

@[simp] theorem State.toSmoulder_kept (s : State) (hw : State.kept base s) :
    State.kept base (State.toSmoulder s) := by simp (maxDischargeDepth := 60) [State.toSmoulder, hw]

@[simp] theorem State.wake_kept (s : State) (k : Nat) (hw : State.kept base s) :
    State.kept base (State.wake s k) := by simp (maxDischargeDepth := 60) [State.wake, hw]

@[simp] theorem State.woken_kept (s : State) (hw : State.kept base s) :
    State.kept base (State.woken s) := by simp (maxDischargeDepth := 60) +contextual [State.woken, hw]

@[simp] theorem State.jobOver_kept (s : State) (hw : State.kept base s) :
    State.kept base (State.jobOver s) := by simp (maxDischargeDepth := 60) [State.jobOver, hw]

@[simp] theorem State.beginStep_kept (s : State) (q : Nat) (ended : Bool) (hw : State.kept base s) :
    State.kept base (State.beginStep s q ended) := by simp (maxDischargeDepth := 60) [State.beginStep, hw]

@[simp] theorem State.endStep_kept (s : State) (hw : State.kept base s) :
    State.kept base (State.endStep s) := by simp (maxDischargeDepth := 60) [State.endStep, hw]

@[simp] theorem State.sampleStraps_kept (s : State) (straps : Nat) (hw : State.kept base s) :
    State.kept base (State.sampleStraps s straps) := by simp (maxDischargeDepth := 60) +contextual [State.sampleStraps, hw]

@[simp] theorem State.released_kept (s : State) (hw : State.kept base s) :
    State.kept base (State.released s) := by simp (maxDischargeDepth := 60) +contextual [State.released, hw]

@[simp] theorem State.trimLoad_kept (s : State) (hw : State.kept base s) :
    State.kept base (State.trimLoad s) := by simp (maxDischargeDepth := 60) [State.trimLoad, hw]

@[simp] theorem State.releaseStep_kept (s0 : State) (pins : ReleasePins) (hw : State.kept base s0) :
    State.kept base (State.releaseStep s0 pins) := by
  unfold State.releaseStep
  extract_lets pw s q
  have h1 : State.kept base s := State.setPower_kept _ _ hw
  repeat' split
  all_goals simp (maxDischargeDepth := 60) [h1]

@[simp] theorem State.blkHif_kept (s : State) (hw : State.kept base s) :
    State.kept base (State.blkHif s) := by simp (maxDischargeDepth := 60) [State.blkHif, hw]

@[simp] theorem State.blkUnt_kept (s : State) (hw : State.kept base s) :
    State.kept base (State.blkUnt s) := by simp (maxDischargeDepth := 60) +contextual [State.blkUnt, hw]

@[simp] theorem State.blkKln_kept (s : State) (hw : State.kept base s) :
    State.kept base (State.blkKln s) := by
  have h3 : State.kept base ((s.resetRange 0x40000 0x80000).resetRange 0x3F0000 0x400000) := by simp [hw]
  unfold State.blkKln
  exact State.goldTasks_kept _ (kept_foldl _ (by exact h3.withTabs (Tables.wf_quietKln h3.2.1))
    (fun t k ht => by simp (maxDischargeDepth := 60) [ht]))

@[simp] theorem State.blkSws_kept (s : State) (hw : State.kept base s) :
    State.kept base (State.blkSws s) := by simp (maxDischargeDepth := 60) [State.blkSws, hw]

@[simp] theorem State.blkHpt_kept (s : State) (hw : State.kept base s) :
    State.kept base (State.blkHpt s) := by simp (maxDischargeDepth := 60) +contextual [State.blkHpt, hw]

@[simp] theorem State.blkPos_kept (s : State) (hw : State.kept base s) :
    State.kept base (State.blkPos s) := by simp (maxDischargeDepth := 60) +contextual [State.blkPos, hw]

@[simp] theorem State.blkFir_kept (s : State) (hw : State.kept base s) :
    State.kept base (State.blkFir s) := by simp (maxDischargeDepth := 60) [State.blkFir, hw]

@[simp] theorem State.blkTrn_kept (s : State) (hw : State.kept base s) :
    State.kept base (State.blkTrn s) := by simp (maxDischargeDepth := 60) [State.blkTrn, hw]

@[simp] theorem State.blkTim_kept (s : State) (hw : State.kept base s) :
    State.kept base (State.blkTim s) := by simp (maxDischargeDepth := 60) [State.blkTim, hw]

@[simp] theorem State.blkCrd_kept (s : State) (hw : State.kept base s) :
    State.kept base (State.blkCrd s) := by simp (maxDischargeDepth := 60) [State.blkCrd, hw]

@[simp] theorem State.blkTwn_kept (s : State) (hw : State.kept base s) :
    State.kept base (State.blkTwn s) := by simp (maxDischargeDepth := 60) [State.blkTwn, hw]

@[simp] theorem State.blkTrm_kept (s : State) (hw : State.kept base s) :
    State.kept base (State.blkTrm s) := by simp (maxDischargeDepth := 60) +contextual [State.blkTrm, hw]

@[simp] theorem State.blockReset_kept (s : State) (k : Nat) (hw : State.kept base s) :
    State.kept base (State.blockReset s k) := by
  unfold State.blockReset
  repeat' split
  all_goals simp (maxDischargeDepth := 60) [hw]

@[simp] theorem State.blockResets_kept (s : State) (m : Word) (hw : State.kept base s) :
    State.kept base (State.blockResets s m) := by simp (maxDischargeDepth := 60) +contextual [State.blockResets, hw]

@[simp] theorem State.blkRst_kept (s : State) (v : Word) (hw : State.kept base s) :
    State.kept base (State.blkRst s v) := by simp (maxDischargeDepth := 60) +contextual [State.blkRst, hw]

@[simp] theorem State.endDelay_kept (s : State) (hw : State.kept base s) :
    State.kept base (State.endDelay s) := by
  unfold State.endDelay
  repeat' split
  all_goals simp (maxDischargeDepth := 60) +contextual [*]

end Sys2Proof.Machine
end

