-- ==== Sys2Proof/Laws/KeptPowerRows.lean ====
section
/-! SUPPORT. Every operation of Machine/PowerRows.lean keeps registers and memories in their canonical form, the queue and the serial number. -/

namespace Sys2Proof.Machine

variable {base : State}

@[simp] theorem State.powerFail_kept (s : State) (rail vback : Bool) (hw : State.kept base s) :
    State.kept base (State.powerFail s rail vback) := by simp (maxDischargeDepth := 60) [State.powerFail, hw]

@[simp] theorem State.changeover_kept (s : State) (vback : Bool) (hw : State.kept base s) :
    State.kept base (State.changeover s vback) := by
  unfold State.changeover
  refine kept_ite hw ?_
  extract_lets b sp s0 s1 pw s2 s3 s4
  have h0 : State.kept base s0 := by simp only [s0]; split <;> simp (maxDischargeDepth := 60) [hw]
  have h1 : State.kept base s1 := by simp (maxDischargeDepth := 60) [s1, h0, hw]
  have h2 : State.kept base s2 := h1.withTabs (Tables.wf_filled (State.storeFill_kept _ h1).2.1)
  have h4 : State.kept base s4 := by simp (maxDischargeDepth := 60) [s4, s3, h2]
  simp (maxDischargeDepth := 60) [h4]

@[simp] theorem State.bankReturn_kept (s : State) (hw : State.kept base s) :
    State.kept base (State.bankReturn s) := by simp (maxDischargeDepth := 60) [State.bankReturn, hw]

@[simp] theorem State.vmainGood_kept (s0 : State) (v : Supplies) (hw : State.kept base s0) :
    State.kept base (State.vmainGood s0 v) := by
  unfold State.vmainGood
  extract_lets pw s s1
  have h1 : State.kept base s := State.setPower_kept _ _ hw
  have h2 : State.kept base s1 := by simp (maxDischargeDepth := 60) [s1, h1]
  repeat' split
  all_goals simp (maxDischargeDepth := 60) [h2]

@[simp] theorem State.aonPor_kept (s : State) (vback : Bool) (hw : State.kept base s) :
    State.kept base (State.aonPor s vback) := by
  unfold State.aonPor
  extract_lets r p fr pw s1 pins
  have h1 : State.kept base s1 := ⟨SMap.wf_nil, rfl, hw.2.2.1, SMap.wf_nil, SMap.wf_nil, hw.2.2.2.2.2.1, hw.2.2.2.2.2.2⟩
  have h2 : State.kept base (pins.foldl (fun t k => t.keepBits s k.1 k.2) s1) := kept_foldl _ h1 (fun t k ht => by simp (maxDischargeDepth := 60) [ht])
  simp (maxDischargeDepth := 60) [h2]

@[simp] theorem State.pwrCtl_kept (s : State) (v : Word) (hw : State.kept base s) :
    State.kept base (State.pwrCtl s v) := by simp (maxDischargeDepth := 60) [State.pwrCtl, hw]

@[simp] theorem State.aonBar_kept (s : State) (f : State → State) (hw : State.kept base s) (hf : ∀ s : State, State.kept base s → State.kept base (f s)) :
    State.kept base (State.aonBar s f) := by simp (maxDischargeDepth := 60) [State.aonBar, hw, hf]

@[simp] theorem State.motionWake_kept (s : State) (hw : State.kept base s) :
    State.kept base (State.motionWake s) := by simp (maxDischargeDepth := 60) [State.motionWake, hw]

@[simp] theorem State.servicePress_kept (s : State) (p : ServicePins) (hw : State.kept base s) :
    State.kept base (State.servicePress s p) := by simp (maxDischargeDepth := 60) [State.servicePress, hw]

@[simp] theorem State.d3hot_kept (s : State) (hw : State.kept base s) :
    State.kept base (State.d3hot s) := by simp (maxDischargeDepth := 60) +contextual [State.d3hot, hw]

@[simp] theorem State.d0Return_kept (s : State) (hw : State.kept base s) :
    State.kept base (State.d0Return s) := by simp (maxDischargeDepth := 60) +contextual [State.d0Return, hw]

@[simp] theorem State.wdog_kept (s : State) (hw : State.kept base s) :
    State.kept base (State.wdog s) := by simp (maxDischargeDepth := 60) [State.wdog, hw]

@[simp] theorem State.sysResetWrite_kept (s : State) (v : Word) (hw : State.kept base s) :
    State.kept base (State.sysResetWrite s v) := by simp (maxDischargeDepth := 60) [State.sysResetWrite, hw]

@[simp] theorem State.schedDue_kept (s : State) (hw : State.kept base s) :
    State.kept base (State.schedDue s) := by simp (maxDischargeDepth := 60) [State.schedDue, hw]

@[simp] theorem State.pllLock_kept (s : State) (ok : Bool) (hw : State.kept base s) :
    State.kept base (State.pllLock s ok) := by simp (maxDischargeDepth := 60) [State.pllLock, hw]

@[simp] theorem State.sramFill_kept (s : State) (hw : State.kept base s) :
    State.kept base (State.sramFill s) := by
  have h2 := hw.withTabs (Tables.wf_filled hw.2.1)
  unfold State.sramFill
  exact kept_ite hw (by simp (maxDischargeDepth := 60) [h2])

@[simp] theorem State.dramTrained_kept (s : State) (store : Nat) (hw : State.kept base s) :
    State.kept base (State.dramTrained s store) := by
  have h2 : State.kept base s.storeFill := State.storeFill_kept _ hw
  unfold State.dramTrained
  refine kept_ite hw ?_
  dsimp only
  exact State.setFld_kept _ _ _ (State.setFld_kept _ _ _ h2)

end Sys2Proof.Machine
end

