-- ==== Sys2Proof/Laws/KeptJobRows.lean ====
section
/-! SUPPORT. Every operation of Machine/JobRows.lean keeps registers and memories in their canonical form, the queue and the serial number. -/

namespace Sys2Proof.Machine

variable {base : State}

@[simp] theorem State.armCmd_kept (s : State) (raw : BitVec 256) (hw : State.kept base s) :
    State.kept base (State.armCmd s raw |>.1) := by
  have h0 : State.kept base (if s.fld PWR_STAT_STATE = 1 then s.setFld PWR_STAT_STATE 0 else s) := by simp (maxDischargeDepth := 60) [hw]
  unfold State.armCmd
  generalize (if s.fld PWR_STAT_STATE = 1 then s.setFld PWR_STAT_STATE 0 else s) = t at h0
  cases h : t.armCheck with
  | none => simp (maxDischargeDepth := 60) [h0, h]
  | some c => simp (maxDischargeDepth := 60) [State.armCheck_kept t h0 c h, h]

@[simp] theorem State.jobDone_kept (s : State) (hw : State.kept base s) :
    State.kept base (State.jobDone s) := by simp (maxDischargeDepth := 60) [State.jobDone, hw]

@[simp] theorem State.disarmCmd_kept (s : State) (raw : BitVec 256) (slot : Nat) (hw : State.kept base s) :
    State.kept base (State.disarmCmd s raw slot |>.1) := by
  unfold State.disarmCmd
  repeat' split
  all_goals simp (maxDischargeDepth := 60) +contextual [hw]

@[simp] theorem State.disarmDone_kept (s : State) (hw : State.kept base s) :
    State.kept base (State.disarmDone s) := by
  unfold State.disarmDone
  repeat' split
  all_goals simp (maxDischargeDepth := 60) +contextual [*]

@[simp] theorem State.unhalt_kept (s : State) (st : Nat) (c : Word) (hw : State.kept base s) :
    State.kept base (State.unhalt s st c) := by simp (maxDischargeDepth := 60) [State.unhalt, hw]

@[simp] theorem State.restartCmd_kept (s : State) (st : Nat) (hw : State.kept base s) :
    State.kept base (State.restartCmd s st |>.1) := by
  unfold State.restartCmd
  repeat' split
  all_goals simp (maxDischargeDepth := 60) [hw]

@[simp] theorem State.skipLines_kept (s : State) (st : Nat) (hw : State.kept base s) :
    State.kept base (State.skipLines s st) := by
  unfold State.skipLines
  repeat' split
  all_goals simp (maxDischargeDepth := 60) +contextual [*]

@[simp] theorem State.skipCmd_kept (s : State) (st : Nat) (hw : State.kept base s) :
    State.kept base (State.skipCmd s st |>.1) := by
  unfold State.skipCmd
  repeat' split
  all_goals simp (maxDischargeDepth := 60) [hw]

end Sys2Proof.Machine
end

