-- ==== Sys2Proof/Laws/KeptHptOps.lean ====
section
/-! SUPPORT. Every operation of Machine/HptOps.lean keeps registers and memories in their canonical form, the queue and the serial number. -/

namespace Sys2Proof.Machine

variable {base : State}

@[simp] theorem State.shiftIn_kept (s : State) (h l : Nat) (image : List Byte) (hw : State.kept base s) :
    State.kept base (State.shiftIn s h l image) := by simp (maxDischargeDepth := 60) [State.shiftIn, hw]

@[simp] theorem State.trainEnd_kept (s : State) (h r : Nat) (hw : State.kept base s) :
    State.kept base (State.trainEnd s h r) := by simp (maxDischargeDepth := 60) [State.trainEnd, hw]

@[simp] theorem State.trainMap_kept (s : State) (h : Nat) (tr : Train) (hw : State.kept base s) :
    State.kept base (State.trainMap s h tr) := by simp (maxDischargeDepth := 60) [State.trainMap, hw]

@[simp] theorem State.trainFound_kept (s : State) (h : Nat) (tr : Train) (hw : State.kept base s) :
    State.kept base (State.trainFound s h tr) := by simp (maxDischargeDepth := 60) [State.trainFound, hw]

@[simp] theorem State.trainSearch_kept (s : State) (h : Nat) (tr : Train) (raw : Nat) (hw : State.kept base s) :
    State.kept base (State.trainSearch s h tr raw) := by
  simp only [State.trainSearch]
  repeat' split
  all_goals simp_all (maxDischargeDepth := 60) +contextual

@[simp] theorem State.trainName_kept (s : State) (h : Nat) (tr : Train) (bits v : Nat) (hw : State.kept base s) :
    State.kept base (State.trainName s h tr bits v) := by simp (maxDischargeDepth := 60) [State.trainName, hw]

@[simp] theorem State.trainVerify_kept (s : State) (h : Nat) (tr : Train) (bits v : Nat) (hw : State.kept base s) :
    State.kept base (State.trainVerify s h tr bits v) := by simp (maxDischargeDepth := 60) [State.trainVerify, hw]

@[simp] theorem State.trainReturn_kept (s : State) (h : Nat) (tr : Train) (bits raw : Nat) (hw : State.kept base s) :
    State.kept base (State.trainReturn s h tr bits raw) := by simp (maxDischargeDepth := 60) [State.trainReturn, hw]

@[simp] theorem State.trainBurst_kept (s : State) (h : Nat) (tr : Train) (hw : State.kept base s) :
    State.kept base (State.trainBurst s h tr) := by simp (maxDischargeDepth := 60) [State.trainBurst, hw]

@[simp] theorem State.countSeen_kept (s : State) (h : Nat) (hw : State.kept base s) :
    State.kept base (State.countSeen s h) := by simp (maxDischargeDepth := 60) [State.countSeen, hw]

@[simp] theorem State.countTo_kept (s : State) (h l n : Nat) (hw : State.kept base s) :
    State.kept base (State.countTo s h l n) := by
  induction n generalizing s  with
  | zero => exact hw
  | succ n ih =>
    unfold State.countTo
    repeat' split
    all_goals simp (maxDischargeDepth := 60) [hw, ih]

@[simp] theorem State.seenFired_kept (s : State) (h l : Nat) (hw : State.kept base s) :
    State.kept base (State.seenFired s h l) := by
  unfold State.seenFired
  split <;> simp (maxDischargeDepth := 60) [hw]

@[simp] theorem State.align_kept (s : State) (h : Nat) (hw : State.kept base s) :
    State.kept base (State.align s h) := by
  simp only [State.align]
  repeat' split
  all_goals simp_all (maxDischargeDepth := 60) +contextual

@[simp] theorem State.pairReturn_kept (s : State) (h l bits trailer : Nat) (zero : Bool) (hw : State.kept base s) :
    State.kept base (State.pairReturn s h l bits trailer zero) := by
  simp only [State.pairReturn]
  repeat' split
  all_goals simp_all (maxDischargeDepth := 60) +contextual

@[simp] theorem State.pairObs_kept (s : State) (h : Nat) (lat : Bool) (hw : State.kept base s) :
    State.kept base (State.pairObs s h lat) := by
  simp only [State.pairObs]
  repeat' split
  all_goals simp_all (maxDischargeDepth := 60) +contextual

@[simp] theorem State.modeSet_kept (s : State) (h x : Nat) (hw : State.kept base s) :
    State.kept base (State.modeSet s h x) := by simp (maxDischargeDepth := 60) [State.modeSet, hw]

@[simp] theorem State.stepUp_kept (s : State) (h n : Nat) (hw : State.kept base s) :
    State.kept base (State.stepUp s h n) := by simp (maxDischargeDepth := 60) [State.stepUp, hw]

end Sys2Proof.Machine
end

