-- ==== Sys2Proof/Laws/KeptHptRows.lean ====
section
/-! SUPPORT. Every operation of Machine/HptRows.lean keeps registers and memories in their canonical form, the queue and the serial number. -/

namespace Sys2Proof.Machine

variable {base : State}

@[simp] theorem State.burstAsh_kept (s : State) (h l : Nat) (hw : State.kept base s) :
    State.kept base (State.burstAsh s h l) := by simp (maxDischargeDepth := 60) [State.burstAsh, hw]

@[simp] theorem State.stagRead_kept (s : State) (g : Staged) (ash : Nat) (hw : State.kept base s) :
    State.kept base ((State.stagRead s g ash).2.2) := by
  unfold State.stagRead
  extract_lets u r
  have hu : State.kept base u.2 := by
    simp only [u]
    generalize ((List.range 64).filter (fun i => bitAt ash i && !(flawByte g.flaws (8 * i)).2)) = l
    suffices ∀ r : List Flaw × State, State.kept base r.2 → State.kept base (l.foldl (fun (r : List Flaw × State) i =>
        let d := r.2.draw
        let e := d.2.addFlaw (r.1.filter (fun f => f.idx != i)) i (8 * (d.1.toNat % 2 ^ 14)) 3#72
        (e.1, e.2)) r).2 from this _ hw
    induction l with
    | nil => exact fun r hr => hr
    | cons i l ih => exact fun r hr => ih _ (by simp (maxDischargeDepth := 60) [hr])
  simp (maxDischargeDepth := 60) [r, hu]

@[simp] theorem State.burstStart_kept (s : State) (h ash : Nat) (hw : State.kept base s) :
    State.kept base (State.burstStart s h ash) := by
  unfold State.burstStart
  extract_lets x
  split
  · extract_lets l r s1 mask
    split
    · skip
      have hr : State.kept base r.2.2 := by simp only [r]; split <;> simp (maxDischargeDepth := 60) [hw]
      have h1 : State.kept base s1 := kept_foldl _ hr (fun t q ht => by simp (maxDischargeDepth := 60) [ht])
      simp (maxDischargeDepth := 60) [h1]
    · exact hw
  · exact hw

@[simp] theorem State.testBurst_kept (s : State) (h : Nat) (hw : State.kept base s) :
    State.kept base (State.testBurst s h) := by
  unfold State.testBurst
  repeat' split
  all_goals simp (maxDischargeDepth := 60) +contextual [*]

@[simp] theorem State.latRise_kept (s : State) (h : Nat) (hw : State.kept base s) :
    State.kept base (State.latRise s h) := by
  simp only [State.latRise]
  repeat' split
  all_goals simp_all (maxDischargeDepth := 60) +contextual

@[simp] theorem State.flushBurst_kept (s : State) (h : Nat) (hw : State.kept base s) :
    State.kept base (State.flushBurst s h) := by simp (maxDischargeDepth := 60) [State.flushBurst, hw]

@[simp] theorem State.driveReturn_kept (s : State) (h bits trailer : Nat) (hw : State.kept base s) :
    State.kept base (State.driveReturn s h bits trailer) := by
  simp only [State.driveReturn]
  repeat' split
  all_goals simp_all (maxDischargeDepth := 60) +contextual

@[simp] theorem State.monitorLock_kept (s : State) (h trailer : Nat) (hw : State.kept base s) :
    State.kept base (State.monitorLock s h trailer) := by
  unfold State.monitorLock
  extract_lets x m
  repeat' split
  all_goals simp (maxDischargeDepth := 60) [hw]

@[simp] theorem State.obsReturn_kept (s : State) (h bits trailer : Nat) (hw : State.kept base s) :
    State.kept base (State.obsReturn s h bits trailer) := by
  unfold State.obsReturn
  extract_lets s1 s2 s3
  have h1 : State.kept base s1 := State.modHead_kept _ _ _ hw
  have h2 : State.kept base s2 := by simp only [s2]; split <;> simp (maxDischargeDepth := 60) [h1]
  have h3 : State.kept base s3 := by simp (maxDischargeDepth := 60) [s3, h2]
  repeat' split
  all_goals simp (maxDischargeDepth := 60) [h1, h3]

@[simp] theorem State.returned_kept (s : State) (h bits : Nat) (trailer : Trailer) (hw : State.kept base s) :
    State.kept base (State.returned s h bits trailer) := by
  unfold State.returned
  repeat' split
  all_goals simp (maxDischargeDepth := 60) +contextual [*]

@[simp] theorem State.retstWrite_kept (s : State) (h : Nat) (v : Word) (hw : State.kept base s) :
    State.kept base (State.retstWrite s h v) := by
  simp only [State.retstWrite]
  repeat' (first | assumption | split | (refine kept_foldl _ ?_ ?_) | (intro _ _ _))
  all_goals simp (maxDischargeDepth := 60) +contextual [*]

@[simp] theorem State.twinCauseOver_kept (s : State) (hw : State.kept base s) :
    State.kept base (State.twinCauseOver s) := by simp (maxDischargeDepth := 60) [State.twinCauseOver, hw]

@[simp] theorem State.returnEnd_kept (s : State) (hw : State.kept base s) :
    State.kept base (State.returnEnd s) := by simp (maxDischargeDepth := 60) +contextual [State.returnEnd, hw]

@[simp] theorem State.modeHandover_kept (s : State) (h : Nat) (hw : State.kept base s) :
    State.kept base (State.modeHandover s h) := by
  unfold State.modeHandover
  repeat' split
  all_goals simp (maxDischargeDepth := 60) +contextual [*]

@[simp] theorem State.latSeen_kept (s : State) (h : Nat) (hw : State.kept base s) :
    State.kept base (State.latSeen s h) := by
  simp only [State.latSeen]
  repeat' split
  all_goals simp_all (maxDischargeDepth := 60) +contextual

@[simp] theorem State.fireSeen_kept (s : State) (h : Nat) (hw : State.kept base s) :
    State.kept base (State.fireSeen s h) := by
  simp only [State.fireSeen]
  repeat' split
  all_goals simp_all (maxDischargeDepth := 60) +contextual

@[simp] theorem State.fireFell_kept (s : State) (h : Nat) (hw : State.kept base s) :
    State.kept base (State.fireFell s h) := by simp (maxDischargeDepth := 60) [State.fireFell, hw]

@[simp] theorem State.trainStart_kept (s : State) (h : Nat) (hw : State.kept base s) :
    State.kept base (State.trainStart s h) := by simp (maxDischargeDepth := 60) [State.trainStart, hw]

@[simp] theorem State.prbsBurst_kept (s : State) (h : Nat) (hw : State.kept base s) :
    State.kept base (State.prbsBurst s h) := by simp (maxDischargeDepth := 60) [State.prbsBurst, hw]

@[simp] theorem State.prbsReturn_kept (s : State) (h raw rawTr : Nat) (hw : State.kept base s) :
    State.kept base (State.prbsReturn s h raw rawTr) := by
  simp only [State.prbsReturn]
  repeat' split
  all_goals simp_all (maxDischargeDepth := 60) +contextual

@[simp] theorem State.tempPoll_kept (s : State) (b : Nat) (hw : State.kept base s) :
    State.kept base (State.tempPoll s b) := by
  simp only [State.tempPoll]
  repeat' split
  all_goals simp_all (maxDischargeDepth := 60) +contextual

@[simp] theorem State.tempRead_kept (s : State) (h : Nat) (ok : Bool) (v : Nat) (hw : State.kept base s) :
    State.kept base (State.tempRead s h ok v) := by simp (maxDischargeDepth := 60) [State.tempRead, hw]

@[simp] theorem State.tempStale_kept (s : State) (h : Nat) (hw : State.kept base s) :
    State.kept base (State.tempStale s h) := by simp (maxDischargeDepth := 60) [State.tempStale, hw]

end Sys2Proof.Machine
end

