-- ==== Sys2Proof/Laws/KeptTwinRows.lean ====
section
/-! SUPPORT. Every operation of Machine/TwinRows.lean keeps registers and memories in their canonical form, the queue and the serial number. -/

namespace Sys2Proof.Machine

variable {base : State}

@[simp] theorem State.activate_kept (s : State) (hw : State.kept base s) :
    State.kept base (State.activate s) := by simp (maxDischargeDepth := 60) +contextual [State.activate, hw]

@[simp] theorem State.standBy_kept (s : State) (hw : State.kept base s) :
    State.kept base (State.standBy s) := by simp (maxDischargeDepth := 60) [State.standBy, hw]

@[simp] theorem State.primeStep_kept (s : State) (hw : State.kept base s) :
    State.kept base (State.primeStep s) := by simp (maxDischargeDepth := 60) +contextual [State.primeStep, hw]

@[simp] theorem State.takeCheck_kept (s : State) (hw : State.kept base s) :
    State.kept base (State.takeCheck s) := by simp (maxDischargeDepth := 60) [State.takeCheck, hw]

@[simp] theorem State.linkTry_kept (s : State) (hw : State.kept base s) :
    State.kept base (State.linkTry s) := by simp (maxDischargeDepth := 60) [State.linkTry, hw]

@[simp] theorem State.linkChange_kept (s : State) (up : Bool) (lanes rtt : Nat) (hw : State.kept base s) :
    State.kept base (State.linkChange s up lanes rtt) := by simp (maxDischargeDepth := 60) [State.linkChange, hw]

@[simp] theorem State.resend_kept (s : State) (hw : State.kept base s) :
    State.kept base (State.resend s) := by
  unfold State.resend
  repeat' split
  all_goals simp (maxDischargeDepth := 60) +contextual [*]

@[simp] theorem State.ackIn_kept (s : State) (ack : Nat) (hw : State.kept base s) :
    State.kept base (State.ackIn s ack) := by simp (maxDischargeDepth := 60) [State.ackIn, hw]

@[simp] theorem State.recv_kept (s : State) (h : LinkHdr) (f : State → State) (hw : State.kept base s) (hf : ∀ s : State, State.kept base s → State.kept base (f s)) :
    State.kept base (State.recv s h f) := by simp (maxDischargeDepth := 60) [State.recv, hw, hf]

@[simp] theorem State.bothActive_kept (s : State) (hw : State.kept base s) :
    State.kept base (State.bothActive s) := by simp (maxDischargeDepth := 60) [State.bothActive, hw]

@[simp] theorem State.hello_kept (s : State) (m : Hello) (hw : State.kept base s) :
    State.kept base (State.hello s m) := by simp (maxDischargeDepth := 60) [State.hello, hw]

@[simp] theorem State.aliveEdge_kept (s : State) (hw : State.kept base s) :
    State.kept base (State.aliveEdge s) := by simp (maxDischargeDepth := 60) [State.aliveEdge, hw]

@[simp] theorem State.aliveDead_kept (s : State) (hw : State.kept base s) :
    State.kept base (State.aliveDead s) := by
  unfold State.aliveDead
  repeat' split
  all_goals simp (maxDischargeDepth := 60) +contextual [*]

@[simp] theorem State.confirm_kept (s : State) (hw : State.kept base s) :
    State.kept base (State.confirm s) := by simp (maxDischargeDepth := 60) [State.confirm, hw]

@[simp] theorem State.takeCauses_kept (s : State) (hw : State.kept base s) :
    State.kept base (State.takeCauses s) := by simp (maxDischargeDepth := 60) [State.takeCauses, hw]

@[simp] theorem State.takeover_kept (s : State) (hw : State.kept base s) :
    State.kept base (State.takeover s) := by simp (maxDischargeDepth := 60) [State.takeover, hw]

@[simp] theorem State.releasedIn_kept (s : State) (mask : Nat) (hw : State.kept base s) :
    State.kept base (State.releasedIn s mask) := by simp (maxDischargeDepth := 60) [State.releasedIn, hw]

@[simp] theorem State.proposeIn_kept (s : State) (purpose mask prop arg : Nat) (hw : State.kept base s) :
    State.kept base (State.proposeIn s purpose mask prop arg) := by
  unfold State.proposeIn
  repeat' split
  all_goals simp (maxDischargeDepth := 60) +contextual [*]

@[simp] theorem State.agreeIn_kept (s : State) (purpose a : Nat) (hw : State.kept base s) :
    State.kept base (State.agreeIn s purpose a) := by
  unfold State.agreeIn
  repeat' split
  all_goals simp (maxDischargeDepth := 60) +contextual [*]

@[simp] theorem State.agreeTimeout_kept (s : State) (hw : State.kept base s) :
    State.kept base (State.agreeTimeout s) := by
  unfold State.agreeTimeout
  repeat' split
  all_goals simp (maxDischargeDepth := 60) +contextual [*]

@[simp] theorem State.entriesTimer_kept (s : State) (hw : State.kept base s) :
    State.kept base (State.entriesTimer s) := by simp (maxDischargeDepth := 60) [State.entriesTimer, hw]

@[simp] theorem State.firedIn_kept (s : State) (p l : Nat) (v : Word) (hw : State.kept base s) :
    State.kept base (State.firedIn s p l v) := by simp (maxDischargeDepth := 60) [State.firedIn, hw]

@[simp] theorem State.entryIn_kept (s : State) (e : BitVec 96) (hw : State.kept base s) :
    State.kept base (State.entryIn s e) := by simp (maxDischargeDepth := 60) [State.entryIn, hw]

@[simp] theorem State.entriesIn_kept (s : State) (f : EntryFrame) (hw : State.kept base s) :
    State.kept base (State.entriesIn s f) := by simp (maxDischargeDepth := 60) +contextual [State.entriesIn, hw]

@[simp] theorem State.embresIn_kept (s : State) (r : EmbRes) (hw : State.kept base s) :
    State.kept base (State.embresIn s r) := by
  unfold State.embresIn
  repeat' split
  all_goals simp (maxDischargeDepth := 60) +contextual [*]

@[simp] theorem State.thermIn_kept (s : State) (p : Nat) (b : Bool) (hw : State.kept base s) :
    State.kept base (State.thermIn s p b) := by simp (maxDischargeDepth := 60) [State.thermIn, hw]

@[simp] theorem State.putHeadBytes_kept (s : State) (p k : Nat) (bs : List Nat) (hw : State.kept base s) :
    State.kept base (State.putHeadBytes s p k bs) := by
  have hm : ∀ (l : List Nat) (m : SMap Nat), SMap.wf (fun _ => 0) m = true →
      SMap.wf (fun _ => 0) (l.foldl (fun m i => SMap.set (fun _ => 0) m (8192 * p + (k + i) % 8192) (bs.getD i 0 % 256)) m) = true := by
    intro l
    induction l with
    | nil => exact fun m h => h
    | cons i l ih => exact fun m h => ih _ (SMap.wf_set h)
  exact ⟨hw.1, hw.2.1, hw.2.2.1, hm _ _ hw.2.2.2.1, hw.2.2.2.2⟩

@[simp] theorem State.headFill_kept (s : State) (p : Nat) (hw : State.kept base s) :
    State.kept base (State.headFill s p) := by simp (maxDischargeDepth := 60) [State.headFill, hw]

@[simp] theorem State.headSet_kept (s : State) (p : Nat) (hw : State.kept base s) :
    State.kept base (State.headSet s p) := by simp (maxDischargeDepth := 60) [State.headSet, hw]

@[simp] theorem State.sendRank_kept (s : State) (p : Nat) (hw : State.kept base s) :
    State.kept base (State.sendRank s p) := by simp (maxDischargeDepth := 60) +contextual [State.sendRank, hw]

@[simp] theorem State.sendRecords_kept (s : State) (hw : State.kept base s) :
    State.kept base (State.sendRecords s) := by simp (maxDischargeDepth := 60) +contextual [State.sendRecords, hw]

@[simp] theorem State.helloTimer_kept (s : State) (done : Bool) (hw : State.kept base s) :
    State.kept base (State.helloTimer s done) := by simp (maxDischargeDepth := 60) [State.helloTimer, hw]

@[simp] theorem State.joinWrite_kept (s : State) (hw : State.kept base s) :
    State.kept base (State.joinWrite s) := by simp (maxDischargeDepth := 60) [State.joinWrite, hw]

@[simp] theorem State.joinAt_kept (s : State) (w : BitVec 96) (hw : State.kept base s) :
    State.kept base (State.joinAt s w) := by simp (maxDischargeDepth := 60) [State.joinAt, hw]

@[simp] theorem State.joinIn_kept (s : State) (seed jobid cons : Word) (ws : List (BitVec 96)) (hw : State.kept base s) :
    State.kept base (State.joinIn s seed jobid cons ws) := by
  unfold State.joinIn
  extract_lets tw s0 s1
  have h0 : State.kept base s0 := by simp (maxDischargeDepth := 60) [s0, hw]
  cases h : s0.armCheck with
  | some c => simp (maxDischargeDepth := 60) [State.armCheck_kept s0 h0 c h]
  | none => simp (maxDischargeDepth := 60) +contextual [h0, s1]

@[simp] theorem State.joinMore_kept (s : State) (ws : List (BitVec 96)) (hw : State.kept base s) :
    State.kept base (State.joinMore s ws) := by simp (maxDischargeDepth := 60) +contextual [State.joinMore, hw]

@[simp] theorem State.override_kept (s : State) (bad : State → Bool) (f : State → State) (hw : State.kept base s) (hf : ∀ s : State, State.kept base s → State.kept base (f s)) :
    State.kept base (State.override s bad f) := by simp (maxDischargeDepth := 60) [State.override, hw, hf]

@[simp] theorem State.overActive_kept (s : State) (hw : State.kept base s) :
    State.kept base (State.overActive s) := by simp (maxDischargeDepth := 60) +contextual [State.overActive, hw]

@[simp] theorem State.overStandby_kept (s : State) (hw : State.kept base s) :
    State.kept base (State.overStandby s) := by simp (maxDischargeDepth := 60) +contextual [State.overStandby, hw]

@[simp] theorem State.overOut_kept (s : State) (hw : State.kept base s) :
    State.kept base (State.overOut s) := by simp (maxDischargeDepth := 60) +contextual [State.overOut, hw]

end Sys2Proof.Machine
end

