-- ==== Sys2Proof/Laws/KeptInsOps.lean ====
section
/-! SUPPORT. Every operation of Machine/InsOps.lean keeps registers and memories in their canonical form, the queue and the serial number. -/

namespace Sys2Proof.Machine

variable {base : State}

@[simp] theorem State.trigPush_kept (s : State) (c : Nat) (r : Trig) (hw : State.kept base s) :
    State.kept base (State.trigPush s c r) := by simp (maxDischargeDepth := 60) [State.trigPush, hw]

@[simp] theorem State.trigPulse_kept (s : State) (c : Nat) (hw : State.kept base s) :
    State.kept base (State.trigPulse s c) := by
  unfold State.trigPulse
  repeat' split
  all_goals simp (maxDischargeDepth := 60) +contextual [*]

@[simp] theorem State.modFrame_kept (s : State) (c n : Nat) (f : CamFrame → CamFrame) (hw : State.kept base s) :
    State.kept base (State.modFrame s c n f) := by simp (maxDischargeDepth := 60) [State.modFrame, hw]

@[simp] theorem State.frameFlag_kept (s : State) (c n f : Nat) (hw : State.kept base s) :
    State.kept base (State.frameFlag s c n f) := by simp (maxDischargeDepth := 60) [State.frameFlag, hw]

@[simp] theorem State.repair_kept (s : State) (c n f : Nat) (hw : State.kept base s) :
    State.kept base (State.repair s c n f) := by simp (maxDischargeDepth := 60) [State.repair, hw]

@[simp] theorem State.addRow_kept (s : State) (c n : Nat) (r : CamRow) (hw : State.kept base s) :
    State.kept base (State.addRow s c n r) := by simp (maxDischargeDepth := 60) [State.addRow, hw]

@[simp] theorem State.fillRow_kept (s : State) (c n w : Nat) (pos : Option Int) (hw : State.kept base s) :
    State.kept base (State.fillRow s c n w pos) := by simp (maxDischargeDepth := 60) [State.fillRow, hw]

@[simp] theorem State.rowSplice_kept (s : State) (c n : Nat) (x : Option Trig) (r : Nat) (lead : Bool) (hw : State.kept base s) :
    State.kept base (State.rowSplice s c n x r lead) := by simp (maxDischargeDepth := 60) [State.rowSplice, hw]

@[simp] theorem State.rowFlags_kept (s : State) (c n : Nat) (x : Option Trig) (lead : Bool) (hw : State.kept base s) :
    State.kept base (State.rowFlags s c n x lead) := by
  unfold State.rowFlags
  repeat' split
  all_goals simp (maxDischargeDepth := 60) +contextual [*]

@[simp] theorem State.frameFill_kept (s : State) (c : Nat) (fr : CamFrame) (n : Nat) (hw : State.kept base s) :
    State.kept base (State.frameFill s c fr n) := by
  induction n generalizing s  with
  | zero => exact hw
  | succ n ih =>
    unfold State.frameFill
    repeat' split
    all_goals simp (maxDischargeDepth := 60) [hw, ih]

@[simp] theorem State.frameEnd_kept (s : State) (c : Nat) (fe : Bool) (hw : State.kept base s) :
    State.kept base (State.frameEnd s c fe) := by
  unfold State.frameEnd
  split
  · exact hw
  · extract_lets short s1 s2
    have h1 : State.kept base s1 := by simp only [s1]; split <;> simp (maxDischargeDepth := 60) [hw]
    have h2 : State.kept base s2 := by simp only [s2]; split <;> simp (maxDischargeDepth := 60) [h1]
    simp (maxDischargeDepth := 60) [h2]

@[simp] theorem State.trigTake_kept (s : State) (c : Nat) (hw : State.kept base s) :
    State.kept base (State.trigTake s c |>.2) := by
  unfold State.trigTake
  repeat' split
  all_goals simp (maxDischargeDepth := 60) [hw]

@[simp] theorem State.camLink_kept (s : State) (c : Nat) (hw : State.kept base s) :
    State.kept base (State.camLink s c) := by simp (maxDischargeDepth := 60) [State.camLink, hw]

@[simp] theorem State.frameStart_kept (s : State) (c : Nat) (hw : State.kept base s) :
    State.kept base (State.frameStart s c) := by
  unfold State.frameStart
  extract_lets s0 lim s1 n m taken te s2 fr s3
  have h1 : State.kept base s1 := by simp (maxDischargeDepth := 60) [s1, s0, hw]
  have h2 : State.kept base s2 := by
    simp only [s2, taken]
    repeat' split
    all_goals simp (maxDischargeDepth := 60) [h1]
  have h3 : State.kept base s3 := by simp (maxDischargeDepth := 60) [s3, h2]
  split <;> simp (maxDischargeDepth := 60) [h3]

@[simp] theorem State.ffTouch_kept (s : State) (c w : Nat) (hw : State.kept base s) :
    State.kept base (State.ffTouch s c w) := by
  unfold State.ffTouch
  repeat' split
  all_goals simp (maxDischargeDepth := 60) +contextual [*]

@[simp] theorem State.lineRead_kept (s : State) (c : Nat) (raw : List (Option Nat)) (hw : State.kept base s) :
    State.kept base ((State.lineRead s c raw).2.2) := by
  unfold State.lineRead
  extract_lets bytes
  have h0 : State.kept base (s.setInsp { s.insp with lineErr := [] }) := by simp (maxDischargeDepth := 60) [hw]
  generalize hr : ((raw, false, s.setInsp { s.insp with lineErr := [] }) : List (Option Nat) × Bool × State) = r0
  have h1 : State.kept base r0.2.2 := hr ▸ h0
  clear hr h0
  induction s.insp.lineErr generalizing r0 with
  | nil => exact h1
  | cons f l ih =>
    refine ih _ ?_
    dsimp only
    repeat' split
    all_goals simp (maxDischargeDepth := 60) [h1]

@[simp] theorem State.pipeLine_kept (s : State) (c n y : Nat) (raw : List (Option Nat)) (hw : State.kept base s) :
    State.kept base (State.pipeLine s c n y raw |>.1) := by simp (maxDischargeDepth := 60) +contextual [State.pipeLine, hw]

@[simp] theorem State.lineIn_kept (s : State) (c : Nat) (fr : CamFrame) (y : Nat) (raw : List (Option Nat)) (bytes : Nat) (pos : Option Int) (hw : State.kept base s) :
    State.kept base (State.lineIn s c fr y raw bytes pos) := by
  unfold State.lineIn
  extract_lets p s1 ins
  split
  · simp (maxDischargeDepth := 60) [p, hw]
  · split
    · skip
      have h1 : State.kept base s1 := by simp (maxDischargeDepth := 60) [s1, hw]
      simp (maxDischargeDepth := 60) [h1]
    · simp (maxDischargeDepth := 60) [hw]

@[simp] theorem State.repairAlone_kept (s : State) (c f : Nat) (hw : State.kept base s) :
    State.kept base (State.repairAlone s c f) := by simp (maxDischargeDepth := 60) [State.repairAlone, hw]

@[simp] theorem State.camLine_kept (s : State) (c err : Nat) (pix : List (BitVec 12)) (hw : State.kept base s) :
    State.kept base (State.camLine s c err pix) := by
  unfold State.camLine
  extract_lets s0 m kk
  have h0 : State.kept base s0 := by simp only [s0]; split <;> simp (maxDischargeDepth := 60) [hw]
  split
  · split <;> simp (maxDischargeDepth := 60) [h0]
  · extract_lets y taken r s1 pos s2 sa s2b s3 raw
    have h1 : State.kept base s1 := by
      simp only [s1, taken]
      repeat' split
      all_goals simp (maxDischargeDepth := 60) [h0]
    split
    · have h2 : State.kept base s2 := by simp (maxDischargeDepth := 60) [s2, h1]
      split <;> simp (maxDischargeDepth := 60) [h2]
    · have ha : State.kept base sa := by simp (maxDischargeDepth := 60) [sa, h1]
      have h2 : State.kept base s2b := by simp only [s2b]; split <;> simp (maxDischargeDepth := 60) [ha]
      split
      · simp (maxDischargeDepth := 60) [h2]
      · split
        · simp (maxDischargeDepth := 60) [h2]
        · have h3 : State.kept base s3 := by
            simp only [s3]
            repeat' split
            all_goals simp (maxDischargeDepth := 60) [h2]
          simp (maxDischargeDepth := 60) [h3]

@[simp] theorem State.replay_kept (s : State) (ash : Bool) (hw : State.kept base s) :
    State.kept base (State.replay s ash) := by
  unfold State.replay
  split
  · exact hw
  · split
    · exact hw
    · extract_lets s0 bad ins s1
      have h0 : State.kept base s0 := by simp (maxDischargeDepth := 60) [s0, hw]
      have h1 : State.kept base s1 := State.setInsp_kept _ _ h0
      split
      · exact h1
      · extract_lets row put s2 r
        split <;> simp (maxDischargeDepth := 60) [put, s2, r, h1]

@[simp] theorem State.frameStats_kept (s : State) (c : Nat) (fr : CamFrame) (hw : State.kept base s) :
    State.kept base (State.frameStats s c fr) := by
  unfold State.frameStats
  extract_lets m s1 dy nl f1 f2 pos known s2 s3 flags head
  have h1 : State.kept base s1 := by
    simp only [s1]
    split
    · obtain ⟨k1, k2, k3, k4, k5, k6, k7, k8, k9, k10⟩ := hw
      exact ⟨k1, k2, k3, k4, k5, k6, k7, k8, by dsimp only; omega, k10⟩
    · exact hw
  have h2 : State.kept base s2 := by simp only [s2, f2, f1]; split <;> simp (maxDischargeDepth := 60) [h1]
  have h3 : State.kept base s3 := by simp only [s3]; split <;> simp (maxDischargeDepth := 60) [h2]
  exact kept_foldl _ (by simp (maxDischargeDepth := 60) [h3]) (fun t i ht => by simp (maxDischargeDepth := 60) [ht])

@[simp] theorem State.frameDone_kept (s : State) (c : Nat) (hw : State.kept base s) :
    State.kept base (State.frameDone s c) := by
  simp only [State.frameDone]
  repeat' split
  all_goals simp_all (maxDischargeDepth := 60) +contextual

end Sys2Proof.Machine
end

