-- ==== Sys2Proof/Laws/KeptFindOps.lean ====
section
/-! SUPPORT. Every operation of Machine/FindOps.lean keeps registers and memories in their canonical form, the queue and the serial number. -/

namespace Sys2Proof.Machine

variable {base : State}

@[simp] theorem State.camCycle_kept (s : State) (c : Nat) (hw : State.kept base s) :
    State.kept base (State.camCycle s c) := by simp (maxDischargeDepth := 60) [State.camCycle, hw]

@[simp] theorem State.runNote_kept (s : State) (n k : Nat) (hw : State.kept base s) :
    State.kept base (State.runNote s n k) := by simp (maxDischargeDepth := 60) [State.runNote, hw]

@[simp] theorem State.batchPass_kept (s : State) (e eng : Nat) (ws : List AutoWr) (hw : State.kept base s) :
    State.kept base (State.batchPass s e eng ws) := by
  unfold State.batchPass
  extract_lets k
  exact kept_foldl _ (by simp (maxDischargeDepth := 60) [hw]) (fun t q ht => by simp (maxDischargeDepth := 60) [ht])

@[simp] theorem State.batchSend_kept (s : State) (e n : Nat) (ws : List AutoWr) (hw : State.kept base s) :
    State.kept base (State.batchSend s e n ws) := by
  induction n generalizing s ws with
  | zero => exact hw
  | succ n ih => cases ws with
    | nil => exact hw
    | cons w ws => unfold State.batchSend; exact ih _ _ (by simp (maxDischargeDepth := 60) [hw])

@[simp] theorem State.findWrite_kept (s : State) (c : Nat) (f : Finding) (n : Option Nat) (act : Nat) (ws : List Want) (hw : State.kept base s) :
    State.kept base (State.findWrite s c f n act ws) := by
  unfold State.findWrite
  extract_lets e k aw main body s1 ins s2
  have h1 : State.kept base s1 := by simp (maxDischargeDepth := 60) [s1, hw]
  have h2 : State.kept base s2 := State.setInsp_kept _ _ h1
  apply State.batchPass_kept
  split
  · exact State.batchSend_kept _ _ _ _ h2
  · exact h2

@[simp] theorem State.finding_kept (s : State) (c : Nat) (f : Finding) (hw : State.kept base s) :
    State.kept base (State.finding s c f) := by
  unfold State.finding
  extract_lets n s1 s2 p now low act
  split
  · exact hw
  · have h1 : State.kept base s1 := by
      cases hn : n with
      | none => simp only [s1, hn]; exact hw
      | some k => simp only [s1, hn]; exact kept_ite (State.runNote_kept _ _ _ hw) hw
    have h2 : State.kept base s2 := State.modCam_kept _ _ _ h1
    repeat' split
    all_goals simp (maxDischargeDepth := 60) [h2]

@[simp] theorem State.stripSummary_kept (s : State) (c m : Nat) (hw : State.kept base s) :
    State.kept base (State.stripSummary s c m) := by
  unfold State.stripSummary
  extract_lets x r e
  have h2 : State.kept base e.2 := by
    simp only [e]; split <;> simp (maxDischargeDepth := 60) [r, hw]
  exact State.insRecord_kept _ _ _ h2

@[simp] theorem State.refRead_kept (s : State) (i : Nat) (hw : State.kept base s) :
    State.kept base (State.refRead s i) := by simp (maxDischargeDepth := 60) [State.refRead, hw]

@[simp] theorem State.compare_kept (s : State) (rows : List (Fin 128 × BitVec 38)) (hw : State.kept base s) :
    State.kept base (State.compare s rows) := by
  unfold State.compare
  exact kept_foldl _ hw (fun t q ht => by split <;> simp (maxDischargeDepth := 60) [ht])

end Sys2Proof.Machine
end

