-- ==== Sys2Proof/Laws/KeptInsRows.lean ====
section
/-! SUPPORT. Every operation of Machine/InsRows.lean keeps registers and memories in their canonical form, the queue and the serial number. -/

namespace Sys2Proof.Machine

variable {base : State}

@[simp] theorem State.camCtl_kept (s : State) (c : Nat) (v : Word) (hw : State.kept base s) :
    State.kept base (State.camCtl s c v) := by
  unfold State.camCtl
  repeat' split
  all_goals simp (maxDischargeDepth := 60) +contextual [*]

@[simp] theorem State.ffNext_kept (s : State) (c : Nat) (hw : State.kept base s) :
    State.kept base (State.ffNext s c) := by simp (maxDischargeDepth := 60) [State.ffNext, hw]

@[simp] theorem State.ffWrite_kept (s : State) (c off len v : Nat) (hw : State.kept base s) :
    State.kept base (State.ffWrite s c off len v) := by simp (maxDischargeDepth := 60) [State.ffWrite, hw]

@[simp] theorem State.ffRead_kept (s : State) (c : Nat) (hw : State.kept base s) :
    State.kept base (State.ffRead s c) := by simp (maxDischargeDepth := 60) [State.ffRead, hw]

@[simp] theorem State.inspectionBatch_kept (s : State) (c busy backlog : Nat) (fs : List Finding) (measured : Option (BitVec 32)) (rows : List (Fin 128 × BitVec 38)) (hw : State.kept base s) :
    State.kept base (State.inspectionBatch s c busy backlog fs measured rows) := by
  unfold State.inspectionBatch
  repeat' split
  all_goals simp (maxDischargeDepth := 60) +contextual [*]

@[simp] theorem State.batchIn_kept (s : State) (e : Nat) (ws : List (BitVec 128)) (hw : State.kept base s) :
    State.kept base (State.batchIn s e ws) := by simp (maxDischargeDepth := 60) [State.batchIn, hw]

end Sys2Proof.Machine
end

