-- ==== Sys2Proof/Laws/KeptStoreWin.lean ====
section
/-! SUPPORT. Every operation of Machine/StoreWin.lean keeps registers and memories in their canonical form, the queue and the serial number. -/

namespace Sys2Proof.Machine

variable {base : State}

@[simp] theorem State.setHs_kept (s : State) (k : Nat) (w : MWord) (hw : State.kept base s) :
    State.kept base (State.setHs s k w) := by
  have h := (Tables.wf_iff _).1 hw.2.1
  exact State.setTabs_wf_kept _ _ hw (by rw [Tables.wf_iff]; simp [h])

@[simp] theorem State.hsTouch_kept (s : State) (k : Nat) (hw : State.kept base s) :
    State.kept base (State.hsTouch s k) := by simp (maxDischargeDepth := 60) [State.hsTouch, hw]

@[simp] theorem State.hsMerge_kept (s : State) (hw : State.kept base s) :
    State.kept base (State.hsMerge s) := by
  unfold State.hsMerge
  repeat' split
  all_goals simp (maxDischargeDepth := 60) +contextual [*]

@[simp] theorem State.hsAway_kept (s : State) (k : Nat) (hw : State.kept base s) :
    State.kept base (State.hsAway s k) := by
  unfold State.hsAway
  repeat' split
  all_goals simp (maxDischargeDepth := 60) +contextual [*]

@[simp] theorem State.hsPut_kept (s : State) (a len v : Nat) (hw : State.kept base s) :
    State.kept base (State.hsPut s a len v) := by simp (maxDischargeDepth := 60) [State.hsPut, hw]

@[simp] theorem State.hsGet_kept (s : State) (a len : Nat) (hw : State.kept base s) :
    State.kept base (State.hsGet s a len) := by simp (maxDischargeDepth := 60) [State.hsGet, hw]

@[simp] theorem State.bar2Write_kept (s : State) (off len v : Nat) (hw : State.kept base s) :
    State.kept base (State.bar2Write s off len v) := by
  unfold State.bar2Write
  repeat' split
  all_goals simp (maxDischargeDepth := 60) +contextual [*]

@[simp] theorem State.bar2Read_kept (s : State) (off len : Nat) (hw : State.kept base s) :
    State.kept base (State.bar2Read s off len) := by
  unfold State.bar2Read
  repeat' split
  all_goals simp (maxDischargeDepth := 60) +contextual [*]

@[simp] theorem State.mergeTimeout_kept (s : State) (mem : Nat) (hw : State.kept base s) :
    State.kept base (State.mergeTimeout s mem) := by
  unfold State.mergeTimeout
  repeat' split
  all_goals simp (maxDischargeDepth := 60) +contextual [*]

@[simp] theorem State.stagUpset_kept (s : State) (a : Nat) (flips : BitVec 72) (hw : State.kept base s) :
    State.kept base (State.stagUpset s a flips) := by
  simp only [State.stagUpset]
  repeat' split
  all_goals simp_all (maxDischargeDepth := 60) +contextual

@[simp] theorem State.tileUpset_kept (s : State) (a : Nat) (flips : BitVec 72) (hw : State.kept base s) :
    State.kept base (State.tileUpset s a flips) := by
  simp only [State.tileUpset]
  repeat' split
  all_goals simp_all (maxDischargeDepth := 60) +contextual

@[simp] theorem State.looseUpset_kept (s : State) (r a : Nat) (flips : BitVec 72) (hw : State.kept base s) :
    State.kept base (State.looseUpset s r a flips) := by
  unfold State.looseUpset
  refine kept_ite (by simp (maxDischargeDepth := 60) [hw]) (kept_ite (by simp (maxDischargeDepth := 60) [hw]) ?_)
  split
  · exact State.setInsp_kept _ _ (by simp (maxDischargeDepth := 60) [hw])
  · split
    · exact State.setTabs_kept _ _ (by simp (maxDischargeDepth := 60) [hw]) rfl
    · exact hw

@[simp] theorem State.upset_kept (s : State) (mem r a : Nat) (flips : BitVec 72) (hw : State.kept base s) :
    State.kept base (State.upset s mem r a flips) := by simp (maxDischargeDepth := 60) [State.upset, hw]

@[simp] theorem State.scrubSram_kept (s : State) (hw : State.kept base s) :
    State.kept base (State.scrubSram s) := by
  unfold State.scrubSram
  repeat' split
  all_goals simp (maxDischargeDepth := 60) +contextual [*]

@[simp] theorem State.scrubStore_kept (s : State) (hw : State.kept base s) :
    State.kept base (State.scrubStore s) := by
  unfold State.scrubStore
  repeat' split
  all_goals simp (maxDischargeDepth := 60) +contextual [*]

@[simp] theorem State.scrubStep_kept (s : State) (mem r a : Nat) (flips : BitVec 72) (hw : State.kept base s) :
    State.kept base (State.scrubStep s mem r a flips) := by simp (maxDischargeDepth := 60) [State.scrubStep, hw]

@[simp] theorem State.flipWrite_kept (s : State) (v : Word) (hearth : Bool) (hw : State.kept base s) :
    State.kept base (State.flipWrite s v hearth) := by
  unfold State.flipWrite
  repeat' split
  all_goals simp (maxDischargeDepth := 60) +contextual [*]

@[simp] theorem State.retnPut_kept (s : State) (x : Nat) (v : Word) (hw : State.kept base s) :
    State.kept base (State.retnPut s x v) := by
  unfold State.retnPut
  split <;> simp (maxDischargeDepth := 60) [hw]

@[simp] theorem State.retnGet_kept (s : State) (x : Nat) (hw : State.kept base s) :
    State.kept base (State.retnGet s x) := by simp (maxDischargeDepth := 60) [State.retnGet, hw]

end Sys2Proof.Machine
end

