-- ==== Sys2Proof/Laws/KeptSvcRows.lean ====
section
/-! SUPPORT. Every operation of Machine/SvcRows.lean keeps registers and memories in their canonical form, the queue and the serial number. -/

namespace Sys2Proof.Machine

variable {base : State}

@[simp] theorem State.imgCopy_kept (s : State) (img : List Byte) (mk : Nat → Bool) (hw : State.kept base s) :
    State.kept base (State.imgCopy s img mk) := by
  unfold State.imgCopy
  extract_lets h m
  obtain ⟨h1, h2, h3, h4, h5, h6, h7, h8, h9, h10, h11, h12, h13, h14⟩ := (Tables.wf_iff _).1 hw.2.1
  have hm : SMap.wf (fun _ => zeroWord) m = true := smap_foldl _ h14 (fun _ _ hm => SMap.wf_set hm)
  exact hw.withTabs (Tables.wf_hsram hw.2.1 hm)

@[simp] theorem State.fwStart_kept (s : State) (slot : Nat) (img : List Byte) (mk : Nat → Bool) (hw : State.kept base s) :
    State.kept base (State.fwStart s slot img mk) := by simp (maxDischargeDepth := 60) [State.fwStart, hw]

@[simp] theorem State.imageDone_kept (s : State) (sigs : Nat) (ok : Bool) (a b : Option (List Byte)) (hw : State.kept base s) :
    State.kept base (State.imageDone s sigs ok a b) := by
  unfold State.imageDone
  extract_lets s1 s2 q img c s00 s3
  have h1 : State.kept base s1 := by simp only [s1]; split <;> simp (maxDischargeDepth := 60) [hw]
  have h2 : State.kept base s2 := by simp only [s2]; split <;> simp (maxDischargeDepth := 60) [h1]
  have h00 : State.kept base s00 := by simp (maxDischargeDepth := 60) [s00, h2]
  have h3 : State.kept base s3 := by
    obtain ⟨k1, k2, k3, k4, k5, k6, k7, k8, k9, k10⟩ := h00
    exact ⟨k1, k2, k3, k4, k5, k6, k7, k8, Nat.le_add_right_of_le k9, k10⟩
  repeat' split
  all_goals simp (maxDischargeDepth := 60) [h2, h3, h00]

@[simp] theorem State.bootGo_kept (s : State) (hw : State.kept base s) :
    State.kept base (State.bootGo s) := by simp (maxDischargeDepth := 60) [State.bootGo, hw]

@[simp] theorem State.retrainOn_kept (s : State) (p : Nat) (hw : State.kept base s) :
    State.kept base (State.retrainOn s p) := by
  unfold State.retrainOn
  repeat' split
  all_goals simp (maxDischargeDepth := 60) [hw]

@[simp] theorem State.mbxStart_kept (s : State) (c : Nat) (hw : State.kept base s) :
    State.kept base (State.mbxStart s c) := by simp (maxDischargeDepth := 60) [State.mbxStart, hw]

@[simp] theorem State.mbxGo_kept (s : State) (hw : State.kept base s) :
    State.kept base (State.mbxGo s) := by simp (maxDischargeDepth := 60) [State.mbxGo, hw]

@[simp] theorem State.mbxCmd_kept (s : State) (c : Nat) (hw : State.kept base s) :
    State.kept base (State.mbxCmd s c) := by simp (maxDischargeDepth := 60) +contextual [State.mbxCmd, hw]

@[simp] theorem State.headTake_kept (s : State) (p o len v : Nat) (hw : State.kept base s) :
    State.kept base (State.headTake s p o len v) := by simp (maxDischargeDepth := 60) [State.headTake, hw]

@[simp] theorem State.pageWrite_kept (s : State) (ok : Bool) (hw : State.kept base s) :
    State.kept base (State.pageWrite s ok) := by simp (maxDischargeDepth := 60) [State.pageWrite, hw]

@[simp] theorem State.putRsp_kept (s : State) (bs : List Byte) (hw : State.kept base s) :
    State.kept base (State.putRsp s bs) := by simp (maxDischargeDepth := 60) +contextual [State.putRsp, hw]

@[simp] theorem State.mbxRefused_kept (s : State) (st : Nat) (hw : State.kept base s) :
    State.kept base (State.mbxRefused s st) := by simp (maxDischargeDepth := 60) [State.mbxRefused, hw]

@[simp] theorem State.mbxEnd_kept (s : State) (st : Nat) (bs : List Byte) (hw : State.kept base s) :
    State.kept base (State.mbxEnd s st bs) := by simp (maxDischargeDepth := 60) [State.mbxEnd, hw]

@[simp] theorem State.versionEnd_kept (s : State) (hw : State.kept base s) :
    State.kept base (State.versionEnd s) := by
  unfold State.versionEnd
  extract_lets d
  have hd : ∀ (l : List Nat) (a : List Byte × State), State.kept base a.2 →
      State.kept base (l.foldl (fun (a : List Byte × State) _ => let x := a.2.draw; (a.1 ++ leBytes 4 x.1.toNat, x.2)) a).2 := by
    intro l
    induction l with
    | nil => exact fun a h => h
    | cons x l ih => exact fun a h => ih _ (State.draw_kept _ h)
  have h2 : State.kept base d.2 := hd _ ([], s) hw
  simp (maxDischargeDepth := 60) [h2]

@[simp] theorem State.headreadEnd_kept (s : State) (hw : State.kept base s) :
    State.kept base (State.headreadEnd s) := by simp (maxDischargeDepth := 60) [State.headreadEnd, hw]

@[simp] theorem State.rankEnd_kept (s : State) (ok : Bool) (hw : State.kept base s) :
    State.kept base (State.rankEnd s ok) := by simp (maxDischargeDepth := 60) [State.rankEnd, hw]

@[simp] theorem State.flashSealed_kept (s : State) (data : List Byte) (hw : State.kept base s) :
    State.kept base (State.flashSealed s data) := by simp (maxDischargeDepth := 60) [State.flashSealed, hw]

@[simp] theorem State.flashEnd_kept (s : State) (sig w : Bool) (data : List Byte) (hw : State.kept base s) :
    State.kept base (State.flashEnd s sig w data) := by simp (maxDischargeDepth := 60) [State.flashEnd, hw]

@[simp] theorem State.otpEnd_kept (s : State) (ok : Bool) (hw : State.kept base s) :
    State.kept base (State.otpEnd s ok) := by
  unfold State.otpEnd
  split
  · simp (maxDischargeDepth := 60) [hw]
  · split
    · simp (maxDischargeDepth := 60) [hw]
    · extract_lets d w s1
      have h1 : State.kept base s1 := by simp only [s1]; split <;> simp (maxDischargeDepth := 60) [d, hw]
      simp (maxDischargeDepth := 60) [h1]

@[simp] theorem State.goldenEnd_kept (s : State) (hw : State.kept base s) :
    State.kept base (State.goldenEnd s) := by simp (maxDischargeDepth := 60) +contextual [State.goldenEnd, hw]

@[simp] theorem State.retrainEnd_kept (s : State) (hw : State.kept base s) :
    State.kept base (State.retrainEnd s) := by
  unfold State.retrainEnd
  repeat' split
  all_goals simp (maxDischargeDepth := 60) +contextual [*]

@[simp] theorem State.mailboxEnd_kept (s : State) (wrseal sig ok : Bool) (data : List Byte) (hw : State.kept base s) :
    State.kept base (State.mailboxEnd s wrseal sig ok data) := by
  simp only [State.mailboxEnd]
  repeat' split
  all_goals simp_all (maxDischargeDepth := 60) +contextual

@[simp] theorem State.svcArm_kept (s : State) (v : Word) (hw : State.kept base s) :
    State.kept base (State.svcArm s v) := by simp (maxDischargeDepth := 60) [State.svcArm, hw]

@[simp] theorem State.authLapse_kept (s : State) (hw : State.kept base s) :
    State.kept base (State.authLapse s) := by simp (maxDischargeDepth := 60) [State.authLapse, hw]

end Sys2Proof.Machine
end

