-- ==== Sys2Proof/Laws/KeptRegOps.lean ====
section
/-! SUPPORT. Every operation of Machine/RegOps.lean keeps registers and memories in their canonical form, the queue and the serial number. -/

namespace Sys2Proof.Machine

variable {base : State}

@[simp] theorem State.armedAt_kept (s : State) (a : Nat) (hw : State.kept base s) :
    State.kept base (State.armedAt s a) := by simp (maxDischargeDepth := 60) [State.armedAt, hw]

@[simp] theorem State.plainWrite_kept (s : State) (a : Nat) (r : RegRow) (m v : Word) (hw : State.kept base s) :
    State.kept base (State.plainWrite s a r m v) := by simp (maxDischargeDepth := 60) [State.plainWrite, hw]

@[simp] theorem State.clearRead_kept (s : State) (a : Nat) (r : RegRow) (m : Word) (hw : State.kept base s) :
    State.kept base (State.clearRead s a r m) := by simp (maxDischargeDepth := 60) [State.clearRead, hw]

@[simp] theorem State.shown_kept (s : State) (a : Nat) (r : RegRow) (hw : State.kept base s) :
    State.kept base (State.shown s a r |>.2) := by
  unfold State.shown
  dsimp only
  split
  · exact hw
  · exact State.draw_kept _ hw

end Sys2Proof.Machine
end

