-- ==== Sys2Proof/Laws/KeptRegWrites.lean ====
section
/-! SUPPORT. Every operation of Machine/RegWrites.lean keeps registers and memories in their canonical form, the queue and the serial number. -/

namespace Sys2Proof.Machine

variable {base : State}

@[simp] theorem State.takeWrite_kept (s : State) (a : Nat) (r : RegRow) (m v : Word) (hw : State.kept base s) :
    State.kept base (State.takeWrite s a r m v) := by simp (maxDischargeDepth := 60) [State.takeWrite, hw]

@[simp] theorem State.pollStart_kept (s : State) (hw : State.kept base s) :
    State.kept base (State.pollStart s) := by simp (maxDischargeDepth := 60) [State.pollStart, hw]

@[simp] theorem State.hifWrite_kept (s : State) (a : Nat) (r : RegRow) (m v : Word) (hw : State.kept base s) :
    State.kept base (State.hifWrite s a r m v) := by
  unfold State.hifWrite
  repeat' split
  all_goals simp (maxDischargeDepth := 60) +contextual [*]

@[simp] theorem State.strWrite_kept (s : State) (a : Nat) (r : RegRow) (m v : Word) (hw : State.kept base s) :
    State.kept base (State.strWrite s a r m v) := by
  unfold State.strWrite
  repeat' split
  all_goals simp (maxDischargeDepth := 60) +contextual [*]

@[simp] theorem State.partLost_kept (s : State) (i : Nat) (hw : State.kept base s) :
    State.kept base (State.partLost s i) := by simp (maxDischargeDepth := 60) [State.partLost, hw]

@[simp] theorem State.partWrite_kept (s : State) (i : Nat) (v : Word) (hw : State.kept base s) :
    State.kept base (State.partWrite s i v) := by
  simp only [State.partWrite]
  repeat' split
  all_goals simp_all (maxDischargeDepth := 60) +contextual

@[simp] theorem State.partGeom_kept (s : State) (i a : Nat) (r : RegRow) (m v : Word) (hw : State.kept base s) :
    State.kept base (State.partGeom s i a r m v) := by simp (maxDischargeDepth := 60) [State.partGeom, hw]

@[simp] theorem State.swsWrite_kept (s : State) (a : Nat) (r : RegRow) (m v : Word) (hw : State.kept base s) :
    State.kept base (State.swsWrite s a r m v) := by
  unfold State.swsWrite
  repeat' split
  all_goals simp (maxDischargeDepth := 60) +contextual [*]

@[simp] theorem State.burstWant_kept (s : State) (hw : State.kept base s) :
    State.kept base (State.burstWant s) := by simp (maxDischargeDepth := 60) [State.burstWant, hw]

@[simp] theorem State.klnWrite_kept (s : State) (a : Nat) (r : RegRow) (m v : Word) (hw : State.kept base s) :
    State.kept base (State.klnWrite s a r m v) := by
  unfold State.klnWrite
  repeat' split
  all_goals simp (maxDischargeDepth := 60) +contextual [*]

@[simp] theorem State.nztWrite_kept (s : State) (a : Nat) (r : RegRow) (m v : Word) (hw : State.kept base s) :
    State.kept base (State.nztWrite s a r m v) := by
  unfold State.nztWrite
  repeat' (first | exact hw | apply kept_ite)
  all_goals simp (maxDischargeDepth := 60) [hw]

@[simp] theorem State.modeWrite_kept (s : State) (h : Nat) (m v : Word) (hearth : Bool) (hw : State.kept base s) :
    State.kept base (State.modeWrite s h m v hearth) := by simp (maxDischargeDepth := 60) [State.modeWrite, hw]

@[simp] theorem State.testWrite_kept (s : State) (h a : Nat) (r : RegRow) (m v : Word) (hearth : Bool) (hw : State.kept base s) :
    State.kept base (State.testWrite s h a r m v hearth) := by
  simp only [State.testWrite]
  repeat' (first | assumption | split | (refine kept_foldl _ ?_ ?_) | (intro _ _ _))
  all_goals simp (maxDischargeDepth := 60) +contextual [*]

@[simp] theorem State.trainWrite_kept (s : State) (h a : Nat) (r : RegRow) (m v : Word) (hw : State.kept base s) :
    State.kept base (State.trainWrite s h a r m v) := by
  unfold State.trainWrite
  repeat' split
  all_goals simp (maxDischargeDepth := 60) +contextual [*]

@[simp] theorem State.headInfo_kept (s : State) (h a : Nat) (r : RegRow) (m v : Word) (hw : State.kept base s) :
    State.kept base (State.headInfo s h a r m v) := by simp (maxDischargeDepth := 60) [State.headInfo, hw]

@[simp] theorem State.portWrite_kept (s : State) (h k a : Nat) (r : RegRow) (m v : Word) (hearth : Bool) (hw : State.kept base s) :
    State.kept base (State.portWrite s h k a r m v hearth) := by simp (maxDischargeDepth := 60) [State.portWrite, hw]

@[simp] theorem State.hptWrite_kept (s : State) (a : Nat) (r : RegRow) (m v : Word) (hearth : Bool) (hw : State.kept base s) :
    State.kept base (State.hptWrite s a r m v hearth) := by simp (maxDischargeDepth := 60) +contextual [State.hptWrite, hw]

@[simp] theorem State.zmodeWrite_kept (s : State) (r : RegRow) (m v : Word) (hw : State.kept base s) :
    State.kept base (State.zmodeWrite s r m v) := by simp (maxDischargeDepth := 60) [State.zmodeWrite, hw]

@[simp] theorem State.posWrite_kept (s : State) (a : Nat) (r : RegRow) (m v : Word) (hearth : Bool) (hw : State.kept base s) :
    State.kept base (State.posWrite s a r m v hearth) := by
  unfold State.posWrite
  repeat' split
  all_goals simp (maxDischargeDepth := 60) +contextual [*]

@[simp] theorem State.trnTrip_kept (s : State) (a : Nat) (hw : State.kept base s) :
    State.kept base (State.trnTrip s a) := by simp (maxDischargeDepth := 60) [State.trnTrip, hw]

@[simp] theorem State.trnWrite_kept (s : State) (a : Nat) (r : RegRow) (m v : Word) (hw : State.kept base s) :
    State.kept base (State.trnWrite s a r m v) := by simp (maxDischargeDepth := 60) [State.trnWrite, hw]

@[simp] theorem State.insCtl_kept (s : State) (r : RegRow) (m v : Word) (hw : State.kept base s) :
    State.kept base (State.insCtl s r m v) := by
  simp only [State.insCtl]
  repeat' (first | assumption | split | (refine kept_foldl _ ?_ ?_) | (intro _ _ _))
  all_goals simp (maxDischargeDepth := 60) +contextual [*]

@[simp] theorem State.camWrite_kept (s : State) (c k a : Nat) (r : RegRow) (m v : Word) (off len : Nat) (hw : State.kept base s) :
    State.kept base (State.camWrite s c k a r m v off len) := by simp (maxDischargeDepth := 60) [State.camWrite, hw]

@[simp] theorem State.insWrite_kept (s : State) (a : Nat) (r : RegRow) (m v : Word) (off len : Nat) (hw : State.kept base s) :
    State.kept base (State.insWrite s a r m v off len) := by simp (maxDischargeDepth := 60) +contextual [State.insWrite, hw]

@[simp] theorem State.evtCtl_kept (s : State) (n : Nat) (r : RegRow) (m v : Word) (hearth : Bool) (hw : State.kept base s) :
    State.kept base (State.evtCtl s n r m v hearth) := by
  simp only [State.evtCtl]
  repeat' (first | assumption | split | (refine kept_foldl _ ?_ ?_) | (intro _ _ _))
  all_goals simp (maxDischargeDepth := 60) +contextual [*]

@[simp] theorem State.timWrite_kept (s : State) (a : Nat) (r : RegRow) (m v : Word) (hearth : Bool) (hw : State.kept base s) :
    State.kept base (State.timWrite s a r m v hearth) := by
  unfold State.timWrite
  split
  · simp (maxDischargeDepth := 60) [hw]
  · simp (maxDischargeDepth := 60) [hw]
  · simp (maxDischargeDepth := 60) [hw]
  · extract_lets s1
    have h1 : State.kept base s1 := by simp (maxDischargeDepth := 60) [s1, hw]
    repeat' split
    all_goals simp (maxDischargeDepth := 60) [h1]

@[simp] theorem State.crdWrite_kept (s : State) (a : Nat) (r : RegRow) (m v : Word) (hw : State.kept base s) :
    State.kept base (State.crdWrite s a r m v) := by
  unfold State.crdWrite
  repeat' split
  all_goals simp (maxDischargeDepth := 60) +contextual [*]

@[simp] theorem State.twinCtl_kept (s : State) (m v : Word) (hw : State.kept base s) :
    State.kept base (State.twinCtl s m v) := by
  simp only [State.twinCtl]
  repeat' (first | assumption | split | (refine kept_foldl _ ?_ ?_) | (intro _ _ _))
  all_goals simp (maxDischargeDepth := 60) +contextual [*]

@[simp] theorem State.overWrite_kept (s : State) (x : Nat) (hearth : Bool) (hw : State.kept base s) :
    State.kept base (State.overWrite s x hearth) := by simp (maxDischargeDepth := 60) [State.overWrite, hw]

@[simp] theorem State.twnWrite_kept (s : State) (a : Nat) (r : RegRow) (m v : Word) (hearth : Bool) (hw : State.kept base s) :
    State.kept base (State.twnWrite s a r m v hearth) := by
  unfold State.twnWrite
  repeat' split
  all_goals simp (maxDischargeDepth := 60) +contextual [*]

@[simp] theorem State.faultCut_kept (s : State) (hw : State.kept base s) :
    State.kept base (State.faultCut s) := by simp (maxDischargeDepth := 60) +contextual [State.faultCut, hw]

@[simp] theorem State.trmCtl_kept (s : State) (r : RegRow) (m v : Word) (hw : State.kept base s) :
    State.kept base (State.trmCtl s r m v) := by simp (maxDischargeDepth := 60) [State.trmCtl, hw]

@[simp] theorem State.trmWrite_kept (s : State) (a : Nat) (r : RegRow) (m v : Word) (hearth : Bool) (hw : State.kept base s) :
    State.kept base (State.trmWrite s a r m v hearth) := by
  unfold State.trmWrite
  repeat' split
  all_goals simp (maxDischargeDepth := 60) +contextual [*]

@[simp] theorem State.wdWrite_kept (s : State) (r : RegRow) (m v : Word) (hw : State.kept base s) :
    State.kept base (State.wdWrite s r m v) := by simp (maxDischargeDepth := 60) [State.wdWrite, hw]

@[simp] theorem State.aonWrite_kept (s : State) (a : Nat) (r : RegRow) (m v : Word) (hw : State.kept base s) :
    State.kept base (State.aonWrite s a r m v) := by
  unfold State.aonWrite
  repeat' split
  all_goals simp (maxDischargeDepth := 60) +contextual [*]

@[simp] theorem State.eccWrite_kept (s : State) (a : Nat) (r : RegRow) (m v : Word) (hearth : Bool) (hw : State.kept base s) :
    State.kept base (State.eccWrite s a r m v hearth) := by simp (maxDischargeDepth := 60) [State.eccWrite, hw]

@[simp] theorem State.svcWrite_kept (s : State) (a : Nat) (r : RegRow) (m v : Word) (hearth : Bool) (hw : State.kept base s) :
    State.kept base (State.svcWrite s a r m v hearth) := by
  unfold State.svcWrite
  repeat' split
  all_goals simp (maxDischargeDepth := 60) +contextual [*]

@[simp] theorem State.untWrite_kept (s : State) (a : Nat) (r : RegRow) (m v : Word) (hw : State.kept base s) :
    State.kept base (State.untWrite s a r m v) := by simp (maxDischargeDepth := 60) [State.untWrite, hw]

@[simp] theorem State.sysWrite_kept (s : State) (a : Nat) (m v : Word) (hw : State.kept base s) :
    State.kept base (State.sysWrite s a m v) := by simp (maxDischargeDepth := 60) [State.sysWrite, hw]

@[simp] theorem State.regWrite_kept (s : State) (a : Nat) (r : RegRow) (m v : Word) (off len : Nat) (hearth : Bool) (hw : State.kept base s) :
    State.kept base (State.regWrite s a r m v off len hearth) := by
  unfold State.regWrite
  refine kept_ite (by simp only [State.sysWrite_kept, hw]) ?_
  refine kept_ite (by simp only [State.hifWrite_kept, hw]) ?_
  refine kept_ite (by simp only [State.strWrite_kept, hw]) ?_
  refine kept_ite (by simp only [State.untWrite_kept, hw]) ?_
  refine kept_ite (by simp only [State.klnWrite_kept, hw]) ?_
  refine kept_ite (by simp only [State.swsWrite_kept, hw]) ?_
  refine kept_ite (by simp only [State.hptWrite_kept, hw]) ?_
  refine kept_ite (by simp only [State.posWrite_kept, hw]) ?_
  refine kept_ite (by simp only [State.takeWrite_kept, hw]) ?_
  refine kept_ite (by simp only [State.trnWrite_kept, hw]) ?_
  refine kept_ite (by simp only [State.insWrite_kept, hw]) ?_
  refine kept_ite (by simp only [State.timWrite_kept, hw]) ?_
  refine kept_ite (by simp only [State.crdWrite_kept, hw]) ?_
  refine kept_ite (by simp only [State.twnWrite_kept, hw]) ?_
  refine kept_ite (by simp only [State.trmWrite_kept, hw]) ?_
  refine kept_ite (by simp only [State.aonWrite_kept, hw]) ?_
  refine kept_ite (by simp only [State.eccWrite_kept, hw]) ?_
  refine kept_ite (by simp only [State.svcWrite_kept, hw]) ?_
  simp only [State.nztWrite_kept, hw]

end Sys2Proof.Machine
end

