-- ==== Sys2Proof/Laws/KeptRegRows.lean ====
section
/-! SUPPORT. Every operation of Machine/RegRows.lean keeps registers and memories in their canonical form, the queue and the serial number. -/

namespace Sys2Proof.Machine

variable {base : State}

@[simp] theorem State.write32_kept (s : State) (a len v : Nat) (hearth : Bool) (hw : State.kept base s) :
    State.kept base (State.write32 s a len v hearth) := by
  unfold State.write32
  repeat' split
  all_goals simp (maxDischargeDepth := 60) +contextual [*]

@[simp] theorem State.answer_kept (s : State) (v : Nat) (ep : Bool) (hw : State.kept base s) :
    State.kept base (State.answer s v ep) := by simp (maxDischargeDepth := 60) [State.answer, hw]

@[simp] theorem State.regRead_kept (s : State) (a len : Nat) (r : RegRow) (hw : State.kept base s) :
    State.kept base (State.regRead s a len r) := by
  unfold State.regRead
  extract_lets b cut p
  have hc : ∀ t : State, State.kept base t → State.kept base (cut t) := fun t ht => by simp (maxDischargeDepth := 60) [cut, ht]
  have hp : State.kept base p.2 := State.shown_kept _ _ _ hw
  refine kept_ite (hc _ (by simp (maxDischargeDepth := 60) [hw])) ?_
  refine kept_ite (hc _ (by simp (maxDischargeDepth := 60) [hw])) ?_
  refine kept_ite (hc _ (by simp (maxDischargeDepth := 60) [hw])) ?_
  refine kept_ite (hc _ (by simp (maxDischargeDepth := 60) [hw])) ?_
  refine kept_ite (hc _ (by simp (maxDischargeDepth := 60) [hw])) ?_
  refine kept_ite (hc _ (by simp (maxDischargeDepth := 60) [hw])) ?_
  refine kept_ite (hc _ (by simp (maxDischargeDepth := 60) [hw])) ?_
  refine kept_ite (hc _ (by simp (maxDischargeDepth := 60) [hw])) ?_
  refine kept_ite (hc _ (by simp (maxDischargeDepth := 60) [hw])) ?_
  refine kept_ite (hc _ (by simp (maxDischargeDepth := 60) [hw])) ?_
  exact State.answer_kept _ _ _ (State.clearRead_kept _ _ _ _ hp)

@[simp] theorem State.read32_kept (s : State) (a len : Nat) (hw : State.kept base s) :
    State.kept base (State.read32 s a len) := by
  unfold State.read32
  repeat' split
  all_goals simp (maxDischargeDepth := 60) +contextual [*]

@[simp] theorem State.bar0Write_kept (s : State) (a len v : Nat) (hearth : Bool) (hw : State.kept base s) :
    State.kept base (State.bar0Write s a len v hearth) := by
  unfold State.bar0Write
  exact kept_ite (kept_ite (State.write32_kept _ _ _ _ _ (State.write32_kept _ _ _ _ _ hw)) hw) (State.write32_kept _ _ _ _ _ hw)

@[simp] theorem State.bar0Read_kept (s : State) (a len : Nat) (hw : State.kept base s) :
    State.kept base (State.bar0Read s a len) := by simp (maxDischargeDepth := 60) [State.bar0Read, hw]

@[simp] theorem State.cfgWrite_kept (s : State) (a : Nat) (m v : Word) (hw : State.kept base s) :
    State.kept base (State.cfgWrite s a m v) := by
  unfold State.cfgWrite
  extract_lets old rw new s1
  have h1 : State.kept base s1 := State.setCfg_kept _ _ _ hw
  exact kept_ite (State.busMaster_kept _ _ h1) (kept_ite (State.d3hot_kept _ h1) (kept_ite (State.d0Return_kept _ h1) h1))

@[simp] theorem State.cfgShown_kept (s : State) (a : Nat) (hw : State.kept base s) :
    State.kept base ((State.cfgShown s a).2) := by
  unfold State.cfgShown
  split <;> simp (maxDischargeDepth := 60) [hw]

@[simp] theorem State.cfgAccess_kept (s : State) (a len v : Nat) (hw : State.kept base s) :
    State.kept base (State.cfgAccess s a len v) := by simp (maxDischargeDepth := 60) [State.cfgAccess, hw]

@[simp] theorem State.cfgRead_kept (s : State) (a len : Nat) (hw : State.kept base s) :
    State.kept base (State.cfgRead s a len) := by
  unfold State.cfgRead
  extract_lets p
  have hp : State.kept base p.2 := by
    simp only [p, State.cfgShown]; split <;> simp (maxDischargeDepth := 60) [hw]
  exact kept_ite hw (State.answer_kept _ _ _ hp)

@[simp] theorem State.accessAt_kept (s : State) (t a : Nat) (f : State → State) (hw : State.kept base s) (hf : ∀ s : State, State.kept base s → State.kept base (f s)) :
    State.kept base (State.accessAt s t a f) := by
  unfold State.accessAt
  split
  · next h =>
    have ht : s.clk ≤ t := by simp only [State.stepAfter, Bool.and_eq_true, decide_eq_true_eq] at h; omega
    exact State.takeSteps_kept _ (hf _ (State.goOn_kept s t hw ht))
  · exact hf _ (State.advance_kept s t hw)

end Sys2Proof.Machine
end

