-- ==== Sys2Proof/Laws/KeptStep.lean ====
section
/-! SUPPORT. Every operation of Machine/Step.lean keeps registers and memories in their canonical form, the queue and the serial number. -/

namespace Sys2Proof.Machine

variable {base : State}

@[simp] theorem State.withFetchWord_kept (s : State) (nbits w : Nat) (hw : State.kept base s) :
    State.kept base (State.withFetchWord s nbits w) := by
  simp only [State.withFetchWord]
  repeat' (first | assumption | split | (refine kept_foldl _ ?_ ?_) | (intro _ _ _))
  all_goals simp (maxDischargeDepth := 60) +contextual [*]

end Sys2Proof.Machine
end

