-- ==== Sys2Proof/Laws/State.lean ====
section
/-! SUPPORT. What each update of State writes and what it leaves: one lemma per update, and the reads of registers and
fields after a write. -/

namespace Sys2Proof.Machine

open Sys2Proof

/-- `setReg` writes `regs` and leaves the rest. -/
@[simp] theorem State.setReg_fields (s : State) (a : Nat) (v : Word) :
    (s.setReg a v).regs = s.regs.set regReset a v ∧ (s.setReg a v).pending = s.pending ∧ (s.setReg a v).clk =
    s.clk ∧ (s.setReg a v).freeCtr = s.freeCtr ∧ (s.setReg a v).readData = s.readData ∧ (s.setReg a v).timers =
    s.timers ∧ (s.setReg a v).readEP = s.readEP ∧ (s.setReg a v).cfg = s.cfg ∧ (s.setReg a v).alarms = s.alarms
    ∧ (s.setReg a v).out = s.out ∧ (s.setReg a v).times = s.times ∧ (s.setReg a v).hostIf = s.hostIf ∧ (s.setReg
    a v).streams = s.streams ∧ (s.setReg a v).bands = s.bands ∧ (s.setReg a v).bandSeq = s.bandSeq ∧ (s.setReg a
    v).ubase = s.ubase ∧ (s.setReg a v).uops = s.uops ∧ (s.setReg a v).heads = s.heads ∧ (s.setReg a v).trims =
    s.trims ∧ (s.setReg a v).otp = s.otp ∧ (s.setReg a v).pos = s.pos ∧ (s.setReg a v).fir = s.fir ∧ (s.setReg a
    v).splice = s.splice ∧ (s.setReg a v).cord = s.cord ∧ (s.setReg a v).sent = s.sent ∧ (s.setReg a v).evts =
    s.evts ∧ (s.setReg a v).portQ = s.portQ ∧ (s.setReg a v).tabs = s.tabs ∧ (s.setReg a v).kiln = s.kiln ∧
    (s.setReg a v).insp = s.insp ∧ (s.setReg a v).refs = s.refs ∧ (s.setReg a v).refNext = s.refNext ∧ (s.setReg
    a v).buses = s.buses ∧ (s.setReg a v).headMem = s.headMem ∧ (s.setReg a v).power = s.power ∧ (s.setReg a
    v).svc = s.svc ∧ (s.setReg a v).flashA = s.flashA ∧ (s.setReg a v).flashB = s.flashB ∧ (s.setReg a
    v).stokerMem = s.stokerMem ∧ (s.setReg a v).engineMem = s.engineMem ∧ (s.setReg a v).twin = s.twin ∧
    (s.setReg a v).serial = s.serial :=
  ⟨rfl, rfl, rfl, rfl, rfl, rfl, rfl, rfl, rfl, rfl, rfl, rfl, rfl, rfl, rfl, rfl, rfl, rfl, rfl, rfl, rfl, rfl,
  rfl, rfl, rfl, rfl, rfl, rfl, rfl, rfl, rfl, rfl, rfl, rfl, rfl, rfl, rfl, rfl, rfl, rfl, rfl, rfl⟩

/-- `setCfg` writes `cfg` and leaves the rest. -/
@[simp] theorem State.setCfg_fields (s : State) (a : Nat) (v : Word) :
    (s.setCfg a v).cfg = s.cfg.set cfgReset a v ∧ (s.setCfg a v).pending = s.pending ∧ (s.setCfg a v).clk =
    s.clk ∧ (s.setCfg a v).freeCtr = s.freeCtr ∧ (s.setCfg a v).readData = s.readData ∧ (s.setCfg a v).timers =
    s.timers ∧ (s.setCfg a v).readEP = s.readEP ∧ (s.setCfg a v).regs = s.regs ∧ (s.setCfg a v).alarms =
    s.alarms ∧ (s.setCfg a v).out = s.out ∧ (s.setCfg a v).times = s.times ∧ (s.setCfg a v).hostIf = s.hostIf ∧
    (s.setCfg a v).streams = s.streams ∧ (s.setCfg a v).bands = s.bands ∧ (s.setCfg a v).bandSeq = s.bandSeq ∧
    (s.setCfg a v).ubase = s.ubase ∧ (s.setCfg a v).uops = s.uops ∧ (s.setCfg a v).heads = s.heads ∧ (s.setCfg a
    v).trims = s.trims ∧ (s.setCfg a v).otp = s.otp ∧ (s.setCfg a v).pos = s.pos ∧ (s.setCfg a v).fir = s.fir ∧
    (s.setCfg a v).splice = s.splice ∧ (s.setCfg a v).cord = s.cord ∧ (s.setCfg a v).sent = s.sent ∧ (s.setCfg a
    v).evts = s.evts ∧ (s.setCfg a v).portQ = s.portQ ∧ (s.setCfg a v).tabs = s.tabs ∧ (s.setCfg a v).kiln =
    s.kiln ∧ (s.setCfg a v).insp = s.insp ∧ (s.setCfg a v).refs = s.refs ∧ (s.setCfg a v).refNext = s.refNext ∧
    (s.setCfg a v).buses = s.buses ∧ (s.setCfg a v).headMem = s.headMem ∧ (s.setCfg a v).power = s.power ∧
    (s.setCfg a v).svc = s.svc ∧ (s.setCfg a v).flashA = s.flashA ∧ (s.setCfg a v).flashB = s.flashB ∧ (s.setCfg
    a v).stokerMem = s.stokerMem ∧ (s.setCfg a v).engineMem = s.engineMem ∧ (s.setCfg a v).twin = s.twin ∧
    (s.setCfg a v).serial = s.serial :=
  ⟨rfl, rfl, rfl, rfl, rfl, rfl, rfl, rfl, rfl, rfl, rfl, rfl, rfl, rfl, rfl, rfl, rfl, rfl, rfl, rfl, rfl, rfl,
  rfl, rfl, rfl, rfl, rfl, rfl, rfl, rfl, rfl, rfl, rfl, rfl, rfl, rfl, rfl, rfl, rfl, rfl, rfl, rfl⟩

/-- `startTimer` writes `timers` and leaves the rest. -/
@[simp] theorem State.startTimer_fields (s : State) (k : Nat) :
    (s.startTimer k).timers = s.timers.set (fun _ => 0) k s.clk ∧ (s.startTimer k).pending = s.pending ∧
    (s.startTimer k).clk = s.clk ∧ (s.startTimer k).freeCtr = s.freeCtr ∧ (s.startTimer k).readData = s.readData
    ∧ (s.startTimer k).readEP = s.readEP ∧ (s.startTimer k).regs = s.regs ∧ (s.startTimer k).cfg = s.cfg ∧
    (s.startTimer k).alarms = s.alarms ∧ (s.startTimer k).out = s.out ∧ (s.startTimer k).times = s.times ∧
    (s.startTimer k).hostIf = s.hostIf ∧ (s.startTimer k).streams = s.streams ∧ (s.startTimer k).bands = s.bands
    ∧ (s.startTimer k).bandSeq = s.bandSeq ∧ (s.startTimer k).ubase = s.ubase ∧ (s.startTimer k).uops = s.uops ∧
    (s.startTimer k).heads = s.heads ∧ (s.startTimer k).trims = s.trims ∧ (s.startTimer k).otp = s.otp ∧
    (s.startTimer k).pos = s.pos ∧ (s.startTimer k).fir = s.fir ∧ (s.startTimer k).splice = s.splice ∧
    (s.startTimer k).cord = s.cord ∧ (s.startTimer k).sent = s.sent ∧ (s.startTimer k).evts = s.evts ∧
    (s.startTimer k).portQ = s.portQ ∧ (s.startTimer k).tabs = s.tabs ∧ (s.startTimer k).kiln = s.kiln ∧
    (s.startTimer k).insp = s.insp ∧ (s.startTimer k).refs = s.refs ∧ (s.startTimer k).refNext = s.refNext ∧
    (s.startTimer k).buses = s.buses ∧ (s.startTimer k).headMem = s.headMem ∧ (s.startTimer k).power = s.power ∧
    (s.startTimer k).svc = s.svc ∧ (s.startTimer k).flashA = s.flashA ∧ (s.startTimer k).flashB = s.flashB ∧
    (s.startTimer k).stokerMem = s.stokerMem ∧ (s.startTimer k).engineMem = s.engineMem ∧ (s.startTimer k).twin
    = s.twin ∧ (s.startTimer k).serial = s.serial :=
  ⟨rfl, rfl, rfl, rfl, rfl, rfl, rfl, rfl, rfl, rfl, rfl, rfl, rfl, rfl, rfl, rfl, rfl, rfl, rfl, rfl, rfl, rfl,
  rfl, rfl, rfl, rfl, rfl, rfl, rfl, rfl, rfl, rfl, rfl, rfl, rfl, rfl, rfl, rfl, rfl, rfl, rfl, rfl⟩

/-- `alarm` writes `alarms` and leaves the rest. -/
@[simp] theorem State.alarm_fields (s : State) (i : Nat) :
    (s.alarm i).alarms = s.alarms ||| (1#64 <<< i) ∧ (s.alarm i).pending = s.pending ∧ (s.alarm i).clk = s.clk ∧
    (s.alarm i).freeCtr = s.freeCtr ∧ (s.alarm i).readData = s.readData ∧ (s.alarm i).timers = s.timers ∧
    (s.alarm i).readEP = s.readEP ∧ (s.alarm i).regs = s.regs ∧ (s.alarm i).cfg = s.cfg ∧ (s.alarm i).out =
    s.out ∧ (s.alarm i).times = s.times ∧ (s.alarm i).hostIf = s.hostIf ∧ (s.alarm i).streams = s.streams ∧
    (s.alarm i).bands = s.bands ∧ (s.alarm i).bandSeq = s.bandSeq ∧ (s.alarm i).ubase = s.ubase ∧ (s.alarm
    i).uops = s.uops ∧ (s.alarm i).heads = s.heads ∧ (s.alarm i).trims = s.trims ∧ (s.alarm i).otp = s.otp ∧
    (s.alarm i).pos = s.pos ∧ (s.alarm i).fir = s.fir ∧ (s.alarm i).splice = s.splice ∧ (s.alarm i).cord =
    s.cord ∧ (s.alarm i).sent = s.sent ∧ (s.alarm i).evts = s.evts ∧ (s.alarm i).portQ = s.portQ ∧ (s.alarm
    i).tabs = s.tabs ∧ (s.alarm i).kiln = s.kiln ∧ (s.alarm i).insp = s.insp ∧ (s.alarm i).refs = s.refs ∧
    (s.alarm i).refNext = s.refNext ∧ (s.alarm i).buses = s.buses ∧ (s.alarm i).headMem = s.headMem ∧ (s.alarm
    i).power = s.power ∧ (s.alarm i).svc = s.svc ∧ (s.alarm i).flashA = s.flashA ∧ (s.alarm i).flashB = s.flashB
    ∧ (s.alarm i).stokerMem = s.stokerMem ∧ (s.alarm i).engineMem = s.engineMem ∧ (s.alarm i).twin = s.twin ∧
    (s.alarm i).serial = s.serial :=
  ⟨rfl, rfl, rfl, rfl, rfl, rfl, rfl, rfl, rfl, rfl, rfl, rfl, rfl, rfl, rfl, rfl, rfl, rfl, rfl, rfl, rfl, rfl,
  rfl, rfl, rfl, rfl, rfl, rfl, rfl, rfl, rfl, rfl, rfl, rfl, rfl, rfl, rfl, rfl, rfl, rfl, rfl, rfl⟩

/-- A drawn free value counts in `freeCtr` and leaves the rest. -/
@[simp] theorem State.draw_fields (s : State) :
    (s.draw.2).freeCtr = s.freeCtr + 1 ∧ (s.draw.2).pending = s.pending ∧ (s.draw.2).clk = s.clk ∧
    (s.draw.2).readData = s.readData ∧ (s.draw.2).timers = s.timers ∧ (s.draw.2).readEP = s.readEP ∧
    (s.draw.2).regs = s.regs ∧ (s.draw.2).cfg = s.cfg ∧ (s.draw.2).alarms = s.alarms ∧ (s.draw.2).out = s.out ∧
    (s.draw.2).times = s.times ∧ (s.draw.2).hostIf = s.hostIf ∧ (s.draw.2).streams = s.streams ∧
    (s.draw.2).bands = s.bands ∧ (s.draw.2).bandSeq = s.bandSeq ∧ (s.draw.2).ubase = s.ubase ∧ (s.draw.2).uops =
    s.uops ∧ (s.draw.2).heads = s.heads ∧ (s.draw.2).trims = s.trims ∧ (s.draw.2).otp = s.otp ∧ (s.draw.2).pos =
    s.pos ∧ (s.draw.2).fir = s.fir ∧ (s.draw.2).splice = s.splice ∧ (s.draw.2).cord = s.cord ∧ (s.draw.2).sent =
    s.sent ∧ (s.draw.2).evts = s.evts ∧ (s.draw.2).portQ = s.portQ ∧ (s.draw.2).tabs = s.tabs ∧ (s.draw.2).kiln
    = s.kiln ∧ (s.draw.2).insp = s.insp ∧ (s.draw.2).refs = s.refs ∧ (s.draw.2).refNext = s.refNext ∧
    (s.draw.2).buses = s.buses ∧ (s.draw.2).headMem = s.headMem ∧ (s.draw.2).power = s.power ∧ (s.draw.2).svc =
    s.svc ∧ (s.draw.2).flashA = s.flashA ∧ (s.draw.2).flashB = s.flashB ∧ (s.draw.2).stokerMem = s.stokerMem ∧
    (s.draw.2).engineMem = s.engineMem ∧ (s.draw.2).twin = s.twin ∧ (s.draw.2).serial = s.serial :=
  ⟨rfl, rfl, rfl, rfl, rfl, rfl, rfl, rfl, rfl, rfl, rfl, rfl, rfl, rfl, rfl, rfl, rfl, rfl, rfl, rfl, rfl, rfl,
  rfl, rfl, rfl, rfl, rfl, rfl, rfl, rfl, rfl, rfl, rfl, rfl, rfl, rfl, rfl, rfl, rfl, rfl, rfl, rfl⟩

/-- `emit` writes `out` and leaves the rest. -/
@[simp] theorem State.emit_fields (s : State) (a : Nat) (b : List Byte) (p : Bool) :
    (s.emit a b p).out = s.out ++ [⟨a, b, p⟩] ∧ (s.emit a b p).pending = s.pending ∧ (s.emit a b p).clk = s.clk
    ∧ (s.emit a b p).freeCtr = s.freeCtr ∧ (s.emit a b p).readData = s.readData ∧ (s.emit a b p).timers =
    s.timers ∧ (s.emit a b p).readEP = s.readEP ∧ (s.emit a b p).regs = s.regs ∧ (s.emit a b p).cfg = s.cfg ∧
    (s.emit a b p).alarms = s.alarms ∧ (s.emit a b p).times = s.times ∧ (s.emit a b p).hostIf = s.hostIf ∧
    (s.emit a b p).streams = s.streams ∧ (s.emit a b p).bands = s.bands ∧ (s.emit a b p).bandSeq = s.bandSeq ∧
    (s.emit a b p).ubase = s.ubase ∧ (s.emit a b p).uops = s.uops ∧ (s.emit a b p).heads = s.heads ∧ (s.emit a b
    p).trims = s.trims ∧ (s.emit a b p).otp = s.otp ∧ (s.emit a b p).pos = s.pos ∧ (s.emit a b p).fir = s.fir ∧
    (s.emit a b p).splice = s.splice ∧ (s.emit a b p).cord = s.cord ∧ (s.emit a b p).sent = s.sent ∧ (s.emit a b
    p).evts = s.evts ∧ (s.emit a b p).portQ = s.portQ ∧ (s.emit a b p).tabs = s.tabs ∧ (s.emit a b p).kiln =
    s.kiln ∧ (s.emit a b p).insp = s.insp ∧ (s.emit a b p).refs = s.refs ∧ (s.emit a b p).refNext = s.refNext ∧
    (s.emit a b p).buses = s.buses ∧ (s.emit a b p).headMem = s.headMem ∧ (s.emit a b p).power = s.power ∧
    (s.emit a b p).svc = s.svc ∧ (s.emit a b p).flashA = s.flashA ∧ (s.emit a b p).flashB = s.flashB ∧ (s.emit a
    b p).stokerMem = s.stokerMem ∧ (s.emit a b p).engineMem = s.engineMem ∧ (s.emit a b p).twin = s.twin ∧
    (s.emit a b p).serial = s.serial :=
  ⟨rfl, rfl, rfl, rfl, rfl, rfl, rfl, rfl, rfl, rfl, rfl, rfl, rfl, rfl, rfl, rfl, rfl, rfl, rfl, rfl, rfl, rfl,
  rfl, rfl, rfl, rfl, rfl, rfl, rfl, rfl, rfl, rfl, rfl, rfl, rfl, rfl, rfl, rfl, rfl, rfl, rfl, rfl⟩

/-- `sendFrame` writes `sent` and leaves the rest. -/
@[simp] theorem State.sendFrame_fields (s : State) (l k : Nat) (b : List Nat) :
    (s.sendFrame l k b).sent = s.sent ++ [⟨l, k, b⟩] ∧ (s.sendFrame l k b).pending = s.pending ∧ (s.sendFrame l
    k b).clk = s.clk ∧ (s.sendFrame l k b).freeCtr = s.freeCtr ∧ (s.sendFrame l k b).readData = s.readData ∧
    (s.sendFrame l k b).timers = s.timers ∧ (s.sendFrame l k b).readEP = s.readEP ∧ (s.sendFrame l k b).regs =
    s.regs ∧ (s.sendFrame l k b).cfg = s.cfg ∧ (s.sendFrame l k b).alarms = s.alarms ∧ (s.sendFrame l k b).out =
    s.out ∧ (s.sendFrame l k b).times = s.times ∧ (s.sendFrame l k b).hostIf = s.hostIf ∧ (s.sendFrame l k
    b).streams = s.streams ∧ (s.sendFrame l k b).bands = s.bands ∧ (s.sendFrame l k b).bandSeq = s.bandSeq ∧
    (s.sendFrame l k b).ubase = s.ubase ∧ (s.sendFrame l k b).uops = s.uops ∧ (s.sendFrame l k b).heads =
    s.heads ∧ (s.sendFrame l k b).trims = s.trims ∧ (s.sendFrame l k b).otp = s.otp ∧ (s.sendFrame l k b).pos =
    s.pos ∧ (s.sendFrame l k b).fir = s.fir ∧ (s.sendFrame l k b).splice = s.splice ∧ (s.sendFrame l k b).cord =
    s.cord ∧ (s.sendFrame l k b).evts = s.evts ∧ (s.sendFrame l k b).portQ = s.portQ ∧ (s.sendFrame l k b).tabs
    = s.tabs ∧ (s.sendFrame l k b).kiln = s.kiln ∧ (s.sendFrame l k b).insp = s.insp ∧ (s.sendFrame l k b).refs
    = s.refs ∧ (s.sendFrame l k b).refNext = s.refNext ∧ (s.sendFrame l k b).buses = s.buses ∧ (s.sendFrame l k
    b).headMem = s.headMem ∧ (s.sendFrame l k b).power = s.power ∧ (s.sendFrame l k b).svc = s.svc ∧
    (s.sendFrame l k b).flashA = s.flashA ∧ (s.sendFrame l k b).flashB = s.flashB ∧ (s.sendFrame l k
    b).stokerMem = s.stokerMem ∧ (s.sendFrame l k b).engineMem = s.engineMem ∧ (s.sendFrame l k b).twin = s.twin
    ∧ (s.sendFrame l k b).serial = s.serial :=
  ⟨rfl, rfl, rfl, rfl, rfl, rfl, rfl, rfl, rfl, rfl, rfl, rfl, rfl, rfl, rfl, rfl, rfl, rfl, rfl, rfl, rfl, rfl,
  rfl, rfl, rfl, rfl, rfl, rfl, rfl, rfl, rfl, rfl, rfl, rfl, rfl, rfl, rfl, rfl, rfl, rfl, rfl, rfl⟩

/-- `setHif` writes `hostIf` and leaves the rest. -/
@[simp] theorem State.setHif_fields (s : State) (h : HostIf) :
    (s.setHif h).hostIf = h ∧ (s.setHif h).pending = s.pending ∧ (s.setHif h).clk = s.clk ∧ (s.setHif h).freeCtr
    = s.freeCtr ∧ (s.setHif h).readData = s.readData ∧ (s.setHif h).timers = s.timers ∧ (s.setHif h).readEP =
    s.readEP ∧ (s.setHif h).regs = s.regs ∧ (s.setHif h).cfg = s.cfg ∧ (s.setHif h).alarms = s.alarms ∧
    (s.setHif h).out = s.out ∧ (s.setHif h).times = s.times ∧ (s.setHif h).streams = s.streams ∧ (s.setHif
    h).bands = s.bands ∧ (s.setHif h).bandSeq = s.bandSeq ∧ (s.setHif h).ubase = s.ubase ∧ (s.setHif h).uops =
    s.uops ∧ (s.setHif h).heads = s.heads ∧ (s.setHif h).trims = s.trims ∧ (s.setHif h).otp = s.otp ∧ (s.setHif
    h).pos = s.pos ∧ (s.setHif h).fir = s.fir ∧ (s.setHif h).splice = s.splice ∧ (s.setHif h).cord = s.cord ∧
    (s.setHif h).sent = s.sent ∧ (s.setHif h).evts = s.evts ∧ (s.setHif h).portQ = s.portQ ∧ (s.setHif h).tabs =
    s.tabs ∧ (s.setHif h).kiln = s.kiln ∧ (s.setHif h).insp = s.insp ∧ (s.setHif h).refs = s.refs ∧ (s.setHif
    h).refNext = s.refNext ∧ (s.setHif h).buses = s.buses ∧ (s.setHif h).headMem = s.headMem ∧ (s.setHif
    h).power = s.power ∧ (s.setHif h).svc = s.svc ∧ (s.setHif h).flashA = s.flashA ∧ (s.setHif h).flashB =
    s.flashB ∧ (s.setHif h).stokerMem = s.stokerMem ∧ (s.setHif h).engineMem = s.engineMem ∧ (s.setHif h).twin =
    s.twin ∧ (s.setHif h).serial = s.serial :=
  ⟨rfl, rfl, rfl, rfl, rfl, rfl, rfl, rfl, rfl, rfl, rfl, rfl, rfl, rfl, rfl, rfl, rfl, rfl, rfl, rfl, rfl, rfl,
  rfl, rfl, rfl, rfl, rfl, rfl, rfl, rfl, rfl, rfl, rfl, rfl, rfl, rfl, rfl, rfl, rfl, rfl, rfl, rfl⟩

/-- `setPos` writes `pos` and leaves the rest. -/
@[simp] theorem State.setPos_fields (s : State) (p : Pos) :
    (s.setPos p).pos = p ∧ (s.setPos p).pending = s.pending ∧ (s.setPos p).clk = s.clk ∧ (s.setPos p).freeCtr =
    s.freeCtr ∧ (s.setPos p).readData = s.readData ∧ (s.setPos p).timers = s.timers ∧ (s.setPos p).readEP =
    s.readEP ∧ (s.setPos p).regs = s.regs ∧ (s.setPos p).cfg = s.cfg ∧ (s.setPos p).alarms = s.alarms ∧
    (s.setPos p).out = s.out ∧ (s.setPos p).times = s.times ∧ (s.setPos p).hostIf = s.hostIf ∧ (s.setPos
    p).streams = s.streams ∧ (s.setPos p).bands = s.bands ∧ (s.setPos p).bandSeq = s.bandSeq ∧ (s.setPos
    p).ubase = s.ubase ∧ (s.setPos p).uops = s.uops ∧ (s.setPos p).heads = s.heads ∧ (s.setPos p).trims =
    s.trims ∧ (s.setPos p).otp = s.otp ∧ (s.setPos p).fir = s.fir ∧ (s.setPos p).splice = s.splice ∧ (s.setPos
    p).cord = s.cord ∧ (s.setPos p).sent = s.sent ∧ (s.setPos p).evts = s.evts ∧ (s.setPos p).portQ = s.portQ ∧
    (s.setPos p).tabs = s.tabs ∧ (s.setPos p).kiln = s.kiln ∧ (s.setPos p).insp = s.insp ∧ (s.setPos p).refs =
    s.refs ∧ (s.setPos p).refNext = s.refNext ∧ (s.setPos p).buses = s.buses ∧ (s.setPos p).headMem = s.headMem
    ∧ (s.setPos p).power = s.power ∧ (s.setPos p).svc = s.svc ∧ (s.setPos p).flashA = s.flashA ∧ (s.setPos
    p).flashB = s.flashB ∧ (s.setPos p).stokerMem = s.stokerMem ∧ (s.setPos p).engineMem = s.engineMem ∧
    (s.setPos p).twin = s.twin ∧ (s.setPos p).serial = s.serial :=
  ⟨rfl, rfl, rfl, rfl, rfl, rfl, rfl, rfl, rfl, rfl, rfl, rfl, rfl, rfl, rfl, rfl, rfl, rfl, rfl, rfl, rfl, rfl,
  rfl, rfl, rfl, rfl, rfl, rfl, rfl, rfl, rfl, rfl, rfl, rfl, rfl, rfl, rfl, rfl, rfl, rfl, rfl, rfl⟩

/-- `setFir` writes `fir` and leaves the rest. -/
@[simp] theorem State.setFir_fields (s : State) (f : Fir) :
    (s.setFir f).fir = f ∧ (s.setFir f).pending = s.pending ∧ (s.setFir f).clk = s.clk ∧ (s.setFir f).freeCtr =
    s.freeCtr ∧ (s.setFir f).readData = s.readData ∧ (s.setFir f).timers = s.timers ∧ (s.setFir f).readEP =
    s.readEP ∧ (s.setFir f).regs = s.regs ∧ (s.setFir f).cfg = s.cfg ∧ (s.setFir f).alarms = s.alarms ∧
    (s.setFir f).out = s.out ∧ (s.setFir f).times = s.times ∧ (s.setFir f).hostIf = s.hostIf ∧ (s.setFir
    f).streams = s.streams ∧ (s.setFir f).bands = s.bands ∧ (s.setFir f).bandSeq = s.bandSeq ∧ (s.setFir
    f).ubase = s.ubase ∧ (s.setFir f).uops = s.uops ∧ (s.setFir f).heads = s.heads ∧ (s.setFir f).trims =
    s.trims ∧ (s.setFir f).otp = s.otp ∧ (s.setFir f).pos = s.pos ∧ (s.setFir f).splice = s.splice ∧ (s.setFir
    f).cord = s.cord ∧ (s.setFir f).sent = s.sent ∧ (s.setFir f).evts = s.evts ∧ (s.setFir f).portQ = s.portQ ∧
    (s.setFir f).tabs = s.tabs ∧ (s.setFir f).kiln = s.kiln ∧ (s.setFir f).insp = s.insp ∧ (s.setFir f).refs =
    s.refs ∧ (s.setFir f).refNext = s.refNext ∧ (s.setFir f).buses = s.buses ∧ (s.setFir f).headMem = s.headMem
    ∧ (s.setFir f).power = s.power ∧ (s.setFir f).svc = s.svc ∧ (s.setFir f).flashA = s.flashA ∧ (s.setFir
    f).flashB = s.flashB ∧ (s.setFir f).stokerMem = s.stokerMem ∧ (s.setFir f).engineMem = s.engineMem ∧
    (s.setFir f).twin = s.twin ∧ (s.setFir f).serial = s.serial :=
  ⟨rfl, rfl, rfl, rfl, rfl, rfl, rfl, rfl, rfl, rfl, rfl, rfl, rfl, rfl, rfl, rfl, rfl, rfl, rfl, rfl, rfl, rfl,
  rfl, rfl, rfl, rfl, rfl, rfl, rfl, rfl, rfl, rfl, rfl, rfl, rfl, rfl, rfl, rfl, rfl, rfl, rfl, rfl⟩

/-- `setSplice` writes `splice` and leaves the rest. -/
@[simp] theorem State.setSplice_fields (s : State) (x : Splice) :
    (s.setSplice x).splice = x ∧ (s.setSplice x).pending = s.pending ∧ (s.setSplice x).clk = s.clk ∧
    (s.setSplice x).freeCtr = s.freeCtr ∧ (s.setSplice x).readData = s.readData ∧ (s.setSplice x).timers =
    s.timers ∧ (s.setSplice x).readEP = s.readEP ∧ (s.setSplice x).regs = s.regs ∧ (s.setSplice x).cfg = s.cfg ∧
    (s.setSplice x).alarms = s.alarms ∧ (s.setSplice x).out = s.out ∧ (s.setSplice x).times = s.times ∧
    (s.setSplice x).hostIf = s.hostIf ∧ (s.setSplice x).streams = s.streams ∧ (s.setSplice x).bands = s.bands ∧
    (s.setSplice x).bandSeq = s.bandSeq ∧ (s.setSplice x).ubase = s.ubase ∧ (s.setSplice x).uops = s.uops ∧
    (s.setSplice x).heads = s.heads ∧ (s.setSplice x).trims = s.trims ∧ (s.setSplice x).otp = s.otp ∧
    (s.setSplice x).pos = s.pos ∧ (s.setSplice x).fir = s.fir ∧ (s.setSplice x).cord = s.cord ∧ (s.setSplice
    x).sent = s.sent ∧ (s.setSplice x).evts = s.evts ∧ (s.setSplice x).portQ = s.portQ ∧ (s.setSplice x).tabs =
    s.tabs ∧ (s.setSplice x).kiln = s.kiln ∧ (s.setSplice x).insp = s.insp ∧ (s.setSplice x).refs = s.refs ∧
    (s.setSplice x).refNext = s.refNext ∧ (s.setSplice x).buses = s.buses ∧ (s.setSplice x).headMem = s.headMem
    ∧ (s.setSplice x).power = s.power ∧ (s.setSplice x).svc = s.svc ∧ (s.setSplice x).flashA = s.flashA ∧
    (s.setSplice x).flashB = s.flashB ∧ (s.setSplice x).stokerMem = s.stokerMem ∧ (s.setSplice x).engineMem =
    s.engineMem ∧ (s.setSplice x).twin = s.twin ∧ (s.setSplice x).serial = s.serial :=
  ⟨rfl, rfl, rfl, rfl, rfl, rfl, rfl, rfl, rfl, rfl, rfl, rfl, rfl, rfl, rfl, rfl, rfl, rfl, rfl, rfl, rfl, rfl,
  rfl, rfl, rfl, rfl, rfl, rfl, rfl, rfl, rfl, rfl, rfl, rfl, rfl, rfl, rfl, rfl, rfl, rfl, rfl, rfl⟩

/-- `setCord` writes `cord` and leaves the rest. -/
@[simp] theorem State.setCord_fields (s : State) (c : Cord) :
    (s.setCord c).cord = c ∧ (s.setCord c).pending = s.pending ∧ (s.setCord c).clk = s.clk ∧ (s.setCord
    c).freeCtr = s.freeCtr ∧ (s.setCord c).readData = s.readData ∧ (s.setCord c).timers = s.timers ∧ (s.setCord
    c).readEP = s.readEP ∧ (s.setCord c).regs = s.regs ∧ (s.setCord c).cfg = s.cfg ∧ (s.setCord c).alarms =
    s.alarms ∧ (s.setCord c).out = s.out ∧ (s.setCord c).times = s.times ∧ (s.setCord c).hostIf = s.hostIf ∧
    (s.setCord c).streams = s.streams ∧ (s.setCord c).bands = s.bands ∧ (s.setCord c).bandSeq = s.bandSeq ∧
    (s.setCord c).ubase = s.ubase ∧ (s.setCord c).uops = s.uops ∧ (s.setCord c).heads = s.heads ∧ (s.setCord
    c).trims = s.trims ∧ (s.setCord c).otp = s.otp ∧ (s.setCord c).pos = s.pos ∧ (s.setCord c).fir = s.fir ∧
    (s.setCord c).splice = s.splice ∧ (s.setCord c).sent = s.sent ∧ (s.setCord c).evts = s.evts ∧ (s.setCord
    c).portQ = s.portQ ∧ (s.setCord c).tabs = s.tabs ∧ (s.setCord c).kiln = s.kiln ∧ (s.setCord c).insp = s.insp
    ∧ (s.setCord c).refs = s.refs ∧ (s.setCord c).refNext = s.refNext ∧ (s.setCord c).buses = s.buses ∧
    (s.setCord c).headMem = s.headMem ∧ (s.setCord c).power = s.power ∧ (s.setCord c).svc = s.svc ∧ (s.setCord
    c).flashA = s.flashA ∧ (s.setCord c).flashB = s.flashB ∧ (s.setCord c).stokerMem = s.stokerMem ∧ (s.setCord
    c).engineMem = s.engineMem ∧ (s.setCord c).twin = s.twin ∧ (s.setCord c).serial = s.serial :=
  ⟨rfl, rfl, rfl, rfl, rfl, rfl, rfl, rfl, rfl, rfl, rfl, rfl, rfl, rfl, rfl, rfl, rfl, rfl, rfl, rfl, rfl, rfl,
  rfl, rfl, rfl, rfl, rfl, rfl, rfl, rfl, rfl, rfl, rfl, rfl, rfl, rfl, rfl, rfl, rfl, rfl, rfl, rfl⟩

/-- `setTabs` writes `tabs` and leaves the rest. -/
@[simp] theorem State.setTabs_fields (s : State) (t : Tables) :
    (s.setTabs t).tabs = t ∧ (s.setTabs t).pending = s.pending ∧ (s.setTabs t).clk = s.clk ∧ (s.setTabs
    t).freeCtr = s.freeCtr ∧ (s.setTabs t).readData = s.readData ∧ (s.setTabs t).timers = s.timers ∧ (s.setTabs
    t).readEP = s.readEP ∧ (s.setTabs t).regs = s.regs ∧ (s.setTabs t).cfg = s.cfg ∧ (s.setTabs t).alarms =
    s.alarms ∧ (s.setTabs t).out = s.out ∧ (s.setTabs t).times = s.times ∧ (s.setTabs t).hostIf = s.hostIf ∧
    (s.setTabs t).streams = s.streams ∧ (s.setTabs t).bands = s.bands ∧ (s.setTabs t).bandSeq = s.bandSeq ∧
    (s.setTabs t).ubase = s.ubase ∧ (s.setTabs t).uops = s.uops ∧ (s.setTabs t).heads = s.heads ∧ (s.setTabs
    t).trims = s.trims ∧ (s.setTabs t).otp = s.otp ∧ (s.setTabs t).pos = s.pos ∧ (s.setTabs t).fir = s.fir ∧
    (s.setTabs t).splice = s.splice ∧ (s.setTabs t).cord = s.cord ∧ (s.setTabs t).sent = s.sent ∧ (s.setTabs
    t).evts = s.evts ∧ (s.setTabs t).portQ = s.portQ ∧ (s.setTabs t).kiln = s.kiln ∧ (s.setTabs t).insp = s.insp
    ∧ (s.setTabs t).refs = s.refs ∧ (s.setTabs t).refNext = s.refNext ∧ (s.setTabs t).buses = s.buses ∧
    (s.setTabs t).headMem = s.headMem ∧ (s.setTabs t).power = s.power ∧ (s.setTabs t).svc = s.svc ∧ (s.setTabs
    t).flashA = s.flashA ∧ (s.setTabs t).flashB = s.flashB ∧ (s.setTabs t).stokerMem = s.stokerMem ∧ (s.setTabs
    t).engineMem = s.engineMem ∧ (s.setTabs t).twin = s.twin ∧ (s.setTabs t).serial = s.serial :=
  ⟨rfl, rfl, rfl, rfl, rfl, rfl, rfl, rfl, rfl, rfl, rfl, rfl, rfl, rfl, rfl, rfl, rfl, rfl, rfl, rfl, rfl, rfl,
  rfl, rfl, rfl, rfl, rfl, rfl, rfl, rfl, rfl, rfl, rfl, rfl, rfl, rfl, rfl, rfl, rfl, rfl, rfl, rfl⟩

/-- `setInsp` writes `insp` and leaves the rest. -/
@[simp] theorem State.setInsp_fields (s : State) (x : Insp) :
    (s.setInsp x).insp = x ∧ (s.setInsp x).pending = s.pending ∧ (s.setInsp x).clk = s.clk ∧ (s.setInsp
    x).freeCtr = s.freeCtr ∧ (s.setInsp x).readData = s.readData ∧ (s.setInsp x).timers = s.timers ∧ (s.setInsp
    x).readEP = s.readEP ∧ (s.setInsp x).regs = s.regs ∧ (s.setInsp x).cfg = s.cfg ∧ (s.setInsp x).alarms =
    s.alarms ∧ (s.setInsp x).out = s.out ∧ (s.setInsp x).times = s.times ∧ (s.setInsp x).hostIf = s.hostIf ∧
    (s.setInsp x).streams = s.streams ∧ (s.setInsp x).bands = s.bands ∧ (s.setInsp x).bandSeq = s.bandSeq ∧
    (s.setInsp x).ubase = s.ubase ∧ (s.setInsp x).uops = s.uops ∧ (s.setInsp x).heads = s.heads ∧ (s.setInsp
    x).trims = s.trims ∧ (s.setInsp x).otp = s.otp ∧ (s.setInsp x).pos = s.pos ∧ (s.setInsp x).fir = s.fir ∧
    (s.setInsp x).splice = s.splice ∧ (s.setInsp x).cord = s.cord ∧ (s.setInsp x).sent = s.sent ∧ (s.setInsp
    x).evts = s.evts ∧ (s.setInsp x).portQ = s.portQ ∧ (s.setInsp x).tabs = s.tabs ∧ (s.setInsp x).kiln = s.kiln
    ∧ (s.setInsp x).refs = s.refs ∧ (s.setInsp x).refNext = s.refNext ∧ (s.setInsp x).buses = s.buses ∧
    (s.setInsp x).headMem = s.headMem ∧ (s.setInsp x).power = s.power ∧ (s.setInsp x).svc = s.svc ∧ (s.setInsp
    x).flashA = s.flashA ∧ (s.setInsp x).flashB = s.flashB ∧ (s.setInsp x).stokerMem = s.stokerMem ∧ (s.setInsp
    x).engineMem = s.engineMem ∧ (s.setInsp x).twin = s.twin ∧ (s.setInsp x).serial = s.serial :=
  ⟨rfl, rfl, rfl, rfl, rfl, rfl, rfl, rfl, rfl, rfl, rfl, rfl, rfl, rfl, rfl, rfl, rfl, rfl, rfl, rfl, rfl, rfl,
  rfl, rfl, rfl, rfl, rfl, rfl, rfl, rfl, rfl, rfl, rfl, rfl, rfl, rfl, rfl, rfl, rfl, rfl, rfl, rfl⟩

/-- `setPower` writes `power` and leaves the rest. -/
@[simp] theorem State.setPower_fields (s : State) (p : Power) :
    (s.setPower p).power = p ∧ (s.setPower p).pending = s.pending ∧ (s.setPower p).clk = s.clk ∧ (s.setPower
    p).freeCtr = s.freeCtr ∧ (s.setPower p).readData = s.readData ∧ (s.setPower p).timers = s.timers ∧
    (s.setPower p).readEP = s.readEP ∧ (s.setPower p).regs = s.regs ∧ (s.setPower p).cfg = s.cfg ∧ (s.setPower
    p).alarms = s.alarms ∧ (s.setPower p).out = s.out ∧ (s.setPower p).times = s.times ∧ (s.setPower p).hostIf =
    s.hostIf ∧ (s.setPower p).streams = s.streams ∧ (s.setPower p).bands = s.bands ∧ (s.setPower p).bandSeq =
    s.bandSeq ∧ (s.setPower p).ubase = s.ubase ∧ (s.setPower p).uops = s.uops ∧ (s.setPower p).heads = s.heads ∧
    (s.setPower p).trims = s.trims ∧ (s.setPower p).otp = s.otp ∧ (s.setPower p).pos = s.pos ∧ (s.setPower
    p).fir = s.fir ∧ (s.setPower p).splice = s.splice ∧ (s.setPower p).cord = s.cord ∧ (s.setPower p).sent =
    s.sent ∧ (s.setPower p).evts = s.evts ∧ (s.setPower p).portQ = s.portQ ∧ (s.setPower p).tabs = s.tabs ∧
    (s.setPower p).kiln = s.kiln ∧ (s.setPower p).insp = s.insp ∧ (s.setPower p).refs = s.refs ∧ (s.setPower
    p).refNext = s.refNext ∧ (s.setPower p).buses = s.buses ∧ (s.setPower p).headMem = s.headMem ∧ (s.setPower
    p).svc = s.svc ∧ (s.setPower p).flashA = s.flashA ∧ (s.setPower p).flashB = s.flashB ∧ (s.setPower
    p).stokerMem = s.stokerMem ∧ (s.setPower p).engineMem = s.engineMem ∧ (s.setPower p).twin = s.twin ∧
    (s.setPower p).serial = s.serial :=
  ⟨rfl, rfl, rfl, rfl, rfl, rfl, rfl, rfl, rfl, rfl, rfl, rfl, rfl, rfl, rfl, rfl, rfl, rfl, rfl, rfl, rfl, rfl,
  rfl, rfl, rfl, rfl, rfl, rfl, rfl, rfl, rfl, rfl, rfl, rfl, rfl, rfl, rfl, rfl, rfl, rfl, rfl, rfl⟩

/-- `setSvc` writes `svc` and leaves the rest. -/
@[simp] theorem State.setSvc_fields (s : State) (v : Svc) :
    (s.setSvc v).svc = v ∧ (s.setSvc v).pending = s.pending ∧ (s.setSvc v).clk = s.clk ∧ (s.setSvc v).freeCtr =
    s.freeCtr ∧ (s.setSvc v).readData = s.readData ∧ (s.setSvc v).timers = s.timers ∧ (s.setSvc v).readEP =
    s.readEP ∧ (s.setSvc v).regs = s.regs ∧ (s.setSvc v).cfg = s.cfg ∧ (s.setSvc v).alarms = s.alarms ∧
    (s.setSvc v).out = s.out ∧ (s.setSvc v).times = s.times ∧ (s.setSvc v).hostIf = s.hostIf ∧ (s.setSvc
    v).streams = s.streams ∧ (s.setSvc v).bands = s.bands ∧ (s.setSvc v).bandSeq = s.bandSeq ∧ (s.setSvc
    v).ubase = s.ubase ∧ (s.setSvc v).uops = s.uops ∧ (s.setSvc v).heads = s.heads ∧ (s.setSvc v).trims =
    s.trims ∧ (s.setSvc v).otp = s.otp ∧ (s.setSvc v).pos = s.pos ∧ (s.setSvc v).fir = s.fir ∧ (s.setSvc
    v).splice = s.splice ∧ (s.setSvc v).cord = s.cord ∧ (s.setSvc v).sent = s.sent ∧ (s.setSvc v).evts = s.evts
    ∧ (s.setSvc v).portQ = s.portQ ∧ (s.setSvc v).tabs = s.tabs ∧ (s.setSvc v).kiln = s.kiln ∧ (s.setSvc v).insp
    = s.insp ∧ (s.setSvc v).refs = s.refs ∧ (s.setSvc v).refNext = s.refNext ∧ (s.setSvc v).buses = s.buses ∧
    (s.setSvc v).headMem = s.headMem ∧ (s.setSvc v).power = s.power ∧ (s.setSvc v).flashA = s.flashA ∧ (s.setSvc
    v).flashB = s.flashB ∧ (s.setSvc v).stokerMem = s.stokerMem ∧ (s.setSvc v).engineMem = s.engineMem ∧
    (s.setSvc v).twin = s.twin ∧ (s.setSvc v).serial = s.serial :=
  ⟨rfl, rfl, rfl, rfl, rfl, rfl, rfl, rfl, rfl, rfl, rfl, rfl, rfl, rfl, rfl, rfl, rfl, rfl, rfl, rfl, rfl, rfl,
  rfl, rfl, rfl, rfl, rfl, rfl, rfl, rfl, rfl, rfl, rfl, rfl, rfl, rfl, rfl, rfl, rfl, rfl, rfl, rfl⟩

/-- `setTwin` writes `twin` and leaves the rest. -/
@[simp] theorem State.setTwin_fields (s : State) (t : Twin) :
    (s.setTwin t).twin = t ∧ (s.setTwin t).pending = s.pending ∧ (s.setTwin t).clk = s.clk ∧ (s.setTwin
    t).freeCtr = s.freeCtr ∧ (s.setTwin t).readData = s.readData ∧ (s.setTwin t).timers = s.timers ∧ (s.setTwin
    t).readEP = s.readEP ∧ (s.setTwin t).regs = s.regs ∧ (s.setTwin t).cfg = s.cfg ∧ (s.setTwin t).alarms =
    s.alarms ∧ (s.setTwin t).out = s.out ∧ (s.setTwin t).times = s.times ∧ (s.setTwin t).hostIf = s.hostIf ∧
    (s.setTwin t).streams = s.streams ∧ (s.setTwin t).bands = s.bands ∧ (s.setTwin t).bandSeq = s.bandSeq ∧
    (s.setTwin t).ubase = s.ubase ∧ (s.setTwin t).uops = s.uops ∧ (s.setTwin t).heads = s.heads ∧ (s.setTwin
    t).trims = s.trims ∧ (s.setTwin t).otp = s.otp ∧ (s.setTwin t).pos = s.pos ∧ (s.setTwin t).fir = s.fir ∧
    (s.setTwin t).splice = s.splice ∧ (s.setTwin t).cord = s.cord ∧ (s.setTwin t).sent = s.sent ∧ (s.setTwin
    t).evts = s.evts ∧ (s.setTwin t).portQ = s.portQ ∧ (s.setTwin t).tabs = s.tabs ∧ (s.setTwin t).kiln = s.kiln
    ∧ (s.setTwin t).insp = s.insp ∧ (s.setTwin t).refs = s.refs ∧ (s.setTwin t).refNext = s.refNext ∧ (s.setTwin
    t).buses = s.buses ∧ (s.setTwin t).headMem = s.headMem ∧ (s.setTwin t).power = s.power ∧ (s.setTwin t).svc =
    s.svc ∧ (s.setTwin t).flashA = s.flashA ∧ (s.setTwin t).flashB = s.flashB ∧ (s.setTwin t).stokerMem =
    s.stokerMem ∧ (s.setTwin t).engineMem = s.engineMem ∧ (s.setTwin t).serial = s.serial :=
  ⟨rfl, rfl, rfl, rfl, rfl, rfl, rfl, rfl, rfl, rfl, rfl, rfl, rfl, rfl, rfl, rfl, rfl, rfl, rfl, rfl, rfl, rfl,
  rfl, rfl, rfl, rfl, rfl, rfl, rfl, rfl, rfl, rfl, rfl, rfl, rfl, rfl, rfl, rfl, rfl, rfl, rfl, rfl⟩

/-- `setHead` writes `heads` and leaves the rest. -/
@[simp] theorem State.setHead_fields (s : State) (h : Nat) (x : Head) :
    (s.setHead h x).heads = s.heads.set (fun _ => Head.reset) h x ∧ (s.setHead h x).pending = s.pending ∧
    (s.setHead h x).clk = s.clk ∧ (s.setHead h x).freeCtr = s.freeCtr ∧ (s.setHead h x).readData = s.readData ∧
    (s.setHead h x).timers = s.timers ∧ (s.setHead h x).readEP = s.readEP ∧ (s.setHead h x).regs = s.regs ∧
    (s.setHead h x).cfg = s.cfg ∧ (s.setHead h x).alarms = s.alarms ∧ (s.setHead h x).out = s.out ∧ (s.setHead h
    x).times = s.times ∧ (s.setHead h x).hostIf = s.hostIf ∧ (s.setHead h x).streams = s.streams ∧ (s.setHead h
    x).bands = s.bands ∧ (s.setHead h x).bandSeq = s.bandSeq ∧ (s.setHead h x).ubase = s.ubase ∧ (s.setHead h
    x).uops = s.uops ∧ (s.setHead h x).trims = s.trims ∧ (s.setHead h x).otp = s.otp ∧ (s.setHead h x).pos =
    s.pos ∧ (s.setHead h x).fir = s.fir ∧ (s.setHead h x).splice = s.splice ∧ (s.setHead h x).cord = s.cord ∧
    (s.setHead h x).sent = s.sent ∧ (s.setHead h x).evts = s.evts ∧ (s.setHead h x).portQ = s.portQ ∧ (s.setHead
    h x).tabs = s.tabs ∧ (s.setHead h x).kiln = s.kiln ∧ (s.setHead h x).insp = s.insp ∧ (s.setHead h x).refs =
    s.refs ∧ (s.setHead h x).refNext = s.refNext ∧ (s.setHead h x).buses = s.buses ∧ (s.setHead h x).headMem =
    s.headMem ∧ (s.setHead h x).power = s.power ∧ (s.setHead h x).svc = s.svc ∧ (s.setHead h x).flashA =
    s.flashA ∧ (s.setHead h x).flashB = s.flashB ∧ (s.setHead h x).stokerMem = s.stokerMem ∧ (s.setHead h
    x).engineMem = s.engineMem ∧ (s.setHead h x).twin = s.twin ∧ (s.setHead h x).serial = s.serial :=
  ⟨rfl, rfl, rfl, rfl, rfl, rfl, rfl, rfl, rfl, rfl, rfl, rfl, rfl, rfl, rfl, rfl, rfl, rfl, rfl, rfl, rfl, rfl,
  rfl, rfl, rfl, rfl, rfl, rfl, rfl, rfl, rfl, rfl, rfl, rfl, rfl, rfl, rfl, rfl, rfl, rfl, rfl, rfl⟩

/-- `setStrm` writes `streams` and leaves the rest. -/
@[simp] theorem State.setStrm_fields (s : State) (st : Nat) (x : Stream) :
    (s.setStrm st x).streams = s.streams.set (fun _ => Stream.reset) st x ∧ (s.setStrm st x).pending = s.pending
    ∧ (s.setStrm st x).clk = s.clk ∧ (s.setStrm st x).freeCtr = s.freeCtr ∧ (s.setStrm st x).readData =
    s.readData ∧ (s.setStrm st x).timers = s.timers ∧ (s.setStrm st x).readEP = s.readEP ∧ (s.setStrm st x).regs
    = s.regs ∧ (s.setStrm st x).cfg = s.cfg ∧ (s.setStrm st x).alarms = s.alarms ∧ (s.setStrm st x).out = s.out
    ∧ (s.setStrm st x).times = s.times ∧ (s.setStrm st x).hostIf = s.hostIf ∧ (s.setStrm st x).bands = s.bands ∧
    (s.setStrm st x).bandSeq = s.bandSeq ∧ (s.setStrm st x).ubase = s.ubase ∧ (s.setStrm st x).uops = s.uops ∧
    (s.setStrm st x).heads = s.heads ∧ (s.setStrm st x).trims = s.trims ∧ (s.setStrm st x).otp = s.otp ∧
    (s.setStrm st x).pos = s.pos ∧ (s.setStrm st x).fir = s.fir ∧ (s.setStrm st x).splice = s.splice ∧
    (s.setStrm st x).cord = s.cord ∧ (s.setStrm st x).sent = s.sent ∧ (s.setStrm st x).evts = s.evts ∧
    (s.setStrm st x).portQ = s.portQ ∧ (s.setStrm st x).tabs = s.tabs ∧ (s.setStrm st x).kiln = s.kiln ∧
    (s.setStrm st x).insp = s.insp ∧ (s.setStrm st x).refs = s.refs ∧ (s.setStrm st x).refNext = s.refNext ∧
    (s.setStrm st x).buses = s.buses ∧ (s.setStrm st x).headMem = s.headMem ∧ (s.setStrm st x).power = s.power ∧
    (s.setStrm st x).svc = s.svc ∧ (s.setStrm st x).flashA = s.flashA ∧ (s.setStrm st x).flashB = s.flashB ∧
    (s.setStrm st x).stokerMem = s.stokerMem ∧ (s.setStrm st x).engineMem = s.engineMem ∧ (s.setStrm st x).twin
    = s.twin ∧ (s.setStrm st x).serial = s.serial :=
  ⟨rfl, rfl, rfl, rfl, rfl, rfl, rfl, rfl, rfl, rfl, rfl, rfl, rfl, rfl, rfl, rfl, rfl, rfl, rfl, rfl, rfl, rfl,
  rfl, rfl, rfl, rfl, rfl, rfl, rfl, rfl, rfl, rfl, rfl, rfl, rfl, rfl, rfl, rfl, rfl, rfl, rfl, rfl⟩

/-- `setBand` writes `bands` and leaves the rest. -/
@[simp] theorem State.setBand_fields (s : State) (q : Nat) (b : Band) :
    (s.setBand q b).bands = s.bands.set (fun _ => Band.none) q b ∧ (s.setBand q b).pending = s.pending ∧
    (s.setBand q b).clk = s.clk ∧ (s.setBand q b).freeCtr = s.freeCtr ∧ (s.setBand q b).readData = s.readData ∧
    (s.setBand q b).timers = s.timers ∧ (s.setBand q b).readEP = s.readEP ∧ (s.setBand q b).regs = s.regs ∧
    (s.setBand q b).cfg = s.cfg ∧ (s.setBand q b).alarms = s.alarms ∧ (s.setBand q b).out = s.out ∧ (s.setBand q
    b).times = s.times ∧ (s.setBand q b).hostIf = s.hostIf ∧ (s.setBand q b).streams = s.streams ∧ (s.setBand q
    b).bandSeq = s.bandSeq ∧ (s.setBand q b).ubase = s.ubase ∧ (s.setBand q b).uops = s.uops ∧ (s.setBand q
    b).heads = s.heads ∧ (s.setBand q b).trims = s.trims ∧ (s.setBand q b).otp = s.otp ∧ (s.setBand q b).pos =
    s.pos ∧ (s.setBand q b).fir = s.fir ∧ (s.setBand q b).splice = s.splice ∧ (s.setBand q b).cord = s.cord ∧
    (s.setBand q b).sent = s.sent ∧ (s.setBand q b).evts = s.evts ∧ (s.setBand q b).portQ = s.portQ ∧ (s.setBand
    q b).tabs = s.tabs ∧ (s.setBand q b).kiln = s.kiln ∧ (s.setBand q b).insp = s.insp ∧ (s.setBand q b).refs =
    s.refs ∧ (s.setBand q b).refNext = s.refNext ∧ (s.setBand q b).buses = s.buses ∧ (s.setBand q b).headMem =
    s.headMem ∧ (s.setBand q b).power = s.power ∧ (s.setBand q b).svc = s.svc ∧ (s.setBand q b).flashA =
    s.flashA ∧ (s.setBand q b).flashB = s.flashB ∧ (s.setBand q b).stokerMem = s.stokerMem ∧ (s.setBand q
    b).engineMem = s.engineMem ∧ (s.setBand q b).twin = s.twin ∧ (s.setBand q b).serial = s.serial :=
  ⟨rfl, rfl, rfl, rfl, rfl, rfl, rfl, rfl, rfl, rfl, rfl, rfl, rfl, rfl, rfl, rfl, rfl, rfl, rfl, rfl, rfl, rfl,
  rfl, rfl, rfl, rfl, rfl, rfl, rfl, rfl, rfl, rfl, rfl, rfl, rfl, rfl, rfl, rfl, rfl, rfl, rfl, rfl⟩

/-- `setEvt` writes `evts` and leaves the rest. -/
@[simp] theorem State.setEvt_fields (s : State) (n : Nat) (e : Evt) :
    (s.setEvt n e).evts = s.evts.set (fun _ => Evt.reset) n e ∧ (s.setEvt n e).pending = s.pending ∧ (s.setEvt n
    e).clk = s.clk ∧ (s.setEvt n e).freeCtr = s.freeCtr ∧ (s.setEvt n e).readData = s.readData ∧ (s.setEvt n
    e).timers = s.timers ∧ (s.setEvt n e).readEP = s.readEP ∧ (s.setEvt n e).regs = s.regs ∧ (s.setEvt n e).cfg
    = s.cfg ∧ (s.setEvt n e).alarms = s.alarms ∧ (s.setEvt n e).out = s.out ∧ (s.setEvt n e).times = s.times ∧
    (s.setEvt n e).hostIf = s.hostIf ∧ (s.setEvt n e).streams = s.streams ∧ (s.setEvt n e).bands = s.bands ∧
    (s.setEvt n e).bandSeq = s.bandSeq ∧ (s.setEvt n e).ubase = s.ubase ∧ (s.setEvt n e).uops = s.uops ∧
    (s.setEvt n e).heads = s.heads ∧ (s.setEvt n e).trims = s.trims ∧ (s.setEvt n e).otp = s.otp ∧ (s.setEvt n
    e).pos = s.pos ∧ (s.setEvt n e).fir = s.fir ∧ (s.setEvt n e).splice = s.splice ∧ (s.setEvt n e).cord =
    s.cord ∧ (s.setEvt n e).sent = s.sent ∧ (s.setEvt n e).portQ = s.portQ ∧ (s.setEvt n e).tabs = s.tabs ∧
    (s.setEvt n e).kiln = s.kiln ∧ (s.setEvt n e).insp = s.insp ∧ (s.setEvt n e).refs = s.refs ∧ (s.setEvt n
    e).refNext = s.refNext ∧ (s.setEvt n e).buses = s.buses ∧ (s.setEvt n e).headMem = s.headMem ∧ (s.setEvt n
    e).power = s.power ∧ (s.setEvt n e).svc = s.svc ∧ (s.setEvt n e).flashA = s.flashA ∧ (s.setEvt n e).flashB =
    s.flashB ∧ (s.setEvt n e).stokerMem = s.stokerMem ∧ (s.setEvt n e).engineMem = s.engineMem ∧ (s.setEvt n
    e).twin = s.twin ∧ (s.setEvt n e).serial = s.serial :=
  ⟨rfl, rfl, rfl, rfl, rfl, rfl, rfl, rfl, rfl, rfl, rfl, rfl, rfl, rfl, rfl, rfl, rfl, rfl, rfl, rfl, rfl, rfl,
  rfl, rfl, rfl, rfl, rfl, rfl, rfl, rfl, rfl, rfl, rfl, rfl, rfl, rfl, rfl, rfl, rfl, rfl, rfl, rfl⟩

/-- `answer` writes `readData` and `readEP` and leaves the rest. -/
@[simp] theorem State.answer_fields (s : State) (v : Nat) (ep : Bool) :
    (s.answer v ep).readData = BitVec.ofNat 64 v ∧ (s.answer v ep).readEP = ep ∧ (s.answer v ep).pending =
    s.pending ∧ (s.answer v ep).clk = s.clk ∧ (s.answer v ep).freeCtr = s.freeCtr ∧ (s.answer v ep).timers =
    s.timers ∧ (s.answer v ep).regs = s.regs ∧ (s.answer v ep).cfg = s.cfg ∧ (s.answer v ep).alarms = s.alarms ∧
    (s.answer v ep).out = s.out ∧ (s.answer v ep).times = s.times ∧ (s.answer v ep).hostIf = s.hostIf ∧
    (s.answer v ep).streams = s.streams ∧ (s.answer v ep).bands = s.bands ∧ (s.answer v ep).bandSeq = s.bandSeq
    ∧ (s.answer v ep).ubase = s.ubase ∧ (s.answer v ep).uops = s.uops ∧ (s.answer v ep).heads = s.heads ∧
    (s.answer v ep).trims = s.trims ∧ (s.answer v ep).otp = s.otp ∧ (s.answer v ep).pos = s.pos ∧ (s.answer v
    ep).fir = s.fir ∧ (s.answer v ep).splice = s.splice ∧ (s.answer v ep).cord = s.cord ∧ (s.answer v ep).sent =
    s.sent ∧ (s.answer v ep).evts = s.evts ∧ (s.answer v ep).portQ = s.portQ ∧ (s.answer v ep).tabs = s.tabs ∧
    (s.answer v ep).kiln = s.kiln ∧ (s.answer v ep).insp = s.insp ∧ (s.answer v ep).refs = s.refs ∧ (s.answer v
    ep).refNext = s.refNext ∧ (s.answer v ep).buses = s.buses ∧ (s.answer v ep).headMem = s.headMem ∧ (s.answer
    v ep).power = s.power ∧ (s.answer v ep).svc = s.svc ∧ (s.answer v ep).flashA = s.flashA ∧ (s.answer v
    ep).flashB = s.flashB ∧ (s.answer v ep).stokerMem = s.stokerMem ∧ (s.answer v ep).engineMem = s.engineMem ∧
    (s.answer v ep).twin = s.twin ∧ (s.answer v ep).serial = s.serial :=
  ⟨rfl, rfl, rfl, rfl, rfl, rfl, rfl, rfl, rfl, rfl, rfl, rfl, rfl, rfl, rfl, rfl, rfl, rfl, rfl, rfl, rfl, rfl,
  rfl, rfl, rfl, rfl, rfl, rfl, rfl, rfl, rfl, rfl, rfl, rfl, rfl, rfl, rfl, rfl, rfl, rfl, rfl, rfl⟩

/-- A register reads back what was put into it. -/
theorem State.reg_setReg_same {s : State} (h : SMap.wf regReset s.regs = true) (a : Nat) (v : Word) :
    (s.setReg a v).reg a = v := SMap.get_set_eq a v h

/-- Every other register stands. -/
theorem State.reg_setReg_ne (s : State) {a b : Nat} (v : Word) (h : b ≠ a) : (s.setReg a v).reg b = s.reg b :=
  SMap.get_set_ne _ v h

/-- `setFld` is a write of its register. -/
theorem State.setFld_def (s : State) (f : Fld) (x : Nat) :
    s.setFld f x = s.setReg f.addr (putBits (s.reg f.addr) f.lo f.width x) := rfl

/-- A field reads back what was put into it, cut to its width. -/
theorem State.fld_setFld_same {s : State} (h : SMap.wf regReset s.regs = true) (f : Fld) (x : Nat)
    (hf : f.lo + f.width ≤ 32) : (s.setFld f x).fld f = x % 2 ^ f.width := by
  unfold State.fld State.setFld
  rw [State.reg_setReg_same h, bitsOf_putBits _ _ _ _ hf]

/-- A field of another register stands. -/
theorem State.fld_setFld_ne (s : State) (f g : Fld) (x : Nat) (h : g.addr ≠ f.addr) : (s.setFld f x).fld g = s.fld g := by
  unfold State.fld State.setFld
  rw [State.reg_setReg_ne s _ h]

/-- A field of the same register beside it stands. -/
theorem State.fld_setFld_beside {s : State} (hw : SMap.wf regReset s.regs = true) (f g : Fld) (x : Nat) (ha : g.addr = f.addr)
    (hd : f.lo + f.width ≤ g.lo ∨ g.lo + g.width ≤ f.lo) (hf : f.lo + f.width ≤ 32) :
    (s.setFld f x).fld g = s.fld g := by
  unfold State.fld State.setFld
  rw [ha, State.reg_setReg_same hw, bitsOf_putBits_beside _ _ _ _ _ _ hd hf]

/-- A field of another register than the one written stands. -/
theorem State.fld_setReg_ne (s : State) {a : Nat} (v : Word) (g : Fld) (h : g.addr ≠ a) : (s.setReg a v).fld g = s.fld g := by
  unfold State.fld
  rw [State.reg_setReg_ne s _ h]

/-- `setFld` leaves every register but its own. -/
theorem State.reg_setFld_ne (s : State) (f : Fld) (x : Nat) {a : Nat} (h : a ≠ f.addr) : (s.setFld f x).reg a = s.reg a :=
  State.reg_setReg_ne s _ h

end Sys2Proof.Machine
end

