-- ==== Sys2Proof/Machine/Pins.lean ====
section
/-! DEFINITION. What the pins show that no register holds (R246, R378). The head port pairs, LAT and FIRE, the event pins, ENCO and
TWIN_ALIVE_OUT stand with their own blocks. -/

namespace Sys2Proof.Machine

open Sys2Proof

/-- Outputs other than HOLD_N are powered: not in Banked (R378). -/
def State.powered (s : State) : Bool := s.fld PWR_STAT_STATE != 3

/-- HOLD_N is high. -/
def State.holdPin (s : State) : Bool := s.powered && !s.holdLow

/-- The level of REV_N, none at high impedance: a chip of a pair drives it only as acting transport master (R246, R247, R378). -/
def State.revPin (s : State) : Option Bool :=
  if !s.powered || s.twinStrap && !s.actMaster then none else some (!s.revLow)

/-- The level of trim channel `n` in codes, none at high impedance (R353, R378). -/
def State.trimPin (s : State) (n : Nat) : Option Nat :=
  if s.powered && s.on (TRM_OUT_DRIVEN n) then some (s.fld (TRM_OUT_OUT n)) else none

/-- The drivers of port `h` are enabled: MODE has been set to DRIVE or TEST since the reset (R182, R378). Its data lanes are driven only while
it is not idle (State.lanesOn). -/
def State.portDrivers (s : State) (h : Nat) : Bool := s.powered && s.fld (HPT_CTL_MODE h) % 2 == 1

/-- The Cord and the twin link transmitters are at electrical idle. -/
def State.cordIdle (s : State) : Bool := !s.awake || !s.on CRD_CTL_EN
def State.twinIdle (s : State) : Bool := !s.twinOn

/-- SCL and SDA of head management bus `b` are released: Hearth runs no transaction on it. -/
def State.busReleased (s : State) (b : Nat) : Bool :=
  !s.powered || (s.buses.get (fun _ => 0) b == 0 && !(s.svc.page && s.reqField 0 1 / 8 == b))

/-- QSPI CS_N is high: Kindling has not been at the flash since the reset. -/
def State.qspiHigh (s : State) : Bool := s.powered && !s.svc.qspi

/-- LPDDR5X RESET_N is asserted and CKE low: until step 5 of the release. -/
def State.dramHeld (s : State) : Bool := !s.powered || decide (s.fld RST_STAT_STEP < 5)

end Sys2Proof.Machine
end

