-- ==== Sys2Proof/Tests/Slice0.lean ====
section
/-! SUPPORT. The model's own tests: ill-formed commands, small runs of one command whose expected results are the spec's, and for
each statement of `Sys2Proof/Certificates/Slice0/Obligations.lean` the concrete states and operands that meet the hypotheses of
each of its clauses (`test_hyps_<statement>`, one conjunct per clause). -/

namespace Sys2Proof.Tests

open Sys2Proof Sys2Proof.Machine

set_option maxRecDepth 8000
set_option linter.unusedVariables false

/-! ### Well-formedness: for each check a command that it refuses -/

/-- A descriptor or command of opcode 0 is of none of the kinds that the other commands name. -/
theorem test_wf_descriptors :
    [Instr.band 0 0#256, .mark 0 0#256, .fence 0 0#256, .table 0 0#256, .strip 0 0#256, .scheduleEvent 0 0#256, .badopc 0 1#256].all
      (fun c => !c.wellFormed) = true := by decide

theorem test_wf_commands :
    [Instr.arm 0#256, .disarm 0#256, .restart 0#256, .skip 0#256, .status 0#256, .nop 0#256, .badcmd 6#256].all
      (fun c => !c.wellFormed) = true := by decide

theorem test_wf_data_lengths :
    (Instr.tableRecordReadDone 0 true (List.replicate 257 0#128)).wellFormed = false ∧
    (Instr.bandDataReadIssue 0 0#13).wellFormed = false ∧ (Instr.bandDataReadIssue 0 4097#13).wellFormed = false ∧
    (Instr.batch 0 ⟨0#8, 0#8⟩ 0#40 (List.replicate 9 0#128)).wellFormed = false ∧
    (Instr.batchres 0 ⟨0#8, 0#8⟩ (List.replicate 9 0#8)).wellFormed = false ∧
    (Instr.entriesFrame 0 ⟨0#8, List.replicate 21 0#96⟩).wellFormed = false ∧
    (Instr.joinFrame 0 ⟨0#8, 0#8⟩ 0#32 0#32 0#32 (List.replicate 129 0#96)).wellFormed = false := by decide

theorem test_wf_band_data (d : List (BitVec 9)) (h : d.length = 4097) : (Instr.bandDataArrival 0 true d).wellFormed = false := by
  simp [Instr.wellFormed, h]

theorem test_wf_refetch_data (d : List (BitVec 9)) (h : d.length = 65540) : (Instr.refetchDone 0 0 true d).wellFormed = false := by
  simp [Instr.wellFormed, h]

theorem test_wf_accesses :
    [Instr.nztWindowWrite 0 0#20 0 0#32, .curveMatrixWindowWrite 0 0#20 0 0#32, .registerWrite 0 ⟨1, 4096#22⟩ 4 0#64 false, .registerWrite 0 ⟨2, 0#22⟩ 4 0#64 false,
     .clearingRead 0 ⟨0, 4194304#26⟩ 4, .clearingRead 0 ⟨2, 4096#26⟩ 4].all (fun c => !c.wellFormed) = true := by decide

theorem test_wf_frames :
    [Instr.propose 0 ⟨0#8, 0#8⟩ 0 0#64 0#40 0#32, .agree 0 ⟨0#8, 0#8⟩ 0 0#40, .headrec 0 ⟨0#8, 0#8⟩ 0 1#13 0#1024, .pwrReqRun 0 1#32, .pwrReqReady 0 0#32,
     .pwrReqSmoulder 0 0#32].all (fun c => !c.wellFormed) = true := by decide

/-! ### States to start from -/

/-- A chip in Run, out of reset. -/
def W : State := (({ State.reset with clk := 1000000000 } : State).setFld RST_STAT_STEP 7).setOn RST_STAT_DONE
/-- `s` with its HostIf part changed. -/
def upHostIf (s : State) (f : HostIf → HostIf) : State := { s with hostIf := f s.hostIf }
/-- `s` with its Twin part changed. -/
def upTwin (s : State) (f : Twin → Twin) : State := { s with twin := f s.twin }
/-- `s` with its Svc part changed. -/
def upSvc (s : State) (f : Svc → Svc) : State := { s with svc := f s.svc }
/-- `s` with its Power part changed. -/
def upPower (s : State) (f : Power → Power) : State := { s with power := f s.power }
/-- `s` with its Cord part changed. -/
def upCord (s : State) (f : Cord → Cord) : State := { s with cord := f s.cord }
/-- `s` with its Pos part changed. -/
def upPos (s : State) (f : Pos → Pos) : State := { s with pos := f s.pos }
/-- `s` with its Fir part changed. -/
def upFir (s : State) (f : Fir → Fir) : State := { s with fir := f s.fir }
/-- `s` with its Splice part changed. -/
def upSplice (s : State) (f : Splice → Splice) : State := { s with splice := f s.splice }
/-- `s` with its Trims part changed. -/
def upTrims (s : State) (f : Trims → Trims) : State := { s with trims := f s.trims }
/-- Stream 0 runs, with `p` entries to fetch. -/
def witFetch (s : State) (p : Nat) : State :=
  ((s.setOn HIF_CTL_BME).setFld (STR_STATE_STATE 0) stRUN).modStrm 0 (fun x => { x with prod := BitVec.ofNat 32 p })
/-- A request of record code `c` at the table port: its further bytes, then zeros to `n` bytes. -/
def witReq (c : Nat) (more : List Byte := []) (n : Nat := 16) : PortReq :=
  ⟨.bar0, (BitVec.ofNat 8 c :: more ++ List.replicate n 0#8).take n, none, false, 0, false⟩
/-- A record count of 1, behind zeros. -/
def witOne : List Byte := List.replicate 11 0#8 ++ [1#8]
/-- A job in which head unit 0 is live and enabled, bound to stream 0 with an elastic partition of 16 MiB. -/
def witJob (s : State) : State :=
  (((((((s.setOn HIF_CTL_ARMED).setOn (UNT_BIND_BOUND 0)).setOn (SWS_PCTL_CLAIMED 0)).setFld (SWS_PCTL_KIND 0) pkELASTIC).setFld
    (SWS_PSIZE_SIZE 0) 16).setFld FIR_STATE_NOORG 0).setOn POS_STATE_TRUST).modHead 0 (fun x => { x with live := true, skip := false })
/-- The state is ready to arm. -/
def witReady (s : State) : State :=
  ((((((s.setOn SYS_CAPS_DRAMOK).setFld SYS_CAPS_STORE 1).setFld SWS_CAP_USABLE 7168).setOn (SWS_PCTL_CLAIMED 0)).setFld (SWS_PCTL_KIND 0)
    pkSTAGING).setFld (SWS_PSIZE_SIZE 0) 16).setOn (HIF_CQCTL_EN 0)
/-- A descriptor of entry 0. -/
def witDesc (raw : BitVec 256) (p : Phase) : Desc := ⟨0, raw, p, 0, false, 0, 0#32, 1, 0, 0, [], 0, false, [], 0, true, 0⟩
def witStrm (s : State) (ds : List Desc) : State := s.modStrm 0 (fun x => { x with descs := ds })
/-- A job with 16 blend groups in use. -/
def witGroups (s : State) : State :=
  (witJob s).setTabs { s.tabs with ents := [(1, ⟨zeroWord, zeroWord, (List.range 16).map (fun i => ⟨100 + i, 4, zeroWord, zeroWord⟩), 0⟩)] }
/-- The same with head unit 0 enabled, and its port in DRIVE. -/
def witEn (s : State) : State := ({ witJob s with ubase := [(UNT_CTL 0, 0x1FF01#32)] } : State).setFld (HPT_CTL_MODE 0) 1
def witBand : Band := ⟨0, 0, 4, 0, 64, 1, 0, false, 256, List.replicate 4 (List.replicate 64 5#9), true, false, 0, [], [], 0, 0, []⟩
/-- The twin is on, its link up, in role `r`. -/
def witTwin (s : State) (r : Nat := 0) : State :=
  (((s.setFld SYS_CAPS_TWIN 1).setOn TWN_CTL_EN).setOn TWN_LINKST_UP).setFld TWN_STATE_ROLE r
/-- The transport sequence of an armed master is in state `q`. -/
def witSeq (s : State) (q : Nat) : State := ((s.setOn HIF_CTL_ARMED).setOn TRN_CTL_MASTER).setFld TRN_STATE_SEQ q
/-- An authorisation of operation `op` is armed. -/
def witAuth (s : State) (op : Nat) : State := (s.setFld SVC_ASTAT_STATE auARMED).setFld SVC_ASTAT_OP op
/-- Camera 0 runs. -/
def witCam (s : State) (f : Cam → Cam) : State := (s.setOn (CAM_CTL_EN 0)).setCam 0 (f (s.cam 0))
def witTrig : Trig := ⟨0#32, 0, 0, 0, 0, false, false⟩
def witFrame : CamFrame := ⟨0, 0#32, 64, 4, 0, [], 0, 0, none, true, 0, 0⟩
/-- The store is there, 7,168 MiB of it. -/
def witStore (s : State) : State := ((s.setOn SYS_CAPS_DRAMOK).setFld SYS_CAPS_STORE 1).setFld SWS_CAP_USABLE 7168
/-- The firmware runs. -/
def witFw (s : State) : State := (witStore s).setFld SVC_BOOTST_STATE bsRUNNING
/-- Word 0 of the store and word 2: the header of an image of 128 bytes. -/
def witImg (s : State) : State :=
  { s with tabs := { s.tabs with store := [(0, MWord.clean 0x6420000157465A44#64), (2, MWord.clean 128#64)] } }
/-- Slot A of the flash holds the header of an image of 128 bytes. -/
def witFlash (s : State) : State :=
  { s with flashA := [0x44#8, 0x5A#8, 0x46#8, 0x57#8, 1#8, 0#8, 0x20#8, 0x64#8] ++ List.replicate 8 0#8 ++ [128#8] ++ List.replicate 111 0#8 }

/-! ### Single commands -/

/-- What a command leaves, or the state before it where it gives none. -/
def after (c : Instr) (s : State) : State := match exec c s with | .next t => t | _ => s

/-- R25: the DZ6420-C. -/
theorem test_reset_sys_id : State.reset.reg SYS_ID = 0x64200010#32 := by decide

/-- R46: vendor 1C5Eh, device 6420h. -/
theorem test_reset_pci_id : cfgReset 0 = 0x64201C5E#32 := by decide

/-- R6: a one-byte write leaves the other bytes. -/
theorem test_register_write_byte :
    (after (.registerWrite 0 ⟨0, BitVec.ofNat 22 (POS_REVWIN + 1)⟩ 1 0x12#64 false) (W.setReg POS_REVWIN 0x00345678#32)).reg POS_REVWIN =
      0x00341278#32 := by decide

/-- R207: A rises after B, in the forward sense, and the counter counts up. -/
theorem test_encoder_up :
    (after (.encoderTransition 0 0 true ⟨false, 255#8⟩) (upPos (W.setFld POS_CTL_CHEN 1) (fun x => { x with ab := [(0, 0)] }))).pos.t =
      1 := by decide

/-- R288: four core clocks are 10 ns of press time. -/
theorem test_press_time_advances : (W.advance (W.clk + 4)).tb0 = W.tb0 + 10#32 := by decide

/-- R291: TIM_SET takes effect at the next core clock. -/
theorem test_tim_set_next_clock :
    (after (.timSet 0 1 77#32) W).tb 1 = W.tb 1 ∧ ((after (.timSet 0 1 77#32) W).advance (W.clk + 1)).tb 1 = 77#32 := by decide

/-- R379: a write of SYS_RESET with another key than 5Ah is discarded. -/
theorem test_sys_reset_needs_key : after (.sysReset 0 1#32) W = W.advance 0 := by decide

/-- The empty queue lets one core clock pass. -/
theorem test_step_empty_ticks : Machine.step W = .next (W.advance (W.clk + 1)) := rfl

/-! ### The hypotheses of the statements can be met -/

theorem test_hyps_StepRunsFrontCommand :
    (∃ (c : Instr) (cs : List Instr) (s : State), s.pending = c :: cs) :=
  ⟨(.refloss 0), [], (({ W with pending := (.refloss 0) :: ([]) } : State)), by decide⟩

theorem test_hyps_EmptyQueueTicks :
    (∃ (s : State), s.pending = [] ∧ s.fld PWR_STAT_STATE ≤ 1) ∧
    (∃ (s : State), s.pending = [] ∧ 1 < s.fld PWR_STAT_STATE) :=
  ⟨⟨(({ W with pending := [] } : State)), by decide, by decide⟩,
    ⟨(W.setFld PWR_STAT_STATE 2), by decide, by decide⟩⟩

theorem test_hyps_EveryStepKeepsCanonicalForm :
    (∃ (s : State) (t : State), s.canonical ∧ step s = .next t) :=
  ⟨(W), _, by unfold State.canonical; decide, rfl⟩

theorem test_hyps_WellFormedCommandsComplete :
    (∃ (c : Instr) (s : State), c.wellFormed = true) ∧
    (∃ (c : Instr) (cs : List Instr) (s : State), s.pending = c :: cs ∧ c.wellFormed = true) ∧
    (∃ (c : Instr) (s : State) (f : Fault), exec c s = .fault f) :=
  ⟨⟨(.refloss 0), (W), by decide⟩,
    ⟨(.refloss 0), [], (({ W with pending := (.refloss 0) :: ([]) } : State)), by decide, by decide⟩,
    ⟨(.badopc 0 1#256), (W), _, rfl⟩⟩

theorem test_hyps_ExecLeavesQueueAndSerial :
    (∃ (c : Instr) (s : State) (t : State), exec c s = .next t) :=
  ⟨(.refloss 0), (W), _, rfl⟩

theorem test_hyps_TimeAndOutputOnlyGrow :
    (∃ (s : State) (t : State), step s = .next t) ∧
    (∃ (s : State) (t : State), s.pending = [] ∧ step s = .next t) :=
  ⟨⟨(W), _, rfl⟩,
    ⟨(({ W with pending := [] } : State)), _, by decide, rfl⟩⟩

theorem test_hyps_RefusalsAndCountsAreKept :
    (∃ (s : State) (e : Nat) (c : Nat) (a : Nat), (s.reg e).getLsbD 31 = true) ∧
    (∃ (s : State) (e : Nat) (c : Nat) (a : Nat), s.canonical ∧ (s.reg e).getLsbD 31 = false ∧ c < 256 ∧ a < 2 ^ 22) ∧
    (∃ (s : State) (e : Nat) (c : Nat) (a : Nat) (b : Nat), b ≠ e) ∧
    (∃ (s : State) (f : Fld) (n : Nat) (i : Nat), s.canonical ∧ 0 < f.width ∧ f.lo + f.width ≤ 32 ∧
      (i < f.lo ∨ f.lo + f.width ≤ i)) ∧
    (∃ (s : State) (f : Fld) (n : Nat) (a : Nat), s.canonical ∧ 0 < f.width ∧ f.lo + f.width ≤ 32 ∧ a ≠ f.addr) :=
  ⟨⟨(W.setReg KLN_ERR 0x80000000#32), KLN_ERR, 0, 0, by decide⟩,
    ⟨(W), 0, 0, 0, by unfold State.canonical; decide, by decide, by decide, by decide⟩,
    ⟨(W), 0, 0, 0, 1, by decide⟩,
    ⟨(W), PWR_STAT_STATE, 0, 31, by unfold State.canonical; decide, by decide, by decide, by decide⟩,
    ⟨(W), PWR_STAT_STATE, 0, 1, by unfold State.canonical; decide, by decide, by decide, by decide⟩⟩

theorem test_hyps_SystemResetLeavesAonValues :
    (∃ (t : Nat) (b : Nat) (s : State) (u : State) (v : State), s.canonical ∧ s.advance t = u ∧ u.on PWR_STAT_SAG = false ∧
      u.fld PWR_STAT_STATE ≠ 3 ∧ u.power.delay = none ∧ u.armed = false ∧ u.svc.pulse = none ∧ u.svc.page = false ∧
      (b = 2 ∨ b = 3) ∧ u.resetBy b rcSYSTEM = v ∧ b = 2) ∧
    (∃ (t : Nat) (b : Nat) (s : State) (u : State) (v : State), s.canonical ∧ s.advance t = u ∧ u.on PWR_STAT_SAG = false ∧
      u.fld PWR_STAT_STATE ≠ 3 ∧ u.power.delay = none ∧ u.armed = false ∧ u.svc.pulse = none ∧ u.svc.page = false ∧
      (b = 2 ∨ b = 3) ∧ u.resetBy b rcSYSTEM = v ∧ b = 3) ∧
    (∃ (t : Nat) (b : Nat) (s : State) (u : State) (v : State) (a : Nat), s.canonical ∧ s.advance t = u ∧
      u.on PWR_STAT_SAG = false ∧ u.fld PWR_STAT_STATE ≠ 3 ∧ u.power.delay = none ∧ u.armed = false ∧ u.svc.pulse = none ∧
      u.svc.page = false ∧ (b = 2 ∨ b = 3) ∧ u.resetBy b rcSYSTEM = v ∧ keptBits.all (fun k => k.1 != a) = true ∧ (∀ j,
      j < 3 → a ≠ TRM_CEIL j) ∧ a ≠ TWN_STATE ∧ a ≠ TWN_CTL ∧ a ≠ FIR_STATE ∧ a ≠ POS_REVCNT) :=
  ⟨⟨0, 2,
      (upSvc (upSvc ((upPower ((W.setFld PWR_STAT_SAG 0).setFld PWR_STAT_STATE 0) (fun x => { x with delay := none })).setFld HIF_CTL_ARMED 0) (fun x => { x with pulse := none })) (fun x => { x with page := false })),
      _, _, by unfold State.canonical; decide, rfl, by decide, by decide, by decide, by decide, by decide, by decide,
      by decide, rfl, by decide⟩,
    ⟨0, 3,
      (upSvc (upSvc ((upPower ((W.setFld PWR_STAT_SAG 0).setFld PWR_STAT_STATE 0) (fun x => { x with delay := none })).setFld HIF_CTL_ARMED 0) (fun x => { x with pulse := none })) (fun x => { x with page := false })),
      _, _, by unfold State.canonical; decide, rfl, by decide, by decide, by decide, by decide, by decide, by decide,
      by decide, rfl, by decide⟩,
    ⟨0, 2,
      (upSvc (upSvc ((upPower ((W.setFld PWR_STAT_SAG 0).setFld PWR_STAT_STATE 0) (fun x => { x with delay := none })).setFld HIF_CTL_ARMED 0) (fun x => { x with pulse := none })) (fun x => { x with page := false })),
      _, _, KLN_CTL, by unfold State.canonical; decide, rfl, by decide, by decide, by decide, by decide, by decide, by decide,
      by decide, rfl, by decide, by decide, by decide, by decide, by decide, by decide⟩⟩

theorem test_hyps_PollingRuns :
    (∃ (t : Nat) (s : State) (u : State), s.advance t = u ∧ u.on HIF_CTL_POLLEN = true ∧ u.canMaster = true ∧
      u.hostIf.nextPoll ≤ u.clk ∧ u.hostIf.sumOut = false ∧ u.hostIf.prodOut = false) ∧
    (∃ (t : Nat) (s : State) (u : State), s.advance t = u ∧ u.on HIF_CTL_POLLEN = true ∧ u.canMaster = true ∧
      u.hostIf.nextPoll ≤ u.clk ∧ (u.hostIf.sumOut = true ∨ u.hostIf.prodOut = true)) ∧
    (∃ (t : Nat) (s : State) (u : State), s.advance t = u ∧
      (u.on HIF_CTL_POLLEN = false ∨ u.canMaster = false ∨ u.clk < u.hostIf.nextPoll)) ∧
    (∃ (t : Nat) (line : BitVec 512) (s : State) (u : State), s.advance t = u ∧ u.hostIf.sumOut = true) ∧
    (∃ (words : BitVec 4096) (s : State), s.hostIf.prodOut = true) ∧
    (∃ (s : State), s.cmdOk = true) ∧
    (∃ (s : State), s.canonical) :=
  ⟨⟨0,
      (upHostIf (upHostIf ((W.setOn HIF_CTL_POLLEN).setOn HIF_CTL_BME) (fun x => { x with sumOut := false })) (fun x => { x with prodOut := false })),
      _, rfl, by decide, by decide, by decide, by decide, by decide⟩,
    ⟨0, (upHostIf ((W.setOn HIF_CTL_POLLEN).setOn HIF_CTL_BME) (fun x => { x with sumOut := true })), _, rfl, by decide,
      by decide, by decide, by decide⟩,
    ⟨0, (W.setFld HIF_CTL_POLLEN 0), _, rfl, by decide⟩,
    ⟨0, 0#512, (upHostIf (W) (fun x => { x with sumOut := true })), _, rfl, by decide⟩,
    ⟨0#4096, (upHostIf (W) (fun x => { x with prodOut := true })), by decide⟩,
    ⟨(((W.setOn HIF_CMDCTL_EN).setOn HIF_CTL_BME).setHif { W.hostIf with cmdProd := 1#32 }), by decide⟩,
    ⟨(W), by unfold State.canonical; decide⟩⟩

theorem test_hyps_FetchFailuresHalt :
    (∃ (st : Fin 128) (s : State) (u : State), s.atSlot st = u ∧ u.fetchOk st = true ∧ u.fetchTurn st = true ∧
      u.overrun st = false) ∧
    (∃ (st : Fin 128) (poisoned : Bool) (s : State) (u : State), s.atSlot st = u ∧ u.fetchOk st = true ∧
      u.fetchTurn st = true ∧ u.overrun st = true) ∧
    (∃ (st : Fin 128) (poisoned : Bool) (s : State) (u : State), s.atSlot st = u ∧
      (u.fetchOk st = false ∨ u.fetchTurn st = false)) ∧
    (∃ (st : Fin 128) (raw : BitVec 256) (s : State) (u : State), s.atSlot st = u ∧ u.fetchOk st = true ∧
      u.fetchTurn st = true ∧ u.overrun st = false ∧ (raw.toNat % 256 = 0 ∨ 7 ≤ raw.toNat % 256)) ∧
    (∃ (st : Fin 128) (raw : BitVec 256) (s : State) (u : State), s.atSlot st = u ∧ u.fetchOk st = true ∧
      u.fetchTurn st = true ∧ u.overrun st = true ∧ (raw.toNat % 256 = 0 ∨ 7 ≤ raw.toNat % 256)) ∧
    (∃ (st : Fin 128) (raw : BitVec 256) (s : State), (¬ (raw.toNat % 256 = 0 ∨ 7 ≤ raw.toNat % 256))) ∧
    (∃ (s : State) (st : Fin 128) (code : Nat), s.canonical) :=
  ⟨⟨0, (witFetch (W) 1), _, rfl, by decide, by decide, by decide⟩,
    ⟨0, false, (witFetch (witFetch (W) 1) 20), _, rfl, by decide, by decide, by decide⟩,
    ⟨0, false, (W), _, rfl, by decide⟩,
    ⟨0, 0#256, (witFetch (W) 1), _, rfl, by decide, by decide, by decide, by decide⟩,
    ⟨0, 0#256, (witFetch (witFetch (W) 1) 20), _, rfl, by decide, by decide, by decide, by decide⟩,
    ⟨0, 1#256, (W), by decide⟩,
    ⟨(W), 0, 0, by unfold State.canonical; decide⟩⟩

theorem test_hyps_BandsAndStripsRun :
    (∃ (st : Fin 128) (raw : BitVec 256) (s : State) (u : State) (v : State), s.atSlot st = u ∧ u.fetchOk st = true ∧
      u.fetchTurn st = true ∧ u.overrun st = false ∧ raw.toNat % 256 = 1 ∧ (u.tookTurn st).takeDesc st raw = v ∧
      v.bandCheck st raw = none) ∧
    (∃ (st : Fin 128) (raw : BitVec 256) (s : State) (u : State) (v : State) (code : Nat), s.atSlot st = u ∧
      u.fetchOk st = true ∧ u.fetchTurn st = true ∧ u.overrun st = false ∧ raw.toNat % 256 = 1 ∧
      (u.tookTurn st).takeDesc st raw = v ∧ v.bandCheck st raw = some code) ∧
    (∃ (st : Nat) (d : Desc) (s : State), s.firstKept st (dLine d.raw) (dCount d.raw) = dLine d.raw + dCount d.raw) ∧
    (∃ (st : Fin 128) (raw : BitVec 256) (s : State) (u : State) (v : State), s.atSlot st = u ∧ u.fetchOk st = true ∧
      u.fetchTurn st = true ∧ u.overrun st = false ∧ raw.toNat % 256 = 5 ∧ (u.tookTurn st).takeDesc st raw = v ∧
      v.stripCheck st raw = none) ∧
    (∃ (st : Fin 128) (raw : BitVec 256) (s : State) (u : State) (v : State) (code : Nat), s.atSlot st = u ∧
      u.fetchOk st = true ∧ u.fetchTurn st = true ∧ u.overrun st = false ∧ raw.toNat % 256 = 5 ∧
      (u.tookTurn st).takeDesc st raw = v ∧ v.stripCheck st raw = some code) ∧
    (∃ (st : Fin 128) (s : State) (d : Desc), (s.strm st).descs.find? (fun d => d.phase = .waitAdmit) = some d ∧
      s.admits st (bandSize d.raw) = true ∧ bandFetch d.raw ≠ 0) ∧
    (∃ (st : Fin 128) (len : BitVec 13) (s : State) (d : Desc) (n : Nat), s.wantsData st = some d ∧ s.canMaster = true ∧
      s.bandReads < 248 ∧ s.dataTurn st = true ∧ min (min (min len.toNat 4096) s.mrrs) (bandFetch d.raw - d.issued) = n ∧
      0 < n) ∧
    (∃ (st : Fin 128) (data : List (BitVec 9)) (s : State) (d : Desc), (s.strm st).stray = [] ∧
      (s.strm st).descs.find? (fun d => d.phase = .reading && !d.reads.isEmpty) = some d) ∧
    (∃ (st : Fin 128) (data : List (BitVec 9)) (s : State) (v : State) (w : State) (d : Desc) (c : Cut) (code : Nat),
      (s.strm st).stray = [] ∧ (s.strm st).descs.find? (fun d => d.phase = .reading && !d.reads.isEmpty) = some d ∧
      (if mAny (data.take (d.reads.headD 0)) then s.aer aerPOISON else s) = v ∧
      cutRows (dFmt d.raw) (dWidth d.raw) (bandRows (dCount d.raw) (dRes d.raw) - (v.band d.seq).rows.length) (d.tail ++ data.take (d.reads.headD 0)) = c ∧
      ((v.setBand d.seq { v.band d.seq with rows := (v.band d.seq).rows ++ c.rows }).storesBand st (ceilDiv (data.take (d.reads.headD 0)).length 64)).modDesc st d.count (fun x => { x with got := d.got + (data.take (d.reads.headD 0)).length, tail := c.rest, reads := answerRead (data.take (d.reads.headD 0)).length x.reads }) = w ∧
      c.bad = some code) ∧
    (∃ (st : Fin 128) (data : List (BitVec 9)) (s : State) (v : State) (w : State) (d : Desc) (c : Cut),
      (s.strm st).stray = [] ∧ (s.strm st).descs.find? (fun d => d.phase = .reading && !d.reads.isEmpty) = some d ∧
      (if mAny (data.take (d.reads.headD 0)) then s.aer aerPOISON else s) = v ∧
      cutRows (dFmt d.raw) (dWidth d.raw) (bandRows (dCount d.raw) (dRes d.raw) - (v.band d.seq).rows.length) (d.tail ++ data.take (d.reads.headD 0)) = c ∧
      ((v.setBand d.seq { v.band d.seq with rows := (v.band d.seq).rows ++ c.rows }).storesBand st (ceilDiv (data.take (d.reads.headD 0)).length 64)).modDesc st d.count (fun x => { x with got := d.got + (data.take (d.reads.headD 0)).length, tail := c.rest, reads := answerRead (data.take (d.reads.headD 0)).length x.reads }) = w ∧
      c.bad = none ∧ d.got + (data.take (d.reads.headD 0)).length < bandFetch d.raw) ∧
    (∃ (st : Fin 128) (data : List (BitVec 9)) (s : State) (v : State) (w : State) (d : Desc) (c : Cut),
      (s.strm st).stray = [] ∧ (s.strm st).descs.find? (fun d => d.phase = .reading && !d.reads.isEmpty) = some d ∧
      (if mAny (data.take (d.reads.headD 0)) then s.aer aerPOISON else s) = v ∧
      cutRows (dFmt d.raw) (dWidth d.raw) (bandRows (dCount d.raw) (dRes d.raw) - (v.band d.seq).rows.length) (d.tail ++ data.take (d.reads.headD 0)) = c ∧
      ((v.setBand d.seq { v.band d.seq with rows := (v.band d.seq).rows ++ c.rows }).storesBand st (ceilDiv (data.take (d.reads.headD 0)).length 64)).modDesc st d.count (fun x => { x with got := d.got + (data.take (d.reads.headD 0)).length, tail := c.rest, reads := answerRead (data.take (d.reads.headD 0)).length x.reads }) = w ∧
      c.bad = none ∧ bandFetch d.raw ≤ d.got + (data.take (d.reads.headD 0)).length ∧
      (v.band d.seq).rows.length + c.rows.length < bandRows (dCount d.raw) (dRes d.raw)) ∧
    (∃ (st : Fin 128) (data : List (BitVec 9)) (s : State) (v : State) (w : State) (d : Desc) (c : Cut),
      (s.strm st).stray = [] ∧ (s.strm st).descs.find? (fun d => d.phase = .reading && !d.reads.isEmpty) = some d ∧
      (if mAny (data.take (d.reads.headD 0)) then s.aer aerPOISON else s) = v ∧
      cutRows (dFmt d.raw) (dWidth d.raw) (bandRows (dCount d.raw) (dRes d.raw) - (v.band d.seq).rows.length) (d.tail ++ data.take (d.reads.headD 0)) = c ∧
      ((v.setBand d.seq { v.band d.seq with rows := (v.band d.seq).rows ++ c.rows }).storesBand st (ceilDiv (data.take (d.reads.headD 0)).length 64)).modDesc st d.count (fun x => { x with got := d.got + (data.take (d.reads.headD 0)).length, tail := c.rest, reads := answerRead (data.take (d.reads.headD 0)).length x.reads }) = w ∧
      c.bad = none ∧ bandFetch d.raw ≤ d.got + (data.take (d.reads.headD 0)).length ∧
      bandRows (dCount d.raw) (dRes d.raw) ≤ (v.band d.seq).rows.length + c.rows.length) ∧
    (∃ (w : Nat) (n : Nat) (row : List (BitVec 9)) (rest : List (BitVec 9)), 4 ≤ row.length ∧ mAny row = false ∧
      row.length = 4 + hdrLen row ∧ rowOk w row = false) ∧
    (∃ (st : Fin 128) (data : List (BitVec 9)) (s : State) (n : Nat) (l : List Nat), (s.strm st).stray = n :: l) ∧
    (∃ (st : Fin 128) (s : State) (d : Desc), (s.strm st).descs.find? (fun d => d.phase = .waitAdmit) = some d ∧
      s.admits st (bandSize d.raw) = true ∧ bandFetch d.raw = 0) :=
  ⟨⟨0, 0x40000000000000000000010000400001000000000001000001#256, (witJob (witFetch (W) 1)), _, _, rfl, by decide,
      by decide, by decide, by decide, rfl, by decide⟩,
    ⟨0, 1#256, (witFetch (W) 1), _, _, _, rfl, by decide, by decide, by decide, by decide, rfl, rfl⟩,
    ⟨0, (witDesc 0x40000000000000000000010000400001000000000001000001#256 .printing),
      ((witJob W).modHead 0 (fun x => { x with screen := 1 })), by decide⟩,
    ⟨0, 0x1000000000000000005#256, (witJob (witFetch (W) 1)), _, _, rfl, by decide, by decide, by decide, by decide, rfl,
      by decide⟩,
    ⟨0, 5#256, (witFetch (W) 1), _, _, _, rfl, by decide, by decide, by decide, by decide, rfl, rfl⟩,
    ⟨0, (witStrm (witJob W) [(witDesc 0x40000000000000000000010000400001000000000001000001#256 .waitAdmit)]),
      (witDesc 0x40000000000000000000010000400001000000000001000001#256 .waitAdmit), rfl, by decide, by decide⟩,
    ⟨0, 64#13,
      ((witStrm (witJob W) [witDesc 0x40000000000000000000010000400001000000000001000001#256 .reading]).setOn HIF_CTL_BME),
      (witDesc 0x40000000000000000000010000400001000000000001000001#256 .reading), 64, rfl, by decide, by decide, by decide,
      by decide, by decide⟩,
    ⟨0, [],
      (witStrm (witJob W) [({ witDesc 0x40000000000000000000010000400001000000000001000001#256 .reading with issued := 64, reads := [64] } : Desc)]),
      ({ witDesc 0x40000000000000000000010000400001000000000001000001#256 .reading with issued := 64, reads := [64] } : Desc),
      by decide, rfl⟩,
    ⟨0, ([0#9, 0#9, 0#9, 3#9] ++ List.replicate 64 0#9),
      (witStrm (witJob W) [({ witDesc 0x44000000000000000000010000400001000000000002000001#256 .reading with issued := 68, reads := [68] } : Desc)]),
      _, _,
      ({ witDesc 0x44000000000000000000010000400001000000000002000001#256 .reading with issued := 68, reads := [68] } : Desc),
      _, 0x17, by decide, by decide, rfl, rfl, rfl, by decide +kernel⟩,
    ⟨0, (List.replicate 64 5#9),
      (witStrm (witJob W) [({ witDesc 0x80000000000000000000010000400002000000000001000001#256 .reading with issued := 64, reads := [64] } : Desc)]),
      _, _,
      ({ witDesc 0x80000000000000000000010000400002000000000001000001#256 .reading with issued := 64, reads := [64] } : Desc),
      _, by decide, by decide, rfl, rfl, rfl, by decide, by decide⟩,
    ⟨0, (List.replicate 2 0#9),
      (witStrm (witJob W) [({ witDesc 0x2000000000000000000010000400001000000000002000001#256 .reading with issued := 2, reads := [2] } : Desc)]),
      _, _,
      ({ witDesc 0x2000000000000000000010000400001000000000002000001#256 .reading with issued := 2, reads := [2] } : Desc), _,
      by decide, by decide, rfl, rfl, rfl, by decide, by decide, by decide⟩,
    ⟨0, (List.replicate 64 5#9),
      (witStrm (witJob W) [({ witDesc 0x40000000000000000000010000400001000000000001000001#256 .reading with issued := 64, reads := [64] } : Desc)]),
      _, _,
      ({ witDesc 0x40000000000000000000010000400001000000000001000001#256 .reading with issued := 64, reads := [64] } : Desc),
      _, by decide, rfl, rfl, rfl, rfl, by decide, by decide, by decide⟩,
    ⟨64, 0, [0#9, 0#9, 0#9, 3#9], [], by decide, by decide, by decide, by decide +kernel⟩,
    ⟨0, [], (W.modStrm 0 (fun x => { x with stray := [0] })), 0, [], rfl⟩,
    ⟨0, (witStrm (witJob W) [(witDesc 0x10000400001000000000002000001#256 .waitAdmit)]),
      (witDesc 0x10000400001000000000002000001#256 .waitAdmit), rfl, by decide, by decide⟩⟩

theorem test_hyps_MarksFencesTablesRun :
    (∃ (st : Fin 128) (raw : BitVec 256) (s : State) (u : State) (v : State) (d : Desc), s.atSlot st = u ∧
      u.fetchOk st = true ∧ u.fetchTurn st = true ∧ u.overrun st = false ∧ (u.tookTurn st).takeDesc st raw = v ∧
      u.newDesc st raw = d ∧ raw.toNat % 256 = 2 ∧ markForm raw = true) ∧
    (∃ (st : Fin 128) (raw : BitVec 256) (s : State) (u : State) (v : State) (d : Desc), s.atSlot st = u ∧
      u.fetchOk st = true ∧ u.fetchTurn st = true ∧ u.overrun st = false ∧ (u.tookTurn st).takeDesc st raw = v ∧
      u.newDesc st raw = d ∧ raw.toNat % 256 = 2 ∧ markForm raw = false) ∧
    (∃ (st : Fin 128) (raw : BitVec 256) (s : State) (u : State) (v : State) (d : Desc), s.atSlot st = u ∧
      u.fetchOk st = true ∧ u.fetchTurn st = true ∧ u.overrun st = false ∧ (u.tookTurn st).takeDesc st raw = v ∧
      u.newDesc st raw = d ∧ raw.toNat % 256 = 3 ∧ fenceForm raw = true) ∧
    (∃ (st : Fin 128) (raw : BitVec 256) (s : State) (u : State) (v : State) (d : Desc), s.atSlot st = u ∧
      u.fetchOk st = true ∧ u.fetchTurn st = true ∧ u.overrun st = false ∧ (u.tookTurn st).takeDesc st raw = v ∧
      u.newDesc st raw = d ∧ raw.toNat % 256 = 3 ∧ fenceForm raw = false) ∧
    (∃ (st : Fin 128) (raw : BitVec 256) (s : State) (u : State) (v : State) (d : Desc), s.atSlot st = u ∧
      u.fetchOk st = true ∧ u.fetchTurn st = true ∧ u.overrun st = false ∧ (u.tookTurn st).takeDesc st raw = v ∧
      u.newDesc st raw = d ∧ raw.toNat % 256 = 4 ∧ tableForm raw = true ∧ 0 < dLen raw ∧ dLen raw % 16 = 0 ∧
      dLen raw ≤ 1048576 ∧ dAddr raw % 16 = 0) ∧
    (∃ (st : Fin 128) (raw : BitVec 256) (s : State) (u : State) (v : State) (d : Desc), s.atSlot st = u ∧
      u.fetchOk st = true ∧ u.fetchTurn st = true ∧ u.overrun st = false ∧ (u.tookTurn st).takeDesc st raw = v ∧
      u.newDesc st raw = d ∧ raw.toNat % 256 = 4 ∧ tableForm raw = false) ∧
    (∃ (st : Fin 128) (raw : BitVec 256) (s : State) (u : State) (v : State) (d : Desc), s.atSlot st = u ∧
      u.fetchOk st = true ∧ u.fetchTurn st = true ∧ u.overrun st = false ∧ (u.tookTurn st).takeDesc st raw = v ∧
      u.newDesc st raw = d ∧ raw.toNat % 256 = 4 ∧ tableForm raw = true ∧
      (dLen raw = 0 ∨ dLen raw % 16 ≠ 0 ∨ 1048576 < dLen raw)) ∧
    (∃ (st : Fin 128) (raw : BitVec 256) (s : State) (u : State) (v : State) (d : Desc), s.atSlot st = u ∧
      u.fetchOk st = true ∧ u.fetchTurn st = true ∧ u.overrun st = false ∧ (u.tookTurn st).takeDesc st raw = v ∧
      u.newDesc st raw = d ∧ raw.toNat % 256 = 4 ∧ tableForm raw = true ∧ 0 < dLen raw ∧ dLen raw % 16 = 0 ∧
      dLen raw ≤ 1048576 ∧ dAddr raw % 16 ≠ 0) ∧
    (∃ (st : Fin 128) (raw : BitVec 256) (s : State) (u : State) (v : State) (d : Desc), s.atSlot st = u ∧
      u.fetchOk st = true ∧ u.fetchTurn st = true ∧ u.overrun st = false ∧ (u.tookTurn st).takeDesc st raw = v ∧
      u.newDesc st raw = d ∧ raw.toNat % 256 = 6 ∧ v.eventForm raw = true ∧ dCount raw ≠ 0) ∧
    (∃ (st : Fin 128) (raw : BitVec 256) (s : State) (u : State) (v : State) (d : Desc), s.atSlot st = u ∧
      u.fetchOk st = true ∧ u.fetchTurn st = true ∧ u.overrun st = false ∧ (u.tookTurn st).takeDesc st raw = v ∧
      u.newDesc st raw = d ∧ raw.toNat % 256 = 6 ∧ v.eventForm raw = false) ∧
    (∃ (st : Fin 128) (raw : BitVec 256) (s : State) (u : State) (v : State) (d : Desc), s.atSlot st = u ∧
      u.fetchOk st = true ∧ u.fetchTurn st = true ∧ u.overrun st = false ∧ (u.tookTurn st).takeDesc st raw = v ∧
      u.newDesc st raw = d ∧ raw.toNat % 256 = 6 ∧ v.eventForm raw = true ∧ dCount raw = 0) ∧
    (∃ (st : Nat) (d : Desc) (s : State), s.armed = false) ∧
    (∃ (st : Nat) (d : Desc) (s : State), s.armed = true ∧ (s.members (dUnit d.raw)).isEmpty = true) ∧
    (∃ (st : Fin 128) (data : List (BitVec 128)) (s : State) (d : Desc),
      (s.strm st).descs.find? (fun d => d.phase = .table && decide (d.got < dLen d.raw)) = some d ∧ s.canMaster = true ∧
      (s.strm st).pass.contains d.count = false ∧ s.on (STR_CTL_SKIPERR st) = true ∧ d.out = 0) ∧
    (∃ (st : Fin 128) (data : List (BitVec 128)) (s : State) (d : Desc) (bytes : List Byte) (rest : State × List Byte),
      (s.strm st).descs.find? (fun d => d.phase = .table && decide (d.got < dLen d.raw)) = some d ∧ s.canMaster = true ∧
      (data.map (fun w => leBytes 16 w.toNat)).flatten.take (dLen d.raw - d.got) = bytes ∧
      ((s.stores pkSTAGING 4 (ceilDiv bytes.length 64)).modDesc st d.count (fun x => { x with got := d.got + bytes.length })).passRecords st d.count (decide (dLen d.raw ≤ d.got + bytes.length)) (d.tail.map (fun b => b.truncate 8) ++ bytes).length (d.tail.map (fun b => b.truncate 8) ++ bytes) = rest) :=
  ⟨⟨0, 2#256, (witFetch (W) 1), _, _, _, rfl, by decide, by decide, by decide, rfl, rfl, by decide, by decide⟩,
    ⟨0, 0x1000000000000000002#256, (witFetch (W) 1), _, _, _, rfl, by decide, by decide, by decide, rfl, rfl, by decide,
      by decide⟩,
    ⟨0, 3#256, (witFetch (W) 1), _, _, _, rfl, by decide, by decide, by decide, rfl, rfl, by decide, by decide⟩,
    ⟨0, 0x1000000000000000003#256, (witFetch (W) 1), _, _, _, rfl, by decide, by decide, by decide, rfl, rfl, by decide,
      by decide⟩,
    ⟨0, 0x10000000000000000000000000000000000000000000000004#256, (witFetch (W) 1), _, _, _, rfl, by decide, by decide,
      by decide, rfl, rfl, by decide, by decide, by decide, by decide, by decide, by decide⟩,
    ⟨0, 0x1000000000000000004#256, (witFetch (W) 1), _, _, _, rfl, by decide, by decide, by decide, rfl, rfl, by decide,
      by decide⟩,
    ⟨0, 4#256, (witFetch (W) 1), _, _, _, rfl, by decide, by decide, by decide, rfl, rfl, by decide, by decide, by decide⟩,
    ⟨0, 0x10000000000000000800000000000000000000000000000004#256, (witFetch (W) 1), _, _, _, rfl, by decide, by decide,
      by decide, rfl, rfl, by decide, by decide, by decide, by decide, by decide, by decide⟩,
    ⟨0, 0x1000000000000000006#256, ((witFetch (W) 1).setFld (TIM_EVTCTL_OWNER 0) evLINE), _, _, _, rfl, by decide,
      by decide, by decide, rfl, rfl, by decide, by decide, by decide⟩,
    ⟨0, 6#256, (witFetch (W) 1), _, _, _, rfl, by decide, by decide, by decide, rfl, rfl, by decide, by decide⟩,
    ⟨0, 0x6#256, ((witFetch (W) 1).setFld (TIM_EVTCTL_OWNER 0) evLINE), _, _, _, rfl, by decide, by decide, by decide, rfl,
      rfl, by decide, by decide, by decide⟩,
    ⟨0, (witDesc 0x2#256 .waitLine), (W.setFld HIF_CTL_ARMED 0), by decide⟩,
    ⟨0, (witDesc 0x2#256 .waitLine), (W.setOn HIF_CTL_ARMED), by decide, by decide⟩,
    ⟨0, [],
      (witStrm ((W.setOn HIF_CTL_BME).setOn (STR_CTL_SKIPERR 0)) [(witDesc 0x10000000000000000000000000000000000000000000000004#256 .table)]),
      (witDesc 0x10000000000000000000000000000000000000000000000004#256 .table), rfl, by decide, by decide, by decide,
      by decide⟩,
    ⟨0, [0x40#128],
      (witStrm (W.setOn HIF_CTL_BME) [(witDesc 0x10000000000000000000000000000000000000000000000004#256 .table)]),
      (witDesc 0x10000000000000000000000000000000000000000000000004#256 .table), _, _, rfl, by decide, rfl, rfl⟩⟩

theorem test_hyps_CommandRingRuns :
    (∃ (raw : BitVec 256) (s : State) (u : State), s.cmdOk = true ∧ s.setReg HIF_CMDCONS (s.reg HIF_CMDCONS + 1#32) = u ∧
      isCmd 1 raw = true ∧ u.fld PWR_STAT_STATE = 0 ∧ u.armCheck = none) ∧
    (∃ (raw : BitVec 256) (s : State) (u : State) (v : State) (code : Nat), s.cmdOk = true ∧
      s.setReg HIF_CMDCONS (s.reg HIF_CMDCONS + 1#32) = u ∧ isCmd 1 raw = true ∧ u.fld PWR_STAT_STATE = 0 ∧
      u.armCheck = some (code, v)) ∧
    (∃ (raw : BitVec 256) (s : State) (u : State), s.cmdOk = true ∧ s.setReg HIF_CMDCONS (s.reg HIF_CMDCONS + 1#32) = u ∧
      isCmd 2 raw = true ∧ u.armed = false) ∧
    (∃ (raw : BitVec 256) (s : State) (u : State) (w : State), s.cmdOk = true ∧
      s.setReg HIF_CMDCONS (s.reg HIF_CMDCONS + 1#32) = u ∧ isCmd 2 raw = true ∧ u.armed = true ∧
      u.on FIR_STATE_NOORG = false ∧ u.splice.active = false ∧ u.fld TRN_STATE_SEQ < 2 ∧
      u.liveHeads.foldl (fun s h => s.endHead h (cLine raw)) u = w) ∧
    (∃ (raw : BitVec 256) (s : State) (u : State), s.cmdOk = true ∧ s.setReg HIF_CMDCONS (s.reg HIF_CMDCONS + 1#32) = u ∧
      isCmd 2 raw = true ∧ u.armed = true ∧ u.on FIR_STATE_NOORG = true) ∧
    (∃ (raw : BitVec 256) (slot : Nat) (s : State), s.hostIf.disarm = some (raw, slot) ∧ s.armed = true ∧
      s.liveHeads.all (fun h => s.headEnded h) = true) ∧
    (∃ (raw : BitVec 256) (s : State) (u : State), s.cmdOk = true ∧ s.setReg HIF_CMDCONS (s.reg HIF_CMDCONS + 1#32) = u ∧
      isCmd 3 raw = true) ∧
    (∃ (raw : BitVec 256) (s : State) (u : State), s.cmdOk = true ∧ s.setReg HIF_CMDCONS (s.reg HIF_CMDCONS + 1#32) = u ∧
      isCmd 4 raw = true) ∧
    (∃ (raw : BitVec 256) (s : State) (u : State), s.cmdOk = true ∧ s.setReg HIF_CMDCONS (s.reg HIF_CMDCONS + 1#32) = u ∧
      isCmd 5 raw = true) ∧
    (∃ (raw : BitVec 256) (s : State) (u : State), s.cmdOk = true ∧ s.setReg HIF_CMDCONS (s.reg HIF_CMDCONS + 1#32) = u ∧
      isCmd 6 raw = true) ∧
    (∃ (raw : BitVec 256) (s : State) (u : State), s.cmdOk = true ∧ s.setReg HIF_CMDCONS (s.reg HIF_CMDCONS + 1#32) = u ∧
      (∀ k, 1 ≤ k → k < 7 → isCmd k raw = false)) :=
  ⟨⟨1#256, (witReady (((W.setOn HIF_CMDCTL_EN).setOn HIF_CTL_BME).setHif { W.hostIf with cmdProd := 1#32 })), _, by decide,
      rfl, by decide, by decide, by decide⟩,
    ⟨1#256, (((W.setOn HIF_CMDCTL_EN).setOn HIF_CTL_BME).setHif { W.hostIf with cmdProd := 1#32 }), _, _, _, by decide, rfl,
      by decide, by decide, rfl⟩,
    ⟨2#256, (((W.setOn HIF_CMDCTL_EN).setOn HIF_CTL_BME).setHif { W.hostIf with cmdProd := 1#32 }), _, by decide, rfl,
      by decide, by decide⟩,
    ⟨2#256,
      (((((W.setOn HIF_CMDCTL_EN).setOn HIF_CTL_BME).setHif { W.hostIf with cmdProd := 1#32 }).setOn HIF_CTL_ARMED).setFld FIR_STATE_NOORG 0),
      _, _, by decide, rfl, by decide, by decide, by decide, by decide, by decide, rfl⟩,
    ⟨2#256,
      (((((W.setOn HIF_CMDCTL_EN).setOn HIF_CTL_BME).setHif { W.hostIf with cmdProd := 1#32 }).setOn HIF_CTL_ARMED).setOn FIR_STATE_NOORG),
      _, by decide, rfl, by decide, by decide, by decide⟩,
    ⟨2#256, 0, ((upHostIf (W) (fun x => { x with disarm := some (2#256, 0) })).setOn HIF_CTL_ARMED), by decide, by decide,
      by decide⟩,
    ⟨3#256, (((W.setOn HIF_CMDCTL_EN).setOn HIF_CTL_BME).setHif { W.hostIf with cmdProd := 1#32 }), _, by decide, rfl,
      by decide⟩,
    ⟨4#256, (((W.setOn HIF_CMDCTL_EN).setOn HIF_CTL_BME).setHif { W.hostIf with cmdProd := 1#32 }), _, by decide, rfl,
      by decide⟩,
    ⟨5#256, (((W.setOn HIF_CMDCTL_EN).setOn HIF_CTL_BME).setHif { W.hostIf with cmdProd := 1#32 }), _, by decide, rfl,
      by decide⟩,
    ⟨6#256, (((W.setOn HIF_CMDCTL_EN).setOn HIF_CTL_BME).setHif { W.hostIf with cmdProd := 1#32 }), _, by decide, rfl,
      by decide⟩,
    ⟨0#256, (((W.setOn HIF_CMDCTL_EN).setOn HIF_CTL_BME).setHif { W.hostIf with cmdProd := 1#32 }), _, by decide, rfl,
      (fun k h1 h2 => (show ∀ k, k < 7 → 1 ≤ k → isCmd k 0#256 = false by decide) k h2 h1)⟩⟩

theorem test_hyps_HostQueuesRun :
    (∃ (t : Nat) (load : Fin 101) (backlog : BitVec 8) (low : Bool) (s : State) (u : State) (p : State) (w : State),
      s.advance t = u ∧ u.on RST_STAT_DONE = true ∧ u.awake = true ∧ u.hostIf.statEnd ≤ u.clk ∧
      (u.serveGold (u.svc.tasks.length - backlog.toNat)).periodFigures load backlog.toNat low = p ∧
      p.setHif { p.hostIf with statEnd := p.hostIf.statEnd + 400 * p.fld HIF_STATPER_PER, statLen := 400 * p.fld HIF_STATPER_PER } = w) ∧
    (∃ (s : State), s.aonOk = true) ∧
    (∃ (q : Fin 8) (v : BitVec 32) (s : State) (n : Nat), s.barOk 0 = true ∧ s.armed = false ∧
      (if 13 ≤ bitsOf v.toNat 1 4 then s.fld (HIF_CQCTL_SIZE q) else bitsOf v.toNat 1 4) = n ∧ bitAt v.toNat 0 = false) ∧
    (∃ (q : Fin 8) (v : BitVec 32) (s : State) (n : Nat), s.barOk 0 = true ∧ s.armed = false ∧
      (if 13 ≤ bitsOf v.toNat 1 4 then s.fld (HIF_CQCTL_SIZE q) else bitsOf v.toNat 1 4) = n ∧ bitAt v.toNat 0 = true) ∧
    (∃ (q : Fin 8) (v : BitVec 32) (s : State), s.barOk 0 = true ∧ s.armed = true) ∧
    (∃ (st : Fin 128) (v : BitVec 32) (s : State) (u : State) (n : Nat), s.barOk 1 = true ∧ s.armed = false ∧
      (if 13 ≤ bitsOf v.toNat 2 4 then s.fld (STR_CTL_SIZE st) else bitsOf v.toNat 2 4) = n ∧
      s.setReg (STR_CTL st) (putBits v 2 4 n &&& 0x77F#32) = u ∧ bitAt v.toNat 0 = true ∧ s.on (STR_CTL_EN st) = false) ∧
    (∃ (st : Fin 128) (v : BitVec 32) (s : State) (u : State) (n : Nat), s.barOk 1 = true ∧ s.armed = false ∧
      (if 13 ≤ bitsOf v.toNat 2 4 then s.fld (STR_CTL_SIZE st) else bitsOf v.toNat 2 4) = n ∧
      s.setReg (STR_CTL st) (putBits v 2 4 n &&& 0x77F#32) = u ∧ bitAt v.toNat 0 = true ∧ s.on (STR_CTL_EN st) = true) ∧
    (∃ (st : Fin 128) (v : BitVec 32) (s : State) (u : State) (n : Nat), s.barOk 1 = true ∧ s.armed = false ∧
      (if 13 ≤ bitsOf v.toNat 2 4 then s.fld (STR_CTL_SIZE st) else bitsOf v.toNat 2 4) = n ∧
      s.setReg (STR_CTL st) (putBits v 2 4 n &&& 0x77F#32) = u ∧ bitAt v.toNat 0 = false) ∧
    (∃ (st : Fin 128) (v : BitVec 32) (s : State), s.barOk 1 = true ∧ s.armed = true) ∧
    (∃ (t : Nat) (load : Fin 101) (backlog : BitVec 8) (low : Bool) (s : State) (u : State), s.advance t = u ∧
      (u.on RST_STAT_DONE = false ∨ u.awake = false ∨ u.clk < u.hostIf.statEnd)) ∧
    (∃ (s : State) (up : Bool), s.aonOk = false) ∧
    (∃ (q : Fin 8) (st : Fin 128) (v : BitVec 32) (s : State), s.barOk 0 = false) ∧
    (∃ (q : Fin 8) (st : Fin 128) (v : BitVec 32) (s : State), s.barOk 1 = false) :=
  ⟨⟨0, 0, 0#8, false, (W.setOn RST_STAT_DONE), _, _, _, rfl, by decide, by decide, by decide, rfl, rfl⟩,
    ⟨(W), by decide⟩,
    ⟨0, 0#32, (W.setFld HIF_CTL_ARMED 0), 0, by decide, by decide, by decide, by decide⟩,
    ⟨0, 0x1B#32, (W.setFld HIF_CTL_ARMED 0), 0, by decide, by decide, by decide, by decide⟩,
    ⟨0, 0#32, (W.setOn HIF_CTL_ARMED), by decide, by decide⟩,
    ⟨0, 1#32, ((W.setFld HIF_CTL_ARMED 0).setFld (STR_CTL_EN 0) 0), _, 0, by decide, by decide, by decide, rfl, by decide,
      by decide⟩,
    ⟨0, 1#32, ((W.setFld HIF_CTL_ARMED 0).setOn (STR_CTL_EN 0)), _, 0, by decide, by decide, by decide, rfl, by decide,
      by decide⟩,
    ⟨0, 0#32, (W.setFld HIF_CTL_ARMED 0), _, 0, by decide, by decide, by decide, rfl, by decide⟩,
    ⟨0, 0#32, (W.setOn HIF_CTL_ARMED), by decide, by decide⟩,
    ⟨0, 0, 0#8, false, (W.setFld RST_STAT_DONE 0), _, rfl, by decide⟩,
    ⟨(W.setFld PWR_STAT_STATE 3), false, by decide⟩,
    ⟨0, 0, 0#32, (W.setFld PWR_STAT_STATE 2), by decide⟩,
    ⟨0, 0, 0#32, (W.setFld PWR_STAT_STATE 2), by decide⟩⟩

theorem test_hyps_UnitRecordsRun :
    (∃ (s : State) (p : State) (v : State) (r : PortReq) (l : List PortReq), s.portQ = r :: l ∧
      s.judgeOp (rawOp r.bytes) = none ∧ ({ s with portQ := l } : State) = p ∧ (p.opAccept ⟨uUnit (rawOp r.bytes),
      uCode (rawOp r.bytes), uLine (rawOp r.bytes), uArg (rawOp r.bytes)⟩).portResult r.src 0 = v ∧ rCode r.bytes = 1) ∧
    (∃ (s : State) (p : State) (v : State) (r : PortReq) (l : List PortReq), s.portQ = r :: l ∧
      s.judgeOp (rawOp r.bytes) = none ∧ ({ s with portQ := l } : State) = p ∧ (p.opAccept ⟨uUnit (rawOp r.bytes),
      uCode (rawOp r.bytes), uLine (rawOp r.bytes), uArg (rawOp r.bytes)⟩).portResult r.src 0 = v ∧ rCode r.bytes = 2) ∧
    (∃ (s : State) (p : State) (v : State) (r : PortReq) (l : List PortReq), s.portQ = r :: l ∧
      s.judgeOp (rawOp r.bytes) = none ∧ ({ s with portQ := l } : State) = p ∧ (p.opAccept ⟨uUnit (rawOp r.bytes),
      uCode (rawOp r.bytes), uLine (rawOp r.bytes), uArg (rawOp r.bytes)⟩).portResult r.src 0 = v ∧ rCode r.bytes = 3) ∧
    (∃ (s : State) (p : State) (v : State) (r : PortReq) (l : List PortReq), s.portQ = r :: l ∧
      s.judgeOp (rawOp r.bytes) = none ∧ ({ s with portQ := l } : State) = p ∧ (p.opAccept ⟨uUnit (rawOp r.bytes),
      uCode (rawOp r.bytes), uLine (rawOp r.bytes), uArg (rawOp r.bytes)⟩).portResult r.src 0 = v ∧ rCode r.bytes = 4) ∧
    (∃ (s : State) (p : State) (v : State) (r : PortReq) (l : List PortReq), s.portQ = r :: l ∧
      s.judgeOp (rawOp r.bytes) = none ∧ ({ s with portQ := l } : State) = p ∧ (p.opAccept ⟨uUnit (rawOp r.bytes),
      uCode (rawOp r.bytes), uLine (rawOp r.bytes), uArg (rawOp r.bytes)⟩).portResult r.src 0 = v ∧ rCode r.bytes = 5) ∧
    (∃ (s : State) (p : State) (v : State) (r : PortReq) (l : List PortReq), s.portQ = r :: l ∧
      s.judgeOp (rawOp r.bytes) = none ∧ ({ s with portQ := l } : State) = p ∧ (p.opAccept ⟨uUnit (rawOp r.bytes),
      uCode (rawOp r.bytes), uLine (rawOp r.bytes), uArg (rawOp r.bytes)⟩).portResult r.src 0 = v ∧ rCode r.bytes = 6) ∧
    (∃ (s : State) (p : State) (v : State) (r : PortReq) (l : List PortReq), s.portQ = r :: l ∧
      s.judgeOp (rawOp r.bytes) = none ∧ ({ s with portQ := l } : State) = p ∧ (p.opAccept ⟨uUnit (rawOp r.bytes),
      uCode (rawOp r.bytes), uLine (rawOp r.bytes), uArg (rawOp r.bytes)⟩).portResult r.src 0 = v ∧ rCode r.bytes = 7) ∧
    (∃ (s : State) (p : State) (v : State) (r : PortReq) (l : List PortReq), s.portQ = r :: l ∧
      s.judgeOp (rawOp r.bytes) = none ∧ ({ s with portQ := l } : State) = p ∧ (p.opAccept ⟨uUnit (rawOp r.bytes),
      uCode (rawOp r.bytes), uLine (rawOp r.bytes), uArg (rawOp r.bytes)⟩).portResult r.src 0 = v ∧ rCode r.bytes = 8) ∧
    (∃ (s : State) (p : State) (v : State) (r : PortReq) (l : List PortReq), s.portQ = r :: l ∧
      s.judgeOp (rawOp r.bytes) = none ∧ ({ s with portQ := l } : State) = p ∧ (p.opAccept ⟨uUnit (rawOp r.bytes),
      uCode (rawOp r.bytes), uLine (rawOp r.bytes), uArg (rawOp r.bytes)⟩).portResult r.src 0 = v ∧ rCode r.bytes = 9) ∧
    (∃ (s : State) (v : State) (r : PortReq) (l : List PortReq) (e : Nat), s.portQ = r :: l ∧
      s.judgeOp (rawOp r.bytes) = some e ∧
      (({ s with portQ := l } : State).unitErr e (uUnit (rawOp r.bytes))).portResult r.src e = v ∧ rCode r.bytes = 1) ∧
    (∃ (s : State) (v : State) (r : PortReq) (l : List PortReq) (e : Nat), s.portQ = r :: l ∧
      s.judgeOp (rawOp r.bytes) = some e ∧
      (({ s with portQ := l } : State).unitErr e (uUnit (rawOp r.bytes))).portResult r.src e = v ∧ rCode r.bytes = 2) ∧
    (∃ (s : State) (v : State) (r : PortReq) (l : List PortReq) (e : Nat), s.portQ = r :: l ∧
      s.judgeOp (rawOp r.bytes) = some e ∧
      (({ s with portQ := l } : State).unitErr e (uUnit (rawOp r.bytes))).portResult r.src e = v ∧ rCode r.bytes = 3) ∧
    (∃ (s : State) (v : State) (r : PortReq) (l : List PortReq) (e : Nat), s.portQ = r :: l ∧
      s.judgeOp (rawOp r.bytes) = some e ∧
      (({ s with portQ := l } : State).unitErr e (uUnit (rawOp r.bytes))).portResult r.src e = v ∧ rCode r.bytes = 4) ∧
    (∃ (s : State) (v : State) (r : PortReq) (l : List PortReq) (e : Nat), s.portQ = r :: l ∧
      s.judgeOp (rawOp r.bytes) = some e ∧
      (({ s with portQ := l } : State).unitErr e (uUnit (rawOp r.bytes))).portResult r.src e = v ∧ rCode r.bytes = 5) ∧
    (∃ (s : State) (v : State) (r : PortReq) (l : List PortReq) (e : Nat), s.portQ = r :: l ∧
      s.judgeOp (rawOp r.bytes) = some e ∧
      (({ s with portQ := l } : State).unitErr e (uUnit (rawOp r.bytes))).portResult r.src e = v ∧ rCode r.bytes = 6) ∧
    (∃ (s : State) (v : State) (r : PortReq) (l : List PortReq) (e : Nat), s.portQ = r :: l ∧
      s.judgeOp (rawOp r.bytes) = some e ∧
      (({ s with portQ := l } : State).unitErr e (uUnit (rawOp r.bytes))).portResult r.src e = v ∧ rCode r.bytes = 7) ∧
    (∃ (s : State) (v : State) (r : PortReq) (l : List PortReq) (e : Nat), s.portQ = r :: l ∧
      s.judgeOp (rawOp r.bytes) = some e ∧
      (({ s with portQ := l } : State).unitErr e (uUnit (rawOp r.bytes))).portResult r.src e = v ∧ rCode r.bytes = 8) ∧
    (∃ (s : State) (v : State) (r : PortReq) (l : List PortReq) (e : Nat), s.portQ = r :: l ∧
      s.judgeOp (rawOp r.bytes) = some e ∧
      (({ s with portQ := l } : State).unitErr e (uUnit (rawOp r.bytes))).portResult r.src e = v ∧ rCode r.bytes = 9) ∧
    (∃ (s : State) (c : Nat), (s.portQ = [] ∨ ∃ (r : PortReq) (l : List PortReq), s.portQ = r :: l ∧ rCode r.bytes = c) ∧
      c ≠ 1) ∧
    (∃ (s : State) (c : Nat), (s.portQ = [] ∨ ∃ (r : PortReq) (l : List PortReq), s.portQ = r :: l ∧ rCode r.bytes = c) ∧
      c ≠ 2) ∧
    (∃ (s : State) (c : Nat), (s.portQ = [] ∨ ∃ (r : PortReq) (l : List PortReq), s.portQ = r :: l ∧ rCode r.bytes = c) ∧
      c ≠ 3) ∧
    (∃ (s : State) (c : Nat), (s.portQ = [] ∨ ∃ (r : PortReq) (l : List PortReq), s.portQ = r :: l ∧ rCode r.bytes = c) ∧
      c ≠ 4) ∧
    (∃ (s : State) (c : Nat), (s.portQ = [] ∨ ∃ (r : PortReq) (l : List PortReq), s.portQ = r :: l ∧ rCode r.bytes = c) ∧
      c ≠ 5) ∧
    (∃ (s : State) (c : Nat), (s.portQ = [] ∨ ∃ (r : PortReq) (l : List PortReq), s.portQ = r :: l ∧ rCode r.bytes = c) ∧
      c ≠ 6) ∧
    (∃ (s : State) (c : Nat), (s.portQ = [] ∨ ∃ (r : PortReq) (l : List PortReq), s.portQ = r :: l ∧ rCode r.bytes = c) ∧
      c ≠ 7) ∧
    (∃ (s : State) (c : Nat), (s.portQ = [] ∨ ∃ (r : PortReq) (l : List PortReq), s.portQ = r :: l ∧ rCode r.bytes = c) ∧
      c ≠ 8) ∧
    (∃ (s : State) (c : Nat), (s.portQ = [] ∨ ∃ (r : PortReq) (l : List PortReq), s.portQ = r :: l ∧ rCode r.bytes = c) ∧
      c ≠ 9) ∧
    (∃ (s : State) (r : PortReq) (l : List PortReq), s.portQ = r :: l ∧ codeReserved (rCode r.bytes) = true ∧
      0x40 ≤ rCode r.bytes ∧ rCode r.bytes < 0x80) ∧
    (∃ (s : State) (r : PortReq) (l : List PortReq), s.portQ = r :: l ∧ codeReserved (rCode r.bytes) = false) ∧
    (∃ (s : State) (r : PortReq) (l : List PortReq), s.portQ = r :: l ∧ codeReserved (rCode r.bytes) = true ∧
      (rCode r.bytes < 0x40 ∨ 0x80 ≤ rCode r.bytes)) ∧
    (∃ (s : State), s.portQ = []) ∧
    (∃ (c : Nat), c < 256) :=
  ⟨⟨(({ W with portQ := [(witReq 1)] } : State)), _, _, (witReq 1), [], by decide, by decide, rfl, rfl, by decide⟩,
    ⟨(({ W with portQ := [(witReq 2)] } : State)), _, _, (witReq 2), [], by decide, by decide, rfl, rfl, by decide⟩,
    ⟨(({ W with portQ := [(witReq 3)] } : State)), _, _, (witReq 3), [], by decide, by decide, rfl, rfl, by decide⟩,
    ⟨(({ W with portQ := [(witReq 4)] } : State)), _, _, (witReq 4), [], by decide, by decide, rfl, rfl, by decide⟩,
    ⟨(({ W with portQ := [(witReq 5)] } : State)), _, _, (witReq 5), [], by decide, by decide, rfl, rfl, by decide⟩,
    ⟨(({ W with portQ := [(witReq 6)] } : State)), _, _, (witReq 6), [], by decide, by decide, rfl, rfl, by decide⟩,
    ⟨(({ W with portQ := [(witReq 7)] } : State)), _, _, (witReq 7), [], by decide, by decide, rfl, rfl, by decide⟩,
    ⟨(({ W with portQ := [(witReq 8)] } : State)), _, _, (witReq 8), [], by decide, by decide, rfl, rfl, by decide⟩,
    ⟨(({ W with portQ := [(witReq 9)] } : State)), _, _, (witReq 9), [], by decide, by decide, rfl, rfl, by decide⟩,
    ⟨(({ W with portQ := [(witReq 1 [1#8])] } : State)), _, (witReq 1 [1#8]), [], _, by decide, rfl, rfl, by decide⟩,
    ⟨(({ W with portQ := [(witReq 2 [1#8])] } : State)), _, (witReq 2 [1#8]), [], _, by decide, rfl, rfl, by decide⟩,
    ⟨(({ W with portQ := [(witReq 3 [1#8])] } : State)), _, (witReq 3 [1#8]), [], _, by decide, rfl, rfl, by decide⟩,
    ⟨(({ W with portQ := [(witReq 4 [1#8])] } : State)), _, (witReq 4 [1#8]), [], _, by decide, rfl, rfl, by decide⟩,
    ⟨(({ W with portQ := [(witReq 5 [1#8])] } : State)), _, (witReq 5 [1#8]), [], _, by decide, rfl, rfl, by decide⟩,
    ⟨(({ W with portQ := [(witReq 6 [1#8])] } : State)), _, (witReq 6 [1#8]), [], _, by decide, rfl, rfl, by decide⟩,
    ⟨(({ W with portQ := [(witReq 7 [1#8])] } : State)), _, (witReq 7 [1#8]), [], _, by decide, rfl, rfl, by decide⟩,
    ⟨(({ W with portQ := [(witReq 8 [1#8])] } : State)), _, (witReq 8 [1#8]), [], _, by decide, rfl, rfl, by decide⟩,
    ⟨(({ W with portQ := [(witReq 9 [1#8])] } : State)), _, (witReq 9 [1#8]), [], _, by decide, rfl, rfl, by decide⟩,
    ⟨(({ W with portQ := [witReq 0x40] } : State)), 64, .inr ⟨_, _, rfl, by decide⟩, by decide⟩,
    ⟨(({ W with portQ := [witReq 0x40] } : State)), 64, .inr ⟨_, _, rfl, by decide⟩, by decide⟩,
    ⟨(({ W with portQ := [witReq 0x40] } : State)), 64, .inr ⟨_, _, rfl, by decide⟩, by decide⟩,
    ⟨(({ W with portQ := [witReq 0x40] } : State)), 64, .inr ⟨_, _, rfl, by decide⟩, by decide⟩,
    ⟨(({ W with portQ := [witReq 0x40] } : State)), 64, .inr ⟨_, _, rfl, by decide⟩, by decide⟩,
    ⟨(({ W with portQ := [witReq 0x40] } : State)), 64, .inr ⟨_, _, rfl, by decide⟩, by decide⟩,
    ⟨(({ W with portQ := [witReq 0x40] } : State)), 64, .inr ⟨_, _, rfl, by decide⟩, by decide⟩,
    ⟨(({ W with portQ := [witReq 0x40] } : State)), 64, .inr ⟨_, _, rfl, by decide⟩, by decide⟩,
    ⟨(({ W with portQ := [witReq 0x40] } : State)), 64, .inr ⟨_, _, rfl, by decide⟩, by decide⟩,
    ⟨(({ W with portQ := [witReq 0x47] } : State)), (witReq 0x47), [], by decide, by decide, by decide, by decide⟩,
    ⟨(({ W with portQ := [witReq 1] } : State)), (witReq 1), [], by decide, by decide⟩,
    ⟨(({ W with portQ := [(witReq 0)] } : State)), (witReq 0), [], by decide, by decide, by decide⟩,
    ⟨(({ W with portQ := [] } : State)), by decide⟩,
    ⟨0, by decide⟩⟩

theorem test_hyps_UnitEffectsShow :
    (∃ (h : Fin 64) (s : State), s.armed = true ∧ s.isLive h = true) ∧
    (∃ (h : Fin 64) (s : State), (s.armed = false ∨ s.isLive h = false)) ∧
    (∃ (h : Fin 64) (s : State), s.canonical ∧ s.armed = true ∧ s.isLive h = true) ∧
    (∃ (s : State) (o : UOp) (u : Nat) (line : Nat), s.armed = true ∧ s.uops = [o] ∧ o.unit = u ∧ o.line ≤ line ∧ o.code = 1) ∧
    (∃ (s : State) (o : UOp) (u : Nat) (line : Nat), s.armed = true ∧ s.uops = [o] ∧ o.unit = u ∧ o.line ≤ line ∧ o.code = 2) ∧
    (∃ (s : State) (o : UOp) (u : Nat) (line : Nat), s.armed = true ∧ s.uops = [o] ∧ o.unit = u ∧ o.line ≤ line ∧ o.code = 3) ∧
    (∃ (s : State) (o : UOp) (u : Nat) (line : Nat), s.armed = true ∧ s.uops = [o] ∧ o.unit = u ∧ o.line ≤ line ∧ o.code = 4) ∧
    (∃ (s : State) (o : UOp) (u : Nat) (line : Nat), s.armed = true ∧ s.uops = [o] ∧ o.unit = u ∧ o.line ≤ line ∧ o.code = 5) ∧
    (∃ (s : State) (o : UOp) (u : Nat) (line : Nat), s.armed = true ∧ s.uops = [o] ∧ o.unit = u ∧ o.line ≤ line ∧ o.code = 6) ∧
    (∃ (s : State) (o : UOp) (u : Nat) (line : Nat), s.armed = true ∧ s.uops = [o] ∧ o.unit = u ∧ o.line ≤ line ∧ o.code = 7) ∧
    (∃ (s : State) (o : UOp) (u : Nat) (line : Nat), s.armed = true ∧ s.uops = [o] ∧ o.unit = u ∧ o.line ≤ line ∧ o.code = 8) ∧
    (∃ (s : State) (o : UOp) (u : Nat) (line : Nat), s.armed = true ∧ s.uops = [o] ∧ o.unit = u ∧ o.line ≤ line ∧ o.code = 9) ∧
    (∃ (s : State) (u : Nat) (line : Nat), s.armed = true ∧ (∀ o ∈ s.uops, o.unit ≠ u ∨ line < o.line)) :=
  ⟨⟨0, ((W.setOn HIF_CTL_ARMED).modHead 0 (fun x => { x with live := true })), by decide, by decide⟩,
    ⟨0, (W.setFld HIF_CTL_ARMED 0), by decide⟩,
    ⟨0, ((W.setOn HIF_CTL_ARMED).modHead 0 (fun x => { x with live := true })), by unfold State.canonical; decide,
      by decide, by decide⟩,
    ⟨(({ W.setOn HIF_CTL_ARMED with uops := [⟨0, 1, 0, 0#32⟩] } : State)), ⟨0, 1, 0, 0#32⟩, 0, 0, by decide, rfl, rfl,
      by decide, by decide⟩,
    ⟨(({ W.setOn HIF_CTL_ARMED with uops := [⟨0, 2, 0, 0#32⟩] } : State)), ⟨0, 2, 0, 0#32⟩, 0, 0, by decide, rfl, rfl,
      by decide, by decide⟩,
    ⟨(({ W.setOn HIF_CTL_ARMED with uops := [⟨0, 3, 0, 0#32⟩] } : State)), ⟨0, 3, 0, 0#32⟩, 0, 0, by decide, rfl, rfl,
      by decide, by decide⟩,
    ⟨(({ W.setOn HIF_CTL_ARMED with uops := [⟨0, 4, 0, 0#32⟩] } : State)), ⟨0, 4, 0, 0#32⟩, 0, 0, by decide, rfl, rfl,
      by decide, by decide⟩,
    ⟨(({ W.setOn HIF_CTL_ARMED with uops := [⟨0, 5, 0, 0#32⟩] } : State)), ⟨0, 5, 0, 0#32⟩, 0, 0, by decide, rfl, rfl,
      by decide, by decide⟩,
    ⟨(({ W.setOn HIF_CTL_ARMED with uops := [⟨0, 6, 0, 0#32⟩] } : State)), ⟨0, 6, 0, 0#32⟩, 0, 0, by decide, rfl, rfl,
      by decide, by decide⟩,
    ⟨(({ W.setOn HIF_CTL_ARMED with uops := [⟨0, 7, 0, 0#32⟩] } : State)), ⟨0, 7, 0, 0#32⟩, 0, 0, by decide, rfl, rfl,
      by decide, by decide⟩,
    ⟨(({ W.setOn HIF_CTL_ARMED with uops := [⟨0, 8, 0, 0#32⟩] } : State)), ⟨0, 8, 0, 0#32⟩, 0, 0, by decide, rfl, rfl,
      by decide, by decide⟩,
    ⟨(({ W.setOn HIF_CTL_ARMED with uops := [⟨0, 9, 0, 0#32⟩] } : State)), ⟨0, 9, 0, 0#32⟩, 0, 0, by decide, rfl, rfl,
      by decide, by decide⟩,
    ⟨(W.setOn HIF_CTL_ARMED), 0, 0, by decide, by decide⟩⟩

theorem test_hyps_TableRecordsRun :
    (∃ (s : State) (u : State) (v : State) (r : PortReq) (l : List PortReq), s.portQ = r :: l ∧ r.waits = false ∧
      s.settleBase r = u ∧ u.judge r = .accept ∧ ((u.portPop).carry r).portResult r.src 0 = v ∧ rCode r.bytes = 0x40) ∧
    (∃ (s : State) (u : State) (v : State) (r : PortReq) (l : List PortReq), s.portQ = r :: l ∧ r.waits = false ∧
      s.settleBase r = u ∧ u.judge r = .accept ∧ ((u.portPop).carry r).portResult r.src 0 = v ∧ rCode r.bytes = 0x41) ∧
    (∃ (s : State) (u : State) (v : State) (r : PortReq) (l : List PortReq), s.portQ = r :: l ∧ r.waits = false ∧
      s.settleBase r = u ∧ u.judge r = .accept ∧ ((u.portPop).carry r).portResult r.src 0 = v ∧ rCode r.bytes = 0x44) ∧
    (∃ (s : State) (u : State) (v : State) (r : PortReq) (l : List PortReq), s.portQ = r :: l ∧ r.waits = false ∧
      s.settleBase r = u ∧ u.judge r = .accept ∧ ((u.portPop).carry r).portResult r.src 0 = v ∧ rCode r.bytes = 0x45) ∧
    (∃ (s : State) (u : State) (v : State) (r : PortReq) (l : List PortReq), s.portQ = r :: l ∧ r.waits = false ∧
      s.settleBase r = u ∧ u.judge r = .accept ∧ ((u.portPop).carry r).portResult r.src 0 = v ∧ rCode r.bytes = 0x46) ∧
    (∃ (s : State) (u : State) (v : State) (r : PortReq) (l : List PortReq) (e : Nat) (x : Nat), s.portQ = r :: l ∧
      r.waits = false ∧ s.settleBase r = u ∧ u.judge r = .refuse e x ∧ (u.portPop).portRefuse r e x = v ∧ rCode r.bytes = 0x40) ∧
    (∃ (s : State) (u : State) (v : State) (r : PortReq) (l : List PortReq) (e : Nat) (x : Nat), s.portQ = r :: l ∧
      r.waits = false ∧ s.settleBase r = u ∧ u.judge r = .refuse e x ∧ (u.portPop).portRefuse r e x = v ∧ rCode r.bytes = 0x41) ∧
    (∃ (s : State) (u : State) (v : State) (r : PortReq) (l : List PortReq) (e : Nat) (x : Nat), s.portQ = r :: l ∧
      r.waits = false ∧ s.settleBase r = u ∧ u.judge r = .refuse e x ∧ (u.portPop).portRefuse r e x = v ∧ rCode r.bytes = 0x44) ∧
    (∃ (s : State) (u : State) (v : State) (r : PortReq) (l : List PortReq) (e : Nat) (x : Nat), s.portQ = r :: l ∧
      r.waits = false ∧ s.settleBase r = u ∧ u.judge r = .refuse e x ∧ (u.portPop).portRefuse r e x = v ∧ rCode r.bytes = 0x45) ∧
    (∃ (s : State) (u : State) (v : State) (r : PortReq) (l : List PortReq) (e : Nat) (x : Nat), s.portQ = r :: l ∧
      r.waits = false ∧ s.settleBase r = u ∧ u.judge r = .refuse e x ∧ (u.portPop).portRefuse r e x = v ∧ rCode r.bytes = 0x46) ∧
    (∃ (s : State) (u : State) (v : State) (r : PortReq) (l : List PortReq) (n : Nat), s.portQ = r :: l ∧ r.waits = false ∧
      s.settleBase r = u ∧ u.judge r = .wait n ∧
      ({ u with portQ := { r with waits := true } :: u.portQ.tail } : State).count KLN_BLENDST_WAITS n = v ∧
      rCode r.bytes = 0x40) ∧
    (∃ (s : State) (u : State) (v : State) (r : PortReq) (l : List PortReq) (n : Nat), s.portQ = r :: l ∧ r.waits = false ∧
      s.settleBase r = u ∧ u.judge r = .wait n ∧
      ({ u with portQ := { r with waits := true } :: u.portQ.tail } : State).count KLN_BLENDST_WAITS n = v ∧
      rCode r.bytes = 0x41) ∧
    (∃ (s : State) (u : State) (v : State) (r : PortReq) (l : List PortReq) (n : Nat), s.portQ = r :: l ∧ r.waits = false ∧
      s.settleBase r = u ∧ u.judge r = .wait n ∧
      ({ u with portQ := { r with waits := true } :: u.portQ.tail } : State).count KLN_BLENDST_WAITS n = v ∧
      rCode r.bytes = 0x44) ∧
    (∃ (s : State) (u : State) (r : PortReq) (l : List PortReq), s.portQ = r :: l ∧ r.waits = true ∧ s.settleBase r = u ∧
      u.judge r = .accept) ∧
    (∃ (s : State) (u : State) (r : PortReq) (l : List PortReq) (e : Nat) (x : Nat), s.portQ = r :: l ∧ r.waits = true ∧
      s.settleBase r = u ∧ u.judge r = .refuse e x) ∧
    (∃ (s : State) (r : PortReq) (l : List PortReq), s.portQ = r :: l ∧ r.waits = false) ∧
    (∃ (s : State) (r : PortReq) (e : Nat) (x : Nat), (r.src = .bar0 ∨ r.src = .reload)) ∧
    (∃ (c : Instr) (s : State) (m : State) (r : PortReq) (l : List PortReq), s.canonical ∧ s.armed = false ∧
      s.portQ = r :: l ∧ (r.src = .bar0 ∨ ∃ st c, r.src = .stream st c) ∧ s.portPop.mergeCommit = m ∧ r.expect = none ∧
      r.ash = false ∧ (c = .entries ∧ r.waits = false ∨ c = .tablePortWaitEnd ∧ r.waits = true) ∧ rCode r.bytes = 0x40 ∧
      byteOf r.bytes 1 = 0 ∧ byteOf r.bytes 2 = 0 ∧ byteOf r.bytes 3 = 0 ∧ fieldOf r.bytes 14 2 = 0 ∧ 0 < rCount r.bytes ∧
      rIndex r.bytes + rCount r.bytes ≤ 131072 ∧ r.bytes.length = 16 + 16 * ceilDiv (rCount r.bytes) 2 ∧
      (rCount r.bytes % 2 = 1 → fieldOf r.bytes (16 + 8 * rCount r.bytes) 8 = 0) ∧ (∀ j,
      j < rCount r.bytes → eReserved (BitVec.ofNat 64 (fieldOf r.bytes (16 + 8 * j) 8)) = 0)) ∧
    (∃ (s : State) (u : State) (m : State) (r : PortReq) (l : List PortReq) (n : Nat) (v : BitVec 64), s.canonical ∧
      s.portQ = r :: l ∧ (r.src = .bar0 ∨ ∃ st c, r.src = .stream st c) ∧ r.ash = false ∧ r.waits = false ∧
      rCode r.bytes = 0x41 ∧ s.settleBase r = u ∧ u.judge r = .accept ∧ u.portPop = m ∧ rIndex r.bytes = n ∧
      (u.ent n).last.out.2 = false ∧
      ((u.ent n).last.out.1 &&& ~~~(BitVec.ofNat 64 (fieldOf r.bytes 24 8))) ||| (BitVec.ofNat 64 (fieldOf r.bytes 16 8) &&& BitVec.ofNat 64 (fieldOf r.bytes 24 8)) = v) ∧
    (∃ (c : Instr) (s : State) (m : State) (r : PortReq) (l : List PortReq) (q : Nat), s.canonical ∧ s.portQ = r :: l ∧
      (r.src = .bar0 ∨ ∃ st c, r.src = .stream st c) ∧ (c = .curve ∧ r.waits = false ∨ c = .tablePortWaitEnd ∧
      r.waits = true) ∧ rCode r.bytes = 0x44 ∧ s.judge r = .accept ∧ s.portPop.mergeCommit = m ∧ byteOf r.bytes 2 = q) ∧
    (∃ (s : State) (m : State) (r : PortReq) (l : List PortReq) (k : Nat), s.canonical ∧ s.portQ = r :: l ∧
      (r.src = .bar0 ∨ ∃ st c, r.src = .stream st c) ∧ r.waits = false ∧ rCode r.bytes = 0x45 ∧ s.judge r = .accept ∧
      s.portPop.mergeCommit = m ∧ byteOf r.bytes 2 = k ∧ rCount r.bytes = 1) ∧
    (∃ (s : State) (m : State) (r : PortReq) (l : List PortReq), s.canonical ∧ s.portQ = r :: l ∧ (r.src = .bar0 ∨ ∃ st c,
      r.src = .stream st c) ∧ r.waits = false ∧ rCode r.bytes = 0x46 ∧ s.judge r = .accept ∧ s.portPop.mergeCommit = m ∧
      byteOf r.bytes 3 < 4) ∧
    (∃ (c : Instr) (s : State) (m : State) (r : PortReq) (l : List PortReq) (j : Nat), s.canonical ∧ s.portQ = r :: l ∧
      s.armed = true ∧ (r.src = .bar0 ∨ ∃ st c, r.src = .stream st c) ∧ r.ash = false ∧ (c = .entries ∧
      r.waits = false ∨ c = .tablePortWaitEnd ∧ r.waits = true) ∧ rCode r.bytes = 0x40 ∧ s.judge r = .accept ∧
      s.portPop.mergeCommit = m ∧ j < rCount r.bytes) :=
  ⟨⟨(({ W with portQ := [(witReq 0x40 witOne 32)] } : State)), _, _, (witReq 0x40 witOne 32), [], by decide, by decide,
      rfl, by decide, rfl, by decide⟩,
    ⟨(({ W with portQ := [(witReq 0x41 [] 32)] } : State)), _, _, (witReq 0x41 [] 32), [], by decide, by decide, rfl,
      by decide, rfl, by decide⟩,
    ⟨(({ W with portQ := [(witReq 0x44 [] 528)] } : State)), _, _, (witReq 0x44 [] 528), [], by decide, by decide, rfl,
      by decide, rfl, by decide⟩,
    ⟨(({ W with portQ := [(witReq 0x45 witOne 784)] } : State)), _, _, (witReq 0x45 witOne 784), [], by decide, by decide,
      rfl, by decide, rfl, by decide⟩,
    ⟨(({ W with portQ := [(witReq 0x46)] } : State)), _, _, (witReq 0x46), [], by decide, by decide, rfl, by decide, rfl,
      by decide⟩,
    ⟨(({ W with portQ := [(witReq 0x40 [1#8])] } : State)), _, _, (witReq 0x40 [1#8]), [], _, _, by decide, by decide, rfl,
      rfl, rfl, by decide⟩,
    ⟨(({ W with portQ := [(witReq 0x41 [1#8])] } : State)), _, _, (witReq 0x41 [1#8]), [], _, _, by decide, by decide, rfl,
      rfl, rfl, by decide⟩,
    ⟨(({ W with portQ := [(witReq 0x44 [1#8])] } : State)), _, _, (witReq 0x44 [1#8]), [], _, _, by decide, by decide, rfl,
      rfl, rfl, by decide⟩,
    ⟨(({ W with portQ := [(witReq 0x45 [1#8])] } : State)), _, _, (witReq 0x45 [1#8]), [], _, _, by decide, by decide, rfl,
      rfl, rfl, by decide⟩,
    ⟨(({ W with portQ := [(witReq 0x46 [1#8])] } : State)), _, _, (witReq 0x46 [1#8]), [], _, _, by decide, by decide, rfl,
      rfl, rfl, by decide⟩,
    ⟨(witGroups (({ W with portQ := [(witReq 0x40 (witOne ++ List.replicate 3 0#8 ++ [5#8]) 32)] } : State))), _, _,
      (witReq 0x40 (witOne ++ List.replicate 3 0#8 ++ [5#8]) 32), [], _, by decide, by decide, rfl, rfl, rfl, by decide⟩,
    ⟨(witGroups (({ W with portQ := [(witReq 0x41 (List.replicate 15 0#8 ++ [5#8, 0#8, 0#8, 0#8, 0#8, 0#8, 0#8, 0#8, 255#8]) 32)] } : State))),
      _, _, (witReq 0x41 (List.replicate 15 0#8 ++ [5#8, 0#8, 0#8, 0#8, 0#8, 0#8, 0#8, 0#8, 255#8]) 32), [], _, by decide,
      by decide, rfl, rfl, rfl, by decide⟩,
    ⟨((witJob (({ W with portQ := [(witReq 0x44 [] 528)] } : State))).setCurve 0 { W.curve 0 with pend := some (9, [0]) }),
      _, _, (witReq 0x44 [] 528), [], _, by decide, by decide, rfl, rfl, rfl, by decide⟩,
    ⟨(({ W with portQ := [{ witReq 0x46 with waits := true }] } : State)), _,
      ({ witReq 0x46 with waits := true } : PortReq), [], by decide, by decide, rfl, by decide⟩,
    ⟨(({ W with portQ := [{ witReq 0x46 [1#8] with waits := true }] } : State)), _,
      ({ witReq 0x46 [1#8] with waits := true } : PortReq), [], _, _, by decide, by decide, rfl, rfl⟩,
    ⟨(({ W with portQ := [(witReq 0)] } : State)), (witReq 0), [], by decide, by decide⟩,
    ⟨(W), (witReq 0x40), 0, 0, by decide⟩,
    ⟨.entries, (({ W with portQ := [(witReq 0x40 witOne 32)] } : State)), _, (witReq 0x40 witOne 32), [],
      by unfold State.canonical; decide, by decide, rfl, .inl rfl, rfl, by decide, by decide, .inl ⟨rfl, rfl⟩, by decide,
      by decide, by decide, by decide, by decide, by decide, by decide, by decide, by decide, by decide⟩,
    ⟨(({ W with portQ := [(witReq 0x41 [] 32)] } : State)), _, _, (witReq 0x41 [] 32), [], _, _,
      by unfold State.canonical; decide, rfl, .inl rfl, by decide, by decide, by decide, rfl, by decide, rfl, rfl, by decide,
      rfl⟩,
    ⟨.curve, (({ W with portQ := [(witReq 0x44 [] 528)] } : State)), _, (witReq 0x44 [] 528), [], 0,
      by unfold State.canonical; decide, rfl, .inl rfl, .inl ⟨rfl, rfl⟩, by decide, by decide +kernel, rfl, rfl⟩,
    ⟨(({ W with portQ := [(witReq 0x45 witOne 784)] } : State)), _, (witReq 0x45 witOne 784), [], 0,
      by unfold State.canonical; decide, rfl, .inl rfl, by decide, by decide, by decide, rfl, rfl, by decide⟩,
    ⟨(({ W with portQ := [(witReq 0x46)] } : State)), _, (witReq 0x46), [], by unfold State.canonical; decide, rfl,
      .inl rfl, by decide, by decide, by decide, rfl, by decide⟩,
    ⟨.entries, (({ witJob W with portQ := [witReq 0x40 (witOne ++ List.replicate 3 0#8 ++ [5#8]) 32] } : State)), _,
      (witReq 0x40 (witOne ++ List.replicate 3 0#8 ++ [5#8]) 32), [], 0, by unfold State.canonical; decide, rfl, by decide,
      .inl rfl, by decide, .inl ⟨rfl, rfl⟩, by decide, by decide, rfl, by decide⟩⟩

theorem test_hyps_TableWindowsRun :
    (∃ (t : Nat) (a : BitVec 20) (len : Fin 5) (v : BitVec 32) (s : State) (u : State), s.advance t = u ∧ u.barOk 3 = true ∧
      a.toNat % 4 + len.val ≤ 4 ∧ a.toNat < 0xC8000) ∧
    (∃ (t : Nat) (s : State) (u : State) (l : Narrow), s.advance t = u ∧ u.tabs.latch = some l) ∧
    (∃ (k : BitVec 18) (s : State), s.barOk 3 = true ∧ ¬ (k.toNat < 131072 ∧ eState (s.mapWord k.toNat) ≠ 3 ∧
      eCol (s.mapWord k.toNat) < s.ncol)) ∧
    (∃ (s : State), s.barOk 3 = true) ∧
    (∃ (s : State), s.tabs.scan = true) ∧
    (∃ (t : Nat) (a : BitVec 20) (len : Fin 5) (v : BitVec 32) (s : State) (u : State), s.canonical ∧ s.advance t = u ∧
      u.barOk 3 = true ∧ 1 ≤ len.val ∧ a.toNat % 4 + len.val ≤ 4 ∧ u.armed = false ∧ u.mergeBuf memSRAM = none ∧
      a.toNat < 0xC8000) ∧
    (∃ (t : Nat) (a : BitVec 20) (len : Fin 5) (v : BitVec 32) (s : State) (u : State), s.advance t = u ∧ u.barOk 3 = true ∧
      1 ≤ len.val ∧ a.toNat % 8 + len.val ≤ 4 ∧ u.armed = true ∧ u.tabs.latch = none) ∧
    (∃ (t : Nat) (s : State) (u : State) (l : Narrow), s.canonical ∧ s.advance t = u ∧ u.tabs.latch = some l ∧
      l.at_ + 1600 ≤ u.clk) :=
  ⟨⟨0, 0#20, 0, 0#32, (W), _, rfl, by decide, by decide, by decide⟩,
    ⟨0, ((W).setTabs { W.tabs with latch := some ⟨0, 1, 0, 0⟩ }), _, ⟨0, 1, 0, 0⟩, rfl, rfl⟩,
    ⟨0#18, (W), by decide, by decide⟩,
    ⟨(W), by decide⟩,
    ⟨(W.setTabs { W.tabs with scan := true }), by decide⟩,
    ⟨0, 0#20, 1, 0#32, (W.setFld HIF_CTL_ARMED 0), _, by unfold State.canonical; decide, rfl, by decide, by decide,
      by decide, by decide, by decide, by decide⟩,
    ⟨0, 0#20, 1, 0#32, (W.setOn HIF_CTL_ARMED), _, rfl, by decide, by decide, by decide, by decide, by decide⟩,
    ⟨0, (W.setTabs { W.tabs with latch := some ⟨0, 1, 0, 0⟩ }), _, ⟨0, 1, 0, 0⟩, by unfold State.canonical; decide, rfl,
      by decide, by decide⟩⟩

theorem test_hyps_StokerAndKilnRun :
    (∃ (h : Fin 64) (s : State), s.armed = true ∧ s.fld PWR_STAT_STATE = 0 ∧ s.on FIR_STATE_NOORG = false ∧
      s.isLive h = true ∧ (s.head h).next ≤ (s.head h).tileTo ∧ (s.head h).tileTo < (s.head h).next + 128 ∧
      (s.head h).before (s.head h).tileTo = true ∧ s.enAt h (s.head h).tileTo = false) ∧
    (∃ (h : Fin 64) (s : State) (st : Nat) (q : Nat) (y : Nat) (x : Bool × State), s.armed = true ∧
      s.fld PWR_STAT_STATE = 0 ∧ s.on FIR_STATE_NOORG = false ∧ s.isLive h = true ∧ (s.head h).next ≤ (s.head h).tileTo ∧
      (s.head h).tileTo < (s.head h).next + 128 ∧ (s.head h).before (s.head h).tileTo = true ∧
      s.enAt h (s.head h).tileTo = true ∧ s.streamOf h = some st ∧ (s.strm st).kindAt (s.head h).tileTo = .band q ∧
      (s.band q).ready = true ∧
      (s.rowsFor (s.band q) (s.head h).tileTo).find? (fun y => ((s.head h).row q y).isNone) = some y ∧
      (s.head h).tile.length < 64 ∧ State.stokerRows h q (s.decodeRows h q y) s = x) ∧
    (∃ (h : Nat) (q : Nat) (y : Nat) (ys : List Nat) (s : State) (u : State),
      (s.storeUse 0 (ceilDiv ((s.band q).rows[y]?.getD []).length 64)).deviceReads (fun i => s.ringPart (s.band q).stream i) (fun e => .row q y (e % max 1 (ceilDiv ((s.band q).rows[y]?.getD []).length 8))) = u ∧
      (s.band q).refet.contains y = true) ∧
    (∃ (h : Nat) (q : Nat) (y : Nat) (ys : List Nat) (s : State) (u : State),
      (s.storeUse 0 (ceilDiv ((s.band q).rows[y]?.getD []).length 64)).deviceReads (fun i => s.ringPart (s.band q).stream i) (fun e => .row q y (e % max 1 (ceilDiv ((s.band q).rows[y]?.getD []).length 8))) = u ∧
      (s.band q).refet.contains y = false ∧ (u.band q).mustRefetch y = true) ∧
    (∃ (h : Nat) (q : Nat) (y : Nat) (ys : List Nat) (s : State) (u : State),
      (s.storeUse 0 (ceilDiv ((s.band q).rows[y]?.getD []).length 64)).deviceReads (fun i => s.ringPart (s.band q).stream i) (fun e => .row q y (e % max 1 (ceilDiv ((s.band q).rows[y]?.getD []).length 8))) = u ∧
      (s.band q).refet.contains y = false ∧ (u.band q).mustRefetch y = false) ∧
    (∃ (h : Fin 64) (s : State), (s.head h).next ≤ (s.head h).tileTo ∧
      (s.armed = false ∨ s.fld PWR_STAT_STATE ≠ 0 ∨ s.on FIR_STATE_NOORG = true ∨ s.isLive h = false ∨ (s.head h).next + 128 ≤ (s.head h).tileTo)) ∧
    (∃ (q : Nat) (y : Nat) (data : List (BitVec 9)) (s : State) (u : State),
      (s.band q).asked.any (fun a => a.1 == y) = true ∧ mAny data = false ∧
      data.length = ((s.band q).rows[y]?.getD []).length ∧ fmtTurf (s.band q).fmt = false ∧
      s.storesBand (s.band q).stream (ceilDiv data.length 64) = u) ∧
    (∃ (q : Nat) (y : Nat) (data : List (BitVec 9)) (s : State) (u : State),
      (s.band q).asked.any (fun a => a.1 == y) = true ∧ s.readFailed true = u) ∧
    (∃ (q : Nat) (y : Nat) (ok : Bool) (data : List (BitVec 9)) (s : State), (s.band q).asked.any (fun a => a.1 == y) = false) ∧
    (∃ (s : State) (p : Nat) (l : Nat), s.screenNext = some (p, l)) ∧
    (∃ (s : State), s.screenNext = none) ∧
    (∃ (s : State), s.barOk 3 = true) ∧
    (∃ (s : State) (p : Nat) (l : Nat), s.canonical ∧ s.screenNext = some (p, l)) :=
  ⟨⟨0,
      ((((W.setOn HIF_CTL_ARMED).setFld PWR_STAT_STATE 0).setFld FIR_STATE_NOORG 0).modHead 0 (fun x => { x with live := true })),
      by decide, by decide, by decide, by decide, by decide, by decide, by decide, by decide⟩,
    ⟨0, (({ witEn W with bands := [(1, witBand)] } : State).modStrm 0 (fun x => { x with cover := [⟨0, 4, .band 1⟩] })), 0,
      1, 0, _, by decide, by decide, by decide, by decide, by decide, by decide, by decide, by decide, rfl, by decide,
      by decide, rfl, by decide, rfl⟩,
    ⟨0, 1, 0, [], (({ W with bands := [(1, { witBand with refet := [0] })] } : State)), _, rfl, by decide⟩,
    ⟨0, 1, 0, [],
      (({ W with bands := [(1, { witBand with rows := List.replicate 4 (List.replicate 64 0x105#9) })] } : State)), _, rfl,
      by decide, by decide⟩,
    ⟨0, 0, 0, [], (W), _, rfl, by decide, by decide⟩,
    ⟨0, (W.setFld HIF_CTL_ARMED 0), by decide, by decide⟩,
    ⟨1, 0, (List.replicate 64 5#9), (({ W with bands := [(1, { witBand with asked := [(0, 0, 64)] })] } : State)), _,
      by decide, by decide, by decide, by decide, rfl⟩,
    ⟨1, 0, [], (({ W with bands := [(1, { witBand with asked := [(0, 0, 64)] })] } : State)), _, by decide, rfl⟩,
    ⟨0, 0, false, [], (witEn W), by decide⟩,
    ⟨(witEn W), 0, 0, by decide⟩,
    ⟨(W), by decide⟩,
    ⟨(W), by decide⟩,
    ⟨(witEn W), 0, 0, by unfold State.canonical; decide, by decide⟩⟩

theorem test_hyps_FiringRuns :
    (∃ (t : Nat) (h : Fin 64) (s : State) (u : State) (l : Nat) (i : Nat) (r : List (Nat × Nat)), s.advance t = u ∧
      (u.head h).placed = (l, i) :: r ∧ (u.head h).live = true ∧ u.firingOn = true ∧ u.on POS_STATE_TRUST = true ∧
      u.on POS_STATE_REVERSED = false ∧ l = (u.head h).next ∧ i ≤ u.clk ∧ (u.head h).before l = true ∧ u.follows h l = false ∧
      u.enAt h l = true ∧ u.drives h = true ∧ u.heldAt h l = false ∧ u.latched h l i = true ∧ (u.head h).urline ≠ some l) ∧
    (∃ (t : Nat) (h : Fin 64) (s : State) (u : State) (l : Nat) (i : Nat) (r : List (Nat × Nat)), s.advance t = u ∧
      (u.head h).placed = (l, i) :: r ∧ (u.head h).live = true ∧ u.firingOn = true ∧ u.on POS_STATE_TRUST = true ∧
      u.on POS_STATE_REVERSED = false ∧ l = (u.head h).next ∧ i ≤ u.clk ∧ (u.head h).before l = true ∧ u.follows h l = false ∧
      (u.enAt h l = false ∨ u.drives h = false ∨ u.heldAt h l = true)) ∧
    (∃ (t : Nat) (h : Fin 64) (s : State) (u : State) (l : Nat) (i : Nat) (r : List (Nat × Nat)), s.advance t = u ∧
      (u.head h).placed = (l, i) :: r ∧ (u.head h).live = true ∧ u.firingOn = true ∧ u.on POS_STATE_TRUST = true ∧
      u.on POS_STATE_REVERSED = false ∧ l = (u.head h).next ∧ i ≤ u.clk ∧ (u.head h).before l = true ∧ u.follows h l = false ∧
      u.enAt h l = true ∧ u.drives h = true ∧ u.heldAt h l = false ∧ (u.latched h l i = false ∨ (u.head h).urline = some l)) ∧
    (∃ (t : Nat) (h : Fin 64) (s : State) (u : State), s.advance t = u ∧ (u.head h).placed = []) ∧
    (∃ (t : Nat) (h : Fin 64) (s : State) (u : State) (l : Nat) (i : Nat), s.advance t = u ∧ l = (u.head h).next ∧
      (u.head h).instOf l = some i ∧ (u.head h).live = true ∧ u.firingOn = true ∧ (u.head h).before l = true ∧
      u.inPass l = true ∧ u.enAt h l = true ∧
      i ≤ u.clk + (u.fld (HPT_TIME_LATSU h) + u.fld (HPT_TIME_LATW h) + u.burstClk h + 8)) ∧
    (∃ (t : Nat) (h : Fin 64) (s : State) (u : State) (l : Nat) (i : Nat) (r : List (Nat × Nat)), s.advance t = u ∧
      (u.head h).delay = (l, i) :: r ∧ u.firingOn = true ∧ u.enAt h l = true ∧ u.drives h = true ∧ u.heldAt h l = false ∧
      u.delayFits h l i = true ∧
      (u.on POS_STATE_TRUST = false ∨ u.on POS_STATE_REVERSED = true ∨ u.latched h l u.clk = false ∨ u.clk < i)) ∧
    (∃ (t : Nat) (h : Fin 64) (s : State) (u : State) (l : Nat) (i : Nat) (r : List (Nat × Nat)), s.advance t = u ∧
      (u.head h).delay = (l, i) :: r ∧ u.firingOn = true ∧ u.enAt h l = true ∧ u.drives h = true ∧ u.heldAt h l = false ∧
      u.delayFits h l i = true ∧ u.on POS_STATE_TRUST = true ∧ u.on POS_STATE_REVERSED = false ∧ u.latched h l u.clk = true ∧
      i ≤ u.clk) ∧
    (∃ (t : Nat) (h : Fin 64) (s : State) (u : State) (l : Nat) (i : Nat) (r : List (Nat × Nat)), s.advance t = u ∧
      (u.head h).delay = (l, i) :: r ∧ u.firingOn = true ∧ u.enAt h l = true ∧ u.drives h = true ∧ u.heldAt h l = false ∧
      u.delayFits h l i = false) ∧
    (∃ (t : Nat) (h : Fin 64) (s : State) (u : State), s.advance t = u ∧ (u.head h).delay = []) :=
  ⟨⟨0, 0, ((witEn W).modHead 0 (fun x => { x with placed := [(0, 1000000)], lat := some (0, 0) })), _, 0, 1000000, [], rfl,
      by decide, by decide, by decide, by decide, by decide, by decide, by decide, by decide, by decide, by decide, by decide,
      by decide, by decide, by decide⟩,
    ⟨0, 0,
      ((((((W.modHead 0 (fun x => { x with placed := (0, 0) :: ([]) })).modHead 0 (fun x => { x with live := true })).setOn HIF_CTL_ARMED).setFld FIR_STATE_NOORG 0).setOn POS_STATE_TRUST).setFld POS_STATE_REVERSED 0),
      _, 0, 0, [], rfl, by decide, by decide, by decide, by decide, by decide, by decide, by decide, by decide, by decide,
      by decide⟩,
    ⟨0, 0, ((witEn W).modHead 0 (fun x => { x with placed := [(0, 1000000)] })), _, 0, 1000000, [], rfl, by decide,
      by decide, by decide, by decide, by decide, by decide, by decide, by decide, by decide, by decide, by decide, by decide,
      .inl (by decide)⟩,
    ⟨0, 0, (W.modHead 0 (fun x => { x with placed := [] })), _, rfl, by decide⟩,
    ⟨0, 0, ((witEn W).modHead 0 (fun x => { x with placed := [(0, 5)] })), _, 0, 5, rfl, by decide, rfl, by decide,
      by decide, by decide, by decide, by decide, by decide⟩,
    ⟨0, 0,
      (((witEn W).modHead 0 (fun x => { x with delay := [(0, 1000000000)], lat := some (0, 0) })).setFld POS_STATE_TRUST 0),
      _, 0, 1000000000, [], rfl, by decide, by decide, by decide, by decide, by decide, by decide, .inl (by decide)⟩,
    ⟨0, 0, ((witEn W).modHead 0 (fun x => { x with delay := [(0, 1000000000)], lat := some (0, 0) })), _, 0, 1000000000, [],
      rfl, by decide, by decide, by decide, by decide, by decide, by decide, by decide, by decide, by decide, by decide⟩,
    ⟨0, 0, ((witEn W).modHead 0 (fun x => { x with delay := [(0, 0)], lat := some (0, 0) })), _, 0, 0, [], rfl, by decide,
      by decide, by decide, by decide, by decide, by decide⟩,
    ⟨0, 0, (W.modHead 0 (fun x => { x with delay := [] })), _, rfl, by decide⟩⟩

theorem test_hyps_BurstsRun :
    (∃ (t : Nat) (h : Fin 64) (ash : BitVec 64) (s : State) (u : State) (w : State) (g : Staged) (r : Staged × List Nat × State) (image : List Byte),
      s.advance t = u ∧ u.fld (HPT_CTL_MODE h) ≠ 3 ∧
      (u.head h).stag.find? (fun g => decide ((u.head h).bnext ≤ g.line)) = some g ∧ u.burstDue h g.line = true ∧
      (countUp (u.head h).bnext (g.line - (u.head h).bnext)).all (fun k => !u.enAt h k) = true ∧
      (if u.heldAt h g.line = true then (g, [], u) else u.mergeCommit.stagRead g ash.toNat) = r ∧
      r.2.1.foldl (fun s _ => s.ashUsed) r.2.2 = w ∧
      (if w.heldAt h g.line = true then zeroImage else maskWords (r.2.1.foldl (fun n i => n ||| 2 ^ i) 0) 64 r.1.image) = image) ∧
    (∃ (s : State) (g : Staged), g.flaws = []) ∧
    (∃ (t : Nat) (h : Fin 64) (ash : BitVec 64) (s : State) (u : State), s.advance t = u ∧ u.fld (HPT_CTL_MODE h) ≠ 3 ∧
      (u.head h).stag.find? (fun g => decide ((u.head h).bnext ≤ g.line)) = none) ∧
    (∃ (t : Nat) (h : Fin 64) (ash : BitVec 64) (s : State) (u : State), s.advance t = u ∧ u.fld (HPT_CTL_MODE h) = 3 ∧
      (u.head h).train = none) ∧
    (∃ (t : Nat) (h : Fin 64) (ash : BitVec 64) (s : State) (u : State) (tr : Train) (e : Nat), s.advance t = u ∧
      u.fld (HPT_CTL_MODE h) = 3 ∧ (u.head h).train = some tr ∧ u.portsRun = true ∧ (u.head h).ret = none ∧
      u.gapPast h = true ∧ (∀ l z, (u.head h).lat = some (l, z) → z ≤ u.clk) ∧ u.clk + u.burstClk h = e) ∧
    (∃ (t : Nat) (h : Fin 64) (s : State) (u : State) (l : Nat) (e : Nat), s.advance t = u ∧ (u.head h).burst = some (l, e) ∧
      u.drives h = true ∧ u.portsRun = true ∧ e + 8 ≤ u.clk ∧ (∀ i,
      (u.head h).instBefore l = some i → i + u.fld (HPT_FIRE_FHOLD h) ≤ u.clk)) ∧
    (∃ (t : Nat) (h : Fin 64) (s : State) (u : State), s.advance t = u ∧ (u.head h).burst = none) ∧
    (∃ (t : Nat) (h : Fin 64) (s : State) (u : State), s.advance t = u ∧ (u.head h).flush = true ∧ u.drives h = true ∧
      u.portsRun = true ∧ (u.head h).burst = none ∧ u.gapPast h = true ∧ (∀ i,
      (u.head h).fireAt = some i → i + u.fld (HPT_TIME_SHDLY h) ≤ u.clk)) ∧
    (∃ (t : Nat) (h : Fin 64) (s : State) (u : State), s.advance t = u ∧ (u.head h).flush = false) :=
  ⟨⟨0, 0, 0#64, ((witEn W).modHead 0 (fun x => { x with stag := [⟨0, [], 0#32, []⟩] })), _, _, ⟨0, [], 0#32, []⟩, _, _,
      rfl, by decide, rfl, by decide, by decide, rfl, rfl, rfl⟩,
    ⟨(W), ⟨0, [], 0#32, []⟩, by decide⟩,
    ⟨0, 0, 0#64, (W.setFld (HPT_CTL_MODE 0) 0), _, rfl, by decide, by decide⟩,
    ⟨0, 0, 0#64, ((W.setFld (HPT_CTL_MODE 0) 3).modHead 0 (fun x => { x with train := none })), _, rfl, by decide,
      by decide⟩,
    ⟨0, 0, 0#64,
      ((W.setFld (HPT_CTL_MODE 0) 3).modHead 0 (fun x => { x with train := some ⟨1, 0, 0, true, 0, 0, false, false, false, [], 0⟩ })),
      _, ⟨1, 0, 0, true, 0, 0, false, false, false, [], 0⟩, _, rfl, by decide, by decide, by decide, by decide, by decide,
      (fun _ _ h => by cases (show (none : Option (Nat × Nat)) = some _ from h)), rfl⟩,
    ⟨0, 0, ((W.modHead 0 (fun x => { x with burst := some (0, 0) })).setFld (HPT_CTL_MODE 0) 1), _, 0, 0, rfl, by decide,
      by decide, by decide, by decide, by decide⟩,
    ⟨0, 0, (W.modHead 0 (fun x => { x with burst := none })), _, rfl, by decide⟩,
    ⟨0, 0,
      (((W.modHead 0 (fun x => { x with flush := true })).setFld (HPT_CTL_MODE 0) 1).modHead 0 (fun x => { x with burst := none })),
      _, rfl, by decide, by decide, by decide, by decide, by decide, by decide⟩,
    ⟨0, 0, (W.modHead 0 (fun x => { x with flush := false })), _, rfl, by decide⟩⟩

theorem test_hyps_ScanPassesRun :
    (∃ (t : Nat) (n : Fin 2) (lvl : Bool) (k : BitVec 8) (s : State) (u : State) (v : State), s.advance t = u ∧
      u.setFir { u.fir with sos := u.fir.sos - b2n (bitAt u.fir.sos n) * 2 ^ n.val + b2n lvl * 2 ^ n.val } = v ∧
      k.toNat < u.filtN) ∧
    (∃ (t : Nat) (n : Fin 2) (lvl : Bool) (k : BitVec 8) (s : State) (u : State) (v : State), s.advance t = u ∧
      u.setFir { u.fir with sos := u.fir.sos - b2n (bitAt u.fir.sos n) * 2 ^ n.val + b2n lvl * 2 ^ n.val } = v ∧
      u.filtN ≤ k.toNat) ∧
    (∃ (s : State) (u : State) (v : State) (w : State) (rev : Bool), s.passEarly = u ∧
      (u.setFir { u.fir with passT := u.pos.t }).setPos { u.pos with h := u.pos.t, sgn := if rev then -1 else 1, norev := false } = v ∧
      ((((((v.setReg FIR_SOSTB0 (v.tbBefore v.kClk)).setFld FIR_STATE_INPASS 1).setBit FIR_STATE_PDIR rev).setFld POS_STATE_REVERSED 0).setFld FIR_STATE_SUSPR 0).countReg FIR_PASS 1) = w) ∧
    (∃ (s : State), s.on FIR_STATE_INPASS = false) :=
  ⟨⟨0, 0, false, 0#8, (W), _, _, rfl, rfl, by decide⟩,
    ⟨0, 0, false, 255#8, (W), _, _, rfl, rfl, by decide⟩,
    ⟨(W), _, _, _, false, rfl, rfl, rfl⟩,
    ⟨(W.setFld FIR_STATE_INPASS 0), by decide⟩⟩

theorem test_hyps_TrustAndOriginRun :
    (∃ (s : State), s.barOk 6 = true ∧ s.on POS_STATE_NOMAJ = false) ∧
    (∃ (s : State), s.barOk 6 = true ∧ s.on POS_STATE_NOMAJ = true) ∧
    (∃ (s : State) (u : State), s.on POS_STATE_TRUST = true ∧ u.on POS_STATE_TRUST = false ∧ u.armed = true ∧
      u.on FIR_CTL_TRUSTACT = true) ∧
    (∃ (s : State) (u : State), s.on POS_STATE_TRUST = true ∧ u.on POS_STATE_TRUST = false ∧
      (u.armed = false ∨ u.on FIR_CTL_TRUSTACT = false)) ∧
    (∃ (s : State) (u : State), (s.on POS_STATE_TRUST = false ∨ u.on POS_STATE_TRUST = true)) :=
  ⟨⟨(W.setFld POS_STATE_NOMAJ 0), by decide, by decide⟩,
    ⟨(W.setOn POS_STATE_NOMAJ), by decide, by decide⟩,
    ⟨W.setOn POS_STATE_TRUST, ((W.setOn HIF_CTL_ARMED).setOn FIR_CTL_TRUSTACT).setFld POS_STATE_TRUST 0, by decide,
      by decide, by decide, by decide⟩,
    ⟨W.setOn POS_STATE_TRUST, W.setFld POS_STATE_TRUST 0, by decide, by decide, by decide⟩,
    ⟨(W.setFld POS_STATE_TRUST 0), W, by decide⟩⟩

theorem test_hyps_ReturnsAreChecked :
    (∃ (t : Nat) (h : Fin 64) (bits : BitVec 1024) (tr : BitVec 8) (z : Bool) (s : State) (u : State) (x : Nat × Nat × Word),
      s.advance t = u ∧ u.portsRun = true ∧ u.fld (HPT_CTL_MODE h) = 1 ∧ (u.head h).ret = some x) ∧
    (∃ (t : Nat) (h : Fin 64) (bits : BitVec 1024) (tr : BitVec 8) (z : Bool) (s : State) (u : State), s.advance t = u ∧
      u.portsRun = true ∧ u.fld (HPT_CTL_MODE h) = 2 ∧ z = u.on (HPT_LANEMAP_SCKINV h)) ∧
    (∃ (t : Nat) (h : Fin 64) (bits : BitVec 1024) (tr : BitVec 8) (z : Bool) (s : State) (u : State), s.advance t = u ∧
      u.portsRun = true ∧ u.fld (HPT_CTL_MODE h) = 2 ∧ z ≠ u.on (HPT_LANEMAP_SCKINV h)) ∧
    (∃ (t : Nat) (h : Fin 64) (bits : BitVec 1024) (tr : Trailer) (s : State) (u : State), s.advance t = u ∧
      (u.portsRun = false ∨ u.fld (HPT_CTL_MODE h) = 0 ∨ (u.fld (HPT_CTL_MODE h) = 1 ∧
      (u.head h).ret = none) ∨ (u.fld (HPT_CTL_MODE h) = 3 ∧ ((u.head h).train = none ∨ (u.head h).ret = none)))) ∧
    (∃ (t : Nat) (h : Fin 64) (bits : BitVec 1024) (tr : BitVec 8) (z : Bool) (s : State) (u : State) (x : Nat × Nat × Word) (g : Train),
      s.advance t = u ∧ u.portsRun = true ∧ u.fld (HPT_CTL_MODE h) = 3 ∧ (u.head h).ret = some x ∧ (u.head h).train = some g) ∧
    (∃ (s : State) (h : Nat) (bits : Nat) (tr : Nat) (l : Nat) (c : Nat) (sig : Word), (s.head h).ret = some (l, c, sig) ∧
      (s.head h).skip = false) ∧
    (∃ (s : State) (u : State) (h : Nat) (bits : Nat) (tr : Nat) (l : Nat) (c : Nat) (sig : Word),
      returnClass c sig bits tr = 0 ∧
      ((s.countReg (HPT_RETCHK h) 1).modHead h (fun x => { x with cls := 0 })).setFld (HPT_RETST_RUN h) 0 = u ∧
      u.twinOn = false) ∧
    (∃ (s : State) (h : Nat) (bits : Nat) (tr : Nat) (l : Nat) (c : Nat) (k : Nat) (sig : Word),
      returnClass c sig bits tr = k ∧ k ≠ 0 ∧ s.twinOn = false ∧
      (((s.countReg (HPT_RETCHK h) 1).modHead h (fun x => { x with cls := k })).retFail h l c k).retLimit h = false) ∧
    (∃ (s : State) (h : Nat) (bits : Nat) (tr : Nat) (l : Nat) (c : Nat) (k : Nat) (sig : Word),
      returnClass c sig bits tr = k ∧ k ≠ 0 ∧ s.twinOn = false ∧
      (((s.countReg (HPT_RETCHK h) 1).modHead h (fun x => { x with cls := k })).retFail h l c k).retLimit h = true) ∧
    (∃ (s : State) (v : State) (h : Fin 64) (l : Nat) (c : Nat) (k : Nat), s.canonical ∧ c < 4 ∧ 0 < k ∧ k < 4 ∧
      s.retFail h l c k = v ∧ h.val < 32) ∧
    (∃ (s : State) (v : State) (h : Fin 64) (l : Nat) (c : Nat) (k : Nat), s.canonical ∧ c < 4 ∧ 0 < k ∧ k < 4 ∧
      s.retFail h l c k = v ∧ 32 ≤ h.val) ∧
    (∃ (s : State) (v : State) (h : Fin 64) (l : Nat) (c : Nat) (k : Nat), s.canonical ∧ c < 4 ∧ 0 < k ∧ k < 4 ∧
      s.retFail h l c k = v ∧ s.on (HPT_RETST_VALID h) = false) ∧
    (∃ (s : State) (v : State) (h : Fin 64) (l : Nat) (c : Nat) (k : Nat), s.canonical ∧ c < 4 ∧ 0 < k ∧ k < 4 ∧
      s.retFail h l c k = v ∧ s.on (HPT_RETST_VALID h) = true) ∧
    (∃ (s : State) (u : State) (h : Nat), s.setFld (HPT_RETST_FAULT h) 1 = u ∧ s.fld (HPT_RETCFG_ACTION h) = 0) ∧
    (∃ (s : State) (u : State) (h : Nat), s.setFld (HPT_RETST_FAULT h) 1 = u ∧ s.fld (HPT_RETCFG_ACTION h) = 1 ∧
      s.on KLN_CTL_LAYOUT = true) ∧
    (∃ (s : State) (u : State) (h : Nat), s.setFld (HPT_RETST_FAULT h) 1 = u ∧ s.fld (HPT_RETCFG_ACTION h) = 1 ∧
      s.on KLN_CTL_LAYOUT = false) ∧
    (∃ (s : State) (u : State) (h : Nat), s.setFld (HPT_RETST_FAULT h) 1 = u ∧ s.fld (HPT_RETCFG_ACTION h) = 2 ∧
      s.armed = true) ∧
    (∃ (s : State) (u : State) (h : Nat), s.setFld (HPT_RETST_FAULT h) 1 = u ∧ s.fld (HPT_RETCFG_ACTION h) = 2 ∧
      s.armed = false) ∧
    (∃ (s : State) (h : Nat) (bits : Nat) (tr : Nat) (l : Nat) (c : Nat) (sig : Word), (s.head h).ret = some (l, c, sig) ∧
      (s.head h).skip = true) ∧
    (∃ (h : Fin 64) (v : BitVec 32) (s : State) (u : State), s.barOk 5 = true ∧
      s.setReg (HPT_RETST h) (s.reg (HPT_RETST h) &&& ~~~(v &&& 0x800100F0#32)) = u) ∧
    (∃ (t : Nat) (h : Fin 64) (up : Bool) (s : State) (u : State), s.advance t = u ∧ up = u.on (HPT_LANEMAP_LATINV h)) ∧
    (∃ (t : Nat) (h : Fin 64) (up : Bool) (s : State) (u : State), s.advance t = u ∧ up = u.on (HPT_LANEMAP_FIREINV h)) ∧
    (∃ (t : Nat) (h : Fin 64) (up : Bool) (s : State) (u : State), s.advance t = u ∧
      (u.fld (HPT_CTL_MODE h) ≠ 2 ∨ u.portsRun = false) ∧ up ≠ u.on (HPT_LANEMAP_LATINV h)) ∧
    (∃ (t : Nat) (h : Fin 64) (up : Bool) (s : State) (u : State), s.advance t = u ∧
      (u.fld (HPT_CTL_MODE h) ≠ 2 ∨ u.portsRun = false) ∧ up ≠ u.on (HPT_LANEMAP_FIREINV h)) ∧
    (∃ (t : Nat) (h : Fin 64) (up : Bool) (s : State) (u : State), s.advance t = u ∧ up ≠ u.on (HPT_LANEMAP_LATINV h) ∧
      u.fld (HPT_CTL_MODE h) = 2 ∧ u.portsRun = true ∧ (u.head h).mline = none) ∧
    (∃ (t : Nat) (h : Fin 64) (up : Bool) (s : State) (u : State) (v : State) (m : Nat), s.advance t = u ∧
      up ≠ u.on (HPT_LANEMAP_FIREINV h) ∧ u.fld (HPT_CTL_MODE h) = 2 ∧ u.portsRun = true ∧
      (u.modHead h (fun x => { x with fireHi := true, seen := ((x.obs, u.tb0) :: x.seen).take 16 })).align h = v ∧
      (v.head h).mline = some m) :=
  ⟨⟨0, 0, 0#1024, 0#8, false,
      (((W.setFld (HPT_CTL_MODE 0) 1).modHead 0 (fun x => { x with ret := some (0, 0, 0#32) })).modHead 0 (fun x => { x with ret := some (0, 0, 0#32) })),
      _, (0, 0, 0#32), rfl, by decide, by decide, by decide⟩,
    ⟨0, 0, 0#1024, 0#8, false, (W.setFld (HPT_CTL_MODE 0) 2), _, rfl, by decide, by decide, by decide⟩,
    ⟨0, 0, 0#1024, 0#8, true, (W.setFld (HPT_CTL_MODE 0) 2), _, rfl, by decide, by decide, by decide⟩,
    ⟨0, 0, 0#1024, ⟨0#8, false⟩, (W), _, rfl, .inr (.inl (by decide))⟩,
    ⟨0, 0, 0#1024, 0#8, false,
      (((W.setFld (HPT_CTL_MODE 0) 3).modHead 0 (fun x => { x with train := some ⟨1, 0, 0, true, 0, 0, false, false, false, [], 0⟩ })).modHead 0 (fun x => { x with ret := some (0, 0, 0#32) })),
      _, (0, 0, 0#32), ⟨1, 0, 0, true, 0, 0, false, false, false, [], 0⟩, rfl, by decide, by decide, rfl, rfl⟩,
    ⟨((W.modHead 0 (fun x => { x with ret := some (0, 0, 0#32) })).modHead 0 (fun x => { x with skip := false })), 0, 0, 0,
      0, 0, 0#32, by decide, by decide⟩,
    ⟨(W), _, 0, 0, 0xA0, 0, 0, (bitsSig 0), by unfold returnClass; rw [if_neg (by decide), if_neg (by decide),
      if_neg (by simp)], rfl, by decide⟩,
    ⟨(W), 0, 0, 0, 0, 0, 1, 0#32, by decide, by decide, by decide, by decide⟩,
    ⟨(((W.setFld (HPT_RETCFG_LIMIT 0) 0))), 0, 0, 0, 0, 0, _, 0#32, rfl, by decide, by decide, by decide⟩,
    ⟨(W), _, 0, 0, 0, 1, by unfold State.canonical; decide, by decide, by decide, by decide, rfl, by decide⟩,
    ⟨(W), _, 32, 0, 0, 1, by unfold State.canonical; decide, by decide, by decide, by decide, rfl, by decide⟩,
    ⟨(W.setFld (HPT_RETST_VALID 0) 0), _, 0, 0, 0, 1, by unfold State.canonical; decide, by decide, by decide, by decide,
      rfl, by decide⟩,
    ⟨(W.setOn (HPT_RETST_VALID 0)), _, 0, 0, 0, 1, by unfold State.canonical; decide, by decide, by decide, by decide, rfl,
      by decide⟩,
    ⟨(W.setFld (HPT_RETCFG_ACTION 0) 0), _, 0, rfl, by decide⟩,
    ⟨((W.setFld (HPT_RETCFG_ACTION 0) 1).setOn KLN_CTL_LAYOUT), _, 0, rfl, by decide, by decide⟩,
    ⟨((W.setFld (HPT_RETCFG_ACTION 0) 1).setFld KLN_CTL_LAYOUT 0), _, 0, rfl, by decide, by decide⟩,
    ⟨((W.setFld (HPT_RETCFG_ACTION 0) 2).setOn HIF_CTL_ARMED), _, 0, rfl, by decide, by decide⟩,
    ⟨((W.setFld (HPT_RETCFG_ACTION 0) 2).setFld HIF_CTL_ARMED 0), _, 0, rfl, by decide, by decide⟩,
    ⟨((W.modHead 0 (fun x => { x with ret := some (0, 0, 0#32) })).modHead 0 (fun x => { x with skip := true })), 0, 0, 0,
      0, 0, 0#32, by decide, by decide⟩,
    ⟨0, 0#32, (W), _, by decide, rfl⟩,
    ⟨0, 0, false, (W), _, rfl, by decide⟩,
    ⟨0, 0, false, (W), _, rfl, by decide⟩,
    ⟨0, 0, true, (W.setFld (HPT_CTL_MODE 0) 0), _, rfl, by decide, by decide⟩,
    ⟨0, 0, true, (W.setFld (HPT_CTL_MODE 0) 0), _, rfl, by decide, by decide⟩,
    ⟨0, 0, true, ((W.setFld (HPT_CTL_MODE 0) 2).modHead 0 (fun x => { x with mline := none })), _, rfl, by decide,
      by decide, by decide, by decide⟩,
    ⟨0, 0, true, ((W.setFld (HPT_CTL_MODE 0) 2).modHead 0 (fun x => { x with mline := some 7 })), _, _, 7, rfl, by decide,
      by decide, by decide, rfl, rfl⟩⟩

theorem test_hyps_PortTestsRun :
    (∃ (t : Nat) (h : Fin 64) (s : State) (u : State) (v : State) (m : Nat), s.advance t = u ∧ (u.head h).mode = some m ∧
      u.portsRun = true ∧ u.handSlot h = true ∧ u.handTime h m = true ∧ ((if m = 1 ∧ u.twinStrap = true ∧
      u.twin.ret.isNone = true then (u.modHead h (fun x => { x with skip := true })).setTwin { u.twin with handAt := u.clk } else u)) = v ∧
      (u.drives h = false ∨ u.isLive h = false ∨ u.twin.ret.isSome = true ∨ (u.role ≠ roOUT ∧ u.role ≠ roSTANDBY))) ∧
    (∃ (t : Nat) (h : Fin 64) (s : State) (u : State) (v : State) (m : Nat), s.advance t = u ∧ (u.head h).mode = some m ∧
      u.portsRun = true ∧ u.handSlot h = true ∧ u.handTime h m = true ∧ ((if m = 1 ∧
      u.twinStrap = true then (u.modHead h (fun x => { x with skip := true })).setTwin { u.twin with handAt := u.clk } else u)) = v ∧
      u.drives h = true ∧ u.isLive h = true ∧ u.twin.ret = none ∧ (u.role = roOUT ∨ u.role = roSTANDBY)) ∧
    (∃ (t : Nat) (h : Fin 64) (s : State) (u : State), s.advance t = u ∧ (u.portsRun = false ∨ u.handSlot h = false ∨ (∃ m,
      (u.head h).mode = some m ∧ u.handTime h m = false))) ∧
    (∃ (t : Nat) (h : Fin 64) (s : State) (u : State), s.advance t = u ∧ (u.head h).mode = none) ∧
    (∃ (h : Fin 64) (s : State), s.barOk 5 = true ∧ s.on (HPT_TRAIN_BUSY h) = true) ∧
    (∃ (h : Fin 64) (s : State), s.barOk 5 = true ∧ s.on (HPT_TRAIN_BUSY h) = false ∧ s.fld (HPT_CTL_MODE h) ≠ 3) ∧
    (∃ (h : Fin 64) (s : State), s.barOk 5 = true ∧ s.on (HPT_TRAIN_BUSY h) = false ∧ s.fld (HPT_CTL_MODE h) = 3 ∧
      s.enAt h (s.head h).next = false ∧ s.fld (TRM_OUT_OUT h) = 0 ∧ s.on (HPT_TEST_RUN h) = false) ∧
    (∃ (h : Fin 64) (s : State), s.barOk 5 = true ∧ s.on (HPT_TRAIN_BUSY h) = false ∧ s.fld (HPT_CTL_MODE h) = 3 ∧
      (s.enAt h (s.head h).next = true ∨ s.fld (TRM_OUT_OUT h) ≠ 0 ∨ s.on (HPT_TEST_RUN h) = true)) ∧
    (∃ (t : Nat) (h : Fin 64) (c1 : BitVec 512) (c2 : BitVec 512) (c3 : BitVec 512) (f1 : BitVec 4096) (f2 : BitVec 4096) (f3 : BitVec 4096) (w0 : BitVec 24) (w1 : BitVec 24) (w2 : BitVec 24) (w3 : BitVec 24) (verify : BitVec 96) (s : State) (u : State) (f : TrainFound),
      s.advance t = u ∧ (⟨[c1.toNat, c2.toNat, c3.toNat], [f1.toNat, f2.toNat, f3.toNat], [w0, w1, w2, w3],
      verify.toNat⟩ : TrainFound) = f ∧ u.portsRun = true ∧ u.fld (HPT_CTL_MODE h) = 3 ∧ (u.head h).ret = none) ∧
    (∃ (t : Nat) (h : Fin 64) (c1 : BitVec 512) (c2 : BitVec 512) (c3 : BitVec 512) (f1 : BitVec 4096) (f2 : BitVec 4096) (f3 : BitVec 4096) (w0 : BitVec 24) (w1 : BitVec 24) (w2 : BitVec 24) (w3 : BitVec 24) (verify : BitVec 96) (s : State) (u : State) (f : TrainFound),
      s.advance t = u ∧ (⟨[c1.toNat, c2.toNat, c3.toNat], [f1.toNat, f2.toNat, f3.toNat], [w0, w1, w2, w3],
      verify.toNat⟩ : TrainFound) = f ∧ (u.portsRun = false ∨ u.fld (HPT_CTL_MODE h) ≠ 3 ∨ (u.head h).ret ≠ none)) ∧
    (∃ (s : State) (h : Nat) (n : Nat) (f : TrainFound), (s.head h).train = none) ∧
    (∃ (s : State) (h : Nat) (n : Nat) (f : TrainFound) (tr : Train), (s.head h).train = some tr ∧ f.answer tr = none) ∧
    (∃ (s : State) (h : Nat) (n : Nat) (f : TrainFound) (tr : Train) (a : Nat × Nat), (s.head h).train = some tr ∧
      f.answer tr = some a) ∧
    (∃ (s : State) (h : Nat) (raw : Nat) (tr : Train) (pass : Bool) (inv : Bool), tr.step = 2 ∧ trValid (255 - raw) = inv ∧
      (trValid raw || inv) = pass ∧ tr.n < 2) ∧
    (∃ (s : State) (h : Nat) (raw : Nat) (tr : Train) (pass : Bool) (inv : Bool), tr.step = 2 ∧ trValid (255 - raw) = inv ∧
      (trValid raw || inv) = pass ∧ 2 ≤ tr.n ∧ (tr.ok && pass) = true ∧ tr.at_ < 63) ∧
    (∃ (s : State) (h : Fin 64) (tr : Train) (r : Nat × Nat), s.canonical ∧ (widestRange tr.coarse tr.fine) = r ∧ r.2 = 0) ∧
    (∃ (s : State) (h : Fin 64) (tr : Train) (r : Nat × Nat) (v : State), s.canonical ∧ (widestRange tr.coarse tr.fine) = r ∧
      r.2 ≠ 0 ∧ s.trainFound h tr = v) ∧
    (∃ (t : Nat) (h : Fin 64) (s : State) (u : State), s.advance t = u ∧ u.fld (HPT_CTL_MODE h) = 3 ∧
      u.on (HPT_TEST_RUN h) = true ∧ u.portsRun = true ∧ (u.head h).prbsN = 0 ∧ u.gapPast h = true ∧ (∀ l z,
      (u.head h).lat = some (l, z) → z ≤ u.clk)) ∧
    (∃ (t : Nat) (h : Fin 64) (bits : BitVec 1024) (tr : BitVec 8) (s : State) (u : State) (v : State) (l : Nat) (c : Nat) (sig : Word),
      s.advance t = u ∧ (u.head h).ret = some (l, c, sig) ∧ u.fld (HPT_CTL_MODE h) = 3 ∧ u.portsRun = true ∧
      (u.head h).train = none ∧ 1 < (u.head h).prbsN ∧ trValid (u.retTrail h tr.toNat) = true ∧
      ((u.noteTrailer h (u.retTrail h tr.toNat)).modHead h (fun x => { x with ret := none, lats := (x.lats + 4 + trChain (u.retTrail h tr.toNat) - c) % 4 })) = v) ∧
    (∃ (t : Nat) (h : Fin 64) (s : State) (u : State) (m : Nat), s.canonical ∧ s.advance t = u ∧ u.twinStrap = false ∧
      u.twin.ret = none ∧ u.role = roACTIVE ∧ u.portsRun = true ∧ (u.head h).mode = some m ∧ m ≤ 3 ∧ u.handSlot h = true) ∧
    (∃ (t : Nat) (h : Fin 64) (c1 : BitVec 512) (c2 : BitVec 512) (c3 : BitVec 512) (f1 : BitVec 4096) (f2 : BitVec 4096) (f3 : BitVec 4096) (w0 : BitVec 24) (w1 : BitVec 24) (w2 : BitVec 24) (w3 : BitVec 24) (verify : BitVec 96) (s : State) (u : State) (f : TrainFound) (tr : Train) (a : Nat × Nat) (v : Nat),
      s.canonical ∧ s.advance t = u ∧ (⟨[c1.toNat, c2.toNat, c3.toNat], [f1.toNat, f2.toNat, f3.toNat], [w0, w1, w2, w3],
      verify.toNat⟩ : TrainFound) = f ∧ u.portsRun = true ∧ u.fld (HPT_CTL_MODE h) = 3 ∧ (u.head h).ret = none ∧
      (u.head h).train = some tr ∧ tr.step = 6 ∧ tr.n = 4 ∧ f.answer tr = some a ∧ u.retTrail h a.2 = v ∧ trValid v = true ∧
      laneWord (u.retBits h a.1) = some (trainWords.getD (trChain v) 0#16) ∧ tr.right ||| 2 ^ trChain v = 15) :=
  ⟨⟨0, 0, (W.modHead 0 (fun x => { x with mode := some 0 })), _, _, 0, rfl, by decide, by decide, by decide, by decide,
      rfl, by decide⟩,
    ⟨0, 0,
      ((upTwin (((W.modHead 0 (fun x => { x with mode := some 0 })).setFld (HPT_CTL_MODE 0) 1).modHead 0 (fun x => { x with live := true })) (fun x => { x with ret := none })).setFld TWN_STATE_ROLE roOUT),
      _, _, 0, rfl, by decide, by decide, by decide, by decide, rfl, by decide, by decide, by decide, by decide⟩,
    ⟨0, 0, (W.setFld PWR_STAT_STATE 1), _, rfl, .inl (by decide)⟩,
    ⟨0, 0, (W.modHead 0 (fun x => { x with mode := none })), _, rfl, by decide⟩,
    ⟨0, (W.setOn (HPT_TRAIN_BUSY 0)), by decide, by decide⟩,
    ⟨0, ((W.setFld (HPT_TRAIN_BUSY 0) 0).setFld (HPT_CTL_MODE 0) 0), by decide, by decide, by decide⟩,
    ⟨0, ((((W.setFld (HPT_TRAIN_BUSY 0) 0).setFld (HPT_CTL_MODE 0) 3).setFld (TRM_OUT_OUT 0) 0).setFld (HPT_TEST_RUN 0) 0),
      by decide, by decide, by decide, by decide, by decide, by decide⟩,
    ⟨0, (((W.setFld (HPT_TRAIN_BUSY 0) 0).setFld (HPT_CTL_MODE 0) 3).setOn (HPT_TEST_RUN 0)), by decide, by decide,
      by decide, by decide⟩,
    ⟨0, 0, 0#512, 0#512, 0#512, 0#4096, 0#4096, 0#4096, 0#24, 0#24, 0#24, 0#24, 0#96, ((W.setFld (HPT_CTL_MODE 0) 3)), _, _,
      rfl, rfl, by decide, by decide, by decide⟩,
    ⟨0, 0, 0#512, 0#512, 0#512, 0#4096, 0#4096, 0#4096, 0#24, 0#24, 0#24, 0#24, 0#96, (W), _, _, rfl, rfl, by decide⟩,
    ⟨(W.modHead 0 (fun x => { x with train := none })), 0, 0, ⟨[0, 0, 0], [0, 0, 0], [], 0⟩, by decide⟩,
    ⟨((W.setFld (HPT_CTL_MODE 0) 3).modHead 0 (fun x => { x with train := some ⟨4, 0, 0, true, 0, 0, false, false, false, [], 0⟩ })),
      0, 0, ⟨[0, 0, 0], [0, 0, 0], [], 0⟩, ⟨4, 0, 0, true, 0, 0, false, false, false, [], 0⟩, rfl, by decide⟩,
    ⟨((W.setFld (HPT_CTL_MODE 0) 3).modHead 0 (fun x => { x with train := some ⟨2, 0, 0, true, 0, 0, false, false, false, [], 0⟩ })),
      0, 0, ⟨[0, 0, 0], [0, 0, 0], [], 0⟩, ⟨2, 0, 0, true, 0, 0, false, false, false, [], 0⟩, _, rfl, rfl⟩,
    ⟨(W), 0, 0xA0, ⟨2, 0, 0, true, 0, 0, false, false, false, [], 0⟩, true, _, by decide, rfl, rfl, by decide⟩,
    ⟨(W), 0, 0xA0, ⟨2, 0, 2, true, 0, 0, false, false, false, [], 0⟩, true, _, by decide, rfl, rfl, by decide, by decide,
      by decide⟩,
    ⟨(W), 0, ⟨2, 0, 0, true, 0, 0, false, false, false, [], 0⟩, (0, 0), by unfold State.canonical; decide,
      by decide +kernel, by decide⟩,
    ⟨(W), 0, ⟨2, 0, 0, true, 1, 255, false, false, false, [], 0⟩, (0, 8), _, by unfold State.canonical; decide,
      by decide +kernel, by decide, rfl⟩,
    ⟨0, 0, ((W.setFld (HPT_CTL_MODE 0) 3).setOn (HPT_TEST_RUN 0)), _, rfl, by decide, by decide, by decide, by decide,
      by decide, (fun _ _ h => by cases (show (none : Option (Nat × Nat)) = some _ from h))⟩,
    ⟨0, 0, 0#1024, 0xA0#8,
      ((W.setFld (HPT_CTL_MODE 0) 3).modHead 0 (fun x => { x with ret := some (0, 0, 0#32), prbsN := 2 })), _, _, 0, 0, 0#32,
      rfl, by decide, by decide, by decide, by decide, by decide, by decide, rfl⟩,
    ⟨0, 0,
      (((upTwin (W) (fun x => { x with ret := none })).setFld TWN_STATE_ROLE roACTIVE).modHead 0 (fun x => { x with mode := some 0 })),
      _, 0, by unfold State.canonical; decide, rfl, by decide, by decide, by decide, by decide, by decide, by decide,
      by decide⟩,
    ⟨0, 0, 0#512, 0#512, 0#512, 0#4096, 0#4096, 0#4096, 0#24, 0#24, 0#24, 0#24, 49522593112787604210955845632#96,
      ((W.setFld (HPT_CTL_MODE 0) 3).modHead 0 (fun x => { x with train := some ⟨6, 0, 4, true, 0, 0, false, false, false, [], 14⟩ })),
      _, _, ⟨6, 0, 4, true, 0, 0, false, false, false, [], 14⟩, _, _, by unfold State.canonical; decide, rfl, rfl, by decide,
      by decide, by decide, rfl, by decide, by decide, rfl, rfl, by decide, by decide +kernel, by decide⟩⟩

theorem test_hyps_HeadBusesRun :
    (∃ (t : Nat) (b : Fin 8) (s : State) (u : State) (h : Nat), s.advance t = u ∧ u.twin.busIn = 0 ∧ u.twin.busOut = 0 ∧
      u.on (HPT_BUSST_MASTER b) = true ∧ u.on (HPT_BUSCFG_EN b) = true ∧ u.buses.get (fun _ => 0) b = 0 ∧
      u.hearthBus b = false ∧ u.fld PWR_STAT_STATE = 0 ∧ u.tempNext b = some h) ∧
    (∃ (t : Nat) (b : Fin 8) (s : State) (u : State), s.advance t = u ∧ u.twin.busIn = 0 ∧ u.twin.busOut = 0 ∧
      (u.on (HPT_BUSST_MASTER b) = false ∨ u.tempNext b = none)) ∧
    (∃ (t : Nat) (h : Fin 64) (v : BitVec 16) (s : State) (u : State), s.advance t = u ∧ u.twin.busIn = 0 ∧
      u.twin.busOut = 0 ∧ u.buses.get (fun _ => 0) (h / 8) = h + 1) ∧
    (∃ (t : Nat) (h : Fin 64) (v : BitVec 16) (ok : Bool) (s : State) (u : State), s.advance t = u ∧
      u.buses.get (fun _ => 0) (h / 8) ≠ h + 1 ∧ u.twinStrap = false) ∧
    (∃ (t : Nat) (h : Fin 64) (s : State) (u : State), s.advance t = u ∧ u.on (HPT_HSTAT_PRESENT h) = true ∧
      u.timerOver (tmTemp h) (4000000 * u.fld HPT_TCFG_TSTALE) = true) ∧
    (∃ (t : Nat) (h : Fin 64) (s : State) (u : State), s.advance t = u ∧ u.on (HPT_HSTAT_PRESENT h) = false) ∧
    (∃ (t : Nat) (s : State) (u : State) (v : State), s.advance t = u ∧ u.awake = true ∧ u.svc.page = true ∧
      u.buses.get (fun _ => 0) (u.reqField 0 1 / 8) = 0 ∧ u.svc.tasks = [] ∧
      u.putHeadBytes (u.reqField 0 1) (0x100 + 32 * u.svc.pages) ((u.storeBytes (u.reqField 1 8 + 32 * u.svc.pages) 32).map BitVec.toNat) = v) ∧
    (∃ (t : Nat) (s : State) (u : State), s.advance t = u ∧ u.awake = true ∧ u.svc.page = true ∧
      u.buses.get (fun _ => 0) (u.reqField 0 1 / 8) = 0) ∧
    (∃ (t : Nat) (ok : Bool) (s : State) (u : State), s.advance t = u ∧ u.svc.page = false) :=
  ⟨⟨0, 0,
      (((((upTwin (upTwin (W) (fun x => { x with busIn := 0 })) (fun x => { x with busOut := 0 })).setOn (HPT_BUSST_MASTER 0)).setOn (HPT_BUSCFG_EN 0)).setFld PWR_STAT_STATE 0).setOn (HPT_HSTAT_PRESENT 0)),
      _, 0, rfl, by decide, by decide, by decide, by decide, by decide, by decide, by decide, rfl⟩,
    ⟨0, 0,
      ((upTwin (upTwin (W) (fun x => { x with busIn := 0 })) (fun x => { x with busOut := 0 })).setFld (HPT_BUSST_MASTER 0) 0),
      _, rfl, by decide, by decide, by decide⟩,
    ⟨0, 0, 0#16, (({ W with buses := [(0, 1)] } : State)), _, rfl, by decide, by decide, by decide⟩,
    ⟨0, 0, 0#16, false, (W), _, rfl, by decide, by decide⟩,
    ⟨0, 0, (W.setOn (HPT_HSTAT_PRESENT 0)), _, rfl, by decide, by decide⟩,
    ⟨0, 0, (W.setFld (HPT_HSTAT_PRESENT 0) 0), _, rfl, by decide⟩,
    ⟨0, (upSvc (upSvc (W) (fun x => { x with page := true })) (fun x => { x with tasks := [] })), _, _, rfl, by decide,
      by decide, by decide, by decide, rfl⟩,
    ⟨0, (upSvc (W) (fun x => { x with page := true })), _, rfl, by decide, by decide, by decide⟩,
    ⟨0, false, (upSvc (W) (fun x => { x with page := false })), _, rfl, by decide⟩⟩

theorem test_hyps_IllegalTransitionsAreCounted :
    (∃ (t : Nat) (c : Fin 3) (a : Bool) (b : Bool) (n : BitVec 8) (s : State) (u : State), s.canonical ∧ s.advance t = u ∧
      u.filtN ≤ n.toNat ∧ u.chanOn c = true ∧ u.pos.pins c < 4 ∧ bitAt (u.pos.pins c) 1 ≠ a ∧ bitAt (u.pos.pins c) 0 ≠ b) :=
  ⟨0, 0, false, false, 255#8, (W), _, by unfold State.canonical; decide, rfl, by decide, by decide, by decide, by decide,
    by decide⟩

theorem test_hyps_EncoderCountsMove :
    (∃ (t : Nat) (c : Fin 3) (a : Bool) (b : Bool) (n : BitVec 8) (s : State) (u : State) (v : State), s.advance t = u ∧
      u.setPos { u.pos with raw := u.pos.raw.set (fun _ => 7) c (u.pos.rawOf c / 4 * 4 + abOf a b) } = v ∧ n.toNat < v.filtN) ∧
    (∃ (t : Nat) (c : Fin 3) (a : Bool) (b : Bool) (n : BitVec 8) (s : State) (x : State) (u : State) (v : State) (w : State),
      s.advance t = x ∧ x.setPos { x.pos with raw := x.pos.raw.set (fun _ => 7) c (x.pos.rawOf c / 4 * 4 + abOf a b) } = u ∧
      u.filtN ≤ n.toNat ∧ u.transition c (abOf a b) = v ∧ State.trustAct u v = w ∧ diff48 v.pos.t u.pos.t = 0) ∧
    (∃ (t : Nat) (c : Fin 3) (a : Bool) (b : Bool) (n : BitVec 8) (s : State) (x : State) (u : State) (v : State) (w : State),
      s.advance t = x ∧ x.setPos { x.pos with raw := x.pos.raw.set (fun _ => 7) c (x.pos.rawOf c / 4 * 4 + abOf a b) } = u ∧
      u.filtN ≤ n.toNat ∧ u.transition c (abOf a b) = v ∧ State.trustAct u v = w ∧ diff48 v.pos.t u.pos.t ≠ 0) ∧
    (∃ (c : Fin 3) (ab : Nat) (u : State), u.chanOn c = false) ∧
    (∃ (c : Fin 3) (ab : Nat) (u : State) (w : State) (v : State) (d : Int), u.chanOn c = true ∧
      quadStep (u.pos.pins c) ab = some d ∧
      u.setPos { u.pos with ab := u.pos.ab.set (fun _ => 3) c ab, cnt := u.pos.cnt.set (fun _ => 0) c (wrapS 48 (u.pos.chan c + if u.on POS_CTL_SENSE then -d else d)) } = w ∧
      -(2 : Int) ^ 47 ≤ u.pos.t ∧ u.pos.t < 2 ^ 47 ∧ -(2 : Int) ^ 47 ≤ w.vote ∧ w.vote < 2 ^ 47 ∧ u.transition c ab = v) :=
  ⟨⟨0, 0, false, false, 0#8, (W), _, _, rfl, rfl, by decide⟩,
    ⟨0, 0, true, true, 255#8, (W), _, _, _, _, rfl, rfl, by decide, rfl, rfl, by decide⟩,
    ⟨0, 0, false, true, 255#8, (W.setFld POS_CTL_CHEN 1), _, _, _, _, rfl, rfl, by decide, rfl, rfl, by decide⟩,
    ⟨0, 0, (W.setFld POS_CTL_CHEN 0), by decide⟩,
    ⟨0, 3, W, _, _, 0, by decide, by decide, rfl, by decide, by decide, by decide, by decide, rfl⟩⟩

theorem test_hyps_LoReadsLatchHi :
    (∃ (k : Fin 6) (s : State), s.barOk 6 = true) ∧
    (∃ (x : Int), -(2 : Int) ^ 47 ≤ x ∧ x < 2 ^ 47) ∧
    (∃ (k : Fin 6) (s : State), s.barOk 6 = false) :=
  ⟨⟨0, (W), by decide⟩,
    ⟨0, by decide, by decide⟩,
    ⟨0, (W.setFld PWR_STAT_STATE 2), by decide⟩⟩

theorem test_hyps_RewindsWait :
    (∃ (s : State), s.pos.rewind = none) ∧
    (∃ (s : State) (v : Int), s.pos.rewind = some v ∧ -(s.fld POS_REVWIN_COUNTS : Int) ≤ diff48 s.pos.t v) ∧
    (∃ (s : State) (v : Int), s.canonical ∧ s.pos.rewind = some v ∧ diff48 s.pos.t v < -(s.fld POS_REVWIN_COUNTS : Int)) ∧
    (∃ (s : State) (v : Int), s.pos.rewind = some v ∧ diff48 s.pos.t v < -(s.fld POS_REVWIN_COUNTS : Int)) :=
  ⟨⟨(upPos (W) (fun x => { x with rewind := none })), by decide⟩,
    ⟨(upPos (W) (fun x => { x with rewind := some 0 })), 0, by decide, by decide⟩,
    ⟨(upPos W (fun x => { x with rewind := some 100000000 })), 100000000, by unfold State.canonical; decide, by decide,
      by decide⟩,
    ⟨(upPos W (fun x => { x with rewind := some 100000000 })), 100000000, by decide, by decide⟩⟩

theorem test_hyps_PositionCommandsRun :
    (∃ (c : Fin 3) (z : Bool) (n : BitVec 8) (s : State) (v : State),
      s.setPos { s.pos with raw := s.pos.raw.set (fun _ => 7) c (4 * b2n z + s.pos.rawOf c % 4) } = v ∧
      (n.toNat < v.filtN ∨ v.fld PWR_STAT_STATE = 3)) ∧
    (∃ (c : Fin 3) (z : Bool) (n : BitVec 8) (s : State) (v : State) (u : State),
      s.setPos { s.pos with raw := s.pos.raw.set (fun _ => 7) c (4 * b2n z + s.pos.rawOf c % 4) } = v ∧ v.filtN ≤ n.toNat ∧
      v.fld PWR_STAT_STATE ≠ 3 ∧ v.setPos { v.pos with z := v.pos.z.set (fun _ => 1) c (b2n z) } = u) ∧
    (∃ (t : Nat) (s : State) (u : State), s.advance t = u ∧ u.awake = true ∧ u.on POS_SPEEDST_STILL = false ∧
      1000 * u.fld POS_STILLTO_TIMEOUT ≤ (u.tb0 - u.reg POS_EDGETB0).toNat) ∧
    (∃ (t : Nat) (s : State) (u : State), s.advance t = u ∧ u.on POS_SPEEDST_STILL = true) ∧
    (∃ (t : Nat) (e : Nat) (s : State) (u : State), s.advance t = u ∧ u.awake = true ∧ u.on POS_SPEEDST_STILL = false ∧
      u.on POS_SPEEDST_INVALID = false ∧ (u.tb0 - u.reg POS_EDGETB0).toNat = e) ∧
    (∃ (v : BitVec 32) (s : State), s.barOk 6 = true ∧ s.armed = true) ∧
    (∃ (v : BitVec 32) (s : State) (u : State), s.barOk 6 = true ∧ s.armed = false ∧
      (((List.range 3).filter (fun c => v.getLsbD c && !(s.reg POS_CTL).getLsbD c)).foldl (fun r c => r.setPos { r.pos with cnt := r.pos.cnt.set (fun _ => 0) c s.vote, ab := r.pos.ab.set (fun _ => 3) c (r.pos.rawOf c % 4) }) (s.setReg POS_CTL (posCtlLegal (s.reg POS_CTL) v))) = u ∧
      u.vote = u.pos.t) ∧
    (∃ (v : BitVec 32) (s : State) (u : State), s.barOk 6 = true ∧ s.armed = false ∧
      (((List.range 3).filter (fun c => v.getLsbD c && !(s.reg POS_CTL).getLsbD c)).foldl (fun r c => r.setPos { r.pos with cnt := r.pos.cnt.set (fun _ => 0) c s.vote, ab := r.pos.ab.set (fun _ => 3) c (r.pos.rawOf c % 4) }) (s.setReg POS_CTL (posCtlLegal (s.reg POS_CTL) v))) = u ∧
      u.vote ≠ u.pos.t) ∧
    (∃ (m : BitVec 3) (s : State), s.barOk 6 = true) ∧
    (∃ (t : Nat) (s : State) (u : State), s.advance t = u ∧ u.barOk 6 = true) ∧
    (∃ (claim : Bool) (src : Fin 8) (hearth : Bool) (s : State), s.barOk 6 = true ∧ (hearth = true → s.firmwareOn = true) ∧
      (s.fld POS_ENCO_OWNER = 0 ∨ s.fld POS_ENCO_OWNER = if hearth then 2 else 1) ∧ src.val < 4) ∧
    (∃ (claim : Bool) (src : Fin 8) (hearth : Bool) (s : State), s.barOk 6 = true ∧ (hearth = true → s.firmwareOn = true) ∧
      s.fld POS_ENCO_OWNER ≠ 0 ∧ s.fld POS_ENCO_OWNER ≠ (if hearth then 2 else 1)) ∧
    (∃ (claim : Bool) (src : Fin 8) (s : State), s.firmwareOn = false) ∧
    (∃ (t : Nat) (s : State) (u : State), s.canonical ∧ s.advance t = u ∧ u.barOk 6 = true) :=
  ⟨⟨0, false, 0#8, (W), _, rfl, by decide⟩,
    ⟨0, false, 255#8, (W), _, _, rfl, by decide, by decide, rfl⟩,
    ⟨0, (((W.setFld POS_SPEEDST_STILL 0).setFld POS_STILLTO_TIMEOUT 1).setReg POS_EDGETB0 0x80000000#32), _, rfl, by decide,
      by decide, by decide⟩,
    ⟨0, (W.setOn POS_SPEEDST_STILL), _, rfl, by decide⟩,
    ⟨0, _, ((W.setFld POS_SPEEDST_STILL 0).setFld POS_SPEEDST_INVALID 0), _, rfl, by decide, by decide, by decide, rfl⟩,
    ⟨0#32, (W.setOn HIF_CTL_ARMED), by decide, by decide⟩,
    ⟨0#32, (W.setFld HIF_CTL_ARMED 0), _, by decide, by decide, rfl, by decide⟩,
    ⟨1#32, (upPos (W.setFld POS_CTL_CHEN 1) (fun x => { x with t := 5, cnt := [(0, 7)] })), _, by decide, by decide, rfl,
      by decide⟩,
    ⟨0#3, (W), by decide⟩,
    ⟨0, (W), _, rfl, by decide⟩,
    ⟨false, 0, false, (W.setFld POS_ENCO_OWNER 0), by decide, by decide, by decide, by decide⟩,
    ⟨false, 0, false, (W.setFld POS_ENCO_OWNER 2), by decide, by decide, by decide, by decide⟩,
    ⟨false, 0, (W), by decide⟩,
    ⟨0, (W), _, by unfold State.canonical; decide, rfl, by decide⟩⟩

theorem test_hyps_TransportRuns :
    (∃ (s : State) (u : State) (r : State), s.freezeDue = true ∧ s.fld TRN_STATE_SEQ = 0 ∧ s.splice.active = false ∧
      s.setSplice { s.splice with taken := s.splice.taken ||| (s.fld TRN_CAUSE_ACT &&& (127 - s.splice.taken)), causes := s.splice.causes ||| (s.fld TRN_CAUSE_ACT &&& (127 - s.splice.taken)) } = u ∧
      (s.fld TRN_CAUSE_ACT &&& (127 - s.splice.taken)) % 64 ≠ 0 ∧
      (if u.freeze.splice.hold = true then u.freeze.setSplice { u.freeze.splice with taken := u.freeze.splice.taken ||| s.fld TRN_CAUSE_ACT, causes := u.freeze.splice.causes ||| s.fld TRN_CAUSE_ACT } else u.freeze) = r) ∧
    (∃ (s : State), s.freezeDue = false) ∧
    (∃ (s : State), s.on TRN_STATE_DRVRDY = true) ∧
    (∃ (s : State) (u : State), s.on TRN_STATE_DRVRDY = false ∧ (s.setBit TRN_STATE_DRVRDY true).dropCause 4 = u) ∧
    (∃ (s : State) (u : State), s.setBit TRN_STATE_DRVRDY false = u) ∧
    (∃ (s : State) (u : State), s.causeCheck = u ∧ u.inSeq 1 = true ∧ u.on TRN_STATE_DRVRDY = true ∧ u.allClear = true) ∧
    (∃ (s : State) (u : State), s.causeCheck = u ∧ (u.inSeq 1 = false ∨ u.on TRN_STATE_DRVRDY = false ∨ u.allClear = false)) ∧
    (∃ (t : Nat) (s : State) (u : State), s.advance t = u ∧ u.inSeq 2 = true ∧ u.settled = true) ∧
    (∃ (s : State), s.inSeq 3 = true) ∧
    (∃ (t : Nat) (s : State) (u : State), (s.advance t).causeCheck = u ∧ u.inSeq 4 = true ∧ u.settled = true ∧
      u.allClear = true ∧ u.pos.rewind = none) ∧
    (∃ (s : State), s.inSeq 5 = true) ∧
    (∃ (t : Nat) (s : State) (u : State), s.advance t = u ∧ u.splice.since + 400000 * u.fld TRN_MOVETO_MS ≤ u.clk ∧
      u.on TRN_STATE_DRVRDY = true ∧ u.inSeq 2 = true ∧ u.on POS_SPEEDST_STILL = false) ∧
    (∃ (t : Nat) (s : State) (u : State), s.advance t = u ∧ u.splice.since + 400000 * u.fld TRN_MOVETO_MS ≤ u.clk ∧
      u.on TRN_STATE_DRVRDY = true ∧ u.inSeq 2 = false ∧ u.inSeq 3 = true ∧ 0 < diff48 u.pos.t u.splice.target) ∧
    (∃ (t : Nat) (s : State) (u : State), s.advance t = u ∧ u.on TRN_STATE_DRVRDY = false) ∧
    (∃ (s : State), s.canonical ∧ s.freezeDue = true ∧ s.fld TRN_STATE_SEQ = 0 ∧ s.splice.active = false ∧
      s.actMaster = true ∧ (s.fld TRN_CAUSE_ACT &&& (127 - s.splice.taken)) % 64 ≠ 0) ∧
    (∃ (s : State) (u : State), s.canonical ∧ s.causeCheck = u ∧ u.inSeq 1 = true ∧ u.on TRN_STATE_DRVRDY = true ∧
      u.allClear = true) ∧
    (∃ (t : Nat) (s : State) (u : State), s.canonical ∧ s.advance t = u ∧ u.inSeq 2 = true ∧ u.settled = true) ∧
    (∃ (s : State), s.canonical ∧ s.inSeq 3 = true ∧ diff48 s.pos.t s.splice.target ≤ 0) ∧
    (∃ (t : Nat) (s : State) (u : State), s.canonical ∧ (s.advance t).causeCheck = u ∧ u.inSeq 4 = true ∧ u.settled = true ∧
      u.allClear = true ∧ u.pos.rewind = none) ∧
    (∃ (s : State), s.canonical ∧ s.inSeq 5 = true ∧ s.resumed = true) ∧
    (∃ (t : Nat) (s : State) (u : State), s.canonical ∧ s.advance t = u ∧
      u.splice.since + 400000 * u.fld TRN_MOVETO_MS ≤ u.clk ∧ u.on TRN_STATE_DRVRDY = true ∧ u.inSeq 2 = true ∧
      u.on POS_SPEEDST_STILL = false) ∧
    (∃ (t : Nat) (s : State) (v : State) (o : Nat) (g : Nat), s.canonical ∧ (s.advance t).trnShow = v ∧
      v.fld (TRM_OUT_OUT 64) = o ∧ v.fld (TRM_OUT_TARGET 64) = g ∧ o ≠ g ∧ v.fld PWR_STAT_STATE = 0 ∧
      v.timerOver (tmTrim 64) (usClk (slewUs (v.trimSlewCode 64))) = true) :=
  ⟨⟨((W.setOn HIF_CTL_ARMED).setFld TRN_CAUSE_ACT 1), _, _, by decide, by decide, by decide, rfl, by decide, rfl⟩,
    ⟨(W), by decide⟩,
    ⟨(W.setOn TRN_STATE_DRVRDY), by decide⟩,
    ⟨(W.setFld TRN_STATE_DRVRDY 0), _, by decide, rfl⟩,
    ⟨(W), _, rfl⟩,
    ⟨((witSeq W 1).setOn TRN_STATE_DRVRDY), _, rfl, by decide, by decide, by decide⟩,
    ⟨(W), _, rfl, by decide⟩,
    ⟨0, (witSeq (W) 2), _, rfl, by decide, by decide⟩,
    ⟨(witSeq (W) 3), by decide⟩,
    ⟨0, (witSeq (W) 4), _, rfl, by decide, by decide, by decide, by decide⟩,
    ⟨(witSeq (W) 5), by decide⟩,
    ⟨0, ((witSeq ((W.setOn TRN_STATE_DRVRDY).setFld POS_SPEEDST_STILL 0) 2).setFld TRN_MOVETO_MS 1), _, rfl, by decide,
      by decide, by decide, by decide⟩,
    ⟨0, (upPos (((witSeq W 3).setFld TRN_MOVETO_MS 1).setOn TRN_STATE_DRVRDY) (fun x => { x with t := 5 })), _, rfl,
      by decide, by decide, by decide, by decide, by decide⟩,
    ⟨0, (W.setFld TRN_STATE_DRVRDY 0), _, rfl, by decide⟩,
    ⟨(witSeq (W.setFld TRN_CAUSE_ACT 1) 0), by unfold State.canonical; decide, by decide, by decide, by decide, by decide,
      by decide⟩,
    ⟨((witSeq W 1).setOn TRN_STATE_DRVRDY), _, by unfold State.canonical; decide, rfl, by decide, by decide, by decide⟩,
    ⟨0, ((witSeq W 2).setOn POS_SPEEDST_STILL), _, by unfold State.canonical; decide, rfl, by decide, by decide⟩,
    ⟨(witSeq W 3), by unfold State.canonical; decide, by decide, by decide⟩,
    ⟨0, ((witSeq W 4).setOn POS_SPEEDST_STILL), _, by unfold State.canonical; decide, rfl, by decide, by decide, by decide,
      by decide⟩,
    ⟨(witSeq W 5), by unfold State.canonical; decide, by decide, by decide⟩,
    ⟨0, (((((witSeq W 2).setFld TRN_MOVETO_MS 1).setOn TRN_STATE_DRVRDY)).setFld POS_SPEEDST_STILL 0), _,
      by unfold State.canonical; decide, rfl, by decide, by decide, by decide, by decide⟩,
    ⟨0, (((W.setFld (TRM_OUT_OUT 64) 5))), _, 5, 0, by unfold State.canonical; decide, rfl, by decide, by decide, by decide,
      by decide, by decide⟩⟩

theorem test_hyps_CamerasRun :
    (∃ (t : Nat) (c : Fin 2) (vc : BitVec 2) (dt : BitVec 6) (err : Fin 3) (px : List (BitVec 12)) (s : State) (u : State),
      s.advance t = u ∧ u.camOn c = false) ∧
    (∃ (t : Nat) (c : Fin 2) (vc : BitVec 2) (s : State) (u : State), s.advance t = u ∧ u.camOn c = true) ∧
    (∃ (t : Nat) (c : Fin 2) (vc : BitVec 2) (dt : BitVec 6) (err : Fin 3) (px : List (BitVec 12)) (s : State) (u : State),
      s.advance t = u ∧ u.camOn c = true) ∧
    (∃ (t : Nat) (s : State) (u : State), s.advance t = u ∧ u.insp.spill = []) ∧
    (∃ (t : Nat) (s : State) (u : State) (w : State) (v : State) (p : Spill) (l : List Spill) (fr : CamFrame),
      s.advance t = u ∧ u.insp.spill = p :: l ∧ u.camOn p.cam = true ∧ u.insp.pipeFree ≤ u.clk ∧
      (u.storeUse 3 (ceilDiv p.bytes 64)).deviceReads (fun i => u.claimed i pkSPILL) (fun e => .spill 0 (e % max 1 (ceilDiv p.bytes 8))) = w ∧
      w.setInsp { w.insp with spill := l } = v ∧ (v.cam p.cam).frames.find? (fun fr => fr.num == p.frame) = some fr) ∧
    (∃ (t : Nat) (c : Fin 2) (s : State) (u : State) (fr : CamFrame) (l : List CamFrame), s.advance t = u ∧
      (u.cam c).frames = fr :: l ∧ u.camOn c = true ∧ fr.closed = true ∧ fr.rows.all (fun r => r.raw.isNone) = true ∧
      fr.outAt ≤ u.clk) ∧
    (∃ (t : Nat) (c : Fin 2) (s : State) (u : State), s.advance t = u ∧ (u.cam c).frames = []) ∧
    (∃ (t : Nat) (c : Fin 2) (s : State) (u : State) (passed : Int) (target : Int) (dq : Int) (x : Int) (n : Nat),
      s.advance t = u ∧ u.camOn c = true ∧ (u.fld (CAM_TRIG_MODE c) = 1 ∨ u.fld (CAM_TRIG_MODE c) = 2) ∧ u.scan = false ∧
      u.trigOff = false ∧ u.trigGo c u.pos.h = some (passed, target) ∧ u.trigGo c u.pos.t = some (dq, x) ∧
      (passed ≤ 0 ∨ u.trigPredicted dq = true) ∧ (u.cam c).pin = some n) ∧
    (∃ (c : Fin 2) (v : BitVec 32) (s : State), s.barOk (10 + c) = true ∧ s.armed = true) ∧
    (∃ (c : Fin 2) (v : BitVec 32) (s : State), s.barOk (10 + c) = true ∧ s.armed = false ∧
      (s.reg (CAM_CTL c)).getLsbD 0 = v.getLsbD 0) ∧
    (∃ (c : Fin 2) (v : BitVec 32) (s : State) (u : State), s.barOk (10 + c) = true ∧ s.armed = false ∧
      (s.reg (CAM_CTL c)).getLsbD 0 = false ∧ v.getLsbD 0 = true ∧
      s.setReg (CAM_CTL c) (camCtlLegal (s.reg (CAM_CTL c)) v) = u ∧
      u.fld (TIM_EVTCTL_OWNER (u.fld (CAM_TRIG_PIN c))) = evFREE) ∧
    (∃ (t : Nat) (c : Fin 2) (v : BitVec 32) (s : State) (u : State), s.advance t = u ∧ u.barOk (10 + c) = true) ∧
    (∃ (t : Nat) (c : Fin 2) (vc : BitVec 2) (s : State) (u : State), s.canonical ∧ s.advance t = u ∧ u.camOn c = true ∧
      u.fld (CAM_CTL_VC c) = vc.toNat ∧ (u.cam c).opened = false ∧ u.fld (CAM_TRIG_MODE c) = 0) ∧
    (∃ (t : Nat) (c : Fin 2) (vc : BitVec 2) (dt : BitVec 6) (px : List (BitVec 12)) (s : State) (u : State) (fr : CamFrame),
      s.advance t = u ∧ u.camOn c = true ∧ u.fld (CAM_CTL_VC c) = vc.toNat ∧ dt.toNat = 0x2A + u.fld (CAM_CTL_DT c) ∧
      (u.cam c).opened = true ∧ (u.cam c).frames = [fr] ∧ fr.rows.length < fr.flines) ∧
    (∃ (t : Nat) (c : Fin 2) (vc : BitVec 2) (s : State) (u : State) (fr : CamFrame), s.advance t = u ∧ u.camOn c = true ∧
      u.fld (CAM_CTL_VC c) = vc.toNat ∧ u.openFrame c = some fr) ∧
    (∃ (t : Nat) (c : Fin 2) (wr : Option (BitVec 32)) (s : State) (u : State), s.canonical ∧ s.advance t = u ∧
      u.barOk (10 + c) = true ∧ u.armed = false) :=
  ⟨⟨0, 0, 0#2, 0#6, 0, [], (W), _, rfl, by decide⟩,
    ⟨0, 0, 0#2, (witCam W id), _, rfl, by decide⟩,
    ⟨0, 0, 0#2, 0#6, 0, [], (witCam W id), _, rfl, by decide⟩,
    ⟨0, (W), _, rfl, by decide⟩,
    ⟨0,
      ((witCam W (fun x => { x with frames := [witFrame] })).setInsp { (witCam W (fun x => { x with frames := [witFrame] })).insp with spill := [⟨0, 0, 0, 64, false⟩] }),
      _, _, _, ⟨0, 0, 0, 64, false⟩, [], witFrame, rfl, by decide, by decide, by decide, rfl, rfl, by decide⟩,
    ⟨0, 0, (witCam W (fun x => { x with frames := [witFrame] })), _, witFrame, [], rfl, by decide, by decide, by decide,
      by decide, by decide⟩,
    ⟨0, 0, (W), _, rfl, by decide⟩,
    ⟨0, 0,
      (upPos ((((witCam W (fun x => { x with pin := some 0 })).setFld (CAM_TRIG_MODE 0) 1).setFld (CAM_TPITCH_PITCH 0) 1).setReg FIR_CPL 1000#32) (fun x => { x with h := 10 })),
      _, _, _, _, _, 0, rfl, by decide, by decide, by decide, by decide, rfl, rfl, by decide, rfl⟩,
    ⟨0, 0#32, (W.setOn HIF_CTL_ARMED), by decide, by decide⟩,
    ⟨0, 0#32, (W.setFld HIF_CTL_ARMED 0), by decide, by decide, by decide⟩,
    ⟨0, 1#32, (W.setFld HIF_CTL_ARMED 0), _, by decide, by decide, by decide, by decide, rfl, by decide⟩,
    ⟨0, 0, 0#32, (W), _, rfl, by decide⟩,
    ⟨0, 0, 0#2, ((witCam W id)), _, by unfold State.canonical; decide, rfl, by decide, by decide, by decide, by decide⟩,
    ⟨0, 0, 0#2, 0x2A#6, [], (witCam W (fun x => { x with opened := true, frames := [witFrame] })), _, witFrame, rfl,
      by decide, by decide, by decide, by decide, rfl, by decide⟩,
    ⟨0, 0, 0#2, (witCam W (fun x => { x with opened := true, frames := [witFrame] })), _, witFrame, rfl, by decide,
      by decide, by decide⟩,
    ⟨0, 0, none, (W.setFld HIF_CTL_ARMED 0), _, by unfold State.canonical; decide, rfl, by decide, by decide⟩⟩

theorem test_hyps_InspectionBatchesRun :
    (∃ (t : Nat) (c : Fin 2) (busy : BitVec 4) (bl : BitVec 16) (fs : List Finding) (m : Option (BitVec 32)) (rows : List (Fin 128 × BitVec 38)) (s : State) (u : State) (w : State),
      s.advance t = u ∧ u.barOk 9 = true ∧ (u.setFld INS_ENGST_BUSY busy.toNat).setFld INS_ENGST_BACKLOG bl.toNat = w ∧
      (w.on INS_CTL_EN = false ∨ w.fld PWR_STAT_STATE ≠ 0)) ∧
    (∃ (t : Nat) (c : Fin 2) (busy : BitVec 4) (bl : BitVec 16) (fs : List Finding) (m : Option (BitVec 32)) (rows : List (Fin 128 × BitVec 38)) (s : State) (u : State) (w : State),
      s.advance t = u ∧ u.barOk 9 = true ∧ (u.setFld INS_ENGST_BUSY busy.toNat).setFld INS_ENGST_BACKLOG bl.toNat = w ∧
      w.on INS_CTL_EN = true ∧ w.fld PWR_STAT_STATE = 0) ∧
    (∃ (c : Fin 2) (f : Finding) (s : State), (s.camOwns c (s.findCol c f) = false ∨ s.findHolds c f = false)) ∧
    (∃ (c : Fin 2) (f : Finding) (s : State),
      (s.autoOn = false ∨ f.conf.toNat < s.fld (INS_RTRIM_MINCONF (s.fld (CAM_CTL_RECIPE c))))) ∧
    (∃ (t : Nat) (seq : LinkHdr) (e : BitVec 40) (ws : List (BitVec 128)) (s : State) (u : State), s.advance t = u) ∧
    (∃ (t : Nat) (seq : LinkHdr) (codes : List (BitVec 8)) (s : State) (u : State), s.advance t = u) ∧
    (∃ (t : Nat) (c : Fin 2) (busy : BitVec 4) (bl : BitVec 16) (s : State) (u : State), s.canonical ∧ s.advance t = u ∧
      u.barOk 9 = true ∧ u.on INS_CTL_EN = true ∧ u.fld PWR_STAT_STATE = 0) ∧
    (∃ (s : State) (y : Nat) (e : Nat), s.insp.batch = some (y, e)) ∧
    (∃ (t : Nat) (seq : LinkHdr) (e : BitVec 40) (ws : List (BitVec 128)) (codes : List (BitVec 8)) (s : State) (u : State),
      s.advance t = u ∧ u.twinOn = true ∧ u.on TWN_LINKST_UP = true ∧ u.twin.seqIn ≠ seq.seq.toNat ∧ u.role = roSTANDBY ∧
      ws ≠ []) :=
  ⟨⟨0, 0, 0#4, 0#16, [], none, [], (W), _, _, rfl, by decide, rfl, by decide⟩,
    ⟨0, 0, 0#4, 0#16, [], none, [], (W.setOn INS_CTL_EN), _, _, rfl, by decide, rfl, by decide, by decide⟩,
    ⟨1, ⟨1, 0#2, 0#32, none, 0#40, 0#14, 0#16, 0#16, 0#8, 0#32, 0#16, 0#9, []⟩,
      (((W.setOn (CAM_CTL_EN 0)).setFld (CAM_GEOM_WIDTH 0) 64)), by decide⟩,
    ⟨0, ⟨1, 0#2, 0#32, none, 0#40, 0#14, 0#16, 0#16, 0#8, 0#32, 0#16, 0#9, []⟩, (W), .inl (by decide)⟩,
    ⟨0, ⟨0#8, 0#8⟩, 0#40, [], (W), _, rfl⟩,
    ⟨0, ⟨0#8, 0#8⟩, [], (W), _, rfl⟩,
    ⟨0, 0, 0#4, 0#16, ((W.setOn INS_CTL_EN).setFld PWR_STAT_STATE 0), _, by unfold State.canonical; decide, rfl, by decide,
      by decide, by decide⟩,
    ⟨(W.setInsp { W.insp with batch := some (0, 0) }), 0, 0, rfl⟩,
    ⟨0, ⟨1#8, 0#8⟩, 0#40, [0#128], [0#8], (witTwin W roSTANDBY), _, rfl, by decide, by decide, by decide, by decide,
      by decide⟩⟩

theorem test_hyps_SnapshotsCaptureTimeBases :
    (∃ (t : Nat) (s : State) (u : State), s.canonical ∧ s.advance t = u ∧ u.barOk 12 = true) ∧
    (∃ (t : Nat) (s : State) (u : State), s.canonical ∧ s.advance t = u ∧ (∃ w, (0, w) ∈ u.cord.queue ∧
      timeDue w u.tb0 = true) ∧ (∀ a ∈ u.cord.queue, timeDue a.2 u.tb0 = true → a.1 ≠ 1)) :=
  ⟨⟨0, (W), _, by unfold State.canonical; decide, rfl, by decide⟩,
    ⟨0, (upCord W (fun x => { x with queue := [(0, 0#32)] })), _, by unfold State.canonical; decide, rfl, ⟨0#32, by decide,
      by decide⟩, by decide⟩⟩

theorem test_hyps_TimeBasesRun :
    (∃ (t : Nat) (b : Fin 4) (v : BitVec 32) (s : State) (u : State), s.advance t = u ∧ u.barOk 12 = true ∧
      (b ≠ 0 ∨ (u.armed = false ∧ u.disciplined = false))) ∧
    (∃ (t : Nat) (s : State) (u : State), s.times.step ≠ [] ∧ s.clk < t ∧ (s.goOn (s.clk + 1)).takeSteps = u ∧
      u.clk = s.clk + 1) ∧
    (∃ (b : Nat) (v : BitVec 32) (s : State) (u : State), s.times.step = [(b, v.toNat + 1)] ∧
      { s with times := { s.times with step := [] } } = u) ∧
    (∃ (t : Nat) (v : BitVec 32) (s : State) (u : State), s.advance t = u ∧ u.barOk 12 = true ∧ u.armed = true) ∧
    (∃ (t : Nat) (v : BitVec 32) (s : State) (u : State), s.advance t = u ∧ u.barOk 12 = true ∧ u.armed = false ∧
      u.disciplined = true) ∧
    (∃ (t : Nat) (b : Fin 4) (v : BitVec 32) (s : State) (u : State), s.advance t = u ∧ u.barOk 12 = true ∧
      (b ≠ 0 ∨ u.disciplined = false)) ∧
    (∃ (t : Nat) (s : State) (u : State), s.advance t = u ∧ u.barOk 12 = true) ∧
    (∃ (t : Nat) (b : Fin 4) (s : State) (u : State), s.advance t = u ∧ u.times.rem.get (fun _ => 0) b = 0) ∧
    (∃ (t : Nat) (b : Fin 4) (s : State) (u : State), s.advance t = u ∧ u.times.rem.get (fun _ => 0) b ≠ 0) ∧
    (∃ (t : Nat) (s : State) (u : State), s.advance t = u ∧ (∀ a ∈ u.cord.queue, timeDue a.2 u.tb0 = false)) ∧
    (∃ (s : State) (b : Nat) (a : Nat), b ≠ 0) :=
  ⟨⟨0, 0, 0#32, (W), _, rfl, by decide, by decide⟩,
    ⟨1000000001, (({ W with times := { W.times with step := [(0, 5)] } } : State)), _, by decide, by decide, rfl, by decide⟩,
    ⟨0, 0#32, (({ W with times := { W.times with step := [(0, 1)] } } : State)), _, by decide, rfl⟩,
    ⟨0, 0#32, (W.setOn HIF_CTL_ARMED), _, rfl, by decide, by decide⟩,
    ⟨0, 0#32, (W.setOn CRD_CTL_EN), _, rfl, by decide, by decide, by decide⟩,
    ⟨0, 0, 0#32, (W), _, rfl, by decide, by decide⟩,
    ⟨0, (W), _, rfl, by decide⟩,
    ⟨0, 0, (W), _, rfl, by decide⟩,
    ⟨0, 0, (({ W with times := { W.times with rem := [(0, 5)] } } : State)), _, rfl, by decide⟩,
    ⟨0, (W), _, rfl, by decide⟩,
    ⟨(W), 1, 0, by decide⟩⟩

theorem test_hyps_EventPinsRun :
    (∃ (n : Fin 8) (o : Fin 8) (s : State), s.barOk 12 = true ∧ s.fld (TIM_EVTCTL_OWNER n) = 0 ∧ (o = 1 ∨ o = 2)) ∧
    (∃ (n : Fin 8) (s : State), s.barOk 12 = true ∧ s.firmwareOn = true ∧ s.fld (TIM_EVTCTL_OWNER n) = 0) ∧
    (∃ (n : Fin 8) (s : State), s.barOk 12 = true ∧ s.fld (TIM_EVTCTL_OWNER n) = 1) ∧
    (∃ (n : Fin 8) (o : Fin 8) (s : State), s.barOk 12 = true ∧ 3 ≤ s.fld (TIM_EVTCTL_OWNER n) ∧ o.val < 3) ∧
    (∃ (t : Nat) (n : Fin 8) (s : State) (u : State), s.advance t = u ∧ u.barOk 12 = true ∧ u.fld (TIM_EVTCTL_OWNER n) = 1 ∧
      (u.fld (TIM_EVTWIDTH_WIDTH n) = 0 ∨ ((u.reg (TIM_EVTPER n)).toNat ≠ 0 ∧
      (u.reg (TIM_EVTPER n)).toNat ≤ 10 * u.fld (TIM_EVTWIDTH_WIDTH n)))) ∧
    (∃ (t : Nat) (n : Fin 8) (s : State) (u : State), s.advance t = u ∧ u.barOk 12 = true ∧ u.fld (TIM_EVTCTL_OWNER n) = 1 ∧
      u.fld (TIM_EVTWIDTH_WIDTH n) ≠ 0 ∧
      ((u.reg (TIM_EVTPER n)).toNat = 0 ∨ 10 * u.fld (TIM_EVTWIDTH_WIDTH n) < (u.reg (TIM_EVTPER n)).toNat)) ∧
    (∃ (n : Fin 8) (s : State), s.barOk 12 = true ∧ (s.evt n).run = true ∧ (s.evt n).ends ≠ []) ∧
    (∃ (n : Fin 8) (s : State), s.canonical ∧ s.barOk 12 = true ∧ (s.evt n).run = true ∧ (s.evt n).ends = []) ∧
    (∃ (n : Fin 8) (s : State), s.barOk 12 = true ∧ (s.evt n).run = false) ∧
    (∃ (t : Nat) (n : Fin 8) (s : State) (u : State) (v : State), s.advance t = u ∧ (u.evt n).run = true ∧
      (u.evt n).last = false ∧ timeDue ((u.evt n).startOf (u.evt n).nextJ) (u.tb (u.fld (TIM_EVTCTL_TB n))) = true ∧
      u.setEvt n { u.evt n with nextJ := (u.evt n).nextJ + 1, last := decide ((u.evt n).per = 0) || decide ((u.evt n).cnt = (u.evt n).nextJ + 1) } = v ∧
      v.awake = true) ∧
    (∃ (t : Nat) (n : Fin 8) (s : State) (u : State) (v : State), s.advance t = u ∧ (u.evt n).run = true ∧
      (u.evt n).last = false ∧ timeDue ((u.evt n).startOf (u.evt n).nextJ) (u.tb (u.fld (TIM_EVTCTL_TB n))) = true ∧
      u.setEvt n { u.evt n with nextJ := (u.evt n).nextJ + 1, last := decide ((u.evt n).per = 0) || decide ((u.evt n).cnt = (u.evt n).nextJ + 1) } = v ∧
      v.awake = false) ∧
    (∃ (t : Nat) (n : Fin 8) (s : State) (u : State), s.advance t = u ∧ (u.evt n).run = false) :=
  ⟨⟨0, 1, (W.setFld (TIM_EVTCTL_OWNER 0) 0), by decide, by decide, by decide⟩,
    ⟨0, (witFw W), by decide, by decide, by decide⟩,
    ⟨0, (W.setFld (TIM_EVTCTL_OWNER 0) 1), by decide, by decide⟩,
    ⟨0, 0, (W.setFld (TIM_EVTCTL_OWNER 0) 3), by decide, by decide, by decide⟩,
    ⟨0, 0, ((W.setFld (TIM_EVTCTL_OWNER 0) 1).setFld (TIM_EVTWIDTH_WIDTH 0) 0), _, rfl, by decide, by decide, by decide⟩,
    ⟨0, 0, ((W.setFld (TIM_EVTCTL_OWNER 0) 1).setFld (TIM_EVTWIDTH_WIDTH 0) 1), _, rfl, by decide, by decide, by decide,
      by decide⟩,
    ⟨0, (W.setEvt 0 { W.evt 0 with run := true, ends := [5] }), by decide, by decide, by decide⟩,
    ⟨0, (W.setEvt 0 { W.evt 0 with run := true }), by unfold State.canonical; decide, by decide, by decide, by decide⟩,
    ⟨0, (W), by decide, by decide⟩,
    ⟨0, 0, (W.setEvt 0 { W.evt 0 with run := true }), _, _, rfl, by decide, by decide, by decide, rfl, by decide⟩,
    ⟨0, 0, ((W.setEvt 0 { W.evt 0 with run := true }).setFld PWR_STAT_STATE 2), _, _, rfl, by decide, by decide, by decide,
      rfl, by decide⟩,
    ⟨0, 0, (W), _, rfl, by decide⟩⟩

theorem test_hyps_CordFramesNeedTheRing :
    (∃ (t : Nat) (s : State) (u : State) (r : Fin 2) (hops : Fin 128) (seq : BitVec 8) (a : Fin 64) (job : BitVec 32) (w : BitVec 32) (map : BitVec 64) (kind : BitVec 2) (q : Fin 8) (g : Fin 257) (cs : BitVec 7) (back : BitVec 40) (f16 : BitVec 16) (b1 : Bool) (b2 : Bool),
      s.advance t = u ∧ u.cordOn = false) ∧
    (∃ (s : State) (l : Fin 2) (r : Fin 2) (hops : Fin 128) (seq : BitVec 8) (a : Fin 64) (job : BitVec 32) (w : BitVec 32) (line : BitVec 40) (f24 : BitVec 24) (g24 : BitVec 24) (id : BitVec 8) (msg : BitVec 128) (map : BitVec 64) (b : Bool),
      s.cordOn = false) :=
  ⟨⟨0, (W), _, 0, 0, 0#8, 0, 0#32, 0#32, 0#64, 0#2, 0, 0, 0#7, 0#40, 0#16, false, false, rfl, by decide⟩,
    ⟨(W), 0, 0, 0, 0#8, 0, 0#32, 0#32, 0#40, 0#24, 0#24, 0#8, 0#128, 0#64, false, by decide⟩⟩

theorem test_hyps_CordTopologyRuns :
    (∃ (s : State) (u : State), s.setBit CRD_STATE_UPW true = u) ∧
    (∃ (t : Nat) (left : Nat) (hops : Fin 128) (seq : BitVec 8) (a : Fin 64) (e : BitVec 7) (s : State) (u : State) (v : State) (w : State),
      s.advance t = u ∧ u.cordOn = true ∧ u.cord.disc.get (fun _ => 0) 0 = left ∧ left ≠ 0 ∧
      (u.setFld CRD_TRAV_NS (min 16777215 ((u.clk + 1 - left) * 5 / 2))).setFld CRD_STATE_NODES hops = v ∧
      (if hops.val = u.fld CRD_CTL_EXPECT then v else (v.setFld CRD_STATE_MEMBER 1).alarm alCORD) = w) ∧
    (∃ (t : Nat) (r : Fin 2) (hops : Fin 128) (seq : BitVec 8) (a : Fin 64) (e : BitVec 7) (s : State) (u : State),
      s.advance t = u ∧ u.cordOn = true ∧ u.cord.disc.get (fun _ => 0) r = 0) ∧
    (∃ (t : Nat) (r : Fin 2) (hops : Fin 128) (seq : BitVec 8) (x : Bool) (a : Fin 64) (e : BitVec 7) (s : State) (u : State) (v : State),
      s.advance t = u ∧ u.cordOn = true ∧ u.setCord { u.cord with found := u.cord.found ||| 2 ^ a.val } = v) ∧
    (∃ (t : Nat) (q : Nat) (s : State) (u : State), s.advance t = u ∧ u.cordOn = true ∧ u.on CRD_STATE_UPE = true ∧
      u.on CRD_STATE_UPW = true ∧ u.cord.disc = [] ∧ u.cord.discAt = 0 ∧ u.cord.probe = [] ∧ u.cord.txSeq = q ∧ q < 252) ∧
    (∃ (l : Fin 2) (s : State) (u : State), s.cordOn = true ∧
      ({ s with freeCtr := s.freeCtr + 1 } : State).sendFrame (2 + l) 3 [s.addr, 1, s.cord.txSeq,
      (Config.freeWord s.freeCtr).toNat % 2 ^ 16] = u) ∧
    (∃ (l : Fin 2) (rtt : BitVec 24) (turn : BitVec 24) (s : State) (ds : List Nat), s.cordOn = true ∧
      (((rtt.toNat - turn.toNat) / 2) :: s.cord.hops.get (fun _ => []) l).take 16 = ds) ∧
    (∃ (s : State), s.cordOn = true) ∧
    (∃ (v : BitVec 32) (s : State), s.barOk 13 = true ∧ s.armed = true) ∧
    (∃ (v : BitVec 32) (s : State) (u : State), s.barOk 13 = true ∧ s.armed = false ∧
      s.setReg CRD_CTL (v &&& 0x007F3F1F#32) = u ∧ v.getLsbD 0 = false) ∧
    (∃ (v : BitVec 32) (s : State) (u : State), s.barOk 13 = true ∧ s.armed = false ∧
      s.setReg CRD_CTL (v &&& 0x007F3F1F#32) = u ∧ v.getLsbD 0 = true ∧ s.on CRD_CTL_EN = false) :=
  ⟨⟨(W), _, rfl⟩,
    ⟨0, 1, 0, 0#8, 0, 0#7, (upCord (W.setOn CRD_CTL_EN) (fun x => { x with disc := [(0, 1)] })), _, _, _, rfl, by decide,
      by decide, by decide, rfl, rfl⟩,
    ⟨0, 0, 0, 0#8, 0, 0#7, (W.setOn CRD_CTL_EN), _, rfl, by decide, by decide⟩,
    ⟨0, 0, 0, 0#8, false, 1, 0#7, (W.setOn CRD_CTL_EN), _, _, rfl, by decide, rfl⟩,
    ⟨0, _,
      (upCord (upCord (upCord (((W.setOn CRD_CTL_EN).setOn CRD_STATE_UPE).setOn CRD_STATE_UPW) (fun x => { x with disc := [] })) (fun x => { x with discAt := 0 })) (fun x => { x with probe := [] })),
      _, rfl, by decide, by decide, by decide, by decide, by decide, by decide, rfl, by decide⟩,
    ⟨0, (W.setOn CRD_CTL_EN), _, by decide, rfl⟩,
    ⟨0, 0#24, 0#24, (W.setOn CRD_CTL_EN), _, by decide, rfl⟩,
    ⟨(W.setOn CRD_CTL_EN), by decide⟩,
    ⟨0#32, (W.setOn HIF_CTL_ARMED), by decide, by decide⟩,
    ⟨0#32, (W.setFld HIF_CTL_ARMED 0), _, by decide, by decide, rfl, by decide⟩,
    ⟨1#32, ((W.setFld HIF_CTL_ARMED 0).setFld CRD_CTL_EN 0), _, by decide, by decide, rfl, by decide, by decide⟩⟩

theorem test_hyps_PressTimeRuns :
    (∃ (t : Nat) (s : State) (u : State) (v : State), s.advance t = u ∧ u.cordOn = true ∧ u.on CRD_CTL_TMASTER = true ∧
      (u.cord.syncTx = 0 ∨ u.cord.syncTx + u.fld CRD_SYNC_PER * 4000 ≤ u.clk + 1) ∧ (u.originate 0 0x10 [u.tb0.toNat,
      bitsOf (u.tbAcc 0) 8 16]).originate 1 0x10 [u.tb0.toNat, bitsOf (u.tbAcc 0) 8 16] = v) ∧
    (∃ (t : Nat) (r : Fin 2) (hops : Fin 128) (seq : BitVec 8) (a : Fin 64) (time : BitVec 32) (frac : BitVec 16) (s : State) (u : State),
      s.advance t = u ∧ u.cordOn = true ∧ a.val = u.addr) ∧
    (∃ (t : Nat) (x : Nat) (r : Fin 2) (hops : Fin 128) (seq : BitVec 8) (a : Fin 64) (time : BitVec 32) (frac : BitVec 16) (s : State) (u : State) (v : State) (w : State),
      s.advance t = u ∧ u.cordOn = true ∧ a.val ≠ u.addr ∧
      time.toNat * 2 ^ 16 + frac.toNat + u.hopIn r * 2 ^ 12 + (Config.freeWord u.freeCtr).toNat % 2 ^ 24 = x ∧
      ({ u with freeCtr := u.freeCtr + 1 } : State).forward ⟨r, hops, seq.toNat, a⟩ 0x10 [x / 2 ^ 16 % 2 ^ 32,
      x % 2 ^ 16] = v ∧ (v.tmNow = none ∨ v.tmNow = some a.val) ∧ (v.cord.near.get (fun _ => (0, 0)) (1 - r)).2 = 0 ∧
      v.setCord { v.cord with tmFrom := some a.val, tmAt := v.clk, near := v.cord.near.set (fun _ => (0, 0)) r (hops, v.clk + 1) } = w) ∧
    (∃ (s : State) (u : State) (v : State) (off : Int),
      (s.setReg CRD_OFFSET (BitVec.ofNat 32 (unsign 32 (sat32 (off / 2 ^ 24))))).setFld CRD_STATE_HOLDOVER 0 = u ∧
      off.natAbs < u.fld CRD_SYNC_STEPTH * 1000 * 2 ^ 24 ∧ 0 < u.fld CRD_SYNC_PER ∧
      u.setReg CRD_CORR (BitVec.ofNat 32 (unsign 32 (max (-(((u.reg (TIM_INC 0)).toNat * u.fld CRD_SYNC_SLEWMAX / 1000000 : Nat) : Int)) (min (((u.reg (TIM_INC 0)).toNat * u.fld CRD_SYNC_SLEWMAX / 1000000 : Nat) : Int) (Int.tdiv off (16 * (u.fld CRD_SYNC_PER * 4000 : Nat))))))) = v ∧
      20 * 2 ^ 24 ≤ off.natAbs ∧ off.natAbs < 100 * 2 ^ 24) ∧
    (∃ (t : Nat) (s : State) (u : State), s.advance t = u ∧ u.cordOn = true ∧ u.on CRD_CTL_TMASTER = false ∧
      u.cord.syncAt + u.fld CRD_SYNC_TO * u.fld CRD_SYNC_PER * 4000 ≤ u.clk) :=
  ⟨⟨0, (upCord ((W.setOn CRD_CTL_EN).setOn CRD_CTL_TMASTER) (fun x => { x with syncTx := 0 })), _, _, rfl, by decide,
      by decide, by decide, rfl⟩,
    ⟨0, 0, 0, 0#8, 0, 0#32, 0#16, (W.setOn CRD_CTL_EN), _, rfl, by decide, by decide⟩,
    ⟨0, _, 0, 0, 0#8, 1, 0#32, 0#16, (W.setOn CRD_CTL_EN), _, _, _, rfl, by decide, by decide, rfl, rfl, by decide,
      by decide, rfl⟩,
    ⟨(W.setFld CRD_SYNC_PER 100), _, _, 400000000, rfl, by decide, by decide, rfl, by decide, by decide⟩,
    ⟨0, ((W.setOn CRD_CTL_EN).setFld CRD_CTL_TMASTER 0), _, rfl, by decide, by decide, by decide⟩⟩

theorem test_hyps_LineAgreementRuns :
    (∃ (t : Nat) (s : State) (u : State) (v : State), s.advance t = u ∧ u.cordOn = true ∧ u.awaitsOrigin = true ∧
      (u.cord.oreqAt = 0 ∨ u.cord.oreqAt + 400000 ≤ u.clk + 1) ∧ u.originate 0 0x20 [(u.reg CRD_JOBID).toNat] = v) ∧
    (∃ (t : Nat) (r : Fin 2) (hops : Fin 128) (seq : BitVec 8) (a : Fin 64) (s : State) (u : State) (v : State),
      s.advance t = u ∧ u.cordOn = true ∧ a.val ≠ u.addr ∧ u.forward ⟨r, hops, seq.toNat,
      a⟩ 0x20 [(u.reg CRD_JOBID).toNat] = v ∧ v.lineMaster = true ∧ v.reg CRD_JOBID = u.reg CRD_JOBID ∧ v.cord.snap = none) ∧
    (∃ (t : Nat) (r : Fin 2) (hops : Fin 128) (seq : BitVec 8) (a : Fin 64) (job : BitVec 32) (s : State) (u : State),
      s.advance t = u ∧ a.val = u.addr) ∧
    (∃ (t : Nat) (r : Fin 2) (hops : Fin 128) (seq : BitVec 8) (a : Fin 64) (job : BitVec 32) (w : BitVec 32) (map : BitVec 64) (s : State) (u : State) (v : State),
      s.advance t = u ∧ u.cordOn = true ∧ a.val ≠ u.addr ∧ u.on CRD_CTL_LMASTER = false ∧ u.cord.lmFrom = none ∧
      u.setCord { u.cord with lmFrom := some a.val } = v) ∧
    (∃ (t : Nat) (w : Word) (s : State) (u : State), s.advance t = u ∧ u.cord.snap = some w ∧ timeDue w u.tb0 = true ∧
      u.lineMaster = false) ∧
    (∃ (t : Nat) (s : State) (u : State), s.advance t = u ∧ u.cord.snap = none) ∧
    (∃ (r : Fin 2) (hops : Fin 128) (seq : BitVec 8) (a : Fin 64) (w : BitVec 32) (line : BitVec 40) (frac : BitVec 24) (s : State) (v : State) (valid : Bool) (tc : Int),
      s.cordOn = true ∧ a.val ≠ s.addr ∧ s.on CRD_CTL_LMASTER = false ∧ s.cord.lmFrom = some a.val ∧
      (s.setCord { s.cord with lmFrom := some a.val }).forward ⟨r, hops, seq.toNat, a⟩ 0x22 [(s.reg CRD_JOBID).toNat, w.toNat,
      line.toNat, frac.toNat, b2n valid] = v ∧ v.awaitsOrigin = true ∧ v.reg CRD_JOBID = s.reg CRD_JOBID ∧
      v.cord.cap = some (w, tc, true)) :=
  ⟨⟨0, (upCord (((W.setOn CRD_CTL_EN).setOn HIF_CTL_ARMED).setOn FIR_STATE_NOORG) (fun x => { x with oreqAt := 0 })), _, _,
      rfl, by decide, by decide, by decide, rfl⟩,
    ⟨0, 0, 0, 0#8, 1, (((W.setOn CRD_CTL_EN).setOn HIF_CTL_ARMED).setOn CRD_CTL_LMASTER), _, _, rfl, by decide, by decide,
      rfl, by decide, by decide, by decide⟩,
    ⟨0, 0, 0, 0#8, 0, 0#32, (W), _, rfl, by decide⟩,
    ⟨0, 0, 0, 0#8, 1, 0#32, 0#32, 0#64, (W.setOn CRD_CTL_EN), _, _, rfl, by decide, by decide, by decide, by decide, rfl⟩,
    ⟨0, 0#32, (upCord (W) (fun x => { x with snap := some 0#32 })), _, rfl, by decide, by decide, by decide⟩,
    ⟨0, (upCord (W) (fun x => { x with snap := none })), _, rfl, by decide⟩,
    ⟨0, 0, 0#8, 1, 5#32, 0#40, 0#24,
      (upCord (((W.setOn CRD_CTL_EN).setOn HIF_CTL_ARMED).setOn FIR_STATE_NOORG) (fun x => { x with lmFrom := some 1, cap := some (5#32, 0, true) })),
      _, false, 0, by decide, by decide, by decide, by decide, rfl, by decide, by decide, rfl⟩⟩

theorem test_hyps_BroadcastsAndBarriersRun :
    (∃ (r : Fin 2) (hops : Fin 128) (seq : BitVec 8) (a : Fin 64) (msg : BitVec 128) (map : BitVec 64) (s : State),
      s.cordOn = true ∧ a.val ≠ s.addr) ∧
    (∃ (r : Fin 2) (hops : Fin 128) (seq : BitVec 8) (a : Fin 64) (msg : BitVec 128) (map : BitVec 64) (s : State),
      s.cordOn = true ∧ a.val = s.addr) ∧
    (∃ (t : Nat) (s : State) (u : State), s.advance t = u ∧ u.barOk 13 = true ∧ u.on CRD_BSEND_BUSY = true) ∧
    (∃ (t : Nat) (s : State) (u : State) (v : State), s.advance t = u ∧ u.barOk 13 = true ∧ u.on CRD_BSEND_BUSY = false ∧
      u.on CRD_CTL_EN = true ∧
      u.originate 0 0x30 [(List.range 4).foldl (fun m j => m + (u.reg (CRD_BTX j)).toNat * 2 ^ (32 * j)) 0, 0] = v) ∧
    (∃ (s : State), s.barOk 13 = true) ∧
    (∃ (id : BitVec 8) (s : State) (u : State), s.barOk 13 = true ∧
      (s.setFld CRD_BARST_ID id.toNat).setFld CRD_BARST_WAITING 1 = u ∧ u.cord.gather = none ∧ u.on CRD_CTL_EN = true) ∧
    (∃ (id : BitVec 8) (s : State) (u : State) (g : Gather), s.barOk 13 = true ∧
      (s.setFld CRD_BARST_ID id.toNat).setFld CRD_BARST_WAITING 1 = u ∧ u.cord.gather = some g) ∧
    (∃ (r : Fin 2) (hops : Fin 128) (seq : BitVec 8) (a : Fin 64) (id : BitVec 8) (map : BitVec 64) (mm : Bool) (s : State),
      s.cordOn = true ∧ a.val ≠ s.addr ∧ s.on CRD_BARST_WAITING = false) ∧
    (∃ (r : Fin 2) (hops : Fin 128) (seq : BitVec 8) (a : Fin 64) (id : BitVec 8) (map : BitVec 64) (mm : Bool) (s : State),
      s.cordOn = true ∧ a.val ≠ s.addr ∧ s.on CRD_BARST_WAITING = true) ∧
    (∃ (r : Fin 2) (hops : Fin 128) (seq : BitVec 8) (a : Fin 64) (id : BitVec 8) (map : BitVec 64) (mm : Bool) (s : State) (u : State),
      s.cordOn = true ∧ a.val = s.addr ∧ s.on CRD_BARST_WAITING = true ∧
      (s.setFld CRD_BARST_WAITING 0).setFld CRD_BARST_DONE 1 = u) ∧
    (∃ (r : Fin 2) (hops : Fin 128) (seq : BitVec 8) (a : Fin 64) (id : BitVec 8) (mm : Bool) (s : State) (u : State) (v : State),
      s.cordOn = true ∧ a.val ≠ s.addr ∧ s.forward ⟨r, hops, seq.toNat, a⟩ 0x32 [id.toNat, b2n mm] = u ∧
      u.on CRD_BARST_WAITING = true ∧ (u.setFld CRD_BARST_WAITING 0).setFld CRD_BARST_DONE 1 = v) ∧
    (∃ (t : Nat) (s : State) (u : State), s.advance t = u ∧ u.on CRD_BSEND_BUSY = true ∧ u.cord.sentAt + 400000 ≤ u.clk) ∧
    (∃ (t : Nat) (s : State) (u : State), s.advance t = u ∧ u.on CRD_BSEND_BUSY = false ∧ u.on CRD_SCHEDST_BUSY = false) :=
  ⟨⟨0, 0, 0#8, 1, 0#128, 0#64, (W.setOn CRD_CTL_EN), by decide, by decide⟩,
    ⟨0, 0, 0#8, 0, 0#128, 0#64, (W.setOn CRD_CTL_EN), by decide, by decide⟩,
    ⟨0, (W.setOn CRD_BSEND_BUSY), _, rfl, by decide, by decide⟩,
    ⟨0, ((W.setFld CRD_BSEND_BUSY 0).setOn CRD_CTL_EN), _, _, rfl, by decide, by decide, by decide, rfl⟩,
    ⟨(W), by decide⟩,
    ⟨0#8, (W.setOn CRD_CTL_EN), _, by decide, rfl, by decide, by decide⟩,
    ⟨0#8, (upCord W (fun x => { x with gather := some ⟨⟨0, 0, 0, 0⟩, 0, 0, false⟩ })), _, ⟨⟨0, 0, 0, 0⟩, 0, 0, false⟩,
      by decide, rfl, rfl⟩,
    ⟨0, 0, 0#8, 1, 0#8, 0#64, false, ((W.setOn CRD_CTL_EN).setFld CRD_BARST_WAITING 0), by decide, by decide, by decide⟩,
    ⟨0, 0, 0#8, 1, 0#8, 0#64, false, ((W.setOn CRD_CTL_EN).setOn CRD_BARST_WAITING), by decide, by decide, by decide⟩,
    ⟨0, 0, 0#8, 0, 0#8, 0#64, false, ((W.setOn CRD_CTL_EN).setOn CRD_BARST_WAITING), _, by decide, by decide, by decide,
      rfl⟩,
    ⟨0, 0, 0#8, 1, 0#8, false, ((W.setOn CRD_CTL_EN).setOn CRD_BARST_WAITING), _, _, by decide, by decide, rfl, by decide,
      rfl⟩,
    ⟨0, (W.setOn CRD_BSEND_BUSY), _, rfl, by decide, by decide⟩,
    ⟨0, ((W.setFld CRD_BSEND_BUSY 0).setFld CRD_SCHEDST_BUSY 0), _, rfl, by decide, by decide⟩⟩

theorem test_hyps_ScheduledActionsRun :
    (∃ (t : Nat) (v : BitVec 32) (s : State) (u : State), s.advance t = u ∧ u.barOk 13 = true ∧ 2 ≤ bitsOf v.toNat 0 2 ∧
      u.on CRD_SCHEDST_BUSY = true) ∧
    (∃ (t : Nat) (v : BitVec 32) (s : State) (u : State) (w : State), s.advance t = u ∧ u.barOk 13 = true ∧
      bitsOf v.toNat 0 2 < 2 ∧ u.setFld CRD_SCHED_KIND (bitsOf v.toNat 0 2) = w ∧ w.on CRD_SCHEDST_BUSY = true) ∧
    (∃ (t : Nat) (v : BitVec 32) (s : State) (u : State) (w : State), s.advance t = u ∧ u.barOk 13 = true ∧
      bitsOf v.toNat 0 2 < 2 ∧ u.setFld CRD_SCHED_KIND (bitsOf v.toNat 0 2) = w ∧ w.on CRD_SCHEDST_BUSY = false ∧
      (w.reg CRD_SCHEDT - w.tb0).toInt < (w.fld CRD_TRAV_NS + 10000 : Nat)) ∧
    (∃ (t : Nat) (v : BitVec 32) (s : State) (u : State) (w : State) (x : State), s.advance t = u ∧ u.barOk 13 = true ∧
      bitsOf v.toNat 0 2 < 2 ∧ u.setFld CRD_SCHED_KIND (bitsOf v.toNat 0 2) = w ∧ w.on CRD_SCHEDST_BUSY = false ∧
      w.on CRD_CTL_EN = true ∧ ((w.fld CRD_TRAV_NS + 10000 : Nat) : Int) ≤ (w.reg CRD_SCHEDT - w.tb0).toInt ∧
      (w.schedTake (w.fld CRD_SCHED_KIND) (w.reg CRD_SCHEDT)).1.originate 0 0x40 [w.fld CRD_SCHED_KIND,
      (w.reg CRD_SCHEDT).toNat, if (w.schedTake (w.fld CRD_SCHED_KIND) (w.reg CRD_SCHEDT)).2 then 2 ^ w.addr else 0] = x) ∧
    (∃ (t : Nat) (r : Fin 2) (hops : Fin 128) (seq : BitVec 8) (a : Fin 64) (k : BitVec 2) (w : BitVec 32) (map : BitVec 64) (s : State) (u : State),
      s.advance t = u ∧ u.cordOn = true ∧ a.val ≠ u.addr ∧ k.toNat ≤ 1 ∧ (k = 1#2 → u.on CRD_CTL_RSTEN = true) ∧
      timeDue w u.tb0 = false ∧ u.cord.queue.length < 4) ∧
    (∃ (t : Nat) (r : Fin 2) (hops : Fin 128) (seq : BitVec 8) (a : Fin 64) (k : BitVec 2) (w : BitVec 32) (map : BitVec 64) (s : State) (u : State),
      s.advance t = u ∧ u.cordOn = true ∧ a.val ≠ u.addr ∧ (2 ≤ k.toNat ∨ (k = 1#2 ∧
      u.on CRD_CTL_RSTEN = false) ∨ timeDue w u.tb0 = true ∨ 4 ≤ u.cord.queue.length)) ∧
    (∃ (t : Nat) (r : Fin 2) (hops : Fin 128) (seq : BitVec 8) (a : Fin 64) (k : BitVec 2) (w : BitVec 32) (map : BitVec 64) (s : State) (u : State) (v : State),
      s.advance t = u ∧ u.cordOn = true ∧ a.val = u.addr ∧ u.on CRD_SCHEDST_BUSY = true ∧ seq.toNat = u.cord.schedSeq ∧
      ((u.setReg64 CRD_SCHEDACKLO CRD_SCHEDACKHI map.toNat).setFld CRD_SCHEDST_BUSY 0).setFld CRD_SCHEDST_DONE 1 = v) ∧
    (∃ (t : Nat) (s : State) (u : State), s.advance t = u ∧ u.on CRD_SCHEDST_BUSY = true ∧ u.cord.schedAt + 400000 ≤ u.clk) ∧
    (∃ (t : Nat) (w : Word) (s : State) (u : State), s.advance t = u ∧ u.cord.queue = [(1, w)] ∧ timeDue w u.tb0 = true) :=
  ⟨⟨0, 2#32, (W.setOn CRD_SCHEDST_BUSY), _, rfl, by decide, by decide, by decide⟩,
    ⟨0, 0#32, (W.setOn CRD_SCHEDST_BUSY), _, _, rfl, by decide, by decide, rfl, by decide⟩,
    ⟨0, 0#32, (W), _, _, rfl, by decide, by decide, rfl, by decide, by decide⟩,
    ⟨0, 0#32, ((W.setOn CRD_CTL_EN).setReg CRD_SCHEDT (((W.setOn CRD_CTL_EN).tb0) + 100000#32)), _, _, _, rfl, by decide,
      by decide, rfl, by decide, by decide, by decide, rfl⟩,
    ⟨0, 0, 0, 0#8, 1, 0#2, ((W.setOn CRD_CTL_EN).tb0 + 100000#32), 0#64, (W.setOn CRD_CTL_EN), _, rfl, by decide, by decide,
      by decide, by decide, by decide, by decide⟩,
    ⟨0, 0, 0, 0#8, 1, 0#2, 0#32, 0#64, (W.setOn CRD_CTL_EN), _, rfl, by decide, by decide, by decide⟩,
    ⟨0, 0, 0, 0#8, 0, 0#2, 0#32, 0#64, ((W.setOn CRD_CTL_EN).setOn CRD_SCHEDST_BUSY), _, _, rfl, by decide, by decide,
      by decide, by decide, rfl⟩,
    ⟨0, (W.setOn CRD_SCHEDST_BUSY), _, rfl, by decide, by decide⟩,
    ⟨0, 0#32, (upCord (W) (fun x => { x with queue := [(1, 0#32)] })), _, rfl, by decide, by decide⟩⟩

theorem test_hyps_TransportFramesRun :
    (∃ (t : Nat) (r : Fin 2) (hops : Fin 128) (seq : BitVec 8) (a : Fin 64) (job : BitVec 32) (armed : Bool) (g : Fin 257) (cs : BitVec 7) (back : BitVec 40) (rdy : Bool) (s : State) (u : State) (v : State),
      s.advance t = u ∧ u.cordOn = true ∧ a.val ≠ u.addr ∧ u.forward ⟨r, hops, seq.toNat, a⟩ 0x50 [job.toNat, b2n armed, g,
      cs.toNat, back.toNat, b2n rdy] = v) ∧
    (∃ (t : Nat) (r : Fin 2) (hops : Fin 128) (seq : BitVec 8) (a : Fin 64) (job : BitVec 32) (armed : Bool) (g : Fin 257) (cs : BitVec 7) (back : BitVec 40) (rdy : Bool) (s : State) (u : State),
      s.advance t = u ∧ a.val = u.addr) ∧
    (∃ (t : Nat) (s : State) (u : State), s.advance t = u ∧ u.cordOn = true ∧ u.armed = true ∧
      (u.cord.repAt + 40000 ≤ u.clk ∨ repKey u.report ≠ repKey u.cord.repLast)) ∧
    (∃ (t : Nat) (a : Fin 64) (s : State) (u : State) (x : Report), s.advance t = u ∧
      u.splice.reps.get (fun _ => Report.none) a = x ∧ x.armed = true ∧ x.at_ + 200000 ≤ u.clk) ∧
    (∃ (t : Nat) (a : Fin 64) (s : State) (u : State), s.advance t = u ∧
      (u.splice.reps.get (fun _ => Report.none) a).armed = false) ∧
    (∃ (t : Nat) (r : Fin 2) (hops : Fin 128) (seq : BitVec 8) (a : Fin 64) (q : Fin 8) (n : BitVec 32) (s : State) (u : State) (v : State) (w : State),
      s.advance t = u ∧ u.cordOn = true ∧ a.val ≠ u.addr ∧ u.forward ⟨r, hops, seq.toNat, a⟩ 0x51 [q, n.toNat] = v ∧
      v.actMaster = false ∧ v.setCord { v.cord with silent := false, stateAt := v.clk } = w) ∧
    (∃ (t : Nat) (s : State) (u : State), s.advance t = u ∧ u.cordOn = true ∧ u.actMaster = true ∧
      u.cord.stateTx + 4000 ≤ u.clk) ∧
    (∃ (t : Nat) (s : State) (u : State), s.advance t = u ∧ u.armed = true ∧ u.actMaster = false ∧
      u.cord.stateAt + 80000 ≤ u.clk) ∧
    (∃ (t : Nat) (s : State) (u : State), s.advance t = u ∧ u.armed = false) :=
  ⟨⟨0, 0, 0, 0#8, 1, 0#32, false, 0, 0#7, 0#40, false, (W.setOn CRD_CTL_EN), _, _, rfl, by decide, by decide, rfl⟩,
    ⟨0, 0, 0, 0#8, 0, 0#32, false, 0, 0#7, 0#40, false, (W), _, rfl, by decide⟩,
    ⟨0, ((W.setOn CRD_CTL_EN).setOn HIF_CTL_ARMED), _, rfl, by decide, by decide, by decide⟩,
    ⟨0, 0, (upSplice W (fun x => { x with reps := [(0, ⟨0, 0, false, 0, 0, true, false⟩)] })), _, ⟨0, 0, false, 0, 0, true,
      false⟩, rfl, by decide, by decide, by decide⟩,
    ⟨0, 0, (W), _, rfl, by decide⟩,
    ⟨0, 0, 0, 0#8, 1, 0, 0#32, ((W.setOn CRD_CTL_EN).setFld TRN_CTL_MASTER 0), _, _, _, rfl, by decide, by decide, rfl,
      by decide, rfl⟩,
    ⟨0, ((W.setOn CRD_CTL_EN).setOn TRN_CTL_MASTER), _, rfl, by decide, by decide, by decide⟩,
    ⟨0, ((W.setOn HIF_CTL_ARMED).setFld TRN_CTL_MASTER 0), _, rfl, by decide, by decide, by decide⟩,
    ⟨0, (W.setFld HIF_CTL_ARMED 0), _, rfl, by decide⟩⟩

theorem test_hyps_TwinLinkRuns :
    (∃ (t : Nat) (rtt : BitVec 16) (s : State) (u : State) (v : State), s.advance t = u ∧ u.twinOn = true ∧
      (((u.setFld TWN_LINKST_LANES 3).setFld TWN_LINKST_RTT rtt.toNat).setTwin { u.twin with lanesOk := true }) = v ∧
      v.on TWN_LINKST_UP = false ∧ v.role ≠ roINIT ∧ (v.twin.unbroken = true ∨ (v.twin.helloTx = true ∧
      v.twin.helloRx = true))) ∧
    (∃ (t : Nat) (rtt : BitVec 16) (s : State) (u : State) (v : State), s.advance t = u ∧ u.twinOn = true ∧
      (((u.setFld TWN_LINKST_LANES 3).setFld TWN_LINKST_RTT rtt.toNat).setTwin { u.twin with lanesOk := true }) = v ∧
      v.on TWN_LINKST_UP = false ∧ v.role ≠ roINIT ∧ v.twin.unbroken = false ∧ v.twin.helloRx = false) ∧
    (∃ (t : Nat) (up : Bool) (lanes : BitVec 2) (rtt : BitVec 16) (s : State) (u : State) (v : State), s.advance t = u ∧
      u.twinOn = true ∧ (up = false ∨ lanes ≠ 3#2) ∧
      ((((u.setFld TWN_LINKST_LANES lanes.toNat).setFld TWN_LINKST_RTT rtt.toNat).setFld TWN_LINKST_UP 0).setFld TWN_STATE_LINK 0) = v) ∧
    (∃ (s : State), s.twinOn = true) ∧
    (∃ (s : State), s.twinOn = false) ∧
    (∃ (t : Nat) (up : Bool) (lanes : BitVec 2) (rtt : BitVec 16) (f : EntryFrame) (ack : BitVec 8) (role : Fin 6) (ready : Bool) (reason : BitVec 4) (strap : BitVec 2) (primed : Bool) (armed : Bool) (done : Bool) (digest : BitVec 32) (serial : BitVec 64) (s : State) (u : State),
      s.advance t = u ∧ u.twinOn = false ∧ u.twin.unacked = []) ∧
    (∃ (t : Nat) (s : State) (u : State) (v : State) (f : Unacked), s.advance t = u ∧
      u.twin.unacked.find? (fun f => decide (f.at_ + 800 ≤ u.clk)) = some f ∧ f.tries < 8 ∧
      (u.sendFrame lkTWIN f.frame.kind (u.twinFrame f.seq f.frame.kind f.frame.body)).countReg TWN_RESEND 1 = v) ∧
    (∃ (t : Nat) (s : State) (u : State) (f : Unacked), s.advance t = u ∧
      u.twin.unacked.find? (fun f => decide (f.at_ + 800 ≤ u.clk)) = some f ∧ 8 ≤ f.tries) ∧
    (∃ (t : Nat) (done : Bool) (s : State) (u : State) (v : State), s.advance t = u ∧ u.twinOn = true ∧ u.awake = true ∧
      u.on RST_STAT_DONE = true ∧ u.timerOver tmHello 400 = true ∧
      (((u.startTimer tmHello).setTwin { u.twin with done := done }).primeStep).readyShow = v ∧ v.on TWN_LINKST_UP = true ∧
      v.twin.fwd = true) ∧
    (∃ (t : Nat) (ack : BitVec 8) (role : Fin 6) (ready : Bool) (reason : BitVec 4) (strap : BitVec 2) (primed : Bool) (armed : Bool) (digest : BitVec 32) (serial : BitVec 64) (s : State) (u : State) (v : State),
      s.advance t = u ∧ u.twinOn = true ∧ strap.toNat ≠ u.fld SYS_CAPS_TWIN ∧
      ((u.setTwin { u.twin with unacked := ackUpTo ack.toNat u.twin.unacked, helloAt := some u.clk, helloRx := true, rstSent := u.twin.rstSent && role.val != roINIT && role.val != roPRIME, fwd := u.twin.fwd && role.val != roINIT, released := if role.val = roACTIVE then 0 else u.twin.released, pstrap := strap.toNat, pready := ready, preason := reason.toNat, pprimed := primed, parmed := armed, pserial := serial.toNat }).setFld TWN_STATE_PROLE role).setReg TWN_PCFGCRC digest = v ∧
      v.role = u.role ∧ v.fld TWN_STATE_PROLE = role ∧ v.fld SYS_CAPS_TWIN = u.fld SYS_CAPS_TWIN ∧ u.role = roSTANDBY ∧
      u.on TWN_LINKST_UP = true ∧ (role.val = roSTANDBY ∨ role.val = roACTIVE)) ∧
    (∃ (t : Nat) (ack : BitVec 8) (role : Fin 6) (ready : Bool) (reason : BitVec 4) (strap : BitVec 2) (primed : Bool) (armed : Bool) (digest : BitVec 32) (serial : BitVec 64) (s : State) (u : State) (v : State),
      s.advance t = u ∧ u.twinOn = true ∧ strap.toNat ≠ u.fld SYS_CAPS_TWIN ∧
      ((u.setTwin { u.twin with unacked := ackUpTo ack.toNat u.twin.unacked, helloAt := some u.clk, helloRx := true, rstSent := u.twin.rstSent && role.val != roINIT && role.val != roPRIME, fwd := u.twin.fwd && role.val != roINIT, released := if role.val = roACTIVE then 0 else u.twin.released, pstrap := strap.toNat, pready := ready, preason := reason.toNat, pprimed := primed, parmed := armed, pserial := serial.toNat }).setFld TWN_STATE_PROLE role).setReg TWN_PCFGCRC digest = v ∧
      v.role = u.role ∧ v.fld TWN_STATE_PROLE = role ∧ v.fld SYS_CAPS_TWIN = u.fld SYS_CAPS_TWIN ∧ u.role = roSTANDBY ∧
      u.on TWN_LINKST_UP = true ∧ v.partnerDrives = false ∧ (role.val = roINIT ∨ role.val = roPRIME)) ∧
    (∃ (t : Nat) (ack : BitVec 8) (role : Fin 6) (ready : Bool) (reason : BitVec 4) (strap : BitVec 2) (primed : Bool) (armed : Bool) (digest : BitVec 32) (serial : BitVec 64) (s : State) (u : State) (v : State),
      s.advance t = u ∧ u.twinOn = true ∧ strap.toNat ≠ u.fld SYS_CAPS_TWIN ∧
      ((u.setTwin { u.twin with unacked := ackUpTo ack.toNat u.twin.unacked, helloAt := some u.clk, helloRx := true, rstSent := u.twin.rstSent && role.val != roINIT && role.val != roPRIME, fwd := u.twin.fwd && role.val != roINIT, released := if role.val = roACTIVE then 0 else u.twin.released, pstrap := strap.toNat, pready := ready, preason := reason.toNat, pprimed := primed, parmed := armed, pserial := serial.toNat }).setFld TWN_STATE_PROLE role).setReg TWN_PCFGCRC digest = v ∧
      v.role = u.role ∧ v.fld TWN_STATE_PROLE = role ∧ v.fld SYS_CAPS_TWIN = u.fld SYS_CAPS_TWIN ∧ u.role = roACTIVE ∧
      u.on TWN_LINKST_UP = true ∧ role.val ≠ roACTIVE ∧ role.val ≠ roOUT) ∧
    (∃ (t : Nat) (ack : BitVec 8) (role : Fin 6) (ready : Bool) (reason : BitVec 4) (strap : BitVec 2) (primed : Bool) (armed : Bool) (digest : BitVec 32) (serial : BitVec 64) (s : State) (u : State) (v : State),
      s.advance t = u ∧ u.twinOn = true ∧ strap.toNat ≠ u.fld SYS_CAPS_TWIN ∧
      ((u.setTwin { u.twin with unacked := ackUpTo ack.toNat u.twin.unacked, helloAt := some u.clk, helloRx := true, rstSent := u.twin.rstSent && role.val != roINIT && role.val != roPRIME, fwd := u.twin.fwd && role.val != roINIT, released := if role.val = roACTIVE then 0 else u.twin.released, pstrap := strap.toNat, pready := ready, preason := reason.toNat, pprimed := primed, parmed := armed, pserial := serial.toNat }).setFld TWN_STATE_PROLE role).setReg TWN_PCFGCRC digest = v ∧
      v.role = u.role ∧ v.fld TWN_STATE_PROLE = role ∧ v.fld SYS_CAPS_TWIN = u.fld SYS_CAPS_TWIN ∧ u.role = roACTIVE ∧
      u.on TWN_LINKST_UP = true ∧ role.val = roACTIVE ∧ v.on TWN_STATE_STRAPDUP = false) ∧
    (∃ (t : Nat) (ack : BitVec 8) (role : Fin 6) (ready : Bool) (reason : BitVec 4) (strap : BitVec 2) (primed : Bool) (armed : Bool) (digest : BitVec 32) (serial : BitVec 64) (s : State) (u : State) (v : State),
      s.advance t = u ∧ u.twinOn = true ∧ strap.toNat ≠ u.fld SYS_CAPS_TWIN ∧
      ((u.setTwin { u.twin with unacked := ackUpTo ack.toNat u.twin.unacked, helloAt := some u.clk, helloRx := true, rstSent := u.twin.rstSent && role.val != roINIT && role.val != roPRIME, fwd := u.twin.fwd && role.val != roINIT, released := if role.val = roACTIVE then 0 else u.twin.released, pstrap := strap.toNat, pready := ready, preason := reason.toNat, pprimed := primed, parmed := armed, pserial := serial.toNat }).setFld TWN_STATE_PROLE role).setReg TWN_PCFGCRC digest = v ∧
      v.role = u.role ∧ v.fld TWN_STATE_PROLE = role ∧ v.fld SYS_CAPS_TWIN = u.fld SYS_CAPS_TWIN ∧ u.role = roPRIME ∧
      u.on TWN_LINKST_UP = true ∧ role.val = roACTIVE) ∧
    (∃ (t : Nat) (ack : BitVec 8) (role : Fin 6) (ready : Bool) (reason : BitVec 4) (strap : BitVec 2) (primed : Bool) (armed : Bool) (digest : BitVec 32) (serial : BitVec 64) (s : State) (u : State) (v : State),
      s.advance t = u ∧ u.twinOn = true ∧ strap.toNat ≠ u.fld SYS_CAPS_TWIN ∧
      ((u.setTwin { u.twin with unacked := ackUpTo ack.toNat u.twin.unacked, helloAt := some u.clk, helloRx := true, rstSent := u.twin.rstSent && role.val != roINIT && role.val != roPRIME, fwd := u.twin.fwd && role.val != roINIT, released := if role.val = roACTIVE then 0 else u.twin.released, pstrap := strap.toNat, pready := ready, preason := reason.toNat, pprimed := primed, parmed := armed, pserial := serial.toNat }).setFld TWN_STATE_PROLE role).setReg TWN_PCFGCRC digest = v ∧
      v.role = u.role ∧ v.fld TWN_STATE_PROLE = role ∧ v.fld SYS_CAPS_TWIN = u.fld SYS_CAPS_TWIN ∧ u.role = roINIT ∧
      u.on TWN_LINKST_UP = false ∧ u.twin.lanesOk = false) ∧
    (∃ (t : Nat) (ack : BitVec 8) (role : Fin 6) (ready : Bool) (reason : BitVec 4) (strap : BitVec 2) (primed : Bool) (armed : Bool) (digest : BitVec 32) (serial : BitVec 64) (s : State) (u : State) (v : State),
      s.advance t = u ∧ u.twinOn = true ∧ strap.toNat ≠ u.fld SYS_CAPS_TWIN ∧
      ((u.setTwin { u.twin with unacked := ackUpTo ack.toNat u.twin.unacked, helloAt := some u.clk, helloRx := true, rstSent := u.twin.rstSent && role.val != roINIT && role.val != roPRIME, fwd := u.twin.fwd && role.val != roINIT, released := if role.val = roACTIVE then 0 else u.twin.released, pstrap := strap.toNat, pready := ready, preason := reason.toNat, pprimed := primed, parmed := armed, pserial := serial.toNat }).setFld TWN_STATE_PROLE role).setReg TWN_PCFGCRC digest = v ∧
      v.role = u.role ∧ v.fld TWN_STATE_PROLE = role ∧ v.fld SYS_CAPS_TWIN = u.fld SYS_CAPS_TWIN ∧ u.role = roINIT ∧
      u.on TWN_LINKST_UP = true ∧ role.val = roACTIVE ∧ (v.setFld TWN_STATE_ROLE roPRIME).role = roPRIME) ∧
    (∃ (s : State), s.role = roPRIME ∧ s.partnerGone = false ∧ s.on TWN_STATE_STRAPDUP = false ∧
      s.fld TWN_STATE_PROLE = roACTIVE) ∧
    (∃ (t : Nat) (s : State) (u : State) (v : State) (e : TEntry) (l : List TEntry), s.advance t = u ∧ u.twinOn = true ∧
      u.twin.out = e :: l ∧ (20 ≤ u.twin.out.length ∨ e.at_ + 400 ≤ u.clk) ∧
      u.setTwin { u.twin with out := u.twin.out.drop 20 } = v ∧ v.on TWN_LINKST_UP = true) ∧
    (∃ (t : Nat) (s : State) (u : State), s.advance t = u ∧ u.twin.out = []) ∧
    (∃ (t : Nat) (ack : BitVec 8) (es : List (BitVec 96)) (s : State) (u : State), s.advance t = u ∧ u.twinOn = true ∧
      u.on TWN_LINKST_UP = true) ∧
    (∃ (t : Nat) (f : EntryFrame) (s : State) (u : State), s.advance t = u ∧ u.on TWN_LINKST_UP = false) ∧
    (∃ (t : Nat) (ack : BitVec 8) (role : Fin 6) (ready : Bool) (reason : BitVec 4) (strap : BitVec 2) (primed : Bool) (armed : Bool) (digest : BitVec 32) (serial : BitVec 64) (s : State) (u : State),
      s.canonical ∧ s.advance t = u ∧ u.twinOn = true ∧ u.role = roSTANDBY ∧ u.on TWN_LINKST_UP = true ∧ role ≠ 0 ∧ role ≠ 1 ∧
      role ≠ 2 ∧ role ≠ 5 ∧ strap.toNat ≠ u.fld SYS_CAPS_TWIN) :=
  ⟨⟨0, 0#16, ((W.setFld SYS_CAPS_TWIN 1).setOn TWN_CTL_EN), _, _, rfl, by decide, rfl, by decide, by decide, by decide⟩,
    ⟨0, 0#16, (upTwin ((witTwin W roACTIVE).setFld TWN_LINKST_UP 0) (fun x => { x with unbroken := false })), _, _, rfl,
      by decide, rfl, by decide, by decide, by decide, by decide⟩,
    ⟨0, false, 0#2, 0#16, ((W.setFld SYS_CAPS_TWIN 1).setOn TWN_CTL_EN), _, _, rfl, by decide, by decide, rfl⟩,
    ⟨((W.setFld SYS_CAPS_TWIN 1).setOn TWN_CTL_EN), by decide⟩,
    ⟨(upTwin W (fun x => { x with unacked := [⟨1, ⟨0, 0, []⟩, 0, 0⟩] })), by decide⟩,
    ⟨0, false, 0#2, 0#16, ⟨0#8, []⟩, 0#8, 0, false, 0#4, 0#2, false, false, false, 0#32, 0#64, (W), _, rfl, by decide,
      by decide⟩,
    ⟨0, (upTwin W (fun x => { x with unacked := [⟨1, ⟨0, 0, []⟩, 0, 0⟩] })), _, _, ⟨1, ⟨0, 0, []⟩, 0, 0⟩, rfl, by decide,
      by decide, rfl⟩,
    ⟨0, (upTwin W (fun x => { x with unacked := [⟨1, ⟨0, 0, []⟩, 0, 9⟩] })), _, ⟨1, ⟨0, 0, []⟩, 0, 9⟩, rfl, by decide,
      by decide⟩,
    ⟨0, false, (upTwin ((witTwin W).setOn RST_STAT_DONE) (fun x => { x with fwd := true })), _, _, rfl, by decide,
      by decide, by decide, by decide, rfl, by decide, by decide⟩,
    ⟨0, 0#8, 3, false, 0#4, 2#2, false, false, 0#32, 0#64, (witTwin W roSTANDBY), _, _, rfl, by decide, by decide, rfl,
      by decide, rfl, by decide, by decide, by decide, .inl rfl⟩,
    ⟨0, 0#8, 1, false, 0#4, 2#2, false, false, 0#32, 0#64, (witTwin W roSTANDBY), _, _, rfl, by decide, by decide, rfl,
      by decide, rfl, by decide, by decide, by decide, by decide, .inl rfl⟩,
    ⟨0, 0#8, 3, false, 0#4, 2#2, false, false, 0#32, 0#64, (witTwin W roACTIVE), _, _, rfl, by decide, by decide, rfl,
      by decide, rfl, by decide, by decide, by decide, by decide, by decide⟩,
    ⟨0, 0#8, 4, false, 0#4, 2#2, false, false, 0#32, 0#64, (witTwin W roACTIVE), _, _, rfl, by decide, by decide, rfl,
      by decide, rfl, by decide, by decide, by decide, by decide, by decide⟩,
    ⟨0, 0#8, 4, false, 0#4, 2#2, false, false, 0#32, 0#64, (witTwin W roPRIME), _, _, rfl, by decide, by decide, rfl,
      by decide, rfl, by decide, by decide, by decide, by decide⟩,
    ⟨0, 0#8, 4, false, 0#4, 2#2, false, false, 0#32, 0#64,
      (upTwin ((witTwin W roINIT).setFld TWN_LINKST_UP 0) (fun x => { x with lanesOk := false })), _, _, rfl, by decide,
      by decide, rfl, by decide, rfl, by decide, by decide, by decide, by decide⟩,
    ⟨0, 0#8, 4, false, 0#4, 2#2, false, false, 0#32, 0#64, (witTwin W roINIT), _, _, rfl, by decide, by decide, rfl,
      by decide, rfl, by decide, by decide, by decide, by decide, by decide⟩,
    ⟨((((W.setFld TWN_STATE_ROLE roPRIME).setFld TWN_STATE_PROLE roACTIVE).setFld TWN_STATE_PALIVE 1)), by decide,
      by decide, by decide, by decide⟩,
    ⟨0, (upTwin (witTwin W) (fun x => { x with out := [⟨0, 0, 0, 0, 0#32, 0, 0⟩] })), _, _, ⟨0, 0, 0, 0, 0#32, 0, 0⟩, [],
      rfl, by decide, rfl, .inr (by decide), rfl, by decide⟩,
    ⟨0, (upTwin (W) (fun x => { x with out := [] })), _, rfl, by decide⟩,
    ⟨0, 0#8, [], (((W.setFld SYS_CAPS_TWIN 1).setOn TWN_CTL_EN).setOn TWN_LINKST_UP), _, rfl, by decide, by decide⟩,
    ⟨0, ⟨0#8, []⟩, (W), _, rfl, by decide⟩,
    ⟨0, 0#8, 4, false, 0#4, 2#2, false, false, 0#32, 0#64, (witTwin W roSTANDBY), _, by unfold State.canonical; decide, rfl,
      by decide, by decide, by decide, by decide, by decide, by decide, by decide, by decide⟩⟩

theorem test_hyps_LineEntriesAreCompared :
    (∃ (near : Nat) (l : Nat), near ≤ l + 2 ^ 31 ∧ l < near + 2 ^ 31) ∧
    (∃ (s : State) (e : BitVec 96), extendLine (s.head (entPort6 e)).next (entLine e) + 64 < (s.head (entPort6 e)).next) ∧
    (∃ (s : State) (e : BitVec 96) (p : Nat) (l : Nat), entPort6 e = p ∧ extendLine (s.head p).next (entLine e) = l ∧
      (s.head p).next ≤ l + 64 ∧ entKind e = 1 ∧ entAsh e = false) ∧
    (∃ (s : State) (e : BitVec 96) (p : Nat) (l : Nat), entPort6 e = p ∧ extendLine (s.head p).next (entLine e) = l ∧
      (s.head p).next ≤ l + 64 ∧ entKind e = 1 ∧ entAsh e = true) ∧
    (∃ (s : State) (v : State) (p : Nat) (l : Nat) (a : Word) (b : Word), (s.tline p l).sig = some a ∧
      (s.tline p l).psig = some b ∧ (s.tline p l).sigs = false ∧ a ≠ b ∧
      s.modTline p l (fun x => { x with sigs := true }) = v ∧ v.tline p l = { s.tline p l with sigs := true } ∧
      (s.tline p l).kind = none) ∧
    (∃ (s : State) (v : State) (p : Nat) (l : Nat) (a : Word) (b : Word), (s.tline p l).sig = some a ∧
      (s.tline p l).psig = some b ∧ (s.tline p l).sigs = false ∧ a ≠ b ∧
      s.modTline p l (fun x => { x with sigs := true }) = v ∧ v.tline p l = { s.tline p l with sigs := true } ∧
      (s.tline p l).kind = some 0) ∧
    (∃ (s : State) (p : Nat) (l : Nat) (k : Nat), s.canonical) ∧
    (∃ (s : State) (p : Nat) (l : Nat) (a : Word), (s.tline p l).sig = some a ∧ (s.tline p l).psig = some a ∧
      (s.tline p l).sigs = false) ∧
    (∃ (s : State) (p : Nat) (l : Nat), (s.tline p l).sigs = true) :=
  ⟨⟨0, 0, by decide, by decide⟩,
    ⟨(W.modHead 0 (fun x => { x with next := 1000 })), 0#96, by decide⟩,
    ⟨(W), 1#96, 0, _, by decide, rfl, by decide, by decide, by decide⟩,
    ⟨(W), 4835703278458516698824705#96, 0, _, by decide, rfl, by decide, by decide, by decide⟩,
    ⟨(upTwin W (fun x => { x with lines := [⟨0, 0, some 1#32, some 2#32, none, none, false, false, false, false, none, false⟩] })),
      _, 0, 0, 1#32, 2#32, rfl, rfl, by decide, by decide, rfl, by decide, by decide⟩,
    ⟨(upTwin W (fun x => { x with lines := [⟨0, 0, some 1#32, some 2#32, none, none, false, false, false, false, some 0, false⟩] })),
      _, 0, 0, 1#32, 2#32, rfl, rfl, by decide, by decide, rfl, by decide, by decide⟩,
    ⟨(W), 0, 0, 0, by unfold State.canonical; decide⟩,
    ⟨(upTwin W (fun x => { x with lines := [⟨0, 0, some 1#32, some 1#32, none, none, false, false, false, false, none, false⟩] })),
      0, 0, 1#32, rfl, by decide, by decide⟩,
    ⟨(upTwin W (fun x => { x with lines := [⟨0, 0, none, none, none, none, false, false, true, false, none, false⟩] })), 0,
      0, by decide⟩⟩

theorem test_hyps_AgreementsRun :
    (∃ (t : Nat) (seq : LinkHdr) (purpose : Fin 6) (mask : BitVec 64) (prop : BitVec 40) (arg : BitVec 32) (s : State) (u : State) (v : State),
      s.advance t = u ∧ u.twinOn = true ∧ u.on TWN_LINKST_UP = true ∧ u.twin.seqIn ≠ seq.seq.toNat ∧
      u.setTwin { u.twin with unacked := ackUpTo seq.ack.toNat u.twin.unacked, seqIn := seq.seq.toNat } = v ∧
      v.twin.agrees.find? (fun g => !g.done && g.purpose == purpose.val && (g.mask &&& mask.toNat) != 0) = none) ∧
    (∃ (t : Nat) (seq : LinkHdr) (purpose : Fin 6) (mask : BitVec 64) (prop : BitVec 40) (arg : BitVec 32) (s : State) (u : State) (v : State) (w : State) (g : Agreement),
      s.advance t = u ∧ u.twinOn = true ∧ u.on TWN_LINKST_UP = true ∧ u.twin.seqIn ≠ seq.seq.toNat ∧
      u.setTwin { u.twin with unacked := ackUpTo seq.ack.toNat u.twin.unacked, seqIn := seq.seq.toNat } = v ∧
      v.twin.agrees.find? (fun g => !g.done && g.purpose == purpose.val && (g.mask &&& mask.toNat) != 0) = some g ∧
      ((v.setTwin { v.twin with agrees := replaceFirst (fun x => x == g) (fun x => { x with done := true }) v.twin.agrees }).twinSend 0x11 [purpose,
      max g.prop prop.toNat]).agreed purpose (max g.prop prop.toNat) g.arg = w) ∧
    (∃ (t : Nat) (seq : LinkHdr) (purpose : Fin 6) (a : BitVec 40) (s : State) (u : State) (v : State) (w : State) (g : Agreement),
      s.advance t = u ∧ u.twinOn = true ∧ u.on TWN_LINKST_UP = true ∧ u.twin.seqIn ≠ seq.seq.toNat ∧
      u.setTwin { u.twin with unacked := ackUpTo seq.ack.toNat u.twin.unacked, seqIn := seq.seq.toNat } = v ∧
      v.twin.agrees.find? (fun g => g.purpose == purpose.val) = some g ∧
      v.setTwin { v.twin with agrees := v.twin.agrees.erase g } = w) ∧
    (∃ (t : Nat) (seq : LinkHdr) (purpose : Fin 6) (mask : BitVec 64) (prop : BitVec 40) (a : BitVec 40) (arg : BitVec 32) (s : State) (u : State),
      s.advance t = u ∧ (u.twinOn = false ∨ u.on TWN_LINKST_UP = false)) ∧
    (∃ (t : Nat) (seq : LinkHdr) (purpose : Fin 6) (mask : BitVec 64) (prop : BitVec 40) (a : BitVec 40) (arg : BitVec 32) (s : State) (u : State),
      s.advance t = u ∧ u.twinOn = true ∧ u.on TWN_LINKST_UP = true ∧ u.twin.seqIn = seq.seq.toNat) ∧
    (∃ (l : List Unacked) (a : Nat), l.any (fun u => u.seq == a) = false) ∧
    (∃ (l : List Unacked) (a : Nat) (x : List Unacked) (y : List Unacked) (f : Unacked), l = x ++ f :: y ∧ f.seq = a ∧
      (∀ g ∈ x, g.seq ≠ a)) ∧
    (∃ (t : Nat) (s : State) (u : State) (w : State) (g : Agreement), s.advance t = u ∧
      u.twin.agrees.find? (fun g => decide (g.at_ + 8000 ≤ u.clk)) = some g ∧
      u.setTwin { u.twin with agrees := u.twin.agrees.erase g } = w) ∧
    (∃ (t : Nat) (s : State) (u : State), s.advance t = u ∧ u.twin.agrees = []) ∧
    (∃ (t : Nat) (s : State) (u : State), s.advance t = u ∧ u.returnDue = true) ∧
    (∃ (t : Nat) (s : State) (u : State), s.advance t = u ∧ u.returnDue = false) ∧
    (∃ (s : State) (mask : Nat) (arg : Nat) (purpose : Nat), s.twin.agrees = [] ∧ s.twinOn = true ∧ s.on TWN_LINKST_UP = true) ∧
    (∃ (t : Nat) (seq : LinkHdr) (purpose : Fin 6) (mask : BitVec 64) (prop : BitVec 40) (arg : BitVec 32) (s : State) (u : State) (v : State) (a : Nat),
      s.canonical ∧ s.advance t = u ∧ u.twinOn = true ∧ u.on TWN_LINKST_UP = true ∧ u.twin.seqIn ≠ seq.seq.toNat ∧
      u.setTwin { u.twin with unacked := ackUpTo seq.ack.toNat u.twin.unacked, seqIn := seq.seq.toNat } = v ∧
      v.twin.agrees.find? (fun g => !g.done && g.purpose == purpose.val && (g.mask &&& mask.toNat) != 0) = none ∧
      max (v.proposal mask.toNat) prop.toNat = a ∧ purpose.val = puEMBER) ∧
    (∃ (t : Nat) (seq : LinkHdr) (purpose : Fin 6) (mask : BitVec 64) (prop : BitVec 40) (arg : BitVec 32) (s : State) (u : State) (v : State) (a : Nat),
      s.canonical ∧ s.advance t = u ∧ u.twinOn = true ∧ u.on TWN_LINKST_UP = true ∧ u.twin.seqIn ≠ seq.seq.toNat ∧
      u.setTwin { u.twin with unacked := ackUpTo seq.ack.toNat u.twin.unacked, seqIn := seq.seq.toNat } = v ∧
      v.twin.agrees.find? (fun g => !g.done && g.purpose == purpose.val && (g.mask &&& mask.toNat) != 0) = none ∧
      max (v.proposal mask.toNat) prop.toNat = a ∧ purpose.val = puRETURN) ∧
    (∃ (t : Nat) (seq : LinkHdr) (purpose : Fin 6) (a : BitVec 40) (s : State) (u : State) (g : Agreement), s.canonical ∧
      s.advance t = u ∧ u.twinOn = true ∧ u.on TWN_LINKST_UP = true ∧ u.twin.seqIn ≠ seq.seq.toNat ∧
      u.twin.agrees.find? (fun g => g.purpose == purpose.val) = some g ∧ g.done = false ∧ purpose.val = puEMBER) ∧
    (∃ (t : Nat) (seq : LinkHdr) (purpose : Fin 6) (a : BitVec 40) (s : State) (u : State) (g : Agreement), s.canonical ∧
      s.advance t = u ∧ u.twinOn = true ∧ u.on TWN_LINKST_UP = true ∧ u.twin.seqIn ≠ seq.seq.toNat ∧
      u.twin.agrees.find? (fun g => g.purpose == purpose.val) = some g ∧ g.done = false ∧ purpose.val = puRETURN) ∧
    (∃ (t : Nat) (s : State) (u : State) (g : Agreement), s.canonical ∧ s.advance t = u ∧
      u.twin.agrees.find? (fun g => decide (g.at_ + 8000 ≤ u.clk)) = some g ∧ g.done = false ∧ g.purpose = puEMBER) :=
  ⟨⟨0, ⟨1#8, 0#8⟩, 0, 0#64, 0#40, 0#32, (((W.setFld SYS_CAPS_TWIN 1).setOn TWN_CTL_EN).setOn TWN_LINKST_UP), _, _, rfl,
      by decide, by decide, by decide, rfl, by decide⟩,
    ⟨0, ⟨1#8, 0#8⟩, 1, 1#64, 0#40, 0#32, (upTwin (witTwin W) (fun x => { x with agrees := [⟨1, 1, 0, 0, 0, false⟩] })), _,
      _, _, ⟨1, 1, 0, 0, 0, false⟩, rfl, by decide, by decide, by decide, rfl, by decide, rfl⟩,
    ⟨0, ⟨1#8, 0#8⟩, 1, 0#40, (upTwin (witTwin W) (fun x => { x with agrees := [⟨1, 1, 0, 0, 0, false⟩] })), _, _, _, ⟨1, 1,
      0, 0, 0, false⟩, rfl, by decide, by decide, by decide, rfl, by decide, rfl⟩,
    ⟨0, ⟨0#8, 0#8⟩, 0, 0#64, 0#40, 0#40, 0#32, (W), _, rfl, by decide⟩,
    ⟨0, ⟨5#8, 0#8⟩, 0, 0#64, 0#40, 0#40, 0#32, (upTwin (witTwin W) (fun x => { x with seqIn := 5 })), _, rfl, by decide,
      by decide, by decide⟩,
    ⟨[], 0, by decide⟩,
    ⟨[⟨1, ⟨0, 0, []⟩, 0, 0⟩], 1, [], [], ⟨1, ⟨0, 0, []⟩, 0, 0⟩, by decide, rfl, by decide⟩,
    ⟨0, (upTwin (witTwin W) (fun x => { x with agrees := [⟨1, 1, 0, 0, 0, false⟩] })), _, _, ⟨1, 1, 0, 0, 0, false⟩, rfl,
      by decide, rfl⟩,
    ⟨0, (upTwin (W) (fun x => { x with agrees := [] })), _, rfl, by decide⟩,
    ⟨0,
      (upTwin (((((witTwin W roACTIVE).setFld SYS_CAPS_TWIN 2).setOn HIF_CTL_ARMED).setFld TWN_STATE_PROLE roSTANDBY).setReg TWN_GOODRUN 0xFFFFFFFF#32) (fun x => { x with pready := true })),
      _, rfl, by decide⟩,
    ⟨0, (W), _, rfl, by decide⟩,
    ⟨((((upTwin (W) (fun x => { x with agrees := [] })).setFld SYS_CAPS_TWIN 1).setOn TWN_CTL_EN).setOn TWN_LINKST_UP), 0,
      0, 0, by decide, by decide, by decide⟩,
    ⟨0, ⟨1#8, 0#8⟩, 1, 0#64, 0#40, 0#32, (witTwin W), _, _, _, by unfold State.canonical; decide, rfl, by decide, by decide,
      by decide, rfl, by decide, rfl, by decide⟩,
    ⟨0, ⟨1#8, 0#8⟩, 5, 0#64, 0#40, 0#32, (witTwin W), _, _, _, by unfold State.canonical; decide, rfl, by decide, by decide,
      by decide, rfl, by decide, rfl, by decide⟩,
    ⟨0, ⟨1#8, 0#8⟩, 1, 0#40, (upTwin (witTwin W) (fun x => { x with agrees := [⟨1, 1, 0, 0, 0, false⟩] })), _, ⟨1, 1, 0, 0,
      0, false⟩, by unfold State.canonical; decide, rfl, by decide, by decide, by decide, by decide, by decide, by decide⟩,
    ⟨0, ⟨1#8, 0#8⟩, 5, 0#40, (upTwin (witTwin W) (fun x => { x with agrees := [⟨5, 1, 0, 0, 0, false⟩] })), _, ⟨5, 1, 0, 0,
      0, false⟩, by unfold State.canonical; decide, rfl, by decide, by decide, by decide, by decide, by decide, by decide⟩,
    ⟨0, (upTwin (witTwin W) (fun x => { x with agrees := [⟨1, 1, 0, 0, 0, false⟩] })), _, ⟨1, 1, 0, 0, 0, false⟩,
      by unfold State.canonical; decide, rfl, by decide, by decide, by decide⟩⟩

theorem test_hyps_TwinMessagesRun :
    (∃ (t : Nat) (seq : LinkHdr) (line : BitVec 40) (cmp : BitVec 16) (fail : BitVec 16) (s : State) (u : State) (v : State),
      s.advance t = u ∧ u.twinOn = true ∧ u.on TWN_LINKST_UP = true ∧ u.twin.seqIn ≠ seq.seq.toNat ∧
      u.setTwin { u.twin with unacked := ackUpTo seq.ack.toNat u.twin.unacked, seqIn := seq.seq.toNat } = v ∧
      embTake line.toNat v.twin.emb = none) ∧
    (∃ (t : Nat) (seq : LinkHdr) (line : BitVec 40) (cmp : BitVec 16) (fail : BitVec 16) (s : State) (u : State) (v : State) (x : EmbRes) (l : List EmbRes),
      s.advance t = u ∧ u.twinOn = true ∧ u.on TWN_LINKST_UP = true ∧ u.twin.seqIn ≠ seq.seq.toNat ∧
      u.setTwin { u.twin with unacked := ackUpTo seq.ack.toNat u.twin.unacked, seqIn := seq.seq.toNat } = v ∧
      embTake line.toNat v.twin.emb = some (x, l)) ∧
    (∃ (s : State) (a : EmbRes) (b : EmbRes) (v : Nat),
      (List.range 16).find? (fun v => bitAt ((a.fail ||| b.fail) &&& (a.cmp &&& b.cmp)) v) = some v ∧ bitAt a.fail v = true ∧
      bitAt b.fail v = true) ∧
    (∃ (s : State) (a : EmbRes) (b : EmbRes) (v : Nat),
      (List.range 16).find? (fun v => bitAt ((a.fail ||| b.fail) &&& (a.cmp &&& b.cmp)) v) = some v ∧ bitAt a.fail v = true ∧
      bitAt b.fail v = false) ∧
    (∃ (s : State) (a : EmbRes) (b : EmbRes) (v : Nat),
      (List.range 16).find? (fun v => bitAt ((a.fail ||| b.fail) &&& (a.cmp &&& b.cmp)) v) = some v ∧ bitAt a.fail v = false) ∧
    (∃ (s : State) (a : EmbRes) (b : EmbRes), (∀ v, v < 16 → bitAt ((a.fail ||| b.fail) &&& (a.cmp &&& b.cmp)) v = false)) ∧
    (∃ (t : Nat) (seq : LinkHdr) (p : Fin 64) (b : Bool) (s : State) (u : State) (v : State), s.advance t = u ∧
      u.twinOn = true ∧ u.on TWN_LINKST_UP = true ∧ u.twin.seqIn ≠ seq.seq.toNat ∧
      u.setTwin { u.twin with unacked := ackUpTo seq.ack.toNat u.twin.unacked, seqIn := seq.seq.toNat } = v) ∧
    (∃ (t : Nat) (seq : LinkHdr) (p : Fin 64) (off : BitVec 13) (data : BitVec 1024) (s : State) (u : State) (v : State),
      s.advance t = u ∧ u.twinOn = true ∧ u.on TWN_LINKST_UP = true ∧ u.twin.seqIn ≠ seq.seq.toNat ∧
      u.setTwin { u.twin with unacked := ackUpTo seq.ack.toNat u.twin.unacked, seqIn := seq.seq.toNat } = v) ∧
    (∃ (t : Nat) (seq : LinkHdr) (mask : BitVec 64) (s : State) (u : State) (v : State), s.advance t = u ∧ u.twinOn = true ∧
      u.on TWN_LINKST_UP = true ∧ u.twin.seqIn ≠ seq.seq.toNat ∧
      u.setTwin { u.twin with unacked := ackUpTo seq.ack.toNat u.twin.unacked, seqIn := seq.seq.toNat } = v) ∧
    (∃ (t : Nat) (seq : LinkHdr) (s : State) (u : State), s.advance t = u ∧ u.twinOn = true ∧ u.on TWN_LINKST_UP = true ∧
      u.twin.seqIn ≠ seq.seq.toNat) ∧
    (∃ (t : Nat) (seq : LinkHdr) (line : BitVec 40) (cmp : BitVec 16) (fail : BitVec 16) (p : Fin 64) (b : Bool) (off : BitVec 13) (data : BitVec 1024) (mask : BitVec 64) (s : State) (u : State) (v : State),
      s.advance t = u ∧ (u.twinOn = false ∨ u.on TWN_LINKST_UP = false)) ∧
    (∃ (t : Nat) (seq : LinkHdr) (line : BitVec 40) (cmp : BitVec 16) (fail : BitVec 16) (p : Fin 64) (b : Bool) (off : BitVec 13) (data : BitVec 1024) (mask : BitVec 64) (s : State) (u : State) (v : State),
      s.advance t = u ∧ u.twinOn = true ∧ u.on TWN_LINKST_UP = true ∧ u.twin.seqIn = seq.seq.toNat ∧
      u.setTwin { u.twin with unacked := ackUpTo seq.ack.toNat u.twin.unacked } = v) ∧
    (∃ (t : Nat) (seq : LinkHdr) (mask : BitVec 64) (s : State) (u : State), s.canonical ∧ s.advance t = u ∧
      u.twinOn = true ∧ u.on TWN_LINKST_UP = true ∧ u.twin.seqIn ≠ seq.seq.toNat ∧ u.role ≠ roSTANDBY) ∧
    (∃ (t : Nat) (seq : LinkHdr) (p : Fin 64) (off : BitVec 13) (data : BitVec 1024) (s : State) (u : State), s.canonical ∧
      s.advance t = u ∧ u.twinOn = true ∧ u.on TWN_LINKST_UP = true ∧ u.twin.seqIn ≠ seq.seq.toNat ∧
      u.on (HPT_BUSST_MASTER (p / 8)) = false) ∧
    (∃ (t : Nat) (seq : LinkHdr) (p : Fin 64) (b : Bool) (s : State) (u : State), s.canonical ∧ s.advance t = u ∧
      u.twinOn = true ∧ u.on TWN_LINKST_UP = true ∧ u.twin.seqIn ≠ seq.seq.toNat ∧ u.role ≠ roSTANDBY) :=
  ⟨⟨0, ⟨1#8, 0#8⟩, 0#40, 0#16, 0#16, (((W.setFld SYS_CAPS_TWIN 1).setOn TWN_CTL_EN).setOn TWN_LINKST_UP), _, _, rfl,
      by decide, by decide, by decide, rfl, by decide⟩,
    ⟨0, ⟨1#8, 0#8⟩, 0#40, 0#16, 0#16, (upTwin (witTwin W) (fun x => { x with emb := [⟨0, 1, 0, false⟩] })), _, _, ⟨0, 1, 0,
      false⟩, [], rfl, by decide, by decide, by decide, rfl, by decide⟩,
    ⟨(W), ⟨0, 1, 1, false⟩, ⟨0, 1, 1, false⟩, 0, rfl, by decide, by decide⟩,
    ⟨(W), ⟨0, 1, 1, false⟩, ⟨0, 1, 0, false⟩, 0, rfl, by decide, by decide⟩,
    ⟨(W), ⟨0, 1, 0, false⟩, ⟨0, 1, 1, false⟩, 0, rfl, by decide⟩,
    ⟨(W), ⟨0, 1, 0, false⟩, ⟨0, 1, 0, false⟩, by decide⟩,
    ⟨0, ⟨1#8, 0#8⟩, 0, false, (((W.setFld SYS_CAPS_TWIN 1).setOn TWN_CTL_EN).setOn TWN_LINKST_UP), _, _, rfl, by decide,
      by decide, by decide, rfl⟩,
    ⟨0, ⟨1#8, 0#8⟩, 0, 0#13, 0#1024, (((W.setFld SYS_CAPS_TWIN 1).setOn TWN_CTL_EN).setOn TWN_LINKST_UP), _, _, rfl,
      by decide, by decide, by decide, rfl⟩,
    ⟨0, ⟨1#8, 0#8⟩, 0#64, (((W.setFld SYS_CAPS_TWIN 1).setOn TWN_CTL_EN).setOn TWN_LINKST_UP), _, _, rfl, by decide,
      by decide, by decide, rfl⟩,
    ⟨0, ⟨1#8, 0#8⟩, (((W.setFld SYS_CAPS_TWIN 1).setOn TWN_CTL_EN).setOn TWN_LINKST_UP), _, rfl, by decide, by decide,
      by decide⟩,
    ⟨0, ⟨0#8, 0#8⟩, 0#40, 0#16, 0#16, 0, false, 0#13, 0#1024, 0#64, (W), _, W, rfl, by decide⟩,
    ⟨0, ⟨5#8, 0#8⟩, 0#40, 0#16, 0#16, 0, false, 0#13, 0#1024, 0#64, (upTwin (witTwin W) (fun x => { x with seqIn := 5 })),
      _, _, rfl, by decide, by decide, by decide, rfl⟩,
    ⟨0, ⟨1#8, 0#8⟩, 0#64, (((W.setFld SYS_CAPS_TWIN 1).setOn TWN_CTL_EN).setOn TWN_LINKST_UP), _,
      by unfold State.canonical; decide, rfl, by decide, by decide, by decide, by decide⟩,
    ⟨0, ⟨1#8, 0#8⟩, 0, 0#13, 0#1024, (((W.setFld SYS_CAPS_TWIN 1).setOn TWN_CTL_EN).setOn TWN_LINKST_UP), _,
      by unfold State.canonical; decide, rfl, by decide, by decide, by decide, by decide⟩,
    ⟨0, ⟨1#8, 0#8⟩, 0, false, (((W.setFld SYS_CAPS_TWIN 1).setOn TWN_CTL_EN).setOn TWN_LINKST_UP), _,
      by unfold State.canonical; decide, rfl, by decide, by decide, by decide, by decide⟩⟩

theorem test_hyps_TwinLifeRuns :
    (∃ (t : Nat) (s : State) (u : State) (v : State) (e : Nat) (d : Nat) (r : List Nat), s.advance t = u ∧
      u.twinStrap = true ∧ u.awake = true ∧ u.twin.edge = some e ∧ u.twin.ivals = d :: r ∧
      u.setTwin { u.twin with edge := some u.clk, ivals := [u.clk - e, d] } = v) ∧
    (∃ (t : Nat) (s : State) (u : State) (v : State), s.advance t = u ∧ u.twinStrap = true ∧ u.awake = true ∧
      u.twin.edge = none ∧ u.setTwin { u.twin with edge := some u.clk, ivals := [] } = v) ∧
    (∃ (t : Nat) (s : State) (u : State) (e : Nat), s.advance t = u ∧ u.twin.edge = some e ∧ u.awake = true ∧
      u.fld TWN_STATE_PALIVE ≠ 0) ∧
    (∃ (t : Nat) (s : State) (u : State), s.advance t = u ∧ u.twinStrap = true ∧ u.awake = true ∧ u.on RST_STAT_DONE = true ∧
      u.twin.aliveAt + u.aliveHalf ≤ u.clk) ∧
    (∃ (t : Nat) (s : State) (u : State), s.advance t = u ∧
      (u.twinStrap = false ∨ u.awake = false ∨ u.on RST_STAT_DONE = false ∨ u.clk < u.twin.aliveAt + u.aliveHalf)) ∧
    (∃ (t : Nat) (s : State) (u : State), s.advance t = u ∧ u.twinOn = true ∧ u.partnerGone = true ∧ u.role = roSTANDBY) ∧
    (∃ (t : Nat) (s : State) (u : State), s.advance t = u ∧ u.twinOn = true ∧ u.partnerGone = true ∧ u.role = roINIT) ∧
    (∃ (t : Nat) (s : State) (u : State), s.advance t = u ∧ u.partnerGone = false) ∧
    (∃ (t : Nat) (s : State) (u : State) (v : State) (w : State), s.advance t = u ∧ u.twinOn = true ∧ u.role = roSTANDBY ∧
      u.twin.take = true ∧ u.twin.failed = false ∧ u.activate = v ∧ v.armed = false ∧ v.splice.active = false ∧
      (v.countReg TWN_SWCNT 1).setOn TWN_STATE_SWITCHED = w ∧ w.armed = false) ∧
    (∃ (t : Nat) (s : State) (u : State), s.advance t = u ∧ (u.twinOn = false ∨ (u.role ≠ roSTANDBY ∧
      u.role ≠ roPRIME) ∨ u.twin.take = false)) ∧
    (∃ (t : Nat) (s : State) (u : State) (v : State) (w : State), s.advance t = u ∧ u.twinOn = true ∧ u.role = roSTANDBY ∧
      u.twin.take = true ∧ u.twin.failed = false ∧ u.activate = v ∧ v.armed = true ∧ v.splice.active = false ∧
      ((v.raiseCause 5).takeCauses.spliceRequest.twinResume) = w ∧ w.splice.active = false) ∧
    (∃ (t : Nat) (s : State) (u : State) (v : State), s.advance t = u ∧ u.twinOn = true ∧ u.armed = true ∧
      u.twin.digest = false ∧ u.setReg TWN_CFGCRC (crc32 u.digestBytes) = v) ∧
    (∃ (t : Nat) (s : State) (u : State), s.advance t = u ∧ (u.twinOn = false ∨ u.armed = false ∨ u.twin.digest = true)) ∧
    (∃ (t : Nat) (s : State) (u : State), s.canonical ∧ s.advance t = u ∧ u.twinOn = true ∧ u.role = roSTANDBY ∧
      u.twin.take = true ∧ u.twin.failed = false ∧ u.armed = false ∧ u.splice.active = false) ∧
    (∃ (t : Nat) (s : State) (u : State), s.canonical ∧ s.advance t = u ∧ u.twinOn = true ∧ u.armed = true ∧
      u.twin.digest = false) :=
  ⟨⟨0,
      (upTwin (upTwin (W.setFld SYS_CAPS_TWIN 1) (fun x => { x with edge := some 0 })) (fun x => { x with ivals := 0 :: ([]) })),
      _, _, 0, 0, [], rfl, by decide, by decide, by decide, by decide, rfl⟩,
    ⟨0, (upTwin (W.setFld SYS_CAPS_TWIN 1) (fun x => { x with edge := none })), _, _, rfl, by decide, by decide, by decide,
      rfl⟩,
    ⟨0, ((upTwin (W) (fun x => { x with edge := some 0 })).setFld TWN_STATE_PALIVE 1), _, 0, rfl, by decide, by decide,
      by decide⟩,
    ⟨0, ((W.setFld SYS_CAPS_TWIN 1).setOn RST_STAT_DONE), _, rfl, by decide, by decide, by decide, by decide⟩,
    ⟨0, (W), _, rfl, by decide⟩,
    ⟨0, (((W.setFld SYS_CAPS_TWIN 1).setOn TWN_CTL_EN).setFld TWN_STATE_ROLE roSTANDBY), _, rfl, by decide, by decide,
      by decide⟩,
    ⟨0, (((W.setFld SYS_CAPS_TWIN 1).setOn TWN_CTL_EN).setFld TWN_STATE_ROLE roINIT), _, rfl, by decide, by decide,
      by decide⟩,
    ⟨0, (W.setFld TWN_STATE_PALIVE 2), _, rfl, by decide⟩,
    ⟨0,
      (upTwin (upTwin (((W.setFld SYS_CAPS_TWIN 1).setOn TWN_CTL_EN).setFld TWN_STATE_ROLE roSTANDBY) (fun x => { x with take := true })) (fun x => { x with failed := false })),
      _, _, _, rfl, by decide, by decide, by decide, by decide, rfl, by decide, by decide, rfl, by decide⟩,
    ⟨0, (W), _, rfl, by decide⟩,
    ⟨0, (upTwin (((witTwin W roSTANDBY).setOn HIF_CTL_ARMED).setFld TRN_STATE_SEQ 1) (fun x => { x with take := true })), _,
      _, _, rfl, by decide, by decide, by decide, by decide, rfl, by decide, by decide, rfl, by decide⟩,
    ⟨0, (upTwin (((W.setFld SYS_CAPS_TWIN 1).setOn TWN_CTL_EN).setOn HIF_CTL_ARMED) (fun x => { x with digest := false })),
      _, _, rfl, by decide, by decide, by decide, rfl⟩,
    ⟨0, (W), _, rfl, by decide⟩,
    ⟨0,
      (upSplice ((upTwin (upTwin (((W.setFld SYS_CAPS_TWIN 1).setOn TWN_CTL_EN).setFld TWN_STATE_ROLE roSTANDBY) (fun x => { x with take := true })) (fun x => { x with failed := false })).setFld HIF_CTL_ARMED 0) (fun x => { x with active := false })),
      _, by unfold State.canonical; decide, rfl, by decide, by decide, by decide, by decide, by decide, by decide⟩,
    ⟨0, (upTwin (((W.setFld SYS_CAPS_TWIN 1).setOn TWN_CTL_EN).setOn HIF_CTL_ARMED) (fun x => { x with digest := false })),
      _, by unfold State.canonical; decide, rfl, by decide, by decide, by decide⟩⟩

theorem test_hyps_JoinAndOverridesRun :
    (∃ (t : Nat) (s : State) (u : State), s.advance t = u ∧ u.barOk 14 = true ∧ u.armed = false ∧ u.twinOn = true ∧
      u.role = roSTANDBY ∧ u.fld TWN_STATE_PROLE = roACTIVE ∧ u.twin.parmed = true ∧ u.on TWN_LINKST_UP = true) ∧
    (∃ (t : Nat) (s : State) (u : State), s.advance t = u ∧ u.barOk 14 = true ∧
      (u.armed = true ∨ u.twinOn = false ∨ u.role ≠ roSTANDBY ∨ u.fld TWN_STATE_PROLE ≠ roACTIVE ∨ u.twin.parmed = false ∨ u.on TWN_LINKST_UP = false)) ∧
    (∃ (t : Nat) (seq : LinkHdr) (seed : BitVec 32) (jobid : BitVec 32) (cons : BitVec 32) (ws : List (BitVec 96)) (s : State) (u : State) (v : State),
      s.advance t = u ∧ u.twinOn = true ∧ u.on TWN_LINKST_UP = true ∧ u.twin.seqIn ≠ seq.seq.toNat ∧
      u.setTwin { u.twin with unacked := ackUpTo seq.ack.toNat u.twin.unacked, seqIn := seq.seq.toNat } = v ∧
      v.role = roACTIVE ∧ v.armed = true) ∧
    (∃ (t : Nat) (seq : LinkHdr) (seed : BitVec 32) (jobid : BitVec 32) (cons : BitVec 32) (ws : List (BitVec 96)) (s : State) (u : State) (v : State) (w : State) (x : State),
      s.advance t = u ∧ u.twinOn = true ∧ u.on TWN_LINKST_UP = true ∧ u.twin.seqIn ≠ seq.seq.toNat ∧
      u.setTwin { u.twin with unacked := ackUpTo seq.ack.toNat u.twin.unacked, seqIn := seq.seq.toNat } = v ∧
      v.armed = false ∧ v.twin.join = true ∧ v.setTwin { v.twin with join := false } = w ∧ w.armCheck = none ∧
      ((w.armJob seed.toNat).setReg CRD_JOBID jobid).setReg HIF_CMDCONS cons = x) ∧
    (∃ (t : Nat) (seq : LinkHdr) (seed : BitVec 32) (jobid : BitVec 32) (cons : BitVec 32) (ws : List (BitVec 96)) (s : State) (u : State) (v : State) (w : State) (x : State) (k : Nat),
      s.advance t = u ∧ u.twinOn = true ∧ u.on TWN_LINKST_UP = true ∧ u.twin.seqIn ≠ seq.seq.toNat ∧
      u.setTwin { u.twin with unacked := ackUpTo seq.ack.toNat u.twin.unacked, seqIn := seq.seq.toNat } = v ∧
      v.armed = false ∧ v.twin.join = true ∧ v.setTwin { v.twin with join := false } = w ∧ w.armCheck = some (k, x)) ∧
    (∃ (t : Nat) (s : State) (u : State), s.advance t = u ∧ u.barOk 14 = true ∧ u.authOk 4 0 = false) ∧
    (∃ (t : Nat) (s : State) (u : State), s.advance t = u ∧ u.barOk 14 = true ∧ u.authOk 4 0 = true ∧ u.partnerDrives = true) ∧
    (∃ (t : Nat) (s : State) (u : State) (v : State), s.advance t = u ∧ u.barOk 14 = true ∧ u.authOk 4 0 = true ∧
      u.partnerDrives = false ∧ u.authUse = v ∧ v.twinOn = true ∧ v.role = roSTANDBY) ∧
    (∃ (t : Nat) (s : State) (u : State) (v : State), s.advance t = u ∧ u.barOk 14 = true ∧ u.authOk 4 0 = true ∧
      u.role = roACTIVE ∧ u.twin.pready = true ∧ u.authUse = v ∧ v.twinOn = true ∧ v.role = roACTIVE ∧ v.twin.ret = none) ∧
    (∃ (t : Nat) (s : State) (u : State), s.advance t = u ∧ u.barOk 14 = true ∧ u.authOk 4 0 = true ∧ u.role = roACTIVE ∧
      u.twin.pready = false) ∧
    (∃ (t : Nat) (s : State) (u : State) (v : State), s.advance t = u ∧ u.barOk 14 = true ∧ u.authOk 4 0 = true ∧
      u.authUse = v ∧ v.twinOn = true) ∧
    (∃ (t : Nat) (seq : LinkHdr) (seed : BitVec 32) (jobid : BitVec 32) (cons : BitVec 32) (s : State) (u : State) (v : State) (w : State),
      s.canonical ∧ s.advance t = u ∧ u.twinOn = true ∧ u.on TWN_LINKST_UP = true ∧ u.twin.seqIn ≠ seq.seq.toNat ∧
      u.setTwin { u.twin with unacked := ackUpTo seq.ack.toNat u.twin.unacked, seqIn := seq.seq.toNat } = v ∧
      v.armed = false ∧ v.twin.join = true ∧ v.setTwin { v.twin with join := false } = w ∧ w.armCheck = none) ∧
    (∃ (t : Nat) (s : State) (u : State) (v : State), s.canonical ∧ s.advance t = u ∧ u.barOk 14 = true ∧
      u.authOk 4 0 = true ∧ u.partnerDrives = false ∧ u.authUse = v ∧ v.twinOn = true ∧ v.role = roPRIME) :=
  ⟨⟨0,
      ((upTwin (((((W.setFld HIF_CTL_ARMED 0).setFld SYS_CAPS_TWIN 1).setOn TWN_CTL_EN).setFld TWN_STATE_ROLE roSTANDBY).setFld TWN_STATE_PROLE roACTIVE) (fun x => { x with parmed := true })).setOn TWN_LINKST_UP),
      _, rfl, by decide, by decide, by decide, by decide, by decide, by decide, by decide⟩,
    ⟨0, (W.setOn HIF_CTL_ARMED), _, rfl, by decide, by decide⟩,
    ⟨0, ⟨1#8, 0#8⟩, 0#32, 0#32, 0#32, [], ((witTwin W roACTIVE).setOn HIF_CTL_ARMED), _, _, rfl, by decide, by decide,
      by decide, rfl, by decide, by decide⟩,
    ⟨0, ⟨1#8, 0#8⟩, 0#32, 0#32, 0#32, [], (upTwin (witReady (witTwin W roSTANDBY)) (fun x => { x with join := true })), _,
      _, _, _, rfl, by decide, by decide, by decide, rfl, by decide, by decide, rfl, by decide, rfl⟩,
    ⟨0, ⟨1#8, 0#8⟩, 0#32, 0#32, 0#32, [], (upTwin (witTwin W roSTANDBY) (fun x => { x with join := true })), _, _, _, _, _,
      rfl, by decide, by decide, by decide, rfl, by decide, by decide, rfl, rfl⟩,
    ⟨0, (W), _, rfl, by decide, by decide⟩,
    ⟨0, (((W.setFld SVC_ASTAT_STATE 2).setFld SVC_ASTAT_OP 4).setFld TWN_STATE_PALIVE 2), _, rfl, by decide, by decide,
      by decide⟩,
    ⟨0, (witAuth (witTwin W roSTANDBY) 4), _, _, rfl, by decide, by decide, by decide, rfl, by decide, by decide⟩,
    ⟨0, (upTwin (witAuth (witTwin W roACTIVE) 4) (fun x => { x with pready := true })), _, _, rfl, by decide, by decide,
      by decide, by decide, rfl, by decide, by decide, by decide⟩,
    ⟨0,
      (upTwin (((W.setFld SVC_ASTAT_STATE 2).setFld SVC_ASTAT_OP 4).setFld TWN_STATE_ROLE roACTIVE) (fun x => { x with pready := false })),
      _, rfl, by decide, by decide, by decide, by decide⟩,
    ⟨0, (witAuth (witTwin W roACTIVE) 4), _, _, rfl, by decide, by decide, rfl, by decide⟩,
    ⟨0, ⟨1#8, 0#8⟩, 0#32, 0#32, 0#32, (upTwin (witReady (witTwin W roSTANDBY)) (fun x => { x with join := true })), _, _, _,
      by unfold State.canonical; decide, rfl, by decide, by decide, by decide, rfl, by decide, by decide, rfl, by decide⟩,
    ⟨0, (witAuth (witTwin W roPRIME) 4), _, _, by unfold State.canonical; decide, rfl, by decide, by decide, by decide, rfl,
      by decide, by decide⟩⟩

theorem test_hyps_TrimChannelsSlewOneCode :
    (∃ (t : Nat) (n : Fin 68) (s : State) (u : State), s.canonical ∧ s.advance t = u ∧ u.fld PWR_STAT_STATE = 0 ∧
      u.fld (TRM_OUT_OUT n) ≠ u.fld (TRM_OUT_TARGET n) ∧ u.timerOver (tmTrim n) (400 * slewUs (u.trimSlewCode n)) = true) ∧
    (∃ (t : Nat) (n : Fin 68) (s : State) (u : State), s.advance t = u ∧
      (u.fld PWR_STAT_STATE ≠ 0 ∨ u.fld (TRM_OUT_OUT n) = u.fld (TRM_OUT_TARGET n) ∨ u.timerOver (tmTrim n) (400 * slewUs (u.trimSlewCode n)) = false)) ∧
    (∃ (j : Fin 3) (v : BitVec 32) (s : State) (u : State), s.barOk 15 = true ∧ s.setReg (TRM_CEIL j) (v &&& 0x3FFF#32) = u ∧
      u.trimCeil ≤ s.trimCeil) ∧
    (∃ (j : Fin 3) (v : BitVec 32) (s : State) (u : State) (w : State), s.barOk 15 = true ∧
      s.setReg (TRM_CEIL j) (v &&& 0x3FFF#32) = u ∧ s.trimCeil < u.trimCeil ∧ s.authOk 5 0 = true ∧ u.authUse = w) ∧
    (∃ (j : Fin 3) (v : BitVec 32) (s : State) (u : State), s.barOk 15 = true ∧ s.setReg (TRM_CEIL j) (v &&& 0x3FFF#32) = u ∧
      s.trimCeil < u.trimCeil ∧ s.authOk 5 0 = false) ∧
    (∃ (k : Fin 3) (v : BitVec 32) (s : State), s.barOk 15 = true ∧ s.fld (TRM_AUX_OWNER k) = 2) ∧
    (∃ (k : Fin 3) (v : BitVec 32) (s : State), s.barOk 15 = true ∧ s.fld (TRM_AUX_OWNER k) = 1 ∧ v.getLsbD 20 = false) ∧
    (∃ (k : Fin 3) (v : BitVec 32) (s : State), s.barOk 15 = true ∧ s.fld (TRM_AUX_OWNER k) = 0 ∧ v.getLsbD 20 = true ∧
      bitsOf v.toNat 16 4 ≠ 0) ∧
    (∃ (t : Nat) (v : BitVec 16) (s : State) (u : State) (w : State), s.advance t = u ∧ u.on TRM_CTL_MONEN = true ∧
      u.awake = true ∧ u.on RST_STAT_DONE = true ∧
      ({ u with trims := { u.trims with next := (u.trims.next + 1) % 71 } } : State) = w) ∧
    (∃ (s : State) (n : Nat) (v : Nat), s.clk < s.trims.changed.get (fun _ => 0) n + 8000) ∧
    (∃ (t : Nat) (v : BitVec 16) (s : State) (u : State), s.advance t = u ∧ u.on TRM_CTL_MONEN = false) ∧
    (∃ (ok : Bool) (s : State), s.trims.load = true ∧ s.awake = true) ∧
    (∃ (ok : Bool) (s : State), (s.trims.load = false ∨ s.awake = false)) ∧
    (∃ (ok : Bool) (s : State), s.canonical ∧ s.trims.load = true ∧ s.awake = true) :=
  ⟨⟨0, 0, ((W.setFld (TRM_OUT_TARGET 0) 5)), _, by unfold State.canonical; decide, rfl, by decide, by decide, by decide⟩,
    ⟨0, 0, (W.setFld PWR_STAT_STATE 1), _, rfl, by decide⟩,
    ⟨0, 0#32, (W), _, by decide, rfl, by decide⟩,
    ⟨0, 0x3FFF#32, (witAuth (((W.setReg (TRM_CEIL 0) 0#32).setReg (TRM_CEIL 1) 0#32).setReg (TRM_CEIL 2) 0x3FFF#32) 5), _,
      _, by decide, rfl, by decide, by decide, rfl⟩,
    ⟨0, 0x3FFF#32, (((W.setReg (TRM_CEIL 0) 0#32).setReg (TRM_CEIL 1) 0#32).setReg (TRM_CEIL 2) 0x3FFF#32), _, by decide,
      rfl, by decide, by decide⟩,
    ⟨0, 0#32, (W.setFld (TRM_AUX_OWNER 0) 2), by decide, by decide⟩,
    ⟨0, 0#32, (W.setFld (TRM_AUX_OWNER 0) 1), by decide, by decide, by decide⟩,
    ⟨0, 0x1F0000#32, (W.setFld (TRM_AUX_OWNER 0) 0), by decide, by decide, by decide, by decide⟩,
    ⟨0, 0#16, ((W.setOn TRM_CTL_MONEN).setOn RST_STAT_DONE), _, _, rfl, by decide, by decide, by decide, rfl⟩,
    ⟨(upTrims W (fun x => { x with changed := [(0, W.clk)] })), 0, 0, by decide⟩,
    ⟨0, 0#16, (W.setFld TRM_CTL_MONEN 0), _, rfl, by decide⟩,
    ⟨false, (upTrims (W) (fun x => { x with load := true })), by decide, by decide⟩,
    ⟨false, (upTrims (W) (fun x => { x with load := false })), by decide⟩,
    ⟨false, (upTrims (W) (fun x => { x with load := true })), by unfold State.canonical; decide, by decide, by decide⟩⟩

theorem test_hyps_SuppliesRun :
    (∃ (t : Nat) (rail : Bool) (vback : Bool) (s : State) (u : State) (v : State) (w : State), s.advance t = u ∧
      u.fld PWR_STAT_STATE ≠ 3 ∧
      ((((((u.setOn PWR_STAT_PFW).setOn PWR_STAT_SAG).setBit PWR_STAT_VMAINOK rail).setBit PWR_STAT_VBACKOK vback).alarm alPWRWARN).failFreeze) = v ∧
      ((({ v with trims := { v.trims with cut := true } } : State).retargetAll).trimsZero.trnShow) = w) ∧
    (∃ (t : Nat) (rail : Bool) (vback : Bool) (s : State) (u : State), s.advance t = u ∧ u.fld PWR_STAT_STATE = 3) ∧
    (∃ (t : Nat) (vback : Bool) (s : State) (u : State) (y : State) (v : State) (w : State) (x : State), s.advance t = u ∧
      u.fld PWR_STAT_STATE ≠ 3 ∧
      (if u.chanOn (u.fld POS_CTL_BANKCH) = true then u else u.setPos { u.pos with cnt := u.pos.cnt.set (fun _ => 0) (u.fld POS_CTL_BANKCH) u.vote }) = y ∧
      ((y.clearAll false).keepTime u).setReg POS_SPEED (u.reg POS_SPEED) = v ∧
      ((((({ v with tabs := v.storeFill.tabs.filled, power := { v.power with rails := false } } : State).setFld PWR_STAT_STATE 3).setFld PWR_STAT_VMAINOK 0).setBit PWR_STAT_VBACKOK vback).setOn PWR_STAT_BANKED) = w ∧
      ((w.setOn POS_STATE_BANKED).setReg SVC_BOOTST 3#32).pinsShow = x) ∧
    (∃ (t : Nat) (vback : Bool) (rails : Bool) (s : State) (u : State) (v : State), s.advance t = u ∧
      ((u.setPower { u.power with railLow := u.power.railLow && !rails }).setOn PWR_STAT_VMAINOK).setBit PWR_STAT_VBACKOK vback = v ∧
      u.fld PWR_STAT_STATE = 3) ∧
    (∃ (t : Nat) (vback : Bool) (rails : Bool) (s : State) (u : State) (v : State), s.advance t = u ∧
      ((u.setPower { u.power with railLow := u.power.railLow && !rails }).setOn PWR_STAT_VMAINOK).setBit PWR_STAT_VBACKOK vback = v ∧
      u.fld PWR_STAT_STATE ≠ 3 ∧ u.on PWR_STAT_SAG = true ∧ (u.power.railLow = false ∨ rails = true)) ∧
    (∃ (t : Nat) (vback : Bool) (rails : Bool) (s : State) (u : State) (v : State), s.advance t = u ∧
      ((u.setPower { u.power with railLow := u.power.railLow && !rails }).setOn PWR_STAT_VMAINOK).setBit PWR_STAT_VBACKOK vback = v ∧
      u.fld PWR_STAT_STATE ≠ 3 ∧ (u.on PWR_STAT_SAG = false ∨ (u.power.railLow = true ∧ rails = false))) ∧
    (∃ (t : Nat) (rail : Bool) (vback : Bool) (s : State) (u : State), s.canonical ∧ s.advance t = u ∧
      u.fld PWR_STAT_STATE ≠ 3) ∧
    (∃ (t : Nat) (vback : Supplies) (s : State) (u : State), s.canonical ∧ s.advance t = u ∧ u.fld PWR_STAT_STATE = 3 ∧
      u.on PWR_STAT_SAG = false ∧ u.armed = false ∧ u.power.delay = none ∧ u.svc.pulse = none ∧ u.svc.page = false) :=
  ⟨⟨0, false, false, (W.setFld PWR_STAT_STATE 0), _, _, _, rfl, by decide, rfl, rfl⟩,
    ⟨0, false, false, (W.setFld PWR_STAT_STATE 3), _, rfl, by decide⟩,
    ⟨0, false, (W.setFld PWR_STAT_STATE 0), _, _, _, _, _, rfl, by decide, rfl, rfl, rfl, rfl⟩,
    ⟨0, false, false, (W.setFld PWR_STAT_STATE 3), _, _, rfl, rfl, by decide⟩,
    ⟨0, false, false, (upPower ((W.setFld PWR_STAT_STATE 0).setOn PWR_STAT_SAG) (fun x => { x with railLow := false })), _,
      _, rfl, rfl, by decide, by decide, by decide⟩,
    ⟨0, false, false, ((W.setFld PWR_STAT_STATE 0).setFld PWR_STAT_SAG 0), _, _, rfl, rfl, by decide, by decide⟩,
    ⟨0, false, false, (W.setFld PWR_STAT_STATE 0), _, by unfold State.canonical; decide, rfl, by decide⟩,
    ⟨0, ⟨true, true⟩, (W.setFld PWR_STAT_STATE 3), _, by unfold State.canonical; decide, rfl, by decide, by decide,
      by decide, by decide, by decide, by decide⟩⟩

theorem test_hyps_PowerStatesRun :
    (∃ (t : Nat) (v : BitVec 32) (s : State) (u : State), s.advance t = u ∧ u.aonOk = true) ∧
    (∃ (t : Nat) (v : BitVec 32) (s : State) (u : State), s.advance t = u ∧ u.aonOk = false) ∧
    (∃ (t : Nat) (v : BitVec 32) (s : State) (u : State) (w : State), s.advance t = u ∧ u.aonOk = true ∧
      u.setBit PWR_CTL_WAKEMOT (v.getLsbD 2) = w ∧ u.armed = true ∧ (bitsOf v.toNat 0 2 = 1 ∨ bitsOf v.toNat 0 2 = 2)) ∧
    (∃ (t : Nat) (v : BitVec 32) (s : State) (u : State) (w : State), s.advance t = u ∧ u.aonOk = true ∧
      (u.setBit PWR_CTL_WAKEMOT (v.getLsbD 2)).setFld PWR_CTL_REQ 1 = w ∧ u.armed = false ∧ bitsOf v.toNat 0 2 = 1 ∧
      w.on RST_STAT_DONE = true ∧ w.fld PWR_STAT_STATE = 0) ∧
    (∃ (t : Nat) (v : BitVec 32) (s : State) (u : State) (w : State), s.advance t = u ∧ u.aonOk = true ∧
      (u.setBit PWR_CTL_WAKEMOT (v.getLsbD 2)).setFld PWR_CTL_REQ 2 = w ∧ u.armed = false ∧ bitsOf v.toNat 0 2 = 2 ∧
      w.on RST_STAT_DONE = true) ∧
    (∃ (t : Nat) (v : BitVec 32) (s : State) (u : State) (w : State), s.advance t = u ∧ u.aonOk = true ∧
      (u.setBit PWR_CTL_WAKEMOT (v.getLsbD 2)).setFld PWR_CTL_REQ 0 = w ∧ bitsOf v.toNat 0 2 = 0 ∧ w.on RST_STAT_DONE = true) ∧
    (∃ (s : State) (k : Nat), s.fld PWR_STAT_STATE = 1) ∧
    (∃ (t : Nat) (low : Bool) (press : Bool) (hi : Bool) (s : State) (u : State) (v : State), s.advance t = u ∧
      ((u.setBit SVC_ASTAT_SERVICE low).setBit SVC_ASTAT_SEALED hi).setSvc { u.svc with hi := u.svc.hi || hi, lo := u.svc.lo || !hi } = v ∧
      (low = false ∨ press = false ∨ v.fld PWR_STAT_STATE = 3)) ∧
    (∃ (t : Nat) (low : Bool) (press : Bool) (hi : Bool) (s : State) (u : State) (v : State), s.advance t = u ∧
      ((u.setBit SVC_ASTAT_SERVICE low).setBit SVC_ASTAT_SEALED hi).setSvc { u.svc with hi := u.svc.hi || hi, lo := u.svc.lo || !hi } = v ∧
      low = true ∧ press = true ∧ v.fld PWR_STAT_STATE ≤ 1 ∧ v.fld SVC_ASTAT_STATE = auWAITING ∧
      v.clk ≤ v.timers.get (fun _ => 0) tmAuth + 12000000000) ∧
    (∃ (t : Nat) (low : Bool) (press : Bool) (hi : Bool) (s : State) (u : State) (v : State), s.advance t = u ∧
      ((u.setBit SVC_ASTAT_SERVICE low).setBit SVC_ASTAT_SEALED hi).setSvc { u.svc with hi := u.svc.hi || hi, lo := u.svc.lo || !hi } = v ∧
      low = true ∧ press = true ∧ v.fld PWR_STAT_STATE = 2 ∧ (v.wake 2).fld SVC_ASTAT_STATE ≠ auWAITING) ∧
    (∃ (t : Nat) (low : Bool) (press : Bool) (hi : Bool) (s : State) (u : State) (v : State), s.advance t = u ∧
      ((u.setBit SVC_ASTAT_SERVICE low).setBit SVC_ASTAT_SEALED hi).setSvc { u.svc with hi := u.svc.hi || hi, lo := u.svc.lo || !hi } = v ∧
      low = true ∧ press = true ∧ v.fld PWR_STAT_STATE ≤ 1 ∧ v.fld SVC_ASTAT_STATE ≠ auWAITING) ∧
    (∃ (t : Nat) (s : State) (u : State), s.advance t = u ∧ u.aonOk = true) ∧
    (∃ (t : Nat) (s : State) (u : State) (v : State), s.advance t = u ∧ u.on PWR_STAT_D3HOT = true ∧ u.aonOk = true ∧
      u.setFld PWR_STAT_D3HOT 0 = v) ∧
    (∃ (t : Nat) (s : State) (u : State), s.advance t = u ∧ u.on PWR_STAT_D3HOT = false) ∧
    (∃ (s : State), (s.fld PWR_STAT_STATE ≠ 2 ∨ s.power.waking = false)) ∧
    (∃ (t : Nat) (ppm : BitVec 16) (s : State) (u : State), s.advance t = u) ∧
    (∃ (t : Nat) (v : BitVec 32) (s : State) (u : State), s.canonical ∧ s.advance t = u ∧ u.aonOk = true ∧ u.armed = false ∧
      u.on RST_STAT_DONE = true ∧ bitsOf v.toNat 0 2 = 1 ∧ u.fld PWR_STAT_STATE = 0) ∧
    (∃ (t : Nat) (v : BitVec 32) (s : State) (u : State), s.canonical ∧ s.advance t = u ∧ u.aonOk = true ∧ u.armed = false ∧
      u.on RST_STAT_DONE = true ∧ bitsOf v.toNat 0 2 = 2 ∧ u.awake = true) ∧
    (∃ (t : Nat) (v : BitVec 32) (s : State) (u : State), s.canonical ∧ s.advance t = u ∧ u.aonOk = true ∧ u.armed = false ∧
      u.on RST_STAT_DONE = true ∧ bitsOf v.toNat 0 2 = 0 ∧ u.fld PWR_STAT_STATE = 1) ∧
    (∃ (t : Nat) (s : State) (u : State), s.canonical ∧ s.advance t = u ∧ u.aonOk = true ∧ u.on PWR_STAT_D3HOT = true ∧
      u.fld PWR_STAT_STATE = 2 ∧ u.power.waking = false) ∧
    (∃ (t : Nat) (s : State) (u : State), s.canonical ∧ s.advance t = u ∧ u.fld PWR_STAT_STATE = 2 ∧ u.power.waking = true ∧
      u.power.reboot = false) :=
  ⟨⟨0, 0#32, (W), _, rfl, by decide⟩,
    ⟨0, 0#32, (W.setFld PWR_STAT_STATE 3), _, rfl, by decide⟩,
    ⟨0, 1#32, (W.setOn HIF_CTL_ARMED), _, _, rfl, by decide, rfl, by decide, by decide⟩,
    ⟨0, 1#32, (W), _, _, rfl, by decide, rfl, by decide, by decide, by decide, by decide⟩,
    ⟨0, 2#32, (W), _, _, rfl, by decide, rfl, by decide, by decide, by decide⟩,
    ⟨0, 0#32, (W), _, _, rfl, by decide, rfl, by decide, by decide⟩,
    ⟨(W.setFld PWR_STAT_STATE 1), 0, by decide⟩,
    ⟨0, false, false, false, (W), _, _, rfl, rfl, by decide⟩,
    ⟨0, true, true, false, (W.setFld SVC_ASTAT_STATE auWAITING), _, _, rfl, rfl, by decide, by decide, by decide, by decide,
      by decide⟩,
    ⟨0, true, true, false, (W.setFld PWR_STAT_STATE 2), _, _, rfl, rfl, by decide, by decide, by decide, by decide⟩,
    ⟨0, true, true, false, (W), _, _, rfl, rfl, by decide, by decide, by decide, by decide⟩,
    ⟨0, (W), _, rfl, by decide⟩,
    ⟨0, (W.setOn PWR_STAT_D3HOT), _, _, rfl, by decide, by decide, rfl⟩,
    ⟨0, (W.setFld PWR_STAT_D3HOT 0), _, rfl, by decide⟩,
    ⟨(W.setFld PWR_STAT_STATE 0), by decide⟩,
    ⟨0, 0#16, (W), _, rfl⟩,
    ⟨0, 1#32, (W), _, by unfold State.canonical; decide, rfl, by decide, by decide, by decide, by decide, by decide⟩,
    ⟨0, 2#32, (W), _, by unfold State.canonical; decide, rfl, by decide, by decide, by decide, by decide, by decide⟩,
    ⟨0, 0#32, (((W.setFld HIF_CTL_ARMED 0).setOn RST_STAT_DONE).setFld PWR_STAT_STATE 1), _,
      by unfold State.canonical; decide, rfl, by decide, by decide, by decide, by decide, by decide⟩,
    ⟨0, (upPower ((W.setOn PWR_STAT_D3HOT).setFld PWR_STAT_STATE 2) (fun x => { x with waking := false })), _,
      by unfold State.canonical; decide, rfl, by decide, by decide, by decide, by decide⟩,
    ⟨0,
      (upPower (upPower (W.setFld PWR_STAT_STATE 2) (fun x => { x with waking := true })) (fun x => { x with reboot := false })),
      _, by unfold State.canonical; decide, rfl, by decide, by decide, by decide⟩⟩

theorem test_hyps_ResetsAndReleaseRun :
    (∃ (t : Nat) (v : BitVec 32) (s : State) (u : State), s.advance t = u ∧ bitsOf v.toNat 24 8 = 0x5A ∧ v.getLsbD 0 = true ∧
      u.on RST_STAT_DONE = true ∧ u.awake = true) ∧
    (∃ (t : Nat) (v : BitVec 32) (s : State) (u : State), s.advance t = u ∧
      (bitsOf v.toNat 24 8 ≠ 0x5A ∨ v.getLsbD 0 = false)) ∧
    (∃ (s : State) (b : Nat) (r : Nat), s.on PWR_STAT_SAG = false ∧ s.fld PWR_STAT_STATE ≠ 3 ∧ s.power.delay = none ∧
      s.svc.pulse = none ∧ s.svc.page = false ∧ (r = rcHEARTH ∨ s.armed = false)) ∧
    (∃ (s : State) (b : Nat) (r : Nat), (s.on PWR_STAT_SAG = true ∨ s.fld PWR_STAT_STATE = 3)) ∧
    (∃ (t : Nat) (s : State) (u : State) (v : State) (w : State) (r : Nat) (k : Nat) (b : Word), s.advance t = u ∧
      u.power.delay = some r ∧ u.svc.pulse = some (k, b) ∧ u.svc.page = false ∧
      ({ u with otp := u.otp.set (fun _ => 0#32) k (u.otp.get (fun _ => 0#32) k ||| b) } : State) = v ∧
      (v.setPower { v.power with delay := none, blocks := 0#32, dlyBits := 0 }).takeReset r = w ∧
      (rcSOFT ≤ r ∨ u.power.blocks = 0#32)) ∧
    (∃ (t : Nat) (s : State) (u : State), s.advance t = u ∧ u.power.delay = none) ∧
    (∃ (t : Nat) (straps : BitVec 6) (rails : Bool) (s : State) (u : State) (v : State), s.advance t = u ∧
      u.setPower { u.power with rails := u.power.rails || rails } = v ∧ v.on RST_STAT_DONE = false ∧
      v.on PWR_STAT_SAG = false ∧ v.fld PWR_STAT_STATE ≠ 3 ∧ v.power.ended = true) ∧
    (∃ (t : Nat) (straps : BitVec 6) (rails : Bool) (s : State) (u : State) (v : State), s.advance t = u ∧
      u.setPower { u.power with rails := u.power.rails || rails } = v ∧ (v.on RST_STAT_DONE = true ∨ v.power.ended = false)) ∧
    (∃ (t : Nat) (s : State) (u : State), s.advance t = u ∧ u.fld RST_STAT_STEP = 2 ∧ u.power.ended = false ∧
      u.on PWR_STAT_SAG = false ∧ u.fld CLK_STAT_MODE ≠ 3) ∧
    (∃ (t : Nat) (s : State) (u : State), s.advance t = u ∧ u.fld RST_STAT_STEP = 3 ∧ u.power.ended = false ∧
      u.on PWR_STAT_SAG = false ∧ u.power.stepAt + 65536 ≤ u.clk) ∧
    (∃ (t : Nat) (store : Fin 3) (s : State) (u : State), s.advance t = u ∧ 5 ≤ u.fld RST_STAT_STEP ∧
      u.power.trained = false ∧ u.on PWR_STAT_SAG = false ∧ u.awake = true) ∧
    (∃ (t : Nat) (s : State) (u : State), s.advance t = u ∧ u.power.trained = true ∧ u.fld SYS_CAPS_STORE ≠ 0 ∧
      u.on PWR_STAT_SAG = false ∧ u.awake = true) ∧
    (∃ (t : Nat) (s : State) (u : State), s.advance t = u ∧ u.power.trained = false) ∧
    (∃ (t : Nat) (v : BitVec 32) (s : State) (u : State), s.advance t = u ∧ u.aonOk = true ∧ u.on PWR_STAT_SAG = false ∧
      u.armed = true ∧ v &&& 0x1F1FF#32 ≠ 0#32) ∧
    (∃ (t : Nat) (v : BitVec 32) (s : State) (u : State), s.advance t = u ∧ u.aonOk = true ∧ u.on PWR_STAT_SAG = false ∧
      (u.armed = false ∨ v &&& 0x1F1FF#32 = 0#32) ∧ v &&& 0x3FFFF#32 ≠ 0#32 ∧ u.power.delay = none ∧ u.svc.pulse = none ∧
      u.svc.page = false) ∧
    (∃ (t : Nat) (v : BitVec 32) (s : State) (u : State), s.advance t = u ∧ u.aonOk = true ∧ u.on PWR_STAT_SAG = false ∧
      (u.armed = false ∨ v &&& 0x1F1FF#32 = 0#32) ∧ v &&& 0x3FFFF#32 ≠ 0#32 ∧ u.power.delay = none ∧ u.svc.pulse ≠ none) ∧
    (∃ (t : Nat) (v : BitVec 32) (s : State) (u : State), s.advance t = u ∧ u.on PWR_STAT_SAG = true) ∧
    (∃ (s : State) (u : State) (m : Word), (List.range 18).foldl (fun s k => if m.getLsbD k then s.blockReset k else s) s = u) ∧
    (∃ (t : Nat) (s : State) (u : State), s.canonical ∧ s.advance t = u ∧ u.on PWR_STAT_SAG = false ∧
      u.fld PWR_STAT_STATE ≠ 3 ∧ u.power.delay = none ∧ u.svc.pulse = none ∧ u.svc.page = false ∧ u.armed = false ∧
      u.on RST_STAT_DONE = true ∧ u.on RST_WDCFG_EN = true ∧ u.on RST_WDCFG_FULL = true) ∧
    (∃ (t : Nat) (s : State) (u : State) (v : BitVec 32), s.canonical ∧ s.advance t = u ∧ u.on PWR_STAT_SAG = false ∧
      u.fld PWR_STAT_STATE ≠ 3 ∧ u.power.delay = none ∧ u.svc.pulse = none ∧ u.svc.page = false ∧ u.armed = false ∧
      u.on RST_STAT_DONE = true ∧ bitsOf v.toNat 24 8 = 0x5A ∧ v.getLsbD 0 = true ∧ u.awake = true) ∧
    (∃ (t : Nat) (s : State) (u : State) (seq : LinkHdr), s.canonical ∧ s.advance t = u ∧ u.on PWR_STAT_SAG = false ∧
      u.fld PWR_STAT_STATE ≠ 3 ∧ u.power.delay = none ∧ u.svc.pulse = none ∧ u.svc.page = false ∧ u.armed = false ∧
      u.on RST_STAT_DONE = true ∧ u.twinOn = true ∧ u.on TWN_LINKST_UP = true ∧ u.twin.seqIn ≠ seq.seq.toNat) :=
  ⟨⟨0, 0x5A000001#32, (W.setOn RST_STAT_DONE), _, rfl, by decide, by decide, by decide, by decide⟩,
    ⟨0, 0#32, (W), _, rfl, by decide⟩,
    ⟨(upSvc (upSvc (upPower ((W.setFld PWR_STAT_SAG 0).setFld PWR_STAT_STATE 0) (fun x => { x with delay := none })) (fun x => { x with pulse := none })) (fun x => { x with page := false })),
      0, 0, by decide, by decide, by decide, by decide, by decide, by decide⟩,
    ⟨(W.setOn PWR_STAT_SAG), 0, 0, by decide⟩,
    ⟨0,
      (upSvc (upSvc (upPower (W) (fun x => { x with delay := some 0 })) (fun x => { x with pulse := some (0, 0#32) })) (fun x => { x with page := false })),
      _, _, _, 0, 0, 0#32, rfl, by decide, by decide, by decide, rfl, rfl, by decide⟩,
    ⟨0, (upPower (W) (fun x => { x with delay := none })), _, rfl, by decide⟩,
    ⟨0, 0#6, false, ((upPower W (fun x => { x with ended := true })).setFld RST_STAT_DONE 0), _, _, rfl, rfl, by decide,
      by decide, by decide, by decide⟩,
    ⟨0, 0#6, false, (W), _, _, rfl, rfl, by decide⟩,
    ⟨0,
      (((upPower (W.setFld RST_STAT_STEP 2) (fun x => { x with ended := false })).setFld PWR_STAT_SAG 0).setFld CLK_STAT_MODE 0),
      _, rfl, by decide, by decide, by decide, by decide⟩,
    ⟨0, ((upPower (W.setFld RST_STAT_STEP 3) (fun x => { x with ended := false })).setFld PWR_STAT_SAG 0), _, rfl,
      by decide, by decide, by decide, by decide⟩,
    ⟨0, 0, ((upPower (W) (fun x => { x with trained := false })).setFld PWR_STAT_SAG 0), _, rfl, by decide, by decide,
      by decide, by decide⟩,
    ⟨0, (((upPower (W) (fun x => { x with trained := true })).setFld SYS_CAPS_STORE 1).setFld PWR_STAT_SAG 0), _, rfl,
      by decide, by decide, by decide, by decide⟩,
    ⟨0, (upPower (W) (fun x => { x with trained := false })), _, rfl, by decide⟩,
    ⟨0, 1#32, (W.setOn HIF_CTL_ARMED), _, rfl, by decide, by decide, by decide, by decide⟩,
    ⟨0, 1#32, (W), _, rfl, by decide, by decide, by decide, by decide, by decide, by decide, by decide⟩,
    ⟨0, 1#32, (upSvc W (fun x => { x with pulse := some (0, 0#32) })), _, rfl, by decide, by decide, by decide, by decide,
      by decide, by decide⟩,
    ⟨0, 0#32, (W.setOn PWR_STAT_SAG), _, rfl, by decide⟩,
    ⟨(W), _, 0#32, rfl⟩,
    ⟨0,
      (((((upSvc (upSvc (upPower ((W.setFld PWR_STAT_SAG 0).setFld PWR_STAT_STATE 0) (fun x => { x with delay := none })) (fun x => { x with pulse := none })) (fun x => { x with page := false })).setFld HIF_CTL_ARMED 0).setOn RST_STAT_DONE).setOn RST_WDCFG_EN).setOn RST_WDCFG_FULL),
      _, by unfold State.canonical; decide, rfl, by decide, by decide, by decide, by decide, by decide, by decide, by decide,
      by decide, by decide⟩,
    ⟨0, (W), _, 0x5A000001#32, by unfold State.canonical; decide, rfl, by decide, by decide, by decide, by decide,
      by decide, by decide, by decide, by decide, by decide, by decide⟩,
    ⟨0,
      ((((((upSvc (upSvc (upPower ((W.setFld PWR_STAT_SAG 0).setFld PWR_STAT_STATE 0) (fun x => { x with delay := none })) (fun x => { x with pulse := none })) (fun x => { x with page := false })).setFld HIF_CTL_ARMED 0).setOn RST_STAT_DONE).setFld SYS_CAPS_TWIN 1).setOn TWN_CTL_EN).setOn TWN_LINKST_UP),
      _, ⟨1#8, 0#8⟩, by unfold State.canonical; decide, rfl, by decide, by decide, by decide, by decide, by decide, by decide,
      by decide, by decide, by decide, by decide⟩⟩

theorem test_hyps_KilnWritesFrozen :
    (∃ (t : Nat) (a : BitVec 22) (len : Fin 9) (v : BitVec 64) (hearth : Bool) (s : State) (u : State), s.advance t = u ∧
      u.armed = true ∧ u.barOk 3 = true ∧ (hearth = true → u.firmwareOn = true) ∧ 1 ≤ len.val ∧ a.toNat % 4 + len.val ≤ 4 ∧
      a.toNat - a.toNat % 4 ∈ [KLN_CTL, KLN_COLS, KLN_ROTCFG, KLN_MTXCFG, KLN_MTXSEL 0, KLN_MTXSEL 1, KLN_MTXSEL 2,
      KLN_MTXSEL 3, KLN_EMBCTL]) ∧
    (∃ (t : Nat) (a : BitVec 22) (len : Fin 9) (v : BitVec 64) (hearth : Bool) (s : State) (u : State), s.advance t = u ∧
      u.armed = true ∧ u.barOk 3 = true ∧ (hearth = true → u.firmwareOn = true) ∧ 1 ≤ len.val ∧ len.val ≤ 4 ∧
      a.toNat = KLN_EMBREQ ∧ v.getLsbD 0 = true) ∧
    (∃ (t : Nat) (a : BitVec 22) (v : BitVec 64) (hearth : Bool) (s : State) (u : State), s.canonical ∧ s.advance t = u ∧
      u.armed = true ∧ u.barOk 3 = true ∧ (hearth = true → u.firmwareOn = true) ∧ a.toNat ∈ [KLN_EMBSTAT, KLN_ERR] ∧
      v.getLsbD 31 = true ∧ (u.times.was.get regReset a.toNat).getLsbD 31 = true) ∧
    (∃ (t : Nat) (k : Nat) (a : BitVec 26) (s : State) (u : State), s.canonical ∧ s.advance t = u ∧ u.armed = true ∧
      u.barOk 3 = true ∧ (a.toNat, k) ∈ [(KLN_EMBSTAT, 0xFFFF), (KLN_EMBPASS, 0xFFFFFFFF), (KLN_BLENDST, 0xFFFF0000),
      (KLN_ASHCNT, 0xFFFFFFFF), (KLN_BADENT, 0xFFFFFFFF)] ∧ u.times.was.get regReset a.toNat = u.reg a.toNat) :=
  ⟨⟨0, BitVec.ofNat 22 KLN_CTL, 4, 0#64, false, (W.setOn HIF_CTL_ARMED), _, rfl, by decide, by decide, by decide,
      by decide, by decide, by decide⟩,
    ⟨0, BitVec.ofNat 22 KLN_EMBREQ, 4, 1#64, false, (W.setOn HIF_CTL_ARMED), _, rfl, by decide, by decide, by decide,
      by decide, by decide, by decide, by decide⟩,
    ⟨0, BitVec.ofNat 22 KLN_ERR, 0x80000000#64, false,
      (({ W.setOn HIF_CTL_ARMED with times := { W.times with was := [(KLN_ERR, 0x80000000#32)] } } : State)), _,
      by unfold State.canonical; decide, rfl, by decide, by decide, by decide, by decide, by decide, by decide⟩,
    ⟨0, 0xFFFFFFFF, BitVec.ofNat 26 KLN_EMBPASS, (W.setOn HIF_CTL_ARMED), _, by unfold State.canonical; decide, rfl,
      by decide, by decide, by decide, by decide⟩⟩

theorem test_hyps_RegisterAccessesRun :
    (∃ (t : Nat) (a : BitVec 22) (len : Fin 9) (v : BitVec 64) (hearth : Bool) (s : State) (u : State),
      s.stepAfter t a.toNat = false ∧ s.advance t = u ∧ ((len.val = 8 ∧ a.toNat % 8 ≠ 0) ∨ (len.val ≠ 8 ∧
      (len.val = 0 ∨ 4 < a.toNat % 4 + len.val ∨ u.open_ a.toNat = false ∨ u.inReset a.toNat = true ∨ (winNZT a.toNat = false ∧
      winMTX a.toNat = false ∧ winRET a.toNat = false ∧ regRowAt (a.toNat - a.toNat % 4) = none))))) ∧
    (∃ (t : Nat) (a : BitVec 22) (v : BitVec 64) (hearth : Bool) (s : State) (u : State), s.stepAfter t a.toNat = false ∧
      s.advance t = u ∧ (hearth = true → u.firmwareOn = true) ∧ a.toNat % 8 = 0) ∧
    (∃ (t : Nat) (a : BitVec 22) (len : Fin 9) (v : BitVec 64) (hearth : Bool) (s : State) (u : State),
      s.stepAfter t a.toNat = false ∧ s.advance t = u ∧ (hearth = true → u.firmwareOn = true) ∧ 1 ≤ len.val ∧
      a.toNat % 4 + len.val ≤ 4 ∧ u.open_ a.toNat = true ∧ u.inReset a.toNat = false ∧ winNZT a.toNat = true) ∧
    (∃ (t : Nat) (a : BitVec 22) (len : Fin 9) (v : BitVec 64) (hearth : Bool) (s : State) (u : State),
      s.stepAfter t a.toNat = false ∧ s.advance t = u ∧ (hearth = true → u.firmwareOn = true) ∧ 1 ≤ len.val ∧
      a.toNat % 4 + len.val ≤ 4 ∧ u.open_ a.toNat = true ∧ u.inReset a.toNat = false ∧ winMTX a.toNat = true) ∧
    (∃ (t : Nat) (a : BitVec 22) (len : Fin 9) (v : BitVec 64) (hearth : Bool) (s : State) (u : State),
      s.stepAfter t a.toNat = false ∧ s.advance t = u ∧ (hearth = true → u.firmwareOn = true) ∧ 1 ≤ len.val ∧
      a.toNat % 4 + len.val ≤ 4 ∧ u.open_ a.toNat = true ∧ u.inReset a.toNat = false ∧ winRET a.toNat = true) ∧
    (∃ (t : Nat) (a : BitVec 22) (len : Fin 9) (v : BitVec 64) (hearth : Bool) (s : State) (u : State) (r : RegRow) (m : Word),
      s.stepAfter t a.toNat = false ∧ s.advance t = u ∧ (hearth = true → u.firmwareOn = true) ∧ 1 ≤ len.val ∧
      a.toNat % 4 + len.val ≤ 4 ∧ u.open_ a.toNat = true ∧ u.inReset a.toNat = false ∧ winNZT a.toNat = false ∧
      winMTX a.toNat = false ∧ winRET a.toNat = false ∧ regRowAt (a.toNat - a.toNat % 4) = some r ∧
      byteMask (a.toNat % 4) len = m) ∧
    (∃ (t : Nat) (a : BitVec 22) (len : Fin 9) (v : BitVec 64) (s : State) (u : State), s.stepAfter t a.toNat = false ∧
      s.advance t = u ∧ u.firmwareOn = false) ∧
    (∃ (s : State) (u : State) (a : Nat) (off : Nat) (len : Nat) (r : RegRow) (m : Word) (v : Word) (hearth : Bool),
      0x30000 ≤ a ∧ a < 0x34000 ∧ (if s.armed = true ∧
      a % 128 < 0x20 then s.unitErr erARMED ((a - 0x30000) / 128) else s.plainWrite a r m v) = u ∧ a % 128 ≠ 0 ∧ a % 128 ≠ 16) ∧
    (∃ (s : State) (u : State) (a : Nat) (off : Nat) (len : Nat) (r : RegRow) (m : Word) (v : Word) (hearth : Bool),
      0x30000 ≤ a ∧ a < 0x34000 ∧ (if s.armed = true ∧
      a % 128 < 0x20 then s.unitErr erARMED ((a - 0x30000) / 128) else s.plainWrite a r m v) = u ∧
      (a % 128 = 0 ∨ a % 128 = 16)) ∧
    (∃ (s : State) (a : Nat) (i : Nat) (r : RegRow) (m : Word) (v : Word), s.canonical ∧ i < 32 ∧
      legals.all (fun l => (bankAt a l.base l.count l.stride).isNone) = true ∧ r.rw &&& r.w1c = 0 ∧ r.rw &&& r.w1s = 0 ∧
      r.w1c &&& r.w1s = 0) ∧
    (∃ (s : State) (a : Nat) (b : Nat) (r : RegRow) (m : Word) (v : Word), b ≠ a) ∧
    (∃ (t : Nat) (a : BitVec 22) (len : Fin 9) (v : BitVec 64) (hearth : Bool) (s : State) (u : State), s.advance t = u ∧
      (len.val = 0 ∨ 4 < a.toNat % 4 + len.val ∨ u.aonOk = false)) ∧
    (∃ (t : Nat) (a : BitVec 26) (len : Fin 9) (s : State) (u : State), s.stepAfter t a.toNat = false ∧ s.advance t = u ∧
      a.toNat < 2 ^ 22 ∧ len.val ≠ 8 ∧
      (len.val = 0 ∨ 4 < a.toNat % 4 + len.val ∨ u.open_ a.toNat = false ∨ (u.inReset a.toNat = false ∧
      winNZT a.toNat = false ∧ winMTX a.toNat = false ∧ winRET a.toNat = false ∧ regRowAt (a.toNat - a.toNat % 4) = none))) ∧
    (∃ (t : Nat) (a : BitVec 26) (s : State) (u : State) (v : State) (w : State), s.stepAfter t a.toNat = false ∧
      s.advance t = u ∧ a.toNat < 2 ^ 22 ∧ a.toNat % 8 = 0 ∧ u.read32 a.toNat 4 = v ∧ v.read32 (a.toNat + 4) 4 = w) ∧
    (∃ (t : Nat) (a : BitVec 26) (len : Fin 9) (s : State) (u : State), s.stepAfter t a.toNat = false ∧ s.advance t = u ∧
      a.toNat < 2 ^ 22 ∧ 1 ≤ len.val ∧ a.toNat % 4 + len.val ≤ 4 ∧ u.open_ a.toNat = true ∧ u.inReset a.toNat = true) ∧
    (∃ (s : State) (a : Nat), a < 0x100000 ∧ a ≠ SWS_CAP) ∧
    (∃ (t : Nat) (a : BitVec 26) (s : State) (u : State) (r : RegRow), s.canonical ∧ s.advance t = u ∧ a.toNat < 2 ^ 22 ∧
      a.toNat % 4 = 0 ∧ u.open_ a.toNat = true ∧ u.inReset a.toNat = false ∧ winNZT a.toNat = false ∧ winMTX a.toNat = false ∧
      winRET a.toNat = false ∧ regRowAt a.toNat = some r ∧ 0x40000 ≤ a.toNat ∧ a.toNat < 0x80000 ∧ r.rc ≠ 0 ∧ r.rc < 2 ^ 32 ∧
      r.res = 0 ∧ r.wo = 0 ∧ u.times.was.get regReset a.toNat = u.reg a.toNat) ∧
    (∃ (t : Nat) (a : BitVec 26) (len : Fin 9) (s : State) (u : State), s.advance t = u ∧
      (len.val = 0 ∨ 8 < a.toNat % 8 + len.val ∨ u.bar2Addr a.toNat len = none)) ∧
    (∃ (t : Nat) (a : BitVec 22) (len : Fin 9) (v : BitVec 64) (hearth : Bool) (s : State), s.stepAfter t a.toNat = true ∧
      (hearth = true → (s.goOn t).firmwareOn = true)) ∧
    (∃ (t : Nat) (a : BitVec 26) (len : Fin 9) (s : State), a.toNat < 2 ^ 22 ∧ s.stepAfter t a.toNat = true) :=
  ⟨⟨0, 0#22, 0, 0#64, false, (W), _, by decide, rfl, by decide⟩,
    ⟨0, 0#22, 0#64, false, (W), _, by decide, rfl, by decide, by decide⟩,
    ⟨0, 0x80000#22, 1, 0#64, false, (W), _, by decide, rfl, by decide, by decide, by decide, by decide, by decide,
      by decide⟩,
    ⟨0, 0x300000#22, 1, 0#64, false, (W), _, by decide, rfl, by decide, by decide, by decide, by decide, by decide,
      by decide⟩,
    ⟨0, 0x224000#22, 1, 0#64, false, (W), _, by decide, rfl, by decide, by decide, by decide, by decide, by decide,
      by decide⟩,
    ⟨0, 0#22, 1, 0#64, false, (W), _, _, _, by decide, rfl, by decide, by decide, by decide, by decide, by decide,
      by decide, by decide, by decide, rfl, rfl⟩,
    ⟨0, 0#22, 0, 0#64, (W), _, by decide, rfl, by decide⟩,
    ⟨(W), _, 0x30004, 0, 0, ⟨0, 1, 0, 0, 0, 0, 0, 0, 0, 0⟩, 0#32, 0#32, false, by decide, by decide, rfl, by decide,
      by decide⟩,
    ⟨(W), _, 0x30000, 0, 0, ⟨0, 1, 4, 0, 0, 0, 0, 0, 0, 0⟩, 0#32, 0#32, false, by decide, by decide, rfl, by decide⟩,
    ⟨(W), 0, 0, ⟨0, 1, 0, 0, 0, 0, 0, 0, 0, 0⟩, 0#32, 0#32, by unfold State.canonical; decide, by decide, by decide,
      by decide, by decide, by decide⟩,
    ⟨(W), 0, 4, ⟨0, 1, 4, 0, 0, 0, 0, 0, 0, 0⟩, 0#32, 0#32, by decide⟩,
    ⟨0, 0#22, 0, 0#64, false, (W), _, rfl, by decide⟩,
    ⟨0, 0#26, 0, (W), _, by decide, rfl, by decide, by decide, by decide⟩,
    ⟨0, 0#26, (W), _, _, _, by decide, rfl, by decide, by decide, rfl, rfl⟩,
    ⟨0, BitVec.ofNat 26 KLN_ASHCNT, 4, (W.setReg RST_BLKRST 0x1FFFF#32), _, by decide, rfl, by decide, by decide, by decide,
      by decide, by decide⟩,
    ⟨(W), 0, by decide, by decide⟩,
    ⟨0, BitVec.ofNat 26 KLN_ASHCNT, (W), _, _, by unfold State.canonical; decide, rfl, by decide, by decide, by decide,
      by decide, by decide, by decide, by decide, rfl, by decide, by decide, by decide, by decide, by decide, by decide,
      by decide⟩,
    ⟨0, 0#26, 0, (W), _, rfl, by decide⟩,
    ⟨1000000001, BitVec.ofNat 22 CRD_SCHEDST, 0, 0#64, false,
      (({ W with times := { W.times with step := [(0, 5)] } } : State)), by decide, by decide⟩,
    ⟨1000000001, BitVec.ofNat 26 CRD_SCHEDST, 0, (({ W with times := { W.times with step := [(0, 5)] } } : State)),
      by decide, by decide⟩⟩

theorem test_hyps_MemoryIntegrityRuns :
    (∃ (t : Nat) (mem : Fin 2) (region : Fin 9) (a : BitVec 35) (flips : BitVec 72) (s : State) (u : State),
      s.advance t = u ∧ u.scrubDue mem = false) ∧
    (∃ (t : Nat) (region : Fin 9) (a : BitVec 35) (flips : BitVec 72) (s : State) (u : State) (v : State) (r : Nat) (j : Nat),
      s.advance t = u ∧ u.scrubDue 0 = true ∧ (u.upset 0 region a.toNat flips).startTimer (tmScrub 0) = v ∧
      v.mergeBuf memSRAM = none ∧ scrubPlace scrubOrder v.power.scrub = (r, j)) ∧
    (∃ (t : Nat) (region : Fin 9) (a : BitVec 35) (flips : BitVec 72) (s : State) (u : State) (v : State) (w : State) (p : Nat),
      s.advance t = u ∧ u.scrubDue 1 = true ∧ (u.upset 1 region a.toNat flips).startTimer (tmScrub 1) = v ∧
      v.mergeBuf memSTORE = none ∧ v.power.burst = p ∧ (v.countReg (SWS_BW 4) 1).storeTouchAll (64 * p) 64 = w) ∧
    (∃ (s : State) (r : Nat) (j : Nat), (s.regionWord r j).unc = false ∧ (s.regionWord r j).cor = false) ∧
    (∃ (t : Nat) (mem : Fin 3) (s : State) (u : State), s.advance t = u ∧ u.mergeBuf mem = none) ∧
    (∃ (t : Nat) (mem : Fin 3) (s : State) (u : State) (b : Narrow), s.advance t = u ∧ u.mergeBuf mem = some b ∧
      u.clk < b.at_ + 1600) ∧
    (∃ (t : Nat) (mem : Fin 3) (s : State) (u : State) (b : Narrow), s.advance t = u ∧ u.mergeBuf mem = some b ∧
      b.at_ + 1600 ≤ u.clk ∧ mem = 0) ∧
    (∃ (t : Nat) (mem : Fin 3) (s : State) (u : State) (b : Narrow), s.advance t = u ∧ u.mergeBuf mem = some b ∧
      b.at_ + 1600 ≤ u.clk ∧ mem = 1) ∧
    (∃ (t : Nat) (mem : Fin 3) (s : State) (u : State) (b : Narrow), s.advance t = u ∧ u.mergeBuf mem = some b ∧
      b.at_ + 1600 ≤ u.clk ∧ mem = 2) ∧
    (∃ (s : State) (b : Narrow), s.mergeBuf memSTORE = some b ∧ b.mask = 255 ∧ s.on ECC_FLIPCTL_ARM = false) ∧
    (∃ (s : State) (b : Narrow), s.mergeBuf memSTORE = some b ∧ b.mask ≠ 255 ∧
      (s.setMerge memSTORE none).unplaced b.key = false ∧ (s.storeWord b.key).unc = false ∧ (s.storeWord b.key).cor = false ∧
      (s.storeWord b.key).ash = true ∧ s.on ECC_FLIPCTL_ARM = false) ∧
    (∃ (v : BitVec 32) (s : State), s.firmwareOn = false) ∧
    (∃ (v : BitVec 32) (hearth : Bool) (s : State), s.barOk 16 = true ∧ (hearth = true → s.firmwareOn = true) ∧
      s.armed = true ∧ v.getLsbD 2 = true) ∧
    (∃ (v : BitVec 32) (hearth : Bool) (s : State), s.barOk 16 = true ∧ (hearth = true → s.firmwareOn = true) ∧
      (s.armed = false ∨ v.getLsbD 2 = false) ∧ (bitsOf v.toNat 0 2 ≠ 3 ∨ hearth = true)) ∧
    (∃ (v : BitVec 32) (hearth : Bool) (s : State), s.barOk 16 = true ∧ (hearth = true → s.firmwareOn = true) ∧
      (s.armed = false ∨ v.getLsbD 2 = false) ∧ bitsOf v.toNat 0 2 = 3 ∧ hearth = false) ∧
    (∃ (v : BitVec 32) (hearth : Bool) (s : State), s.barOk 16 = false) ∧
    (∃ (s : State) (target : Nat) (w : Nat) (v : BitVec 64), s.on ECC_FLIPCTL_ARM = false) ∧
    (∃ (s : State) (target : Nat) (w : Nat) (v : BitVec 64), s.on ECC_FLIPCTL_ARM = true ∧
      s.fld ECC_FLIPCTL_TARGET = target ∧ s.on ECC_FLIPCTL_ASH = true) ∧
    (∃ (t : Nat) (off : BitVec 26) (len : Fin 9) (v : BitVec 64) (s : State) (u : State), s.advance t = u ∧
      (len.val = 0 ∨ 8 < off.toNat % 8 + len.val)) ∧
    (∃ (t : Nat) (off : BitVec 26) (len : Fin 9) (v : BitVec 64) (s : State) (u : State), s.advance t = u ∧ 1 ≤ len.val ∧
      off.toNat % 8 + len.val ≤ 8 ∧ u.armed = true) ∧
    (∃ (t : Nat) (off : BitVec 26) (len : Fin 9) (v : BitVec 64) (s : State) (u : State), s.advance t = u ∧ u.armed = false ∧
      u.bar2Addr off.toNat len = none) ∧
    (∃ (t : Nat) (off : BitVec 26) (len : Fin 9) (v : BitVec 64) (s : State) (u : State) (a : Nat) (x : State) (b : Narrow),
      s.advance t = u ∧ 1 ≤ len.val ∧ off.toNat % 8 + len.val ≤ 8 ∧ u.armed = false ∧ u.bar2Addr off.toNat len = some a ∧
      (u.storeAway (a / 8)).countReg (SWS_BW 5) 1 = x ∧ ((x.mergeBuf memSTORE).getD ⟨a / 8, 0, 0,
      x.clk⟩).add (a % 8) len v.toNat x.clk = b) :=
  ⟨⟨0, 0, 0, 0#35, 0#72, (W.setFld ECC_CTL_SCRUBEN 0), _, rfl, by decide⟩,
    ⟨0, 0, 0#35, 0#72, (W), _, _, 0, 0, rfl, by decide, rfl, by decide, by decide⟩,
    ⟨0, 0, 0x7FFFFFFFF#35, 0#72, ((witStore (W.setOn ECC_CTL_SCRUBEN))), _, _, _, _, rfl, by decide, rfl, by decide, rfl,
      rfl⟩,
    ⟨((witStore (W.setOn ECC_CTL_SCRUBEN))), 0, 0, by decide, by decide⟩,
    ⟨0, 0, ((witStore (W.setOn ECC_CTL_SCRUBEN))), _, rfl, by decide⟩,
    ⟨0, 0, (({ W with tabs := { W.tabs with merge := [(0, some ⟨0, 1, 0, W.clk⟩)] } } : State)), _, ⟨0, 1, 0, W.clk⟩, rfl,
      by decide, by decide⟩,
    ⟨0, 0, (({ W with tabs := { W.tabs with merge := [(0, some ⟨0, 1, 0, 0⟩)] } } : State)), _, ⟨0, 1, 0, 0⟩, rfl,
      by decide, by decide, by decide⟩,
    ⟨0, 1, (({ W with tabs := { W.tabs with merge := [(1, some ⟨0, 1, 0, 0⟩)] } } : State)), _, ⟨0, 1, 0, 0⟩, rfl,
      by decide, by decide, by decide⟩,
    ⟨0, 2, (({ W with tabs := { W.tabs with merge := [(2, some ⟨0, 1, 0, 0⟩)] } } : State)), _, ⟨0, 1, 0, 0⟩, rfl,
      by decide, by decide, by decide⟩,
    ⟨(({ W with tabs := { W.tabs with merge := [(memSTORE, some ⟨0, 255, 0, 0⟩)] } } : State)), ⟨0, 255, 0, 0⟩, by decide,
      by decide, by decide⟩,
    ⟨((({ W with tabs := { W.tabs with merge := [(memSTORE, some ⟨0, 1, 0, 0⟩)] } } : State)).setStore 0 { MWord.clean 0#64 with ash := true }),
      ⟨0, 1, 0, 0⟩, by decide, by decide, by decide, by decide, by decide, by decide, by decide⟩,
    ⟨0#32, (W), by decide⟩,
    ⟨4#32, false, (W.setOn HIF_CTL_ARMED), by decide, by decide, by decide, by decide⟩,
    ⟨0#32, false, (W.setFld HIF_CTL_ARMED 0), by decide, by decide, by decide, by decide⟩,
    ⟨3#32, false, (W.setFld HIF_CTL_ARMED 0), by decide, by decide, by decide, by decide, by decide⟩,
    ⟨0#32, false, (W.setFld PWR_STAT_STATE 2), by decide⟩,
    ⟨(W.setFld ECC_FLIPCTL_ARM 0), 0, 0, 0#64, by decide⟩,
    ⟨((W.setOn ECC_FLIPCTL_ARM).setOn ECC_FLIPCTL_ASH), _, 0, 0#64, by decide, rfl, by decide⟩,
    ⟨0, 0#26, 0, 0#64, (W), _, rfl, by decide⟩,
    ⟨0, 0#26, 1, 0#64, (W.setOn HIF_CTL_ARMED), _, rfl, by decide, by decide, by decide⟩,
    ⟨0, 0#26, 0, 0#64, (W.setFld HIF_CTL_ARMED 0), _, rfl, by decide, by decide⟩,
    ⟨0, 0#26, 4, 0#64, ((witStore W).setOn SWS_CTL_WINEN), _, 0, _, _, rfl, by decide, by decide, by decide, by decide, rfl,
      rfl⟩⟩

theorem test_hyps_FirmwareAndMailboxRun :
    (∃ (t : Nat) (sigs : BitVec 2) (ok : Bool) (a : List (BitVec 8)) (b : List (BitVec 8)) (s : State) (u : State),
      (s.advance t).setFlash 0 a = u) ∧
    (∃ (t : Nat) (sigs : BitVec 2) (ok : Bool) (s : State) (u : State) (k : Nat), s.advance t = u ∧ u.awake = true ∧
      u.fld SVC_BOOTST_STATE = bsLOADING ∧ u.flashChoice sigs.toNat = some k) ∧
    (∃ (t : Nat) (sigs : BitVec 2) (ok : Bool) (s : State) (u : State), s.advance t = u ∧ u.awake = true ∧
      u.fld SVC_BOOTST_STATE = bsLOADING ∧ u.flashChoice sigs.toNat = none) ∧
    (∃ (t : Nat) (sigs : BitVec 2) (ok : Bool) (s : State) (u : State) (v : State) (img : List Byte), s.advance t = u ∧
      u.awake = true ∧ u.fld SVC_BOOTST_STATE = bsVERIFYING ∧ u.image u.bootAddr (4 * mib) = img ∧
      ({ u.storeTouchAll u.bootAddr img.length with freeCtr := (u.storeTouchAll u.bootAddr img.length).freeCtr + 2 } : State) = v ∧
      imgFormatOk img (4 * mib) = true ∧ imgCrcOk img = true ∧ ok = true) ∧
    (∃ (t : Nat) (sigs : BitVec 2) (ok : Bool) (s : State) (u : State) (v : State) (img : List Byte), s.advance t = u ∧
      u.awake = true ∧ u.fld SVC_BOOTST_STATE = bsVERIFYING ∧ u.image u.bootAddr (4 * mib) = img ∧
      ({ u.storeTouchAll u.bootAddr img.length with freeCtr := (u.storeTouchAll u.bootAddr img.length).freeCtr + 2 } : State) = v ∧
      imgCode img (4 * mib) ok ≠ 0) ∧
    (∃ (t : Nat) (sigs : BitVec 2) (ok : Bool) (s : State) (u : State), s.advance t = u ∧
      u.fld SVC_BOOTST_STATE ≠ bsLOADING ∧ u.fld SVC_BOOTST_STATE ≠ bsVERIFYING) ∧
    (∃ (t : Nat) (s : State) (u : State), s.advance t = u ∧ u.barOk 17 = true ∧ u.armed = true) ∧
    (∃ (t : Nat) (s : State) (u : State), s.advance t = u ∧ u.barOk 17 = true ∧ u.armed = false ∧ u.fwRuns = true) ∧
    (∃ (t : Nat) (s : State) (u : State), s.advance t = u ∧ u.barOk 17 = true ∧ u.armed = false ∧ u.fwRuns = false ∧
      u.on SYS_CAPS_DRAMOK = false) ∧
    (∃ (t : Nat) (s : State) (u : State), s.advance t = u ∧ u.barOk 17 = true ∧ u.armed = false ∧ u.fwRuns = false ∧
      u.on SYS_CAPS_DRAMOK = true ∧ u.fld SVC_BOOTST_STATE = bsWAITHOST) ∧
    (∃ (t : Nat) (s : State) (u : State) (g : State) (x : State), s.advance t = u ∧ u.barOk 17 = true ∧
      u.on SVC_MBXCTL_BUSY = false ∧
      u.setSvc { u.svc with req := (List.range 16).map (fun k => u.reqByte k), hi := u.on SVC_ASTAT_SEALED, lo := !u.on SVC_ASTAT_SEALED, back := none } = g ∧
      (g.setOn SVC_MBXCTL_GO).setOn SVC_MBXCTL_BUSY = x ∧ u.fld SVC_MBXCMD_CMD = 1) ∧
    (∃ (t : Nat) (s : State) (u : State) (g : State) (x : State), s.advance t = u ∧ u.barOk 17 = true ∧
      u.on SVC_MBXCTL_BUSY = false ∧
      u.setSvc { u.svc with req := (List.range 16).map (fun k => u.reqByte k), hi := u.on SVC_ASTAT_SEALED, lo := !u.on SVC_ASTAT_SEALED, back := none } = g ∧
      (g.setOn SVC_MBXCTL_GO).setOn SVC_MBXCTL_BUSY = x ∧ u.fld SVC_MBXCMD_CMD = 2) ∧
    (∃ (t : Nat) (s : State) (u : State) (g : State) (x : State), s.advance t = u ∧ u.barOk 17 = true ∧
      u.on SVC_MBXCTL_BUSY = false ∧
      u.setSvc { u.svc with req := (List.range 16).map (fun k => u.reqByte k), hi := u.on SVC_ASTAT_SEALED, lo := !u.on SVC_ASTAT_SEALED, back := none } = g ∧
      (g.setOn SVC_MBXCTL_GO).setOn SVC_MBXCTL_BUSY = x ∧ u.fld SVC_MBXCMD_CMD = 6) ∧
    (∃ (t : Nat) (s : State) (u : State) (g : State) (x : State), s.advance t = u ∧ u.barOk 17 = true ∧
      u.on SVC_MBXCTL_BUSY = false ∧
      u.setSvc { u.svc with req := (List.range 16).map (fun k => u.reqByte k), hi := u.on SVC_ASTAT_SEALED, lo := !u.on SVC_ASTAT_SEALED, back := none } = g ∧
      (g.setOn SVC_MBXCTL_GO).setOn SVC_MBXCTL_BUSY = x ∧ u.fld SVC_MBXCMD_CMD = 7) ∧
    (∃ (t : Nat) (s : State) (u : State) (g : State) (x : State), s.advance t = u ∧ u.barOk 17 = true ∧
      u.on SVC_MBXCTL_BUSY = false ∧
      u.setSvc { u.svc with req := (List.range 16).map (fun k => u.reqByte k), hi := u.on SVC_ASTAT_SEALED, lo := !u.on SVC_ASTAT_SEALED, back := none } = g ∧
      (g.setOn SVC_MBXCTL_GO).setOn SVC_MBXCTL_BUSY = x ∧ u.fld SVC_MBXCMD_CMD = 3) ∧
    (∃ (t : Nat) (s : State) (u : State) (g : State) (x : State), s.advance t = u ∧ u.barOk 17 = true ∧
      u.on SVC_MBXCTL_BUSY = false ∧
      u.setSvc { u.svc with req := (List.range 16).map (fun k => u.reqByte k), hi := u.on SVC_ASTAT_SEALED, lo := !u.on SVC_ASTAT_SEALED, back := none } = g ∧
      (g.setOn SVC_MBXCTL_GO).setOn SVC_MBXCTL_BUSY = x ∧ u.fld SVC_MBXCMD_CMD = 4) ∧
    (∃ (t : Nat) (s : State) (u : State) (g : State) (x : State), s.advance t = u ∧ u.barOk 17 = true ∧
      u.on SVC_MBXCTL_BUSY = false ∧
      u.setSvc { u.svc with req := (List.range 16).map (fun k => u.reqByte k), hi := u.on SVC_ASTAT_SEALED, lo := !u.on SVC_ASTAT_SEALED, back := none } = g ∧
      (g.setOn SVC_MBXCTL_GO).setOn SVC_MBXCTL_BUSY = x ∧ u.fld SVC_MBXCMD_CMD = 5) ∧
    (∃ (t : Nat) (s : State) (u : State) (g : State) (x : State), s.advance t = u ∧ u.barOk 17 = true ∧
      u.on SVC_MBXCTL_BUSY = false ∧
      u.setSvc { u.svc with req := (List.range 16).map (fun k => u.reqByte k), hi := u.on SVC_ASTAT_SEALED, lo := !u.on SVC_ASTAT_SEALED, back := none } = g ∧
      (g.setOn SVC_MBXCTL_GO).setOn SVC_MBXCTL_BUSY = x ∧ (u.fld SVC_MBXCMD_CMD = 0 ∨ 7 < u.fld SVC_MBXCMD_CMD)) ∧
    (∃ (t : Nat) (s : State) (u : State) (p : Nat × Instr), s.advance t = u ∧ u.barOk 17 = true ∧
      u.on SVC_MBXCTL_BUSY = true ∧ p ∈ ([(1, .version t), (2, .headread t), (3, .rankwrite t), (4, .flashwrite t), (5,
      .otpprog t), (6, .golden t), (7, .retrain t)] : List (Nat × Instr)) ∧ u.fld SVC_MBXCMD_CMD = p.1) ∧
    (∃ (t : Nat) (s : State) (u : State), s.advance t = u ∧ u.barOk 17 = true ∧ u.on SVC_MBXCTL_BUSY = true ∧
      (u.fld SVC_MBXCMD_CMD = 0 ∨ 7 < u.fld SVC_MBXCMD_CMD)) ∧
    (∃ (t : Nat) (s : State) (u : State) (p : Nat × Instr), s.advance t = u ∧ p ∈ ([(1, .version t), (2, .headread t), (3,
      .rankwrite t), (4, .flashwrite t), (5, .otpprog t), (6, .golden t), (7, .retrain t)] : List (Nat × Instr)) ∧
      u.fld SVC_MBXCMD_CMD ≠ p.1) ∧
    (∃ (t : Nat) (s : State) (u : State), s.advance t = u ∧ 1 ≤ u.fld SVC_MBXCMD_CMD ∧ u.fld SVC_MBXCMD_CMD ≤ 7) ∧
    (∃ (s : State), 256 < s.fld SVC_MBXCMD_LEN) ∧
    (∃ (s : State), s.fld SVC_MBXCMD_LEN ≤ 256) ∧
    (∃ (s : State), s.fwRuns = false) ∧
    (∃ (s : State), s.fwRuns = true ∧ s.fld SVC_MBXCMD_LEN ≤ 256 ∧ s.reqField 0 1 ≤ 63 ∧
      s.headHere (s.reqField 0 1) = false ∧ s.armed = false) ∧
    (∃ (t : Nat) (wrseal : Bool) (sig : Bool) (ok : Bool) (data : List (BitVec 8)) (s : State) (u : State), s.advance t = u ∧
      (u.svc.cmd = none ∨ 1 < u.fld PWR_STAT_STATE)) ∧
    (∃ (t : Nat) (wrseal : Bool) (sig : Bool) (ok : Bool) (data : List (BitVec 8)) (s : State) (u : State) (v : State) (c : Nat),
      s.advance t = u ∧ u.svc.cmd = some c ∧ u.fld PWR_STAT_STATE ≤ 1 ∧ u.serveGold u.svc.tasks.length = v ∧
      v.svc = { u.svc with tasks := v.svc.tasks } ∧ u.svc.stat ≠ 0) ∧
    (∃ (t : Nat) (wrseal : Bool) (sig : Bool) (ok : Bool) (data : List (BitVec 8)) (s : State) (u : State) (v : State) (c : Nat),
      s.advance t = u ∧ u.svc.cmd = some c ∧ u.fld PWR_STAT_STATE ≤ 1 ∧ u.serveGold u.svc.tasks.length = v ∧
      v.svc = { u.svc with tasks := v.svc.tasks } ∧ u.svc.stat = 0 ∧ c = 3 ∧ u.svc.page = true) ∧
    (∃ (t : Nat) (wrseal : Bool) (sig : Bool) (ok : Bool) (data : List (BitVec 8)) (s : State) (u : State) (v : State) (c : Nat),
      s.advance t = u ∧ u.svc.cmd = some c ∧ u.fld PWR_STAT_STATE ≤ 1 ∧ u.serveGold u.svc.tasks.length = v ∧
      v.svc = { u.svc with tasks := v.svc.tasks } ∧ u.svc.stat = 0 ∧ c = 3 ∧ u.svc.page = false) ∧
    (∃ (t : Nat) (wrseal : Bool) (sig : Bool) (ok : Bool) (data : List (BitVec 8)) (s : State) (u : State) (v : State) (c : Nat),
      s.advance t = u ∧ u.svc.cmd = some c ∧ u.fld PWR_STAT_STATE ≤ 1 ∧ u.serveGold u.svc.tasks.length = v ∧
      v.svc = { u.svc with tasks := v.svc.tasks } ∧ u.svc.stat = 0 ∧ c = 1) ∧
    (∃ (t : Nat) (wrseal : Bool) (sig : Bool) (ok : Bool) (data : List (BitVec 8)) (s : State) (u : State) (v : State) (c : Nat),
      s.advance t = u ∧ u.svc.cmd = some c ∧ u.fld PWR_STAT_STATE ≤ 1 ∧ u.serveGold u.svc.tasks.length = v ∧
      v.svc = { u.svc with tasks := v.svc.tasks } ∧ u.svc.stat = 0 ∧ c = 2) ∧
    (∃ (t : Nat) (wrseal : Bool) (sig : Bool) (ok : Bool) (data : List (BitVec 8)) (s : State) (u : State) (v : State) (c : Nat),
      s.advance t = u ∧ u.svc.cmd = some c ∧ u.fld PWR_STAT_STATE ≤ 1 ∧ u.serveGold u.svc.tasks.length = v ∧
      v.svc = { u.svc with tasks := v.svc.tasks } ∧ u.svc.stat = 0 ∧ c = 4) ∧
    (∃ (t : Nat) (wrseal : Bool) (sig : Bool) (ok : Bool) (data : List (BitVec 8)) (s : State) (u : State) (v : State) (c : Nat),
      s.advance t = u ∧ u.svc.cmd = some c ∧ u.fld PWR_STAT_STATE ≤ 1 ∧ u.serveGold u.svc.tasks.length = v ∧
      v.svc = { u.svc with tasks := v.svc.tasks } ∧ u.svc.stat = 0 ∧ c = 5) ∧
    (∃ (t : Nat) (wrseal : Bool) (sig : Bool) (ok : Bool) (data : List (BitVec 8)) (s : State) (u : State) (v : State) (c : Nat),
      s.advance t = u ∧ u.svc.cmd = some c ∧ u.fld PWR_STAT_STATE ≤ 1 ∧ u.serveGold u.svc.tasks.length = v ∧
      v.svc = { u.svc with tasks := v.svc.tasks } ∧ u.svc.stat = 0 ∧ c = 6) ∧
    (∃ (t : Nat) (wrseal : Bool) (sig : Bool) (ok : Bool) (data : List (BitVec 8)) (s : State) (u : State) (v : State) (c : Nat),
      s.advance t = u ∧ u.svc.cmd = some c ∧ u.fld PWR_STAT_STATE ≤ 1 ∧ u.serveGold u.svc.tasks.length = v ∧
      v.svc = { u.svc with tasks := v.svc.tasks } ∧ u.svc.stat = 0 ∧ c = 7) ∧
    (∃ (s : State) (st : Nat), s.canonical ∧ st < 256) ∧
    (∃ (t : Nat) (sigs : BitVec 2) (s : State) (u : State) (img : List Byte), s.canonical ∧ s.advance t = u ∧
      u.awake = true ∧ u.fld SVC_BOOTST_STATE = bsVERIFYING ∧ u.image u.bootAddr (4 * mib) = img ∧
      imgFormatOk img (4 * mib) = true ∧ imgCrcOk img = true) ∧
    (∃ (t : Nat) (wrseal : Bool) (sig : Bool) (ok : Bool) (data : List (BitVec 8)) (s : State) (u : State), s.canonical ∧
      s.advance t = u ∧ u.svc.cmd = some 1 ∧ u.awake = true ∧ u.svc.stat = 0 ∧ u.svc.tasks = []) :=
  ⟨⟨0, 0#2, false, [], [], (W), _, rfl⟩,
    ⟨0, 1#2, false, (witFlash (W.setFld SVC_BOOTST_STATE bsLOADING)), _, 0, rfl, by decide, by decide, by decide +kernel⟩,
    ⟨0, 0#2, false, (W.setFld SVC_BOOTST_STATE bsLOADING), _, rfl, by decide, by decide, by decide⟩,
    ⟨0, 1#2, true, (witImg ((witStore W).setFld SVC_BOOTST_STATE bsVERIFYING)), _, _, _, rfl, by decide, by decide, rfl,
      rfl, by decide +kernel, by decide +kernel, by decide⟩,
    ⟨0, 0#2, false, (W.setFld SVC_BOOTST_STATE bsVERIFYING), _, _, _, rfl, by decide, by decide, rfl, rfl, by decide⟩,
    ⟨0, 0#2, false, ((W.setFld SVC_BOOTST_STATE 0).setFld SVC_BOOTST_STATE 0), _, rfl, by decide, by decide⟩,
    ⟨0, (W.setOn HIF_CTL_ARMED), _, rfl, by decide, by decide⟩,
    ⟨0, (witFw W), _, rfl, by decide, by decide, by decide⟩,
    ⟨0, ((W.setFld HIF_CTL_ARMED 0).setFld SYS_CAPS_DRAMOK 0), _, rfl, by decide, by decide, by decide, by decide⟩,
    ⟨0, (((W.setFld HIF_CTL_ARMED 0).setOn SYS_CAPS_DRAMOK).setFld SVC_BOOTST_STATE bsWAITHOST), _, rfl, by decide,
      by decide, by decide, by decide, by decide⟩,
    ⟨0, ((W.setFld SVC_MBXCTL_BUSY 0).setFld SVC_MBXCMD_CMD 1), _, _, _, rfl, by decide, by decide, rfl, rfl, by decide⟩,
    ⟨0, ((W.setFld SVC_MBXCTL_BUSY 0).setFld SVC_MBXCMD_CMD 2), _, _, _, rfl, by decide, by decide, rfl, rfl, by decide⟩,
    ⟨0, ((W.setFld SVC_MBXCTL_BUSY 0).setFld SVC_MBXCMD_CMD 6), _, _, _, rfl, by decide, by decide, rfl, rfl, by decide⟩,
    ⟨0, ((W.setFld SVC_MBXCTL_BUSY 0).setFld SVC_MBXCMD_CMD 7), _, _, _, rfl, by decide, by decide, rfl, rfl, by decide⟩,
    ⟨0, ((W.setFld SVC_MBXCTL_BUSY 0).setFld SVC_MBXCMD_CMD 3), _, _, _, rfl, by decide, by decide, rfl, rfl, by decide⟩,
    ⟨0, ((W.setFld SVC_MBXCTL_BUSY 0).setFld SVC_MBXCMD_CMD 4), _, _, _, rfl, by decide, by decide, rfl, rfl, by decide⟩,
    ⟨0, ((W.setFld SVC_MBXCTL_BUSY 0).setFld SVC_MBXCMD_CMD 5), _, _, _, rfl, by decide, by decide, rfl, rfl, by decide⟩,
    ⟨0, ((W.setFld SVC_MBXCTL_BUSY 0).setFld SVC_MBXCMD_CMD 0), _, _, _, rfl, by decide, by decide, rfl, rfl, by decide⟩,
    ⟨0, ((W.setOn SVC_MBXCTL_BUSY).setFld SVC_MBXCMD_CMD 1), _, (1, .version 0), rfl, by decide, by decide, by decide,
      by decide⟩,
    ⟨0, ((W.setOn SVC_MBXCTL_BUSY).setFld SVC_MBXCMD_CMD 0), _, rfl, by decide, by decide, by decide⟩,
    ⟨0, (W), _, (1, .version 0), rfl, by decide, by decide⟩,
    ⟨0, (W.setFld SVC_MBXCMD_CMD 1), _, rfl, by decide, by decide⟩,
    ⟨(W.setFld SVC_MBXCMD_LEN 257), by decide⟩,
    ⟨(W), by decide⟩,
    ⟨(W), by decide⟩,
    ⟨(witFw W), by decide, by decide, by decide, by decide, by decide⟩,
    ⟨0, false, false, false, [], (upSvc (W) (fun x => { x with cmd := none })), _, rfl, by decide⟩,
    ⟨0, false, false, false, [], (upSvc W (fun x => { x with cmd := some 0, stat := 1 })), _, _, 0, rfl, rfl, by decide,
      rfl, by decide, by decide⟩,
    ⟨0, false, false, false, [],
      (upSvc (upSvc (upSvc (W) (fun x => { x with cmd := some 3 })) (fun x => { x with stat := 0 })) (fun x => { x with page := true })),
      _, _, 3, rfl, by decide, by decide, rfl, by decide, by decide, by decide, by decide⟩,
    ⟨0, false, false, false, [],
      (upSvc (upSvc (upSvc (W) (fun x => { x with cmd := some 3 })) (fun x => { x with stat := 0 })) (fun x => { x with page := false })),
      _, _, 3, rfl, by decide, by decide, rfl, by decide, by decide, by decide, by decide⟩,
    ⟨0, false, false, false, [], (upSvc (upSvc (W) (fun x => { x with cmd := some 1 })) (fun x => { x with stat := 0 })), _,
      _, 1, rfl, by decide, by decide, rfl, by decide, by decide, by decide⟩,
    ⟨0, false, false, false, [], (upSvc (upSvc (W) (fun x => { x with cmd := some 2 })) (fun x => { x with stat := 0 })), _,
      _, 2, rfl, by decide, by decide, rfl, by decide, by decide, by decide⟩,
    ⟨0, false, false, false, [], (upSvc (upSvc (W) (fun x => { x with cmd := some 4 })) (fun x => { x with stat := 0 })), _,
      _, 4, rfl, by decide, by decide, rfl, by decide, by decide, by decide⟩,
    ⟨0, false, false, false, [], (upSvc (upSvc (W) (fun x => { x with cmd := some 5 })) (fun x => { x with stat := 0 })), _,
      _, 5, rfl, by decide, by decide, rfl, by decide, by decide, by decide⟩,
    ⟨0, false, false, false, [], (upSvc (upSvc (W) (fun x => { x with cmd := some 6 })) (fun x => { x with stat := 0 })), _,
      _, 6, rfl, by decide, by decide, rfl, by decide, by decide, by decide⟩,
    ⟨0, false, false, false, [], (upSvc (upSvc (W) (fun x => { x with cmd := some 7 })) (fun x => { x with stat := 0 })), _,
      _, 7, rfl, by decide, by decide, rfl, by decide, by decide, by decide⟩,
    ⟨(W), 0, by unfold State.canonical; decide, by decide⟩,
    ⟨0, 1#2, (witImg ((witStore W).setFld SVC_BOOTST_STATE bsVERIFYING)), _, _, by unfold State.canonical; decide, rfl,
      by decide, by decide, rfl, by decide +kernel, by decide +kernel⟩,
    ⟨0, false, false, false, [],
      (upSvc (upSvc (upSvc (W) (fun x => { x with cmd := some 1 })) (fun x => { x with stat := 0 })) (fun x => { x with tasks := [] })),
      _, by unfold State.canonical; decide, rfl, by decide, by decide, by decide, by decide⟩⟩

theorem test_hyps_AuthorisationProtects :
    (∃ (s : State), s.mbxJudge 5 = 0) ∧
    (∃ (s : State), s.mbxJudge 4 = 0) ∧
    (∃ (s : State), s.mbxJudge 3 = 0) ∧
    (∃ (s : State), s.fwRuns = true ∧ s.fld SVC_MBXCMD_LEN ≤ 256 ∧ s.reqField 0 2 ≤ 63 ∧ s.armed = false ∧
      s.authOk 1 0 = false) ∧
    (∃ (s : State), s.fld SVC_MBXCMD_LEN ≤ 256 ∧ s.reqField 0 8 + s.reqField 8 4 ≤ s.storeSize ∧ 1 ≤ s.reqField 8 4 ∧
      s.reqField 8 4 ≤ 4 * mib ∧ s.armed = false ∧ s.authOk 2 0 = false) ∧
    (∃ (s : State) (op : Nat) (p : Nat), op = 3) ∧
    (∃ (s : State) (u : State), s.authUse = u) ∧
    (∃ (s : State) (u : State) (v : State), s.authUse = u ∧ u.storeMerge.storeTouchAll (s.reqField 1 8) 2336 = v) ∧
    (∃ (s : State) (refuse : State → Bool) (f : State → State), s.authOk 4 0 = true ∧ refuse s = false) ∧
    (∃ (s : State) (refuse : State → Bool) (f : State → State), s.authOk 4 0 = false) ∧
    (∃ (s : State) (u : State) (w : State) (j : Nat) (v : Word) (hearth : Bool),
      s.setReg (TRM_CEIL j) (v &&& 0x3FFF#32) = u ∧ s.trimCeil < u.trimCeil ∧ u.authUse = w ∧ s.authOk 5 0 = true ∧
      (hearth = true → s.ceilBehind = false)) ∧
    (∃ (s : State) (u : State) (w : State) (j : Nat) (v : Word) (hearth : Bool),
      s.setReg (TRM_CEIL j) (v &&& 0x3FFF#32) = u ∧ s.trimCeil < u.trimCeil ∧ u.authUse = w ∧
      (s.authOk 5 0 = false ∨ (hearth = true ∧ s.ceilBehind = true))) ∧
    (∃ (s : State) (x : Nat), x ≠ 0 ∧ s.overBehind = true) ∧
    (∃ (s : State), s.canonical) ∧
    (∃ (t : Nat) (v : BitVec 32) (s : State) (u : State), s.canonical ∧ s.advance t = u ∧ u.barOk 17 = true ∧
      1 ≤ bitsOf v.toNat 0 8 ∧ bitsOf v.toNat 0 8 ≤ 5) ∧
    (∃ (t : Nat) (v : BitVec 32) (s : State) (u : State), s.canonical ∧ s.advance t = u ∧ u.barOk 17 = true ∧
      bitsOf v.toNat 0 8 = 0) ∧
    (∃ (t : Nat) (v : BitVec 32) (s : State) (u : State), s.canonical ∧ s.advance t = u ∧ u.barOk 17 = true ∧
      6 ≤ bitsOf v.toNat 0 8) ∧
    (∃ (t : Nat) (s : State) (u : State), s.advance t = u ∧ u.fld SVC_ASTAT_STATE ≠ auIDLE ∧
      u.timers.get (fun _ => 0) tmAuth + u.authWindow < u.clk) ∧
    (∃ (t : Nat) (s : State) (u : State), s.advance t = u ∧
      (u.fld SVC_ASTAT_STATE = auIDLE ∨ u.clk ≤ u.timers.get (fun _ => 0) tmAuth + u.authWindow)) :=
  ⟨⟨(witAuth (witFw W) 1), by decide⟩,
    ⟨(upSvc (witAuth (witFw W) 2) (fun x => { x with req := List.replicate 8 0#8 ++ [1#8, 0#8, 0#8, 0#8] })), by decide⟩,
    ⟨(((((witAuth (witFw W) 3).setFld SVC_ASTAT_PORT 0).setOn (HPT_HSTAT_IDOK 0)).setOn (HPT_BUSST_MASTER 0)).setReg (SVC_MBXREQ 0) 0#32),
      by decide⟩,
    ⟨(witFw W), by decide, by decide, by decide, by decide, by decide⟩,
    ⟨(upSvc (witStore W) (fun x => { x with req := List.replicate 8 0#8 ++ [1#8, 0#8, 0#8, 0#8] })), by decide, by decide,
      by decide, by decide, by decide, by decide⟩,
    ⟨(W), 3, 0, by decide⟩,
    ⟨(W), _, rfl⟩,
    ⟨(W), _, _, rfl, rfl⟩,
    ⟨((W.setFld SVC_ASTAT_STATE 2).setFld SVC_ASTAT_OP 4), (fun _ => false), (fun s => s), by decide, by decide⟩,
    ⟨(W), (fun _ => false), (fun s => s), by decide⟩,
    ⟨(witAuth (((W.setReg (TRM_CEIL 0) 0#32).setReg (TRM_CEIL 1) 0#32).setReg (TRM_CEIL 2) 0x3FFF#32) 5), _, _, 0,
      0x3FFF#32, false, rfl, by decide, rfl, by decide, by decide⟩,
    ⟨(((W.setReg (TRM_CEIL 0) 0#32).setReg (TRM_CEIL 1) 0#32).setReg (TRM_CEIL 2) 0x3FFF#32), _, _, 0, 0x3FFF#32, false,
      rfl, by decide, rfl, by decide⟩,
    ⟨(({ witAuth (witTwin W) 4 with pending := [.overrideOut 0] } : State)), 1, by decide, by decide⟩,
    ⟨(W), by unfold State.canonical; decide⟩,
    ⟨0, 1#32, (W), _, by unfold State.canonical; decide, rfl, by decide, by decide, by decide⟩,
    ⟨0, 0#32, (W), _, by unfold State.canonical; decide, rfl, by decide, by decide⟩,
    ⟨0, 6#32, (W), _, by unfold State.canonical; decide, rfl, by decide, by decide⟩,
    ⟨0, (({ witAuth W 1 with clk := 100000000000 } : State)), _, rfl, by decide, by decide⟩,
    ⟨0, (W.setFld SVC_ASTAT_STATE auIDLE), _, rfl, by decide⟩⟩

end Sys2Proof.Tests
end

section
/-! PROOF. Which commands complete, and that only operand bytes which spell another row stop one (R8, R80). -/

namespace Sys2Proof.Machine

open Sys2Proof

/-- Whether the operand bytes of a descriptor or command ring command spell its own row, and the mnemonic of that row. Every other command
carries no bytes that could spell another one. -/
def rowCheck : Instr → Bool × String
  | .band _ raw => (dOp raw == 1, "BAND")
  | .mark _ raw => (dOp raw == 2, "MARK")
  | .fence _ raw => (dOp raw == 3, "FENCE")
  | .table _ raw => (dOp raw == 4, "TABLE")
  | .strip _ raw => (dOp raw == 5, "STRIP")
  | .scheduleEvent _ raw => (dOp raw == 6, "SCHEDULE_EVENT")
  | .badopc _ raw => (dOp raw == 0 || decide (7 ≤ dOp raw), "BADOPC")
  | .arm raw => (isCmd 1 raw, "ARM")
  | .disarm raw => (isCmd 2 raw, "DISARM")
  | .restart raw => (isCmd 3 raw, "RESTART")
  | .skip raw => (isCmd 4 raw, "SKIP")
  | .status raw => (isCmd 5 raw, "STATUS")
  | .nop raw => (isCmd 6 raw, "NOP")
  | .badcmd raw => (!(List.range 7).any (fun k => decide (1 ≤ k) && isCmd k raw), "BADCMD")
  | _ => (true, "")

/-- Whatever the state, a command either has its effect or stops on the check of its row. -/
theorem exec_eq_ofRow (c : Instr) (s : State) : ∃ t, exec c s = ofRow (rowCheck c).1 (rowCheck c).2 t := by
  cases c <;> exact ⟨_, rfl⟩

theorem ofRow_true (m : String) (s : State) : ofRow true m s = .next s := rfl

theorem ofRow_ne_refused (ok : Bool) (m : String) (s : State) (r : Refusal) : ofRow ok m s ≠ .refused r := by
  cases ok <;> exact nofun

theorem ofRow_eq_fault {ok : Bool} {m : String} {s : State} {f : Fault} (h : ofRow ok m s = .fault f) : ok = false := by
  cases ok
  · rfl
  · exact nomatch h

/-- A well-formed command spells its own row. -/
theorem rowCheck_of_wellFormed {c : Instr} (h : c.wellFormed = true) : (rowCheck c).1 = true := by
  unfold rowCheck
  split
  case h_15 => rfl
  all_goals exact h

/-- Only the descriptor commands and the command ring commands can fail the check of their row, and then they are not well formed. -/
theorem rowCheck_false {c : Instr} (h : (rowCheck c).1 = false) : c.wellFormed = false ∧
    ((∃ st raw, c = .band st raw ∨ c = .mark st raw ∨ c = .fence st raw ∨ c = .table st raw ∨ c = .strip st raw ∨
      c = .scheduleEvent st raw ∨ c = .badopc st raw) ∨
     (∃ raw, c = .arm raw ∨ c = .disarm raw ∨ c = .restart raw ∨ c = .skip raw ∨ c = .status raw ∨ c = .nop raw ∨ c = .badcmd raw)) := by
  unfold rowCheck at h
  split at h
  case h_15 => exact nomatch h
  all_goals exact ⟨h, by simp⟩

/-- A well-formed command completes in every state. -/
theorem exec_next_of_wellFormed {c : Instr} (h : c.wellFormed = true) (s : State) : ∃ t, exec c s = .next t := by
  obtain ⟨t, ht⟩ := exec_eq_ofRow c s
  exact ⟨t, by rw [ht, rowCheck_of_wellFormed h, ofRow_true]⟩

/-- Settles O5: a command stops only on the check of its row, which a well-formed command passes. -/
theorem wellFormedCommandsComplete : Obligations.WellFormedCommandsComplete := by
  refine ⟨fun c s h => exec_next_of_wellFormed h s, ?_, ?_, ?_⟩
  · intro c cs s hs h
    obtain ⟨t, ht⟩ := exec_next_of_wellFormed h { s with pending := cs }
    exact ⟨t, by simp only [step, hs, ht]⟩
  · intro c s r
    obtain ⟨t, ht⟩ := exec_eq_ofRow c s
    rw [ht]
    exact ofRow_ne_refused _ _ _ _
  · intro c s f hf
    obtain ⟨t, ht⟩ := exec_eq_ofRow c s
    exact rowCheck_false (ofRow_eq_fault (ht ▸ hf))

end Sys2Proof.Machine
end

section
/-! PROOF. Accesses to registers: which are served, what a plain write leaves in every bit, and what a read returns and clears (R5 to R7,
R418, R419). -/

namespace Sys2Proof.Machine

open Sys2Proof

/-! ### Which access goes where -/

theorem exec_registerWrite_bar0 (t : Nat) (a : BitVec 22) (len : Fin 9) (v : BitVec 64) (hearth : Bool) (s : State) :
    exec (.registerWrite t ⟨0, a⟩ len v hearth) s =
      .next (s.accessAt t a.toNat (fun s => s.byWriter hearth (fun s => s.bar0Write a.toNat len v.toNat hearth))) := rfl

theorem exec_registerWrite_cfg (t : Nat) (a : BitVec 22) (len : Fin 9) (v : BitVec 64) (hearth : Bool) (s : State) :
    exec (.registerWrite t ⟨1, a⟩ len v hearth) s = .next ((s.advance t).cfgAccess (a.toNat % 4096) len v.toNat) := rfl

theorem exec_clearingRead_bar0 (t : Nat) {a : BitVec 26} (ha : a.toNat < 2 ^ 22) (len : Fin 9) (s : State) :
    exec (.clearingRead t ⟨0, a⟩ len) s = .next (s.accessAt t a.toNat (fun s => s.bar0Read a.toNat len)) := by
  have h : exec (.clearingRead t ⟨0, a⟩ len) s =
      .next (s.accessAt t (a.toNat % 2 ^ 22) (fun s => s.bar0Read (a.toNat % 2 ^ 22) len)) := rfl
  rwa [Nat.mod_eq_of_lt ha] at h

theorem exec_clearingRead_bar2 (t : Nat) (a : BitVec 26) (len : Fin 9) (s : State) :
    exec (.clearingRead t ⟨1, a⟩ len) s =
      .next (if len.val = 0 ∨ 8 < a.toNat % 8 + len.val then (s.advance t).answer 0 false else (s.advance t).bar2Read a.toNat len) := rfl

theorem exec_clearingRead_cfg (t : Nat) (a : BitVec 26) (len : Fin 9) (s : State) :
    exec (.clearingRead t ⟨2, a⟩ len) s = .next ((s.advance t).cfgRead (a.toNat % 4096) len) := rfl

/-! ### Order within a core clock (R7) -/

variable {s u : State} {t a : Nat}

theorem State.accessAt_of_not_stepAfter (h : s.stepAfter t a = false) (f : State → State) : s.accessAt t a f = f (s.advance t) := by
  simp [State.accessAt, h]

theorem State.accessAt_of_stepAfter (h : s.stepAfter t a = true) (f : State → State) : s.accessAt t a f = (f (s.goOn t)).takeSteps := by
  simp [State.accessAt, h]

theorem State.stepAfter_iff (s : State) (t a : Nat) : s.stepAfter t a = true ↔ s.times.step ≠ [] ∧ t = s.clk + 1 ∧
    (a / 8 = CRD_SCHEDST / 8 ∨ ∃ n < 8, a / 8 = TIM_EVTSTAT n / 8) := by
  simp [State.stepAfter, List.any_eq_true, and_assoc]

/-- Only the time base and Cord blocks hold registers that a base step sets. -/
theorem State.stepAfter_below (s : State) (t : Nat) (ha : a < 0x1e0000) : s.stepAfter t a = false := by
  rw [Bool.eq_false_iff, ne_eq, State.stepAfter_iff]
  rintro ⟨-, -, h | ⟨n, -, h⟩⟩
  · simp only [CRD_SCHEDST] at h; omega
  · simp only [TIM_EVTSTAT] at h; omega

/-! ### The writer (R398, R405) -/

theorem State.byWriter_of_allowed {hearth : Bool} (h : hearth = true → u.firmwareOn = true) (f : State → State) :
    u.byWriter hearth f = f u := by
  unfold State.byWriter
  cases hearth <;> simp_all

theorem State.byWriter_of_firmware_off (h : u.firmwareOn = false) (f : State → State) : u.byWriter true f = u := by
  simp [State.byWriter, h]

/-- What changes nothing changes nothing, whoever writes it. -/
theorem State.byWriter_eq_self (hearth : Bool) {f : State → State} (h : f u = u) : u.byWriter hearth f = u := by
  unfold State.byWriter
  split
  · rfl
  · exact h

/-! ### Windows and words -/

theorem winNZT_of_winMTX (h : winMTX a = true) : winNZT a = false := by
  simp only [winMTX, winNZT, Bool.and_eq_true, decide_eq_true_eq, Bool.and_eq_false_iff, decide_eq_false_iff_not] at *
  omega

theorem winNZT_of_winRET (h : winRET a = true) : winNZT a = false := by
  simp only [winRET, winNZT, Bool.and_eq_true, decide_eq_true_eq, Bool.and_eq_false_iff, decide_eq_false_iff_not] at *
  omega

theorem winMTX_of_winRET (h : winRET a = true) : winMTX a = false := by
  simp only [winRET, winMTX, Bool.and_eq_true, decide_eq_true_eq, Bool.and_eq_false_iff, decide_eq_false_iff_not] at *
  omega

theorem oneWord_eq_true_iff (a len : Nat) : oneWord a len = true ↔ 1 ≤ len ∧ a % 4 + len ≤ 4 := by
  simp [oneWord]

theorem oneWord_eq_false_iff (a len : Nat) : oneWord a len = false ↔ len = 0 ∨ 4 < a % 4 + len := by
  rw [Bool.eq_false_iff, ne_eq, oneWord_eq_true_iff]
  omega

/-! ### Writes of BAR0 (R6, R50) -/

variable {len v : Nat} {hearth : Bool}

/-- A write that BAR0 does not serve changes nothing. -/
theorem State.write32_not_served (h : len = 0 ∨ 4 < a % 4 + len ∨ u.open_ a = false ∨ u.inReset a = true ∨
    (winNZT a = false ∧ winMTX a = false ∧ winRET a = false ∧ regRowAt (a - a % 4) = none)) : u.write32 a len v hearth = u := by
  rw [← or_assoc, ← oneWord_eq_false_iff] at h
  unfold State.write32
  obtain h | h | h | ⟨hn, hm, hr, h⟩ := h
  · simp [h]
  · simp [h]
  · simp [h]
  · simp [hn, hm, hr, h]

/-- The guard of a served write of one word holds. -/
theorem State.write32_served (h1 : 1 ≤ len) (h4 : a % 4 + len ≤ 4) (ho : u.open_ a = true) (hi : u.inReset a = false) :
    (!oneWord a len || !u.open_ a || u.inReset a) = false := by
  simp [(oneWord_eq_true_iff a len).2 ⟨h1, h4⟩, ho, hi]

theorem State.bar0Write_of_ne_eight (h : len ≠ 8) : u.bar0Write a len v hearth = u.write32 a len v hearth := if_neg h

theorem State.bar0Write_eight (h : a % 8 = 0) :
    u.bar0Write a 8 v hearth = (u.write32 a 4 (v % 2 ^ 32) hearth).write32 (a + 4) 4 (v / 2 ^ 32) hearth := by
  simp [State.bar0Write, h]

theorem State.bar0Write_eight_unaligned (h : a % 8 ≠ 0) : u.bar0Write a 8 v hearth = u := by
  simp [State.bar0Write, h]

/-! ### Reads of BAR0 -/

theorem State.answer_zero (u : State) : u.answer 0 false = { u with readData := 0#64, readEP := false } := rfl

theorem State.read32_not_served (h : len = 0 ∨ 4 < a % 4 + len ∨ u.open_ a = false ∨ (u.inReset a = false ∧ winNZT a = false ∧
    winMTX a = false ∧ winRET a = false ∧ regRowAt (a - a % 4) = none)) : u.read32 a len = u.answer 0 false := by
  rw [← or_assoc, ← oneWord_eq_false_iff] at h
  unfold State.read32
  obtain h | h | ⟨hi, hn, hm, hr, h⟩ := h
  · simp [h]
  · simp [h]
  · simp [hi, hn, hm, hr, h]

theorem State.read32_in_reset (h1 : 1 ≤ len) (h4 : a % 4 + len ≤ 4) (ho : u.open_ a = true) (hi : u.inReset a = true) :
    u.read32 a len = u.answer (partOfWord (u.resetShown (a - a % 4)) a len) false := by
  simp [State.read32, (oneWord_eq_true_iff a len).2 ⟨h1, h4⟩, ho, hi]

theorem State.read32_register {r : RegRow} (h1 : 1 ≤ len) (h4 : a % 4 + len ≤ 4) (ho : u.open_ a = true) (hi : u.inReset a = false)
    (hn : winNZT a = false) (hm : winMTX a = false) (hr : winRET a = false) (hrow : regRowAt (a - a % 4) = some r) :
    u.read32 a len = u.regRead a len r := by
  simp [State.read32, (oneWord_eq_true_iff a len).2 ⟨h1, h4⟩, ho, hi, hn, hm, hr, hrow]

theorem State.bar0Read_of_ne_eight (h : len ≠ 8) : u.bar0Read a len = u.read32 a len := if_neg h

theorem State.bar0Read_eight (h : a % 8 = 0) : u.bar0Read a 8 = ((u.read32 a 4).read32 (a + 4) 4).answer
    ((u.read32 a 4).readData.toNat % 2 ^ 32 + 2 ^ 32 * (((u.read32 a 4).read32 (a + 4) 4).readData.toNat % 2 ^ 32))
    ((u.read32 a 4).readEP || ((u.read32 a 4).read32 (a + 4) 4).readEP) := by
  simp [State.bar0Read, h]

theorem State.bar2Read_of_none (h : u.bar2Addr a len = none) : u.bar2Read a len = { u with readData := 0#64, readEP := false } := by
  simp [State.bar2Read, h]

/-- An offset below a bank lies in none of its registers. -/
theorem bankAt_of_lt {base : Nat} (h : a < base) (count stride : Nat) : bankAt a base count stride = none :=
  if_neg fun hb => absurd hb.1 (Nat.not_le.2 h)

/-- The registers whose reset value is not fixed lie in the upper blocks; below them only SWS_CAP is read as found. -/
theorem State.resetShown_eq_regReset (s : State) (ha : a < 0x100000) : s.resetShown a = regReset a := by
  have ne : ∀ {b}, 0x100000 ≤ b → a ≠ b := fun hb => by omega
  have hb : bankAt a (TRM_CEIL 0) 3 4 = none := bankAt_of_lt (by simp only [TRM_CEIL]; omega) 3 4
  have h1 : a ≠ TWN_CTL := ne (by decide)
  have h2 : a ≠ TWN_STATE := ne (by decide)
  have h3 : a ≠ SVC_KVER := ne (by decide)
  have h4 : a ≠ SWS_CAP := ne (by decide)
  have h5 : a ≠ SVC_ASTAT := ne (by decide)
  simp only [State.resetShown, hb, h1, h2, h3, h4, h5, or_self, Option.isSome_none, Bool.false_eq_true, if_false]

/-! ### Configuration accesses (R373) -/

theorem State.cfgAccess_not_served (h : len = 0 ∨ 4 < a % 4 + len ∨ u.aonOk = false) : u.cfgAccess a len v = u := by
  rw [← or_assoc, ← oneWord_eq_false_iff] at h
  unfold State.cfgAccess
  obtain h | h := h <;> simp [h]

/-! ### The plain effect of a write (R6, R7) -/

/-- A value is stored as written where no field of the register has a reserved encoding. -/
theorem keepReserved_eq (old new : Word) (h : legals.all (fun l => (bankAt a l.base l.count l.stride).isNone) = true) :
    keepReserved a old new = new := by
  rw [List.all_eq_true] at h
  refine List.foldlRecOn (motive := fun w => w = new) legals _ rfl fun w hw l hl => ?_
  have hn : bankAt a l.base l.count l.stride = none := by simpa using h l hl
  simpa [hn] using hw

@[simp] theorem State.reg_standing (s : State) (a b : Nat) : (s.standing a).reg b = s.reg b := rfl

/-- What a plain write leaves in each register is what `setReg` puts there. -/
theorem State.reg_plainWrite (s : State) (a b : Nat) (r : RegRow) (m v : Word) : (s.plainWrite a r m v).reg b =
    (s.setReg a ((keepReserved a (s.reg a) ((s.reg a &&& ~~~(BitVec.ofNat 32 r.rw &&& m)) ||| (v &&& (BitVec.ofNat 32 r.rw &&& m))) &&&
      ~~~(s.stood a (v &&& m &&& BitVec.ofNat 32 r.w1c))) ||| (v &&& m &&& BitVec.ofNat 32 r.w1s))).reg b := by
  unfold State.plainWrite
  dsimp only
  split <;> rfl

theorem State.reg_plainWrite_ne (s : State) {a b : Nat} (r : RegRow) (m v : Word) (h : b ≠ a) :
    (s.plainWrite a r m v).reg b = s.reg b := by
  rw [State.reg_plainWrite, State.reg_setReg_ne _ _ h]

/-- Masks without a common bit. -/
theorem testBit_and_eq_false {x y : Nat} (h : x &&& y = 0) (i : Nat) : (x.testBit i && y.testBit i) = false := by
  rw [← Nat.testBit_and, h, Nat.zero_testBit]

/-- Bit by bit: RW bits take the value, W1C bits written 1 that stood clear, W1S bits written 1 are set, all others stand. -/
theorem State.getLsbD_reg_plainWrite (hs : s.canonical) {i : Nat} (hi : i < 32) {r : RegRow} (m v : Word)
    (hl : legals.all (fun l => (bankAt a l.base l.count l.stride).isNone) = true) (h1 : r.rw &&& r.w1c = 0) (h2 : r.rw &&& r.w1s = 0)
    (h3 : r.w1c &&& r.w1s = 0) : ((s.plainWrite a r m v).reg a).getLsbD i =
      if m.getLsbD i then
        (if r.rw.testBit i then v.getLsbD i else if r.w1c.testBit i then (s.reg a).getLsbD i && !(v.getLsbD i && (s.times.was.get regReset a).getLsbD i)
         else if r.w1s.testBit i then (s.reg a).getLsbD i || v.getLsbD i else (s.reg a).getLsbD i)
      else (s.reg a).getLsbD i := by
  rw [State.reg_plainWrite, State.reg_setReg_same hs.1, keepReserved_eq _ _ hl]
  have k1 := testBit_and_eq_false h1 i
  have k2 := testBit_and_eq_false h2 i
  have k3 := testBit_and_eq_false h3 i
  simp only [State.stood, BitVec.getLsbD_or, BitVec.getLsbD_and, BitVec.getLsbD_not, BitVec.getLsbD_ofNat, hi, decide_true, Bool.true_and]
  generalize r.rw.testBit i = rw at *
  generalize r.w1c.testBit i = wc at *
  generalize r.w1s.testBit i = ws at *
  cases m.getLsbD i <;> cases rw <;> cases wc <;> cases ws <;> simp_all

/-! ### Registers of the unit tree (R32, R421) -/

theorem frozen_unit (h1 : 0x30000 ≤ a) (h2 : a < 0x34000) : frozen a = decide (a % 128 < 0x20) := by
  unfold frozen
  rw [if_neg (by omega), if_pos ⟨h1, h2⟩]

theorem State.armedAt_unit (s : State) (h1 : 0x30000 ≤ a) (h2 : a < 0x34000) : s.armedAt a = s.unitErr erARMED ((a - 0x30000) / 128) :=
  if_pos ⟨h1, h2⟩

theorem State.takeWrite_unit (s : State) (r : RegRow) (m v : Word) (h1 : 0x30000 ≤ a) (h2 : a < 0x34000) : s.takeWrite a r m v =
    if s.armed = true ∧ a % 128 < 0x20 then s.unitErr erARMED ((a - 0x30000) / 128) else s.plainWrite a r m v := by
  simp only [State.takeWrite, frozen_unit h1 h2, State.armedAt_unit s h1 h2, Bool.and_eq_true, decide_eq_true_eq]

theorem State.regWrite_unit (s : State) (r : RegRow) (m v : Word) (off len : Nat) (hearth : Bool) (h1 : 0x30000 ≤ a) (h2 : a < 0x34000) :
    s.regWrite a r m v off len hearth =
      if a % 128 = 0 ∨ a % 128 = 16 then (s.takeWrite a r m v).overAll else s.takeWrite a r m v := by
  have hm : (a - 0x30000) % 128 = a % 128 := by omega
  unfold State.regWrite
  rw [if_neg (by omega), if_neg (by omega), if_neg (by omega), if_pos (by omega)]
  simp only [State.untWrite, hm]

/-! ### A read that clears (R7) -/

/-- A Kiln register is none of the registers of the blocks above. -/
theorem ne_of_kiln (h : a < 0x80000) {b : Nat} (hb : 0x80000 ≤ b) : a ≠ b := by omega

/-- Kiln registers show what they hold. -/
theorem State.live_kiln (s : State) (h1 : 0x40000 ≤ a) (h2 : a < 0x80000) : s.live a = s.reg a := by
  have hb : bankAt a (HPT_HSTAT 0) 64 256 = none := bankAt_of_lt (by simp only [HPT_HSTAT]; omega) 64 256
  unfold State.live
  rw [if_neg (by omega), if_neg (by omega), hb, if_neg (by simp), if_neg (by omega), if_neg (by omega), if_neg (by omega),
    if_neg (ne_of_kiln h2 (by decide))]

theorem State.shown_kiln (s : State) {r : RegRow} (h1 : 0x40000 ≤ a) (h2 : a < 0x80000) (hres : r.res = 0) (hwo : r.wo = 0) :
    s.shown a r = (s.reg a, s) := by
  have hu : s.unseen a = 0#32 := if_neg fun h => ne_of_kiln h2 (by decide) h.1
  have hm : s.reg a &&& ~~~(BitVec.ofNat 32 0) = s.reg a := by
    rw [show ~~~(BitVec.ofNat 32 0) = BitVec.allOnes 32 by decide, BitVec.and_allOnes]
  simp only [State.shown, State.live_kiln s h1 h2, hres, hwo, hu, hm, BitVec.or_self, if_true]

/-- Where no event has come in the core clock of the read, nothing is left of a count that it clears. -/
theorem State.countKept_eq_zero (h : s.times.was.get regReset a = s.reg a) (f : Nat) : s.countKept a f = 0#32 := by
  simp [State.countKept, h]

/-- The mask of a whole word leaves every value. -/
theorem and_byteMask_word (w : Word) : w &&& byteMask 0 4 = w := by
  rw [show byteMask 0 4 = BitVec.allOnes 32 by decide, BitVec.and_allOnes]

theorem ofNat_ne_zero {n : Nat} (h0 : n ≠ 0) (h : n < 2 ^ 32) : BitVec.ofNat 32 n ≠ 0#32 := by
  intro e
  have := congrArg BitVec.toNat e
  simp only [BitVec.toNat_ofNat, Nat.mod_eq_of_lt h, Nat.zero_mod] at this
  exact h0 this

theorem State.clearRead_kiln (s : State) {r : RegRow} (h2 : a < 0x80000) (hrc : r.rc ≠ 0) (hlt : r.rc < 2 ^ 32)
    (hq : s.times.was.get regReset a = s.reg a) :
    s.clearRead a r (byteMask 0 4) = (s.setReg a (s.reg a &&& ~~~(BitVec.ofNat 32 r.rc))).standing a := by
  have hf : rcFields a r = [r.rc] := by
    unfold rcFields
    rw [if_neg (ne_of_kiln h2 (by decide)), if_neg (ne_of_kiln h2 (by decide))]
  have hc := State.countKept_eq_zero hq r.rc
  simp [State.clearRead, hf, and_byteMask_word, ofNat_ne_zero hrc hlt, hc]

theorem State.regRead_kiln (s : State) {r : RegRow} (h1 : 0x40000 ≤ a) (h2 : a < 0x80000) (h4 : a % 4 = 0) (hres : r.res = 0)
    (hwo : r.wo = 0) : s.regRead a 4 r = (s.clearRead a r (byteMask 0 4)).answer (s.reg a).toNat false := by
  have hp : partOfWord (s.reg a) a 4 = (s.reg a).toNat := by
    have := (s.reg a).isLt
    simp only [partOfWord, bitsOf, h4, Nat.mul_zero, Nat.shiftRight_zero]
    exact Nat.mod_eq_of_lt this
  have ne : ∀ {b}, 0x80000 ≤ b → ¬ a = b := ne_of_kiln h2
  unfold State.regRead
  simp only [h4, Nat.sub_zero]
  rw [if_neg (ne (by decide)), if_neg (ne (by decide)), if_neg (ne (by decide)), if_neg (ne (by decide)), if_neg (ne (by decide)),
    if_neg (ne (by decide)), if_neg (ne (by decide)), if_neg (ne (by decide)), if_neg (ne (by decide)), if_neg (ne (by decide)),
    State.shown_kiln s h1 h2 hres hwo, hp]

/-- A read of the whole of a Kiln register with RC bits returns it, and leaves of it what no RC bit covers. -/
theorem State.read32_kiln (hs : u.canonical) {r : RegRow} (h4 : a % 4 = 0) (ho : u.open_ a = true) (hi : u.inReset a = false)
    (hn : winNZT a = false) (hm : winMTX a = false) (hw : winRET a = false) (hrow : regRowAt a = some r) (h1 : 0x40000 ≤ a)
    (h2 : a < 0x80000) (hrc : r.rc ≠ 0) (hlt : r.rc < 2 ^ 32) (hres : r.res = 0) (hwo : r.wo = 0)
    (hq : u.times.was.get regReset a = u.reg a) :
    (u.read32 a 4).readData.toNat = (u.reg a).toNat ∧ (u.read32 a 4).readEP = false ∧
      (u.read32 a 4).reg a = u.reg a &&& ~~~(BitVec.ofNat 32 r.rc) := by
  have hrow' : regRowAt (a - a % 4) = some r := by rw [h4]; exact hrow
  rw [State.read32_register (Nat.le_add_left 1 3) (by omega) ho hi hn hm hw hrow', State.regRead_kiln u h1 h2 h4 hres hwo,
    State.clearRead_kiln u h2 hrc hlt hq]
  refine ⟨?_, rfl, ?_⟩
  · have := (u.reg a).isLt
    simp only [State.answer_fields, BitVec.toNat_ofNat]
    omega
  · exact State.reg_setReg_same hs.1 a _

/-- Settles O57: each access goes to the operation that serves it, whose effect the lemmas above give. -/
theorem registerAccessesRun : Obligations.RegisterAccessesRun := by
  refine ⟨?_, ?_, ?_, ?_, ?_, ?_, ?_, ?_, ?_, ?_, ?_, ?_, ?_, ?_, ?_, ?_, ?_, ?_⟩
  · rintro t a len v hearth s u hstep rfl h
    rw [exec_registerWrite_bar0, State.accessAt_of_not_stepAfter hstep, State.byWriter_eq_self]
    obtain ⟨h8, ha⟩ | ⟨h8, h⟩ := h
    · rw [h8, State.bar0Write_eight_unaligned ha]
    · rw [State.bar0Write_of_ne_eight h8, State.write32_not_served h]
  · rintro t a v hearth s u hstep rfl hfw ha
    rw [exec_registerWrite_bar0, State.accessAt_of_not_stepAfter hstep, State.byWriter_of_allowed hfw]
    exact congrArg _ (State.bar0Write_eight ha)
  · rintro t a len v hearth s u hstep rfl hfw h1 h4 ho hi
    rw [exec_registerWrite_bar0, State.accessAt_of_not_stepAfter hstep, State.byWriter_of_allowed hfw,
      State.bar0Write_of_ne_eight (by omega)]
    have hg := State.write32_served h1 h4 ho hi
    refine ⟨fun hn => ?_, fun hm => ?_, fun hr => ?_, fun r m hn hm hr hrow hmask => ?_⟩
    · simp [State.write32, hg, hn]
    · simp [State.write32, hg, winNZT_of_winMTX hm, hm]
    · simp [State.write32, hg, winNZT_of_winRET hr, winMTX_of_winRET hr, hr]
    · subst hmask
      simp [State.write32, hg, hn, hm, hr, hrow]
  · rintro t a len v s u hstep rfl hfw
    rw [exec_registerWrite_bar0, State.accessAt_of_not_stepAfter hstep, State.byWriter_of_firmware_off hfw]
  · rintro s u a off len r m v hearth h1 h2 rfl
    rw [State.regWrite_unit s r m v off len hearth h1 h2, State.takeWrite_unit s r m v h1 h2]
    exact ⟨fun h0 h16 => if_neg (by omega), fun h => if_pos h⟩
  · intro s a i r m v hs hi hl h1 h2 h3
    exact State.getLsbD_reg_plainWrite hs hi m v hl h1 h2 h3
  · intro s a b r m v h
    exact State.reg_plainWrite_ne s r m v h
  · rintro t a len v hearth s u rfl h
    rw [exec_registerWrite_cfg, State.cfgAccess_not_served]
    rwa [show a.toNat % 4096 % 4 = a.toNat % 4 by omega]
  · rintro t a len s u hstep rfl ha h8 h
    rw [exec_clearingRead_bar0 t ha, State.accessAt_of_not_stepAfter hstep, State.bar0Read_of_ne_eight h8, State.read32_not_served h,
      State.answer_zero]
  · rintro t a s u v w hstep rfl ha h8 rfl rfl
    rw [exec_clearingRead_bar0 t ha, State.accessAt_of_not_stepAfter hstep]
    exact congrArg _ (State.bar0Read_eight h8)
  · rintro t a len s u hstep rfl ha h1 h4 ho hi
    rw [exec_clearingRead_bar0 t ha, State.accessAt_of_not_stepAfter hstep, State.bar0Read_of_ne_eight (by omega),
      State.read32_in_reset h1 h4 ho hi, partOfWord]
  · intro s a ha _
    exact State.resetShown_eq_regReset s ha
  · rintro t a s u r hs rfl ha h4 ho hi hn hm hw hrow h1 h2 hrc hlt hres hwo hq
    have hu : (s.advance t).canonical := (State.advance_kept s t hs.kept).canonical
    refine ⟨_, ?_, State.read32_kiln hu h4 ho hi hn hm hw hrow h1 h2 hrc hlt hres hwo hq⟩
    rw [exec_clearingRead_bar0 t ha, State.accessAt_of_not_stepAfter (State.stepAfter_below s t (by omega))]
    exact congrArg _ (State.bar0Read_of_ne_eight (by decide))
  · rintro t a len s u rfl h
    rw [exec_clearingRead_bar2]
    rw [← or_assoc] at h
    by_cases hl : len.val = 0 ∨ 8 < a.toNat % 8 + len.val
    · rw [if_pos hl, State.answer_zero]
    · rw [if_neg hl, State.bar2Read_of_none (h.resolve_left hl)]
  · rintro t a len s u rfl
    exact exec_clearingRead_cfg t a len s
  · intro t a len v hearth s hstep hfw
    rw [exec_registerWrite_bar0, State.accessAt_of_stepAfter hstep, State.byWriter_of_allowed hfw]
  · intro t a len s ha hstep
    rw [exec_clearingRead_bar0 t ha, State.accessAt_of_stepAfter hstep]
  · exact State.stepAfter_iff

end Sys2Proof.Machine
end

section
/-! PROOF. What an operation leaves as it was outside the chip's own state: the queue of commands, the serial number, the clock, and what has
already left for the host and over the links. Most operations change none of these; the others only add (R10, R66, R289, R301, R319). -/

namespace Sys2Proof.Machine

open Sys2Proof

/-- What a command cannot take back: the waiting commands, the serial number, the time, and what was written to the host or sent. -/
structure Outside where
  queue  : List Instr
  serial : BitVec 64
  clk    : Nat
  out    : List HostWrite
  sent   : List Frame

def State.outside (s : State) : Outside := ⟨s.pending, s.serial, s.clk, s.out, s.sent⟩

/-- `p` follows `o`: the same queue and serial number, no earlier clock, and nothing taken back of what had left the chip. -/
def Outside.Grows (o p : Outside) : Prop :=
  p.queue = o.queue ∧ p.serial = o.serial ∧ o.clk ≤ p.clk ∧ o.out <+: p.out ∧ o.sent <+: p.sent

theorem Outside.Grows.refl (o : Outside) : o.Grows o := ⟨rfl, rfl, Nat.le_refl _, List.prefix_rfl, List.prefix_rfl⟩

/-- An update of other fields changes nothing outside. -/
@[simp] theorem State.outside_mk (s : State) (freeCtr : Nat) (readData : BitVec 64) (timers : SMap Nat) (readEP : Bool) (regs cfg : SMap Word)
    (alarms : BitVec 64) (times : Times) (hostIf : HostIf) (streams : SMap Stream) (bands : SMap Band) (bandSeq : Nat) (ubase : SMap Word)
    (uops : List UOp) (heads : SMap Head) (trims : Trims) (otp : SMap Word) (pos : Pos) (fir : Fir) (splice : Splice) (cord : Cord)
    (evts : SMap Evt) (portQ : List PortReq) (tabs : Tables) (kiln : Kiln) (insp : Insp) (refs : List RefRow)
    (refNext buses headMem : SMap Nat) (power : Power) (svc : Svc) (flashA flashB stokerMem engineMem : List Byte) (twin : Twin) :
    State.outside ⟨s.pending, s.clk, freeCtr, readData, timers, readEP, regs, cfg, alarms, s.out, times, hostIf, streams, bands, bandSeq, ubase,
      uops, heads, trims, otp, pos, fir, splice, cord, s.sent, evts, portQ, tabs, kiln, insp, refs, refNext, buses, headMem, power, svc,
      flashA, flashB, stokerMem, engineMem, twin, s.serial⟩ = s.outside := rfl

@[simp] theorem State.outside_ite (c : Prop) [Decidable c] (a b : State) :
    (if c then a else b).outside = if c then a.outside else b.outside := apply_ite _ _ _ _

/-- A fold of steps that change nothing outside changes nothing outside. -/
@[simp] theorem foldl_outside {β : Type} {f : State → β → State} (hf : ∀ s x, (f s x).outside = s.outside) (l : List β) (s : State) :
    (l.foldl f s).outside = s.outside := by
  induction l generalizing s with
  | nil => rfl
  | cons x l ih => exact (ih (f s x)).trans (hf s x)

/-- The same of a fold that carries a result beside the state. -/
theorem foldl_outside_snd {β ρ : Type} {f : ρ × State → β → ρ × State} (hf : ∀ r x, (f r x).2.outside = r.2.outside) (l : List β)
    (r : ρ × State) : (l.foldl f r).2.outside = r.2.outside := by
  induction l generalizing r with
  | nil => rfl
  | cons x l ih => exact (ih (f r x)).trans (hf r x)

variable {o : Outside}

@[simp] theorem Outside.grows_ite (c : Prop) [Decidable c] (a b : Outside) :
    o.Grows (if c then a else b) ↔ if c then o.Grows a else o.Grows b := by split <;> rfl

/-- A fold of steps each of which follows follows. -/
@[simp] theorem foldl_grows {β : Type} {f : State → β → State} (l : List β) {s : State} (h : o.Grows s.outside)
    (hf : ∀ s x, o.Grows s.outside → o.Grows (f s x).outside) : o.Grows (l.foldl f s).outside := by
  induction l generalizing s with
  | nil => exact h
  | cons x l ih => exact ih (hf s x h)

end Sys2Proof.Machine
end

section
/-! PROOF. The operations that change nothing outside: neither queue, serial number and clock nor what has left the chip. One lemma per operation,
in the order of the model's files. -/

namespace Sys2Proof.Machine

open Sys2Proof

variable (s : State)

/-! ### Machine/Ops.lean -/

@[simp] theorem State.setReg_outside (a : Nat) (v : Word) : (s.setReg a v).outside = s.outside := by simp [State.setReg]
@[simp] theorem State.setFld_outside (f : Fld) (x : Nat) : (s.setFld f x).outside = s.outside := by simp [State.setFld]
@[simp] theorem State.setOn_outside (f : Fld) : (s.setOn f).outside = s.outside := by simp [State.setOn]
@[simp] theorem State.setBit_outside (f : Fld) (b : Bool) : (s.setBit f b).outside = s.outside := by simp [State.setBit]
@[simp] theorem State.count_outside (f : Fld) (n : Nat) : (s.count f n).outside = s.outside := by simp [State.count]
@[simp] theorem State.countReg_outside (a : Nat) (n : Nat) : (s.countReg a n).outside = s.outside := by simp [State.countReg]
@[simp] theorem State.resetRange_outside (lo hi : Nat) : (s.resetRange lo hi).outside = s.outside := by simp [State.resetRange]
@[simp] theorem State.setReg64_outside (lo hi v : Nat) : (s.setReg64 lo hi v).outside = s.outside := by simp [State.setReg64]
@[simp] theorem State.recordAt_outside (e code a : Nat) : (s.recordAt e code a).outside = s.outside := by simp [State.recordAt]

@[simp] theorem State.refuse_outside (code a : Nat) : (s.refuse code a).outside = s.outside := by
  unfold State.refuse
  repeat' split
  all_goals simp

@[simp] theorem State.unitErr_outside (code unit : Nat) : (s.unitErr code unit).outside = s.outside := by simp [State.unitErr]
@[simp] theorem State.swsErr_outside (code part : Nat) : (s.swsErr code part).outside = s.outside := by simp [State.swsErr]
@[simp] theorem State.nztErr_outside (code index writer : Nat) : (s.nztErr code index writer).outside = s.outside := by simp [State.nztErr]
@[simp] theorem State.tbMove_outside (dt b : Nat) : (s.tbMove dt b).outside = s.outside := by simp [State.tbMove]
@[simp] theorem State.startTimer_outside (k : Nat) : (s.startTimer k).outside = s.outside := by simp [State.startTimer]
@[simp] theorem State.alarm_outside (i : Nat) : (s.alarm i).outside = s.outside := by simp [State.alarm]
@[simp] theorem State.draw_outside : s.draw.2.outside = s.outside := by simp [State.draw]

@[simp] theorem State.bar_outside (blk : Nat) (f : State → State) (hf : ∀ s, (f s).outside = s.outside) :
    (s.bar blk f).outside = s.outside := by simp [State.bar, hf]

@[simp] theorem State.barRead_outside (blk a : Nat) (f : State → State) (hf : ∀ s, (f s).outside = s.outside) :
    (s.barRead blk a f).outside = s.outside := by simp [State.barRead, hf]

@[simp] theorem State.portAdd_outside (r : PortReq) : (s.portAdd r).outside = s.outside := by simp [State.portAdd]

@[simp] theorem State.portPut_outside (src : PortSrc) (bytes : List Byte) (expect : Option Nat) :
    (s.portPut src bytes expect).outside = s.outside := by simp [State.portPut]

@[simp] theorem State.setInsp_outside (x : Insp) : (s.setInsp x).outside = s.outside := by simp [State.setInsp]

@[simp] theorem State.byWriter_outside (hearth : Bool) (f : State → State) (hf : ∀ s, (f s).outside = s.outside) :
    (s.byWriter hearth f).outside = s.outside := by simp [State.byWriter, hf]

/-! ### Machine/TimeOps.lean -/

@[simp] theorem State.setEvt_outside (n : Nat) (e : Evt) : (s.setEvt n e).outside = s.outside := by simp [State.setEvt]
@[simp] theorem State.evtShow_outside (n : Nat) : (s.evtShow n).outside = s.outside := by simp [State.evtShow]
@[simp] theorem State.evtPulse_outside (n w : Nat) : (s.evtPulse n w).outside = s.outside := by simp [State.evtPulse]
@[simp] theorem State.evtOver_outside (n : Nat) : (s.evtOver n).outside = s.outside := by simp [State.evtOver]
@[simp] theorem State.evtCatch_outside (n : Nat) : (s.evtCatch n).outside = s.outside := by simp [State.evtCatch]
@[simp] theorem State.evtStepped_outside (b : Nat) : (s.evtStepped b).outside = s.outside := by simp [State.evtStepped]
@[simp] theorem State.schedStepped_outside (old s : State) : (State.schedStepped old s).outside = s.outside := by simp [State.schedStepped]
@[simp] theorem State.tbPut_outside (b acc : Nat) : (s.tbPut b acc).outside = s.outside := by simp [State.tbPut]
@[simp] theorem State.tbStep_outside (b : Nat) (v : Word) : (s.tbStep b v).outside = s.outside := by simp [State.tbStep]
@[simp] theorem State.timSnap_outside (src : Nat) : (s.timSnap src).outside = s.outside := by simp [State.timSnap]
@[simp] theorem State.evtOwn_outside (n o : Nat) : (s.evtOwn n o).outside = s.outside := by simp [State.evtOwn]
@[simp] theorem State.noteSeen_outside : s.noteSeen.outside = s.outside := by simp [State.noteSeen]
@[simp] theorem State.takeSteps_outside : s.takeSteps.outside = s.outside := by simp [State.takeSteps]
@[simp] theorem State.standing_outside (a : Nat) : (s.standing a).outside = s.outside := by simp [State.standing]

/-! ### Machine/Timing.lean -/

@[simp] theorem State.timSet_outside (b : Nat) (v : Word) : (s.timSet b v).outside = s.outside := by simp [State.timSet]
@[simp] theorem State.timAdj_outside (b : Nat) (v : Word) : (s.timAdj b v).outside = s.outside := by simp [State.timAdj]
@[simp] theorem State.frcRead_outside : s.frcRead.outside = s.outside := by simp [State.frcRead]
@[simp] theorem State.frcClear_outside : s.frcClear.outside = s.outside := by simp [State.frcClear]

@[simp] theorem State.evtOwnerWrite_outside (n o : Nat) (hearth : Bool) : (s.evtOwnerWrite n o hearth).outside = s.outside := by
  simp [State.evtOwnerWrite]

@[simp] theorem State.evtStart_outside (n : Nat) : (s.evtStart n).outside = s.outside := by simp [State.evtStart]
@[simp] theorem State.evtStopNow_outside (n : Nat) : (s.evtStopNow n).outside = s.outside := by simp [State.evtStopNow]
@[simp] theorem State.evtDue_outside (n : Nat) : (s.evtDue n).outside = s.outside := by simp [State.evtDue]
@[simp] theorem State.evtEnd_outside (n : Nat) : (s.evtEnd n).outside = s.outside := by simp [State.evtEnd]

/-! ### Machine/Vote.lean -/

@[simp] theorem State.tripCheck_outside (k : Nat) (a b c : Word) : (s.tripCheck k a b c).outside = s.outside := by simp [State.tripCheck]
@[simp] theorem State.tripAll_outside : s.tripAll.outside = s.outside := by simp [State.tripAll]

/-! ### Machine/TrimOps.lean -/

@[simp] theorem State.setHead_outside (h : Nat) (x : Head) : (s.setHead h x).outside = s.outside := by simp [State.setHead]
@[simp] theorem State.modHead_outside (h : Nat) (f : Head → Head) : (s.modHead h f).outside = s.outside := by simp [State.modHead]
@[simp] theorem State.setSettled_outside (n : Nat) (b : Bool) : (s.setSettled n b).outside = s.outside := by simp [State.setSettled]
@[simp] theorem State.trimSettle_outside (n : Nat) : (s.trimSettle n).outside = s.outside := by simp [State.trimSettle]
@[simp] theorem State.retarget_outside (n : Nat) : (s.retarget n).outside = s.outside := by simp [State.retarget]
@[simp] theorem State.setWant_outside (n : Nat) (c : Int) : (s.setWant n c).outside = s.outside := by simp [State.setWant]
@[simp] theorem State.retargetAll_outside : s.retargetAll.outside = s.outside := by simp [State.retargetAll]
@[simp] theorem State.setOut_outside (n c : Nat) : (s.setOut n c).outside = s.outside := by simp [State.setOut]
@[simp] theorem State.trimZero_outside (n : Nat) : (s.trimZero n).outside = s.outside := by simp [State.trimZero]
@[simp] theorem State.setDriven_outside (n : Nat) (b : Bool) : (s.setDriven n b).outside = s.outside := by simp [State.setDriven]

/-! ### Machine/Mem.lean -/

@[simp] theorem State.eccFirst_outside (mem region addr kind : Nat) : (s.eccFirst mem region addr kind).outside = s.outside := by
  simp [State.eccFirst]

@[simp] theorem State.eccNote_outside (mem region addr : Nat) (w : MWord) : (s.eccNote mem region addr w).outside = s.outside := by
  simp [State.eccNote]

@[simp] theorem State.ashUsed_outside : s.ashUsed.outside = s.outside := by simp [State.ashUsed]
@[simp] theorem State.ashSent_outside (m : Bool) : (s.ashSent m).outside = s.outside := by simp [State.ashSent]
@[simp] theorem State.setTabs_outside (t : Tables) : (s.setTabs t).outside = s.outside := by simp [State.setTabs]

@[simp] theorem State.storeErr_outside (v : BitVec 64) (err : BitVec 72) : (s.storeErr v err).2.outside = s.outside := by
  unfold State.storeErr
  repeat' split
  all_goals simp

@[simp] theorem State.flipWord_outside (w : MWord) (flips : BitVec 72) : (s.flipWord w flips).2.outside = s.outside := by
  unfold State.flipWord
  repeat' split
  all_goals simp

@[simp] theorem State.commitWord_outside (target w : Nat) (v : BitVec 64) : (s.commitWord target w v).2.outside = s.outside := by
  unfold State.commitWord
  repeat' split
  all_goals simp

@[simp] theorem State.setMerge_outside (mem : Nat) (n : Option Narrow) : (s.setMerge mem n).outside = s.outside := by simp [State.setMerge]
@[simp] theorem State.flawsRead_outside (r : Nat) (fs : List Flaw) : (s.flawsRead r fs).2.outside = s.outside := by simp [State.flawsRead]

@[simp] theorem State.addFlaw_outside (fs : List Flaw) (i a : Nat) (flips : BitVec 72) :
    (s.addFlaw fs i a flips).2.outside = s.outside := by simp [State.addFlaw]

/-! ### Machine/CamOps.lean -/

@[simp] theorem State.setCam_outside (c : Nat) (x : Cam) : (s.setCam c x).outside = s.outside := by simp [State.setCam]
@[simp] theorem State.modCam_outside (c : Nat) (f : Cam → Cam) : (s.modCam c f).outside = s.outside := by simp [State.modCam]
@[simp] theorem State.camDrop_outside (c : Nat) : (s.camDrop c).outside = s.outside := by simp [State.camDrop]
@[simp] theorem State.camsQuiet_outside : s.camsQuiet.outside = s.outside := by simp [State.camsQuiet]

@[simp] theorem State.camOff_outside (c : Nat) : (s.camOff c).outside = s.outside := by
  unfold State.camOff
  repeat' split
  all_goals simp

@[simp] theorem State.insAnew_outside : s.insAnew.outside = s.outside := by simp [State.insAnew]
@[simp] theorem State.trigMark_outside (v : Int) : (s.trigMark v).outside = s.outside := by simp [State.trigMark]
@[simp] theorem State.trigSkip_outside : s.trigSkip.outside = s.outside := by simp [State.trigSkip]

@[simp] theorem State.defectBefore_outside (k : Nat) (w : BitVec 64) (ep : Bool) : (s.defectBefore k w ep).outside = s.outside := by
  simp [State.defectBefore]

/-! ### Machine/PosOps.lean -/

@[simp] theorem State.setPos_outside (p : Pos) : (s.setPos p).outside = s.outside := by simp [State.setPos]
@[simp] theorem State.pinsAt_outside (c v : Nat) : (s.pinsAt c v).outside = s.outside := by simp [State.pinsAt]
@[simp] theorem State.distrust_outside : s.distrust.outside = s.outside := by simp [State.distrust]
@[simp] theorem State.suspShow_outside : s.suspShow.outside = s.outside := by simp [State.suspShow]
@[simp] theorem State.voteFlags_outside : s.voteFlags.outside = s.outside := by simp [State.voteFlags]
@[simp] theorem State.putSpeed_outside : s.putSpeed.outside = s.outside := by simp [State.putSpeed]
@[simp] theorem State.dropList_outside (still : Bool) : (s.dropList still).outside = s.outside := by simp [State.dropList]
@[simp] theorem State.speedEdge_outside (te : Word) (rev : Bool) : (s.speedEdge te rev).outside = s.outside := by simp [State.speedEdge]
@[simp] theorem State.hwmUpdate_outside : s.hwmUpdate.outside = s.outside := by simp [State.hwmUpdate]
@[simp] theorem State.indexEvent_outside (te : Word) : (s.indexEvent te).outside = s.outside := by simp [State.indexEvent]
@[simp] theorem State.indexCheck_outside (te : Word) : (s.indexCheck te).outside = s.outside := by simp [State.indexCheck]
@[simp] theorem State.votedMove_outside (d : Int) (te : Word) : (s.votedMove d te).outside = s.outside := by simp [State.votedMove]
@[simp] theorem State.illegal_outside (c : Nat) : (s.illegal c).outside = s.outside := by simp [State.illegal]
@[simp] theorem State.posJump_outside (v : Int) : (s.posJump v).outside = s.outside := by simp [State.posJump]
@[simp] theorem State.indexArm_outside : s.indexArm.outside = s.outside := by simp [State.indexArm]

@[simp] theorem State.transition_outside (c ab : Nat) : (s.transition c ab).outside = s.outside := by
  simp only [State.transition]
  repeat' split
  all_goals simp

@[simp] theorem State.posSnap_outside (src : Nat) : (s.posSnap src).outside = s.outside := by simp [State.posSnap]

@[simp] theorem State.takeRewind_outside : s.takeRewind.outside = s.outside := by
  unfold State.takeRewind
  repeat' split
  all_goals simp

/-! ### Machine/Position.lean -/

@[simp] theorem State.stillTimeout_outside : s.stillTimeout.outside = s.outside := by simp [State.stillTimeout]
@[simp] theorem State.speedDecay_outside : s.speedDecay.outside = s.outside := by simp [State.speedDecay]
@[simp] theorem State.posCtlWrite_outside (v : Word) : (s.posCtlWrite v).outside = s.outside := by simp [State.posCtlWrite]
@[simp] theorem State.posResync_outside (c : Nat) : (s.posResync c).outside = s.outside := by simp [State.posResync]
@[simp] theorem State.resyncAll_outside (m : Nat) : (s.resyncAll m).outside = s.outside := by simp [State.resyncAll]
@[simp] theorem State.retrust_outside : s.retrust.outside = s.outside := by simp [State.retrust]
@[simp] theorem State.posLoRead_outside (k : Nat) : (s.posLoRead k).outside = s.outside := by simp [State.posLoRead]

@[simp] theorem State.encoWrite_outside (claim : Bool) (src : Nat) (hearth : Bool) :
    (s.encoWrite claim src hearth).outside = s.outside := by simp [State.encoWrite]

@[simp] theorem State.indexLevel_outside (c : Nat) (z : Bool) : (s.indexLevel c z).outside = s.outside := by simp [State.indexLevel]

/-! ### Machine/Units.lean -/

@[simp] theorem State.putEff_outside (u : Nat) (e : Eff) : (s.putEff u e).outside = s.outside := by simp [State.putEff]
@[simp] theorem State.putEffHead_outside (h : Nat) : (s.putEffHead h).outside = s.outside := by simp [State.putEffHead]
@[simp] theorem State.putEffGroup_outside (g : Nat) : (s.putEffGroup g).outside = s.outside := by simp [State.putEffGroup]
@[simp] theorem State.putEffGroups_outside (h : Nat) : (s.putEffGroups h).outside = s.outside := by simp [State.putEffGroups]
@[simp] theorem State.resolveAll_outside : s.resolveAll.outside = s.outside := by simp [State.resolveAll]

@[simp] theorem State.ownWrite_outside (o : UOp) : (s.ownWrite o).outside = s.outside := by
  unfold State.ownWrite
  repeat' split
  all_goals simp

@[simp] theorem State.tileBack_outside (hs : List Nat) (l : Nat) : (s.tileBack hs l).outside = s.outside := by simp [State.tileBack]
@[simp] theorem State.flushNow_outside (s old : State) (h : Nat) : (s.flushNow old h).outside = s.outside := by simp [State.flushNow]
@[simp] theorem State.opAccept_outside (o : UOp) : (s.opAccept o).outside = s.outside := by simp [State.opAccept]

/-! ### Machine/Streams.lean -/

@[simp] theorem State.setStrm_outside (st : Nat) (x : Stream) : (s.setStrm st x).outside = s.outside := by simp [State.setStrm]
@[simp] theorem State.modStrm_outside (st : Nat) (f : Stream → Stream) : (s.modStrm st f).outside = s.outside := by simp [State.modStrm]
@[simp] theorem State.modDesc_outside (st c : Nat) (f : Desc → Desc) : (s.modDesc st c f).outside = s.outside := by simp [State.modDesc]

@[simp] theorem State.dropReads_outside (st c : Nat) : (s.dropReads st c).outside = s.outside := by
  unfold State.dropReads
  repeat' split
  all_goals simp

@[simp] theorem State.complete_outside (st c status first : Nat) : (s.complete st c status first).outside = s.outside := by
  simp [State.complete]

@[simp] theorem State.popDesc_outside (st : Nat) : (s.popDesc st).outside = s.outside := by simp [State.popDesc]
@[simp] theorem State.holdState_outside (st : Nat) : (s.holdState st).outside = s.outside := by simp [State.holdState]

@[simp] theorem State.haltAt_outside (st c code : Nat) (raw : Option (BitVec 256)) : (s.haltAt st c code raw).outside = s.outside := by
  simp [State.haltAt]

@[simp] theorem State.discardAfter_outside (st c : Nat) : (s.discardAfter st c).outside = s.outside := by simp [State.discardAfter]

@[simp] theorem State.place_outside (st start n : Nat) (endFlag : Bool) (src : CoverSrc) :
    (s.place st start n endFlag src).outside = s.outside := by simp [State.place]

/-! ### Machine/TableOps.lean -/

@[simp] theorem State.setCode_outside (k : Nat) (w : MWord) : (s.setCode k w).outside = s.outside := by simp [State.setCode]
@[simp] theorem State.setEnt_outside (n : Nat) (e : NEnt) : (s.setEnt n e).outside = s.outside := by simp [State.setEnt]
@[simp] theorem State.setShadow_outside (n : Nat) (w : MWord) : (s.setShadow n w).outside = s.outside := by simp [State.setShadow]
@[simp] theorem State.unact_outside (n : Nat) : (s.unact n).outside = s.outside := by simp [State.unact]
@[simp] theorem State.putBlend_outside : s.putBlend.outside = s.outside := by simp [State.putBlend]

@[simp] theorem State.entNow_outside (n : Nat) (w : MWord) (autoWr : Bool) : (s.entNow n w autoWr).outside = s.outside := by
  simp [State.entNow]

@[simp] theorem State.entMeta_outside (n : Nat) (w : MWord) (autoWr : Bool) : (s.entMeta n w autoWr).outside = s.outside := by
  simp [State.entMeta]

@[simp] theorem State.entChange_outside (n e b : Nat) (w : MWord) (autoWr : Bool) : (s.entChange n e b w autoWr).outside = s.outside := by
  simp [State.entChange]

@[simp] theorem State.entWrite_outside (n e : Nat) (w : MWord) (reload autoWr : Bool) :
    (s.entWrite n e w reload autoWr).outside = s.outside := by simp [State.entWrite]

@[simp] theorem State.setCurve_outside (q : Nat) (c : Curve) : (s.setCurve q c).outside = s.outside := by simp [State.setCurve]
@[simp] theorem State.setCurveWord_outside (k : Nat) (w : MWord) : (s.setCurveWord k w).outside = s.outside := by simp [State.setCurveWord]

@[simp] theorem State.curveSettle_outside (q : Nat) : (s.curveSettle q).outside = s.outside := by
  simp only [State.curveSettle]
  repeat' split
  all_goals simp

@[simp] theorem State.setCurveShadow_outside (q w : Nat) (v : MWord) : (s.setCurveShadow q w v).outside = s.outside := by
  simp [State.setCurveShadow]

@[simp] theorem State.setMtxShadow_outside (k : Nat) (v : MWord) : (s.setMtxShadow k v).outside = s.outside := by simp [State.setMtxShadow]
@[simp] theorem State.curveLoad_outside (q b : Nat) (vs : List Nat) : (s.curveLoad q b vs).outside = s.outside := by simp [State.curveLoad]
@[simp] theorem State.setMtxWord_outside (k : Nat) (w : MWord) : (s.setMtxWord k w).outside = s.outside := by simp [State.setMtxWord]
@[simp] theorem State.mtxWrite_outside (o : Nat) (bs : List Byte) : (s.mtxWrite o bs).outside = s.outside := by simp [State.mtxWrite]
@[simp] theorem State.putMtxSel_outside (p m : Nat) : (s.putMtxSel p m).outside = s.outside := by simp [State.putMtxSel]
@[simp] theorem State.goldTasks_outside : s.goldTasks.outside = s.outside := by simp [State.goldTasks]
@[simp] theorem State.goldCurve_outside : s.goldCurve.outside = s.outside := by simp [State.goldCurve]
@[simp] theorem State.goldMatrix_outside (m : Nat) : (s.goldMatrix m).outside = s.outside := by simp [State.goldMatrix]

@[simp] theorem State.switchAt_outside (p l : Nat) : (s.switchAt p l).outside = s.outside := by
  unfold State.switchAt
  refine (foldl_outside (fun s q => ?_) _ _).trans ?_
  · dsimp only; split <;> simp
  · split <;> simp

@[simp] theorem State.fadeEnd_outside (p : Nat) : (s.fadeEnd p).outside = s.outside := by simp [State.fadeEnd]
@[simp] theorem State.passed_outside (p l : Nat) : (s.passed p l).outside = s.outside := by simp [State.passed]

@[simp] theorem State.tablesQuiet_outside : s.tablesQuiet.outside = s.outside := by
  unfold State.tablesQuiet
  rw [State.putBlend_outside, foldl_outside, foldl_outside, foldl_outside]
  · intro s n; simp
  · intro s q; split <;> simp
  · intro s p; split <;> simp

@[simp] theorem State.queueMarked_outside (n : Nat) : (s.queueMarked n).outside = s.outside := by simp [State.queueMarked]

/-! ### Machine/Store.lean -/

@[simp] theorem State.setBand_outside (q : Nat) (b : Band) : (s.setBand q b).outside = s.outside := by simp [State.setBand]

@[simp] theorem State.dirFree_outside : s.dirFree.outside = s.outside := by
  unfold State.dirFree
  repeat' split
  all_goals simp

@[simp] theorem State.makeRoom_outside (st n : Nat) : (s.makeRoom st n).outside = s.outside := by simp [State.makeRoom]
@[simp] theorem State.setStore_outside (k : Nat) (w : MWord) : (s.setStore k w).outside = s.outside := by simp [State.setStore]
@[simp] theorem State.storeTouch_outside (k : Nat) : (s.storeTouch k).outside = s.outside := by simp [State.storeTouch]
@[simp] theorem State.placeOf_outside (k : Nat) : (s.placeOf k).2.outside = s.outside := by simp [State.placeOf]

@[simp] theorem State.placedWord_outside (p : Placed) : (s.placedWord p).2.outside = s.outside := by
  unfold State.placedWord
  repeat' split
  all_goals simp

@[simp] theorem State.placedPut_outside (p : Placed) (w : MWord) : (s.placedPut p w).outside = s.outside := by
  unfold State.placedPut
  repeat' split
  all_goals simp

@[simp] theorem State.placedFlip_outside (p : Placed) (x : BitVec 64) (mark : Bool) : (s.placedFlip p x mark).outside = s.outside := by
  unfold State.placedFlip
  repeat' split
  all_goals simp

@[simp] theorem State.setLat_outside (k : Nat) (w : MWord) : (s.setLat k w).outside = s.outside := by simp [State.setLat]
@[simp] theorem State.placedTouch_outside (k : Nat) (p : Placed) : (s.placedTouch k p).outside = s.outside := by simp [State.placedTouch]

@[simp] theorem State.deviceReads_outside (i : Nat → Bool) (p : Nat → Placed) : (s.deviceReads i p).outside = s.outside := by
  simp [State.deviceReads]

@[simp] theorem State.wordTouch_outside (k : Nat) : (s.wordTouch k).outside = s.outside := by simp [State.wordTouch]
@[simp] theorem State.storeTouchAll_outside (a n : Nat) : (s.storeTouchAll a n).outside = s.outside := by simp [State.storeTouchAll]

@[simp] theorem State.storeUpset_outside (k : Nat) (flips : BitVec 72) : (s.storeUpset k flips).outside = s.outside := by
  simp [State.storeUpset]

@[simp] theorem State.hostWord_outside (k : Nat) (p : Placed) (w : MWord) : (s.hostWord k p w).outside = s.outside := by
  simp [State.hostWord]

@[simp] theorem State.storeMerge_outside : s.storeMerge.outside = s.outside := by
  simp only [State.storeMerge]
  repeat' split
  all_goals simp

@[simp] theorem State.storeAway_outside (k : Nat) : (s.storeAway k).outside = s.outside := by
  unfold State.storeAway
  repeat' split
  all_goals simp

@[simp] theorem State.storeUse_outside (c n : Nat) : (s.storeUse c n).outside = s.outside := by simp [State.storeUse]
@[simp] theorem State.partTaken_outside (p : Nat → Bool) : (s.partTaken p).outside = s.outside := by simp [State.partTaken]
@[simp] theorem State.stores_outside (k c n : Nat) : (s.stores k c n).outside = s.outside := by simp [State.stores]
@[simp] theorem State.storesBand_outside (st n : Nat) : (s.storesBand st n).outside = s.outside := by simp [State.storesBand]
@[simp] theorem State.stagingRead_outside (n : Nat) : (s.stagingRead n).outside = s.outside := by simp [State.stagingRead]
@[simp] theorem State.leaveRange_outside (i : Nat) : (s.leaveRange i).outside = s.outside := by simp [State.leaveRange]
@[simp] theorem State.leaveAll_outside : s.leaveAll.outside = s.outside := by simp [State.leaveAll]
@[simp] theorem State.storeFill_outside : s.storeFill.outside = s.outside := by simp [State.storeFill]

/-! ### Machine/TwinEnt.lean -/

@[simp] theorem State.setTwin_outside (t : Twin) : (s.setTwin t).outside = s.outside := by simp [State.setTwin]
@[simp] theorem State.pushEntry_outside (e : TEntry) : (s.pushEntry e).outside = s.outside := by simp [State.pushEntry]
@[simp] theorem State.setTline_outside (x : TLine) : (s.setTline x).outside = s.outside := by simp [State.setTline]
@[simp] theorem State.modTline_outside (p l : Nat) (f : TLine → TLine) : (s.modTline p l f).outside = s.outside := by simp [State.modTline]
@[simp] theorem State.dropLines_outside (p l : Nat) : (s.dropLines p l).outside = s.outside := by simp [State.dropLines]
@[simp] theorem State.countGood_outside (l : Nat) : (s.countGood l).outside = s.outside := by simp [State.countGood]

/-! ### Machine/FireOps.lean -/

@[simp] theorem State.setFir_outside (f : Fir) : (s.setFir f).outside = s.outside := by simp [State.setFir]
@[simp] theorem State.setSplice_outside (x : Splice) : (s.setSplice x).outside = s.outside := by simp [State.setSplice]
@[simp] theorem State.raiseCause_outside (k : Nat) : (s.raiseCause k).outside = s.outside := by simp [State.raiseCause]
@[simp] theorem State.dropCause_outside (k : Nat) : (s.dropCause k).outside = s.outside := by simp [State.dropCause]
@[simp] theorem State.causeCheck_outside : s.causeCheck.outside = s.outside := by simp [State.causeCheck]
@[simp] theorem State.trnShow_outside : s.trnShow.outside = s.outside := by simp [State.trnShow]
@[simp] theorem State.fillChanged_outside : s.fillChanged.outside = s.outside := by simp [State.fillChanged]

@[simp] theorem State.dataLate_outside (h l : Nat) : (s.dataLate h l).outside = s.outside := by
  unfold State.dataLate
  repeat' split
  all_goals simp

@[simp] theorem State.bandDone_outside (d : Desc) : (s.bandDone d).outside = s.outside := by simp [State.bandDone]
@[simp] theorem State.settleStream_outside (st : Nat) : (s.settleStream st).outside = s.outside := by simp [State.settleStream]
@[simp] theorem State.eventPulses_outside (h l : Nat) : (s.eventPulses h l).outside = s.outside := by simp [State.eventPulses]
@[simp] theorem State.putLastOf_outside (u : Nat) : (s.putLastOf u).outside = s.outside := by simp [State.putLastOf]
@[simp] theorem State.putLast_outside (h : Nat) : (s.putLast h).outside = s.outside := by simp [State.putLast]
@[simp] theorem State.startRamps_outside (h l : Nat) : (s.startRamps h l).outside = s.outside := by simp [State.startRamps]
@[simp] theorem State.endPass_outside : s.endPass.outside = s.outside := by simp [State.endPass]

/-! ### Machine/WindowOps.lean -/

@[simp] theorem State.setFf_outside (j : Nat) (w : MWord) : (s.setFf j w).outside = s.outside := by simp [State.setFf]

@[simp] theorem State.setBlend_outside (n : Nat) (w : MWord) : (s.setBlend n w).outside = s.outside := by
  unfold State.setBlend
  repeat' split
  all_goals simp

@[simp] theorem State.setLast_outside (n : Nat) (w : MWord) : (s.setLast n w).outside = s.outside := by simp [State.setLast]
@[simp] theorem State.regionPut_outside (r j : Nat) (w : MWord) : (s.regionPut r j w).outside = s.outside := by simp [State.regionPut]
@[simp] theorem State.regionTouch_outside (r j : Nat) : (s.regionTouch r j).outside = s.outside := by simp [State.regionTouch]
@[simp] theorem State.sramTouch_outside (k : Nat) : (s.sramTouch k).outside = s.outside := by simp [State.sramTouch]

@[simp] theorem State.sramCommit_outside (k : Nat) (w src : MWord) : (s.sramCommit k w src).outside = s.outside := by
  simp [State.sramCommit]

@[simp] theorem State.commitSram_outside (k : Nat) (v : BitVec 64) : (s.commitSram k v).2.outside = s.outside := by
  unfold State.commitSram
  repeat' split
  all_goals simp

@[simp] theorem State.mergeCommit_outside : s.mergeCommit.outside = s.outside := by
  unfold State.mergeCommit
  repeat' split
  all_goals simp

@[simp] theorem State.mergeAway_outside (k : Nat) : (s.mergeAway k).outside = s.outside := by
  unfold State.mergeAway
  repeat' split
  all_goals simp

@[simp] theorem State.windowPut_outside (a len v : Nat) : (s.windowPut a len v).outside = s.outside := by simp [State.windowPut]
@[simp] theorem State.windowGet_outside (a len : Nat) : (s.windowGet a len).outside = s.outside := by simp [State.windowGet]

@[simp] theorem State.passEntry_outside (n : Nat) (l : Narrow) (m : Bool) : (s.passEntry n l m).outside = s.outside := by
  simp [State.passEntry]

@[simp] theorem State.latchLost_outside (n : Nat) : (s.latchLost n).outside = s.outside := by simp [State.latchLost]
@[simp] theorem State.setLatch_outside (l : Option Narrow) : (s.setLatch l).outside = s.outside := by simp [State.setLatch]

@[simp] theorem State.latchRead_outside (l : Narrow) : (s.latchRead l).2.2.outside = s.outside := by
  unfold State.latchRead
  repeat' split
  all_goals simp

@[simp] theorem State.latchWrite_outside (a len v : Nat) : (s.latchWrite a len v).outside = s.outside := by
  unfold State.latchWrite
  repeat' split
  all_goals simp

/-! ### Machine/PortOps.lean -/

@[simp] theorem State.portPop_outside : s.portPop.outside = s.outside := by simp [State.portPop]
@[simp] theorem State.writeEntries_outside (r : PortReq) : (s.writeEntries r).outside = s.outside := by simp [State.writeEntries]
@[simp] theorem State.writeCurve_outside (r : PortReq) : (s.writeCurve r).outside = s.outside := by simp [State.writeCurve]
@[simp] theorem State.writeMatrix_outside (r : PortReq) : (s.writeMatrix r).outside = s.outside := by simp [State.writeMatrix]
@[simp] theorem State.writeMtxsel_outside (r : PortReq) : (s.writeMtxsel r).outside = s.outside := by simp [State.writeMtxsel]
@[simp] theorem State.carry_outside (r : PortReq) : (s.carry r).outside = s.outside := by simp [State.carry]
@[simp] theorem State.readBase_outside (n : Nat) : (s.readBase n).outside = s.outside := by simp [State.readBase]

@[simp] theorem State.settleBase_outside (r : PortReq) : (s.settleBase r).outside = s.outside := by
  unfold State.settleBase
  repeat' split
  all_goals simp

/-! ### Machine/TwinOps.lean -/

@[simp] theorem State.portOutFrom_outside (p a bit : Nat) : (s.portOutFrom p a bit).outside = s.outside := by simp [State.portOutFrom]
@[simp] theorem State.portOutTo_outside (p a bit : Nat) : (s.portOutTo p a bit).outside = s.outside := by simp [State.portOutTo]

@[simp] theorem State.applyMode_outside (h m : Nat) : (s.applyMode h m).outside = s.outside := by
  simp only [State.applyMode, State.outside_ite, State.setDriven_outside, State.setFld_outside, State.modHead_outside, ite_self]

@[simp] theorem State.portTo_outside (h m : Nat) : (s.portTo h m).outside = s.outside := by simp [State.portTo]
@[simp] theorem State.allPorts_outside (m : Nat) : (s.allPorts m).outside = s.outside := by simp [State.allPorts]
@[simp] theorem State.busMastery_outside (b : Bool) : (s.busMastery b).outside = s.outside := by simp [State.busMastery]
@[simp] theorem State.busTake_outside : s.busTake.outside = s.outside := by simp [State.busTake]
@[simp] theorem State.busGive_outside : s.busGive.outside = s.outside := by simp [State.busGive]
@[simp] theorem State.busTurn_outside (b : Nat) : (s.busTurn b).outside = s.outside := by simp [State.busTurn]
@[simp] theorem State.reloadAt_outside (l n : Nat) : (s.reloadAt l n).outside = s.outside := by simp [State.reloadAt]
@[simp] theorem State.agreed_outside (purpose a arg : Nat) : (s.agreed purpose a arg).outside = s.outside := by simp [State.agreed]
@[simp] theorem State.linkDown_outside : s.linkDown.outside = s.outside := by simp [State.linkDown]
@[simp] theorem State.noteDiv_outside (p l k : Nat) : (s.noteDiv p l k).outside = s.outside := by simp [State.noteDiv]
@[simp] theorem State.goodLine_outside (p l : Nat) : (s.goodLine p l).outside = s.outside := by simp [State.goodLine]
@[simp] theorem State.noteSuspect_outside : s.noteSuspect.outside = s.outside := by simp [State.noteSuspect]
@[simp] theorem State.readyShow_outside : s.readyShow.outside = s.outside := by simp [State.readyShow]

/-! ### Machine/EmberOps.lean -/

@[simp] theorem State.curveMarked_outside (q : Nat) : (s.curveMarked q).outside = s.outside := by simp [State.curveMarked]

@[simp] theorem State.emberMarks_outside (v p l : Nat) : (s.emberMarks v p l).outside = s.outside := by
  unfold State.emberMarks
  extract_lets ns n s1 s2
  have h1 : s1.outside = s.outside := by simp [s1]
  have h2 : s2.outside = s1.outside := foldl_outside (fun s x => by split <;> simp) _ _
  simp [h2, h1]

@[simp] theorem State.kilnReads_outside (cs ms : List Nat) : (s.kilnReads cs ms).outside = s.outside := by simp [State.kilnReads]
@[simp] theorem State.emberReads_outside (v p l : Nat) : (s.emberReads v p l).outside = s.outside := by simp [State.emberReads]
@[simp] theorem State.emberRun_outside (v p l : Nat) : (s.emberRun v p l).outside = s.outside := by simp [State.emberRun]

@[simp] theorem State.lateOver_outside (p l : Nat) : (s.lateOver p l).outside = s.outside := by
  unfold State.lateOver
  repeat' split
  all_goals simp

@[simp] theorem State.goldWrite_outside (a g : Nat) (m v : Word) : (s.goldWrite a g m v).outside = s.outside := by simp [State.goldWrite]
@[simp] theorem State.putGold_outside (v : Nat) (g : Word) : (s.putGold v g).outside = s.outside := by simp [State.putGold]
@[simp] theorem State.recompute_outside (v : Nat) : (s.recompute v).outside = s.outside := by simp [State.recompute]
@[simp] theorem State.serveGold_outside (n : Nat) : (s.serveGold n).outside = s.outside := by simp [State.serveGold]

/-! ### Machine/LineOps.lean -/

@[simp] theorem State.firedEntry_outside (h l i : Nat) (nofire : Bool) : (s.firedEntry h l i nofire).outside = s.outside := by
  simp [State.firedEntry]

@[simp] theorem State.returnStep_outside (h l : Nat) (pulsed : Bool) : (s.returnStep h l pulsed).outside = s.outside := by
  unfold State.returnStep
  repeat' split
  all_goals simp

@[simp] theorem State.twinCounted_outside (h l i : Nat) (nofire : Bool) : (s.twinCounted h l i nofire).outside = s.outside := by
  simp [State.twinCounted]

@[simp] theorem State.showSig_outside (h l : Nat) : (s.showSig h l).outside = s.outside := by
  unfold State.showSig
  repeat' split
  all_goals simp

@[simp] theorem State.hotFreeze_outside (h l : Nat) : (s.hotFreeze h l).outside = s.outside := by simp [State.hotFreeze]
@[simp] theorem State.thermBit_outside (h : Nat) (b : Bool) : (s.thermBit h b).outside = s.outside := by simp [State.thermBit]
@[simp] theorem State.showOver_outside (h : Nat) (b : Bool) : (s.showOver h b).outside = s.outside := by simp [State.showOver]

@[simp] theorem State.hotSplice_outside (h : Nat) : (s.hotSplice h).outside = s.outside := by
  simp only [State.hotSplice]
  repeat' split
  all_goals simp

@[simp] theorem State.firstLate_outside (h l : Nat) : (s.firstLate h l).outside = s.outside := by simp [State.firstLate]

@[simp] theorem State.placeFrom_outside (h n l : Nat) : (s.placeFrom h n l).outside = s.outside := by
  induction n generalizing s l with
  | zero => rfl
  | succ n ih => simp [State.placeFrom, ih]

@[simp] theorem State.withdraw_outside : s.withdraw.outside = s.outside := by simp [State.withdraw]

/-! ### Machine/Firing.lean -/

@[simp] theorem State.trustAct_outside (s0 s : State) : (s0.trustAct s).outside = s.outside := by simp [State.trustAct]
@[simp] theorem State.noteUnderrun_outside (h l : Nat) : (s.noteUnderrun h l).outside = s.outside := by simp [State.noteUnderrun]
@[simp] theorem State.skipLine_outside (h l : Nat) : (s.skipLine h l).outside = s.outside := by simp [State.skipLine]
@[simp] theorem State.firePulse_outside (h l : Nat) : (s.firePulse h l).outside = s.outside := by simp [State.firePulse]

@[simp] theorem State.latchDeadline_outside (h : Nat) : (s.latchDeadline h).outside = s.outside := by
  simp only [State.latchDeadline]
  repeat' split
  all_goals simp

/-! ### Machine/TableRows.lean -/

@[simp] theorem State.nztWindow_outside (a len v : Nat) : (s.nztWindow a len v).outside = s.outside := by simp [State.nztWindow]

@[simp] theorem State.latchTimeout_outside : s.latchTimeout.outside = s.outside := by
  unfold State.latchTimeout
  repeat' split
  all_goals simp

@[simp] theorem State.curveMatrixWindow_outside (a len v : Nat) : (s.curveMatrixWindow a len v).outside = s.outside := by
  simp [State.curveMatrixWindow]

@[simp] theorem State.nztQuery_outside (key : Nat) (byEntry : Bool) : (s.nztQuery key byEntry).outside = s.outside := by
  simp [State.nztQuery]

@[simp] theorem State.scanStart_outside : s.scanStart.outside = s.outside := by simp [State.scanStart]
@[simp] theorem State.scanDone_outside : s.scanDone.outside = s.outside := by simp [State.scanDone]
@[simp] theorem State.reloadRead_outside : s.reloadRead.outside = s.outside := by simp [State.reloadRead]

/-! ### Machine/RetOps.lean -/

@[simp] theorem State.retSum_outside (h : Nat) : (s.retSum h).outside = s.outside := by simp [State.retSum]
@[simp] theorem State.retFail_outside (h l c k : Nat) : (s.retFail h l c k).outside = s.outside := by simp [State.retFail]
@[simp] theorem State.noteTrailer_outside (h trailer : Nat) : (s.noteTrailer h trailer).outside = s.outside := by simp [State.noteTrailer]

/-! ### Machine/KilnOps.lean -/

@[simp] theorem State.readEntries_outside (p : Nat) : (s.readEntries p).outside = s.outside := by simp [State.readEntries]
@[simp] theorem State.readMap_outside (p l : Nat) : (s.readMap p l).outside = s.outside := by simp [State.readMap]

@[simp] theorem State.lineCounts_outside (m : Nat) (outs : List NozzleOut) : (s.lineCounts m outs).outside = s.outside := by
  unfold State.lineCounts
  extract_lets s1 s2 xr hif s3 n s5 s6
  have h5 : s5.outside = s.outside := by simp [s5, s3, s2, s1]
  have h6 : s6.outside = s5.outside := foldl_outside (fun s o => by split <;> simp) _ _
  simp [h6, h5]

@[simp] theorem State.tilePrune_outside (p : Nat) : (s.tilePrune p).outside = s.outside := by simp [State.tilePrune]

@[simp] theorem State.tileRead_outside (p l : Nat) : (s.tileRead p l).outside = s.outside := by
  unfold State.tileRead
  split
  · rfl
  · split
    · refine foldl_outside (fun s y => ?_) _ _
      split <;> simp
    · rfl

/-! ### Machine/CfgOps.lean -/

@[simp] theorem State.setCfg_outside (a : Nat) (v : Word) : (s.setCfg a v).outside = s.outside := by simp [State.setCfg]
@[simp] theorem State.loadSub_outside : s.loadSub.outside = s.outside := by simp [State.loadSub]

/-! ### Machine/KilnRows.lean -/

@[simp] theorem State.refForm_outside (st r : Nat) : (s.refForm st r).outside = s.outside := by simp [State.refForm]

@[simp] theorem State.refBuild_outside (h : Nat) : (s.refBuild h).outside = s.outside := by
  unfold State.refBuild
  repeat' split
  all_goals simp

@[simp] theorem State.refetch_outside (q y : Nat) : (s.refetch q y).outside = s.outside := by simp [State.refetch]
@[simp] theorem State.tileRow_outside (h q y : Nat) : (s.tileRow h q y).outside = s.outside := by simp [State.tileRow]

@[simp] theorem State.stokerRows_outside (h q : Nat) (ys : List Nat) : (State.stokerRows h q ys s).2.outside = s.outside := by
  induction ys generalizing s with
  | nil => rfl
  | cons y ys ih =>
    unfold State.stokerRows
    dsimp only
    split
    · simp
    · split <;> simp [ih]

@[simp] theorem State.tileStep_outside (h : Nat) : (s.tileStep h).outside = s.outside := by simp [State.tileStep]

@[simp] theorem State.stokerFetch_outside (h : Nat) : (s.stokerFetch h).outside = s.outside := by
  simp only [State.stokerFetch]
  repeat' split
  all_goals simp

/-! ### Machine/HostOps.lean -/

@[simp] theorem State.setHif_outside (h : HostIf) : (s.setHif h).outside = s.outside := by simp [State.setHif]
@[simp] theorem State.uncover_outside (st : Nat) (d : Desc) : (s.uncover st d).outside = s.outside := by simp [State.uncover]

@[simp] theorem State.haltDesc_outside (st : Nat) (d : Desc) (code : Nat) : (s.haltDesc st d code).outside = s.outside := by
  simp [State.haltDesc]

@[simp] theorem State.rejectFirst_outside (raw : BitVec 256) : (s.rejectFirst raw).2.outside = s.outside := by
  unfold State.rejectFirst
  repeat' split
  all_goals simp

@[simp] theorem State.ringHalt_outside (st code : Nat) : (s.ringHalt st code).outside = s.outside := by simp [State.ringHalt]

@[simp] theorem State.skipSlots_outside (st n : Nat) : (s.skipSlots st n).outside = s.outside := by
  induction n generalizing s with
  | zero => rfl
  | succ n ih => simp [State.skipSlots, ih]

@[simp] theorem State.takeDesc_outside (st : Nat) (raw : BitVec 256) : (s.takeDesc st raw).outside = s.outside := by simp [State.takeDesc]
@[simp] theorem State.atSlot_outside (st : Nat) : (s.atSlot st).outside = s.outside := by simp [State.atSlot]
@[simp] theorem State.tookTurn_outside (st : Nat) : (s.tookTurn st).outside = s.outside := by simp [State.tookTurn]
@[simp] theorem State.waits_outside (st : Nat) (d : Desc) (ph : Phase) : (s.waits st d ph).outside = s.outside := by simp [State.waits]

/-! ### Machine/HostRows.lean -/

@[simp] theorem State.doorbellPoll_outside : s.doorbellPoll.outside = s.outside := by simp [State.doorbellPoll]
@[simp] theorem State.takeProd_outside (st : Nat) (v : Word) : (s.takeProd st v).outside = s.outside := by simp [State.takeProd]
@[simp] theorem State.pollResume_outside : s.pollResume.outside = s.outside := by simp [State.pollResume]

@[simp] theorem State.periodFigures_outside (load : Nat) (backlog : Nat) (low : Bool) :
    (s.periodFigures load backlog low).outside = s.outside := by simp [State.periodFigures]

/-! ### Machine/BandRows.lean -/

@[simp] theorem State.stripTaken_outside (start : Nat) : (s.stripTaken start).outside = s.outside := by simp [State.stripTaken]

@[simp] theorem State.passRecords_outside (st c : Nat) (last : Bool) (n : Nat) (bs : List Byte) :
    (s.passRecords st c last n bs).1.outside = s.outside := by
  induction n generalizing s bs with
  | zero => rfl
  | succ n ih =>
    unfold State.passRecords
    dsimp only
    split
    · rfl
    · simp [ih]

@[simp] theorem State.bandIssue_outside (st len : Nat) : (s.bandIssue st len).outside = s.outside := by
  unfold State.bandIssue
  repeat' split
  all_goals simp

/-! ### Machine/TransOps.lean -/

@[simp] theorem State.freeze_outside : s.freeze.outside = s.outside := by simp [State.freeze]
@[simp] theorem State.seqTo_outside (q : Nat) : (s.seqTo q).outside = s.outside := by simp [State.seqTo]
@[simp] theorem State.toStop_outside : s.toStop.outside = s.outside := by simp [State.toStop]
@[simp] theorem State.refreeze_outside : s.refreeze.outside = s.outside := by simp [State.refreeze]
@[simp] theorem State.spliceRequest_outside : s.spliceRequest.outside = s.outside := by simp [State.spliceRequest]
@[simp] theorem State.toBack_outside : s.toBack.outside = s.outside := by simp [State.toBack]
@[simp] theorem State.zoneAdd_outside (h n : Nat) : (s.zoneAdd h n).outside = s.outside := by simp [State.zoneAdd]
@[simp] theorem State.zoneRecord_outside : s.zoneRecord.outside = s.outside := by simp [State.zoneRecord]
@[simp] theorem State.spliceForget_outside : s.spliceForget.outside = s.outside := by simp [State.spliceForget]
@[simp] theorem State.toIdle_outside : s.toIdle.outside = s.outside := by simp [State.toIdle]
@[simp] theorem State.spliceEnd_outside : s.spliceEnd.outside = s.outside := by simp [State.spliceEnd]
@[simp] theorem State.startOver_outside : s.startOver.outside = s.outside := by simp [State.startOver]

/-! ### Machine/TransRows.lean -/

@[simp] theorem State.driveReady_outside (low : Bool) : (s.driveReady low).outside = s.outside := by simp [State.driveReady]
@[simp] theorem State.startToIdle_outside : s.startToIdle.outside = s.outside := by simp [State.startToIdle]
@[simp] theorem State.stopSettled_outside : s.stopSettled.outside = s.outside := by simp [State.stopSettled]
@[simp] theorem State.backReached_outside : s.backReached.outside = s.outside := by simp [State.backReached]
@[simp] theorem State.approachToIdle_outside : s.approachToIdle.outside = s.outside := by simp [State.approachToIdle]
@[simp] theorem State.spliceFault_outside : s.spliceFault.outside = s.outside := by simp [State.spliceFault]

/-! ### Machine/Auth.lean -/

@[simp] theorem State.authIdle_outside : s.authIdle.outside = s.outside := by simp [State.authIdle]
@[simp] theorem State.authUse_outside : s.authUse.outside = s.outside := by simp [State.authUse]

/-! ### Machine/TrimRows.lean -/

@[simp] theorem State.trimStep_outside (n : Nat) : (s.trimStep n).outside = s.outside := by simp [State.trimStep]

@[simp] theorem State.ceilWrite_outside (j : Nat) (v : Word) (hearth : Bool) : (s.ceilWrite j v hearth).outside = s.outside := by
  simp [State.ceilWrite]

@[simp] theorem State.auxWrite_outside (k : Nat) (v : Word) (hearth : Bool) : (s.auxWrite k v hearth).outside = s.outside := by
  simp [State.auxWrite]

@[simp] theorem State.setFault_outside (n : Nat) (b : Bool) : (s.setFault n b).outside = s.outside := by simp [State.setFault]
@[simp] theorem State.measure_outside (n v : Nat) : (s.measure n v).outside = s.outside := by simp [State.measure]
@[simp] theorem State.monitor_outside (v : Nat) : (s.monitor v).outside = s.outside := by simp [State.monitor]
@[simp] theorem State.nominal_outside : s.nominal.outside = s.outside := by simp [State.nominal]
@[simp] theorem State.trimLoaded_outside (ok : Bool) : (s.trimLoaded ok).outside = s.outside := by simp [State.trimLoaded]

/-! ### Machine/JobOps.lean -/

@[simp] theorem State.putOrigin_outside (torg : Int) (lorg : Nat) : (s.putOrigin torg lorg).outside = s.outside := by simp [State.putOrigin]
@[simp] theorem State.takeOrigin_outside : s.takeOrigin.outside = s.outside := by simp [State.takeOrigin]
@[simp] theorem State.startHead_outside (h : Nat) : (s.startHead h).outside = s.outside := by simp [State.startHead]
@[simp] theorem State.startHeads_outside : s.startHeads.outside = s.outside := by simp [State.startHeads]
@[simp] theorem State.clearCover_outside : s.clearCover.outside = s.outside := by simp [State.clearCover]
@[simp] theorem State.standingCauses_outside : s.standingCauses.outside = s.outside := by simp [State.standingCauses]
@[simp] theorem State.armOut_outside (h : Nat) : (s.armOut h).outside = s.outside := by simp [State.armOut]
@[simp] theorem State.dropModes_outside : s.dropModes.outside = s.outside := by simp [State.dropModes]
@[simp] theorem State.endHead_outside (h e : Nat) : (s.endHead h e).outside = s.outside := by simp [State.endHead]
@[simp] theorem State.endHere_outside (h : Nat) : (s.endHere h).outside = s.outside := by simp [State.endHere]
@[simp] theorem State.keepFigures_outside : s.keepFigures.outside = s.outside := by simp [State.keepFigures]
@[simp] theorem State.abortAll_outside : s.abortAll.outside = s.outside := by simp [State.abortAll]
@[simp] theorem State.unhaltAll_outside : s.unhaltAll.outside = s.outside := by simp [State.unhaltAll]

/-! ### Machine/CordOps.lean -/

@[simp] theorem State.setCord_outside (c : Cord) : (s.setCord c).outside = s.outside := by simp [State.setCord]
@[simp] theorem State.ringShow_outside (back crossed : Bool) : (s.ringShow back crossed).outside = s.outside := by simp [State.ringShow]
@[simp] theorem State.discipline_outside (off : Int) : (s.discipline off).outside = s.outside := by simp [State.discipline]

@[simp] theorem State.followLow_outside (f : Fld) (old : Option Nat) (a : Nat) : (s.followLow f old a).1.outside = s.outside := by
  unfold State.followLow
  repeat' split
  all_goals simp

@[simp] theorem State.capture_outside (w : Word) : (s.capture w).outside = s.outside := by simp [State.capture]
@[simp] theorem State.remoteCause_outside : s.remoteCause.outside = s.outside := by simp [State.remoteCause]
@[simp] theorem State.brxShow_outside : s.brxShow.outside = s.outside := by simp [State.brxShow]

@[simp] theorem State.schedTake_outside (kind : Nat) (w : Word) : (s.schedTake kind w).1.outside = s.outside := by
  unfold State.schedTake
  repeat' split
  all_goals simp

@[simp] theorem State.schedDrop_outside : s.schedDrop.outside = s.outside := by simp [State.schedDrop]
@[simp] theorem State.putMap_outside (lo hi map : Nat) : (s.putMap lo hi map).outside = s.outside := by simp [State.putMap]
@[simp] theorem State.cordClear_outside : s.cordClear.outside = s.outside := by simp [State.cordClear]

/-! ### Machine/CordRows.lean -/

@[simp] theorem State.cordLink_outside (l : Nat) (up : Bool) : (s.cordLink l up).outside = s.outside := by simp [State.cordLink]
@[simp] theorem State.replyIn_outside (l rtt turn : Nat) : (s.replyIn l rtt turn).outside = s.outside := by simp [State.replyIn]
@[simp] theorem State.holdover_outside : s.holdover.outside = s.outside := by simp [State.holdover]
@[simp] theorem State.bpop_outside : s.bpop.outside = s.outside := by simp [State.bpop]
@[simp] theorem State.barDone_outside (mm : Bool) : (s.barDone mm).outside = s.outside := by simp [State.barDone]
@[simp] theorem State.frameLost_outside (isSched : Bool) : (s.frameLost isSched).outside = s.outside := by simp [State.frameLost]
@[simp] theorem State.cordCtl_outside (v : Word) : (s.cordCtl v).outside = s.outside := by simp [State.cordCtl]
@[simp] theorem State.trnrepTimeout_outside (a : Nat) : (s.trnrepTimeout a).outside = s.outside := by simp [State.trnrepTimeout]
@[simp] theorem State.trnstateTimeout_outside : s.trnstateTimeout.outside = s.outside := by simp [State.trnstateTimeout]

/-! ### Machine/PowerOps.lean -/

@[simp] theorem State.setPower_outside (p : Power) : (s.setPower p).outside = s.outside := by simp [State.setPower]
@[simp] theorem State.setSvc_outside (v : Svc) : (s.setSvc v).outside = s.outside := by simp [State.setSvc]
@[simp] theorem State.setRetn_outside (k : Nat) (w : MWord) : (s.setRetn k w).outside = s.outside := by simp [State.setRetn]
@[simp] theorem State.retnWrite_outside (bs : List Byte) : (s.retnWrite bs).outside = s.outside := by simp [State.retnWrite]
@[simp] theorem State.putRecord_outside (why : Nat) : (s.putRecord why).outside = s.outside := by simp [State.putRecord]
@[simp] theorem State.retnTouch_outside (k : Nat) : (s.retnTouch k).outside = s.outside := by simp [State.retnTouch]
@[simp] theorem State.checkRecord_outside : s.checkRecord.outside = s.outside := by simp [State.checkRecord]
@[simp] theorem State.failFreeze_outside : s.failFreeze.outside = s.outside := by simp [State.failFreeze]

@[simp] theorem State.keepBits_outside (s old : State) (a : Nat) (m : Word) : (s.keepBits old a m).outside = s.outside := by
  simp [State.keepBits]

@[simp] theorem State.loadCeil_outside : s.loadCeil.outside = s.outside := by simp [State.loadCeil]
@[simp] theorem State.twinAnew_outside : s.twinAnew.outside = s.outside := by simp [State.twinAnew]
@[simp] theorem State.drivenShow_outside : s.drivenShow.outside = s.outside := by simp [State.drivenShow]
@[simp] theorem State.setFlash_outside (k : Nat) (bs : List Byte) : (s.setFlash k bs).outside = s.outside := by simp [State.setFlash]
@[simp] theorem State.flashCut_outside : s.flashCut.outside = s.outside := by simp [State.flashCut]
@[simp] theorem State.trimsZero_outside : s.trimsZero.outside = s.outside := by simp [State.trimsZero]
@[simp] theorem State.wipe_outside (soft : Bool) : (s.wipe soft).outside = s.outside := by simp [State.wipe]
@[simp] theorem State.clearAll_outside (soft : Bool) : (s.clearAll soft).outside = s.outside := by simp [State.clearAll]
@[simp] theorem State.keepTime_outside (s old : State) : (s.keepTime old).outside = s.outside := by simp [State.keepTime]
@[simp] theorem State.bootStart_outside : s.bootStart.outside = s.outside := by simp [State.bootStart]
@[simp] theorem State.hearthStop_outside : s.hearthStop.outside = s.outside := by simp [State.hearthStop]
@[simp] theorem State.hearthReset_outside : s.hearthReset.outside = s.outside := by simp [State.hearthReset]
@[simp] theorem State.posAnew_outside : s.posAnew.outside = s.outside := by simp [State.posAnew]
@[simp] theorem State.hearthWake_outside : s.hearthWake.outside = s.outside := by simp [State.hearthWake]
@[simp] theorem State.takeReset_outside (r : Nat) : (s.takeReset r).outside = s.outside := by simp [State.takeReset]
@[simp] theorem State.delayReset_outside (r bits : Nat) : (s.delayReset r bits).outside = s.outside := by simp [State.delayReset]

@[simp] theorem State.resetBy_outside (b r : Nat) : (s.resetBy b r).outside = s.outside := by
  unfold State.resetBy
  repeat' split
  all_goals simp

@[simp] theorem State.pinsShow_outside : s.pinsShow.outside = s.outside := by simp [State.pinsShow]
@[simp] theorem State.trimsOff_outside : s.trimsOff.outside = s.outside := by simp [State.trimsOff]
@[simp] theorem State.cordDown_outside : s.cordDown.outside = s.outside := by simp [State.cordDown]
@[simp] theorem State.twinSleep_outside : s.twinSleep.outside = s.outside := by simp [State.twinSleep]
@[simp] theorem State.twinWake_outside : s.twinWake.outside = s.outside := by simp [State.twinWake]
@[simp] theorem State.toSmoulder_outside : s.toSmoulder.outside = s.outside := by simp [State.toSmoulder]
@[simp] theorem State.wake_outside (k : Nat) : (s.wake k).outside = s.outside := by simp [State.wake]
@[simp] theorem State.woken_outside : s.woken.outside = s.outside := by simp [State.woken]
@[simp] theorem State.beginStep_outside (q : Nat) (ended : Bool) : (s.beginStep q ended).outside = s.outside := by simp [State.beginStep]
@[simp] theorem State.endStep_outside : s.endStep.outside = s.outside := by simp [State.endStep]
@[simp] theorem State.sampleStraps_outside (straps : Nat) : (s.sampleStraps straps).outside = s.outside := by simp [State.sampleStraps]
@[simp] theorem State.released_outside : s.released.outside = s.outside := by simp [State.released]
@[simp] theorem State.trimLoad_outside : s.trimLoad.outside = s.outside := by simp [State.trimLoad]

@[simp] theorem State.releaseStep_outside (s0 : State) (pins : ReleasePins) : (s0.releaseStep pins).outside = s0.outside := by
  simp [State.releaseStep]

@[simp] theorem State.blkHif_outside : s.blkHif.outside = s.outside := by simp [State.blkHif]
@[simp] theorem State.blkUnt_outside : s.blkUnt.outside = s.outside := by simp [State.blkUnt]
@[simp] theorem State.blkKln_outside : s.blkKln.outside = s.outside := by simp [State.blkKln]
@[simp] theorem State.blkSws_outside : s.blkSws.outside = s.outside := by simp [State.blkSws]
@[simp] theorem State.blkHpt_outside : s.blkHpt.outside = s.outside := by simp [State.blkHpt]
@[simp] theorem State.blkPos_outside : s.blkPos.outside = s.outside := by simp [State.blkPos]
@[simp] theorem State.blkFir_outside : s.blkFir.outside = s.outside := by simp [State.blkFir]
@[simp] theorem State.blkTrn_outside : s.blkTrn.outside = s.outside := by simp [State.blkTrn]
@[simp] theorem State.blkTim_outside : s.blkTim.outside = s.outside := by simp [State.blkTim]
@[simp] theorem State.blkCrd_outside : s.blkCrd.outside = s.outside := by simp [State.blkCrd]
@[simp] theorem State.blkTwn_outside : s.blkTwn.outside = s.outside := by simp [State.blkTwn]
@[simp] theorem State.blkTrm_outside : s.blkTrm.outside = s.outside := by simp [State.blkTrm]
@[simp] theorem State.blockReset_outside (k : Nat) : (s.blockReset k).outside = s.outside := by simp [State.blockReset]
@[simp] theorem State.blockResets_outside (m : Word) : (s.blockResets m).outside = s.outside := by simp [State.blockResets]
@[simp] theorem State.blkRst_outside (v : Word) : (s.blkRst v).outside = s.outside := by simp [State.blkRst]

@[simp] theorem State.endDelay_outside : s.endDelay.outside = s.outside := by
  unfold State.endDelay
  repeat' split
  all_goals simp

/-! ### Machine/PowerRows.lean -/

@[simp] theorem State.powerFail_outside (rail vback : Bool) : (s.powerFail rail vback).outside = s.outside := by simp [State.powerFail]
@[simp] theorem State.changeover_outside (vback : Bool) : (s.changeover vback).outside = s.outside := by simp [State.changeover]
@[simp] theorem State.bankReturn_outside : s.bankReturn.outside = s.outside := by simp [State.bankReturn]
@[simp] theorem State.vmainGood_outside (s0 : State) (v : Supplies) : (s0.vmainGood v).outside = s0.outside := by simp [State.vmainGood]
@[simp] theorem State.aonPor_outside (vback : Bool) : (s.aonPor vback).outside = s.outside := by simp [State.aonPor]
@[simp] theorem State.pwrCtl_outside (v : Word) : (s.pwrCtl v).outside = s.outside := by simp [State.pwrCtl]

@[simp] theorem State.aonBar_outside (f : State → State) (hf : ∀ s, (f s).outside = s.outside) : (s.aonBar f).outside = s.outside := by
  simp [State.aonBar, hf]

@[simp] theorem State.motionWake_outside : s.motionWake.outside = s.outside := by simp [State.motionWake]
@[simp] theorem State.servicePress_outside (p : ServicePins) : (s.servicePress p).outside = s.outside := by simp [State.servicePress]
@[simp] theorem State.d3hot_outside : s.d3hot.outside = s.outside := by simp [State.d3hot]
@[simp] theorem State.wdog_outside : s.wdog.outside = s.outside := by simp [State.wdog]
@[simp] theorem State.sysResetWrite_outside (v : Word) : (s.sysResetWrite v).outside = s.outside := by simp [State.sysResetWrite]
@[simp] theorem State.schedDue_outside : s.schedDue.outside = s.outside := by simp [State.schedDue]
@[simp] theorem State.pllLock_outside (ok : Bool) : (s.pllLock ok).outside = s.outside := by simp [State.pllLock]
@[simp] theorem State.sramFill_outside : s.sramFill.outside = s.outside := by simp [State.sramFill]
@[simp] theorem State.dramTrained_outside (store : Nat) : (s.dramTrained store).outside = s.outside := by simp [State.dramTrained]

/-! ### Machine/JobRows.lean -/

@[simp] theorem State.unhalt_outside (st : Nat) (c : Word) : (s.unhalt st c).outside = s.outside := by simp [State.unhalt]

@[simp] theorem State.restartCmd_outside (st : Nat) : (s.restartCmd st).1.outside = s.outside := by
  unfold State.restartCmd
  repeat' split
  all_goals simp

@[simp] theorem State.skipLines_outside (st : Nat) : (s.skipLines st).outside = s.outside := by
  unfold State.skipLines
  repeat' split
  all_goals simp

@[simp] theorem State.skipCmd_outside (st : Nat) : (s.skipCmd st).1.outside = s.outside := by
  unfold State.skipCmd
  repeat' split
  all_goals simp

/-! ### Machine/HptOps.lean -/

@[simp] theorem State.shiftIn_outside (h l : Nat) (image : List Byte) : (s.shiftIn h l image).outside = s.outside := by simp [State.shiftIn]
@[simp] theorem State.trainEnd_outside (h r : Nat) : (s.trainEnd h r).outside = s.outside := by simp [State.trainEnd]
@[simp] theorem State.trainMap_outside (h : Nat) (tr : Train) : (s.trainMap h tr).outside = s.outside := by simp [State.trainMap]
@[simp] theorem State.trainFound_outside (h : Nat) (tr : Train) : (s.trainFound h tr).outside = s.outside := by simp [State.trainFound]

@[simp] theorem State.trainSearch_outside (h : Nat) (tr : Train) (raw : Nat) : (s.trainSearch h tr raw).outside = s.outside := by
  simp only [State.trainSearch]
  repeat' split
  all_goals simp

@[simp] theorem State.trainName_outside (h : Nat) (tr : Train) (bits v : Nat) : (s.trainName h tr bits v).outside = s.outside := by
  simp [State.trainName]

@[simp] theorem State.trainVerify_outside (h : Nat) (tr : Train) (bits v : Nat) : (s.trainVerify h tr bits v).outside = s.outside := by
  simp [State.trainVerify]

@[simp] theorem State.trainReturn_outside (h : Nat) (tr : Train) (bits raw : Nat) : (s.trainReturn h tr bits raw).outside = s.outside := by
  simp [State.trainReturn]

@[simp] theorem State.trainBurst_outside (h : Nat) (tr : Train) : (s.trainBurst h tr).outside = s.outside := by simp [State.trainBurst]

@[simp] theorem State.align_outside (h : Nat) : (s.align h).outside = s.outside := by
  simp only [State.align]
  repeat' split
  all_goals simp

@[simp] theorem State.modeSet_outside (h x : Nat) : (s.modeSet h x).outside = s.outside := by simp [State.modeSet]
@[simp] theorem State.stepUp_outside (h n : Nat) : (s.stepUp h n).outside = s.outside := by simp [State.stepUp]

/-! ### Machine/HptRows.lean -/

@[simp] theorem State.burstAsh_outside (h l : Nat) : (s.burstAsh h l).outside = s.outside := by simp [State.burstAsh]

@[simp] theorem State.stagRead_outside (g : Staged) (ash : Nat) : (s.stagRead g ash).2.2.outside = s.outside := by
  simp only [State.stagRead, State.flawsRead_outside]
  exact foldl_outside_snd (by simp) _ _

@[simp] theorem State.burstStart_outside (h ash : Nat) : (s.burstStart h ash).outside = s.outside := by
  simp only [State.burstStart]
  repeat' split
  all_goals simp

@[simp] theorem State.testBurst_outside (h : Nat) : (s.testBurst h).outside = s.outside := by
  unfold State.testBurst
  repeat' split
  all_goals simp

@[simp] theorem State.latRise_outside (h : Nat) : (s.latRise h).outside = s.outside := by
  simp only [State.latRise]
  repeat' split
  all_goals simp

@[simp] theorem State.flushBurst_outside (h : Nat) : (s.flushBurst h).outside = s.outside := by simp [State.flushBurst]
@[simp] theorem State.monitorLock_outside (h trailer : Nat) : (s.monitorLock h trailer).outside = s.outside := by simp [State.monitorLock]
@[simp] theorem State.twinCauseOver_outside : s.twinCauseOver.outside = s.outside := by simp [State.twinCauseOver]
@[simp] theorem State.returnEnd_outside : s.returnEnd.outside = s.outside := by simp [State.returnEnd]
@[simp] theorem State.fireFell_outside (h : Nat) : (s.fireFell h).outside = s.outside := by simp [State.fireFell]
@[simp] theorem State.trainStart_outside (h : Nat) : (s.trainStart h).outside = s.outside := by simp [State.trainStart]
@[simp] theorem State.prbsBurst_outside (h : Nat) : (s.prbsBurst h).outside = s.outside := by simp [State.prbsBurst]

@[simp] theorem State.prbsReturn_outside (h raw rawTr : Nat) : (s.prbsReturn h raw rawTr).outside = s.outside := by
  simp only [State.prbsReturn]
  repeat' split
  all_goals simp

@[simp] theorem State.tempPoll_outside (b : Nat) : (s.tempPoll b).outside = s.outside := by
  simp only [State.tempPoll]
  repeat' split
  all_goals simp

/-! ### Machine/TwinRows.lean -/

@[simp] theorem State.activate_outside : s.activate.outside = s.outside := by simp [State.activate]
@[simp] theorem State.standBy_outside : s.standBy.outside = s.outside := by simp [State.standBy]
@[simp] theorem State.primeStep_outside : s.primeStep.outside = s.outside := by simp [State.primeStep]
@[simp] theorem State.takeCheck_outside : s.takeCheck.outside = s.outside := by simp [State.takeCheck]
@[simp] theorem State.linkTry_outside : s.linkTry.outside = s.outside := by simp [State.linkTry]

@[simp] theorem State.linkChange_outside (up : Bool) (lanes rtt : Nat) : (s.linkChange up lanes rtt).outside = s.outside := by
  simp [State.linkChange]

@[simp] theorem State.ackIn_outside (ack : Nat) : (s.ackIn ack).outside = s.outside := by simp [State.ackIn]

@[simp] theorem State.recv_outside (h : LinkHdr) (f : State → State) (hf : ∀ s, (f s).outside = s.outside) :
    (s.recv h f).outside = s.outside := by simp [State.recv, hf]

@[simp] theorem State.bothActive_outside : s.bothActive.outside = s.outside := by simp [State.bothActive]
@[simp] theorem State.aliveEdge_outside : s.aliveEdge.outside = s.outside := by simp [State.aliveEdge]

@[simp] theorem State.aliveDead_outside : s.aliveDead.outside = s.outside := by
  unfold State.aliveDead
  repeat' split
  all_goals simp

@[simp] theorem State.confirm_outside : s.confirm.outside = s.outside := by simp [State.confirm]
@[simp] theorem State.takeCauses_outside : s.takeCauses.outside = s.outside := by simp [State.takeCauses]
@[simp] theorem State.releasedIn_outside (mask : Nat) : (s.releasedIn mask).outside = s.outside := by simp [State.releasedIn]

@[simp] theorem State.agreeIn_outside (purpose a : Nat) : (s.agreeIn purpose a).outside = s.outside := by
  unfold State.agreeIn
  repeat' split
  all_goals simp

@[simp] theorem State.agreeTimeout_outside : s.agreeTimeout.outside = s.outside := by
  unfold State.agreeTimeout
  repeat' split
  all_goals simp

@[simp] theorem State.thermIn_outside (p : Nat) (b : Bool) : (s.thermIn p b).outside = s.outside := by simp [State.thermIn]

@[simp] theorem State.putHeadBytes_outside (p k : Nat) (bs : List Nat) : (s.putHeadBytes p k bs).outside = s.outside := by
  simp [State.putHeadBytes]

@[simp] theorem State.headFill_outside (p : Nat) : (s.headFill p).outside = s.outside := by simp [State.headFill]
@[simp] theorem State.headSet_outside (p : Nat) : (s.headSet p).outside = s.outside := by simp [State.headSet]
@[simp] theorem State.joinAt_outside (w : BitVec 96) : (s.joinAt w).outside = s.outside := by simp [State.joinAt]
@[simp] theorem State.joinMore_outside (ws : List (BitVec 96)) : (s.joinMore ws).outside = s.outside := by simp [State.joinMore]

@[simp] theorem State.override_outside (bad : State → Bool) (f : State → State) (hf : ∀ s, (f s).outside = s.outside) :
    (s.override bad f).outside = s.outside := by simp [State.override, hf]

@[simp] theorem State.overActive_outside : s.overActive.outside = s.outside := by simp [State.overActive]

/-! ### Machine/InsOps.lean -/

@[simp] theorem State.trigPush_outside (c : Nat) (r : Trig) : (s.trigPush c r).outside = s.outside := by simp [State.trigPush]

@[simp] theorem State.trigPulse_outside (c : Nat) : (s.trigPulse c).outside = s.outside := by
  unfold State.trigPulse
  repeat' split
  all_goals simp

@[simp] theorem State.modFrame_outside (c n : Nat) (f : CamFrame → CamFrame) : (s.modFrame c n f).outside = s.outside := by
  simp [State.modFrame]

@[simp] theorem State.frameFlag_outside (c n f : Nat) : (s.frameFlag c n f).outside = s.outside := by simp [State.frameFlag]
@[simp] theorem State.repair_outside (c n f : Nat) : (s.repair c n f).outside = s.outside := by simp [State.repair]
@[simp] theorem State.addRow_outside (c n : Nat) (r : CamRow) : (s.addRow c n r).outside = s.outside := by simp [State.addRow]

@[simp] theorem State.fillRow_outside (c n w : Nat) (pos : Option Int) : (s.fillRow c n w pos).outside = s.outside := by
  simp [State.fillRow]

@[simp] theorem State.rowSplice_outside (c n : Nat) (x : Option Trig) (r : Nat) (lead : Bool) :
    (s.rowSplice c n x r lead).outside = s.outside := by simp [State.rowSplice]

@[simp] theorem State.rowFlags_outside (c n : Nat) (x : Option Trig) (lead : Bool) : (s.rowFlags c n x lead).outside = s.outside := by
  unfold State.rowFlags
  repeat' split
  all_goals simp

@[simp] theorem State.frameFill_outside (c : Nat) (fr : CamFrame) (k : Nat) : (s.frameFill c fr k).outside = s.outside := by
  induction k generalizing s with
  | zero => rfl
  | succ k ih => simp only [State.frameFill, ih, State.fillRow_outside]

@[simp] theorem State.frameEnd_outside (c : Nat) (fe : Bool) : (s.frameEnd c fe).outside = s.outside := by
  unfold State.frameEnd
  repeat' split
  all_goals simp

@[simp] theorem State.trigTake_outside (c : Nat) : (s.trigTake c).2.outside = s.outside := by
  unfold State.trigTake
  repeat' split
  all_goals simp

@[simp] theorem State.camLink_outside (c : Nat) : (s.camLink c).outside = s.outside := by simp [State.camLink]

@[simp] theorem State.frameStart_outside (c : Nat) : (s.frameStart c).outside = s.outside := by
  simp only [State.frameStart]
  repeat' split
  all_goals simp

@[simp] theorem State.ffTouch_outside (c w : Nat) : (s.ffTouch c w).outside = s.outside := by simp [State.ffTouch]

@[simp] theorem State.lineRead_outside (c : Nat) (raw : List (Option Nat)) : (s.lineRead c raw).2.2.outside = s.outside := by
  unfold State.lineRead
  refine List.foldlRecOn (motive := fun r : List (Option Nat) × Bool × State => r.2.2.outside = s.outside) _ _ (by simp)
    fun r hr f _ => ?_
  dsimp only
  split
  · simp [hr]
  · split <;> simp [hr]

@[simp] theorem State.pipeLine_outside (c n y : Nat) (raw : List (Option Nat)) : (s.pipeLine c n y raw).1.outside = s.outside := by
  simp [State.pipeLine]

@[simp] theorem State.lineIn_outside (c : Nat) (fr : CamFrame) (y : Nat) (raw : List (Option Nat)) (bytes : Nat) (pos : Option Int) :
    (s.lineIn c fr y raw bytes pos).outside = s.outside := by simp [State.lineIn]

@[simp] theorem State.repairAlone_outside (c f : Nat) : (s.repairAlone c f).outside = s.outside := by simp [State.repairAlone]

@[simp] theorem State.camLine_outside (c err : Nat) (pix : List (BitVec 12)) : (s.camLine c err pix).outside = s.outside := by
  unfold State.camLine
  dsimp only
  split
  · simp
  · simp [apply_ite Prod.snd]

@[simp] theorem State.replay_outside (ash : Bool) : (s.replay ash).outside = s.outside := by
  simp only [State.replay]
  repeat' split
  all_goals simp

/-! ### Machine/FindOps.lean -/

@[simp] theorem State.camCycle_outside (c : Nat) : (s.camCycle c).outside = s.outside := by simp [State.camCycle]
@[simp] theorem State.runNote_outside (n k : Nat) : (s.runNote n k).outside = s.outside := by simp [State.runNote]

@[simp] theorem State.batchPass_outside (e eng : Nat) (ws : List AutoWr) : (s.batchPass e eng ws).outside = s.outside := by
  simp [State.batchPass]

@[simp] theorem State.refRead_outside (i : Nat) : (s.refRead i).outside = s.outside := by simp [State.refRead]

@[simp] theorem State.compare_outside (rows : List (Fin 128 × BitVec 38)) : (s.compare rows).outside = s.outside := by
  refine foldl_outside (fun s r => ?_) _ _
  split <;> simp

/-! ### Machine/InsRows.lean -/

@[simp] theorem State.camCtl_outside (c : Nat) (v : Word) : (s.camCtl c v).outside = s.outside := by simp [State.camCtl]
@[simp] theorem State.ffNext_outside (c : Nat) : (s.ffNext c).outside = s.outside := by simp [State.ffNext]
@[simp] theorem State.ffWrite_outside (c off len v : Nat) : (s.ffWrite c off len v).outside = s.outside := by simp [State.ffWrite]
@[simp] theorem State.ffRead_outside (c : Nat) : (s.ffRead c).outside = s.outside := by simp [State.ffRead]
@[simp] theorem State.batchIn_outside (e : Nat) (ws : List (BitVec 128)) : (s.batchIn e ws).outside = s.outside := by simp [State.batchIn]

/-! ### Machine/StoreWin.lean -/

@[simp] theorem State.setHs_outside (k : Nat) (w : MWord) : (s.setHs k w).outside = s.outside := by simp [State.setHs]
@[simp] theorem State.hsTouch_outside (k : Nat) : (s.hsTouch k).outside = s.outside := by simp [State.hsTouch]

@[simp] theorem State.hsMerge_outside : s.hsMerge.outside = s.outside := by
  unfold State.hsMerge
  repeat' split
  all_goals simp

@[simp] theorem State.hsAway_outside (k : Nat) : (s.hsAway k).outside = s.outside := by
  unfold State.hsAway
  repeat' split
  all_goals simp

@[simp] theorem State.hsPut_outside (a len v : Nat) : (s.hsPut a len v).outside = s.outside := by simp [State.hsPut]
@[simp] theorem State.hsGet_outside (a len : Nat) : (s.hsGet a len).outside = s.outside := by simp [State.hsGet]

@[simp] theorem State.bar2Write_outside (off len v : Nat) : (s.bar2Write off len v).outside = s.outside := by
  unfold State.bar2Write
  repeat' split
  all_goals simp

@[simp] theorem State.bar2Read_outside (off len : Nat) : (s.bar2Read off len).outside = s.outside := by
  unfold State.bar2Read
  repeat' split
  all_goals simp

@[simp] theorem State.mergeTimeout_outside (mem : Nat) : (s.mergeTimeout mem).outside = s.outside := by
  unfold State.mergeTimeout
  repeat' split
  all_goals simp

@[simp] theorem State.stagUpset_outside (a : Nat) (flips : BitVec 72) : (s.stagUpset a flips).outside = s.outside := by
  simp only [State.stagUpset]
  repeat' split
  all_goals simp

@[simp] theorem State.tileUpset_outside (a : Nat) (flips : BitVec 72) : (s.tileUpset a flips).outside = s.outside := by
  simp only [State.tileUpset]
  repeat' split
  all_goals simp

@[simp] theorem State.looseUpset_outside (r a : Nat) (flips : BitVec 72) : (s.looseUpset r a flips).outside = s.outside := by
  simp [State.looseUpset]

@[simp] theorem State.upset_outside (mem r a : Nat) (flips : BitVec 72) : (s.upset mem r a flips).outside = s.outside := by
  simp [State.upset]

@[simp] theorem State.scrubSram_outside : s.scrubSram.outside = s.outside := by
  unfold State.scrubSram
  repeat' split
  all_goals simp

@[simp] theorem State.scrubStore_outside : s.scrubStore.outside = s.outside := by
  unfold State.scrubStore
  repeat' split
  all_goals simp

@[simp] theorem State.scrubStep_outside (mem r a : Nat) (flips : BitVec 72) : (s.scrubStep mem r a flips).outside = s.outside := by
  simp [State.scrubStep]

@[simp] theorem State.flipWrite_outside (v : Word) (hearth : Bool) : (s.flipWrite v hearth).outside = s.outside := by simp [State.flipWrite]
@[simp] theorem State.retnPut_outside (x : Nat) (v : Word) : (s.retnPut x v).outside = s.outside := by simp [State.retnPut]
@[simp] theorem State.retnGet_outside (x : Nat) : (s.retnGet x).outside = s.outside := by simp [State.retnGet]

/-! ### Machine/SvcRows.lean -/

@[simp] theorem State.imgCopy_outside (img : List Byte) (mk : Nat → Bool) : (s.imgCopy img mk).outside = s.outside := by
  simp [State.imgCopy]

@[simp] theorem State.fwStart_outside (slot : Nat) (img : List Byte) (mk : Nat → Bool) : (s.fwStart slot img mk).outside = s.outside := by
  simp [State.fwStart]

@[simp] theorem State.imageDone_outside (sigs : Nat) (ok : Bool) (a b : Option (List Byte)) :
    (s.imageDone sigs ok a b).outside = s.outside := by
  unfold State.imageDone
  dsimp only
  repeat' split
  all_goals simp

@[simp] theorem State.bootGo_outside : s.bootGo.outside = s.outside := by simp [State.bootGo]

@[simp] theorem State.retrainOn_outside (p : Nat) : (s.retrainOn p).outside = s.outside := by
  unfold State.retrainOn
  repeat' split
  all_goals simp

@[simp] theorem State.mbxStart_outside (c : Nat) : (s.mbxStart c).outside = s.outside := by simp [State.mbxStart]
@[simp] theorem State.mbxGo_outside : s.mbxGo.outside = s.outside := by simp [State.mbxGo]
@[simp] theorem State.mbxCmd_outside (c : Nat) : (s.mbxCmd c).outside = s.outside := by simp [State.mbxCmd]
@[simp] theorem State.headTake_outside (p o len v : Nat) : (s.headTake p o len v).outside = s.outside := by simp [State.headTake]
@[simp] theorem State.pageWrite_outside (ok : Bool) : (s.pageWrite ok).outside = s.outside := by simp [State.pageWrite]
@[simp] theorem State.putRsp_outside (bs : List Byte) : (s.putRsp bs).outside = s.outside := by simp [State.putRsp]
@[simp] theorem State.mbxRefused_outside (st : Nat) : (s.mbxRefused st).outside = s.outside := by simp [State.mbxRefused]
@[simp] theorem State.mbxEnd_outside (st : Nat) (bs : List Byte) : (s.mbxEnd st bs).outside = s.outside := by simp [State.mbxEnd]

@[simp] theorem State.versionEnd_outside : s.versionEnd.outside = s.outside := by
  simp only [State.versionEnd, State.mbxEnd_outside]
  exact foldl_outside_snd (by simp) _ _

@[simp] theorem State.headreadEnd_outside : s.headreadEnd.outside = s.outside := by simp [State.headreadEnd]
@[simp] theorem State.flashSealed_outside (data : List Byte) : (s.flashSealed data).outside = s.outside := by simp [State.flashSealed]

@[simp] theorem State.flashEnd_outside (sig w : Bool) (data : List Byte) : (s.flashEnd sig w data).outside = s.outside := by
  simp [State.flashEnd]

@[simp] theorem State.otpEnd_outside (ok : Bool) : (s.otpEnd ok).outside = s.outside := by
  unfold State.otpEnd
  repeat' split
  all_goals simp

@[simp] theorem State.goldenEnd_outside : s.goldenEnd.outside = s.outside := by simp [State.goldenEnd]

@[simp] theorem State.retrainEnd_outside : s.retrainEnd.outside = s.outside := by
  unfold State.retrainEnd
  repeat' split
  all_goals simp

@[simp] theorem State.svcArm_outside (v : Word) : (s.svcArm v).outside = s.outside := by simp [State.svcArm]
@[simp] theorem State.authLapse_outside : s.authLapse.outside = s.outside := by simp [State.authLapse]

/-! ### Machine/RegOps.lean -/

@[simp] theorem State.armedAt_outside (a : Nat) : (s.armedAt a).outside = s.outside := by simp [State.armedAt]

@[simp] theorem State.plainWrite_outside (a : Nat) (r : RegRow) (m v : Word) : (s.plainWrite a r m v).outside = s.outside := by
  simp [State.plainWrite]

@[simp] theorem State.clearRead_outside (a : Nat) (r : RegRow) (m : Word) : (s.clearRead a r m).outside = s.outside := by
  simp [State.clearRead]

@[simp] theorem State.shown_outside (a : Nat) (r : RegRow) : (s.shown a r).2.outside = s.outside := by
  simp only [State.shown]
  repeat' split
  all_goals simp

/-! ### Machine/RegWrites.lean -/

@[simp] theorem State.takeWrite_outside (a : Nat) (r : RegRow) (m v : Word) : (s.takeWrite a r m v).outside = s.outside := by
  simp [State.takeWrite]

@[simp] theorem State.pollStart_outside : s.pollStart.outside = s.outside := by simp [State.pollStart]
@[simp] theorem State.partLost_outside (i : Nat) : (s.partLost i).outside = s.outside := by simp [State.partLost]

@[simp] theorem State.partWrite_outside (i : Nat) (v : Word) : (s.partWrite i v).outside = s.outside := by
  simp only [State.partWrite]
  repeat' split
  all_goals simp

@[simp] theorem State.partGeom_outside (i a : Nat) (r : RegRow) (m v : Word) : (s.partGeom i a r m v).outside = s.outside := by
  simp [State.partGeom]

@[simp] theorem State.swsWrite_outside (a : Nat) (r : RegRow) (m v : Word) : (s.swsWrite a r m v).outside = s.outside := by
  unfold State.swsWrite
  repeat' split
  all_goals simp

@[simp] theorem State.burstWant_outside : s.burstWant.outside = s.outside := by simp [State.burstWant]

@[simp] theorem State.klnWrite_outside (a : Nat) (r : RegRow) (m v : Word) : (s.klnWrite a r m v).outside = s.outside := by
  simp [State.klnWrite]

@[simp] theorem State.nztWrite_outside (a : Nat) (r : RegRow) (m v : Word) : (s.nztWrite a r m v).outside = s.outside := by
  simp [State.nztWrite]

@[simp] theorem State.modeWrite_outside (h : Nat) (m v : Word) (hearth : Bool) : (s.modeWrite h m v hearth).outside = s.outside := by
  simp [State.modeWrite]

@[simp] theorem State.testWrite_outside (h a : Nat) (r : RegRow) (m v : Word) (hearth : Bool) :
    (s.testWrite h a r m v hearth).outside = s.outside := by simp [State.testWrite]

@[simp] theorem State.trainWrite_outside (h a : Nat) (r : RegRow) (m v : Word) : (s.trainWrite h a r m v).outside = s.outside := by
  simp [State.trainWrite]

@[simp] theorem State.headInfo_outside (h a : Nat) (r : RegRow) (m v : Word) : (s.headInfo h a r m v).outside = s.outside := by
  simp [State.headInfo]

@[simp] theorem State.zmodeWrite_outside (r : RegRow) (m v : Word) : (s.zmodeWrite r m v).outside = s.outside := by simp [State.zmodeWrite]

@[simp] theorem State.posWrite_outside (a : Nat) (r : RegRow) (m v : Word) (hearth : Bool) :
    (s.posWrite a r m v hearth).outside = s.outside := by simp [State.posWrite]

@[simp] theorem State.trnTrip_outside (a : Nat) : (s.trnTrip a).outside = s.outside := by simp [State.trnTrip]

@[simp] theorem State.trnWrite_outside (a : Nat) (r : RegRow) (m v : Word) : (s.trnWrite a r m v).outside = s.outside := by
  simp [State.trnWrite]

@[simp] theorem State.insCtl_outside (r : RegRow) (m v : Word) : (s.insCtl r m v).outside = s.outside := by simp [State.insCtl]

@[simp] theorem State.camWrite_outside (c k a : Nat) (r : RegRow) (m v : Word) (off len : Nat) :
    (s.camWrite c k a r m v off len).outside = s.outside := by simp [State.camWrite]

@[simp] theorem State.insWrite_outside (a : Nat) (r : RegRow) (m v : Word) (off len : Nat) :
    (s.insWrite a r m v off len).outside = s.outside := by simp [State.insWrite]

@[simp] theorem State.evtCtl_outside (n : Nat) (r : RegRow) (m v : Word) (hearth : Bool) :
    (s.evtCtl n r m v hearth).outside = s.outside := by simp [State.evtCtl]

@[simp] theorem State.timWrite_outside (a : Nat) (r : RegRow) (m v : Word) (hearth : Bool) :
    (s.timWrite a r m v hearth).outside = s.outside := by
  unfold State.timWrite
  repeat' split
  all_goals simp

@[simp] theorem State.faultCut_outside : s.faultCut.outside = s.outside := by simp [State.faultCut]
@[simp] theorem State.trmCtl_outside (r : RegRow) (m v : Word) : (s.trmCtl r m v).outside = s.outside := by simp [State.trmCtl]

@[simp] theorem State.trmWrite_outside (a : Nat) (r : RegRow) (m v : Word) (hearth : Bool) :
    (s.trmWrite a r m v hearth).outside = s.outside := by
  unfold State.trmWrite
  repeat' split
  all_goals simp

@[simp] theorem State.wdWrite_outside (r : RegRow) (m v : Word) : (s.wdWrite r m v).outside = s.outside := by simp [State.wdWrite]

@[simp] theorem State.aonWrite_outside (a : Nat) (r : RegRow) (m v : Word) : (s.aonWrite a r m v).outside = s.outside := by
  simp [State.aonWrite]

@[simp] theorem State.eccWrite_outside (a : Nat) (r : RegRow) (m v : Word) (hearth : Bool) :
    (s.eccWrite a r m v hearth).outside = s.outside := by simp [State.eccWrite]

@[simp] theorem State.svcWrite_outside (a : Nat) (r : RegRow) (m v : Word) (hearth : Bool) :
    (s.svcWrite a r m v hearth).outside = s.outside := by simp [State.svcWrite]

@[simp] theorem State.sysWrite_outside (a : Nat) (m v : Word) : (s.sysWrite a m v).outside = s.outside := by simp [State.sysWrite]

/-! ### Machine/RegRows.lean -/

@[simp] theorem State.answer_outside (v : Nat) (ep : Bool) : (s.answer v ep).outside = s.outside := by simp [State.answer]
@[simp] theorem State.regRead_outside (a len : Nat) (r : RegRow) : (s.regRead a len r).outside = s.outside := by simp [State.regRead]

@[simp] theorem State.read32_outside (a len : Nat) : (s.read32 a len).outside = s.outside := by
  unfold State.read32
  repeat' split
  all_goals simp

@[simp] theorem State.bar0Read_outside (a len : Nat) : (s.bar0Read a len).outside = s.outside := by simp [State.bar0Read]

@[simp] theorem State.cfgShown_outside (a : Nat) : (s.cfgShown a).2.outside = s.outside := by
  unfold State.cfgShown
  repeat' split
  all_goals simp

@[simp] theorem State.cfgRead_outside (a len : Nat) : (s.cfgRead a len).outside = s.outside := by simp [State.cfgRead]

end Sys2Proof.Machine
end

section
/-! PROOF. The operations that let time go on or send something: they add to what is outside and take nothing back. One lemma per operation, in
the order of the model's files. -/

namespace Sys2Proof.Machine

open Sys2Proof

variable {o : Outside} (s : State)

/-! ### Machine/Ops.lean -/

@[simp] theorem State.emit_grows (addr : Nat) (bytes : List Byte) (poison : Bool) (hg : o.Grows s.outside) :
    o.Grows (s.emit addr bytes poison).outside := by
  obtain ⟨hq, hn, hc, ho, hs⟩ := hg
  exact ⟨hq, hn, hc, ho.trans (List.prefix_append _ _), hs⟩

@[simp] theorem State.sendFrame_grows (link kind : Nat) (body : List Nat) (hg : o.Grows s.outside) :
    o.Grows (s.sendFrame link kind body).outside := by
  obtain ⟨hq, hn, hc, ho, hs⟩ := hg
  exact ⟨hq, hn, hc, ho, hs.trans (List.prefix_append _ _)⟩

@[simp] theorem State.bar_grows (blk : Nat) (f : State → State) (hg : o.Grows s.outside) (hf : ∀ s, o.Grows s.outside → o.Grows
    (f s).outside) :
    o.Grows (s.bar blk f).outside := by simp [State.bar, hg, hf]

@[simp] theorem State.byWriter_grows (hearth : Bool) (f : State → State) (hg : o.Grows s.outside) (hf : ∀ s, o.Grows s.outside → o.Grows
    (f s).outside) :
    o.Grows (s.byWriter hearth f).outside := by simp [State.byWriter, hg, hf]

/-! ### Machine/TimeOps.lean -/

@[simp] theorem State.goOn_grows (t : Nat) (hg : o.Grows s.outside) (ht : s.clk ≤ t) : o.Grows (s.goOn t).outside := by
  have hu : (s.goOn t).outside = { s.outside with clk := t } := by
    unfold State.goOn
    extract_lets s0 dt frc s1 s2
    have h2 : s2.outside = s.outside := by simp [s2, s1, s0]
    exact congrArg (fun p : Outside => { p with clk := t }) h2
  obtain ⟨hq, hn, hc, ho, hs⟩ := hg
  rw [hu]
  exact ⟨hq, hn, Nat.le_trans hc ht, ho, hs⟩

@[simp] theorem State.advance_grows (t : Nat) (hg : o.Grows s.outside) : o.Grows (s.advance t).outside := by
  unfold State.advance
  split
  · exact hg
  · extract_lets s1
    have h1 : o.Grows s1.outside := by
      simp only [s1]
      split
      · exact hg
      · simp [State.goOn_grows, hg]
    split
    · exact h1
    · exact State.goOn_grows s1 t h1 (by omega)

@[simp] theorem State.tick_grows (hg : o.Grows s.outside) : o.Grows s.tick.outside := by simp [State.tick, hg]

/-! ### Machine/CamOps.lean -/

@[simp] theorem State.insRecord_grows (body : List Byte) (poison : Bool) (hg : o.Grows s.outside) :
    o.Grows (s.insRecord body poison).outside := by simp [State.insRecord, hg]

@[simp] theorem State.defectResult_grows (k code : Nat) (hg : o.Grows s.outside) : o.Grows (s.defectResult k code).outside := by
  simp +contextual [State.defectResult, hg]

/-! ### Machine/Streams.lean -/

@[simp] theorem State.cqWrite_grows (q : Nat) (e : List Byte) (hg : o.Grows s.outside) : o.Grows (s.cqWrite q e).outside := by
  simp [State.cqWrite, hg]

@[simp] theorem State.flushGo_grows (n st : Nat) (hg : o.Grows s.outside) : o.Grows (State.flushGo n s st).outside := by
  induction n generalizing s with
  | zero => exact hg
  | succ n ih =>
    unfold State.flushGo
    repeat' split
    all_goals simp [ih, hg]

@[simp] theorem State.flush_grows (st : Nat) (hg : o.Grows s.outside) : o.Grows (s.flush st).outside := by simp [State.flush, hg]
@[simp] theorem State.flushOnce_grows (hg : o.Grows s.outside) : o.Grows s.flushOnce.outside := by simp +contextual [State.flushOnce, hg]
@[simp] theorem State.flushAll_grows (hg : o.Grows s.outside) : o.Grows s.flushAll.outside := by simp +contextual [State.flushAll, hg]

/-! ### Machine/TwinEnt.lean -/

@[simp] theorem State.twinPut_grows (q kind : Nat) (body : List Nat) (hg : o.Grows s.outside) :
    o.Grows (s.twinPut q kind body).outside := by simp [State.twinPut, hg]

@[simp] theorem State.twinSend_grows (kind : Nat) (body : List Nat) (hg : o.Grows s.outside) : o.Grows (s.twinSend kind body).outside := by
  simp [State.twinSend, hg]

/-! ### Machine/FireOps.lean -/

@[simp] theorem State.settleLines_grows (hg : o.Grows s.outside) : o.Grows s.settleLines.outside := by simp [State.settleLines, hg]

/-! ### Machine/PortOps.lean -/

@[simp] theorem State.tableResult_grows (st c code : Nat) (hg : o.Grows s.outside) : o.Grows (s.tableResult st c code).outside := by
  simp only [State.tableResult]
  repeat' split
  all_goals simp [hg]

@[simp] theorem State.batchReport_grows (hg : o.Grows s.outside) : o.Grows s.batchReport.outside := by
  unfold State.batchReport
  repeat' split
  all_goals simp [hg]

@[simp] theorem State.insResult_grows (k code : Nat) (hg : o.Grows s.outside) : o.Grows (s.insResult k code).outside := by
  simp [State.insResult, hg]

@[simp] theorem State.portResult_grows (src : PortSrc) (code : Nat) (hg : o.Grows s.outside) : o.Grows (s.portResult src code).outside := by
  unfold State.portResult
  repeat' split
  all_goals simp [hg]

@[simp] theorem State.portRefuse_grows (r : PortReq) (code index : Nat) (hg : o.Grows s.outside) :
    o.Grows (s.portRefuse r code index).outside := by
  unfold State.portRefuse
  repeat' split
  all_goals simp [hg]

@[simp] theorem State.serve_grows (r : PortReq) (hg : o.Grows s.outside) : o.Grows (s.serve r).outside := by
  simp only [State.serve]
  repeat' split
  all_goals simp [hg]

@[simp] theorem State.serveIf_grows (p : Nat → Bool) (hg : o.Grows s.outside) : o.Grows (s.serveIf p).outside := by
  unfold State.serveIf
  repeat' split
  all_goals simp [hg]

@[simp] theorem State.serveOp_grows (r : PortReq) (hg : o.Grows s.outside) : o.Grows (s.serveOp r).outside := by
  simp only [State.serveOp]
  repeat' split
  all_goals simp [hg]

@[simp] theorem State.serveOpIf_grows (p : Nat → Bool) (hg : o.Grows s.outside) : o.Grows (s.serveOpIf p).outside := by
  unfold State.serveOpIf
  repeat' split
  all_goals simp [hg]

/-! ### Machine/TwinOps.lean -/

@[simp] theorem State.propose_grows (purpose mask arg : Nat) (hg : o.Grows s.outside) : o.Grows (s.propose purpose mask arg).outside := by
  simp [State.propose, hg]

@[simp] theorem State.beginOut_grows (p bit : Nat) (hg : o.Grows s.outside) : o.Grows (s.beginOut p bit).outside := by
  simp [State.beginOut, hg]

@[simp] theorem State.endOut_grows (p bit : Nat) (hg : o.Grows s.outside) : o.Grows (s.endOut p bit).outside := by simp [State.endOut, hg]
@[simp] theorem State.retFault_grows (h : Nat) (hg : o.Grows s.outside) : o.Grows (s.retFault h).outside := by simp [State.retFault, hg]
@[simp] theorem State.goOut_grows (hg : o.Grows s.outside) : o.Grows s.goOut.outside := by simp [State.goOut, hg]
@[simp] theorem State.emberDiv_grows (hg : o.Grows s.outside) : o.Grows s.emberDiv.outside := by simp [State.emberDiv, hg]

@[simp] theorem State.rxDiv_grows (p : Nat) (own : Bool) (hg : o.Grows s.outside) : o.Grows (s.rxDiv p own).outside := by
  simp [State.rxDiv, hg]

@[simp] theorem State.divAct_grows (p k : Nat) (own : Bool) (hg : o.Grows s.outside) : o.Grows (s.divAct p k own).outside := by
  simp [State.divAct, hg]

@[simp] theorem State.diverge_grows (p l k : Nat) (own : Bool) (hg : o.Grows s.outside) : o.Grows (s.diverge p l k own).outside := by
  simp only [State.diverge]
  repeat' split
  all_goals simp [hg]

@[simp] theorem State.compareSig_grows (p l : Nat) (hg : o.Grows s.outside) : o.Grows (s.compareSig p l).outside := by
  simp only [State.compareSig]
  repeat' split
  all_goals simp [hg]

@[simp] theorem State.compareCls_grows (p l : Nat) (hg : o.Grows s.outside) : o.Grows (s.compareCls p l).outside := by
  simp only [State.compareCls]
  repeat' split
  all_goals simp [hg]

@[simp] theorem State.twinScreened_grows (p l : Nat) (sig : Word) (ash : Bool) (hg : o.Grows s.outside) :
    o.Grows (s.twinScreened p l sig ash).outside := by simp [State.twinScreened, hg]

@[simp] theorem State.askReset_grows (hg : o.Grows s.outside) : o.Grows s.askReset.outside := by simp [State.askReset, hg]
@[simp] theorem State.verdict_grows (v : Nat) (hg : o.Grows s.outside) : o.Grows (s.verdict v).outside := by simp [State.verdict, hg]

@[simp] theorem State.judgeEmber_grows (own other : EmbRes) (hg : o.Grows s.outside) : o.Grows (s.judgeEmber own other).outside := by
  simp only [State.judgeEmber]
  repeat' split
  all_goals simp [hg]

@[simp] theorem State.emberTwin_grows (r : EmbRes) (hg : o.Grows s.outside) : o.Grows (s.emberTwin r).outside := by
  simp only [State.emberTwin]
  repeat' split
  all_goals simp [hg]

/-! ### Machine/EmberOps.lean -/

@[simp] theorem State.emberBurst_grows (p l : Nat) (hg : o.Grows s.outside) : o.Grows (s.emberBurst p l).outside := by
  simp [State.emberBurst, hg]

@[simp] theorem State.emberSlot_grows (v p l : Nat) (hg : o.Grows s.outside) : o.Grows (s.emberSlot v p l).outside := by
  simp [State.emberSlot, hg]

@[simp] theorem State.emberAfter_grows (p l : Nat) (hg : o.Grows s.outside) : o.Grows (s.emberAfter p l).outside := by
  simp [State.emberAfter, hg]

/-! ### Machine/LineOps.lean -/

@[simp] theorem State.passedBy_grows (h l : Nat) (hg : o.Grows s.outside) : o.Grows (s.passedBy h l).outside := by simp [State.passedBy, hg]

@[simp] theorem State.thermEnter_grows (h : Nat) (hg : o.Grows s.outside) : o.Grows (s.thermEnter h).outside := by
  simp [State.thermEnter, hg]

@[simp] theorem State.thermLeave_grows (h : Nat) (hg : o.Grows s.outside) : o.Grows (s.thermLeave h).outside := by
  simp [State.thermLeave, hg]

@[simp] theorem State.setOver_grows (h : Nat) (b : Bool) (hg : o.Grows s.outside) : o.Grows (s.setOver h b).outside := by
  simp [State.setOver, hg]

@[simp] theorem State.overCheck_grows (h : Nat) (hg : o.Grows s.outside) : o.Grows (s.overCheck h).outside := by simp [State.overCheck, hg]
@[simp] theorem State.overAll_grows (hg : o.Grows s.outside) : o.Grows s.overAll.outside := by simp +contextual [State.overAll, hg]

@[simp] theorem State.linePassed_grows (h i : Nat) (hg : o.Grows s.outside) : o.Grows (s.linePassed h i).outside := by
  simp [State.linePassed, hg]

@[simp] theorem State.lineFired_grows (h l i : Nat) (nofire : Bool) (hg : o.Grows s.outside) :
    o.Grows (s.lineFired h l i nofire).outside := by simp [State.lineFired, hg]

@[simp] theorem State.lineCountedF_grows (h i : Nat) (nofire : Bool) (hg : o.Grows s.outside) :
    o.Grows (s.lineCountedF h i nofire).outside := by simp [State.lineCountedF, hg]

@[simp] theorem State.delayOver_grows (h l i : Nat) (nofire : Bool) (hg : o.Grows s.outside) :
    o.Grows (s.delayOver h l i nofire).outside := by simp [State.delayOver, hg]

@[simp] theorem State.loseDelayed_grows (h n : Nat) (hg : o.Grows s.outside) : o.Grows (s.loseDelayed h n).outside := by
  induction n generalizing s with
  | zero => exact hg
  | succ n ih =>
    unfold State.loseDelayed
    split
    · exact ih _ (by simp [hg])
    · exact hg

@[simp] theorem State.lineLost_grows (h i : Nat) (hg : o.Grows s.outside) : o.Grows (s.lineLost h i).outside := by simp [State.lineLost, hg]

@[simp] theorem State.loseFrom_grows (h n : Nat) (hg : o.Grows s.outside) : o.Grows (s.loseFrom h n).outside := by
  induction n generalizing s with
  | zero => exact hg
  | succ n ih =>
    unfold State.loseFrom
    dsimp only
    split
    · exact ih _ (by simp [hg])
    · exact hg

@[simp] theorem State.fireEdge_grows (rev : Bool) (hg : o.Grows s.outside) : o.Grows (s.fireEdge rev).outside := by
  simp +contextual [State.fireEdge, hg]

/-! ### Machine/Firing.lean -/

@[simp] theorem State.encoder_grows (c ab : Nat) (hg : o.Grows s.outside) : o.Grows (s.encoder c ab).outside := by simp [State.encoder, hg]

@[simp] theorem State.fireLine_grows (h l i : Nat) (hg : o.Grows s.outside) : o.Grows (s.fireLine h l i).outside := by
  simp [State.fireLine, hg]

@[simp] theorem State.fire_grows (h : Nat) (hg : o.Grows s.outside) : o.Grows (s.fire h).outside := by
  simp only [State.fire]
  repeat' split
  all_goals simp [hg]

@[simp] theorem State.delayedFire_grows (h : Nat) (hg : o.Grows s.outside) : o.Grows (s.delayedFire h).outside := by
  unfold State.delayedFire
  repeat' split
  all_goals simp [hg]

@[simp] theorem State.losePass_grows (h n : Nat) (hg : o.Grows s.outside) : o.Grows (s.losePass h n).outside := by
  induction n generalizing s with
  | zero => exact hg
  | succ n ih =>
    unfold State.losePass
    dsimp only
    split
    · exact ih _ (by simp [hg])
    · exact hg

@[simp] theorem State.passEarly_grows (hg : o.Grows s.outside) : o.Grows s.passEarly.outside := by
  have hl : ∀ n, o.Grows (s.liveHeads.foldl (fun s h => (s.loseDelayed h n).losePass h n) s).outside :=
    fun n => foldl_grows _ hg fun s h hs => by simp [hs]
  simp [State.passEarly, hg, hl]

@[simp] theorem State.passStart_grows (rev : Bool) (hg : o.Grows s.outside) : o.Grows (s.passStart rev).outside := by
  simp [State.passStart, hg]

@[simp] theorem State.sosEdge_grows (n : Nat) (lvl : Bool) (hg : o.Grows s.outside) : o.Grows (s.sosEdge n lvl).outside := by
  simp [State.sosEdge, hg]

/-! ### Machine/UnitRows.lean -/

@[simp] theorem State.serveBadop_grows (hg : o.Grows s.outside) : o.Grows s.serveBadop.outside := by
  unfold State.serveBadop
  repeat' split
  all_goals simp [hg]

/-! ### Machine/RetOps.lean -/

@[simp] theorem State.checkReturn_grows (h l c : Nat) (sig : Word) (bits trailer : Nat) (hg : o.Grows s.outside) :
    o.Grows (s.checkReturn h l c sig bits trailer).outside := by simp [State.checkReturn, hg]

@[simp] theorem State.checkHeld_grows (h l : Nat) (image : List Byte) (hg : o.Grows s.outside) :
    o.Grows (s.checkHeld h l image).outside := by
  unfold State.checkHeld
  repeat' split
  all_goals simp [hg]

/-! ### Machine/KilnOps.lean -/

@[simp] theorem State.markedEntry_grows (n : Nat) (hg : o.Grows s.outside) : o.Grows (s.markedEntry n).outside := by
  simp [State.markedEntry, hg]

@[simp] theorem State.screenLine_grows (p l : Nat) (hg : o.Grows s.outside) : o.Grows (s.screenLine p l).outside := by
  unfold State.screenLine
  extract_lets c k s0 s1 env ws outs image s2 s3 s4 s5
  have h2 : s2.outside = s.outside := by simp [s2, s1, s0]
  have h3 : o.Grows s3.outside := foldl_grows _ (by rwa [h2]) fun s x hs => by simp [hs]
  have h5 : o.Grows s5.outside := by simp [s5, s4, h3]
  simp [h5]

/-! ### Machine/CfgOps.lean -/

@[simp] theorem State.aer_grows (b : Nat) (hg : o.Grows s.outside) : o.Grows (s.aer b).outside := by simp [State.aer, hg]

@[simp] theorem State.readFailed_grows (orPoison : Bool) (hg : o.Grows s.outside) : o.Grows (s.readFailed orPoison).outside := by
  simp [State.readFailed, hg]

/-! ### Machine/KilnRows.lean -/

@[simp] theorem State.refetchDone_grows (q y : Nat) (ok : Bool) (data : List MByte) (hg : o.Grows s.outside) :
    o.Grows (s.refetchDone q y ok data).outside := by simp [State.refetchDone, hg]

/-! ### Machine/HostOps.lean -/

@[simp] theorem State.pollFailed_grows (hg : o.Grows s.outside) : o.Grows s.pollFailed.outside := by simp [State.pollFailed, hg]

@[simp] theorem State.statusBlock_grows (hg : o.Grows s.outside) : o.Grows s.statusBlock.outside :=
  State.emit_grows _ _ _ _ (State.emit_grows _ _ _ _ (State.emit_grows s _ _ _ hg))

@[simp] theorem State.cmdFlush_grows (hg : o.Grows s.outside) : o.Grows s.cmdFlush.outside := by
  unfold State.cmdFlush
  repeat' split
  all_goals simp [hg]

@[simp] theorem State.flushHost_grows (hg : o.Grows s.outside) : o.Grows s.flushHost.outside := by simp [State.flushHost, hg]

@[simp] theorem State.cmdEnd_grows (slot stream status first tag : Nat) (hg : o.Grows s.outside) :
    o.Grows (s.cmdEnd slot stream status first tag).outside := by simp [State.cmdEnd, hg]

@[simp] theorem State.command_grows (raw : BitVec 256) (f : State → Nat → State × Option Nat) (hg : o.Grows s.outside)
    (hf : ∀ s n, o.Grows s.outside → o.Grows (f s n).1.outside) :
    o.Grows (s.command raw f).outside := by
  simp only [State.command]
  repeat' split
  all_goals simp [hg, hf]

@[simp] theorem State.reject_grows (st : Nat) (d : Desc) (code : Nat) (hg : o.Grows s.outside) : o.Grows (s.reject st d code).outside := by
  simp [State.reject, hg]

@[simp] theorem State.fetched_grows (st : Nat) (raw : BitVec 256) (f : State → Desc → State) (hg : o.Grows s.outside)
    (hf : ∀ s d, o.Grows s.outside → o.Grows (f s d).outside) :
    o.Grows (s.fetched st raw f).outside := by simp [State.fetched, hg, hf]

@[simp] theorem State.doneNow_grows (st : Nat) (d : Desc) (status first : Nat) (hg : o.Grows s.outside) :
    o.Grows (s.doneNow st d status first).outside := by simp [State.doneNow, hg]

/-! ### Machine/HostRows.lean -/

@[simp] theorem State.takeSummary_grows (line : Nat) (hg : o.Grows s.outside) : o.Grows (s.takeSummary line).outside := by
  simp [State.takeSummary, hg]

@[simp] theorem State.summaryDone_grows (ok : Bool) (line : Nat) (hg : o.Grows s.outside) : o.Grows (s.summaryDone ok line).outside := by
  simp [State.summaryDone, hg]

@[simp] theorem State.producerDone_grows (ok : Bool) (words : Nat) (hg : o.Grows s.outside) :
    o.Grows (s.producerDone ok words).outside := by simp [State.producerDone, hg]

@[simp] theorem State.dfetch_grows (st : Nat) (poisoned : Bool) (hg : o.Grows s.outside) : o.Grows (s.dfetch st poisoned).outside := by
  simp [State.dfetch, hg]

@[simp] theorem State.cqEnable_grows (q : Nat) (v : Word) (hg : o.Grows s.outside) : o.Grows (s.cqEnable q v).outside := by
  simp [State.cqEnable, hg]

@[simp] theorem State.streamEnable_grows (st : Nat) (v : Word) (hg : o.Grows s.outside) : o.Grows (s.streamEnable st v).outside := by
  simp [State.streamEnable, hg]

@[simp] theorem State.busMaster_grows (on : Bool) (hg : o.Grows s.outside) : o.Grows (s.busMaster on).outside := by
  simp [State.busMaster, hg]

@[simp] theorem State.statusPeriodEnd_grows (load : Nat) (backlog : Nat) (low : Bool) (hg : o.Grows s.outside) :
    o.Grows (s.statusPeriodEnd load backlog low).outside := by simp [State.statusPeriodEnd, hg]

/-! ### Machine/BandRows.lean -/

@[simp] theorem State.bandAccept_grows (st : Nat) (d : Desc) (hg : o.Grows s.outside) : o.Grows (s.bandAccept st d).outside := by
  simp [State.bandAccept, hg]

@[simp] theorem State.lineWait_grows (st : Nat) (d : Desc) (hg : o.Grows s.outside) : o.Grows (s.lineWait st d).outside := by
  simp [State.lineWait, hg]

@[simp] theorem State.stripAccept_grows (st : Nat) (d : Desc) (hg : o.Grows s.outside) : o.Grows (s.stripAccept st d).outside := by
  simp [State.stripAccept, hg]

@[simp] theorem State.tableData_grows (st : Nat) (ok : Bool) (data : List (BitVec 128)) (hg : o.Grows s.outside) :
    o.Grows (s.tableData st ok data).outside := by
  unfold State.tableData
  repeat' split
  all_goals simp [hg]

@[simp] theorem State.bandAdmit_grows (st : Nat) (hg : o.Grows s.outside) : o.Grows (s.bandAdmit st).outside := by
  unfold State.bandAdmit
  repeat' split
  all_goals simp [hg]

@[simp] theorem State.bandReady_grows (st : Nat) (d : Desc) (slack : Bool) (hg : o.Grows s.outside) :
    o.Grows (s.bandReady st d slack).outside := by simp [State.bandReady, hg]

@[simp] theorem State.bandTake_grows (st : Nat) (ok : Bool) (data : List MByte) (hg : o.Grows s.outside) :
    o.Grows (s.bandTake st ok data).outside := by
  simp only [State.bandTake]
  repeat' split
  all_goals simp [hg]

@[simp] theorem State.bandData_grows (st : Nat) (ok : Bool) (data : List MByte) (hg : o.Grows s.outside) :
    o.Grows (s.bandData st ok data).outside := by
  unfold State.bandData
  repeat' split
  all_goals simp [hg]

/-! ### Machine/TransOps.lean -/

@[simp] theorem State.passLost_grows (h n k : Nat) (hg : o.Grows s.outside) : o.Grows (s.passLost h n k).1.outside := by
  induction n generalizing s k with
  | zero => exact hg
  | succ n ih =>
    unfold State.passLost
    dsimp only
    split
    · exact ih _ _ (by simp [hg])
    · exact hg

@[simp] theorem State.releaseLost_grows (hg : o.Grows s.outside) : o.Grows s.releaseLost.outside := by
  simp +contextual [State.releaseLost, hg]

@[simp] theorem State.toApproach_grows (hg : o.Grows s.outside) : o.Grows s.toApproach.outside := by simp [State.toApproach, hg]
@[simp] theorem State.follow_grows (q : Nat) (hg : o.Grows s.outside) : o.Grows (s.follow q).outside := by simp [State.follow, hg]

@[simp] theorem State.pointBack_grows (h : Nat) (hg : o.Grows s.outside) : o.Grows (s.pointBack h).outside := by
  unfold State.pointBack
  dsimp only
  split
  · split
    · simp [hg]
    · simp +contextual [hg]
  · exact hg

@[simp] theorem State.twinResume_grows (hg : o.Grows s.outside) : o.Grows s.twinResume.outside := by simp +contextual [State.twinResume, hg]

/-! ### Machine/TransRows.lean -/

@[simp] theorem State.waitToApproach_grows (hg : o.Grows s.outside) : o.Grows s.waitToApproach.outside := by simp [State.waitToApproach, hg]

/-! ### Machine/JobOps.lean -/

@[simp] theorem State.recheckWaits_grows (hg : o.Grows s.outside) : o.Grows s.recheckWaits.outside :=
  State.flushAll_grows _ (foldl_grows _ hg fun _ _ h => foldl_grows _ h fun s d hs => State.lineWait_grows s _ d hs)

@[simp] theorem State.armSwap_grows (hg : o.Grows s.outside) : o.Grows s.armSwap.outside := by simp [State.armSwap, hg]

@[simp] theorem State.armJob_grows (seed : Nat) (hg : o.Grows s.outside) : o.Grows (s.armJob seed).outside := by
  unfold State.armJob
  extract_lets
  refine State.flushHost_grows _ (State.recheckWaits_grows _ ?_)
  simp +zetaDelta [hg]

@[simp] theorem State.armNow_grows (seed : Nat) (hg : o.Grows s.outside) : o.Grows (s.armNow seed).outside := by simp [State.armNow, hg]
@[simp] theorem State.returnCut_grows (hg : o.Grows s.outside) : o.Grows s.returnCut.outside := by simp [State.returnCut, hg]
@[simp] theorem State.jobEnd_grows (hg : o.Grows s.outside) : o.Grows s.jobEnd.outside := by simp [State.jobEnd, hg]

/-! ### Machine/CordOps.lean -/

@[simp] theorem State.ringSend_grows (r kind : Nat) (body : List Nat) (hg : o.Grows s.outside) :
    o.Grows (s.ringSend r kind body).outside := by simp [State.ringSend, hg]

@[simp] theorem State.forward_grows (h : Hdr) (kind : Nat) (body : List Nat) (hg : o.Grows s.outside) :
    o.Grows (s.forward h kind body).outside := by simp [State.forward, hg]

@[simp] theorem State.originate_grows (r kind : Nat) (body : List Nat) (hg : o.Grows s.outside) :
    o.Grows (s.originate r kind body).outside := by simp [State.originate, hg]

@[simp] theorem State.originTaken_grows (w : Word) (t lam : Int) (hg : o.Grows s.outside) : o.Grows (s.originTaken w t lam).outside := by
  simp [State.originTaken, hg]

@[simp] theorem State.sendReport_grows (hg : o.Grows s.outside) : o.Grows s.sendReport.outside := by simp [State.sendReport, hg]
@[simp] theorem State.sendState_grows (hg : o.Grows s.outside) : o.Grows s.sendState.outside := by simp [State.sendState, hg]

/-! ### Machine/CordRows.lean -/

@[simp] theorem State.discover_grows (h : Hdr) (mine crossed : Bool) (expect : Nat) (hg : o.Grows s.outside) :
    o.Grows (s.discover h mine crossed expect).outside := by simp [State.discover, hg]

@[simp] theorem State.probeOut_grows (l : Nat) (hg : o.Grows s.outside) : o.Grows (s.probeOut l).outside := by simp [State.probeOut, hg]
@[simp] theorem State.discoverOut_grows (hg : o.Grows s.outside) : o.Grows s.discoverOut.outside := by simp [State.discoverOut, hg]

@[simp] theorem State.discoverTimer_grows (hg : o.Grows s.outside) : o.Grows s.discoverTimer.outside := by
  unfold State.discoverTimer
  split
  · exact hg
  · exact State.probeOut_grows _ _ (State.probeOut_grows _ _ (State.discoverOut_grows _ hg))

@[simp] theorem State.probe_grows (l : Nat) (hg : o.Grows s.outside) : o.Grows (s.probe l).outside := by simp [State.probe, hg]
@[simp] theorem State.syncTimer_grows (hg : o.Grows s.outside) : o.Grows s.syncTimer.outside := by simp [State.syncTimer, hg]

@[simp] theorem State.sync_grows (h : Hdr) (time frac : Nat) (hg : o.Grows s.outside) : o.Grows (s.sync h time frac).outside := by
  simp [State.sync, hg]

@[simp] theorem State.oreqTimer_grows (hg : o.Grows s.outside) : o.Grows s.oreqTimer.outside := by simp [State.oreqTimer, hg]

@[simp] theorem State.oreq_grows (h : Hdr) (job : Word) (hg : o.Grows s.outside) : o.Grows (s.oreq h job).outside := by
  simp [State.oreq, hg]

@[simp] theorem State.osnap_grows (h : Hdr) (job w : Word) (map : Nat) (hg : o.Grows s.outside) :
    o.Grows (s.osnap h job w map).outside := by simp [State.osnap, hg]

@[simp] theorem State.snapshotDue_grows (hg : o.Grows s.outside) : o.Grows s.snapshotDue.outside := by
  unfold State.snapshotDue
  repeat' split
  all_goals simp [hg]

@[simp] theorem State.origin_grows (h : Hdr) (job w : Word) (line frac : Nat) (valid : Bool) (hg : o.Grows s.outside) :
    o.Grows (s.origin h job w line frac valid).outside := by
  simp only [State.origin]
  repeat' split
  all_goals simp [hg]

@[simp] theorem State.bcast_grows (h : Hdr) (msg map : Nat) (hg : o.Grows s.outside) : o.Grows (s.bcast h msg map).outside := by
  simp [State.bcast, hg]

@[simp] theorem State.bsend_grows (hg : o.Grows s.outside) : o.Grows s.bsend.outside := by simp [State.bsend, hg]
@[simp] theorem State.gatherOn_grows (g : Gather) (hg : o.Grows s.outside) : o.Grows (s.gatherOn g).outside := by simp [State.gatherOn, hg]

@[simp] theorem State.enter_grows (id : Nat) (hg : o.Grows s.outside) : o.Grows (s.enter id).outside := by
  simp only [State.enter]
  repeat' split
  all_goals simp [hg]

@[simp] theorem State.gather_grows (g : Gather) (hg : o.Grows s.outside) : o.Grows (s.gather g).outside := by simp [State.gather, hg]

@[simp] theorem State.releaseFrame_grows (h : Hdr) (id : Nat) (mm : Bool) (hg : o.Grows s.outside) :
    o.Grows (s.releaseFrame h id mm).outside := by simp [State.releaseFrame, hg]

@[simp] theorem State.schedGo_grows (v : Word) (hg : o.Grows s.outside) : o.Grows (s.schedGo v).outside := by simp [State.schedGo, hg]

@[simp] theorem State.sched_grows (h : Hdr) (kind : Nat) (w : Word) (map : Nat) (hg : o.Grows s.outside) :
    o.Grows (s.sched h kind w map).outside := by simp [State.sched, hg]

@[simp] theorem State.trnrep_grows (h : Hdr) (job : Word) (armed : Bool) (g causes back : Nat) (ready : Bool) (hg : o.Grows s.outside) :
    o.Grows (s.trnrep h job armed g causes back ready).outside := by simp [State.trnrep, hg]

@[simp] theorem State.trnrepTimer_grows (hg : o.Grows s.outside) : o.Grows s.trnrepTimer.outside := by simp [State.trnrepTimer, hg]

@[simp] theorem State.trnstate_grows (h : Hdr) (q count : Nat) (hg : o.Grows s.outside) : o.Grows (s.trnstate h q count).outside := by
  simp [State.trnstate, hg]

@[simp] theorem State.trnstateTimer_grows (hg : o.Grows s.outside) : o.Grows s.trnstateTimer.outside := by simp [State.trnstateTimer, hg]

/-! ### Machine/PowerOps.lean -/

@[simp] theorem State.jobOver_grows (hg : o.Grows s.outside) : o.Grows s.jobOver.outside := by simp [State.jobOver, hg]

/-! ### Machine/PowerRows.lean -/

@[simp] theorem State.d0Return_grows (hg : o.Grows s.outside) : o.Grows s.d0Return.outside := by simp [State.d0Return, hg]

/-! ### Machine/JobRows.lean -/

theorem State.armCheck_outside {c : Nat × State} (h : s.armCheck = some c) : c.2.outside = s.outside := by
  unfold State.armCheck at h
  repeat' split at h
  all_goals cases h
  all_goals simp

@[simp] theorem State.armCmd_grows (raw : BitVec 256) (hg : o.Grows s.outside) : o.Grows (s.armCmd raw).1.outside := by
  unfold State.armCmd
  extract_lets s0
  have h0 : o.Grows s0.outside := by simp [s0, hg]
  split
  · next c s1 hc => rwa [State.armCheck_outside _ hc]
  · simp [h0]

@[simp] theorem State.jobDone_grows (hg : o.Grows s.outside) : o.Grows s.jobDone.outside := by simp [State.jobDone, hg]

@[simp] theorem State.disarmCmd_grows (raw : BitVec 256) (slot : Nat) (hg : o.Grows s.outside) :
    o.Grows (s.disarmCmd raw slot).1.outside := by
  unfold State.disarmCmd
  repeat' split
  all_goals simp [hg]

@[simp] theorem State.disarmDone_grows (hg : o.Grows s.outside) : o.Grows s.disarmDone.outside := by
  unfold State.disarmDone
  repeat' split
  all_goals simp [hg]

/-! ### Machine/HptOps.lean -/

@[simp] theorem State.countSeen_grows (h : Nat) (hg : o.Grows s.outside) : o.Grows (s.countSeen h).outside := by simp [State.countSeen, hg]

@[simp] theorem State.countTo_grows (h l n : Nat) (hg : o.Grows s.outside) : o.Grows (s.countTo h l n).outside := by
  induction n generalizing s with
  | zero => exact hg
  | succ n ih => simp [State.countTo, ih, hg]

@[simp] theorem State.seenFired_grows (h l : Nat) (hg : o.Grows s.outside) : o.Grows (s.seenFired h l).outside := by
  simp [State.seenFired, hg]

@[simp] theorem State.pairReturn_grows (h l bits trailer : Nat) (zero : Bool) (hg : o.Grows s.outside) :
    o.Grows (s.pairReturn h l bits trailer zero).outside := by
  simp only [State.pairReturn]
  repeat' split
  all_goals simp [hg]

@[simp] theorem State.pairObs_grows (h : Nat) (lat : Bool) (hg : o.Grows s.outside) : o.Grows (s.pairObs h lat).outside := by
  simp only [State.pairObs]
  repeat' split
  all_goals simp [hg]

/-! ### Machine/HptRows.lean -/

@[simp] theorem State.driveReturn_grows (h bits trailer : Nat) (hg : o.Grows s.outside) :
    o.Grows (s.driveReturn h bits trailer).outside := by
  simp only [State.driveReturn]
  repeat' split
  all_goals simp [hg]

@[simp] theorem State.obsReturn_grows (h bits trailer : Nat) (hg : o.Grows s.outside) : o.Grows (s.obsReturn h bits trailer).outside := by
  simp [State.obsReturn, hg]

@[simp] theorem State.returned_grows (h bits : Nat) (trailer : Trailer) (hg : o.Grows s.outside) :
    o.Grows (s.returned h bits trailer).outside := by
  unfold State.returned
  repeat' split
  all_goals simp [hg]

@[simp] theorem State.retstWrite_grows (h : Nat) (v : Word) (hg : o.Grows s.outside) : o.Grows (s.retstWrite h v).outside := by
  simp [State.retstWrite, hg]

@[simp] theorem State.modeHandover_grows (h : Nat) (hg : o.Grows s.outside) : o.Grows (s.modeHandover h).outside := by
  unfold State.modeHandover
  repeat' split
  all_goals simp [hg]

@[simp] theorem State.latSeen_grows (h : Nat) (hg : o.Grows s.outside) : o.Grows (s.latSeen h).outside := by
  simp only [State.latSeen]
  repeat' split
  all_goals simp [hg]

@[simp] theorem State.fireSeen_grows (h : Nat) (hg : o.Grows s.outside) : o.Grows (s.fireSeen h).outside := by
  simp only [State.fireSeen]
  repeat' split
  all_goals simp [hg]

@[simp] theorem State.tempRead_grows (h : Nat) (ok : Bool) (v : Nat) (hg : o.Grows s.outside) : o.Grows (s.tempRead h ok v).outside := by
  simp [State.tempRead, hg]

@[simp] theorem State.tempStale_grows (h : Nat) (hg : o.Grows s.outside) : o.Grows (s.tempStale h).outside := by simp [State.tempStale, hg]

/-! ### Machine/TwinRows.lean -/

@[simp] theorem State.resend_grows (hg : o.Grows s.outside) : o.Grows s.resend.outside := by
  unfold State.resend
  repeat' split
  all_goals simp [hg]

@[simp] theorem State.recv_grows (h : LinkHdr) (f : State → State) (hg : o.Grows s.outside) (hf : ∀ s, o.Grows s.outside → o.Grows
    (f s).outside) :
    o.Grows (s.recv h f).outside := by simp [State.recv, hg, hf]

@[simp] theorem State.hello_grows (m : Hello) (hg : o.Grows s.outside) : o.Grows (s.hello m).outside := by simp [State.hello, hg]

@[simp] theorem State.takeover_grows (hg : o.Grows s.outside) : o.Grows s.takeover.outside := by
  unfold State.takeover
  split
  · exact hg
  · extract_lets failed s1 s2 s3 pos s4 s5
    have h2 : o.Grows s2.outside := by simp [s2, s1, hg]
    have h3 : o.Grows s3.outside := by simp [s3, h2]
    have h5 : o.Grows s5.outside := by simp [s5, s4, h3]
    simp [h5]

@[simp] theorem State.proposeIn_grows (purpose mask prop arg : Nat) (hg : o.Grows s.outside) :
    o.Grows (s.proposeIn purpose mask prop arg).outside := by
  unfold State.proposeIn
  repeat' split
  all_goals simp [hg]

@[simp] theorem State.entriesTimer_grows (hg : o.Grows s.outside) : o.Grows s.entriesTimer.outside := by simp [State.entriesTimer, hg]

@[simp] theorem State.firedIn_grows (p l : Nat) (v : Word) (hg : o.Grows s.outside) : o.Grows (s.firedIn p l v).outside := by
  simp [State.firedIn, hg]

@[simp] theorem State.entryIn_grows (e : BitVec 96) (hg : o.Grows s.outside) : o.Grows (s.entryIn e).outside := by simp [State.entryIn, hg]

@[simp] theorem State.entriesIn_grows (f : EntryFrame) (hg : o.Grows s.outside) : o.Grows (s.entriesIn f).outside := by
  simp +contextual [State.entriesIn, hg]

@[simp] theorem State.embresIn_grows (r : EmbRes) (hg : o.Grows s.outside) : o.Grows (s.embresIn r).outside := by
  unfold State.embresIn
  repeat' split
  all_goals simp [hg]

@[simp] theorem State.sendRank_grows (p : Nat) (hg : o.Grows s.outside) : o.Grows (s.sendRank p).outside := by
  simp +contextual [State.sendRank, hg]

@[simp] theorem State.sendRecords_grows (hg : o.Grows s.outside) : o.Grows s.sendRecords.outside := by
  simp +contextual [State.sendRecords, hg]

@[simp] theorem State.helloTimer_grows (done : Bool) (hg : o.Grows s.outside) : o.Grows (s.helloTimer done).outside := by
  simp [State.helloTimer, hg]

@[simp] theorem State.joinWrite_grows (hg : o.Grows s.outside) : o.Grows s.joinWrite.outside := by simp [State.joinWrite, hg]

@[simp] theorem State.joinIn_grows (seed jobid cons : Word) (ws : List (BitVec 96)) (hg : o.Grows s.outside) :
    o.Grows (s.joinIn seed jobid cons ws).outside := by
  unfold State.joinIn
  extract_lets tw s0 s1
  have h0 : s0.outside = s.outside := by simp [s0]
  split
  · next c s' hc =>
    have h' : s'.outside = s0.outside := State.armCheck_outside s0 hc
    simp [h', h0, hg]
  · simp [s1, h0, hg]

@[simp] theorem State.override_grows (bad : State → Bool) (f : State → State) (hg : o.Grows s.outside)
    (hf : ∀ s, o.Grows s.outside → o.Grows (f s).outside) :
    o.Grows (s.override bad f).outside := by simp [State.override, hg, hf]

@[simp] theorem State.overStandby_grows (hg : o.Grows s.outside) : o.Grows s.overStandby.outside := by
  simp +contextual [State.overStandby, hg]

@[simp] theorem State.overOut_grows (hg : o.Grows s.outside) : o.Grows s.overOut.outside := by simp +contextual [State.overOut, hg]

/-! ### Machine/InsOps.lean -/

@[simp] theorem State.frameStats_grows (c : Nat) (fr : CamFrame) (hg : o.Grows s.outside) : o.Grows (s.frameStats c fr).outside := by
  simp +contextual [State.frameStats, hg]

@[simp] theorem State.frameDone_grows (c : Nat) (hg : o.Grows s.outside) : o.Grows (s.frameDone c).outside := by
  unfold State.frameDone
  repeat' split
  all_goals simp [hg]

/-! ### Machine/FindOps.lean -/

@[simp] theorem State.batchSend_grows (e n : Nat) (ws : List AutoWr) (hg : o.Grows s.outside) : o.Grows (s.batchSend e n ws).outside := by
  induction n generalizing s ws with
  | zero => exact hg
  | succ n ih =>
    cases ws with
    | nil => exact hg
    | cons w ws => simp [State.batchSend, ih, hg]

@[simp] theorem State.findWrite_grows (c : Nat) (f : Finding) (n : Option Nat) (act : Nat) (ws : List Want) (hg : o.Grows s.outside) :
    o.Grows (s.findWrite c f n act ws).outside := by simp [State.findWrite, hg]

@[simp] theorem State.finding_grows (c : Nat) (f : Finding) (hg : o.Grows s.outside) : o.Grows (s.finding c f).outside := by
  simp only [State.finding]
  repeat' split
  all_goals simp [hg]

@[simp] theorem State.stripSummary_grows (c m : Nat) (hg : o.Grows s.outside) : o.Grows (s.stripSummary c m).outside := by
  unfold State.stripSummary
  repeat' split
  all_goals simp [hg]

/-! ### Machine/InsRows.lean -/

@[simp] theorem State.inspectionBatch_grows (c busy backlog : Nat) (fs : List Finding) (measured : Option (BitVec 32))
    (rows : List (Fin 128 × BitVec 38)) (hg : o.Grows s.outside) : o.Grows (s.inspectionBatch c busy backlog fs measured rows).outside := by
  unfold State.inspectionBatch
  extract_lets s0 s1
  have h1 : o.Grows s1.outside := foldl_grows _ (by simp [s0, hg]) fun s f hs => by simp [hs]
  split
  · simp [s0, hg]
  · split <;> simp [h1]

/-! ### Machine/SvcRows.lean -/

@[simp] theorem State.rankEnd_grows (ok : Bool) (hg : o.Grows s.outside) : o.Grows (s.rankEnd ok).outside := by simp [State.rankEnd, hg]

@[simp] theorem State.mailboxEnd_grows (wrseal sig ok : Bool) (data : List Byte) (hg : o.Grows s.outside) :
    o.Grows (s.mailboxEnd wrseal sig ok data).outside := by
  unfold State.mailboxEnd
  repeat' split
  all_goals simp [hg]

/-! ### Machine/RegWrites.lean -/

@[simp] theorem State.hifWrite_grows (a : Nat) (r : RegRow) (m v : Word) (hg : o.Grows s.outside) :
    o.Grows (s.hifWrite a r m v).outside := by
  unfold State.hifWrite
  repeat' split
  all_goals simp [hg]

@[simp] theorem State.strWrite_grows (a : Nat) (r : RegRow) (m v : Word) (hg : o.Grows s.outside) :
    o.Grows (s.strWrite a r m v).outside := by
  unfold State.strWrite
  repeat' split
  all_goals simp [hg]

@[simp] theorem State.portWrite_grows (h k a : Nat) (r : RegRow) (m v : Word) (hearth : Bool) (hg : o.Grows s.outside) :
    o.Grows (s.portWrite h k a r m v hearth).outside := by simp [State.portWrite, hg]

@[simp] theorem State.hptWrite_grows (a : Nat) (r : RegRow) (m v : Word) (hearth : Bool) (hg : o.Grows s.outside) :
    o.Grows (s.hptWrite a r m v hearth).outside := by simp [State.hptWrite, hg]

@[simp] theorem State.crdWrite_grows (a : Nat) (r : RegRow) (m v : Word) (hg : o.Grows s.outside) :
    o.Grows (s.crdWrite a r m v).outside := by simp [State.crdWrite, hg]

@[simp] theorem State.twinCtl_grows (m v : Word) (hg : o.Grows s.outside) : o.Grows (s.twinCtl m v).outside := by simp [State.twinCtl, hg]

@[simp] theorem State.overWrite_grows (x : Nat) (hearth : Bool) (hg : o.Grows s.outside) : o.Grows (s.overWrite x hearth).outside := by
  simp [State.overWrite, hg]

@[simp] theorem State.twnWrite_grows (a : Nat) (r : RegRow) (m v : Word) (hearth : Bool) (hg : o.Grows s.outside) :
    o.Grows (s.twnWrite a r m v hearth).outside := by simp [State.twnWrite, hg]

@[simp] theorem State.untWrite_grows (a : Nat) (r : RegRow) (m v : Word) (hg : o.Grows s.outside) :
    o.Grows (s.untWrite a r m v).outside := by simp [State.untWrite, hg]

@[simp] theorem State.regWrite_grows (a : Nat) (r : RegRow) (m v : Word) (off len : Nat) (hearth : Bool) (hg : o.Grows s.outside) :
    o.Grows (s.regWrite a r m v off len hearth).outside := by simp [State.regWrite, hg]

/-! ### Machine/RegRows.lean -/

@[simp] theorem State.write32_grows (a len v : Nat) (hearth : Bool) (hg : o.Grows s.outside) :
    o.Grows (s.write32 a len v hearth).outside := by
  unfold State.write32
  repeat' split
  all_goals simp [hg]

@[simp] theorem State.bar0Write_grows (a len v : Nat) (hearth : Bool) (hg : o.Grows s.outside) :
    o.Grows (s.bar0Write a len v hearth).outside := by simp [State.bar0Write, hg]

@[simp] theorem State.cfgWrite_grows (a : Nat) (m v : Word) (hg : o.Grows s.outside) : o.Grows (s.cfgWrite a m v).outside := by
  simp [State.cfgWrite, hg]

@[simp] theorem State.cfgAccess_grows (a len v : Nat) (hg : o.Grows s.outside) : o.Grows (s.cfgAccess a len v).outside := by
  simp [State.cfgAccess, hg]

@[simp] theorem State.accessAt_grows (t a : Nat) (f : State → State) (hg : o.Grows s.outside)
    (hf : ∀ s, o.Grows s.outside → o.Grows (f s).outside) : o.Grows (s.accessAt t a f).outside := by
  unfold State.accessAt
  split
  · next h =>
    have ht := ((State.stepAfter_iff s t a).1 h).2.1
    simp [hf, State.goOn_grows s t hg (by omega)]
  · simp [hf, hg]

end Sys2Proof.Machine
end

section
namespace Sys2Proof.Machine
open Sys2Proof

@[simp] theorem State.trained_outside (s : State) (h : Nat) (f : TrainFound) (n : Nat) : (s.trained h f n).outside = s.outside := by
  induction n generalizing s with
  | zero => rfl
  | succ n ih =>
    unfold State.trained
    repeat' split
    all_goals simp [ih]

/-- What a command does, where its bytes spell its own row, takes nothing back. The cases apart are those whose meaning branches on an optional
value or nests a block's guard; in every other one the operations follow one another. -/
theorem exec_grows_ofRow {o : Outside} (c : Instr) {s : State} (hg : o.Grows s.outside) :
    ∃ t, exec c s = ofRow (rowCheck c).1 (rowCheck c).2 t ∧ o.Grows t.outside := by
  have ha : ∀ t, o.Grows (s.advance t).outside := fun t => State.advance_grows s t hg
  cases c
  all_goals refine ⟨_, rfl, ?_⟩
  case band => exact State.fetched_grows _ _ _ _ hg fun s d hs => by split <;> simp [hs]
  case strip => exact State.fetched_grows _ _ _ _ hg fun s d hs => by split <;> simp [hs]
  case tablePortWaitEnd => split <;> simp [hg]
  case lineScreen => split <;> simp [hg]
  case embreqBurst => exact State.bar_grows _ _ _ hg fun s hs => hs
  case camFfdataAccess => split <;> simp [ha]
  case joinFrame => exact State.recv_grows _ _ _ (ha _) fun s hs => by simp +contextual [hs]
  case registerWrite t a len v hearth =>
    have hw := State.accessAt_grows s t a.off.toNat _ hg fun u hu => State.byWriter_grows u hearth _ hu fun w hw =>
      State.bar0Write_grows w a.off.toNat len v.toNat hearth hw
    simp [ha, hw]
  all_goals simp +contextual [hg, ha]

theorem exec_grows {o : Outside} {c : Instr} {s t : State} (h : exec c s = .next t) (hg : o.Grows s.outside) : o.Grows t.outside := by
  obtain ⟨u, hu, hgu⟩ := exec_grows_ofRow c hg
  rw [hu, ofRow] at h
  split at h
  · cases h; exact hgu
  · cases h

/-- A step lets time go on and takes back nothing that has left the chip. -/
theorem step_grows {s t : State} (h : step s = .next t) : s.clk ≤ t.clk ∧ s.out <+: t.out ∧ s.sent <+: t.sent := by
  unfold step at h
  split at h
  · cases h
    exact (State.tick_grows s (.refl _)).2.2
  · next c cs _ => exact (exec_grows h (.refl ({ s with pending := cs } : State).outside)).2.2

theorem State.le_clk_advance (s : State) (t : Nat) : t ≤ (s.advance t).clk := by
  unfold State.advance
  split
  · assumption
  · extract_lets s1
    split
    · assumption
    · exact Nat.le_refl t

/-- A tick moves the clock on. -/
theorem State.clk_lt_tick (s : State) : s.clk < s.tick.clk := by
  have h := s.le_clk_advance (s.clk + if s.awake then 1 else 25)
  have hp : 0 < if s.awake then 1 else 25 := by split <;> decide
  exact Nat.lt_of_lt_of_le (Nat.lt_add_of_pos_right hp) h

/-- Settles O7: every operation of the model only adds to what lies outside the chip's own state, and a tick moves the clock. -/
theorem timeAndOutputOnlyGrow : Obligations.TimeAndOutputOnlyGrow := by
  refine ⟨fun s t h => (step_grows h).1, fun s t hp h => ?_, fun s t h => ?_⟩
  · simp only [step, hp, Host.Outcome.next.injEq] at h
    exact h ▸ s.clk_lt_tick
  · obtain ⟨-, ⟨l, hl⟩, ⟨m, hm⟩⟩ := step_grows h
    exact ⟨⟨l, hl.symm⟩, ⟨m, hm.symm⟩⟩

end Sys2Proof.Machine
end

section
namespace Sys2Proof.Machine
open Sys2Proof

/-- The core clock runs in Run and Ready, whose codes in PWR_STAT are 0 and 1 (R289). -/
theorem State.awake_iff (s : State) : s.awake = true ↔ s.fld PWR_STAT_STATE ≤ 1 := decide_eq_true_iff

theorem step_eq_tick_of_pending_nil {s : State} (h : s.pending = []) : step s = .next s.tick := by
  simp only [step, h]

/-- A tick of the core clock. -/
theorem State.tick_of_awake {s : State} (h : s.awake = true) : s.tick = s.advance (s.clk + 1) := by
  rw [State.tick, if_pos h]

/-- A tick of the AON clock, which Smoulder and Banked leave running. -/
theorem State.tick_of_not_awake {s : State} (h : ¬s.awake = true) : s.tick = s.advance (s.clk + 25) := by
  rw [State.tick, if_neg h]

/-- Settles O2: an idle step is a tick, whose length is that of the clock that runs in the power state. -/
theorem emptyQueueTicks : Obligations.EmptyQueueTicks := by
  intro s hp
  rw [step_eq_tick_of_pending_nil hp]
  refine ⟨fun hst => ?runReady, fun hst => ?smoulderBanked⟩
  case runReady => rw [State.tick_of_awake (s.awake_iff.2 hst)]
  case smoulderBanked => rw [State.tick_of_not_awake (mt s.awake_iff.1 (Nat.not_le.2 hst))]

end Sys2Proof.Machine
end

section
/-! PROOF. Unit operation records at the front of the table update port: which is served, judged, accepted or refused (R38 to R40, R45). -/

namespace Sys2Proof.Machine
open Sys2Proof

/-! ### The code of a record -/

/-- A record's code is its first byte, read from the list of bytes or from the 128-bit form. -/
theorem uCode_rawOp (bs : List Byte) : uCode (rawOp bs) = rCode bs := by
  cases bs with
  | nil => rfl
  | cons b bs =>
    have hb := b.isLt
    simp only [uCode, rawOp, bytesAt, bitsOf, rCode, byteOf, List.take_succ_cons, leNat, BitVec.toNat_ofNat, Nat.mul_zero, Nat.mul_one,
      Nat.shiftRight_zero, List.getElem?_cons_zero, Option.getD_some]
    omega

theorem codeReserved_iff (c : Nat) :
    codeReserved c = true ↔ c = 0 ∨ (10 ≤ c ∧ c ≠ 0x40 ∧ c ≠ 0x41 ∧ c ≠ 0x44 ∧ c ≠ 0x45 ∧ c ≠ 0x46) := by
  simp [codeReserved, and_assoc]

/-- No unit operation has a reserved code, so R40 answers BADOP before any other check. -/
theorem State.judgeOp_of_codeReserved (s : State) {bs : List Byte} (h : codeReserved (rCode bs) = true) :
    s.judgeOp (rawOp bs) = some erBADOP := by
  have hc : uKnown (rawOp bs) = false := by
    rw [codeReserved_iff] at h
    simp only [uKnown, uCode_rawOp, Bool.and_eq_false_iff, decide_eq_false_iff_not]
    omega
  simp [State.judgeOp, hc, erBADOP]

/-! ### Serving the record at the front -/

section
variable {s : State} {r : PortReq} {l : List PortReq}

theorem State.portPop_of_cons (hq : s.portQ = r :: l) : s.portPop = { s with portQ := l } := by
  simp [State.portPop, hq]

theorem State.serveOp_of_accepted (hq : s.portQ = r :: l) (hj : s.judgeOp (rawOp r.bytes) = none) :
    s.serveOp r = (({ s with portQ := l } : State).opAccept
      ⟨uUnit (rawOp r.bytes), uCode (rawOp r.bytes), uLine (rawOp r.bytes), uArg (rawOp r.bytes)⟩).portResult r.src 0 := by
  simp only [State.serveOp, hj, State.portPop_of_cons hq]

theorem State.serveOp_of_refused {e : Nat} (hq : s.portQ = r :: l) (hj : s.judgeOp (rawOp r.bytes) = some e) :
    s.serveOp r = (({ s with portQ := l } : State).unitErr e (uUnit (rawOp r.bytes))).portResult r.src e := by
  simp only [State.serveOp, hj, State.portPop_of_cons hq]

theorem State.serveOpIf_of_code {c : Nat} (hq : s.portQ = r :: l) (hc : rCode r.bytes = c) : s.serveOpIf (fun k => k == c) = s.serveOp r := by
  simp [State.serveOpIf, hq, hc]

/-- With a record of another code at the front, or none, an operation's command changes nothing. -/
theorem State.serveOpIf_of_ne {c d : Nat} (h : s.portQ = [] ∨ ∃ r l, s.portQ = r :: l ∧ rCode r.bytes = c) (hd : c ≠ d) :
    s.serveOpIf (fun k => k == d) = s := by
  obtain hq | ⟨r, l, hq, hc⟩ := h
  · simp [State.serveOpIf, hq]
  · simp [State.serveOpIf, hq, hc, hd]

theorem State.serveBadop_of_nil (hq : s.portQ = []) : s.serveBadop = s := by simp [State.serveBadop, hq]

theorem State.serveBadop_of_defined (hq : s.portQ = r :: l) (hc : codeReserved (rCode r.bytes) = false) : s.serveBadop = s := by
  simp [State.serveBadop, hq, hc]

/-- A reserved code of 40h to 7Fh is that of a table record. -/
theorem State.serveBadop_of_table (hq : s.portQ = r :: l) (hc : codeReserved (rCode r.bytes) = true) (h1 : 0x40 ≤ rCode r.bytes)
    (h2 : rCode r.bytes < 0x80) : s.serveBadop = ({ s with portQ := l } : State).portRefuse r erBADOP (rIndex r.bytes) := by
  simp only [State.serveBadop, hq, hc, h1, h2, and_self, if_true, State.portPop_of_cons hq]

/-- Any other reserved code is judged as a unit operation. -/
theorem State.serveBadop_of_unit (hq : s.portQ = r :: l) (hc : codeReserved (rCode r.bytes) = true)
    (hr : rCode r.bytes < 0x40 ∨ 0x80 ≤ rCode r.bytes) :
    s.serveBadop = (({ s with portQ := l } : State).unitErr erBADOP (uUnit (rawOp r.bytes))).portResult r.src erBADOP := by
  have hn : ¬(0x40 ≤ rCode r.bytes ∧ rCode r.bytes < 0x80) := by omega
  simp only [State.serveBadop, hq, hc, if_true, if_neg hn]
  exact State.serveOp_of_refused hq (s.judgeOp_of_codeReserved hc)

end

/-! ### The accepted operations -/

/-- A fold of steps that leave the accepted operations leaves them. -/
theorem foldl_uops {β : Type} {f : State → β → State} (hf : ∀ s x, (f s x).uops = s.uops) (l : List β) (s : State) :
    (l.foldl f s).uops = s.uops :=
  List.foldlRecOn (motive := fun t => t.uops = s.uops) l f rfl fun t ht x _ => (hf t x).trans ht

@[simp] theorem State.ownWrite_uops (s : State) (o : UOp) : (s.ownWrite o).uops = s.uops := by
  unfold State.ownWrite
  split <;> rfl

@[simp] theorem State.tileBack_uops (s : State) (hs : List Nat) (n : Nat) : (s.tileBack hs n).uops = s.uops :=
  foldl_uops (f := fun s h => s.modHead h fun x => { x with tileTo := min x.tileTo n }) (fun _ _ => rfl) hs s

@[simp] theorem State.flushNow_uops (s old : State) (h : Nat) : (s.flushNow old h).uops = s.uops := by
  unfold State.flushNow
  extract_lets
  split <;> rfl

/-- An accepted operation joins the accepted ones: of what acceptance does, nothing else touches them. -/
theorem State.opAccept_uops (s : State) (o : UOp) : (s.opAccept o).uops = s.uops ++ [o] := by
  unfold State.opAccept
  rw [foldl_uops fun t h => t.flushNow_uops s h]
  simp only [apply_ite State.uops, State.tileBack_uops, State.ownWrite_uops, ite_self]

/-- Settles O16: each command serves the record at the front where its code is the command's own, and the record's judgement says how. -/
theorem unitRecordsRun : Obligations.UnitRecordsRun := by
  have front : ∀ {s v : State} {r : PortReq} {l : List PortReq}, s.portQ = r :: l → s.serveOp r = v → ∀ c, rCode r.bytes = c →
      (.next (s.serveOpIf (fun k => k == c)) : Out) = .next v :=
    fun hq hv c hc => congrArg _ ((State.serveOpIf_of_code hq hc).trans hv)
  refine ⟨?accepted, ?refused, ?others, State.opAccept_uops, ?badTable, ?defined, ?badUnit, ?empty, fun c _ => codeReserved_iff c⟩
  case accepted =>
    intro s p v r l hq hj hp hv
    have h := front hq ((State.serveOp_of_accepted hq hj).trans (hp ▸ hv))
    exact ⟨h 1, h 2, h 3, h 4, h 5, h 6, h 7, h 8, h 9⟩
  case refused =>
    intro s v r l e hq hj hv
    have h := front hq ((State.serveOp_of_refused hq hj).trans hv)
    exact ⟨h 1, h 2, h 3, h 4, h 5, h 6, h 7, h 8, h 9⟩
  case others =>
    intro s c hq
    have h : ∀ d, c ≠ d → (.next (s.serveOpIf (fun k => k == d)) : Out) = .next s :=
      fun d hd => congrArg _ (State.serveOpIf_of_ne hq hd)
    exact ⟨h 1, h 2, h 3, h 4, h 5, h 6, h 7, h 8, h 9⟩
  case badTable => exact fun s r l hq hc h1 h2 => congrArg _ (State.serveBadop_of_table hq hc h1 h2)
  case defined => exact fun s r l hq hc => congrArg _ (State.serveBadop_of_defined hq hc)
  case badUnit => exact fun s r l hq hc hr => congrArg _ (State.serveBadop_of_unit hq hc hr)
  case empty => exact fun s hq => congrArg _ (State.serveBadop_of_nil hq)

end Sys2Proof.Machine
end

section
/-! PROOF. UNIT_OPERATION_EFFECT: the effective registers of a head take the values of its chain at the line it prints next, and nothing that
follows them touches these registers, the accepted operations or the tables (R33, R39, R44). -/

namespace Sys2Proof.Machine
open Sys2Proof

/-! ### What the effect of a unit operation leaves -/

/-- What UNIT_OPERATION_EFFECT says of head unit `h`: its effective enable and hold, delay and cross-web offset, beside the accepted
operations and the tables. -/
structure EffView where
  ctl  : Word
  dw   : Word
  x    : Word
  uops : List UOp
  tabs : Tables

def State.effView (h : Nat) (s : State) : EffView := ⟨s.reg (UNT_EFFCTL h), s.reg (UNT_EFFDW h), s.reg (UNT_EFFX h), s.uops, s.tabs⟩

@[simp] theorem State.effView_ite (h : Nat) (c : Prop) [Decidable c] (a b : State) :
    (if c then a else b).effView h = if c then a.effView h else b.effView h := apply_ite _ _ _ _

theorem State.setReg_effView {h a : Nat} (s : State) (v : Word) (ha : a < UNT_EFFCTL h ∨ UNT_EFFX h < a) :
    (s.setReg a v).effView h = s.effView h := by
  have h1 : UNT_EFFCTL h ≠ a := by simp only [UNT_EFFCTL, UNT_EFFX] at *; omega
  have h2 : UNT_EFFDW h ≠ a := by simp only [UNT_EFFCTL, UNT_EFFDW, UNT_EFFX] at *; omega
  have h3 : UNT_EFFX h ≠ a := by simp only [UNT_EFFCTL, UNT_EFFX] at *; omega
  simp only [State.effView, State.reg_setReg_ne s v h1, State.reg_setReg_ne s v h2, State.reg_setReg_ne s v h3]
  rfl

/-! ### The trim channels -/

section
variable {h : Nat} (hh : h < 64)
include hh

/-- The registers of the trim block lie above those of the units. -/
theorem State.setReg_effView_of_trim (s : State) {a : Nat} (v : Word) (ha : TRM_CTL ≤ a) : (s.setReg a v).effView h = s.effView h :=
  s.setReg_effView v (.inr (by simp only [UNT_EFFX, TRM_CTL] at *; omega))

theorem State.setFld_effView_of_trim (s : State) (f : Fld) (x : Nat) (hf : TRM_CTL ≤ f.addr) : (s.setFld f x).effView h = s.effView h :=
  s.setReg_effView_of_trim hh _ hf

theorem State.setSettled_effView (s : State) (n : Nat) (b : Bool) : (s.setSettled n b).effView h = s.effView h := by
  unfold State.setSettled
  repeat' split
  all_goals exact s.setReg_effView_of_trim hh _ (by decide)

theorem State.trimSettle_effView (s : State) (n : Nat) : (s.trimSettle n).effView h = s.effView h := by
  have hm : ∀ (t : State) (f : Head → Head), (t.modHead n f).effView h = t.effView h := fun _ _ => rfl
  simp [State.trimSettle, hm, State.setSettled_effView hh]

theorem State.retarget_effView (s : State) (n : Nat) : (s.retarget n).effView h = s.effView h := by
  have htm : ∀ (t : State) (k : Nat), (t.startTimer k).effView h = t.effView h := fun _ _ => rfl
  have hal : ∀ (t : State) (i : Nat), (t.alarm i).effView h = t.effView h := fun _ _ => rfl
  have hn : TRM_CTL ≤ TRM_OUT n := by simp only [TRM_CTL, TRM_OUT]; omega
  simp [State.retarget, State.setBit, htm, hal, State.trimSettle_effView hh, State.setFld_effView_of_trim hh, hn]

theorem State.setWant_effView (s : State) (n : Nat) (c : Int) : (s.setWant n c).effView h = s.effView h := by
  have ht : ∀ (t : State) (x : Trims), ({ t with trims := x } : State).effView h = t.effView h := fun _ _ => rfl
  simp [State.setWant, State.retarget_effView hh, ht]

end

/-! ### The effective registers -/

/-- The effective registers of different units lie apart. -/
theorem State.putEff_effView_of_ne {h u : Nat} (s : State) (e : Eff) (hu : u ≠ h) : (s.putEff u e).effView h = s.effView h := by
  have apart : ∀ (t : State) (v : Word), ∀ a ∈ [UNT_EFFCTL u, UNT_EFFDW u, UNT_EFFX u, UNT_EFFTRIM u],
      (t.setReg a v).effView h = t.effView h := by
    intro t v a ha
    refine t.setReg_effView v ?_
    simp only [UNT_EFFCTL, UNT_EFFDW, UNT_EFFX, UNT_EFFTRIM, List.mem_cons, List.not_mem_nil, or_false] at *
    omega
  simp [State.putEff, apart]

theorem State.putEffGroups_effView {h : Nat} (s : State) (hh : h < 64) : (s.putEffGroups h).effView h = s.effView h := by
  refine List.foldlRecOn (motive := fun t : State => t.effView h = s.effView h) _ _ rfl fun t ht g hg => ?_
  have hg' : 64 ≤ g := by simpa using (List.mem_filter.1 hg).2
  exact (t.putEff_effView_of_ne _ (by omega)).trans ht

/-- The word of UNT_EFFCTL for the record `e`, with LIVE `live`. -/
def Eff.ctlWord (e : Eff) (live : Bool) : Word :=
  BitVec.ofNat 32 (b2n e.en + 2 * b2n e.hold + 4 * b2n live + 16 * e.pol + 256 * e.tl + 65536 * e.slew)

/-- Enable and hold are its two lowest bits. -/
theorem Eff.ctlWord_eq_bit (e : Eff) (live : Bool) : e.ctlWord live =
    BitVec.ofNat 32 (Nat.bit e.en (Nat.bit e.hold (b2n live + 4 * e.pol + 64 * e.tl + 16384 * e.slew))) := by
  have hb : ∀ b : Bool, b.toNat = b2n b := by decide
  rw [Eff.ctlWord, Nat.bit_val, Nat.bit_val, hb, hb]
  congr 1
  omega

theorem Eff.ctlWord_en (e : Eff) (live : Bool) : (e.ctlWord live).getLsbD 0 = e.en := by
  simp only [Eff.ctlWord_eq_bit, BitVec.getLsbD_ofNat, Nat.testBit_bit_zero]
  rfl

theorem Eff.ctlWord_hold (e : Eff) (live : Bool) : (e.ctlWord live).getLsbD 1 = e.hold := by
  simp only [Eff.ctlWord_eq_bit, BitVec.getLsbD_ofNat, Nat.testBit_bit_succ, Nat.testBit_bit_zero]
  rfl

theorem State.putEff_eq (s : State) (u : Nat) (e : Eff) : ∃ v, s.putEff u e = (((s.setReg (UNT_EFFCTL u) (e.ctlWord (s.reaches u))).setReg
    (UNT_EFFDW u) (BitVec.ofNat 32 (unsign 32 e.dw))).setReg (UNT_EFFX u) (BitVec.ofNat 32 (unsign 18 e.x))).setReg (UNT_EFFTRIM u) v :=
  ⟨_, rfl⟩

theorem State.canonical.setReg {s : State} (hs : s.canonical) (a : Nat) (v : Word) : (s.setReg a v).canonical :=
  (State.setReg_kept s a v hs.kept).canonical

theorem State.putEff_effView {s : State} (hs : s.canonical) (u : Nat) (e : Eff) : (s.putEff u e).effView u =
    ⟨e.ctlWord (s.reaches u), BitVec.ofNat 32 (unsign 32 e.dw), BitVec.ofNat 32 (unsign 18 e.x), s.uops, s.tabs⟩ := by
  obtain ⟨v, hv⟩ := s.putEff_eq u e
  have hs1 := hs.setReg (UNT_EFFCTL u) (e.ctlWord (s.reaches u))
  have hs2 := hs1.setReg (UNT_EFFDW u) (BitVec.ofNat 32 (unsign 32 e.dw))
  have hcd : UNT_EFFCTL u ≠ UNT_EFFDW u := by simp
  have hcx : UNT_EFFCTL u ≠ UNT_EFFX u := by simp
  have hdx : UNT_EFFDW u ≠ UNT_EFFX u := by simp
  rw [hv, State.setReg_effView _ v (.inr (by simp)), State.effView, State.reg_setReg_same hs2.1, State.reg_setReg_ne _ _ hdx,
    State.reg_setReg_same hs1.1, State.reg_setReg_ne _ _ hcx, State.reg_setReg_ne _ _ hcd, State.reg_setReg_same hs.1]
  rfl

/-- The head's own registers at the line that it prints next, the groups above it brought up to date. -/
theorem State.effect_effView {s : State} (hs : s.canonical) {h : Nat} (hh : h < 64) : ((s.putEffHead h).putEffGroups h).effView h =
    ⟨(s.effAt h (s.head h).next).ctlWord (s.reaches h), BitVec.ofNat 32 (unsign 32 (s.effAt h (s.head h).next).dw),
      BitVec.ofNat 32 (unsign 18 (s.effAt h (s.head h).next).x), s.uops, s.tabs⟩ := by
  rw [State.putEffGroups_effView _ hh, State.putEffHead, State.setWant_effView hh, State.putEff_effView hs]
  rfl

/-! ### A unit's own value at a line -/

/-- A single operation governs its own field of its unit from its line on. -/
theorem State.opAt_singleton {s : State} {o : UOp} {u line : Nat} (ha : s.armed = true) (ho : s.uops = [o]) (hu : o.unit = u)
    (hl : o.line ≤ line) (codes : List Nat) : s.opAt u codes line = if codes.contains o.code then some o else none := by
  simp [State.opAt, ha, ho, hu, hl]

/-- Operations on other units, and those whose line has not come, govern nothing. -/
theorem State.opAt_eq_none {s : State} {u line : Nat} (h : ∀ o ∈ s.uops, o.unit ≠ u ∨ line < o.line) (codes : List Nat) :
    s.opAt u codes line = none := by
  unfold State.opAt
  split
  · rfl
  · refine List.foldlRecOn (motive := fun b => b = none) _ _ rfl fun b hb o ho => ?_
    obtain hu | hl := h o ho
    · simp [hb, hu]
    · simp [hb, Nat.not_le.2 hl]

theorem State.ownAt_of_no_op {s : State} {u line : Nat} (h : ∀ o ∈ s.uops, o.unit ≠ u ∨ line < o.line) :
    s.ownAt u line = ({ s with uops := [] } : State).ownAt u line := by
  have h0 := State.opAt_eq_none (s := { s with uops := [] }) (u := u) (line := line) (by simp)
  simp only [State.ownAt, State.opAt_eq_none h, h0]
  rfl

/-- `signed` reads a register word as `BitVec.toInt` does. -/
theorem signed_toNat (v : Word) : signed 32 v.toNat = v.toInt := by
  have hv := v.isLt
  simp only [signed, BitVec.toInt_eq_toNat_cond]
  omega

theorem exec_unitOperationEffect (h : Fin 64) (s : State) : exec (.unitOperationEffect h) s =
    .next (if s.armed && s.isLive h then ((s.putEffHead h).putEffGroups h).overCheck h else s) := rfl

/-- Settles O17: nothing after the write of the head's own effective registers touches them, and an operation governs its unit's field from its
line on and at no line before. -/
theorem unitEffectsShow : Obligations.UnitEffectsShow := by
  have live : ∀ (h : Fin 64) (s : State), s.armed = true → s.isLive h = true →
      exec (.unitOperationEffect h) s = .next (((s.putEffHead h).putEffGroups h).overCheck h) := fun h s ha hl => by
    rw [exec_unitOperationEffect, ha, hl]; rfl
  refine ⟨live, ?idle, ?registers, ?own, fun s u line _ h => State.ownAt_of_no_op h⟩
  case idle =>
    intro h s hn
    have hc : (s.armed && s.isLive h) = false := by simpa only [Bool.and_eq_false_iff] using hn
    rw [exec_unitOperationEffect, hc]
    rfl
  case registers =>
    intro h s hs ha hl
    obtain ⟨hctl, hdw, hx, huops, htabs⟩ := EffView.mk.inj (State.effect_effView hs h.isLt)
    refine ⟨_, live h s ha hl, _, rfl, hdw, hx, ?_, ?_, huops, htabs⟩
    · rw [hctl, Eff.ctlWord_en]
    · rw [hctl, Eff.ctlWord_hold]
  case own =>
    intro s o u line ha ho hu hl
    have hop := State.opAt_singleton ha ho hu hl
    refine ⟨?_, ?_, ?_, ?_, ?_, ?_, ?_, ?_, ?_⟩
    all_goals
      intro hc
      simp [State.ownAt, hop, hc, signed_toNat]

end Sys2Proof.Machine
end

section
/-! PROOF. Polling of host memory: what falls due, what a read brings, and what a failed one leaves (R48, R53, R54, R60). -/

namespace Sys2Proof.Machine
open Sys2Proof

variable {s : State}

/-! ### Saturating counts (R7) -/

/-- A counting field reads back its count, cut at the field's greatest value. -/
theorem State.fld_count_same (h : SMap.wf regReset s.regs = true) (f : Fld) (n : Nat) (hf : f.lo + f.width ≤ 32) :
    (s.count f n).fld f = min (2 ^ f.width - 1) (s.fld f + n) := by
  have hp := Nat.two_pow_pos f.width
  have hlt : satAdd f.width (s.fld f) n < 2 ^ f.width := by unfold satAdd; omega
  rw [State.count, State.fld_setFld_same h f _ hf, Nat.mod_eq_of_lt hlt, satAdd, Nat.min_comm]

/-! ### A failed read (R48) -/

/-- An error is logged in the configuration space and told over the link; registers and alarms stand. -/
@[simp] theorem State.aer_regs_alarms (s : State) (b : Nat) : (s.aer b).regs = s.regs ∧ (s.aer b).alarms = s.alarms := by
  simp [State.aer, apply_ite State.regs, apply_ite State.alarms]

@[simp] theorem State.readFailed_regs_alarms (s : State) (p : Bool) :
    (s.readFailed p).regs = s.regs ∧ (s.readFailed p).alarms = s.alarms := by
  simp [State.readFailed]

@[simp] theorem State.fld_readFailed (s : State) (p : Bool) (f : Fld) : (s.readFailed p).fld f = s.fld f :=
  congrArg (fun m => bitsOf (SMap.get regReset m f.addr).toNat f.lo f.width) (s.readFailed_regs_alarms p).1

/-- A failed poll counts in HIF_POLLERR (R54). -/
theorem State.fld_pollFailed (hs : s.canonical) :
    s.pollFailed.fld HIF_POLLERR_COUNT = min 65535 (s.fld HIF_POLLERR_COUNT + 1) := by
  have hw : SMap.wf regReset (s.readFailed true).regs = true := (s.readFailed_regs_alarms true).1 ▸ hs.1
  exact (State.fld_count_same hw HIF_POLLERR_COUNT 1 (by decide)).trans (by rw [State.fld_readFailed]; rfl)

theorem State.pollFailed_alarms (s : State) : s.pollFailed.alarms = s.alarms ||| (1#64 <<< alPOLLERR) := by
  simp [State.pollFailed, State.count, State.setFld]

/-! ### The poll -/

/-- A poll that is due while none is outstanding starts with the summary read. -/
theorem State.doorbellPoll_of_due (hp : s.on HIF_CTL_POLLEN = true) (hm : s.canMaster = true) (hd : s.hostIf.nextPoll ≤ s.clk)
    (hs : s.hostIf.sumOut = false) (hr : s.hostIf.prodOut = false) :
    s.doorbellPoll = s.setHif { s.hostIf with
      nextPoll := s.hostIf.nextPoll + 100 * s.fld HIF_POLLPER_PER, sumOut := true, pollOld := false, pollAt := s.clk } := by
  simp [State.doorbellPoll, State.pollClk, hp, hm, hd, hs, hr]

/-- A poll that falls due while the last one is outstanding is skipped. -/
theorem State.doorbellPoll_of_outstanding (hp : s.on HIF_CTL_POLLEN = true) (hm : s.canMaster = true)
    (hd : s.hostIf.nextPoll ≤ s.clk) (ho : s.hostIf.sumOut = true ∨ s.hostIf.prodOut = true) :
    s.doorbellPoll = s.setHif { s.hostIf with nextPoll := s.hostIf.nextPoll + 100 * s.fld HIF_POLLPER_PER } := by
  simp [State.doorbellPoll, State.pollClk, hp, hm, hd, ho]

theorem State.doorbellPoll_of_not_due (h : s.on HIF_CTL_POLLEN = false ∨ s.canMaster = false ∨ s.clk < s.hostIf.nextPoll) :
    s.doorbellPoll = s := by
  have hc : (s.on HIF_CTL_POLLEN && s.canMaster && decide (s.hostIf.nextPoll ≤ s.clk)) = false := by
    simpa only [Bool.and_eq_false_iff, decide_eq_false_iff_not, Nat.not_le, or_assoc] using h
  simp [State.doorbellPoll, hc]

theorem State.summaryDone_of_good (h : s.hostIf.sumOut = true) (line : Nat) : s.summaryDone true line = s.takeSummary line := by
  simp [State.summaryDone, h]

theorem State.summaryDone_of_failed (h : s.hostIf.sumOut = true) (line : Nat) :
    s.summaryDone false line = (s.setHif { s.hostIf with sumOut := false }).pollFailed := by
  simp [State.summaryDone, h]

theorem State.producerDone_of_good (h : s.hostIf.prodOut = true) (words : Nat) :
    s.producerDone true words = (List.range 128).foldl (fun s st => s.takeProd st (wordAt words st))
      (s.setHif { s.hostIf with prodOut := false, gen := s.hostIf.genNext, polledOn := !s.hostIf.pollOld }) := by
  simp [State.producerDone, h]

theorem State.producerDone_of_failed (h : s.hostIf.prodOut = true) (words : Nat) :
    s.producerDone false words = (s.setHif { s.hostIf with prodOut := false }).pollFailed := by
  simp [State.producerDone, h]

theorem exec_doorbellPoll (t : Nat) (s : State) : exec (.doorbellPoll t) s = .next (s.advance t).doorbellPoll := rfl

theorem exec_summaryReadDone (t : Nat) (ok : Bool) (line : BitVec 512) (s : State) :
    exec (.summaryReadDone t ok line) s = .next ((s.advance t).summaryDone ok line.toNat) := rfl

theorem exec_producerReadDone (ok : Bool) (words : BitVec 4096) (s : State) :
    exec (.producerReadDone ok words) s = .next (s.producerDone ok words.toNat) := rfl

theorem exec_commandReadFailed_of_cmdOk (h : s.cmdOk = true) :
    exec .commandReadFailed s = .next (s.pollFailed.setHif { s.pollFailed.hostIf with cmdBad := true }) :=
  congrArg Host.Outcome.next (if_pos h)

/-- Settles O10: each command of a poll has the effect of its branch, and a failed one logs its error outside the registers before it counts. -/
theorem pollingRuns : Obligations.PollingRuns := by
  refine ⟨?due, ?outstanding, ?notDue, ?summary, ?summaryFailed, ?producer, ?producerFailed,
    fun s h => exec_commandReadFailed_of_cmdOk h, fun s hs => ⟨State.fld_pollFailed hs, s.pollFailed_alarms⟩⟩
  case due =>
    rintro t s _ rfl hp hm hd hs hr
    rw [exec_doorbellPoll, State.doorbellPoll_of_due hp hm hd hs hr]
  case outstanding =>
    rintro t s _ rfl hp hm hd ho
    rw [exec_doorbellPoll, State.doorbellPoll_of_outstanding hp hm hd ho]
  case notDue =>
    rintro t s _ rfl h
    rw [exec_doorbellPoll, State.doorbellPoll_of_not_due h]
  case summary =>
    rintro t line s _ rfl h
    rw [exec_summaryReadDone, State.summaryDone_of_good h]
    rfl
  case summaryFailed =>
    rintro t line s _ rfl h
    rw [exec_summaryReadDone, State.summaryDone_of_failed h]
  case producer =>
    intro words s h
    rw [exec_producerReadDone, State.producerDone_of_good h]
  case producerFailed =>
    intro words s h
    rw [exec_producerReadDone, State.producerDone_of_failed h]

end Sys2Proof.Machine
end

section
/-! PROOF. Fetching of descriptors: whose turn it is, a failed read, a reserved opcode, and what a halt of the ring shows (R58, R71, R73,
R80). -/

namespace Sys2Proof.Machine
open Sys2Proof

variable {s : State} {st : Nat}

/-- The opcode is the first byte. -/
theorem dOp_eq_mod (raw : BitVec 256) : dOp raw = raw.toNat % 256 := rfl

/-! ### A fetch -/

/-- A stream that may not fetch, or whose turn it is not, stands past the slots that a SKIP dropped. -/
theorem State.fetched_of_waiting (h : (s.atSlot st).fetchOk st = false ∨ (s.atSlot st).fetchTurn st = false) (raw : BitVec 256)
    (f : State → Desc → State) : s.fetched st raw f = s.atSlot st := by
  have hc : (!(s.atSlot st).fetchOk st || !(s.atSlot st).fetchTurn st) = true := by simpa using h
  simp only [State.fetched, hc, if_true]

section
variable (hf : (s.atSlot st).fetchOk st = true) (ht : (s.atSlot st).fetchTurn st = true)
include hf ht

theorem State.fetched_of_overrun (ho : (s.atSlot st).overrun st = true) (raw : BitVec 256) (f : State → Desc → State) :
    s.fetched st raw f = (s.atSlot st).ringHalt st 0x23 := by
  simp [State.fetched, hf, ht, ho]

theorem State.fetched_of_turn (ho : (s.atSlot st).overrun st = false) (raw : BitVec 256) (f : State → Desc → State) :
    s.fetched st raw f = f (((s.atSlot st).tookTurn st).takeDesc st raw) ((s.atSlot st).newDesc st raw) := by
  simp [State.fetched, hf, ht, ho]

theorem State.dfetch_of_overrun (ho : (s.atSlot st).overrun st = true) (poisoned : Bool) :
    s.dfetch st poisoned = (s.atSlot st).ringHalt st 0x23 := by
  simp [State.dfetch, hf, ht, ho]

theorem State.dfetch_of_poisoned (ho : (s.atSlot st).overrun st = false) :
    s.dfetch st true = (((s.atSlot st).tookTurn st).aer aerPOISON).ringHalt st 0x21 := by
  simp [State.dfetch, hf, ht, ho]

theorem State.dfetch_of_failed (ho : (s.atSlot st).overrun st = false) :
    s.dfetch st false = (((s.atSlot st).tookTurn st).readFailed false).ringHalt st 0x20 := by
  simp [State.dfetch, hf, ht, ho]

end

theorem State.dfetch_of_waiting (h : (s.atSlot st).fetchOk st = false ∨ (s.atSlot st).fetchTurn st = false) (poisoned : Bool) :
    s.dfetch st poisoned = s.atSlot st := by
  have hc : (!(s.atSlot st).fetchOk st || !(s.atSlot st).fetchTurn st) = true := by simpa using h
  simp only [State.dfetch, hc, if_true]

theorem exec_dfetch (st : Fin 128) (poisoned : Bool) (s : State) : exec (.dfetch st poisoned) s = .next (s.dfetch st poisoned) := rfl

/-! ### A reserved opcode -/

/-- The check of BADOPC's row: a code that no opcode has. -/
theorem badopc_row_iff (raw : BitVec 256) :
    (dOp raw == 0 || decide (7 ≤ dOp raw)) = true ↔ raw.toNat % 256 = 0 ∨ 7 ≤ raw.toNat % 256 := by
  rw [Bool.or_eq_true, beq_iff_eq, decide_eq_true_eq, dOp_eq_mod]

theorem exec_badopc (st : Fin 128) (raw : BitVec 256) (s : State) : exec (.badopc st raw) s =
    ofRow (dOp raw == 0 || decide (7 ≤ dOp raw)) "BADOPC" (s.fetched st raw (fun s d => s.reject st d 0x10)) := rfl

theorem exec_badopc_of_reserved {raw : BitVec 256} (h : raw.toNat % 256 = 0 ∨ 7 ≤ raw.toNat % 256) (st : Fin 128) (s : State) :
    exec (.badopc st raw) s = .next (s.fetched st raw (fun s d => s.reject st d 0x10)) := by
  rw [exec_badopc, (badopc_row_iff raw).2 h, ofRow_true]

theorem exec_badopc_of_defined {raw : BitVec 256} (h : ¬(raw.toNat % 256 = 0 ∨ 7 ≤ raw.toNat % 256)) (st : Fin 128) (s : State) :
    exec (.badopc st raw) s = .fault (.illFormed "BADOPC") := by
  rw [exec_badopc, Bool.eq_false_iff.2 (mt (badopc_row_iff raw).1 h)]
  rfl

/-! ### A halt of the ring (R73) -/

/-- The registers after a halt: nothing that follows the halting slot touches them. -/
theorem State.haltAt_regs (s : State) (st c code : Nat) (raw : Option (BitVec 256)) : (s.haltAt st c code raw).regs =
    (((s.setFld (STR_STATE_STATE st) stHALTED).setFld (STR_STATE_HCODE st) code).setFld (STR_STATE_HIDX st) (s.slotOf st c)).regs := by
  unfold State.haltAt State.modStrm
  simp only [State.alarm_fields, State.setStrm_fields]

theorem State.haltAt_fld (s : State) (st c code : Nat) (raw : Option (BitVec 256)) (f : Fld) : (s.haltAt st c code raw).fld f =
    (((s.setFld (STR_STATE_STATE st) stHALTED).setFld (STR_STATE_HCODE st) code).setFld (STR_STATE_HIDX st) (s.slotOf st c)).fld f := by
  simp only [State.fld, State.reg, State.haltAt_regs]

/-- A halt shows HALTED and its code; the halting slot stands beside them. -/
theorem State.haltAt_shows (hs : s.canonical) (c code : Nat) (raw : Option (BitVec 256)) :
    (s.haltAt st c code raw).strState st = stHALTED ∧ (s.haltAt st c code raw).fld (STR_STATE_HCODE st) = code % 256 := by
  have h1 : (s.setFld (STR_STATE_STATE st) stHALTED).canonical := hs.setReg _ _
  have h2 : ((s.setFld (STR_STATE_STATE st) stHALTED).setFld (STR_STATE_HCODE st) code).canonical := h1.setReg _ _
  constructor
  · rw [State.strState, State.haltAt_fld,
      State.fld_setFld_beside h2.1 (STR_STATE_HIDX st) (STR_STATE_STATE st) _ rfl (.inr (by simp)) (by simp),
      State.fld_setFld_beside h1.1 (STR_STATE_HCODE st) (STR_STATE_STATE st) _ rfl (.inr (by simp)) (by simp),
      State.fld_setFld_same hs.1 _ _ (by simp)]
    rfl
  · rw [State.haltAt_fld,
      State.fld_setFld_beside h2.1 (STR_STATE_HIDX st) (STR_STATE_HCODE st) _ rfl (.inr (by simp)) (by simp),
      State.fld_setFld_same h1.1 _ _ (by simp)]
    rfl

/-- A halt of the ring completes nothing, so nothing goes to the host. -/
theorem State.ringHalt_out (s : State) (st code : Nat) : (s.ringHalt st code).out = s.out :=
  congrArg Outside.out (s.ringHalt_outside st code)

/-- Settles O11: past the slots that a SKIP dropped, the turn, the ring's room and the kind of failure decide in that order. -/
theorem fetchFailuresHalt : Obligations.FetchFailuresHalt := by
  refine ⟨?failed, ?overrun, ?waiting, ?reserved, ?reservedOverrun, fun st raw s h => exec_badopc_of_defined h st s, ?halt⟩
  case failed =>
    rintro st s _ rfl hf ht ho
    exact ⟨by rw [exec_dfetch, State.dfetch_of_poisoned hf ht ho], by rw [exec_dfetch, State.dfetch_of_failed hf ht ho]⟩
  case overrun =>
    rintro st poisoned s _ rfl hf ht ho
    rw [exec_dfetch, State.dfetch_of_overrun hf ht ho]
  case waiting =>
    rintro st poisoned s _ rfl h
    rw [exec_dfetch, State.dfetch_of_waiting h]
  case reserved =>
    rintro st raw s _ rfl hf ht ho hr
    rw [exec_badopc_of_reserved hr, State.fetched_of_turn hf ht ho]
  case reservedOverrun =>
    rintro st raw s _ rfl hf ht ho hr
    rw [exec_badopc_of_reserved hr, State.fetched_of_overrun hf ht ho]
  case halt =>
    intro s st code hs
    obtain ⟨hstate, hcode⟩ := State.haltAt_shows (st := st) hs (s.reg (STR_CONS st)).toNat code none
    exact ⟨hstate, hcode, s.ringHalt_out st code⟩

end Sys2Proof.Machine
end

section
/-! PROOF. The command ring: what each command does with its entry, and how it completes (R60 to R63, R74, R367). -/

namespace Sys2Proof.Machine
open Sys2Proof

variable {s u w : State} {raw : BitVec 256}

/-! ### An entry of the ring -/

/-- The command of code `k` has that code and its zero bytes zero. -/
theorem isCmd_iff (k : Nat) (raw : BitVec 256) : isCmd k raw = true ↔ cCode raw = k ∧ cClean raw = true := by
  simp [isCmd]

section
variable (hok : s.cmdOk = true) (hu : s.setReg HIF_CMDCONS (s.reg HIF_CMDCONS + 1#32) = u)
  {f : State → Nat → State × Option Nat} {code : Nat}
include hok hu

/-- A command that ends completes with its slot and tag; a DISARM alone tells the line of its operand. -/
theorem State.command_of_ends (hc : cClean raw = true) (hf : f u ((s.reg HIF_CMDCONS).toNat % s.cmdN) = (w, some code)) :
    s.command raw f = w.cmdEnd ((s.reg HIF_CMDCONS).toNat % s.cmdN) (cStream raw) code (if cCode raw = 2 then cLine raw else 0)
      (cTag raw) := by
  subst hu
  simp [State.command, hok, hc, hf]

theorem State.command_of_ends_disarm (hk : isCmd 2 raw = true) (hf : f u ((s.reg HIF_CMDCONS).toNat % s.cmdN) = (w, some code)) :
    s.command raw f = w.cmdEnd ((s.reg HIF_CMDCONS).toNat % s.cmdN) (cStream raw) code (cLine raw) (cTag raw) := by
  obtain ⟨hcode, hc⟩ := (isCmd_iff 2 raw).1 hk
  rw [State.command_of_ends hok hu hc hf, if_pos hcode]

theorem State.command_of_ends_other {k : Nat} (hk : isCmd k raw = true) (h2 : k ≠ 2)
    (hf : f u ((s.reg HIF_CMDCONS).toNat % s.cmdN) = (w, some code)) :
    s.command raw f = w.cmdEnd ((s.reg HIF_CMDCONS).toNat % s.cmdN) (cStream raw) code 0 (cTag raw) := by
  obtain ⟨rfl, hc⟩ := (isCmd_iff k raw).1 hk
  rw [State.command_of_ends hok hu hc hf, if_neg h2]

/-- A command that runs on has taken its entry and completes later. -/
theorem State.command_of_runs_on (hc : cClean raw = true) (hf : f u ((s.reg HIF_CMDCONS).toNat % s.cmdN) = (w, none)) :
    s.command raw f = w := by
  subst hu
  simp [State.command, hok, hc, hf]

/-- Bytes that are no command of R60 end with BADCMD, whether by their code or by a byte that must be 0. -/
theorem State.command_of_bad (hb : ∀ k, 1 ≤ k → k < 7 → isCmd k raw = false) :
    s.command raw (fun s _ => (s, some 0x45)) =
      u.cmdEnd ((s.reg HIF_CMDCONS).toNat % s.cmdN) (cStream raw) 0x45 0 (cTag raw) := by
  have h2 : ¬(cCode raw = 2 ∧ cClean raw = true) := by
    rw [← isCmd_iff, hb 2 (by decide) (by decide)]
    exact Bool.false_ne_true
  subst hu
  simp [State.command, hok, if_neg h2]

end

/-! ### What the commands do -/

theorem State.armCmd_of_refused {code : Nat} (h0 : s.fld PWR_STAT_STATE = 0) (hc : s.armCheck = some (code, w)) (raw : BitVec 256) :
    s.armCmd raw = (w, some code) := by
  simp [State.armCmd, h0, hc]

theorem State.armCmd_of_passed (h0 : s.fld PWR_STAT_STATE = 0) (hc : s.armCheck = none) (raw : BitVec 256) :
    s.armCmd raw = ((s.armNow (cSeed raw)).readyShow, some 0) := by
  simp [State.armCmd, h0, hc]

theorem State.disarmCmd_of_no_job (ha : s.armed = false) (raw : BitVec 256) (slot : Nat) :
    s.disarmCmd raw slot = (s, some 0x41) := by
  simp [State.disarmCmd, ha]

/-- With the origin awaited no line can fire, so the job ends at once. -/
theorem State.disarmCmd_of_no_origin (ha : s.armed = true) (ho : s.on FIR_STATE_NOORG = true) (raw : BitVec 256) (slot : Nat) :
    s.disarmCmd raw slot = ((s.liveHeads.foldl (fun s h => s.endHere h) s).jobDone, some 0) := by
  simp [State.disarmCmd, ha, ho]

/-- With the origin known and no splice, each live head has an end line of its own, and the DISARM waits for all of them. -/
theorem State.disarmCmd_of_printing (ha : s.armed = true) (ho : s.on FIR_STATE_NOORG = false) (hs : s.splice.active = false)
    (ht : s.fld TRN_STATE_SEQ < 2) (hw : s.liveHeads.foldl (fun s h => s.endHead h (cLine raw)) s = w) (slot : Nat) :
    s.disarmCmd raw slot = (w.setHif { w.hostIf with disarm := some (raw, slot) }, none) := by
  subst hw
  have ht' : ¬2 ≤ s.fld TRN_STATE_SEQ := Nat.not_le.2 ht
  simp [State.disarmCmd, ha, ho, hs, ht']

theorem State.disarmDone_of_ended {slot : Nat} (hd : s.hostIf.disarm = some (raw, slot)) (ha : s.armed = true)
    (he : s.liveHeads.all (fun h => s.headEnded h) = true) :
    s.disarmDone = (s.jobDone.setHif { s.jobDone.hostIf with disarm := none }).cmdEnd slot (cStream raw) 0 (cLine raw) (cTag raw) := by
  simp only [State.disarmDone, hd, ha, he, Bool.and_self, if_true]

theorem State.restartCmd_of_halted {st : Nat} (h : s.strState st = stHALTED) :
    s.restartCmd st = (s.unhalt st (s.haltSlot st), some 0) := by
  simp [State.restartCmd, h]

theorem State.restartCmd_of_not_halted {st : Nat} (h : s.strState st ≠ stHALTED) : s.restartCmd st = (s, some 0x44) := by
  simp [State.restartCmd, h]

theorem State.skipCmd_of_halted {st : Nat} (h : s.strState st = stHALTED) :
    s.skipCmd st = ((s.skipLines st).unhalt st (s.haltSlot st + 1#32), some 0) := by
  simp [State.skipCmd, h]

theorem State.skipCmd_of_not_halted {st : Nat} (h : s.strState st ≠ stHALTED) : s.skipCmd st = (s, some 0x44) := by
  simp [State.skipCmd, h]

/-! ### Each command on its own row -/

theorem exec_arm (hk : isCmd 1 raw = true) (s : State) : exec (.arm raw) s = .next (s.command raw (fun s _ => s.armCmd raw)) :=
  if_pos hk

theorem exec_disarm (hk : isCmd 2 raw = true) (s : State) :
    exec (.disarm raw) s = .next (s.command raw (fun s slot => s.disarmCmd raw slot)) := if_pos hk

theorem exec_disarmComplete (s : State) : exec .disarmComplete s = .next s.disarmDone := rfl

theorem exec_restart (hk : isCmd 3 raw = true) (s : State) :
    exec (.restart raw) s = .next (s.command raw (fun s _ => s.restartCmd (cStream raw))) := if_pos hk

theorem exec_skip (hk : isCmd 4 raw = true) (s : State) :
    exec (.skip raw) s = .next (s.command raw (fun s _ => s.skipCmd (cStream raw))) := if_pos hk

theorem exec_status (hk : isCmd 5 raw = true) (s : State) :
    exec (.status raw) s = .next (s.command raw (fun s _ => (s.statusBlock, some 0))) := if_pos hk

theorem exec_nop (hk : isCmd 6 raw = true) (s : State) : exec (.nop raw) s = .next (s.command raw (fun s _ => (s, some 0))) :=
  if_pos hk

theorem exec_badcmd (hb : ∀ k, 1 ≤ k → k < 7 → isCmd k raw = false) (s : State) :
    exec (.badcmd raw) s = .next (s.command raw (fun s _ => (s, some 0x45))) := by
  have hrow : (!(List.range 7).any (fun k => decide (1 ≤ k) && isCmd k raw)) = true := by
    simpa using fun k h7 h1 => hb k h1 h7
  exact if_pos hrow

/-- Settles O14: every command takes its entry, and its own branch says what it leaves and with which code it completes. -/
theorem commandRingRuns : Obligations.CommandRingRuns := by
  refine ⟨?arm, ?armRefused, ?disarmNoJob, ?disarm, ?disarmNoOrigin, ?disarmComplete, ?restart, ?skip, ?status, ?nop, ?badcmd⟩
  case arm =>
    intro raw s u hok hu hk h0 hc
    rw [exec_arm hk, State.command_of_ends_other hok hu hk (by decide) (State.armCmd_of_passed h0 hc raw)]
  case armRefused =>
    intro raw s u v code hok hu hk h0 hc
    rw [exec_arm hk, State.command_of_ends_other hok hu hk (by decide) (State.armCmd_of_refused h0 hc raw)]
  case disarmNoJob =>
    intro raw s u hok hu hk ha
    rw [exec_disarm hk, State.command_of_ends_disarm hok hu hk (State.disarmCmd_of_no_job ha raw _)]
  case disarm =>
    intro raw s u w hok hu hk ha ho hs ht hw
    rw [exec_disarm hk, State.command_of_runs_on hok hu ((isCmd_iff 2 raw).1 hk).2 (State.disarmCmd_of_printing ha ho hs ht hw _)]
  case disarmNoOrigin =>
    intro raw s u hok hu hk ha ho
    rw [exec_disarm hk, State.command_of_ends_disarm hok hu hk (State.disarmCmd_of_no_origin ha ho raw _)]
  case disarmComplete =>
    intro raw slot s hd ha he
    rw [exec_disarmComplete, State.disarmDone_of_ended hd ha he]
  case restart =>
    intro raw s u hok hu hk
    rw [exec_restart hk]
    split
    · next h => rw [State.command_of_ends_other (f := fun s _ => s.restartCmd (cStream raw)) hok hu hk (by decide)
        (State.restartCmd_of_halted h)]
    · next h => rw [State.command_of_ends_other (f := fun s _ => s.restartCmd (cStream raw)) hok hu hk (by decide)
        (State.restartCmd_of_not_halted h)]
  case skip =>
    intro raw s u hok hu hk
    rw [exec_skip hk]
    split
    · next h => rw [State.command_of_ends_other (f := fun s _ => s.skipCmd (cStream raw)) hok hu hk (by decide)
        (State.skipCmd_of_halted h)]
    · next h => rw [State.command_of_ends_other (f := fun s _ => s.skipCmd (cStream raw)) hok hu hk (by decide)
        (State.skipCmd_of_not_halted h)]
  case status =>
    intro raw s u hok hu hk
    rw [exec_status hk, State.command_of_ends_other hok hu hk (by decide) rfl]
  case nop =>
    intro raw s u hok hu hk
    rw [exec_nop hk, State.command_of_ends_other hok hu hk (by decide) rfl]
  case badcmd =>
    intro raw s u hok hu hb
    rw [exec_badcmd hb, State.command_of_bad hok hu hb]

end Sys2Proof.Machine
end

section
/-! PROOF. Completion queues, stream enables, the status period and Bus Master Enable (R49, R57, R64, R66, R67, R74, R79). -/

namespace Sys2Proof.Machine
open Sys2Proof

variable {s : State}

/-! ### Which writes are served -/

theorem State.bar_of_served {blk : Nat} (h : s.barOk blk = true) (f : State → State) : s.bar blk f = f s := if_pos h

theorem State.bar_of_not_served {blk : Nat} (h : s.barOk blk = false) (f : State → State) : s.bar blk f = s := by
  simp [State.bar, h]

/-- A refused write of the host interface is recorded in HIF_ERR (R64). -/
theorem State.refuse_hostInterface {a : Nat} (h1 : 0x10000 ≤ a) (h2 : a < 0x30000) (s : State) (code : Nat) :
    s.refuse code a = s.recordAt HIF_ERR code a := by
  have he : blockErr a = some HIF_ERR := by
    unfold blockErr
    rw [if_neg (by omega), if_pos h2]
  simp only [State.refuse, he]

theorem exec_cqEnableWrite (q : Fin 8) (v : BitVec 32) (s : State) :
    exec (.cqEnableWrite q v) s = .next (s.bar 0 (fun s => s.cqEnable q v)) := rfl

theorem exec_streamEnableWrite (st : Fin 128) (v : BitVec 32) (s : State) :
    exec (.streamEnableWrite st v) s = .next (s.bar 1 (fun s => s.streamEnable st v)) := rfl

/-! ### Completion queues (R67) -/

section
variable {q n : Nat} {v : Word}

theorem State.cqEnable_of_armed (ha : s.armed = true) (hq : q < 8) (v : Word) :
    s.cqEnable q v = s.recordAt HIF_ERR erARMED (HIF_CQCTL q) := by
  rw [State.cqEnable, if_pos ha, State.refuse_hostInterface (by simp only [HIF_CQCTL]; omega) (by simp only [HIF_CQCTL]; omega)]

variable (ha : s.armed = false) (hn : (if 13 ≤ bitsOf v.toNat 1 4 then s.fld (HIF_CQCTL_SIZE q) else bitsOf v.toNat 1 4) = n)
include ha hn

theorem State.cqEnable_clear (hv : bitAt v.toNat 0 = false) :
    s.cqEnable q v = ((s.setFld (HIF_CQCTL_EN q) 0).setFld (HIF_CQCTL_SIZE q) n).setReg (HIF_CQPROD q) 0#32 := by
  subst hn
  simp [State.cqEnable, State.setBit, b2n, ha, hv]

theorem State.cqEnable_set (hv : bitAt v.toNat 0 = true) :
    s.cqEnable q v = ((s.setFld (HIF_CQCTL_EN q) 1).setFld (HIF_CQCTL_SIZE q) n).flushHost := by
  subst hn
  simp [State.cqEnable, State.setBit, b2n, ha, hv]

end

/-! ### Streams (R57, R79) -/

section
variable {st n : Nat} {v : Word} {u : State}

theorem State.streamEnable_of_armed (ha : s.armed = true) (hst : st < 128) (v : Word) :
    s.streamEnable st v = s.recordAt HIF_ERR erARMED (STR_CTL st) := by
  rw [State.streamEnable, if_pos ha, State.refuse_hostInterface (by simp only [STR_CTL]; omega) (by simp only [STR_CTL]; omega)]

variable (ha : s.armed = false) (hn : (if 13 ≤ bitsOf v.toNat 2 4 then s.fld (STR_CTL_SIZE st) else bitsOf v.toNat 2 4) = n)
  (hu : s.setReg (STR_CTL st) (putBits v 2 4 n &&& 0x77F#32) = u)
include ha hn hu

/-- Setting EN of a stream that was not enabled starts it. -/
theorem State.streamEnable_start (hv : bitAt v.toNat 0 = true) (hwas : s.on (STR_CTL_EN st) = false) :
    s.streamEnable st v = (u.setFld (STR_STATE_STATE st) stRUN).holdState st := by
  subst hn hu
  simp [State.streamEnable, ha, hv, hwas]

theorem State.streamEnable_again (hv : bitAt v.toNat 0 = true) (hwas : s.on (STR_CTL_EN st) = true) :
    s.streamEnable st v = u.flushHost := by
  subst hn hu
  simp [State.streamEnable, ha, hv, hwas]

/-- Clearing EN drops what the stream holds, but for PROD and the reads that are out. -/
theorem State.streamEnable_clear (hv : bitAt v.toNat 0 = false) :
    s.streamEnable st v = (((u.setReg (STR_CONS st) 0#32).setReg (STR_DONE st) 0#32).setFld (STR_STATE_STATE st) stOFF).setStrm st
      { Stream.reset with prod := (u.strm st).prod, stray := (u.strm st).strayAll } := by
  subst hn hu
  simp [State.streamEnable, ha, hv]

end

/-! ### Bus Master Enable (R49) -/

theorem exec_busMasterEnableChange_of_answered (h : s.aonOk = true) (up : Bool) :
    exec (.busMasterEnableChange up) s = .next (s.busMaster up) := congrArg Host.Outcome.next (if_pos h)

theorem exec_busMasterEnableChange_of_not_answered (h : s.aonOk = false) (up : Bool) :
    exec (.busMasterEnableChange up) s = .next s := by
  change Host.Outcome.next _ = _
  simp [h]

/-! ### The status period (R74) -/

theorem exec_statusPeriodEnd (t : Nat) (load : Fin 101) (backlog : BitVec 8) (low : Bool) (s : State) :
    exec (.statusPeriodEnd t load backlog low) s = .next ((s.advance t).statusPeriodEnd load backlog.toNat low) := rfl

theorem State.statusPeriodEnd_of_over {load backlog : Nat} {low : Bool} {p w : State} (hd : s.on RST_STAT_DONE = true)
    (ha : s.awake = true) (he : s.hostIf.statEnd ≤ s.clk)
    (hp : (s.serveGold (s.svc.tasks.length - backlog)).periodFigures load backlog low = p)
    (hw : p.setHif { p.hostIf with statEnd := p.hostIf.statEnd + 400 * p.fld HIF_STATPER_PER,
                                   statLen := 400 * p.fld HIF_STATPER_PER } = w) :
    s.statusPeriodEnd load backlog low = if w.on HIF_CTL_STATEN && w.canMaster then w.statusBlock else w := by
  subst hp hw
  simp [State.statusPeriodEnd, usClk, hd, ha, he]

theorem State.statusPeriodEnd_of_not_over (h : s.on RST_STAT_DONE = false ∨ s.awake = false ∨ s.clk < s.hostIf.statEnd)
    (load backlog : Nat) (low : Bool) : s.statusPeriodEnd load backlog low = s := by
  have hc : (s.on RST_STAT_DONE && s.awake && decide (s.hostIf.statEnd ≤ s.clk)) = false := by
    simpa only [Bool.and_eq_false_iff, decide_eq_false_iff_not, Nat.not_le, or_assoc] using h
  simp [State.statusPeriodEnd, hc]

/-- Settles O15: a served write takes the branch of its EN bit, and what is not served, not over or not answered changes nothing. -/
theorem hostQueuesRun : Obligations.HostQueuesRun := by
  refine ⟨fun _ => rfl, ?period, fun s h => exec_busMasterEnableChange_of_answered h false,
    fun s h => exec_busMasterEnableChange_of_answered h true, ?queue, ?queueArmed, ?stream, ?streamArmed, ?periodRuns,
    fun s up h => exec_busMasterEnableChange_of_not_answered h up, ?notServed⟩
  case period =>
    rintro t load backlog low s _ p w rfl hd ha he hp hw
    rw [exec_statusPeriodEnd, State.statusPeriodEnd_of_over hd ha he hp hw]
  case queue =>
    intro q v s n hb ha hn
    rw [exec_cqEnableWrite, State.bar_of_served hb]
    exact ⟨fun hv => by rw [State.cqEnable_clear ha hn hv], fun hv => by rw [State.cqEnable_set ha hn hv]⟩
  case queueArmed =>
    intro q v s hb ha
    rw [exec_cqEnableWrite, State.bar_of_served hb, State.cqEnable_of_armed ha q.isLt]
  case stream =>
    intro st v s u n hb ha hn hu
    rw [exec_streamEnableWrite, State.bar_of_served hb]
    exact ⟨fun hv hwas => by rw [State.streamEnable_start ha hn hu hv hwas],
      fun hv hwas => by rw [State.streamEnable_again ha hn hu hv hwas], fun hv => by rw [State.streamEnable_clear ha hn hu hv]⟩
  case streamArmed =>
    intro st v s hb ha
    rw [exec_streamEnableWrite, State.bar_of_served hb, State.streamEnable_of_armed ha st.isLt]
  case periodRuns =>
    rintro t load backlog low s _ rfl h
    rw [exec_statusPeriodEnd, State.statusPeriodEnd_of_not_over h]
  case notServed =>
    intro q st v s
    rw [exec_cqEnableWrite, exec_streamEnableWrite]
    exact ⟨fun h => by rw [State.bar_of_not_served h], fun h => by rw [State.bar_of_not_served h]⟩

end Sys2Proof.Machine
end

section
/-! PROOF. MARK, FENCE, TABLE and SCHEDULE-EVENT: what each leaves when it is fetched, and the record data of a TABLE (R91 to R96, R100). -/

namespace Sys2Proof.Machine
open Sys2Proof

variable {s : State}

/-! ### A descriptor whose turn it is -/

/-- Bytes that start with the opcode of the row pass the row's check. -/
theorem ofRow_of_opcode {raw : BitVec 256} {k : Nat} (h : raw.toNat % 256 = k) (m : String) (t : State) :
    ofRow (dOp raw == k) m t = .next t :=
  if_pos (beq_iff_eq.2 ((dOp_eq_mod raw).trans h))

section
variable {st : Fin 128} {raw : BitVec 256} {v : State} {d : Desc} (hf : (s.atSlot st).fetchOk st = true)
  (ht : (s.atSlot st).fetchTurn st = true) (ho : (s.atSlot st).overrun st = false)
  (hv : ((s.atSlot st).tookTurn st).takeDesc st raw = v) (hd : (s.atSlot st).newDesc st raw = d)
include hf ht ho hv hd

/-- On its turn a stream takes the descriptor and runs it. -/
theorem State.fetched_of_taken (f : State → Desc → State) : s.fetched st raw f = f v d := by
  rw [State.fetched_of_turn hf ht ho, hv, hd]

theorem exec_mark_of_taken (hop : raw.toNat % 256 = 2) :
    exec (.mark st raw) s = .next (if markForm raw then v.lineWait st d else v.reject st d 0x15) := by
  change execMark st raw s = _
  rw [execMark, ofRow_of_opcode hop, State.fetched_of_taken hf ht ho hv hd]

theorem exec_fence_of_taken (hop : raw.toNat % 256 = 3) :
    exec (.fence st raw) s = .next (if fenceForm raw then v.flushAll else v.reject st d 0x15) := by
  change execFence st raw s = _
  rw [execFence, ofRow_of_opcode hop, State.fetched_of_taken hf ht ho hv hd]

/-- The checks of a TABLE: its form, then its length, then its address. -/
theorem exec_table_of_taken (hop : raw.toNat % 256 = 4) :
    exec (.table st raw) s = .next (if !tableForm raw then v.reject st d 0x15
      else if dLen raw = 0 ∨ dLen raw % 16 ≠ 0 ∨ 1048576 < dLen raw then v.reject st d 0x11
      else if dAddr raw % 16 ≠ 0 then v.reject st d 0x16
      else v.waits st d .table) := by
  change execTable st raw s = _
  rw [execTable, ofRow_of_opcode hop, State.fetched_of_taken hf ht ho hv hd]

/-- The checks of a SCHEDULE-EVENT: its form with the owner of its pin, then its width. -/
theorem exec_scheduleEvent_of_taken (hop : raw.toNat % 256 = 6) :
    exec (.scheduleEvent st raw) s = .next (if !v.eventForm raw then v.reject st d 0x15
      else if dCount raw = 0 then v.reject st d 0x11 else v.lineWait st d) := by
  change execScheduleEvent st raw s = _
  rw [execScheduleEvent, ofRow_of_opcode hop, State.fetched_of_taken hf ht ho hv hd]

end

/-! ### The wait for a line (R91, R95, R96) -/

theorem State.lineWait_of_no_job (ha : s.armed = false) (st : Nat) (d : Desc) :
    s.lineWait st d = s.modDesc st d.count (fun x => { x with phase := .waitLine, first := dLine x.raw }) := by
  simp only [State.lineWait, ha, Bool.not_false, if_true]

theorem State.lineWait_of_no_member {d : Desc} (ha : s.armed = true) (hm : (s.members (dUnit d.raw)).isEmpty = true) (st : Nat) :
    s.lineWait st d = s.doneNow st d 0 (dLine d.raw) := by
  simp only [State.lineWait, ha, hm, Bool.not_true, Bool.false_eq_true, if_false, if_true]

/-! ### Record data (R93) -/

theorem exec_tableRecordReadDone (st : Fin 128) (ok : Bool) (data : List (BitVec 128)) (s : State) :
    exec (.tableRecordReadDone st ok data) s = .next (s.tableData st ok data) := rfl

section
variable {st : Nat} {d : Desc}
  (hd : (s.strm st).descs.find? (fun d => d.phase = .table && decide (d.got < dLen d.raw)) = some d) (hm : s.canMaster = true)
include hd hm

/-- A failed read under skip-on-error, with no record at the port, ends the TABLE at once. -/
theorem State.tableData_of_failed_skipped (hp : (s.strm st).pass.contains d.count = false) (hs : s.on (STR_CTL_SKIPERR st) = true)
    (hout : d.out = 0) (data : List (BitVec 128)) :
    s.tableData st false data = (((s.readFailed true).modDesc st d.count (fun x => { x with
      got := dLen x.raw, tail := [], status := 0x22 })).modDesc st d.count (fun x => { x with blank := true })).doneNow st d 0x22
        d.first := by
  simp only [State.tableData, hd, hm, hp, hs, hout, Bool.not_true, Bool.not_false, Bool.false_eq_true, if_false, if_true]

/-- Good data pass to the port as far as they make whole records; what is left waits for the next read. -/
theorem State.tableData_of_good {data : List (BitVec 128)} {bytes : List Byte} {rest : State × List Byte}
    (hb : (data.map (fun w => leBytes 16 w.toNat)).flatten.take (dLen d.raw - d.got) = bytes)
    (hr : ((s.stores pkSTAGING 4 (ceilDiv bytes.length 64)).modDesc st d.count (fun x => { x with
      got := d.got + bytes.length })).passRecords st d.count (decide (dLen d.raw ≤ d.got + bytes.length))
        (d.tail.map (fun b => b.truncate 8) ++ bytes).length (d.tail.map (fun b => b.truncate 8) ++ bytes) = rest) :
    s.tableData st true data = rest.1.modDesc st d.count (fun x => { x with tail := rest.2.map (fun b => b.zeroExtend 9) }) := by
  simp only [State.tableData, hd, hm, hb, hr, Bool.not_true, Bool.false_eq_true, if_false]

end

/-- Settles O13: on its turn each descriptor runs the checks of its own row in order, and the first that fails names the code. -/
theorem marksFencesTablesRun : Obligations.MarksFencesTablesRun := by
  refine ⟨?fetched, fun st d s ha => State.lineWait_of_no_job ha st d, fun st d s ha hm => State.lineWait_of_no_member ha hm st,
    ?recordsFailed, ?records⟩
  case fetched =>
    rintro st raw s _ v d rfl hf ht ho hv hd
    refine ⟨?mark, ?markForm, ?fence, ?fenceForm, ?table, ?tableForm, ?tableLength, ?tableAddress, ?event, ?eventForm, ?eventWidth⟩
    case mark =>
      intro hop hform
      rw [exec_mark_of_taken hf ht ho hv hd hop, if_pos hform]
    case markForm =>
      intro hop hform
      rw [exec_mark_of_taken hf ht ho hv hd hop, if_neg (by simp [hform])]
    case fence =>
      intro hop hform
      rw [exec_fence_of_taken hf ht ho hv hd hop, if_pos hform]
    case fenceForm =>
      intro hop hform
      rw [exec_fence_of_taken hf ht ho hv hd hop, if_neg (by simp [hform])]
    case table =>
      intro hop hform hpos hmod hmax haddr
      rw [exec_table_of_taken hf ht ho hv hd hop, if_neg (by simp [hform]), if_neg (by omega), if_neg (by omega)]
    case tableForm =>
      intro hop hform
      rw [exec_table_of_taken hf ht ho hv hd hop, if_pos (by simp [hform])]
    case tableLength =>
      intro hop hform hlen
      rw [exec_table_of_taken hf ht ho hv hd hop, if_neg (by simp [hform]), if_pos hlen]
    case tableAddress =>
      intro hop hform hpos hmod hmax haddr
      rw [exec_table_of_taken hf ht ho hv hd hop, if_neg (by simp [hform]), if_neg (by omega), if_pos haddr]
    case event =>
      intro hop hform hwidth
      rw [exec_scheduleEvent_of_taken hf ht ho hv hd hop, if_neg (by simp [hform]), if_neg hwidth]
    case eventForm =>
      intro hop hform
      rw [exec_scheduleEvent_of_taken hf ht ho hv hd hop, if_pos (by simp [hform])]
    case eventWidth =>
      intro hop hform hwidth
      rw [exec_scheduleEvent_of_taken hf ht ho hv hd hop, if_neg (by simp [hform]), if_pos hwidth]
  case recordsFailed =>
    intro st data s d hd hm hp hs hout
    rw [exec_tableRecordReadDone, State.tableData_of_failed_skipped hd hm hp hs hout]
  case records =>
    intro st data s d bytes rest hd hm hb hr
    rw [exec_tableRecordReadDone, State.tableData_of_good hd hm hb hr]

end Sys2Proof.Machine
end

section
/-! PROOF. BAND and STRIP: the checks on fetch, admission, the reads of band data, and what arrives for them (R58, R86, R94, R97, R100,
R108). -/

namespace Sys2Proof.Machine
open Sys2Proof

variable {s : State}

/-! ### On fetch (R86, R94, R100) -/

section
variable {st : Fin 128} {raw : BitVec 256} {v : State} {d : Desc} {code : Nat} (hf : (s.atSlot st).fetchOk st = true)
  (ht : (s.atSlot st).fetchTurn st = true) (ho : (s.atSlot st).overrun st = false)
  (hv : ((s.atSlot st).tookTurn st).takeDesc st raw = v) (hd : (s.atSlot st).newDesc st raw = d)
include hf ht ho hv hd

theorem exec_band_of_passed (hop : raw.toNat % 256 = 1) (hc : v.bandCheck st raw = none) :
    exec (.band st raw) s = .next ((v.bandAccept st d).fillChanged) := by
  change execBand st raw s = _
  simp only [execBand, ofRow_of_opcode hop, State.fetched_of_taken hf ht ho hv hd, hc]

theorem exec_band_of_failed (hop : raw.toNat % 256 = 1) (hc : v.bandCheck st raw = some code) :
    exec (.band st raw) s = .next (v.reject st d code) := by
  change execBand st raw s = _
  simp only [execBand, ofRow_of_opcode hop, State.fetched_of_taken hf ht ho hv hd, hc]

theorem exec_strip_of_passed (hop : raw.toNat % 256 = 5) (hc : v.stripCheck st raw = none) :
    exec (.strip st raw) s = .next ((v.stripAccept st d).fillChanged) := by
  change execStrip st raw s = _
  simp only [execStrip, ofRow_of_opcode hop, State.fetched_of_taken hf ht ho hv hd, hc]

theorem exec_strip_of_failed (hop : raw.toNat % 256 = 5) (hc : v.stripCheck st raw = some code) :
    exec (.strip st raw) s = .next (v.reject st d code) := by
  change execStrip st raw s = _
  simp only [execStrip, ofRow_of_opcode hop, State.fetched_of_taken hf ht ho hv hd, hc]

end

/-- A band that keeps no line completes at once, and tells the line after its last (R88). -/
theorem State.bandAccept_of_all_dropped {st : Nat} {d : Desc}
    (h : s.firstKept st (dLine d.raw) (dCount d.raw) = dLine d.raw + dCount d.raw) :
    s.bandAccept st d = (s.place st (dLine d.raw) (dCount d.raw) (dEnd d.raw) (.band (s.bandSeq + 1))).doneNow st d 0
      (dLine d.raw + dCount d.raw) := by
  simp only [State.bandAccept, h, if_true]

/-! ### Admission (R108) -/

theorem exec_bandAdmitted (st : Fin 128) (s : State) : exec (.bandAdmitted st) s = .next (s.bandAdmit st) := rfl

/-- The oldest waiting band that its share admits makes room, is opened, and starts to read; with no data to come it is cut short. -/
theorem State.bandAdmit_of_admitted {st : Nat} {d : Desc} {u : State}
    (hd : (s.strm st).descs.find? (fun d => d.phase = .waitAdmit) = some d) (ha : s.admits st (bandSize d.raw) = true)
    (hu : ((s.makeRoom st (bandSize d.raw)).setBand d.seq
      ⟨st, dLine d.raw, dCount d.raw, d.first, dWidth d.raw, dFmt d.raw, dRes d.raw, dNoref d.raw, bandSize d.raw, [], false, false,
        0, [], [], dAddr d.raw, dStride d.raw, []⟩).waits st d .reading = u) :
    s.bandAdmit st = if bandFetch d.raw = 0 then u.reject st d 0x12 else u := by
  simp only [State.bandAdmit, hd, ha, hu, if_true]

/-! ### Reads of band data (R46, R58) -/

theorem exec_bandDataReadIssue (st : Fin 128) (len : BitVec 13) (s : State) :
    exec (.bandDataReadIssue st len) s = .next (s.bandIssue st (min len.toNat 4096)) := rfl

/-- On its turn, with a tag free, a stream asks for what its limits and the band leave. -/
theorem State.bandIssue_of_turn {st len n : Nat} {d : Desc} (hd : s.wantsData st = some d) (hm : s.canMaster = true)
    (hr : s.bandReads < 248) (ht : s.dataTurn st = true) (hn : min (min len s.mrrs) (bandFetch d.raw - d.issued) = n) (h0 : 0 < n) :
    s.bandIssue st len = (s.modDesc st d.count (fun x => { x with issued := x.issued + n, reads := x.reads ++ [n] })).setHif
      { s.hostIf with turnB := (st + 1) % 128 } := by
  simp only [State.bandIssue, hd, hm, hr, ht, hn, h0, decide_true, Bool.and_self, if_true]

/-! ### Rows out of the bytes (R97, R100) -/

theorem mAny_take_of_clean {bs : List MByte} (h : mAny bs = false) (n : Nat) : mAny (bs.take n) = false := by
  simp only [mAny, List.any_eq_false] at h ⊢
  exact fun b hb => h b (List.mem_of_mem_take hb)

/-- The header lies in the first 4 bytes. -/
theorem hdrLen_append_of_header {row : List MByte} (h : 4 ≤ row.length) (rest : List MByte) : hdrLen (row ++ rest) = hdrLen row := by
  simp only [hdrLen, List.take_append_of_le_length h]

/-- A Turf row that has come whole and unmarked and is not sound is CORRUPT, and is not stored. -/
theorem cutRows_of_unsound {fmt w : Nat} {row : List MByte} (hfmt : fmtTurf fmt = true) (h4 : 4 ≤ row.length)
    (hm : mAny row = false) (hlen : row.length = 4 + hdrLen row) (hbad : rowOk w row = false) (n : Nat) (rest : List MByte) :
    cutRows fmt w (n + 1) (row ++ rest) = ⟨[], row ++ rest, some 0x17⟩ := by
  have hhead : ¬(row ++ rest).length < 4 := by rw [List.length_append]; omega
  have hclean : mAny ((row ++ rest).take 4) = false := by
    rw [List.take_append_of_le_length h4]
    exact mAny_take_of_clean hm 4
  have hhdr : 4 + hdrLen (row ++ rest) = row.length := by rw [hdrLen_append_of_header h4, hlen]
  have hwhole : ¬(row ++ rest).length < row.length := by rw [List.length_append]; omega
  simp only [cutRows, hfmt, hhead, hclean, hhdr, hwhole, List.take_left, hm, hbad, Bool.not_true, Bool.or_self, Bool.false_eq_true,
    if_false]

/-! ### Data of a band that is being read (R100) -/

section
variable {st : Nat} {data : List MByte} {d : Desc}
  (hd : (s.strm st).descs.find? (fun d => d.phase = .reading && !d.reads.isEmpty) = some d)
include hd

theorem State.bandTake_of_failed (data : List MByte) : s.bandTake st false data =
    ((s.readFailed false).modDesc st d.count (fun x => { x with reads := x.reads.tail })).reject st d 0x22 := by
  simp only [State.bandTake, hd, Bool.not_false, if_true]

variable {v w : State} {c : Cut} (hv : (if mAny (data.take (d.reads.headD 0)) then s.aer aerPOISON else s) = v)
  (hc : cutRows (dFmt d.raw) (dWidth d.raw) (bandRows (dCount d.raw) (dRes d.raw) - (v.band d.seq).rows.length)
    (d.tail ++ data.take (d.reads.headD 0)) = c)
  (hw : ((v.setBand d.seq { v.band d.seq with rows := (v.band d.seq).rows ++ c.rows }).storesBand
    st (ceilDiv (data.take (d.reads.headD 0)).length 64)).modDesc st d.count (fun x => { x with
      got := d.got + (data.take (d.reads.headD 0)).length, tail := c.rest
      reads := answerRead (data.take (d.reads.headD 0)).length x.reads }) = w)
include hv hc hw

/-- A marked header or an unsound row rejects the band with the code of its check. -/
theorem State.bandTake_of_bad_row {code : Nat} (hb : c.bad = some code) : s.bandTake st true data = w.reject st d code := by
  simp only [State.bandTake, hd, hv, hc, hw, hb, Bool.not_true, Bool.false_eq_true, if_false]

variable (hb : c.bad = none)
include hb

/-- With the rows sound, the bytes that have come and the rows that they make decide. -/
theorem State.bandTake_of_sound_rows : s.bandTake st true data =
    if d.got + (data.take (d.reads.headD 0)).length < bandFetch d.raw then w
    else if (v.band d.seq).rows.length + c.rows.length < bandRows (dCount d.raw) (dRes d.raw) then w.reject st d 0x12
    else w.bandReady st d (!c.rest.isEmpty) := by
  simp only [State.bandTake, hd, hv, hc, hw, hb, Bool.not_true, Bool.false_eq_true, if_false]

end

/-! ### Which read is answered -/

theorem exec_bandDataArrival (st : Fin 128) (ok : Bool) (data : List (BitVec 9)) (s : State) :
    exec (.bandDataArrival st ok data) s = .next (s.bandData st ok data) := rfl

theorem State.bandData_of_no_stray {st : Nat} (h : (s.strm st).stray = []) (ok : Bool) (data : List MByte) :
    s.bandData st ok data = s.bandTake st ok data := by
  simp only [State.bandData, h]

section
variable {st n : Nat} {l : List Nat} (h : (s.strm st).stray = n :: l)
include h

/-- A failed read of a band that is no longer read is told, and its tag is free. -/
theorem State.bandData_of_stray_failed (data : List MByte) :
    s.bandData st false data = (s.readFailed false).modStrm st (fun x => { x with stray := l }) := by
  simp only [State.bandData, h, Bool.not_false, if_true]

/-- Data of a band that is no longer read answer its read and are dropped. -/
theorem State.bandData_of_stray (data : List MByte) :
    s.bandData st true data = (if mAny (data.take n) then s.aer aerPOISON else s).modStrm st (fun x => { x with
      stray := answerRead (min n data.length) (n :: l) }) := by
  simp only [State.bandData, h, Bool.not_true, Bool.false_eq_true, if_false]

end

/-- Settles O12: the check on fetch, the admission, the read and the bytes that come each have the effect of their branch. -/
theorem bandsAndStripsRun : Obligations.BandsAndStripsRun := by
  refine ⟨?band, ?bandFailed, fun st d s h => State.bandAccept_of_all_dropped h, ?strip, ?stripFailed, ?admitted, ?issue,
    ?readFailed, ?arrival, fun w n row rest h4 hm hlen hbad => cutRows_of_unsound rfl h4 hm hlen hbad n rest, ?stray, ?admittedEmpty⟩
  case band =>
    rintro st raw s _ v rfl hf ht ho hop hv hc
    exact exec_band_of_passed hf ht ho hv rfl hop hc
  case bandFailed =>
    rintro st raw s _ v code rfl hf ht ho hop hv hc
    exact exec_band_of_failed hf ht ho hv rfl hop hc
  case strip =>
    rintro st raw s _ v rfl hf ht ho hop hv hc
    exact exec_strip_of_passed hf ht ho hv rfl hop hc
  case stripFailed =>
    rintro st raw s _ v code rfl hf ht ho hop hv hc
    exact exec_strip_of_failed hf ht ho hv rfl hop hc
  case admitted =>
    intro st s d hd ha hdata
    rw [exec_bandAdmitted, State.bandAdmit_of_admitted hd ha rfl, if_neg hdata]
  case admittedEmpty =>
    intro st s d hd ha hempty
    rw [exec_bandAdmitted, State.bandAdmit_of_admitted hd ha rfl, if_pos hempty]
  case issue =>
    intro st len s d n hd hm hr ht hn h0
    rw [exec_bandDataReadIssue, State.bandIssue_of_turn hd hm hr ht hn h0]
  case readFailed =>
    intro st data s d hs hd
    rw [exec_bandDataArrival, State.bandData_of_no_stray hs, State.bandTake_of_failed hd]
  case arrival =>
    intro st data s v w d c hs hd hv hc hw
    rw [exec_bandDataArrival, State.bandData_of_no_stray hs]
    refine ⟨?badRow, ?more, ?truncated, ?ready⟩
    case badRow =>
      intro code hb
      rw [State.bandTake_of_bad_row hd hv hc hw hb]
    case more =>
      intro hb hmore
      rw [State.bandTake_of_sound_rows hd hv hc hw hb, if_pos hmore]
    case truncated =>
      intro hb hall hshort
      rw [State.bandTake_of_sound_rows hd hv hc hw hb, if_neg (Nat.not_lt.2 hall), if_pos hshort]
    case ready =>
      intro hb hall hrows
      rw [State.bandTake_of_sound_rows hd hv hc hw hb, if_neg (Nat.not_lt.2 hall), if_neg (Nat.not_lt.2 hrows)]
  case stray =>
    intro st data s n l hs
    exact ⟨by rw [exec_bandDataArrival, State.bandData_of_stray_failed hs], by rw [exec_bandDataArrival, State.bandData_of_stray hs]⟩

end Sys2Proof.Machine
end

section
/-! PROOF. Kiln stages a line and its port's screening goes past it: which operations leave the heads as they are, and that those which change one
keep its staged lines and move its screening forward only (R123, R143, R440). -/

namespace Sys2Proof.Machine
open Sys2Proof

variable (s : State)

/-! ### Operations that leave every head as it is -/

@[simp] theorem State.heads_ite (c : Prop) [Decidable c] (a b : State) :
    (if c then a else b).heads = if c then a.heads else b.heads := apply_ite _ _ _ _

/-- A fold of steps that leave the heads leaves them. -/
@[simp] theorem foldl_heads {β : Type} {f : State → β → State} (hf : ∀ s x, (f s x).heads = s.heads) (l : List β) (s : State) :
    (l.foldl f s).heads = s.heads :=
  List.foldlRecOn (motive := fun t => t.heads = s.heads) l f rfl fun t ht x _ => (hf t x).trans ht

/-! Machine/Ops.lean and Machine/TrimOps.lean -/

@[simp] theorem State.setFld_heads (f : Fld) (x : Nat) : (s.setFld f x).heads = s.heads := by simp [State.setFld]
@[simp] theorem State.setOn_heads (f : Fld) : (s.setOn f).heads = s.heads := by simp [State.setOn]
@[simp] theorem State.setBit_heads (f : Fld) (b : Bool) : (s.setBit f b).heads = s.heads := by simp [State.setBit]
@[simp] theorem State.count_heads (f : Fld) (n : Nat) : (s.count f n).heads = s.heads := by simp [State.count]
@[simp] theorem State.countReg_heads (a n : Nat) : (s.countReg a n).heads = s.heads := by simp [State.countReg]
@[simp] theorem State.setSettled_heads (n : Nat) (b : Bool) : (s.setSettled n b).heads = s.heads := by simp [State.setSettled]
@[simp] theorem State.setDriven_heads (n : Nat) (b : Bool) : (s.setDriven n b).heads = s.heads := by simp [State.setDriven]

/-! Memories and tables -/

@[simp] theorem State.eccFirst_heads (mem region addr kind : Nat) : (s.eccFirst mem region addr kind).heads = s.heads := by
  simp [State.eccFirst]

@[simp] theorem State.eccNote_heads (mem region addr : Nat) (w : MWord) : (s.eccNote mem region addr w).heads = s.heads := by
  simp [State.eccNote]

@[simp] theorem State.setEnt_heads (n : Nat) (e : NEnt) : (s.setEnt n e).heads = s.heads := by simp [State.setEnt]
@[simp] theorem State.setCode_heads (k : Nat) (w : MWord) : (s.setCode k w).heads = s.heads := by simp [State.setCode]
@[simp] theorem State.setCurve_heads (q : Nat) (c : Curve) : (s.setCurve q c).heads = s.heads := by simp [State.setCurve]
@[simp] theorem State.setCurveWord_heads (k : Nat) (w : MWord) : (s.setCurveWord k w).heads = s.heads := by simp [State.setCurveWord]
@[simp] theorem State.setMtxWord_heads (k : Nat) (w : MWord) : (s.setMtxWord k w).heads = s.heads := by simp [State.setMtxWord]
@[simp] theorem State.setFf_heads (j : Nat) (w : MWord) : (s.setFf j w).heads = s.heads := by simp [State.setFf]
@[simp] theorem State.setLast_heads (j : Nat) (w : MWord) : (s.setLast j w).heads = s.heads := by simp [State.setLast]

@[simp] theorem State.setBlend_heads (j : Nat) (w : MWord) : (s.setBlend j w).heads = s.heads := by
  unfold State.setBlend
  split <;> simp

@[simp] theorem State.regionPut_heads (r j : Nat) (w : MWord) : (s.regionPut r j w).heads = s.heads := by simp [State.regionPut]
@[simp] theorem State.regionTouch_heads (r j : Nat) : (s.regionTouch r j).heads = s.heads := by simp [State.regionTouch]
@[simp] theorem State.putMtxSel_heads (p m : Nat) : (s.putMtxSel p m).heads = s.heads := by simp [State.putMtxSel]
@[simp] theorem State.putBlend_heads : s.putBlend.heads = s.heads := by simp [State.putBlend]

@[simp] theorem State.curveSettle_heads (q : Nat) : (s.curveSettle q).heads = s.heads := by
  simp only [State.curveSettle]
  split <;> simp

@[simp] theorem State.fadeEnd_heads (p : Nat) : (s.fadeEnd p).heads = s.heads := by simp [State.fadeEnd]

/-! Ember vectors -/

@[simp] theorem State.kilnReads_heads (cs ms : List Nat) : (s.kilnReads cs ms).heads = s.heads := by simp [State.kilnReads]
@[simp] theorem State.curveMarked_heads (q : Nat) : (s.curveMarked q).heads = s.heads := by simp [State.curveMarked]
@[simp] theorem State.emberReads_heads (v p l : Nat) : (s.emberReads v p l).heads = s.heads := by simp [State.emberReads]

@[simp] theorem State.emberMarks_heads (v p l : Nat) : (s.emberMarks v p l).heads = s.heads := by
  unfold State.emberMarks
  extract_lets ns m s1 s2
  have h1 : s1.heads = s.heads := by simp [s1]
  have h2 : s2.heads = s1.heads := foldl_heads (fun t x => by split <;> simp) ns s1
  simp [h1, h2]

@[simp] theorem State.emberRun_heads (v p l : Nat) : (s.emberRun v p l).heads = s.heads := by simp [State.emberRun]

/-! The twin link -/

@[simp] theorem State.pushEntry_heads (e : TEntry) : (s.pushEntry e).heads = s.heads := by simp [State.pushEntry]
@[simp] theorem State.modTline_heads (p l : Nat) (f : TLine → TLine) : (s.modTline p l f).heads = s.heads := by
  simp [State.modTline, State.setTline]
@[simp] theorem State.twinSend_heads (kind : Nat) (body : List Nat) : (s.twinSend kind body).heads = s.heads := by
  simp [State.twinSend, State.twinPut]
@[simp] theorem State.propose_heads (purpose mask arg : Nat) : (s.propose purpose mask arg).heads = s.heads := by simp [State.propose]
@[simp] theorem State.busMastery_heads (b : Bool) : (s.busMastery b).heads = s.heads := by simp [State.busMastery]
@[simp] theorem State.raiseCause_heads (k : Nat) : (s.raiseCause k).heads = s.heads := by simp [State.raiseCause]
@[simp] theorem State.noteDiv_heads (p l k : Nat) : (s.noteDiv p l k).heads = s.heads := by simp [State.noteDiv]
@[simp] theorem State.emberDiv_heads : s.emberDiv.heads = s.heads := by simp [State.emberDiv]
@[simp] theorem State.goodLine_heads (p l : Nat) : (s.goodLine p l).heads = s.heads := by simp [State.goodLine]
@[simp] theorem State.noteSuspect_heads : s.noteSuspect.heads = s.heads := by simp [State.noteSuspect]
@[simp] theorem State.askReset_heads : s.askReset.heads = s.heads := by simp [State.askReset]

/-! Chain returns -/

@[simp] theorem State.retSum_heads (h : Nat) : (s.retSum h).heads = s.heads := by simp [State.retSum]
@[simp] theorem State.retFail_heads (h l c k : Nat) : (s.retFail h l c k).heads = s.heads := by simp [State.retFail]

/-! ### Operations that change heads keep a staged line -/

/-- Of heads `m`, port `p` holds line `l` staged, an image with its CRC-32 as signature, and its screening is at line `n` or past it. -/
def HoldsLine (p l n : Nat) (m : SMap Head) : Prop :=
  (∃ g ∈ (SMap.get (fun _ => Head.reset) m p).stag, g.line = l ∧ g.sig = crc32 g.image) ∧
    n ≤ (SMap.get (fun _ => Head.reset) m p).screen

variable {s} {p l n : Nat}

@[simp] theorem HoldsLine.ite (c : Prop) [Decidable c] (a b : SMap Head) :
    HoldsLine p l n (if c then a else b) ↔ if c then HoldsLine p l n a else HoldsLine p l n b := by split <;> rfl

/-- A fold of steps that keep a staged line keeps it. -/
@[simp] theorem HoldsLine.foldl {β : Type} {f : State → β → State} (xs : List β) (h : HoldsLine p l n s.heads)
    (hf : ∀ s x, HoldsLine p l n s.heads → HoldsLine p l n (f s x).heads) : HoldsLine p l n (xs.foldl f s).heads :=
  List.foldlRecOn (motive := fun t => HoldsLine p l n t.heads) xs f h fun t ht x _ => hf t x ht

/-- A write of a value that an unlisted key does not read as reads back, canonical form or not. -/
theorem SMap.get_set_of_ne_default {α : Type} [DecidableEq α] {d : Nat → α} {k : Nat} {v : α} (hv : v ≠ d k) :
    ∀ m : SMap α, SMap.get d (SMap.set d m k v) k = v
  | [] => by simp [SMap.set, SMap.get, hv]
  | (k₁, v₁) :: m => by
    have ih := SMap.get_set_of_ne_default hv m
    unfold SMap.set
    by_cases hlt : k < k₁
    · simp [hlt, hv, SMap.get]
    · by_cases he : k = k₁
      · subst he
        simp [hv, SMap.get]
      · simp [hlt, he, SMap.get, ih]

theorem State.head_setHead_of_holdsLine {x : Head} (h : x.stag ≠ []) : (s.setHead p x).head p = x :=
  SMap.get_set_of_ne_default (by rintro rfl; exact h rfl) s.heads

/-- A head that holds the line staged and is screened so far may be put in place. -/
theorem HoldsLine.setHead {x : Head} (hx : ∃ g ∈ x.stag, g.line = l ∧ g.sig = crc32 g.image) (hn : n ≤ x.screen) :
    HoldsLine p l n (s.setHead p x).heads := by
  have h : (s.setHead p x).head p = x := State.head_setHead_of_holdsLine (by obtain ⟨g, hg, _⟩ := hx; exact List.ne_nil_of_mem hg)
  exact ⟨by rw [← State.head, h]; exact hx, by rw [← State.head, h]; exact hn⟩

/-- A change of a head that keeps its staged lines and takes no screening back keeps a staged line. -/
@[simp] theorem HoldsLine.modHead (h : Nat) {f : Head → Head} (hw : HoldsLine p l n s.heads) (hstag : ∀ x, (f x).stag = x.stag)
    (hscr : ∀ x, x.screen ≤ (f x).screen) : HoldsLine p l n (s.modHead h f).heads := by
  by_cases hp : p = h
  · subst hp
    exact HoldsLine.setHead (by rw [hstag]; exact hw.1) (Nat.le_trans hw.2 (hscr _))
  · simpa only [HoldsLine, State.modHead, State.setHead, SMap.get_set_ne _ _ hp] using hw

section
variable (hw : HoldsLine p l n s.heads)
include hw

/-! Trim channels and port modes -/

@[simp] theorem State.trimSettle_holdsLine (k : Nat) : HoldsLine p l n (s.trimSettle k).heads := by simp [State.trimSettle, hw]
@[simp] theorem State.retarget_holdsLine (k : Nat) : HoldsLine p l n (s.retarget k).heads := by simp [State.retarget, hw]
@[simp] theorem State.setWant_holdsLine (k : Nat) (c : Int) : HoldsLine p l n (s.setWant k c).heads := by simp [State.setWant, hw]
@[simp] theorem State.trnShow_holdsLine : HoldsLine p l n s.trnShow.heads := by simp [State.trnShow, hw]
@[simp] theorem State.applyMode_holdsLine (h m : Nat) : HoldsLine p l n (s.applyMode h m).heads := by
  unfold State.applyMode
  extract_lets was drv mon s1 s2
  have h1 : HoldsLine p l n s1.heads := HoldsLine.modHead h (by simp [hw]) (fun _ => rfl) fun _ => Nat.le_refl _
  have h2 : HoldsLine p l n s2.heads := by simp [s2, h1]
  simp [h2]

@[simp] theorem State.portTo_holdsLine (h m : Nat) : HoldsLine p l n (s.portTo h m).heads := by simp [State.portTo, hw]
@[simp] theorem State.allPorts_holdsLine (m : Nat) : HoldsLine p l n (s.allPorts m).heads := by
  simp +contextual [State.allPorts, hw]

/-! Port-outs, divergences and verdicts -/

@[simp] theorem State.beginOut_holdsLine (q bit : Nat) : HoldsLine p l n (s.beginOut q bit).heads := by
  simp [State.beginOut, State.portOutFrom, hw]
@[simp] theorem State.retFault_holdsLine (h : Nat) : HoldsLine p l n (s.retFault h).heads := by simp [State.retFault, hw]
@[simp] theorem State.goOut_holdsLine : HoldsLine p l n s.goOut.heads := by simp [State.goOut, hw]
@[simp] theorem State.rxDiv_holdsLine (q : Nat) (own : Bool) : HoldsLine p l n (s.rxDiv q own).heads := by simp [State.rxDiv, hw]
@[simp] theorem State.divAct_holdsLine (q k : Nat) (own : Bool) : HoldsLine p l n (s.divAct q k own).heads := by simp [State.divAct, hw]

@[simp] theorem State.diverge_holdsLine (q m k : Nat) (own : Bool) : HoldsLine p l n (s.diverge q m k own).heads := by
  simp only [State.diverge]
  split <;> simp [hw]

@[simp] theorem State.compareSig_holdsLine (q m : Nat) : HoldsLine p l n (s.compareSig q m).heads := by
  simp only [State.compareSig]
  split <;> simp [hw]

@[simp] theorem State.compareCls_holdsLine (q m : Nat) : HoldsLine p l n (s.compareCls q m).heads := by
  simp only [State.compareCls]
  split
  · split
    · simp [hw]
    · split <;> simp [hw]
  · exact hw

@[simp] theorem State.verdict_holdsLine (v : Nat) : HoldsLine p l n (s.verdict v).heads := by simp [State.verdict, hw]

@[simp] theorem State.judgeEmber_holdsLine (own other : EmbRes) : HoldsLine p l n (s.judgeEmber own other).heads := by
  simp only [State.judgeEmber]
  split
  · simp [hw]
  · split <;> simp [hw]

@[simp] theorem State.emberTwin_holdsLine (r : EmbRes) : HoldsLine p l n (s.emberTwin r).heads := by
  simp only [State.emberTwin]
  split
  · split <;> simp [hw]
  · exact hw

/-! What follows the staging of a line -/

theorem State.twinScreened_holdsLine (q m : Nat) (sig : Word) (ash : Bool) : HoldsLine p l n (s.twinScreened q m sig ash).heads := by
  simp [State.twinScreened, hw]

theorem State.checkReturn_holdsLine (h m c : Nat) (sig : Word) (bits trailer : Nat) :
    HoldsLine p l n (s.checkReturn h m c sig bits trailer).heads := by simp [State.checkReturn, hw]

theorem State.checkHeld_holdsLine (h m : Nat) (image : List Byte) : HoldsLine p l n (s.checkHeld h m image).heads := by
  unfold State.checkHeld
  split
  · apply State.checkReturn_holdsLine
    exact HoldsLine.modHead h hw (fun _ => rfl) fun _ => Nat.le_refl _
  · exact hw

theorem State.switchAt_holdsLine (q m : Nat) : HoldsLine p l n (s.switchAt q m).heads := by
  unfold State.switchAt
  refine HoldsLine.foldl _ ?_ ?_
  · split <;> simp [hw]
  · intro t k ht
    dsimp only
    split
    · simp [ht]
    · exact ht

theorem State.lateOver_holdsLine (q m : Nat) : HoldsLine p l n (s.lateOver q m).heads := by
  unfold State.lateOver
  split <;> simp [hw]

theorem State.tilePrune_holdsLine (q : Nat) : HoldsLine p l n (s.tilePrune q).heads := by simp [State.tilePrune, hw]

theorem State.emberAfter_holdsLine (q m : Nat) : HoldsLine p l n (s.emberAfter q m).heads := by
  simp [State.emberAfter, State.emberSlot, State.emberBurst, hw]

/-- As the port passes line `l`, its screening goes past it. -/
theorem State.passed_holdsLine : HoldsLine p l (l + 1) (s.passed p l).heads := by
  have hs := State.switchAt_holdsLine hw p l
  simp only [State.passed, State.fadeEnd_heads]
  exact HoldsLine.setHead hs.1 (Nat.le_max_right _ _)

end

/-- Kiln stages an image. -/
theorem State.stage_holdsLine (s : State) (p l : Nat) (image : List Byte) :
    HoldsLine p l 0 (s.modHead p (fun x => { x with stag := x.stag ++ [⟨l, image, crc32 image, []⟩] })).heads :=
  HoldsLine.setHead ⟨_, List.mem_append_right _ (List.mem_singleton.2 rfl), rfl, rfl⟩ (Nat.zero_le _)

/-- After Kiln has screened a line, it stands staged, and the port's screening is past it. -/
theorem State.screenLine_holdsLine (s : State) (p l : Nat) : HoldsLine p l (l + 1) (s.screenLine p l).heads := by
  unfold State.screenLine
  extract_lets c k s0 s1 env ws outs image s2 s3 s4 s5
  have h4 : HoldsLine p l 0 s4.heads := s3.stage_holdsLine p l image
  have h5 : HoldsLine p l 0 s5.heads := State.checkHeld_holdsLine (State.twinScreened_holdsLine h4 _ _ _ _) _ _ _
  exact State.emberAfter_holdsLine (State.tilePrune_holdsLine (State.lateOver_holdsLine (State.passed_holdsLine h5) _ _) _) _ _

end Sys2Proof.Machine
end

section
/-! PROOF. The Stoker, the refetch of marked rows and the order of screening (R113, R120, R147, R148, R387). -/

namespace Sys2Proof.Machine
open Sys2Proof

variable {s : State} {h q y : Nat}

theorem exec_stokerFetch (h : Fin 64) (s : State) : exec (.stokerFetch h) s = .next (s.stokerFetch h) := rfl

theorem exec_refetchDone (q y : Nat) (ok : Bool) (data : List (BitVec 9)) (s : State) :
    exec (.refetchDone q y ok data) s = .next (s.refetchDone q y ok data) := rfl

/-! ### The rows that a Stoker reads (R120, R387) -/

theorem State.stokerRows_nil (h q : Nat) (s : State) : State.stokerRows h q [] s = (true, s) := rfl

/-- A row that is being read again already ends the reading. -/
theorem State.stokerRows_of_asked (hr : (s.band q).refet.contains y = true) (ys : List Nat) :
    State.stokerRows h q (y :: ys) s = (false, s.refetch q y) := by
  simp only [State.stokerRows, hr, if_true]

section
variable {u : State} (hr : (s.band q).refet.contains y = false)
  (hu : (s.storeUse 0 (ceilDiv ((s.band q).rows[y]?.getD []).length 64)).deviceReads (fun i => s.ringPart (s.band q).stream i)
    (fun e => .row q y (e % max 1 (ceilDiv ((s.band q).rows[y]?.getD []).length 8))) = u)
include hr hu

/-- A row found marked must be read again first. -/
theorem State.stokerRows_of_marked (hm : (u.band q).mustRefetch y = true) (ys : List Nat) :
    State.stokerRows h q (y :: ys) s = (false, u.refetch q y) := by
  simp only [State.stokerRows, hr, hu, hm, Bool.false_eq_true, if_false, if_true]

/-- A sound row is decoded, and the next one is read. -/
theorem State.stokerRows_of_sound (hm : (u.band q).mustRefetch y = false) (ys : List Nat) :
    State.stokerRows h q (y :: ys) s = State.stokerRows h q ys (u.modHead h (fun x => { x with decAt := some (q, y) })) := by
  simp only [State.stokerRows, hr, hu, hm, Bool.false_eq_true, if_false]

end

/-! ### A fetch (R113) -/

section
variable (hnext : (s.head h).next ≤ (s.head h).tileTo)
include hnext

theorem State.stokerFetch_of_idle (hidle : s.armed = false ∨ s.fld PWR_STAT_STATE ≠ 0 ∨ s.on FIR_STATE_NOORG = true ∨
    s.isLive h = false ∨ (s.head h).next + 128 ≤ (s.head h).tileTo) : s.stokerFetch h = s := by
  have hstop : (!(s.armed && s.fld PWR_STAT_STATE == 0 && !s.on FIR_STATE_NOORG && s.isLive h)) = true ∨
      (s.head h).next + 128 ≤ (s.head h).tileTo := by
    obtain ha | hp | ho | hl | hfar := hidle
    · simp [ha]
    · simp [hp]
    · simp [ho]
    · simp [hl]
    · exact .inr hfar
  simp only [State.stokerFetch, if_neg (Nat.not_lt.2 hnext)]
  exact if_pos (hstop.elim (fun hs => by simp [hs]) fun hs => by simp [hs])

variable (ha : s.armed = true) (hp : s.fld PWR_STAT_STATE = 0) (ho : s.on FIR_STATE_NOORG = false) (hl : s.isLive h = true)
  (hnear : (s.head h).tileTo < (s.head h).next + 128) (hb : (s.head h).before (s.head h).tileTo = true)
include ha hp ho hl hnear hb

/-- A disabled line is passed over. -/
theorem State.stokerFetch_of_disabled (he : s.enAt h (s.head h).tileTo = false) :
    s.stokerFetch h = (s.modHead h (fun x => { x with tileTo := (s.head h).tileTo + 1 })).refBuild h := by
  simp [State.stokerFetch, State.tileStep, Nat.not_lt.2 hnext, ha, hp, ho, hl, Nat.not_le.2 hnear, hb, he]

/-- The first missing row of the line comes in, with the rows that its decoding takes. -/
theorem State.stokerFetch_of_missing {st : Nat} {x : Bool × State} (he : s.enAt h (s.head h).tileTo = true) (hst : s.streamOf h = some st)
    (hk : (s.strm st).kindAt (s.head h).tileTo = .band q) (hr : (s.band q).ready = true)
    (hy : (s.rowsFor (s.band q) (s.head h).tileTo).find? (fun y => ((s.head h).row q y).isNone) = some y)
    (hroom : (s.head h).tile.length < 64) (hx : State.stokerRows h q (s.decodeRows h q y) s = x) :
    s.stokerFetch h = if x.1 then (x.2.tileRow h q y).tileStep h else x.2 := by
  simp [State.stokerFetch, Nat.not_lt.2 hnext, ha, hp, ho, hl, Nat.not_le.2 hnear, hb, he, hst, hk, hr, hy, Nat.not_le.2 hroom, hx]

end

/-! ### The end of a refetch (R387) -/

theorem State.refetchDone_of_not_asked (hn : (s.band q).asked.any (fun a => a.1 == y) = false) (ok : Bool) (data : List MByte) :
    s.refetchDone q y ok data = s := by
  simp only [State.refetchDone, hn, Bool.not_false, if_true]

section
variable {u : State} {data : List MByte} (hasked : (s.band q).asked.any (fun a => a.1 == y) = true)
include hasked

/-- Sound data of a raw row, of the row's length, replace it. -/
theorem State.refetchDone_of_sound (hclean : mAny data = false) (hlen : data.length = ((s.band q).rows[y]?.getD []).length)
    (hraw : fmtTurf (s.band q).fmt = false) (hu : s.storesBand (s.band q).stream (ceilDiv data.length 64) = u) :
    s.refetchDone q y true data = u.setBand q { s.band q with
      refet := (s.band q).refet.filter (fun z => z != y), rows := (s.band q).rows.set y data
      asked := (s.band q).asked.filter (fun a => a.1 != y) } := by
  simp [State.refetchDone, hasked, hclean, hlen, hraw, ← hu]

/-- A failed read leaves the row recorded as failed. -/
theorem State.refetchDone_of_failed (hu : s.readFailed true = u) :
    s.refetchDone q y false data = (u.setBand q { s.band q with
      refet := (s.band q).refet.filter (fun z => z != y), refail := (s.band q).refail ++ [y]
      asked := (s.band q).asked.filter (fun a => a.1 != y) }).countReg ECC_REFAIL 1 := by
  simp [State.refetchDone, hasked, hu]

end

/-! ### The order of screening (R148) -/

theorem exec_lineScreen_of_some {p l : Nat} (h : s.screenNext = some (p, l)) : exec .lineScreen s = .next (s.screenLine p l) := by
  simp only [exec, execLineScreen, h]

theorem exec_lineScreen_of_none (h : s.screenNext = none) : exec .lineScreen s = .next s := by
  simp only [exec, execLineScreen, h]

theorem exec_embreqBurst_of_served (h : s.barOk 3 = true) :
    exec .embreqBurst s = .next { s with kiln := { s.kiln with want := true } } :=
  congrArg Host.Outcome.next (State.bar_of_served h _)

/-- Settles O20: a fetch, the end of a refetch and a screening each take the branch that their guards name, and what follows the staging of a line
keeps it staged. -/
theorem stokerAndKilnRun : Obligations.StokerAndKilnRun := by
  refine ⟨?disabled, ?missing, ?rows, ?idle, ?refetched, ?failed, ?notAsked, fun s p l h => exec_lineScreen_of_some h,
    fun s h => exec_lineScreen_of_none h, fun s h => exec_embreqBurst_of_served h, ?staged⟩
  case disabled =>
    intro h s ha hp ho hl hnext hnear hb he
    rw [exec_stokerFetch, State.stokerFetch_of_disabled hnext ha hp ho hl hnear hb he]
  case missing =>
    intro h s st q y x ha hp ho hl hnext hnear hb he hst hk hr hy hroom hx
    rw [exec_stokerFetch, State.stokerFetch_of_missing hnext ha hp ho hl hnear hb he hst hk hr hy hroom hx]
  case rows =>
    intro h q y ys s u hu
    exact ⟨fun hr => State.stokerRows_of_asked hr ys, fun hr hm => State.stokerRows_of_marked hr hu hm ys,
      fun hr hm => State.stokerRows_of_sound hr hu hm ys, State.stokerRows_nil h q s⟩
  case idle =>
    intro h s hnext hidle
    rw [exec_stokerFetch, State.stokerFetch_of_idle hnext hidle]
  case refetched =>
    intro q y data s u hasked hclean hlen hraw hu
    rw [exec_refetchDone, State.refetchDone_of_sound hasked hclean hlen hraw hu]
  case failed =>
    intro q y data s u hasked hu
    rw [exec_refetchDone, State.refetchDone_of_failed hasked hu]
  case notAsked =>
    intro q y ok data s hn
    rw [exec_refetchDone, State.refetchDone_of_not_asked hn]
  case staged =>
    intro s p l _ h
    obtain ⟨hstag, hscr⟩ := s.screenLine_holdsLine p l
    exact ⟨_, exec_lineScreen_of_some h, hscr, hstag⟩

end Sys2Proof.Machine
end

section
/-! PROOF. What a read of a memory leaves of the scrubber: its places, and the size of the store (R384, R390). -/

namespace Sys2Proof.Machine
open Sys2Proof

/-- What the scrubber goes by: its places in both memories, and SWS_CAP, which tells where the store ends. -/
def State.scrubView (s : State) : Power × Word := (s.power, s.reg SWS_CAP)

variable (s : State)

theorem State.power_of_scrubView {s t : State} (h : t.scrubView = s.scrubView) : t.power = s.power := congrArg Prod.fst h

theorem State.storeSize_of_scrubView {s t : State} (h : t.scrubView = s.scrubView) : t.storeSize = s.storeSize := by
  have hcap : t.reg SWS_CAP = s.reg SWS_CAP := congrArg Prod.snd h
  simp only [State.storeSize, State.fld, hcap]

@[simp] theorem State.scrubView_ite (c : Prop) [Decidable c] (a b : State) :
    (if c then a else b).scrubView = if c then a.scrubView else b.scrubView := apply_ite _ _ _ _

/-- A fold of steps that leave what the scrubber goes by leaves it. -/
@[simp] theorem foldl_scrubView {β : Type} {f : State → β → State} (hf : ∀ s x, (f s x).scrubView = s.scrubView) (l : List β) (s : State) :
    (l.foldl f s).scrubView = s.scrubView :=
  List.foldlRecOn (motive := fun t => t.scrubView = s.scrubView) l f rfl fun t ht x _ => (hf t x).trans ht

/-! ### Registers and single fields -/

theorem State.setReg_scrubView {a : Nat} (v : Word) (h : SWS_CAP ≠ a) : (s.setReg a v).scrubView = s.scrubView :=
  Prod.ext rfl (State.reg_setReg_ne s v h)

theorem State.countReg_scrubView {a : Nat} (n : Nat) (h : SWS_CAP ≠ a) : (s.countReg a n).scrubView = s.scrubView := s.setReg_scrubView _ h

@[simp] theorem State.alarm_scrubView (i : Nat) : (s.alarm i).scrubView = s.scrubView := rfl
@[simp] theorem State.setTabs_scrubView (t : Tables) : (s.setTabs t).scrubView = s.scrubView := rfl
@[simp] theorem State.setInsp_scrubView (x : Insp) : (s.setInsp x).scrubView = s.scrubView := rfl

@[simp] theorem State.eccFirst_scrubView (mem region addr kind : Nat) : (s.eccFirst mem region addr kind).scrubView = s.scrubView := by
  unfold State.eccFirst
  split
  · rfl
  · rw [State.setReg_scrubView _ _ (by decide), State.setReg_scrubView _ _ (by decide), State.setReg_scrubView _ _ (by decide)]

@[simp] theorem State.eccNote_scrubView (mem region addr : Nat) (w : MWord) : (s.eccNote mem region addr w).scrubView = s.scrubView := by
  have hunc : SWS_CAP ≠ ECC_UNC mem := by unfold SWS_CAP ECC_UNC; omega
  have hcor : SWS_CAP ≠ ECC_COR mem := by unfold SWS_CAP ECC_COR; omega
  simp [State.eccNote, State.countReg_scrubView _ _ hunc, State.countReg_scrubView _ _ hcor]

/-! ### Words of the on-chip SRAM -/

@[simp] theorem State.setBlend_scrubView (j : Nat) (w : MWord) : (s.setBlend j w).scrubView = s.scrubView := by
  unfold State.setBlend
  split <;> rfl

@[simp] theorem State.regionPut_scrubView (r j : Nat) (w : MWord) : (s.regionPut r j w).scrubView = s.scrubView := by
  simp [State.regionPut, State.setLast, State.setEnt, State.setCurveWord, State.setMtxWord, State.setCode, State.setFf]

@[simp] theorem State.regionTouch_scrubView (r j : Nat) : (s.regionTouch r j).scrubView = s.scrubView := by simp [State.regionTouch]

/-! ### Words of the store -/

@[simp] theorem State.setStore_scrubView (k : Nat) (w : MWord) : (s.setStore k w).scrubView = s.scrubView := rfl
@[simp] theorem State.setLat_scrubView (k : Nat) (w : MWord) : (s.setLat k w).scrubView = s.scrubView := rfl
@[simp] theorem State.storeTouch_scrubView (k : Nat) : (s.storeTouch k).scrubView = s.scrubView := by simp [State.storeTouch]
@[simp] theorem State.placeOf_scrubView (k : Nat) : (s.placeOf k).2.scrubView = s.scrubView := rfl

@[simp] theorem State.placedWord_scrubView (p : Placed) : (s.placedWord p).2.scrubView = s.scrubView := by
  cases p with
  | ref i w =>
    simp only [State.placedWord]
    split <;> rfl
  | _ => rfl

@[simp] theorem State.placedPut_scrubView (p : Placed) (w : MWord) : (s.placedPut p w).scrubView = s.scrubView := by
  cases p with
  | spill i k =>
    simp only [State.placedPut]
    split <;> rfl
  | _ => rfl

@[simp] theorem State.placedFlip_scrubView (p : Placed) (x : BitVec 64) (mark : Bool) : (s.placedFlip p x mark).scrubView = s.scrubView := by
  cases p <;> simp [State.placedFlip]

@[simp] theorem State.placedTouch_scrubView (k : Nat) (p : Placed) : (s.placedTouch k p).scrubView = s.scrubView := by simp [State.placedTouch]
@[simp] theorem State.wordTouch_scrubView (k : Nat) : (s.wordTouch k).scrubView = s.scrubView := by simp [State.wordTouch]

@[simp] theorem State.storeTouchAll_scrubView (a n : Nat) : (s.storeTouchAll a n).scrubView = s.scrubView := by simp [State.storeTouchAll]

end Sys2Proof.Machine
end

section
/-! PROOF. Scrubbing, commits of the merge buffers, the flip mask and writes through BAR2 (R120, R121, R384, R389, R390, R393, R394). -/

namespace Sys2Proof.Machine
open Sys2Proof

variable {s : State}

/-! ### Scrubbing (R384, R390) -/

theorem exec_scrubStep (t : Nat) (mem : Fin 2) (region : Fin 9) (a : BitVec 35) (flips : BitVec 72) (s : State) :
    exec (.scrubStep t mem region a flips) s = .next ((s.advance t).scrubStep mem region a.toNat flips) := rfl

theorem State.upset_zero (s : State) (mem r a : Nat) : s.upset mem r a 0#72 = s := if_pos rfl

theorem State.regionTouch_of_sound {r j : Nat} (hu : (s.regionWord r j).unc = false) (hc : (s.regionWord r j).cor = false) :
    s.regionTouch r j = s := by
  simp [State.regionTouch, hu, hc]

section
variable {mem r a : Nat} {flips : BitVec 72}

theorem State.scrubStep_of_not_due (h : s.scrubDue mem = false) : s.scrubStep mem r a flips = s := by
  simp [State.scrubStep, h]

theorem State.scrubStep_sram (h : s.scrubDue 0 = true) :
    s.scrubStep 0 r a flips = ((s.upset 0 r a flips).startTimer (tmScrub 0)).scrubSram := by
  simp [State.scrubStep, h, memSRAM]

theorem State.scrubStep_store (h : s.scrubDue 1 = true) :
    s.scrubStep 1 r a flips = ((s.upset 1 r a flips).startTimer (tmScrub 1)).scrubStore := by
  simp [State.scrubStep, h, memSRAM]

end

/-- With nothing gathered, the word at the scrub pointer is read, and the pointer moves on. -/
theorem State.scrubSram_of_empty {r j : Nat} (hm : s.mergeBuf memSRAM = none) (hp : scrubPlace scrubOrder s.power.scrub = (r, j)) :
    s.scrubSram = (s.regionTouch r j).setPower { (s.regionTouch r j).power with scrub := ((s.regionTouch r j).power.scrub + 1) % sramWords } := by
  simp only [State.scrubSram, hm, hp, State.power_of_scrubView (s.regionTouch_scrubView r j)]

/-- With nothing gathered, the burst at the scrub pointer is read, and the pointer moves on. -/
theorem State.scrubStore_of_empty {w : State} {p : Nat} (hm : s.mergeBuf memSTORE = none) (hp : s.power.burst = p)
    (hw : (s.countReg (SWS_BW 4) 1).storeTouchAll (64 * p) 64 = w) :
    s.scrubStore = w.setPower { w.power with burst := if w.storeSize ≤ 64 * (p + 1) then 0 else p + 1 } := by
  have hv : w.scrubView = s.scrubView := by
    rw [← hw, State.storeTouchAll_scrubView, State.countReg_scrubView _ _ (by decide)]
  simp only [State.scrubStore, hm, hp, hw, State.power_of_scrubView hv, State.storeSize_of_scrubView hv]

/-! ### MERGE_COMMIT (R389) -/

theorem exec_mergeCommit (t : Nat) (mem : Fin 3) (s : State) :
    exec (.mergeCommit t mem) s = .next ((s.advance t).mergeTimeout mem) := rfl

theorem State.mergeTimeout_of_empty {mem : Nat} (h : s.mergeBuf mem = none) : s.mergeTimeout mem = s := by
  simp only [State.mergeTimeout, h]

theorem State.mergeTimeout_of_young {mem : Nat} {b : Narrow} (h : s.mergeBuf mem = some b) (hy : s.clk < b.at_ + 1600) :
    s.mergeTimeout mem = s := by
  simp only [State.mergeTimeout, h]
  exact if_neg (Nat.not_le.2 hy)

/-- A buffer whose last write is 4 µs old commits. -/
theorem State.mergeTimeout_of_old {mem : Nat} {b : Narrow} (h : s.mergeBuf mem = some b) (ho : b.at_ + 1600 ≤ s.clk) :
    s.mergeTimeout mem = if mem = memSRAM then s.mergeCommit else if mem = memSTORE then s.storeMerge else s.hsMerge := by
  simp only [State.mergeTimeout, h]
  exact if_pos ho

/-! ### The flip mask (R393, R394) -/

section
variable (target w : Nat) (v : BitVec 64)

theorem State.commitWord_of_disarmed (h : s.on ECC_FLIPCTL_ARM = false) : s.commitWord target w v = (MWord.clean v, s) := by
  simp only [State.commitWord, h, Bool.false_and, Bool.false_eq_true, if_false]

theorem State.commitWord_of_ash (h : s.on ECC_FLIPCTL_ARM = true) (ht : s.fld ECC_FLIPCTL_TARGET = target) (ha : s.on ECC_FLIPCTL_ASH = true) :
    s.commitWord target w v = (MWord.marked v, if s.on ECC_FLIPCTL_PERSIST then s else s.setFld ECC_FLIPCTL_ARM 0) := by
  simp only [State.commitWord, h, ht, ha, beq_self_eq_true, Bool.and_self, if_true]

end

section
variable {v : BitVec 32} {hearth : Bool}

theorem exec_eccFlipctlWrite (v : BitVec 32) (hearth : Bool) (s : State) :
    exec (.eccFlipctlWrite v hearth) s = .next (s.byWriter hearth (fun s => s.bar 16 (fun s => s.flipWrite v hearth))) := rfl

theorem exec_eccFlipctlWrite_of_served (hb : s.barOk 16 = true) (hw : hearth = true → s.firmwareOn = true) :
    exec (.eccFlipctlWrite v hearth) s = .next (s.flipWrite v hearth) := by
  rw [exec_eccFlipctlWrite, State.byWriter_of_allowed hw, State.bar_of_served hb]

theorem State.flipWrite_of_armed (ha : s.armed = true) (hv : v.getLsbD 2 = true) : s.flipWrite v hearth = s.refuse erARMED ECC_FLIPCTL := by
  simp only [State.flipWrite, ha, hv, Bool.and_self, if_true]

variable (h : s.armed = false ∨ v.getLsbD 2 = false)
include h

/-- A write takes the five bits; one by the host of TARGET 11b keeps TARGET. -/
theorem State.flipWrite_of_taken : s.flipWrite v hearth = s.setReg ECC_FLIPCTL
    (if bitsOf v.toNat 0 2 = 3 ∧ !hearth then putBits (v &&& 0x1F#32) 0 2 (s.fld ECC_FLIPCTL_TARGET) else v &&& 0x1F#32) := by
  have hn : (s.armed && v.getLsbD 2) = false := by simpa only [Bool.and_eq_false_iff] using h
  simp only [State.flipWrite, hn, Bool.false_eq_true, if_false]

end

/-! ### A commit of the store's buffer (R389) -/

section
variable {b : Narrow} (hb : s.mergeBuf memSTORE = some b) (hf : s.on ECC_FLIPCTL_ARM = false)
include hb hf

/-- A commit of a whole word puts in a clean word. -/
theorem State.storeMerge_of_full (hm : b.mask = 255) :
    s.storeMerge = ((if (s.setMerge memSTORE none).unplaced b.key = true then ((s.setMerge memSTORE none).placeOf b.key).2
      else s.setMerge memSTORE none).hostWord b.key (if (s.setMerge memSTORE none).unplaced b.key = true
        then ((s.setMerge memSTORE none).placeOf b.key).1 else .idle) (MWord.clean (BitVec.ofNat 64 b.val))) := by
  by_cases hp : (s.setMerge memSTORE none).unplaced b.key = true
  · have hd : ((s.setMerge memSTORE none).placeOf b.key).2.on ECC_FLIPCTL_ARM = false := hf
    simp only [State.storeMerge, hb, hm, hp, if_true, State.commitWord_of_disarmed _ _ _ hd]
  · have hd : (s.setMerge memSTORE none).on ECC_FLIPCTL_ARM = false := hf
    simp only [State.storeMerge, hb, hm, hp, if_true, if_false, State.commitWord_of_disarmed _ _ _ hd, Bool.false_eq_true]

/-- A commit of fewer bytes over a marked word that the host has written keeps the mark. -/
theorem State.storeMerge_of_marked (hm : b.mask ≠ 255) (hp : (s.setMerge memSTORE none).unplaced b.key = false)
    (hu : (s.storeWord b.key).unc = false) (hc : (s.storeWord b.key).cor = false) (ha : (s.storeWord b.key).ash = true) :
    s.storeMerge = ((s.setMerge memSTORE none).countReg ECC_MERGEASH 1).hostWord b.key .idle
      (MWord.marked (BitVec.ofNat 64 (mergeBytes (s.storeWord b.key).data.toNat b.val b.mask))) := by
  have hw : (s.setMerge memSTORE none).storeWord b.key = s.storeWord b.key := rfl
  have ht : (s.setMerge memSTORE none).storeTouch b.key = s.setMerge memSTORE none := by simp [State.storeTouch, hw, hu, hc]
  have ho : (s.storeWord b.key).out = ((s.storeWord b.key).data, true) := by simp [MWord.out, hu, ha]
  have hd : (s.setMerge memSTORE none).on ECC_FLIPCTL_ARM = false := hf
  have hraw : ∀ v, (MWord.clean v).raw = v := fun v => by simp [MWord.clean, MWord.raw]
  simp only [State.storeMerge, hb, hm, hp, ht, hw, ho, hraw, State.commitWord_of_disarmed _ _ _ hd, Bool.false_eq_true, if_false, if_true]

end

/-! ### BAR2 (R121) -/

theorem exec_bar2WindowWrite (t : Nat) (off : BitVec 26) (len : Fin 9) (v : BitVec 64) (s : State) :
    exec (.bar2WindowWrite t off len v) s = .next (if len.val = 0 ∨ 8 < off.toNat % 8 + len.val then s.advance t
      else (s.advance t).bar2Write off.toNat len v.toNat) := rfl

section
variable {off len v : Nat}

theorem State.bar2Write_of_armed (h : s.armed = true) : s.bar2Write off len v = s.swsErr erARMED 0 := by
  simp only [State.bar2Write, h, if_true]

theorem State.bar2Write_of_not_served (h : s.armed = false) (ha : s.bar2Addr off len = none) : s.bar2Write off len v = s := by
  simp only [State.bar2Write, h, ha, Bool.false_eq_true, if_false]

theorem State.bar2Write_of_served {a : Nat} {x : State} {b : Narrow} (h : s.armed = false) (ha : s.bar2Addr off len = some a)
    (hx : (s.storeAway (a / 8)).countReg (SWS_BW 5) 1 = x)
    (hb : ((x.mergeBuf memSTORE).getD ⟨a / 8, 0, 0, x.clk⟩).add (a % 8) len v x.clk = b) :
    s.bar2Write off len v = if b.mask = 255 then (x.setMerge memSTORE (some b)).storeMerge else x.setMerge memSTORE (some b) := by
  simp only [State.bar2Write, h, ha, hx, hb, Bool.false_eq_true, if_false]

end

/-- Settles O58: each command takes the branch that its guards name, and no read moves the scrubber's places or changes the store's size. -/
theorem memoryIntegrityRuns : Obligations.MemoryIntegrityRuns := by
  refine ⟨?notDue, ?sram, ?store, State.upset_zero, fun s r j => State.regionTouch_of_sound, ?empty, ?commit, ?storeCommit, fun s k w => rfl,
    ?noFirmware, ?flipctl, ?flipctlShut, ?commitWord, ?bar2⟩
  case notDue =>
    rintro t mem region a flips s _ rfl hdue
    rw [exec_scrubStep, State.scrubStep_of_not_due hdue]
  case sram =>
    rintro t region a flips s _ v r j rfl hdue rfl hm hp
    exact congrArg Host.Outcome.next ((State.scrubStep_sram hdue).trans (State.scrubSram_of_empty hm hp))
  case store =>
    rintro t region a flips s _ v w p rfl hdue rfl hm hp hw
    exact congrArg Host.Outcome.next ((State.scrubStep_store hdue).trans (State.scrubStore_of_empty hm hp hw))
  case empty =>
    rintro t mem s _ rfl hm
    rw [exec_mergeCommit, State.mergeTimeout_of_empty hm]
  case commit =>
    rintro t mem s _ b rfl hm
    refine ⟨fun hy => ?_, fun ho h => ?_, fun ho h => ?_, fun ho h => ?_⟩
    · rw [exec_mergeCommit, State.mergeTimeout_of_young hm hy]
    all_goals
      subst h
      rw [exec_mergeCommit, State.mergeTimeout_of_old hm ho]
      rfl
  case storeCommit =>
    exact fun s b hb => ⟨fun hm hf => State.storeMerge_of_full hb hf hm,
      fun hm hp hu hc ha hf => State.storeMerge_of_marked hb hf hm hp hu hc ha⟩
  case noFirmware =>
    intro v s hf
    rw [exec_eccFlipctlWrite, State.byWriter_of_firmware_off hf]
  case flipctl =>
    intro v hearth s hb hw
    refine ⟨fun ha hv => ?_, fun h ht => ?_, fun h ht hh => ?_⟩
    · rw [exec_eccFlipctlWrite_of_served hb hw, State.flipWrite_of_armed ha hv]
    · have hn : ¬ (bitsOf v.toNat 0 2 = 3 ∧ (!hearth) = true) := fun hc => ht.elim (fun h3 => h3 hc.1) fun he => by simp [he] at hc
      rw [exec_eccFlipctlWrite_of_served hb hw, State.flipWrite_of_taken h, if_neg hn]
    · rw [exec_eccFlipctlWrite_of_served hb hw, State.flipWrite_of_taken h, if_pos ⟨ht, by rw [hh]; rfl⟩]
  case flipctlShut =>
    intro v hearth s hb
    have hself : s.bar 16 (fun s => s.flipWrite v hearth) = s := State.bar_of_not_served hb _
    exact congrArg Host.Outcome.next (State.byWriter_eq_self hearth (f := fun s => s.bar 16 (fun s => s.flipWrite v hearth)) hself)
  case commitWord =>
    exact fun s target w v => ⟨State.commitWord_of_disarmed target w v, State.commitWord_of_ash target w v⟩
  case bar2 =>
    rintro t off len v s _ rfl
    have hword (h1 : 1 ≤ len.val) (h8 : off.toNat % 8 + len.val ≤ 8) : ¬ (len.val = 0 ∨ 8 < off.toNat % 8 + len.val) := by omega
    refine ⟨fun hl => ?_, fun h1 h8 ha => ?_, fun ha hn => ?_, fun a x b h1 h8 ha hs hx hb => ?_⟩
    · rw [exec_bar2WindowWrite, if_pos hl]
    · rw [exec_bar2WindowWrite, if_neg (hword h1 h8), State.bar2Write_of_armed ha]
    · rw [exec_bar2WindowWrite, State.bar2Write_of_not_served ha hn, ite_self]
    · rw [exec_bar2WindowWrite, if_neg (hword h1 h8), State.bar2Write_of_served ha hs hx hb]

end Sys2Proof.Machine
end

section
/-! PROOF. Kiln's registers while a job is armed: which writes are discarded, and that KLN_EMBREQ and the W1C and RC fields still act (R151,
R420, R421). -/

namespace Sys2Proof.Machine

open Sys2Proof

variable {s u : State} {t a len v : Nat} {r : RegRow}

/-! ### Accesses to Kiln's block (R6, R369, R418) -/

theorem blkOf_kiln (h1 : 0x40000 ≤ a) (h2 : a < 0x80000) : blkOf a = 3 := by
  unfold blkOf
  rw [if_neg (by omega), if_neg (by omega), if_neg (by omega), if_pos (by omega)]

theorem aonServed_kiln (h1 : 0x40000 ≤ a) (h2 : a < 0x80000) : aonServed a = false := by
  simp only [aonServed, Bool.or_eq_false_iff, Bool.and_eq_false_iff, decide_eq_false_iff_not]
  omega

theorem noWindow_kiln (h2 : a < 0x80000) : winNZT a = false ∧ winMTX a = false ∧ winRET a = false := by
  simp only [winNZT, winMTX, winRET, Bool.and_eq_false_iff, decide_eq_false_iff_not]
  omega

/-- BAR0 serves Kiln's block, and the block is in no reset of its own. -/
theorem State.kiln_served_of_barOk (hb : u.barOk 3 = true) (h1 : 0x40000 ≤ a) (h2 : a < 0x80000) :
    u.open_ a = true ∧ u.inReset a = false := by
  simp only [State.barOk, Bool.and_eq_true, Bool.not_eq_true'] at hb
  obtain ⟨⟨hdone, hawake⟩, hreset⟩ := hb
  simp only [State.open_, State.inReset, aonServed_kiln h1 h2, blkOf_kiln h1 h2, hdone, hawake, hreset, Bool.and_false, Bool.and_self,
    Bool.false_eq_true, if_false, and_self]

theorem State.regWrite_kiln (u : State) (r : RegRow) (m v : Word) (off len : Nat) (hearth : Bool) (h1 : 0x40000 ≤ a) (h2 : a < 0x80000) :
    u.regWrite a r m v off len hearth = u.klnWrite a r m v := by
  unfold State.regWrite
  rw [if_neg (by omega), if_neg (by omega), if_neg (by omega), if_neg (by omega), if_pos h2]

/-- The enabled bits of what a write of `len` bytes `v` at `a` puts into its word. -/
def laneValue (a len v : Nat) : Word := BitVec.ofNat 32 (v * 2 ^ (8 * (a % 4))) &&& byteMask (a % 4) len

theorem State.write32_kiln (hearth : Bool) (hb : u.barOk 3 = true) (h1 : 0x40000 ≤ a) (h2 : a < 0x80000) (hl : 1 ≤ len) (h4 : a % 4 + len ≤ 4)
    (hrow : regRowAt (a - a % 4) = some r) :
    u.write32 a len v hearth = u.klnWrite (a - a % 4) r (byteMask (a % 4) len) (laneValue a len v) := by
  obtain ⟨ho, hi⟩ := State.kiln_served_of_barOk hb h1 h2
  obtain ⟨hn, hm, hw⟩ := noWindow_kiln h2
  simp only [State.write32, State.write32_served hl h4 ho hi, hn, hm, hw, hrow, Bool.false_eq_true, if_false]
  exact State.regWrite_kiln u r _ _ _ _ hearth (by omega) (by omega)

/-- A served write of one word of Kiln's block is the write of its register. -/
theorem exec_registerWrite_kiln {a : BitVec 22} {len : Fin 9} (v : BitVec 64) {hearth : Bool} (hb : (s.advance t).barOk 3 = true)
    (hw : hearth = true → (s.advance t).firmwareOn = true) (h1 : 0x40000 ≤ a.toNat) (h2 : a.toNat < 0x80000) (hl : 1 ≤ len.val)
    (h4 : a.toNat % 4 + len.val ≤ 4) (hrow : regRowAt (a.toNat - a.toNat % 4) = some r) :
    exec (.registerWrite t ⟨0, a⟩ len v hearth) s = .next ((s.advance t).klnWrite (a.toNat - a.toNat % 4) r (byteMask (a.toNat % 4) len)
      (laneValue a.toNat len v.toNat)) := by
  rw [exec_registerWrite_bar0, State.accessAt_of_not_stepAfter (State.stepAfter_below s t (by omega)), State.byWriter_of_allowed hw,
    State.bar0Write_of_ne_eight (by omega), State.write32_kiln hearth hb h1 h2 hl h4 hrow]

theorem embreq_has_row : ∃ r, regRowAt KLN_EMBREQ = some r := ⟨_, rfl⟩

theorem State.klnWrite_embreq (u : State) (r : RegRow) {m v : Word} (h : (v &&& m).getLsbD 0 = true) :
    u.klnWrite KLN_EMBREQ r m v = { u with kiln := { u.kiln with want := true } } := by
  simp only [State.klnWrite, h, if_true, State.burstWant]

theorem State.klnWrite_of_ne_embreq (u : State) (r : RegRow) (m v : Word) (h : a ≠ KLN_EMBREQ) : u.klnWrite a r m v = u.takeWrite a r m v :=
  if_neg h

/-! ### The bits that a write of a whole word reaches -/

theorem getLsbD_byteMask_zero (hl : 1 ≤ len) : (byteMask 0 len).getLsbD 0 = true := by
  have h8 : 0 < 8 * len := by omega
  simp only [byteMask, Nat.mul_zero, Nat.shiftLeft_zero, BitVec.getLsbD_ofNat, Nat.testBit_two_pow_sub_one, h8, decide_true, Bool.and_true,
    Nat.zero_lt_succ]

/-- The lower half of a value has its lower 32 bits. -/
theorem getLsbD_ofNat_toNat (v : BitVec 64) {i : Nat} (hi : i < 32) : (BitVec.ofNat 32 v.toNat).getLsbD i = v.getLsbD i := by
  rw [BitVec.getLsbD_ofNat, decide_eq_true hi, Bool.true_and, BitVec.testBit_toNat]

theorem getLsbD_laneValue_zero (h4 : a % 4 = 0) (hl : 1 ≤ len) (v : BitVec 64) : (laneValue a len v.toNat).getLsbD 0 = v.getLsbD 0 := by
  rw [laneValue, h4, Nat.mul_zero, Nat.pow_zero, Nat.mul_one, BitVec.getLsbD_and, getLsbD_byteMask_zero hl, Bool.and_true,
    getLsbD_ofNat_toNat v (by decide)]

theorem laneValue_word (h4 : a % 4 = 0) (v : Nat) : laneValue a 4 v = BitVec.ofNat 32 v := by
  rw [laneValue, h4, and_byteMask_word, Nat.mul_zero, Nat.pow_zero, Nat.mul_one]

/-! ### The registers that an armed job freezes (R151, R420) -/

/-- The offsets of the registers that R151 names. -/
def kilnConfig : List Nat :=
  [KLN_CTL, KLN_COLS, KLN_ROTCFG, KLN_MTXCFG, KLN_MTXSEL 0, KLN_MTXSEL 1, KLN_MTXSEL 2, KLN_MTXSEL 3, KLN_EMBCTL]

theorem kilnConfig_frozen : ∀ b ∈ kilnConfig, frozen b = true := by decide

theorem kilnConfig_ne_embreq : ∀ b ∈ kilnConfig, b ≠ KLN_EMBREQ := by decide

theorem kilnConfig_in_kiln : ∀ b ∈ kilnConfig, 0x40000 ≤ b ∧ b + 4 ≤ 0x80000 := by decide

theorem kilnConfig_has_row : ∀ b ∈ kilnConfig, (regRowAt b).isSome = true := by decide

/-- A write of a Kiln register that is discarded during a job is recorded in KLN_ERR. -/
theorem State.armedAt_kiln (u : State) (h1 : 0x40000 ≤ a) (h2 : a < 0x80000) : u.armedAt a = u.recordAt KLN_ERR erARMED a := by
  have hblock : blockErr a = some KLN_ERR := by
    unfold blockErr
    rw [if_neg (by omega), if_neg (by omega), if_neg (by omega), if_pos h2]
  unfold State.armedAt State.refuse
  rw [if_neg (by omega), hblock]

theorem State.klnWrite_config (r : RegRow) (m v : Word) (ha : u.armed = true) (hc : a ∈ kilnConfig) :
    u.klnWrite a r m v = u.recordAt KLN_ERR erARMED a := by
  obtain ⟨h1, h2⟩ := kilnConfig_in_kiln a hc
  rw [State.klnWrite_of_ne_embreq u r m v (kilnConfig_ne_embreq a hc), State.takeWrite, ha, kilnConfig_frozen a hc]
  exact State.armedAt_kiln u h1 (by omega)

theorem State.klnWrite_of_not_frozen (r : RegRow) (m v : Word) (hreq : a ≠ KLN_EMBREQ) (hf : frozen a = false) :
    u.klnWrite a r m v = u.plainWrite a r m v := by
  rw [State.klnWrite_of_ne_embreq u r m v hreq, State.takeWrite, hf, Bool.and_false, if_neg Bool.false_ne_true]

/-! ### The W1C fields (R7) -/

theorem w1c_in_kiln : ∀ b ∈ [KLN_EMBSTAT, KLN_ERR], 0x40000 ≤ b ∧ b < 0x80000 ∧ b % 4 = 0 ∧ b ≠ KLN_EMBREQ := by decide

/-- Each register of Kiln with a W1C bit is one that no job freezes and of whose bits a write can only clear bit 31. -/
theorem w1c_kiln : ∀ b ∈ [KLN_EMBSTAT, KLN_ERR], frozen b = false ∧
    legals.all (fun l => (bankAt b l.base l.count l.stride).isNone) = true ∧
    ∃ r, regRowAt b = some r ∧ r.rw = 0 ∧ r.w1c = 2 ^ 31 ∧ r.w1s = 0 := by
  intro b hb
  simp only [List.mem_cons, List.not_mem_nil, or_false] at hb
  obtain rfl | rfl := hb <;> exact ⟨by decide, by decide, _, rfl, rfl, rfl, rfl⟩

/-- A write of a whole word with bit 31 clears a W1C bit 31 that stood, and nothing else. -/
theorem State.getLsbD_reg_plainWrite_w1c (hs : u.canonical) {v : Word}
    (hl : legals.all (fun l => (bankAt a l.base l.count l.stride).isNone) = true) (hrw : r.rw = 0) (hc : r.w1c = 2 ^ 31) (hset : r.w1s = 0)
    (hv : v.getLsbD 31 = true) (hstood : (u.times.was.get regReset a).getLsbD 31 = true) {i : Nat} (hi : i < 32) :
    ((u.plainWrite a r (byteMask 0 4) v).reg a).getLsbD i = if i = 31 then false else (u.reg a).getLsbD i := by
  have hm : (byteMask 0 4).getLsbD i = true := by
    rw [show byteMask 0 4 = BitVec.allOnes 32 by decide, BitVec.getLsbD_allOnes, decide_eq_true hi]
  have hbit : r.w1c.testBit i = decide (31 = i) := by rw [hc, Nat.testBit_two_pow]
  rw [State.getLsbD_reg_plainWrite hs hi _ v hl (by rw [hrw, Nat.zero_and]) (by rw [hrw, Nat.zero_and]) (by rw [hset, Nat.and_zero]), if_pos hm,
    hbit, hrw, hset]
  by_cases h : i = 31
  · subst h
    simp [hv, hstood]
  · simp [h, Ne.symm h]

/-! ### The RC fields (R7) -/

/-- What is shown of a register draws at most a free value: registers stand. -/
theorem State.shown_keeps (u : State) (a : Nat) (r : RegRow) : (u.shown a r).2.regs = u.regs ∧ (u.shown a r).2.times = u.times := by
  unfold State.shown
  dsimp only
  split
  · exact ⟨rfl, rfl⟩
  · exact ⟨rfl, rfl⟩

/-- A read of a whole Kiln register returns what is shown of it, and clears its RC fields. -/
theorem State.regRead_kiln_word (u : State) (r : RegRow) (h2 : a < 0x80000) (h4 : a % 4 = 0) :
    u.regRead a 4 r = ((u.shown a r).2.clearRead a r (byteMask 0 4)).answer (partOfWord (u.shown a r).1 a 4) false := by
  have ne : ∀ {b}, 0x80000 ≤ b → ¬ a = b := ne_of_kiln h2
  unfold State.regRead
  simp only [h4, Nat.sub_zero]
  rw [if_neg (ne (by decide)), if_neg (ne (by decide)), if_neg (ne (by decide)), if_neg (ne (by decide)), if_neg (ne (by decide)),
    if_neg (ne (by decide)), if_neg (ne (by decide)), if_neg (ne (by decide)), if_neg (ne (by decide)), if_neg (ne (by decide))]

/-- A read of a whole Kiln register leaves of it what no RC field covers, whatever its reserved bits return. -/
theorem State.reg_regRead_kiln (hs : u.canonical) (h2 : a < 0x80000) (h4 : a % 4 = 0) (hrc : r.rc ≠ 0) (hlt : r.rc < 2 ^ 32)
    (hq : u.times.was.get regReset a = u.reg a) : (u.regRead a 4 r).reg a = u.reg a &&& ~~~(BitVec.ofNat 32 r.rc) := by
  obtain ⟨hregs, htimes⟩ := u.shown_keeps a r
  have hreg : (u.shown a r).2.reg a = u.reg a := congrArg (fun m => m.get regReset a) hregs
  have hwf : SMap.wf regReset (u.shown a r).2.regs = true := hregs ▸ hs.1
  rw [State.regRead_kiln_word u r h2 h4, State.clearRead_kiln _ h2 hrc hlt (by rw [htimes, hq, hreg]), hreg]
  exact State.reg_setReg_same hwf a _

/-- A served read of a whole Kiln register. -/
theorem exec_clearingRead_kiln {a : BitVec 26} (hb : (s.advance t).barOk 3 = true) (h1 : 0x40000 ≤ a.toNat) (h2 : a.toNat < 0x80000)
    (h4 : a.toNat % 4 = 0) (hrow : regRowAt a.toNat = some r) :
    exec (.clearingRead t ⟨0, a⟩ 4) s = .next ((s.advance t).regRead a.toNat 4 r) := by
  obtain ⟨ho, hi⟩ := State.kiln_served_of_barOk hb h1 h2
  obtain ⟨hn, hm, hw⟩ := noWindow_kiln h2
  have hrow' : regRowAt (a.toNat - a.toNat % 4) = some r := by rw [h4]; exact hrow
  rw [exec_clearingRead_bar0 t (by omega), State.accessAt_of_not_stepAfter (State.stepAfter_below s t (by omega))]
  exact congrArg Host.Outcome.next ((State.bar0Read_of_ne_eight (by decide)).trans
    (State.read32_register (Nat.le_add_left 1 3) (by omega) ho hi hn hm hw hrow'))

/-- The registers of Kiln with RC fields, and the bits of these. -/
def kilnCounts : List (Nat × Nat) :=
  [(KLN_EMBSTAT, 0xFFFF), (KLN_EMBPASS, 0xFFFFFFFF), (KLN_BLENDST, 0xFFFF0000), (KLN_ASHCNT, 0xFFFFFFFF), (KLN_BADENT, 0xFFFFFFFF)]

theorem kilnCounts_in_kiln : ∀ p ∈ kilnCounts, 0x40000 ≤ p.1 ∧ p.1 < 0x80000 ∧ p.1 % 4 = 0 ∧ p.2 ≠ 0 ∧ p.2 < 2 ^ 32 := by decide

theorem kilnCounts_rc : ∀ p ∈ kilnCounts, (regRowAt p.1).map RegRow.rc = some p.2 := by decide

/-- Settles O56: the frozen registers take the branch of a discarded write, the others their own, which does not ask whether a job is armed. -/
theorem kilnWritesFrozen : Obligations.KilnWritesFrozen := by
  refine ⟨?config, ?embreq, ?w1c, ?rc⟩
  case config =>
    rintro t a len v hearth s _ rfl ha hb hw hl h4 hc
    obtain ⟨h1, h2⟩ := kilnConfig_in_kiln _ hc
    obtain ⟨r, hrow⟩ := Option.isSome_iff_exists.1 (kilnConfig_has_row _ hc)
    rw [exec_registerWrite_kiln v hb hw (by omega) (by omega) hl h4 hrow, State.klnWrite_config r _ _ ha hc]
  case embreq =>
    rintro t a len v hearth s _ rfl - hb hw hl hl4 hreq hv
    have h4 : a.toNat % 4 = 0 := hreq ▸ rfl
    have hword : a.toNat - a.toNat % 4 = KLN_EMBREQ := by rw [h4, hreq, Nat.sub_zero]
    have hbit : (laneValue a.toNat len v.toNat &&& byteMask (a.toNat % 4) len).getLsbD 0 = true := by
      rw [h4, BitVec.getLsbD_and, getLsbD_laneValue_zero h4 hl, getLsbD_byteMask_zero hl, hv, Bool.and_self]
    obtain ⟨r, hrow⟩ := embreq_has_row
    rw [exec_registerWrite_kiln v hb hw (hreq ▸ by decide) (hreq ▸ by decide) hl (by omega) (hword ▸ hrow), hword, State.klnWrite_embreq _ r hbit]
  case w1c =>
    rintro t a v hearth s _ hs rfl - hb hw ha hv hstood
    have hu : (s.advance t).canonical := (State.advance_kept s t hs.kept).canonical
    obtain ⟨hfree, hl, r, hrow, hrw, hc, hset⟩ := w1c_kiln _ ha
    obtain ⟨h1, h2, h4, hreq⟩ := w1c_in_kiln _ ha
    have hbit : (BitVec.ofNat 32 v.toNat).getLsbD 31 = true := (getLsbD_ofNat_toNat v (by decide)).trans hv
    have hafter {i : Nat} (hi : i < 32) :=
      State.getLsbD_reg_plainWrite_w1c hu hl hrw hc hset hbit hstood hi
    refine ⟨_, ?_, hafter (by decide), fun i hi => (hafter (by omega)).trans (if_neg (by omega))⟩
    rw [exec_registerWrite_kiln v hb hw h1 h2 (Nat.le_add_left 1 3) (by omega) (by rw [h4]; exact hrow), h4, Nat.sub_zero,
      State.klnWrite_of_not_frozen r _ _ hreq hfree]
    exact congrArg (fun x => Host.Outcome.next (State.plainWrite _ _ r _ x)) (laneValue_word h4 _)
  case rc =>
    rintro t k a s _ hs rfl - hb hk hq
    have hu : (s.advance t).canonical := (State.advance_kept s t hs.kept).canonical
    obtain ⟨h1, h2, h4, hne, hlt⟩ := kilnCounts_in_kiln _ hk
    obtain ⟨r, hrow, rfl⟩ := Option.map_eq_some_iff.1 (kilnCounts_rc _ hk)
    exact ⟨_, exec_clearingRead_kiln hb h1 h2 h4 hrow, State.reg_regRead_kiln hu h2 h4 hne hlt hq⟩

end Sys2Proof.Machine
end

section
/-! PROOF. Why the statement of the table update records fails: it takes a TABLE of any stream number, in a state with any stream contexts. R57 has
128 streams, but `PortSrc.stream` and the contexts' keys are natural numbers, and the registers of a context 2048 would lie on those of Kiln. -/

namespace Sys2Proof.Machine
open Sys2Proof

/-- STR_STATE of a context 2048 lies at KLN_MTXSEL(1): its STATE is the matrix selection of port 16. -/
theorem State.strState_2048 (s : State) : s.strState 2048 = s.mtxSel 16 := rfl

/-- MTXSEL at the front of the port, not waiting, is served. -/
theorem exec_mtxsel_of_front {s : State} {r : PortReq} {l : List PortReq} (hq : s.portQ = r :: l) (hw : r.waits = false)
    (hc : rCode r.bytes = 0x46) : exec .mtxsel s = .next (s.serve r) := by
  have h : s.serveIf (fun c => c == 0x46) = s.serve r := by simp [State.serveIf, hq, hw, hc]
  exact congrArg Host.Outcome.next h

/-- An MTXSEL record, unit 0 to matrix 0, of a TABLE on stream 2048. -/
def straySel : PortReq := ⟨.stream 2048 0, 0x46#8 :: List.replicate 15 0#8, none, false, 0, false⟩

/-- That TABLE: all its data have come, and this record is the last to be judged. -/
def strayTable : Desc :=
  { count := 0, raw := 0#256, phase := .table, status := 0, blank := false, first := 0, ts := 0#32, seq := 0, issued := 0, got := 0, tail := []
    out := 1, passed := true, reads := [], cov0 := 0, off0 := true, ncov := 0 }

/-- Reset, but for the record at the front of the port, its TABLE, and matrix 1 selected for port 16: stream 2048 shows RUN. -/
def strayState : State :=
  { State.reset with regs := [(KLN_MTXSEL 1, 1#32)], portQ := [straySel], streams := [(2048, { Stream.reset with descs := [strayTable] })] }

/-- Without Bus Master Enable the completion of the TABLE is held back, and so its stream is HELD (R57). -/
theorem strayState_serve_held : (strayState.serve straySel).strState 2048 = stHELD := by decide

/-- Refutes O18: the record leaves port 16 alone, but the stream that is HELD as its TABLE completes changes port 16's selection from matrix 1 to 3,
for nothing bounds the stream's number by 128. -/
theorem not_tableRecordsRun : ¬ Obligations.TableRecordsRun := by
  rintro ⟨-, -, -, -, -, -, -, -, -, -, -, hmtxsel, -⟩
  have hcanonical : strayState.canonical := ⟨rfl, rfl, rfl, rfl, rfl⟩
  have haccept : strayState.judge straySel = .accept := by decide
  obtain ⟨t, ht, -, hidle, -⟩ := hmtxsel strayState _ straySel [] hcanonical rfl (.inr ⟨2048, 0, rfl⟩) rfl rfl haccept rfl (by decide)
  have hserved : strayState.serve straySel = t := Host.Outcome.next.inj ((exec_mtxsel_of_front rfl rfl rfl).symm.trans ht)
  have hafter : t.mtxSel 16 = 3 := by rw [← hserved, ← State.strState_2048, strayState_serve_held]; rfl
  have hport : ¬(strayState.portPop.mergeCommit.members (byteOf straySel.bytes 2)).contains 16 = true := by decide
  have hbefore : strayState.portPop.mergeCommit.mtxSel 16 = 1 := by decide
  have hstands : t.mtxSel 16 = strayState.portPop.mergeCommit.mtxSel 16 := (hidle (by decide) 16).trans (if_neg hport)
  rw [hafter, hbefore] at hstands
  exact absurd hstands (by decide)

end Sys2Proof.Machine
end

section
/-! PROOF. The table windows, the latch, the column map and the reload queue: which operation each command runs, and what the merge buffer, the
latch and NZT_ERR then hold (R156, R157, R159, R164, R168, R170, R389). -/

namespace Sys2Proof.Machine
open Sys2Proof

variable {s : State}

/-! ### The windows -/

section
variable {t : Nat} {a : BitVec 20} {len : Fin 5} (v : BitVec 32) (hb : (s.advance t).barOk 3 = true) (h : a.toNat % 4 + len.val ≤ 4)
include hb h

theorem exec_nztWindowWrite_of_served : exec (.nztWindowWrite t a len v) s = .next
    (if (s.advance t).armed then (s.advance t).latchWrite a.toNat len.val v.toNat
      else (s.advance t).windowPut (NZT_WIN + a.toNat) len.val v.toNat) :=
  congrArg Host.Outcome.next ((State.bar_of_served hb _).trans (if_pos h))

theorem exec_curveMatrixWindowWrite_of_served (ha : a.toNat < 0xC8000) : exec (.curveMatrixWindowWrite t a len v) s = .next
    (if (s.advance t).armed then (s.advance t).nztErr erARMED
        (if a.toNat < 0xC0000 then a.toNat / 0x30000 else (a.toNat - 0xC0000) / 512) 2
      else (s.advance t).windowPut (MTX_WIN + a.toNat) len.val v.toNat) :=
  congrArg Host.Outcome.next ((State.bar_of_served hb _).trans (if_pos ⟨h, ha⟩))

end

/-! ### Bytes gathered from nothing (R164, R389) -/

/-- `len` bytes of `v` from byte `off` of the word `key` on, and nothing else, gathered at core clock `now`. -/
def Narrow.fresh (key off len v now : Nat) : Narrow :=
  ⟨key, (2 ^ len - 1) * 2 ^ off, mergeBytes 0 (v * 2 ^ (8 * off)) ((2 ^ len - 1) * 2 ^ off), now⟩

theorem Narrow.add_to_empty (key off len v was now : Nat) : Narrow.add ⟨key, 0, 0, was⟩ off len v now = .fresh key off len v now := by
  simp only [Narrow.add, Narrow.fresh, Nat.zero_or]

/-- Bytes of one 32-bit word never fill a word of 64 bits. -/
theorem laneMask_ne_full : ∀ len < 5, ∀ off < 8, off % 4 + len ≤ 4 → (2 ^ len - 1) * 2 ^ off ≠ 255 := by decide

/-- Bytes of the low half supply none of the high half. -/
theorem laneMask_low_half : ∀ len < 5, ∀ off < 8, off + len ≤ 4 → (2 ^ len - 1) * 2 ^ off / 16 % 16 ≠ 15 := by decide

theorem State.mergeBuf_setMerge_some (s : State) (mem : Nat) (b : Narrow) : (s.setMerge mem (some b)).mergeBuf mem = some b :=
  SMap.get_set_of_ne_default (Option.some_ne_none b) s.tabs.merge

/-- An empty merge buffer takes the bytes of a window write and does not commit. -/
theorem State.windowPut_of_empty {a len : Nat} (hm : s.mergeBuf memSRAM = none) (hl : len < 5) (h : a % 8 % 4 + len ≤ 4) (v : Nat) :
    s.windowPut a len v = s.setMerge memSRAM (some (.fresh (a / 8) (a % 8) len v s.clk)) := by
  have haway : s.mergeAway (a / 8) = s := by simp only [State.mergeAway, hm]
  have hfull : (Narrow.fresh (a / 8) (a % 8) len v s.clk).mask ≠ 255 := laneMask_ne_full len hl _ (Nat.mod_lt _ (by decide)) h
  simp only [State.windowPut, haway, hm, Option.getD_none, Narrow.add_to_empty, if_neg hfull]

/-- An empty latch takes bytes of an entry's low half and waits for the others. -/
theorem State.latchWrite_of_empty {a len : Nat} (hn : s.tabs.latch = none) (hl : len < 5) (h : a % 8 + len ≤ 4) (v : Nat) :
    s.latchWrite a len v = s.setLatch (some (.fresh (a / 8) (a % 8) len v s.clk)) := by
  have hwait : (Narrow.fresh (a / 8) (a % 8) len v s.clk).mask / 16 % 16 ≠ 15 := laneMask_low_half len hl _ (Nat.mod_lt _ (by decide)) h
  simp only [State.latchWrite, hn, Narrow.add_to_empty, if_neg hwait]

/-- A window begins at a multiple of 8 bytes: an access falls on the same byte of a word as in the window. -/
theorem add_window_mod_eight {base : Nat} (h : base % 8 = 0) (a : Nat) : (base + a) % 8 = a % 8 := by omega

/-! ### The latch is lost (R164) -/

theorem exec_nztLatchTimeout {t : Nat} {l : Narrow} (hl : (s.advance t).tabs.latch = some l) : exec (.nztLatchTimeout t) s = .next
    (if l.at_ + 1600 ≤ (s.advance t).clk then ((s.advance t).setLatch none).latchLost l.key else s.advance t) := by
  have h : (s.advance t).latchTimeout =
      if l.at_ + 1600 ≤ (s.advance t).clk then ((s.advance t).setLatch none).latchLost l.key else s.advance t := by
    simp only [State.latchTimeout, hl]
    rfl
  exact congrArg Host.Outcome.next h

/-- After a refusal at the table port NZT_ERR is valid: it held one before, or takes this one. -/
theorem State.nztErr_valid (hs : SMap.wf regReset s.regs = true) (code index writer : Nat) :
    (s.nztErr code index writer).on NZT_ERR_VALID = true := by
  unfold State.nztErr
  split
  · assumption
  · have hbit : bitsOf (BitVec.ofNat 32 (code % 256 + 256 * (index % 2 ^ 17) + 2 ^ 25 * (writer % 8) + 2 ^ 31)).toNat 31 1 = 1 := by
      rw [bitsOf, BitVec.toNat_ofNat, Nat.shiftRight_eq_div_pow]
      omega
    rw [State.on, State.fld, State.reg_setReg_same hs, hbit]
    rfl

theorem State.reg_nztErr_ne (s : State) {a : Nat} (h : a ≠ NZT_ERR) (code index writer : Nat) :
    (s.nztErr code index writer).reg a = s.reg a := by
  unfold State.nztErr
  split
  · rfl
  · exact s.reg_setReg_ne _ h

/-- A counting register reads back its count, cut at 32 bits. -/
theorem State.toNat_reg_countReg_same (hs : SMap.wf regReset s.regs = true) (a n : Nat) :
    ((s.countReg a n).reg a).toNat = min ((s.reg a).toNat + n) (2 ^ 32 - 1) := by
  have hlt : satAdd 32 (s.reg a).toNat n < 2 ^ 32 := Nat.lt_of_le_of_lt (Nat.min_le_right _ _) (by decide)
  rw [State.countReg, State.reg_setReg_same hs, BitVec.toNat_ofNat, Nat.mod_eq_of_lt hlt, satAdd]

@[simp] theorem State.latchLost_tabs (s : State) (n : Nat) : (s.latchLost n).tabs = s.tabs := by
  simp [State.latchLost, State.countReg, State.nztErr, apply_ite State.tabs]

theorem State.latchLost_records (hs : s.canonical) (n : Nat) : (s.latchLost n).on NZT_ERR_VALID = true ∧
    ((s.latchLost n).reg NZT_REFUSED).toNat = min ((s.reg NZT_REFUSED).toNat + 1) (2 ^ 32 - 1) := by
  have he : (s.nztErr 0x0E n 2).canonical := (State.nztErr_kept s _ _ _ hs.kept).canonical
  refine ⟨?_, ?_⟩
  · have hv : (s.latchLost n).fld NZT_ERR_VALID = (s.nztErr 0x0E n 2).fld NZT_ERR_VALID := State.fld_setReg_ne _ _ _ (by decide)
    rw [State.on, hv]
    exact State.nztErr_valid hs.1 0x0E n 2
  · rw [State.latchLost, State.toNat_reg_countReg_same he.1, State.reg_nztErr_ne s (by decide)]

/-! ### The column map and the reload queue (R156, R157, R168) -/

theorem exec_nztQuery_of_served (hb : s.barOk 3 = true) (key : BitVec 18) (byEntry : Bool) :
    exec (.nztQuery key byEntry) s = .next (s.nztQuery key.toNat byEntry) :=
  congrArg Host.Outcome.next (State.bar_of_served hb _)

theorem State.nztQuery_of_no_result {key : Nat}
    (h : ¬(key < 131072 ∧ eState (s.mapWord key) ≠ 3 ∧ eCol (s.mapWord key) < s.ncol)) :
    s.nztQuery key true = (s.setReg NZT_QRESA 0#32).setReg NZT_QRESB 0#32 := by
  simp only [State.nztQuery, if_true, if_neg h]

theorem exec_nztScanStart_of_served (hb : s.barOk 3 = true) : exec .nztScanStart s = .next s.scanStart :=
  congrArg Host.Outcome.next (State.bar_of_served hb _)

theorem exec_nztReloadRead_of_served (hb : s.barOk 3 = true) : exec .nztReloadRead s = .next s.reloadRead :=
  congrArg Host.Outcome.next (if_pos hb)

/-- Settles O19: each command runs the operation of its window or register, an empty buffer or latch then holds the bytes written, and a lost
latch is recorded. -/
theorem tableWindowsRun : Obligations.TableWindowsRun := by
  refine ⟨?entry, ?curveMatrix, ?timeout, ?byColumn, ?noResult, ?scanStart, ?scanDone, fun _ => rfl, ?reload, ?gathers, ?latches, ?lost⟩
  case entry =>
    rintro t a len v s _ rfl hb h
    exact exec_nztWindowWrite_of_served v hb h
  case curveMatrix =>
    rintro t a len v s _ rfl hb h ha
    exact exec_curveMatrixWindowWrite_of_served v hb h ha
  case timeout =>
    rintro t s _ l rfl hl
    exact exec_nztLatchTimeout hl
  case byColumn => exact fun k s hb => exec_nztQuery_of_served hb k false
  case noResult =>
    intro k s hb h
    rw [exec_nztQuery_of_served hb, State.nztQuery_of_no_result h]
  case scanStart => exact fun s hb => exec_nztScanStart_of_served hb
  case scanDone => exact fun s hs => congrArg Host.Outcome.next (if_pos hs)
  case reload => exact fun s hb => exec_nztReloadRead_of_served hb
  case gathers =>
    rintro t a len v s _ - rfl hb - h ha hm
    have h8 : a.toNat % 8 % 4 + len.val ≤ 4 := by omega
    have hn : (NZT_WIN + a.toNat) % 8 = a.toNat % 8 := add_window_mod_eight rfl _
    have hc : (MTX_WIN + a.toNat) % 8 = a.toNat % 8 := add_window_mod_eight rfl _
    refine ⟨⟨_, exec_nztWindowWrite_of_served v hb h, ?_⟩, fun hlt => ⟨_, exec_curveMatrixWindowWrite_of_served v hb h hlt, ?_⟩⟩
    · rw [ha, if_neg Bool.false_ne_true, State.windowPut_of_empty hm len.isLt (hn ▸ h8), hn]
      exact ⟨rfl, State.mergeBuf_setMerge_some _ _ _⟩
    · rw [ha, if_neg Bool.false_ne_true, State.windowPut_of_empty hm len.isLt (hc ▸ h8), hc]
      exact ⟨rfl, rfl, State.mergeBuf_setMerge_some _ _ _⟩
  case latches =>
    rintro t a len v s _ rfl hb - h ha hn
    refine ⟨_, exec_nztWindowWrite_of_served v hb (by omega), ?_⟩
    rw [ha, if_pos rfl, State.latchWrite_of_empty hn len.isLt h]
    exact ⟨rfl, rfl, rfl⟩
  case lost =>
    rintro t s _ l hs rfl hl ho
    have hu : ((s.advance t).setLatch none).canonical := (State.setLatch_kept _ none (State.advance_kept s t hs.kept)).canonical
    obtain ⟨hvalid, hcount⟩ := State.latchLost_records hu l.key
    have htabs := State.latchLost_tabs ((s.advance t).setLatch none) l.key
    refine ⟨_, exec_nztLatchTimeout hl, ?_⟩
    rw [if_pos ho]
    exact ⟨by rw [htabs]; rfl, by rw [htabs]; rfl, hvalid, hcount⟩

end Sys2Proof.Machine
end

section
/-! PROOF. FIRE, the latch deadline and the delayed FIRE: which of them gives a pulse, and how its line counts (R177 to R179, R230, R233 to R235). -/

namespace Sys2Proof.Machine
open Sys2Proof

variable {s : State} {h l i : Nat} {r : List (Nat × Nat)}

theorem exec_fire (t : Nat) (h : Fin 64) (s : State) : exec (.fire t h) s = .next ((s.advance t).fire h) := rfl

theorem exec_latchDeadline (t : Nat) (h : Fin 64) (s : State) : exec (.latchDeadline t h) s = .next ((s.advance t).latchDeadline h) := rfl

theorem exec_delayedFire (t : Nat) (h : Fin 64) (s : State) : exec (.delayedFire t h) s = .next ((s.advance t).delayedFire h) := rfl

/-! ### Whether a line gives a pulse (R179, R234) -/

theorem State.noPulse_eq_true_iff : s.noPulse h l = true ↔ s.enAt h l = false ∨ s.drives h = false ∨ s.heldAt h l = true := by
  simp only [State.noPulse, Bool.or_eq_true, Bool.not_eq_true', or_assoc]

theorem State.noPulse_eq_false_iff : s.noPulse h l = false ↔ s.enAt h l = true ∧ s.drives h = true ∧ s.heldAt h l = false := by
  simp only [State.noPulse, Bool.or_eq_false_iff, Bool.not_eq_false', and_assoc]

theorem State.underrun_eq_true_iff (hp : s.noPulse h l = false) :
    s.underrun h l i = true ↔ s.latched h l i = false ∨ (s.head h).urline = some l := by
  simp only [State.underrun, hp, Bool.not_false, Bool.true_and, Bool.or_eq_true, Bool.not_eq_true', beq_iff_eq]

theorem State.voltage_eq_true_iff : s.voltage h = true ↔ s.fld (TRM_OUT_OUT h) ≠ 0 ∧ s.on (TRM_OUT_DRIVEN h) = true := by
  simp only [State.voltage, Bool.and_eq_true, bne_iff_ne]

theorem State.firePulse_eq (s : State) (h l : Nat) : s.firePulse h l =
    if s.fld (TRM_OUT_OUT h) ≠ 0 ∧ s.on (TRM_OUT_DRIVEN h) = true then s.modHead h (fun x => { x with pulse := some (l, s.clk) })
    else s.countReg (HPT_NOVOLT h) 1 := by
  simp only [State.firePulse, State.voltage_eq_true_iff]

/-! ### FIRE (R177, R234) -/

theorem State.fire_of_none_placed (hp : (s.head h).placed = []) : s.fire h = s := by simp only [State.fire, hp]

theorem State.fire_of_due (hp : (s.head h).placed = (l, i) :: r) (hlive : (s.head h).live = true) (hon : s.firingOn = true)
    (htrust : s.on POS_STATE_TRUST = true) (hrev : s.on POS_STATE_REVERSED = false) (hnext : l = (s.head h).next) (hi : i ≤ s.clk)
    (hfin : (s.head h).before l = true) (hown : s.follows h l = false) : s.fire h = s.fireLine h l i := by
  have hnext' : (l == (s.head h).next) = true := beq_iff_eq.2 hnext
  simp only [State.fire, hp, hlive, hon, htrust, hrev, hnext', hi, hfin, hown, Bool.not_false, Bool.and_self, decide_true, if_true]

theorem State.fireLine_of_noPulse (hp : s.noPulse h l = true) : s.fireLine h l i = s.lineCountedF h i false := if_pos hp

theorem State.fireLine_of_latched (hp : s.noPulse h l = false) (hu : s.underrun h l i = false) :
    s.fireLine h l i = (s.firePulse h l).lineCountedF h i false := by
  simp only [State.fireLine, hp, hu, Bool.not_false, Bool.false_eq_true, if_false, if_true]

theorem State.fireLine_of_underrun (hp : s.noPulse h l = false) (hu : s.underrun h l i = true) :
    s.fireLine h l i = if s.on FIR_CTL_URPOL = true ∧ s.delayFits h l i = true
      then (s.modHead h (fun x => { x with delay := x.delay ++ [(l, i)] })).linePassed h i
      else (s.skipLine h l).lineCountedF h i true := by
  simp only [State.fireLine, hp, hu, Bool.not_true, Bool.false_eq_true, if_false, Bool.and_eq_true]

/-! ### LATCH_DEADLINE (R178) -/

theorem State.latchDeadline_of_late (hi : (s.head h).instOf l = some i) (hnext : l = (s.head h).next) (hlive : (s.head h).live = true)
    (hon : s.firingOn = true) (hfin : (s.head h).before l = true) (hpass : s.inPass l = true) (hen : s.enAt h l = true)
    (hlate : i ≤ s.clk + (s.fld (HPT_TIME_LATSU h) + s.fld (HPT_TIME_LATW h) + s.burstClk h + 8)) :
    s.latchDeadline h = if s.drives h = true ∧ (s.head h).bnext = l ∧ s.heldAt h l = false ∧ s.lateCause h l = none
      then (s.firstLate h l).modHead h (fun x => { x with urline := some l }) else s.firstLate h l := by
  subst hnext
  simp only [State.latchDeadline, hi, hlive, hon, hfin, hpass, hen, hlate, Bool.and_self, decide_true, if_true, Bool.and_eq_true,
    beq_iff_eq, Bool.not_eq_true', Option.isNone_iff_eq_none, and_assoc]

/-! ### DELAYED_FIRE (R234) -/

theorem State.delayedFire_of_none (hd : (s.head h).delay = []) : s.delayedFire h = s := by simp only [State.delayedFire, hd]

section
variable (hd : (s.head h).delay = (l, i) :: r) (hon : s.firingOn = true) (hp : s.noPulse h l = false)
include hd hon hp

theorem State.delayedFire_of_too_late (hf : s.delayFits h l i = false) : s.delayedFire h = (s.skipLine h l).delayOver h l i true := by
  simp only [State.delayedFire, hd, hon, hp, hf, Bool.not_true, Bool.not_false, Bool.false_eq_true, if_false, if_true]

theorem State.delayedFire_of_fits (hf : s.delayFits h l i = true) : s.delayedFire h =
    if s.on POS_STATE_TRUST = true ∧ s.on POS_STATE_REVERSED = false ∧ s.latched h l s.clk = true ∧ i ≤ s.clk then
      ((((s.countReg FIR_DLYCNT 1).setFld FIR_STATE_DLY 1).noteUnderrun h l).firePulse h l).delayOver h l i false
    else s := by
  simp only [State.delayedFire, hd, hon, hp, hf, Bool.not_true, Bool.false_eq_true, if_false, Bool.and_eq_true, Bool.not_eq_true',
    decide_eq_true_eq, and_assoc, State.setOn]

end

/-- Settles O21: a line that gives no pulse counts at its FIRE, a latched one counts with its pulse, and one in underrun waits or is skipped. -/
theorem firingRuns : Obligations.FiringRuns := by
  refine ⟨?fire, ?nothingPlaced, State.firePulse_eq, ?deadline, ?delayed, ?noneDelayed⟩
  case fire =>
    rintro t h s _ l i r rfl hp hlive hon htrust hrev hnext hi hfin hown
    rw [exec_fire, State.fire_of_due hp hlive hon htrust hrev hnext hi hfin hown]
    refine ⟨fun he hd hh hlat hur => ?latched, fun hno => ?noPulse, fun he hd hh hu => ?underrun⟩
    case latched =>
      have hpulse := State.noPulse_eq_false_iff.2 ⟨he, hd, hh⟩
      have hu : (s.advance t).underrun h l i = false :=
        Bool.eq_false_iff.2 fun hu => ((State.underrun_eq_true_iff hpulse).1 hu).elim (by simp [hlat]) hur
      rw [State.fireLine_of_latched hpulse hu]
    case noPulse => rw [State.fireLine_of_noPulse (State.noPulse_eq_true_iff.2 hno)]
    case underrun =>
      have hpulse := State.noPulse_eq_false_iff.2 ⟨he, hd, hh⟩
      rw [State.fireLine_of_underrun hpulse ((State.underrun_eq_true_iff hpulse).2 hu)]
      rfl
  case nothingPlaced =>
    rintro t h s _ rfl hp
    rw [exec_fire, State.fire_of_none_placed hp]
  case deadline =>
    rintro t h s _ l i rfl hnext hi hlive hon hfin hpass hen hlate
    rw [exec_latchDeadline, State.latchDeadline_of_late hi hnext hlive hon hfin hpass hen hlate]
  case delayed =>
    rintro t h s _ l i r rfl hd hon he hdr hh
    have hpulse := State.noPulse_eq_false_iff.2 ⟨he, hdr, hh⟩
    rw [exec_delayedFire]
    refine ⟨fun hf hwait => ?waits, fun hf htrust hrev hlat hi => ?fires, fun hf => ?skipped⟩
    case waits =>
      rw [State.delayedFire_of_fits hd hon hpulse hf, if_neg]
      rintro ⟨htrust, hrev, hlat, hi⟩
      simp [htrust, hrev, hlat, Nat.not_lt.2 hi] at hwait
    case fires => rw [State.delayedFire_of_fits hd hon hpulse hf, if_pos ⟨htrust, hrev, hlat, hi⟩]
    case skipped => rw [State.delayedFire_of_too_late hd hon hpulse hf]; rfl
  case noneDelayed =>
    rintro t h s _ rfl hd
    rw [exec_delayedFire, State.delayedFire_of_none hd]

end Sys2Proof.Machine
end

section
/-! PROOF. The commit of a merge buffer, and a read of staged words, leave the heads as they are (R384, R389). -/

namespace Sys2Proof.Machine
open Sys2Proof

variable (s : State)

/-! ### Words as they are stored (R393) -/

@[simp] theorem State.storeErr_heads (v : BitVec 64) (err : BitVec 72) : (s.storeErr v err).2.heads = s.heads := by
  unfold State.storeErr
  split <;> rfl

@[simp] theorem State.flipWord_heads (w : MWord) (flips : BitVec 72) : (s.flipWord w flips).2.heads = s.heads := by
  unfold State.flipWord
  split <;> simp

@[simp] theorem State.commitWord_heads (target w : Nat) (v : BitVec 64) : (s.commitWord target w v).2.heads = s.heads := by
  simp only [State.commitWord]
  repeat' split
  all_goals simp

@[simp] theorem State.commitSram_heads (k : Nat) (v : BitVec 64) : (s.commitSram k v).2.heads = s.heads := by
  unfold State.commitSram
  split <;> simp

/-! ### The store and its merge buffer -/

@[simp] theorem State.setTabs_heads (t : Tables) : (s.setTabs t).heads = s.heads := rfl
@[simp] theorem State.setShadow_heads (n : Nat) (w : MWord) : (s.setShadow n w).heads = s.heads := rfl
@[simp] theorem State.setCurveShadow_heads (q w : Nat) (v : MWord) : (s.setCurveShadow q w v).heads = s.heads := rfl
@[simp] theorem State.setMtxShadow_heads (k : Nat) (v : MWord) : (s.setMtxShadow k v).heads = s.heads := rfl
@[simp] theorem State.setMerge_heads (mem : Nat) (n : Option Narrow) : (s.setMerge mem n).heads = s.heads := rfl
@[simp] theorem State.setStore_heads (k : Nat) (w : MWord) : (s.setStore k w).heads = s.heads := rfl
@[simp] theorem State.setLat_heads (k : Nat) (w : MWord) : (s.setLat k w).heads = s.heads := rfl
@[simp] theorem State.partTaken_heads (p : Nat → Bool) : (s.partTaken p).heads = s.heads := rfl
@[simp] theorem State.placeOf_heads (k : Nat) : (s.placeOf k).2.heads = s.heads := rfl
@[simp] theorem State.storeTouch_heads (k : Nat) : (s.storeTouch k).heads = s.heads := by simp [State.storeTouch]

@[simp] theorem State.placedWord_heads (p : Placed) : (s.placedWord p).2.heads = s.heads := by
  cases p with
  | ref i w =>
    simp only [State.placedWord]
    split <;> rfl
  | _ => rfl

@[simp] theorem State.placedPut_heads (p : Placed) (w : MWord) : (s.placedPut p w).heads = s.heads := by
  cases p with
  | spill i k =>
    simp only [State.placedPut]
    split <;> rfl
  | _ => rfl

@[simp] theorem State.placedFlip_heads (p : Placed) (x : BitVec 64) (mark : Bool) : (s.placedFlip p x mark).heads = s.heads := by
  cases p <;> simp [State.placedFlip]

@[simp] theorem State.placedTouch_heads (k : Nat) (p : Placed) : (s.placedTouch k p).heads = s.heads := by simp [State.placedTouch]
@[simp] theorem State.hostWord_heads (k : Nat) (p : Placed) (w : MWord) : (s.hostWord k p w).heads = s.heads := by simp [State.hostWord]

@[simp] theorem State.storeMerge_heads : s.storeMerge.heads = s.heads := by
  simp only [State.storeMerge]
  repeat' split
  all_goals simp

@[simp] theorem State.storeUse_heads (c n : Nat) : (s.storeUse c n).heads = s.heads := by simp [State.storeUse]
@[simp] theorem State.stores_heads (k c n : Nat) : (s.stores k c n).heads = s.heads := by simp [State.stores]

/-! ### The windows and their merge buffer -/

@[simp] theorem State.nztErr_heads (code index writer : Nat) : (s.nztErr code index writer).heads = s.heads := by simp [State.nztErr]
@[simp] theorem State.entNow_heads (n : Nat) (w : MWord) (autoWr : Bool) : (s.entNow n w autoWr).heads = s.heads := rfl
@[simp] theorem State.goldTasks_heads : s.goldTasks.heads = s.heads := by simp [State.goldTasks]
@[simp] theorem State.goldCurve_heads : s.goldCurve.heads = s.heads := by simp [State.goldCurve]
@[simp] theorem State.goldMatrix_heads (m : Nat) : (s.goldMatrix m).heads = s.heads := by simp [State.goldMatrix]
@[simp] theorem State.sramTouch_heads (k : Nat) : (s.sramTouch k).heads = s.heads := by simp [State.sramTouch]
@[simp] theorem State.sramCommit_heads (k : Nat) (w src : MWord) : (s.sramCommit k w src).heads = s.heads := by simp [State.sramCommit]

@[simp] theorem State.mergeCommit_heads : s.mergeCommit.heads = s.heads := by
  simp only [State.mergeCommit]
  repeat' split
  all_goals simp

/-! ### Staged words -/

@[simp] theorem State.ashUsed_heads : s.ashUsed.heads = s.heads := by simp [State.ashUsed]

@[simp] theorem State.addFlaw_heads (fs : List Flaw) (i a : Nat) (flips : BitVec 72) : (s.addFlaw fs i a flips).2.heads = s.heads := by
  simp [State.addFlaw]

@[simp] theorem State.flawsRead_heads (r : Nat) (fs : List Flaw) : (s.flawsRead r fs).2.heads = s.heads := by simp [State.flawsRead]

@[simp] theorem State.stagRead_heads (g : Staged) (ash : Nat) : (s.stagRead g ash).2.2.heads = s.heads := by
  simp only [State.stagRead, State.flawsRead_heads]
  exact List.foldlRecOn (motive := fun (r : List Flaw × State) => r.2.heads = s.heads) _ _ rfl fun r hr i _ => by simp [hr]

end Sys2Proof.Machine
end

section
/-! PROOF. A burst with its LAT, the bursts of TEST, and a flush burst: when each begins, and what it leaves on its port (R172, R173, R177, R181,
R186, R187, R386). -/

namespace Sys2Proof.Machine
open Sys2Proof

variable {s : State} {h : Nat}

theorem exec_burstStart (t : Nat) (h : Fin 64) (ash : BitVec 64) (s : State) : exec (.burstStart t h ash) s =
    .next (if (s.advance t).fld (HPT_CTL_MODE h) = 3 then (s.advance t).testBurst h else (s.advance t).burstStart h ash.toNat) := rfl

theorem exec_lat (t : Nat) (h : Fin 64) (s : State) : exec (.lat t h) s = .next ((s.advance t).latRise h) := rfl

theorem exec_flushBurst (t : Nat) (h : Fin 64) (s : State) : exec (.flushBurst t h) s = .next ((s.advance t).flushBurst h) := rfl

/-- A head reads back as changed where that is not what an unlisted head reads as, whatever the form of the map. -/
theorem State.head_modHead_of_ne_reset {f : Head → Head} (hf : f (s.head h) ≠ Head.reset) : (s.modHead h f).head h = f (s.head h) :=
  SMap.get_set_of_ne_default hf s.heads

/-- A change of a head counts by what it makes of the head that stands. -/
theorem State.modHead_congr {f g : Head → Head} (hfg : f (s.head h) = g (s.head h)) : s.modHead h f = s.modHead h g :=
  congrArg (s.setHead h) hfg

theorem ne_reset_of_ret {x : Head} {y : Nat × Nat × Word} (hx : x.ret = some y) : x ≠ Head.reset := by
  rintro rfl
  exact absurd hx (by simp [Head.reset])

theorem State.head_shiftIn (s : State) (h l : Nat) (image : List Byte) : (s.shiftIn h l image).head h = { s.head h with
    ret := some ((s.head h).chainL, (s.head h).lats % 4, laneSig ((s.head h).lats % 4) (s.head h).chainI), chainI := image, chainL := l
    prbsAt := s.clk + s.burstClk h, pins := s.pinBits h (fun k => leNat (laneBytes k image)) } :=
  State.head_modHead_of_ne_reset (ne_reset_of_ret rfl)

/-! ### The staged words (R384, R386) -/

/-- A staged line without flaws, of which no error is told, is read as it stands. -/
theorem State.stagRead_of_sound {g : Staged} (hg : g.flaws = []) : s.stagRead g 0 = (g, [], s) := by
  obtain ⟨line, image, sig, flaws⟩ := g
  subst hg
  simp [State.stagRead, bitAt, State.flawsRead, flawByte, List.zipIdx_map_fst]

/-! ### BURST_START outside TEST (R177) -/

theorem State.burstStart_of_nothing_staged (hg : (s.head h).stag.find? (fun g => decide ((s.head h).bnext ≤ g.line)) = none) (ash : Nat) :
    s.burstStart h ash = s := by
  simp only [State.burstStart, hg]

theorem State.burstStart_of_due {g : Staged} {ash : Nat} {r : Staged × List Nat × State} {w : State} {image : List Byte}
    (hg : (s.head h).stag.find? (fun g => decide ((s.head h).bnext ≤ g.line)) = some g) (hdue : s.burstDue h g.line = true)
    (hskip : (countUp (s.head h).bnext (g.line - (s.head h).bnext)).all (fun k => !s.enAt h k) = true)
    (hr : (if s.heldAt h g.line = true then (g, [], s) else s.mergeCommit.stagRead g ash) = r)
    (hw : r.2.1.foldl (fun s _ => s.ashUsed) r.2.2 = w)
    (himage : (if w.heldAt h g.line = true then zeroImage else maskWords (r.2.1.foldl (fun n i => n ||| 2 ^ i) 0) 64 r.1.image) = image) :
    s.burstStart h ash = ((w.shiftIn h g.line image).modHead h (fun x => { x with
      burst := some (g.line, s.clk + s.burstClk h), bnext := g.line + 1, lineAsh := !r.2.1.isEmpty
      stag := replaceFirst (fun y => y.line == g.line) (fun _ => r.1) (s.head h).stag })).burstAsh h g.line := by
  have hheads : w.heads = s.heads := by
    rw [← hw, foldl_heads (fun s _ => State.ashUsed_heads s), ← hr]
    split <;> simp
  have hstag : ((w.shiftIn h g.line image).head h).stag = (s.head h).stag := by
    rw [State.head_shiftIn, State.head, State.head, hheads]
  simp only [State.burstStart, hg, hdue, hskip, Bool.and_self, if_true, hr, hw, State.burstImage, himage]
  exact congrArg (fun u => State.burstAsh u h g.line) (State.modHead_congr (by rw [hstag]))

/-! ### BURST_START in TEST (R186, R187) -/

theorem State.testBurst_of_no_training (ht : (s.head h).train = none) : s.testBurst h = s := by simp only [State.testBurst, ht]

/-- No strobe that is still high on `o` ends after core clock `n`. -/
theorem strobe_over {o : Option (Nat × Nat)} {n : Nat} (ho : ∀ l z, o = some (l, z) → z ≤ n) : o.all (fun p => decide (p.2 ≤ n)) = true := by
  cases o with
  | none => rfl
  | some p => exact decide_eq_true (ho p.1 p.2 rfl)

theorem State.testBurst_of_due {tr : Train} (ht : (s.head h).train = some tr) (hmode : s.fld (HPT_CTL_MODE h) = 3) (hrun : s.portsRun = true)
    (hret : (s.head h).ret = none) (hgap : s.gapPast h = true) (hlat : ∀ l z, (s.head h).lat = some (l, z) → z ≤ s.clk) :
    s.testBurst h = s.trainBurst h tr := by
  simp only [State.testBurst, ht, hmode, hrun, hret, hgap, strobe_over hlat, beq_self_eq_true, Option.isNone_none, Bool.and_self, if_true]

/-- What the pins of port `h` carry in a burst of training `tr`: the words as they are, from step 6 on with the corrections found. -/
def State.trainPins (s : State) (h : Nat) (tr : Train) : List Nat :=
  if tr.step = 6 then s.pinBits h (fun k => trainLane (trainWords.getD k 0#16)) else trainWords.map trainLane

/-- The head of port `h` with a burst of training `tr` begun, before any LAT. -/
def State.trainGiven (s : State) (h : Nat) (tr : Train) : Head :=
  { s.head h with ret := some (0, (s.head h).lats % 4, 0#32), prbsAt := s.clk + s.burstClk h, pins := s.trainPins h tr }

/-- A burst of step 4, and one of the first four of step 6, is followed by a LAT (log entry 50). -/
theorem State.head_trainBurst_of_latched {tr : Train} (hl : tr.step = 4 ∨ tr.step = 6 ∧ tr.n < 4) :
    (s.trainBurst h tr).head h = { s.trainGiven h tr with
      lats := ((s.head h).lats + 1) % 4, latFrom := s.clk + s.burstClk h + 8
      lat := some (0, s.clk + s.burstClk h + 8 + s.fld (HPT_TIME_LATW h)) } := by
  simp only [State.trainBurst, ← Bool.decide_or, hl, decide_true, if_true]
  rw [State.head_modHead_of_ne_reset (ne_reset_of_ret (by rw [State.head_modHead_of_ne_reset (ne_reset_of_ret rfl)])),
    State.head_modHead_of_ne_reset (ne_reset_of_ret rfl)]
  rfl

theorem State.head_trainBurst_of_not_latched {tr : Train} (hl : ¬(tr.step = 4 ∨ tr.step = 6 ∧ tr.n < 4)) :
    (s.trainBurst h tr).head h = s.trainGiven h tr := by
  simp only [State.trainBurst, ← Bool.decide_or, hl, decide_false, Bool.false_eq_true, if_false]
  rw [State.head_modHead_of_ne_reset (ne_reset_of_ret rfl)]
  rfl

/-! ### LAT (R175, R177) -/

theorem State.latRise_of_no_burst (hb : (s.head h).burst = none) : s.latRise h = s := by simp only [State.latRise, hb]

theorem State.latRise_of_due {l e : Nat} (hb : (s.head h).burst = some (l, e)) (hd : s.drives h = true) (hrun : s.portsRun = true)
    (he : e + 8 ≤ s.clk) (hhold : ∀ i, (s.head h).instBefore l = some i → i + s.fld (HPT_FIRE_FHOLD h) ≤ s.clk) :
    s.latRise h = s.modHead h (fun x => { x with
      lat := some (l, s.clk + s.fld (HPT_TIME_LATW h)), latFrom := s.clk, lats := (x.lats + 1) % 4, burst := none }) := by
  simp only [State.latRise, hb, hd, hrun, he, decide_true, Bool.and_true, Bool.true_and]
  cases hi : (s.head h).instBefore l with
  | none => rfl
  | some i => exact if_pos (decide_eq_true (hhold i hi))

/-! ### FLUSH_BURST (R181) -/

theorem State.flushBurst_of_none_owed (hf : (s.head h).flush = false) : s.flushBurst h = s := by
  simp only [State.flushBurst, hf, Bool.false_and, Bool.false_eq_true, if_false]

theorem State.flushBurst_of_due (hf : (s.head h).flush = true) (hd : s.drives h = true) (hrun : s.portsRun = true)
    (hb : (s.head h).burst = none) (hgap : s.gapPast h = true)
    (hfire : ∀ i, (s.head h).fireAt = some i → i + s.fld (HPT_TIME_SHDLY h) ≤ s.clk) :
    s.flushBurst h = (s.shiftIn h (s.head h).chainL zeroImage).modHead h (fun x => { x with flush := false }) := by
  simp only [State.flushBurst, hf, hd, hrun, hb, hgap, Option.isNone_none, Bool.true_and]
  cases hi : (s.head h).fireAt with
  | none => rfl
  | some i => exact if_pos (decide_eq_true (hfire i hi))

/-- Settles O22: each burst begins when its conditions stand, and what its port then holds is read off the head that it leaves. -/
theorem burstsRun : Obligations.BurstsRun := by
  refine ⟨?burst, fun s g hg => State.stagRead_of_sound hg, ?nothingStaged, ?test, fun _ _ => rfl, ?lat, ?noBurst, ?flush, ?noneOwed,
    fun _ _ _ _ => rfl⟩
  case burst =>
    rintro t h ash s _ w g r image rfl hmode hg hdue hskip hr hw himage
    rw [exec_burstStart, if_neg hmode, State.burstStart_of_due hg hdue hskip hr hw himage]
  case nothingStaged =>
    rintro t h ash s _ rfl hmode hg
    rw [exec_burstStart, if_neg hmode, State.burstStart_of_nothing_staged hg]
  case test =>
    rintro t h ash s _ rfl hmode
    rw [exec_burstStart, if_pos hmode]
    refine ⟨fun ht => by rw [State.testBurst_of_no_training ht], ?_⟩
    rintro tr _ ht hrun hret hgap hlat rfl
    refine ⟨_, by rw [exec_burstStart, if_pos hmode, State.testBurst_of_due ht hmode hrun hret hgap hlat], ?_⟩
    by_cases hl : tr.step = 4 ∨ tr.step = 6 ∧ tr.n < 4
    · beta_reduce
      rw [State.head_trainBurst_of_latched hl]
      exact ⟨rfl, rfl, fun h6 => if_neg h6, fun h6 => if_pos h6, fun _ => ⟨rfl, rfl, rfl⟩, fun h4 hn => absurd hl (by omega)⟩
    · beta_reduce
      rw [State.head_trainBurst_of_not_latched hl]
      exact ⟨rfl, rfl, fun h6 => if_neg h6, fun h6 => if_pos h6, fun hl' => absurd hl' hl, fun _ _ => ⟨rfl, rfl⟩⟩
  case lat =>
    rintro t h s _ l e rfl hb hd hrun he hhold
    rw [exec_lat, State.latRise_of_due hb hd hrun he hhold]
  case noBurst =>
    rintro t h s _ rfl hb
    rw [exec_lat, State.latRise_of_no_burst hb]
  case flush =>
    rintro t h s _ rfl hf hd hrun hb hgap hfire
    rw [exec_flushBurst, State.flushBurst_of_due hf hd hrun hb hgap hfire]
  case noneOwed =>
    rintro t h s _ rfl hf
    rw [exec_flushBurst, State.flushBurst_of_none_owed hf]

end Sys2Proof.Machine
end

section
/-! PROOF. Chain returns: how each mode takes one, what its check leaves on a solo chip, and the action on a fault (R175, R184, R187, R191, R192). -/

namespace Sys2Proof.Machine
open Sys2Proof

variable {s : State} {h : Nat}

theorem exec_returnCheck (t : Nat) (h : Fin 64) (bits : BitVec 1024) (tr : Trailer) (s : State) :
    exec (.returnCheck t h bits tr) s = .next ((s.advance t).returned h bits.toNat tr) := rfl

theorem exec_retstFaultClear (h : Fin 64) (v : BitVec 32) (s : State) :
    exec (.retstFaultClear h v) s = .next (s.bar 5 (fun s => s.retstWrite h v)) := rfl

/-! ### A return is sampled (R171, R186, R187) -/

section
variable {bits : Nat} {tr : Trailer}

theorem State.returned_of_gated (hrun : s.portsRun = false) : s.returned h bits tr = s := by
  simp only [State.returned, hrun, Bool.not_false, if_true]

section
variable (hrun : s.portsRun = true)
include hrun

theorem State.returned_of_drive {x : Nat × Nat × Word} (hmode : s.fld (HPT_CTL_MODE h) = 1) (hret : (s.head h).ret = some x) :
    s.returned h bits tr = ((s.noteTrailer h (s.retTrail h tr.bits.toNat)).driveReturn h (s.retBits h bits)
      (s.retTrail h tr.bits.toNat)).overCheck h := by
  simp [State.returned, hrun, hmode, hret]

theorem State.returned_of_drive_idle (hmode : s.fld (HPT_CTL_MODE h) = 1) (hret : (s.head h).ret = none) : s.returned h bits tr = s := by
  simp [State.returned, hrun, hmode, hret]

theorem State.returned_of_monitor (hmode : s.fld (HPT_CTL_MODE h) = 2) : s.returned h bits tr =
    s.obsReturn h (s.retBits h (s.monSample h bits tr).1) (s.retTrail h (s.monSample h bits tr).2) := by
  simp [State.returned, hrun, hmode]

theorem State.returned_of_training {x : Nat × Nat × Word} {g : Train} (hmode : s.fld (HPT_CTL_MODE h) = 3) (hret : (s.head h).ret = some x)
    (ht : (s.head h).train = some g) : s.returned h bits tr = (s.trainReturn h g bits tr.bits.toNat).overCheck h := by
  simp [State.returned, hrun, hmode, hret, ht]

theorem State.returned_of_off (hmode : s.fld (HPT_CTL_MODE h) = 0) : s.returned h bits tr = s := by
  cases ht : (s.head h).train <;> simp [State.returned, hrun, hmode, ht]

theorem State.returned_of_test_idle (hmode : s.fld (HPT_CTL_MODE h) = 3) (hidle : (s.head h).train = none ∨ (s.head h).ret = none) :
    s.returned h bits tr = s := by
  cases ht : (s.head h).train with
  | none => simp [State.returned, hrun, hmode, ht]
  | some g =>
    have hret : (s.head h).ret = none := hidle.resolve_left (by simp [ht])
    simp [State.returned, hrun, hmode, ht, hret]

end

/-- The received SCK rests low after its correction: the bits as they were sampled. -/
theorem State.monSample_of_rest (hz : tr.sck = s.on (HPT_LANEMAP_SCKINV h)) : s.monSample h bits tr = (bits, tr.bits.toNat) :=
  if_pos (beq_iff_eq.2 hz)

/-- It rests high: every bit is taken one edge late. -/
theorem State.monSample_of_late (hz : tr.sck ≠ s.on (HPT_LANEMAP_SCKINV h)) :
    s.monSample h bits tr = (2 * bits % 2 ^ 1024, 128 * b2n (bitAt bits 1023) + tr.bits.toNat / 2) :=
  if_neg (mt beq_iff_eq.1 hz)

end

/-! ### A return in DRIVE (R191) -/

theorem State.driveReturn_of_compared {l c : Nat} {sig : Word} (hret : (s.head h).ret = some (l, c, sig)) (hskip : (s.head h).skip = false)
    (bits tr : Nat) : s.driveReturn h bits tr = (s.modHead h (fun x => { x with ret := none })).checkReturn h l c sig bits tr := by
  simp only [State.driveReturn, hret, hskip, Bool.false_eq_true, if_false]

theorem State.driveReturn_of_skipped {l c : Nat} {sig : Word} (hret : (s.head h).ret = some (l, c, sig)) (hskip : (s.head h).skip = true)
    (bits tr : Nat) : s.driveReturn h bits tr = (s.modHead h (fun x => { x with ret := none })).modHead h (fun x => { x with
      skip := false, lats := if trValid tr then (x.lats + 4 + trChain tr - c) % 4 else x.lats }) := by
  simp only [State.driveReturn, hret, hskip, if_true]

/-! ### What a failed check records (R192) -/

/-- The failure is counted, in the sum and the alarm, and its chain joins LANES. -/
def State.retNoted (s : State) (h c : Nat) : State :=
  let s1 := ((s.countReg (HPT_RETERR h) 1).retSum h).alarm alCHAINRET
  s1.setFld (HPT_RETST_LANES h) (s1.fld (HPT_RETST_LANES h) ||| 2 ^ c)

/-- The first failure is recorded, where none is. -/
def State.retFirst (s : State) (h l c k : Nat) : State :=
  if s.on (HPT_RETST_VALID h) then s
  else (((s.setFld (HPT_RETST_FIRST h) k).setFld (HPT_RETST_LANE h) c).setFld (HPT_RETST_VALID h) 1).setReg (HPT_RETLINE h) (BitVec.ofNat 32 l)

theorem State.retFail_eq (s : State) (h l c k : Nat) :
    s.retFail h l c k = ((s.retNoted h c).retFirst h l c k).count (HPT_RETST_RUN h) 1 := rfl

/-- A later failure leaves the record of the first. -/
theorem State.retFirst_of_later (hv : s.on (HPT_RETST_VALID h) = true) (l c k : Nat) : s.retFirst h l c k = s := if_pos hv

theorem State.reg_retSum_ne (s : State) (h : Nat) {a : Nat} (hlo : a ≠ HPT_RETSUMLO) (hhi : a ≠ HPT_RETSUMHI) :
    (s.retSum h).reg a = s.reg a := by
  unfold State.retSum
  split
  · exact s.reg_setReg_ne _ hlo
  · exact s.reg_setReg_ne _ hhi

theorem State.reg_retFirst_ne (s : State) (h l c k : Nat) {a : Nat} (hst : a ≠ HPT_RETST h) (hline : a ≠ HPT_RETLINE h) :
    (s.retFirst h l c k).reg a = s.reg a := by
  unfold State.retFirst
  split
  · rfl
  · rw [State.reg_setReg_ne _ _ hline, State.reg_setFld_ne _ _ _ hst, State.reg_setFld_ne _ _ _ hst, State.reg_setFld_ne _ _ _ hst]

/-- Beside the port's RETST and RETLINE a failed check writes its count and the sum only. -/
theorem State.reg_retFail_ne (s : State) (h l c k : Nat) {a : Nat} (hst : a ≠ HPT_RETST h) (hline : a ≠ HPT_RETLINE h) :
    (s.retFail h l c k).reg a = ((s.countReg (HPT_RETERR h) 1).retSum h).reg a := by
  rw [State.retFail_eq, State.count, State.reg_setFld_ne _ _ _ hst, State.reg_retFirst_ne _ _ _ _ _ hst hline]
  exact State.reg_setFld_ne _ (HPT_RETST_LANES h) _ hst

/-- An address of the port's own registers is none of the registers that the ports share. -/
theorem port_ne_sum (hh : h < 64) : HPT_RETST h ≠ HPT_RETSUMLO ∧ HPT_RETST h ≠ HPT_RETSUMHI ∧ HPT_RETLINE h ≠ HPT_RETSUMLO ∧
    HPT_RETLINE h ≠ HPT_RETSUMHI ∧ HPT_RETERR h ≠ HPT_RETSUMLO ∧ HPT_RETERR h ≠ HPT_RETSUMHI := by
  simp only [HPT_RETST, HPT_RETLINE, HPT_RETERR, HPT_RETSUMLO, HPT_RETSUMHI]
  omega

section
variable (hs : s.canonical) (hh : h < 64) (l c k : Nat)
include hs hh

theorem State.retErr_retFail : (s.retFail h l c k).reg (HPT_RETERR h) =
    BitVec.ofNat 32 (min (2 ^ 32 - 1) ((s.reg (HPT_RETERR h)).toNat + 1)) := by
  obtain ⟨-, -, -, -, hlo, hhi⟩ := port_ne_sum hh
  have hne : HPT_RETERR h ≠ HPT_RETST h ∧ HPT_RETERR h ≠ HPT_RETLINE h := by
    simp only [HPT_RETST, HPT_RETLINE, HPT_RETERR]
    omega
  rw [State.reg_retFail_ne _ _ _ _ _ hne.1 hne.2, State.reg_retSum_ne _ _ hlo hhi, State.countReg, State.reg_setReg_same hs.1, satAdd,
    Nat.min_comm]

theorem State.retSumLo_retFail (hlow : h < 32) : ((s.retFail h l c k).reg HPT_RETSUMLO).getLsbD h = true := by
  obtain ⟨hst, -, hline, -, -, -⟩ := port_ne_sum hh
  have hc : (s.countReg (HPT_RETERR h) 1).canonical := (State.countReg_kept s _ _ hs.kept).canonical
  rw [State.reg_retFail_ne _ _ _ _ _ hst.symm hline.symm, State.retSum, if_pos hlow, State.reg_setReg_same hc.1,
    getLsbD_putBits _ _ _ _ _ (by omega), if_pos (by omega), Nat.sub_self]
  rfl

theorem State.retSumHi_retFail (hhigh : 32 ≤ h) : ((s.retFail h l c k).reg HPT_RETSUMHI).getLsbD (h - 32) = true := by
  obtain ⟨-, hst, -, hline, -, -⟩ := port_ne_sum hh
  have hc : (s.countReg (HPT_RETERR h) 1).canonical := (State.countReg_kept s _ _ hs.kept).canonical
  rw [State.reg_retFail_ne _ _ _ _ _ hst.symm hline.symm, State.retSum, if_neg (by omega), State.reg_setReg_same hc.1,
    getLsbD_putBits _ _ _ _ _ (by omega), if_pos (by omega), Nat.sub_self]
  rfl

/-- What HPT_RETST(h) and HPT_RETLINE(h) show before the first failure is recorded: chain `c` in LANES, the rest as it was. -/
theorem State.retst_retNoted (hc : c < 4) : (s.retNoted h c).canonical ∧
    (s.retNoted h c).fld (HPT_RETST_LANES h) = s.fld (HPT_RETST_LANES h) ||| 2 ^ c ∧
    (∀ f : Fld, f.addr = HPT_RETST h → (4 + 4 ≤ f.lo ∨ f.lo + f.width ≤ 4) → (s.retNoted h c).fld f = s.fld f) ∧
    (s.retNoted h c).reg (HPT_RETLINE h) = s.reg (HPT_RETLINE h) := by
  obtain ⟨hst, hst', hline, hline', -, -⟩ := port_ne_sum hh
  have hne : HPT_RETST h ≠ HPT_RETERR h ∧ HPT_RETLINE h ≠ HPT_RETERR h ∧ HPT_RETLINE h ≠ HPT_RETST h := by
    simp only [HPT_RETST, HPT_RETLINE, HPT_RETERR]
    omega
  have hk : State.kept s (((s.countReg (HPT_RETERR h) 1).retSum h).alarm alCHAINRET) :=
    State.alarm_kept _ _ (State.retSum_kept _ _ (State.countReg_kept _ _ _ hs.kept))
  have hreg : (((s.countReg (HPT_RETERR h) 1).retSum h).alarm alCHAINRET).reg (HPT_RETST h) = s.reg (HPT_RETST h) :=
    (State.reg_retSum_ne _ _ hst hst').trans (State.reg_setReg_ne _ _ hne.1)
  have hfld : ∀ f : Fld, f.addr = HPT_RETST h →
      (((s.countReg (HPT_RETERR h) 1).retSum h).alarm alCHAINRET).fld f = s.fld f := fun f hf => by
    rw [State.fld, State.fld, hf, hreg]
  refine ⟨(State.setFld_kept _ _ _ hk).canonical, ?lanes, fun f hf hd => ?beside, ?line⟩
  case lanes =>
    have hlanes : s.fld (HPT_RETST_LANES h) < 2 ^ 4 := Nat.mod_lt _ (Nat.two_pow_pos _)
    have hbit : 2 ^ c < 2 ^ 4 := Nat.pow_lt_pow_right (by decide) hc
    rw [State.retNoted, State.fld_setFld_same hk.canonical.1 _ _ (by simp), hfld _ rfl]
    exact Nat.mod_eq_of_lt (Nat.or_lt_two_pow hlanes hbit)
  case beside => exact (State.fld_setFld_beside hk.canonical.1 _ f _ hf hd (by simp)).trans (hfld f hf)
  case line =>
    exact (State.reg_setFld_ne _ _ _ hne.2.2).trans ((State.reg_retSum_ne _ _ hline hline').trans (State.reg_setReg_ne _ _ hne.2.1))

end

section
variable (hs : s.canonical)
include hs

theorem State.canonical.setFld (f : Fld) (x : Nat) : (s.setFld f x).canonical := (State.setFld_kept _ _ _ hs.kept).canonical

/-- A field of HPT_RETST(h) beside FIRST, LANE and VALID stands as the first failure is recorded. -/
theorem State.fld_retFirst_beside (l c k : Nat) {f : Fld} (hf : f.addr = HPT_RETST h) (hlo : 4 ≤ f.lo) (hhi : f.lo + f.width ≤ 31) :
    (s.retFirst h l c k).fld f = s.fld f := by
  have hline : f.addr ≠ HPT_RETLINE h := by
    simp only [hf, HPT_RETST, HPT_RETLINE]
    omega
  have h1 := hs.setFld (HPT_RETST_FIRST h) k
  have h2 := h1.setFld (HPT_RETST_LANE h) c
  unfold State.retFirst
  split
  · rfl
  · rw [State.fld_setReg_ne _ _ f hline, State.fld_setFld_beside h2.1 (HPT_RETST_VALID h) f 1 hf (.inr hhi) (by simp),
      State.fld_setFld_beside h1.1 (HPT_RETST_LANE h) f c hf (.inl hlo) (by simp),
      State.fld_setFld_beside hs.1 (HPT_RETST_FIRST h) f k hf (.inl (Nat.le_trans (by simp) hlo)) (by simp)]

/-- The first failure is told by FIRST, LANE, VALID and HPT_RETLINE. -/
theorem State.retFirst_of_first (hv : s.on (HPT_RETST_VALID h) = false) (l : Nat) {c k : Nat} (hc : c < 4) (hk : k < 4) :
    (s.retFirst h l c k).fld (HPT_RETST_FIRST h) = k ∧ (s.retFirst h l c k).fld (HPT_RETST_LANE h) = c ∧
    (s.retFirst h l c k).on (HPT_RETST_VALID h) = true ∧ (s.retFirst h l c k).reg (HPT_RETLINE h) = BitVec.ofNat 32 l := by
  have hline : HPT_RETST h ≠ HPT_RETLINE h := by
    simp only [HPT_RETST, HPT_RETLINE]
    omega
  have h1 := hs.setFld (HPT_RETST_FIRST h) k
  have h2 := h1.setFld (HPT_RETST_LANE h) c
  have h3 := h2.setFld (HPT_RETST_VALID h) 1
  rw [State.retFirst, if_neg (by simp [hv])]
  refine ⟨?first, ?lane, ?valid, State.reg_setReg_same h3.1 _ _⟩
  case first =>
    rw [State.fld_setReg_ne _ _ _ hline, State.fld_setFld_beside h2.1 (HPT_RETST_VALID h) (HPT_RETST_FIRST h) 1 rfl (.inr (by simp)) (by simp),
      State.fld_setFld_beside h1.1 (HPT_RETST_LANE h) (HPT_RETST_FIRST h) c rfl (.inr (by simp)) (by simp), State.fld_setFld_same hs.1 _ _ (by simp)]
    exact Nat.mod_eq_of_lt hk
  case lane =>
    rw [State.fld_setReg_ne _ _ _ hline, State.fld_setFld_beside h2.1 (HPT_RETST_VALID h) (HPT_RETST_LANE h) 1 rfl (.inr (by simp)) (by simp),
      State.fld_setFld_same h1.1 _ _ (by simp)]
    exact Nat.mod_eq_of_lt hc
  case valid =>
    rw [State.on, State.fld_setReg_ne _ _ _ hline, State.fld_setFld_same h2.1 _ _ (by simp)]
    rfl

/-- A failed check adds its chain to LANES and one to RUN, and is recorded where it is the first. -/
theorem State.retst_retFail (hh : h < 64) (l : Nat) {c k : Nat} (hc : c < 4) (hk : k < 4) :
    (s.retFail h l c k).fld (HPT_RETST_LANES h) = s.fld (HPT_RETST_LANES h) ||| 2 ^ c ∧
    (s.retFail h l c k).fld (HPT_RETST_RUN h) = min 255 (s.fld (HPT_RETST_RUN h) + 1) ∧
    (s.retFail h l c k).on (HPT_RETST_VALID h) = true ∧
    (s.on (HPT_RETST_VALID h) = false → (s.retFail h l c k).fld (HPT_RETST_FIRST h) = k ∧
      (s.retFail h l c k).fld (HPT_RETST_LANE h) = c ∧ (s.retFail h l c k).reg (HPT_RETLINE h) = BitVec.ofNat 32 l) ∧
    (s.on (HPT_RETST_VALID h) = true → (s.retFail h l c k).fld (HPT_RETST_FIRST h) = s.fld (HPT_RETST_FIRST h) ∧
      (s.retFail h l c k).fld (HPT_RETST_LANE h) = s.fld (HPT_RETST_LANE h) ∧
      (s.retFail h l c k).reg (HPT_RETLINE h) = s.reg (HPT_RETLINE h)) := by
  obtain ⟨hn, hlanes, hbeside, hline⟩ := State.retst_retNoted hs hh c hc
  have hvalid : (s.retNoted h c).on (HPT_RETST_VALID h) = s.on (HPT_RETST_VALID h) := by
    rw [State.on, State.on, hbeside _ rfl (.inl (by simp))]
  have hf : ((s.retNoted h c).retFirst h l c k).canonical := by
    unfold State.retFirst
    split
    · exact hn
    · exact (((hn.setFld _ _).setFld _ _).setFld _ _).setReg _ _
  have hcount : ∀ f : Fld, f.addr = HPT_RETST h → (8 + 8 ≤ f.lo ∨ f.lo + f.width ≤ 8) →
      (s.retFail h l c k).fld f = ((s.retNoted h c).retFirst h l c k).fld f :=
    fun f hfa hd => State.fld_setFld_beside hf.1 (HPT_RETST_RUN h) f _ hfa hd (by simp)
  have hcountLine : (s.retFail h l c k).reg (HPT_RETLINE h) = ((s.retNoted h c).retFirst h l c k).reg (HPT_RETLINE h) := by
    refine State.reg_setFld_ne _ (HPT_RETST_RUN h) _ ?_
    simp only [HPT_RETST, HPT_RETLINE]
    omega
  refine ⟨?lanes, ?run, ?valid, fun hv => ?first, fun hv => ?later⟩
  case lanes => rw [hcount _ rfl (.inr (by simp)), State.fld_retFirst_beside hn l c k rfl (by simp) (by simp), hlanes]
  case run =>
    rw [State.retFail_eq, State.fld_count_same hf.1 _ _ (by simp), State.fld_retFirst_beside hn l c k rfl (by simp) (by simp),
      hbeside _ rfl (.inl (by simp))]
    rfl
  case valid =>
    rw [State.on, hcount _ rfl (.inl (by simp)), ← State.on]
    cases hv : (s.retNoted h c).on (HPT_RETST_VALID h) with
    | false => exact (State.retFirst_of_first hn hv l hc hk).2.2.1
    | true => rw [State.retFirst_of_later hv, hv]
  case first =>
    obtain ⟨hfirst, hlane, -, hline'⟩ := State.retFirst_of_first hn (hvalid.trans hv) l hc hk
    exact ⟨(hcount _ rfl (.inr (by simp))).trans hfirst, (hcount _ rfl (.inr (by simp))).trans hlane, hcountLine.trans hline'⟩
  case later =>
    rw [hcount _ rfl (.inr (by simp)), hcount _ rfl (.inr (by simp)), hcountLine, State.retFirst_of_later (hvalid.trans hv),
      hbeside _ rfl (.inr (by simp)), hbeside _ rfl (.inr (by simp))]
    exact ⟨rfl, rfl, hline⟩

end

/-! ### The check on a solo chip (R191, R192) -/

/-- The registers by which a chip knows whether its twin logic runs. -/
def twinRegs : List Nat := [SYS_CAPS, TWN_CTL, RST_STAT, PWR_STAT]

theorem State.twinOn_of_regs {u : State} (hu : ∀ a ∈ twinRegs, u.reg a = s.reg a) : u.twinOn = s.twinOn := by
  have hfld : ∀ f : Fld, f.addr ∈ twinRegs → u.fld f = s.fld f := fun f hf => by rw [State.fld, State.fld, hu _ hf]
  have hcaps := hfld SYS_CAPS_TWIN (by decide)
  have hctl := hfld TWN_CTL_EN (by decide)
  have hrst := hfld RST_STAT_DONE (by decide)
  have hawake : u.awake = s.awake := by rw [State.awake, State.awake, hfld PWR_STAT_STATE (by decide)]
  simp only [State.twinOn, State.twinStrap, State.on, hcaps, hctl, hrst, hawake]

/-- They are none of the registers that a check of a return writes. -/
theorem twinRegs_ne_return (h : Nat) {a : Nat} (ha : a ∈ twinRegs) : a ≠ HPT_RETCHK h ∧ a ≠ HPT_RETERR h ∧ a ≠ HPT_RETST h ∧
    a ≠ HPT_RETLINE h ∧ a ≠ HPT_RETSUMLO ∧ a ≠ HPT_RETSUMHI := by
  have hmod : ∀ b ∈ twinRegs, b % 256 = 0 ∨ b % 256 = 4 := by decide
  have := hmod a ha
  simp only [HPT_RETCHK, HPT_RETERR, HPT_RETST, HPT_RETLINE, HPT_RETSUMLO, HPT_RETSUMHI]
  omega

/-- The check is counted, and its class kept. -/
def State.retCounted (s : State) (h k : Nat) : State := (s.countReg (HPT_RETCHK h) 1).modHead h (fun x => { x with cls := k })

theorem State.twinOn_retFail_retCounted (s : State) (h l c k : Nat) : ((s.retCounted h k).retFail h l c k).twinOn = s.twinOn := by
  refine State.twinOn_of_regs fun a ha => ?_
  obtain ⟨hchk, herr, hst, hline, hlo, hhi⟩ := twinRegs_ne_return h ha
  rw [State.reg_retFail_ne _ _ _ _ _ hst hline, State.reg_retSum_ne _ _ hlo hhi, State.countReg, State.reg_setReg_ne _ _ herr]
  exact State.reg_setReg_ne _ _ hchk

section
variable {c l bits tr : Nat} {sig : Word}

theorem State.checkReturn_of_passed (hk : returnClass c sig bits tr = 0)
    (ht : ((s.retCounted h 0).setFld (HPT_RETST_RUN h) 0).twinOn = false) :
    s.checkReturn h l c sig bits tr = (s.retCounted h 0).setFld (HPT_RETST_RUN h) 0 := by
  rw [State.retCounted] at ht ⊢
  simp only [State.checkReturn, hk, if_true, ht, Bool.not_false, bne_self_eq_false, Bool.false_and, Bool.false_eq_true, if_false]

theorem State.checkReturn_of_failed {k : Nat} (hk : returnClass c sig bits tr = k) (h0 : k ≠ 0) (ht : s.twinOn = false) :
    s.checkReturn h l c sig bits tr = if ((s.retCounted h k).retFail h l c k).retLimit h = true
      then ((s.retCounted h k).retFail h l c k).retFault h else (s.retCounted h k).retFail h l c k := by
  have ht' := (State.twinOn_retFail_retCounted s h l c k).trans ht
  have hb : (k != 0) = true := bne_iff_ne.2 h0
  rw [State.retCounted] at ht' ⊢
  simp only [State.checkReturn, hk, h0, if_false, ht', Bool.not_false, if_true, hb, Bool.true_and]

end

theorem State.retLimit_iff (s : State) (h : Nat) : s.retLimit h = true ↔
    s.fld (HPT_RETCFG_LIMIT h) ≤ s.fld (HPT_RETST_RUN h) ∧ s.on (HPT_RETST_FAULT h) = false := by
  simp only [State.retLimit, Bool.and_eq_true, decide_eq_true_eq, Bool.not_eq_true']

/-! ### HPT_RETCFG.ACTION (R192) -/

theorem State.retFault_of_none (ha : s.fld (HPT_RETCFG_ACTION h) = 0) : s.retFault h = s.setFld (HPT_RETST_FAULT h) 1 := by
  simp [State.retFault, State.setOn, ha]

theorem State.retFault_of_out (ha : s.fld (HPT_RETCFG_ACTION h) = 1) : s.retFault h =
    if s.on KLN_CTL_LAYOUT = true then (s.setFld (HPT_RETST_FAULT h) 1).beginOut h 2 else s.setFld (HPT_RETST_FAULT h) 1 := by
  simp [State.retFault, State.setOn, ha]

theorem State.retFault_of_stop (ha : s.fld (HPT_RETCFG_ACTION h) = 2) : s.retFault h =
    if s.armed = true then (s.setFld (HPT_RETST_FAULT h) 1).raiseCause 2 else s.setFld (HPT_RETST_FAULT h) 1 := by
  simp [State.retFault, State.setOn, ha]

end Sys2Proof.Machine
end

section
/-! PROOF. The pairs that a port in MONITOR observes: what a rise and a fall of LAT and FIRE do (R171, R182, R184, R328). -/

namespace Sys2Proof.Machine
open Sys2Proof

variable {s : State} {h : Nat}

theorem exec_monitorLatObserved (t : Nat) (h : Fin 64) (up : Bool) (s : State) : exec (.monitorLatObserved t ⟨h, up⟩) s =
    .next (if up == (s.advance t).on (HPT_LANEMAP_LATINV h) then s.advance t
      else (((s.advance t).latSeen h).overCheck h).readyShow) := rfl

theorem exec_monitorFireObserved (t : Nat) (h : Fin 64) (up : Bool) (s : State) : exec (.monitorFireObserved t ⟨h, up⟩) s =
    .next (if up == (s.advance t).on (HPT_LANEMAP_FIREINV h) then (s.advance t).fireFell h else ((s.advance t).fireSeen h).readyShow) := rfl

theorem State.fireFell_eq (s : State) (h : Nat) : s.fireFell h =
    if s.fld (HPT_CTL_MODE h) = 2 ∧ s.portsRun = true then s.modHead h (fun x => { x with fireHi := false, fall := s.clk }) else s := by
  by_cases hm : s.fld (HPT_CTL_MODE h) = 2 <;> cases hr : s.portsRun <;> simp [State.fireFell, hm, hr]

theorem State.latSeen_of_not_observing (hn : s.fld (HPT_CTL_MODE h) ≠ 2 ∨ s.portsRun = false) : s.latSeen h = s :=
  if_pos (by simpa using hn)

theorem State.fireSeen_of_not_observing (hn : s.fld (HPT_CTL_MODE h) ≠ 2 ∨ s.portsRun = false) : s.fireSeen h = s :=
  if_pos (by simpa using hn)

theorem State.latSeen_of_not_aligned (hmode : s.fld (HPT_CTL_MODE h) = 2) (hrun : s.portsRun = true) (hm : (s.head h).mline = none) :
    s.latSeen h = (s.modHead h (fun x => { x with obs := x.obs + 1 })).pairObs h true := by
  simp [State.latSeen, hmode, hrun, hm]

theorem State.fireSeen_of_aligned {v : State} {m : Nat} (hmode : s.fld (HPT_CTL_MODE h) = 2) (hrun : s.portsRun = true)
    (hv : (s.modHead h (fun x => { x with fireHi := true, seen := ((x.obs, s.tb0) :: x.seen).take 16 })).align h = v)
    (hm : (v.head h).mline = some m) : s.fireSeen h = (v.modHead h (fun x => { x with pulse := some (m, v.clk) })).seenFired h m := by
  simp only [State.fireSeen, hmode, hrun, hv, hm, bne_self_eq_false, Bool.not_true, Bool.or_self, Bool.false_eq_true, if_false]

/-- A write of HPT_RETST(h) that clears FAULT ends a port-out that chain return asked for, and the causes are looked at again (R192). -/
theorem State.retstWrite_eq {u : State} {v : Word} (hu : s.setReg (HPT_RETST h) (s.reg (HPT_RETST h) &&& ~~~(v &&& 0x800100F0#32)) = u) :
    s.retstWrite h v = if s.on (HPT_RETST_FAULT h) = true ∧ v.getLsbD 16 = true then
      (if bitAt (u.head h).outBy 1 then u.endOut h 2 else u).causeCheck else u := by
  simp only [State.retstWrite, hu, Bool.and_eq_true]

/-- Settles O25: the port's mode says who takes a return, its class says what the check records, and RUN at LIMIT brings the action. -/
theorem returnsAreChecked : Obligations.ReturnsAreChecked := by
  refine ⟨?drive, ?monitor, ?nothing, ?training, fun s h bits tr l c sig hret hskip => State.driveReturn_of_compared hret hskip bits tr,
    ?passed, ?failed, ?records, State.retLimit_iff, ?action, fun s h bits tr l c sig hret hskip => State.driveReturn_of_skipped hret hskip bits tr,
    ?clear, ?falls, ?notObserving, ?latRise, ?fireRise⟩
  case drive =>
    rintro t h bits tr z s _ x rfl hrun hmode hret
    rw [exec_returnCheck, State.returned_of_drive hrun hmode hret]
  case monitor =>
    rintro t h bits tr z s _ rfl hrun hmode
    rw [exec_returnCheck, State.returned_of_monitor hrun hmode]
    exact ⟨fun hz => by rw [State.monSample_of_rest hz], fun hz => by rw [State.monSample_of_late hz]⟩
  case nothing =>
    rintro t h bits tr s _ rfl hn
    rw [exec_returnCheck]
    cases hrun : (s.advance t).portsRun with
    | false => rw [State.returned_of_gated hrun]
    | true =>
      obtain hgate | hoff | ⟨hmode, hret⟩ | ⟨hmode, hidle⟩ := hn
      · rw [State.returned_of_gated hgate]
      · rw [State.returned_of_off hrun hoff]
      · rw [State.returned_of_drive_idle hrun hmode hret]
      · rw [State.returned_of_test_idle hrun hmode hidle]
  case training =>
    rintro t h bits tr z s _ x g rfl hrun hmode hret ht
    rw [exec_returnCheck, State.returned_of_training hrun hmode hret ht]
  case passed =>
    rintro s _ h bits tr l c sig hk rfl ht
    exact State.checkReturn_of_passed hk ht
  case failed =>
    intro s h bits tr l c k sig hk h0 ht
    rw [State.checkReturn_of_failed hk h0 ht]
    exact ⟨fun hl => if_neg (by rw [State.retCounted, hl]; decide), fun hl => if_pos hl⟩
  case records =>
    rintro s _ h l c k hs hc - hk rfl
    obtain ⟨hlanes, hrun, hvalid, hfirst, hlater⟩ := State.retst_retFail hs h.isLt l hc hk
    exact ⟨State.retErr_retFail hs h.isLt l c k, hlanes, hrun, hvalid, State.retSumLo_retFail hs h.isLt l c k,
      State.retSumHi_retFail hs h.isLt l c k, hfirst, hlater⟩
  case action =>
    rintro s _ h rfl
    refine ⟨State.retFault_of_none, fun ha hl => ?_, fun ha hl => ?_, fun ha hj => ?_, fun ha hj => ?_⟩
    · rw [State.retFault_of_out ha, if_pos hl]
    · rw [State.retFault_of_out ha, if_neg (by simp [hl])]
    · rw [State.retFault_of_stop ha, if_pos hj]
    · rw [State.retFault_of_stop ha, if_neg (by simp [hj])]
  case clear =>
    intro h v s u hb hu
    rw [exec_retstFaultClear, State.bar_of_served hb, State.retstWrite_eq hu]
  case falls =>
    rintro t h up s _ rfl
    refine ⟨fun hup => ?_, fun hup => ?_⟩
    · rw [exec_monitorLatObserved, if_pos (beq_iff_eq.2 hup)]
    · rw [exec_monitorFireObserved, if_pos (beq_iff_eq.2 hup), State.fireFell_eq]
  case notObserving =>
    rintro t h up s _ rfl hn
    refine ⟨fun hup => ?_, fun hup => ?_⟩
    · rw [exec_monitorLatObserved, if_neg (mt beq_iff_eq.1 hup), State.latSeen_of_not_observing hn]
    · rw [exec_monitorFireObserved, if_neg (mt beq_iff_eq.1 hup), State.fireSeen_of_not_observing hn]
  case latRise =>
    rintro t h up s _ rfl hup hmode hrun hm
    rw [exec_monitorLatObserved, if_neg (mt beq_iff_eq.1 hup), State.latSeen_of_not_aligned hmode hrun hm]
  case fireRise =>
    rintro t h up s _ v m rfl hup hmode hrun hv hm
    rw [exec_monitorFireObserved, if_neg (mt beq_iff_eq.1 hup), State.fireSeen_of_aligned hmode hrun hv hm]

end Sys2Proof.Machine
end

section
/-! PROOF. Why the statement of the port tests fails: its clause on MODE at a hand-over slot takes any canonical state, and `State.canonical` says
nothing of the map that holds the heads. In a map with two entries for one port, a head that is written back as it stands after reset leaves the
map, and the other entry is what the port then reads as. -/

namespace Sys2Proof.Machine
open Sys2Proof

/-- Reset, but for the role ACTIVE and two entries for port 0: MODE OFF waits in the first, MODE TEST in the second. -/
def doubledHead : State :=
  { State.reset with
    regs := [(TWN_STATE, BitVec.ofNat 32 roACTIVE)]
    heads := [(0, { Head.reset with mode := some 0 }), (0, { Head.reset with mode := some 3 })] }

theorem exec_modeHandover (t : Nat) (h : Fin 64) (s : State) : exec (.modeHandover t h) s = .next ((s.advance t).modeHandover h) := rfl

/-- The hand-over of MODE OFF leaves nothing in the first entry that an unlisted head does not read as, so the second one shows. -/
theorem doubledHead_modeHandover : (((doubledHead.advance 0).modeHandover 0).head 0).mode = some 3 := by decide

/-- Refutes O26: MODE OFF takes effect on port 0, and yet a MODE waits there. -/
theorem not_portTestsRun : ¬ Obligations.PortTestsRun := by
  rintro ⟨-, -, -, -, -, -, -, -, -, -, -, -, -, -, hmode, -⟩
  have hcanonical : doubledHead.canonical := ⟨rfl, rfl, rfl, rfl, rfl⟩
  obtain ⟨w, hw, -, hnone⟩ := hmode 0 0 doubledHead _ 0 hcanonical rfl (by decide) rfl (by decide) (by decide) rfl (by decide) (by decide)
  have hafter : (doubledHead.advance 0).modeHandover 0 = w := Host.Outcome.next.inj ((exec_modeHandover 0 0 _).symm.trans hw)
  have hwaits : (w.head 0).mode = some 3 := by rw [← hafter, doubledHead_modeHandover]
  exact absurd (hwaits.symm.trans hnone) (by decide)

end Sys2Proof.Machine
end

section
/-! PROOF. Why the statement of the management buses fails: after a poll it has the turn judged by SVC_MBXREQ(0) as it stands, where the model takes
the port of the running RANKWRITE as GO found it (`State.reqField`, log entry 93). What the host writes to SVC_MBXREQ after GO tells them apart. -/

namespace Sys2Proof.Machine
open Sys2Proof

/-- Between two pages of a RANKWRITE of port 0, whose bus is enabled, mastered and idle and whose head is present and was never read; since GO
the host has written 8, a port of bus 1, to SVC_MBXREQ(0). -/
def rewrittenRequest : State :=
  { State.reset with
    regs := [(HPT_HSTAT 0, 1#32), (HPT_BUSCFG 0, 1#32), (HPT_BUSST 0, 1#32), (SVC_MBXREQ 0, 8#32)]
    svc := { Svc.reset with cmd := some mcRANKWRITE, page := true, pages := 1, turn := true, req := List.replicate 16 0#8 } }

theorem exec_tempPoll (t : Nat) (b : Fin 8) (s : State) : exec (.tempPoll t b) s = .next ((s.advance t).tempPoll b) := rfl

/-- The poll of bus 0 takes the turn that the page of port 0 has left to it. -/
theorem rewrittenRequest_tempPoll : ((rewrittenRequest.advance 0).tempPoll 0).svc.turn = false := by decide

/-- Refutes O27: by the register, which names port 8 by now, the turn would not be used up by a poll of bus 0. -/
theorem not_headBusesRun : ¬ Obligations.HeadBusesRun := by
  rintro ⟨hpoll, -⟩
  have hstated := hpoll 0 0 rewrittenRequest _ 0 rfl (by decide) (by decide) (by decide) (by decide) (by decide) (by decide) (by decide)
    (by decide)
  have hturn := congrArg (fun u => u.svc.turn) (Host.Outcome.next.inj ((exec_tempPoll 0 0 _).symm.trans hstated))
  exact absurd (rewrittenRequest_tempPoll.symm.trans hturn) (by decide)

end Sys2Proof.Machine
end

section
/-! PROOF. Loss of TRUST, its return, and rewinds. What line firing and the cameras make of these leaves the position, its alarms, and the registers
that record a reversal or an illegal transition (R207, R210, R219, R220, R232, R233, R251, R266). -/

namespace Sys2Proof.Machine
open Sys2Proof

/-- Where a reversal, a loss of TRUST and an illegal transition are recorded. -/
def posRecords : List Nat := [POS_STATE, POS_ILLCNT, POS_REVCNT, FIR_STATE]

/-- The position, the alarms, and what the registers of `posRecords` hold. -/
def State.posView (s : State) : Pos × BitVec 64 × List Word := (s.pos, s.alarms, posRecords.map s.reg)

variable {s : State}

theorem State.reg_of_posView {t : State} (h : t.posView = s.posView) : ∀ a ∈ posRecords, t.reg a = s.reg a :=
  List.map_inj_left.1 (congrArg (fun x => x.2.2) h)

theorem State.fld_of_posView {t : State} (h : t.posView = s.posView) {f : Fld} (hf : f.addr ∈ posRecords) : t.fld f = s.fld f := by
  rw [State.fld, State.fld, State.reg_of_posView h _ hf]

theorem State.setFld_posView (f : Fld) (x : Nat) (hf : ∀ a ∈ posRecords, a ≠ f.addr) : (s.setFld f x).posView = s.posView :=
  congrArg (fun l => (s.pos, s.alarms, l)) (List.map_congr_left fun a ha => State.reg_setFld_ne s f x (hf a ha))

/-- A fold of steps that leave the position leaves it. -/
theorem foldl_posView {β : Type} {f : State → β → State} (hf : ∀ s x, (f s x).posView = s.posView) (l : List β) (s : State) :
    (l.foldl f s).posView = s.posView :=
  List.foldlRecOn (motive := fun t => t.posView = s.posView) l f rfl fun t ht x _ => (hf t x).trans ht

theorem State.trigMark_posView (v : Int) : (s.trigMark v).posView = s.posView :=
  foldl_posView (fun s c => by split <;> rfl) _ s

theorem State.trigSkip_posView : s.trigSkip.posView = s.posView := by
  unfold State.trigSkip
  split
  · exact State.trigMark_posView _
  · rfl

theorem State.withdraw_posView : s.withdraw.posView = s.posView :=
  foldl_posView (f := fun s h => s.modHead h _) (fun _ _ => rfl) _ s

theorem State.raiseCause_posView (k : Nat) : (s.raiseCause k).posView = s.posView := by
  unfold State.raiseCause
  split
  · rw [State.setFld_posView _ _ (by decide), State.setFld_posView _ _ (by decide)]
  · rfl

/-! ### A loss of TRUST (R232, R233, R251) -/

theorem State.trustAct_of_lost (hs : s.on POS_STATE_TRUST = true) {u : State} (hu : u.on POS_STATE_TRUST = false) :
    State.trustAct s u = if u.armed && u.on FIR_CTL_TRUSTACT then u.withdraw.raiseCause 3 else u.withdraw := by
  simp only [State.trustAct, hs, hu, Bool.not_false, Bool.and_self, if_true]

theorem State.trustAct_of_not_lost {u : State} (h : s.on POS_STATE_TRUST = false ∨ u.on POS_STATE_TRUST = true) :
    State.trustAct s u = u := by
  have hkept : (s.on POS_STATE_TRUST && !u.on POS_STATE_TRUST) = false := by obtain h | h := h <;> simp [h]
  simp only [State.trustAct, hkept, Bool.false_eq_true, if_false]

theorem State.trustAct_posView (s u : State) : (State.trustAct s u).posView = u.posView := by
  unfold State.trustAct
  split
  · split
    · rw [State.raiseCause_posView, State.withdraw_posView]
    · exact State.withdraw_posView
  · rfl

/-! ### RETRUST (R210) -/

theorem exec_retrust_of_served (hb : s.barOk 6 = true) : exec .retrust s = .next s.retrust.causeCheck :=
  congrArg Host.Outcome.next (State.bar_of_served hb _)

theorem State.retrust_of_majority (hn : s.on POS_STATE_NOMAJ = false) : s.retrust = (s.setFld POS_STATE_TRUST 1).setFld FIR_STATE_SUSPT 0 :=
  if_neg (by simp [hn])

theorem State.retrust_of_no_majority (hn : s.on POS_STATE_NOMAJ = true) : s.retrust = s := if_pos hn

/-- Settles O24: RETRUST asks for a majority only, and what a loss of TRUST brings on depends on the job and on TRUSTACT. -/
theorem trustAndOriginRun : Obligations.TrustAndOriginRun := by
  refine ⟨fun s hb hn => ?majority, fun s hb hn => ?noMajority, fun s u hs hu ha ht => ?action, fun s u hs hu h => ?noAction,
    fun s u => State.trustAct_of_not_lost⟩
  case majority => rw [exec_retrust_of_served hb, State.retrust_of_majority hn]
  case noMajority => rw [exec_retrust_of_served hb, State.retrust_of_no_majority hn]
  case action => rw [State.trustAct_of_lost hs hu, if_pos (by rw [ha, ht]; rfl)]
  case noAction =>
    have hno : (u.armed && u.on FIR_CTL_TRUSTACT) = false := by obtain h | h := h <;> simp [h]
    rw [State.trustAct_of_lost hs hu, hno, if_neg Bool.false_ne_true]

/-! ### REWIND (R220) -/

theorem exec_rewind (s : State) : exec .rewind s = .next s.takeRewind := rfl

theorem State.takeRewind_of_none (hr : s.pos.rewind = none) : s.takeRewind = s := by simp only [State.takeRewind, hr]

/-- A reversal by a rewind as it is recorded. -/
def State.rewindNoted (s : State) : State := ((s.setFld POS_STATE_REVERSED 1).setFld FIR_STATE_SUSPR 1).count POS_REVCNT_REWIND 1

/-- The position with a rewind to `v` taken, and its record. -/
def State.rewound (s : State) (v : Int) : State := (s.setPos { s.pos with h := v, rewind := none }).rewindNoted

section
variable {v : Int} (hr : s.pos.rewind = some v)
include hr

theorem State.takeRewind_of_waiting (hw : -(s.fld POS_REVWIN_COUNTS : Int) ≤ diff48 s.pos.t v) : s.takeRewind = s := by
  simp only [State.takeRewind, hr, if_neg (Int.not_lt.2 hw)]

theorem State.takeRewind_of_due (hd : diff48 s.pos.t v < -(s.fld POS_REVWIN_COUNTS : Int)) : s.takeRewind = (s.rewound v).trigMark v := by
  simp only [State.takeRewind, hr, if_pos hd]
  rfl

end

theorem State.rewindNoted_records (hs : s.canonical) : s.rewindNoted.on POS_STATE_REVERSED = true ∧
    s.rewindNoted.on FIR_STATE_SUSPR = true ∧ s.rewindNoted.fld POS_REVCNT_REWIND = min 65535 (s.fld POS_REVCNT_REWIND + 1) ∧
    s.rewindNoted.fld POS_REVCNT_REV = s.fld POS_REVCNT_REV := by
  have h1 := hs.setFld POS_STATE_REVERSED 1
  have h2 := h1.setFld FIR_STATE_SUSPR 1
  have hreversed : s.rewindNoted.fld POS_STATE_REVERSED = 1 := by
    rw [State.rewindNoted, State.count, State.fld_setFld_ne _ _ _ _ (by decide), State.fld_setFld_ne _ _ _ _ (by decide)]
    exact State.fld_setFld_same hs.1 _ _ (by decide)
  have hsuspended : s.rewindNoted.fld FIR_STATE_SUSPR = 1 := by
    rw [State.rewindNoted, State.count, State.fld_setFld_ne _ _ _ _ (by decide)]
    exact State.fld_setFld_same h1.1 _ _ (by decide)
  refine ⟨by rw [State.on, hreversed]; rfl, by rw [State.on, hsuspended]; rfl, ?rewinds, ?reversals⟩
  case rewinds =>
    rw [State.rewindNoted, State.fld_count_same h2.1 _ _ (by decide), State.fld_setFld_ne _ _ _ _ (by decide),
      State.fld_setFld_ne _ _ _ _ (by decide)]
    rfl
  case reversals =>
    rw [State.rewindNoted, State.count, State.fld_setFld_beside h2.1 POS_REVCNT_REWIND POS_REVCNT_REV _ rfl (by decide) (by decide),
      State.fld_setFld_ne _ _ _ _ (by decide), State.fld_setFld_ne _ _ _ _ (by decide)]

/-- Settles O31: a rewind acts only when it is due, and what the cameras then mark leaves the position and its records. -/
theorem rewindsWait : Obligations.RewindsWait := by
  refine ⟨fun s hr => ?none, fun s v hr hw => ?waiting, fun s v hs hr hd => ?due, fun s v hr hd => ?position⟩
  case none => rw [exec_rewind, State.takeRewind_of_none hr]
  case waiting => rw [exec_rewind, State.takeRewind_of_waiting hr hw]
  case due =>
    refine ⟨_, by rw [exec_rewind, State.takeRewind_of_due hr hd], ?_⟩
    have hview := State.trigMark_posView (s := s.rewound v) v
    obtain ⟨hrev, hsusp, hcount, hbeside⟩ := State.rewindNoted_records (s := s.setPos { s.pos with h := v, rewind := none }) hs
    refine ⟨congrArg Prod.fst hview, ?_, ?_, ?_, ?_⟩
    · rwa [State.on, State.fld_of_posView hview (by decide)]
    · rwa [State.on, State.fld_of_posView hview (by decide)]
    · rwa [State.fld_of_posView hview (by decide)]
    · rwa [State.fld_of_posView hview (by decide)]
  case position =>
    exact ⟨_, by rw [exec_rewind, State.takeRewind_of_due hr hd], congrArg Prod.fst (State.trigMark_posView (s := s.rewound v) v)⟩

end Sys2Proof.Machine
end

section
/-! PROOF. Reads of the LO registers of the position, and the HI registers that they latch (R211, R212, R221). -/

namespace Sys2Proof.Machine
open Sys2Proof

variable {s : State}

theorem exec_posLoRead_of_served (hb : s.barOk 6 = true) (k : Fin 6) : exec (.posLoRead k) s = .next (s.posLoRead k) :=
  congrArg Host.Outcome.next (if_pos hb)

/-- Outside service a read returns 0, also while POS is in reset: POS_CNTLO resets to 0. -/
theorem exec_posLoRead_of_not_served (hb : s.barOk 6 = false) (k : Fin 6) :
    exec (.posLoRead k) s = .next { s with readData := 0#64, readEP := false } := by
  have hreset : (regReset POS_CNTLO).zeroExtend 64 = 0#64 := by decide
  have hread : s.barRead 6 POS_CNTLO (fun s => s.posLoRead k) = { s with readData := 0#64, readEP := false } := by
    simp only [State.barRead, hb, Bool.false_eq_true, if_false, hreset, ite_self]
  exact congrArg Host.Outcome.next hread

theorem State.readData_posLoRead (s : State) (k : Nat) : (s.posLoRead k).readData.toNat = s.posPair k % 2 ^ 32 := by
  rw [State.posLoRead, BitVec.toNat_ofNat]
  exact Nat.mod_eq_of_lt (Nat.lt_trans (Nat.mod_lt _ (by decide)) (by decide))

/-- In the range of the position block every register shows what `livePos` gives. -/
theorem State.live_position (s : State) {a : Nat} (h1 : 0x1a0000 ≤ a) (h2 : a < 0x1b0000) : s.live a = s.livePos a := by
  have hport : bankAt a (HPT_HSTAT 0) 64 256 = none := if_neg (by simp only [HPT_HSTAT]; omega)
  rw [State.live, if_neg (by omega), if_neg (by omega), hport, Option.isSome_none, if_neg Bool.false_ne_true, if_pos ⟨h1, h2⟩]

/-- The HI registers of the six pairs. -/
def hiRegisters : List Nat := [POS_CNTHI, POS_TRAVHI, POS_HWMHI, POS_ZACCHI, POS_ZCAPHI, POS_SNAPHI]

theorem hiRegisters_in_position (k : Fin 6) : 0x1a0000 ≤ hiRegisters.getD k 0 ∧ hiRegisters.getD k 0 < 0x1b0000 := by
  revert k
  decide

theorem State.live_hiRegister (s : State) (k : Fin 6) : s.live (hiRegisters.getD k 0) = s.pos.lat.get (fun _ => 0#32) k := by
  obtain ⟨h1, h2⟩ := hiRegisters_in_position k
  rw [State.live_position s h1 h2]
  fin_cases k <;> rfl

/-- A 48-bit count read as 64 bits: its upper word repeats bit 47. -/
theorem unsign64_upper {x : Int} (h1 : -(2 : Int) ^ 47 ≤ x) (h2 : x < 2 ^ 47) :
    unsign 64 x / 2 ^ 32 = bitsOf (unsign 48 x) 32 16 + 2 ^ 16 * (if x < 0 then 65535 else 0) := by
  simp only [unsign, bitsOf, Nat.shiftRight_eq_div_pow]
  split <;> omega

/-- Settles O30: a served read puts the word above the one it returns into the latch of its own pair, which the pair's HI register shows. -/
theorem loReadsLatchHi : Obligations.LoReadsLatchHi := by
  refine ⟨fun k s hb => ⟨_, exec_posLoRead_of_served hb k, ?_⟩, fun k s => State.live_hiRegister s k, fun x h1 h2 => unsign64_upper h1 h2,
    fun k s hb => exec_posLoRead_of_not_served hb k⟩
  exact ⟨State.readData_posLoRead s k, rfl, fun hl => SMap.get_set_eq _ _ hl,
    fun j hj => SMap.get_set_ne _ _ (Fin.val_ne_of_ne hj), rfl⟩

end Sys2Proof.Machine
end

section
/-! PROOF. An encoder transition: an illegal one is recorded and counts nowhere, a legal one moves its channel's counter, and the travel count takes
the vote (R205 to R211, R219, R233). -/

namespace Sys2Proof.Machine
open Sys2Proof

variable {s : State}

/-! ### 48-bit counts (R211) -/

theorem wrapS_eq_bmod (i : Int) : wrapS 48 i = Int.bmod i (2 ^ 48) := by
  simp only [wrapS, signed, unsign, Int.bmod]
  omega

theorem diff48_self (a : Int) : diff48 a a = 0 := by rw [diff48, Int.sub_self]; rfl

/-- A 48-bit count that moves by its difference from another arrives there. -/
theorem wrapS_add_diff48 {v : Int} (h1 : -(2 : Int) ^ 47 ≤ v) (h2 : v < 2 ^ 47) (t : Int) : wrapS 48 (t + diff48 v t) = v := by
  rw [diff48, wrapS_eq_bmod, wrapS_eq_bmod, Int.add_bmod_bmod, add_sub_cancel]
  exact Int.bmod_eq_of_le h1 h2

theorem eq_of_diff48_eq_zero {v t : Int} (h1 : -(2 : Int) ^ 47 ≤ v) (h2 : v < 2 ^ 47) (h3 : -(2 : Int) ^ 47 ≤ t) (h4 : t < 2 ^ 47)
    (h : diff48 v t = 0) : v = t := by
  have hv := wrapS_add_diff48 h1 h2 t
  rw [h, Int.add_zero, wrapS_eq_bmod, Int.bmod_eq_of_le h3 h4] at hv
  exact hv.symm

/-! ### A transition that is shown long enough (R206) -/

/-- The pins of channel `c` show A and B as `ab`; Z stands. -/
def State.pinsShown (s : State) (c ab : Nat) : State := s.pinsAt c (s.pos.rawOf c / 4 * 4 + ab)

theorem exec_encoderTransition (t : Nat) (c : Fin 3) (a b : Bool) (n : BitVec 8) (s : State) :
    exec (.encoderTransition t c a ⟨b, n⟩) s = .next (if n.toNat < ((s.advance t).pinsShown c (abOf a b)).filtN
      then (s.advance t).pinsShown c (abOf a b) else ((s.advance t).pinsShown c (abOf a b)).encoder c (abOf a b)) := rfl

theorem State.encoder_of_still {c ab : Nat} (hm : diff48 (s.transition c ab).pos.t s.pos.t = 0) :
    s.encoder c ab = (State.trustAct s (s.transition c ab)).trigSkip := by
  simp only [State.encoder, hm, if_true]

theorem State.encoder_of_edge {c ab : Nat} (hm : diff48 (s.transition c ab).pos.t s.pos.t ≠ 0) :
    s.encoder c ab = ((State.trustAct s (s.transition c ab)).fireEdge
      (decide ((State.trustAct s (s.transition c ab)).pos.sgn * diff48 (s.transition c ab).pos.t s.pos.t < 0))).trigSkip := by
  simp only [State.encoder, if_neg hm]

/-! ### An illegal transition (R207, R210) -/

theorem quadStep_of_both_change {o : Nat} (ho : o < 4) {a b : Bool} (ha : bitAt o 1 ≠ a) (hb : bitAt o 0 ≠ b) :
    quadStep o (abOf a b) = none := by
  revert a b
  interval_cases o <;> decide

/-- The count of channel `c` in POS_ILLCNT. -/
def illField (c : Nat) : Fld := ⟨POS_ILLCNT, 8 * c, 8⟩

/-- An illegal transition of channel `c` as it is recorded, before it can clear TRUST. -/
def State.illNoted (s : State) (c : Nat) : State :=
  let s1 := (s.count (illField c) 1).setFld POS_STATE_ILL (s.fld POS_STATE_ILL ||| 2 ^ c)
  (s1.setPos { s.pos with ill := s.pos.ill.set (fun _ => 0) c (s.pos.moves + 1) }).alarm alENCERR

/-- Enough illegal transitions nearby clear TRUST; nothing else follows. -/
theorem State.illegal_eq_or (s : State) (c : Fin 3) : s.illegal c = (s.illNoted c).distrust ∨ s.illegal c = s.illNoted c := by
  have heq : s.illegal c =
      if (if (s.illNoted c).chans.length = 3 then 2 else (s.illNoted c).chans.length) ≤ (s.illNoted c).illNear.length ∧
        0 < (s.illNoted c).chans.length then (s.illNoted c).distrust else s.illNoted c := by
    fin_cases c <;> rfl
  rw [heq]
  exact ite_eq_or_eq _ _ _

/-- What R207 has of an illegal transition of channel `c` between `s` and `v`: the counts stand, and it is recorded. -/
structure State.IllRecorded (s : State) (c : Fin 3) (v : State) : Prop where
  pos : v.pos = { s.pos with ill := s.pos.ill.set (fun _ => 0) c (s.pos.moves + 1) }
  counted : v.fld (illField c) = min 255 (s.fld (illField c) + 1)
  beside : ∀ d : Fin 3, d ≠ c → v.fld (illField d) = s.fld (illField d)
  ill : v.fld POS_STATE_ILL = s.fld POS_STATE_ILL ||| 2 ^ c.val
  alarm : v.alarms.getLsbD alENCERR = true

theorem State.illRecorded_illNoted (hs : s.canonical) (c : Fin 3) : s.IllRecorded c (s.illNoted c) := by
  have hwidth : 8 * c.val + 8 ≤ 32 := by omega
  have hcount : (s.count (illField c) 1).canonical := hs.setFld _ _
  have hregs : POS_ILLCNT ≠ POS_STATE := by decide
  refine ⟨rfl, ?counted, fun d hd => ?beside, ?ill, ?alarm⟩
  case counted =>
    exact (State.fld_setFld_ne _ POS_STATE_ILL (illField c) _ hregs).trans (State.fld_count_same hs.1 (illField c) 1 hwidth)
  case beside =>
    have hapart : 8 * c.val + 8 ≤ 8 * d.val ∨ 8 * d.val + 8 ≤ 8 * c.val := by omega
    exact (State.fld_setFld_ne _ POS_STATE_ILL (illField d) _ hregs).trans
      (State.fld_setFld_beside hs.1 (illField c) (illField d) _ rfl hapart hwidth)
  case ill =>
    have hlow : s.fld POS_STATE_ILL < 2 ^ 3 := Nat.mod_lt _ (Nat.two_pow_pos _)
    have hbit : 2 ^ c.val < 2 ^ 3 := Nat.pow_lt_pow_right (by decide) c.isLt
    exact (State.fld_setFld_same hcount.1 POS_STATE_ILL _ (by decide)).trans (Nat.mod_eq_of_lt (Nat.or_lt_two_pow hlow hbit))
  case alarm => simp [State.illNoted, alENCERR]

/-- A loss of TRUST leaves the record. -/
theorem State.IllRecorded.distrust {v : State} {c : Fin 3} (hv : v.canonical) (h : s.IllRecorded c v) : s.IllRecorded c v.distrust := by
  have hregs : POS_ILLCNT ≠ FIR_STATE ∧ POS_ILLCNT ≠ POS_STATE := by decide
  have hcnt (d : Nat) : v.distrust.fld (illField d) = v.fld (illField d) :=
    (State.fld_setFld_ne _ FIR_STATE_SUSPT (illField d) _ hregs.1).trans (State.fld_setFld_ne _ POS_STATE_TRUST (illField d) _ hregs.2)
  have hill : v.distrust.fld POS_STATE_ILL = v.fld POS_STATE_ILL := by
    rw [State.distrust, State.setOn, State.fld_setFld_ne _ _ _ _ (by decide),
      State.fld_setFld_beside hv.1 POS_STATE_TRUST POS_STATE_ILL _ rfl (by decide) (by decide)]
  exact ⟨h.pos, (hcnt c).trans h.counted, fun d hd => (hcnt d).trans (h.beside d hd), hill.trans h.ill, h.alarm⟩

theorem State.illRecorded_illegal (hs : s.canonical) (c : Fin 3) : s.IllRecorded c (s.illegal c) := by
  have hnoted := State.illRecorded_illNoted hs c
  have hcanonical : (s.illNoted c).canonical := (hs.setFld (illField c) _).setFld POS_STATE_ILL _
  obtain heq | heq := s.illegal_eq_or c <;> rw [heq]
  · exact hnoted.distrust hcanonical
  · exact hnoted

/-- The record outlasts what line firing and the cameras do. -/
theorem State.IllRecorded.of_posView {v w : State} {c : Fin 3} (h : s.IllRecorded c v) (hw : w.posView = v.posView) : s.IllRecorded c w := by
  have hrecord : POS_ILLCNT ∈ posRecords := by decide
  have hcnt (d : Nat) : w.fld (illField d) = v.fld (illField d) := State.fld_of_posView hw hrecord
  have hpos : w.pos = v.pos := congrArg Prod.fst hw
  have halarms : w.alarms = v.alarms := congrArg (fun x => x.2.1) hw
  exact ⟨hpos.trans h.pos, (hcnt c).trans h.counted, fun d hd => (hcnt d).trans (h.beside d hd),
    (State.fld_of_posView hw (by decide)).trans h.ill, halarms ▸ h.alarm⟩

/-! ### The transition (R205 to R208) -/

/-- Channel `c` with its new levels accepted, before it counts. -/
def State.accepted (s : State) (c ab : Nat) : State := s.setPos { s.pos with ab := s.pos.ab.set (fun _ => 3) c ab }

theorem State.transition_of_not_counted {c : Nat} (hc : s.chanOn c = false) (ab : Nat) : s.transition c ab = s.accepted c ab := by
  simp only [State.transition, hc, Bool.not_false, if_true]
  rfl

theorem State.transition_of_illegal {c ab : Nat} (hc : s.chanOn c = true) (hq : quadStep (s.pos.pins c) ab = none) :
    s.transition c ab = (s.accepted c ab).illegal c := by
  simp only [State.transition, hc, hq, Bool.not_true, Bool.false_eq_true, if_false]
  rfl

/-- Channel `c` with its new levels accepted and its counter moved by the step `d`, as SENSE gives its direction. -/
def State.stepped (s : State) (c ab : Nat) (d : Int) : State :=
  s.setPos { s.pos with
    ab := s.pos.ab.set (fun _ => 3) c ab
    cnt := s.pos.cnt.set (fun _ => 0) c (wrapS 48 (s.pos.chan c + if s.on POS_CTL_SENSE then -d else d)) }

/-- The travel count takes the vote. -/
def State.voteTaken (s : State) : State :=
  if diff48 s.vote s.pos.t = 0 then s else s.votedMove (diff48 s.vote s.pos.t) (s.tbBefore s.kClk)

theorem State.transition_of_step {c ab : Nat} {d : Int} (hc : s.chanOn c = true) (hq : quadStep (s.pos.pins c) ab = some d) :
    s.transition c ab = (s.stepped c ab d).voteTaken.voteFlags := by
  simp only [State.transition, hc, hq, Bool.not_true, Bool.false_eq_true, if_false]
  rfl

/-! ### What a voted edge moves (R208, R211, R219) -/

/-- The travel count, the high-water mark, and what an edge must leave beside them. -/
structure Tally where
  ab : SMap Nat
  cnt : SMap Int
  hostIf : HostIf
  heads : SMap Head
  tabs : Tables
  t : Int
  h : Int

/-- The tally of `s`. -/
def State.tally (s : State) : Tally := ⟨s.pos.ab, s.pos.cnt, s.hostIf, s.heads, s.tabs, s.pos.t, s.pos.h⟩

@[simp] theorem State.tally_ite (c : Prop) [Decidable c] (a b : State) :
    (if c then a else b).tally = if c then a.tally else b.tally := apply_ite _ _ _ _

@[simp] theorem State.setReg_tally (s : State) (a : Nat) (v : Word) : (s.setReg a v).tally = s.tally := rfl
@[simp] theorem State.setFld_tally (s : State) (f : Fld) (x : Nat) : (s.setFld f x).tally = s.tally := rfl
@[simp] theorem State.setBit_tally (s : State) (f : Fld) (b : Bool) : (s.setBit f b).tally = s.tally := rfl
@[simp] theorem State.countReg_tally (s : State) (a n : Nat) : (s.countReg a n).tally = s.tally := rfl
@[simp] theorem State.setReg64_tally (s : State) (lo hi v : Nat) : (s.setReg64 lo hi v).tally = s.tally := rfl
@[simp] theorem State.alarm_tally (s : State) (i : Nat) : (s.alarm i).tally = s.tally := rfl
@[simp] theorem State.distrust_tally (s : State) : s.distrust.tally = s.tally := rfl

theorem State.voteFlags_tally (s : State) : s.voteFlags.tally = s.tally := by simp [State.voteFlags]

theorem State.putSpeed_tally (s : State) : s.putSpeed.tally = s.tally := rfl

theorem State.speedEdge_tally (s : State) (te : Word) (rev : Bool) : (s.speedEdge te rev).tally = s.tally := by
  simp only [State.speedEdge, State.putSpeed_tally, State.setReg_tally, State.setBit_tally, State.setFld_tally]
  rfl

theorem State.setPos_zacc_tally (s : State) (z : Int) : (s.setPos { s.pos with zacc := z }).tally = s.tally := rfl

theorem State.indexEvent_tally (s : State) (te : Word) : (s.indexEvent te).tally = s.tally := by
  have hpulse : (s.setPos { s.pos with armed := false, zout := true }).tally = s.tally := rfl
  simp only [State.indexEvent, State.tally_ite, State.setFld_tally, State.setReg_tally, State.setPos_zacc_tally, State.countReg_tally,
    State.setReg64_tally, hpulse, ite_self]

theorem State.indexCheck_tally (s : State) (te : Word) : (s.indexCheck te).tally = s.tally := by
  simp only [State.indexCheck, State.tally_ite, State.indexEvent_tally, ite_self]

/-- The high-water mark stays or comes to the travel count. -/
theorem State.hwmUpdate_tally (s : State) : ∃ h, (h = s.pos.h ∨ h = s.pos.t) ∧ s.hwmUpdate.tally = { s.tally with h := h } := by
  simp only [State.hwmUpdate]
  split
  · exact ⟨_, .inr rfl, rfl⟩
  · split
    · exact ⟨_, .inl rfl, rfl⟩
    · exact ⟨_, .inl rfl, rfl⟩

/-- The high-water mark looks at the travel count as the edge leaves it; what the edge does to the speed and the index is outside the tally. -/
theorem State.votedMove_tally (s : State) (d : Int) (te : Word) : ∃ h, (h = s.pos.h ∨ h = wrapS 48 (s.pos.t + d)) ∧
    (s.votedMove d te).tally = { s.tally with t := wrapS 48 (s.pos.t + d), h := h } := by
  have hmark (w : State) (hw : w.tally = { s.tally with t := wrapS 48 (s.pos.t + d) }) : ∃ h, (h = s.pos.h ∨ h = wrapS 48 (s.pos.t + d)) ∧
      w.hwmUpdate.tally = { s.tally with t := wrapS 48 (s.pos.t + d), h := h } := by
    have ht : w.pos.t = wrapS 48 (s.pos.t + d) := congrArg Tally.t hw
    have hh : w.pos.h = s.pos.h := congrArg Tally.h hw
    have hmarked := w.hwmUpdate_tally
    rwa [hw, ht, hh] at hmarked
  simp only [State.votedMove, State.indexCheck_tally]
  apply hmark
  rw [State.tally_ite, State.speedEdge_tally, State.setBit_tally, State.setReg_tally, ite_self]
  rfl

/-- With counts of 48 bits the travel count comes to stand at the vote, and nothing else but the high-water mark moves. -/
theorem State.voteTaken_tally (h1 : -(2 : Int) ^ 47 ≤ s.pos.t) (h2 : s.pos.t < 2 ^ 47) (h3 : -(2 : Int) ^ 47 ≤ s.vote) (h4 : s.vote < 2 ^ 47) :
    ∃ h, (h = s.pos.h ∨ h = s.vote) ∧ s.voteTaken.tally = { s.tally with t := s.vote, h := h } := by
  unfold State.voteTaken
  split
  · next hm =>
    rw [eq_of_diff48_eq_zero h3 h4 h1 h2 hm]
    exact ⟨_, .inl rfl, rfl⟩
  · have hmove := s.votedMove_tally (diff48 s.vote s.pos.t) (s.tbBefore s.kClk)
    rwa [wrapS_add_diff48 h3 h4] at hmove

/-- Settles O29: what is not shown long enough or not counted only shows, and a legal step moves the counter, which the travel count follows
by the vote. -/
theorem encoderCountsMove : Obligations.EncoderCountsMove := by
  refine ⟨?few, ?enough, fun c ab u hc => State.transition_of_not_counted hc ab, ?step⟩
  case few =>
    rintro t c a b n s _ v rfl hv hn
    rw [exec_encoderTransition, show (s.advance t).pinsShown c (abOf a b) = v from hv, if_pos hn]
  case enough =>
    rintro t c a b n s _ u _ _ rfl hu hn rfl rfl
    have hrun : exec (.encoderTransition t c a ⟨b, n⟩) s = .next (u.encoder c (abOf a b)) := by
      rw [exec_encoderTransition, show (s.advance t).pinsShown c (abOf a b) = u from hu, if_neg (Nat.not_lt.2 hn)]
    exact ⟨fun hm => by rw [hrun, State.encoder_of_still hm], fun hm => by rw [hrun, State.encoder_of_edge hm]⟩
  case step =>
    rintro c ab u _ _ d hc hq rfl h1 h2 h3 h4 rfl
    obtain ⟨h, hh, hv⟩ := State.voteTaken_tally (s := u.stepped c ab d) h1 h2 h3 h4
    rw [← State.voteFlags_tally, ← State.transition_of_step hc hq] at hv
    have hmark : (u.transition c ab).pos.h = h := congrArg Tally.h hv
    exact ⟨congrArg Tally.ab hv, congrArg Tally.cnt hv, congrArg Tally.t hv, hmark ▸ hh, congrArg Tally.hostIf hv, congrArg Tally.heads hv,
      congrArg Tally.tabs hv⟩

/-- An illegal step is no edge, and what follows it leaves the record. -/
theorem State.illRecorded_encoder (hs : s.canonical) {c : Fin 3} {ab : Nat} (hc : s.chanOn c = true) (hq : quadStep (s.pos.pins c) ab = none) :
    (s.accepted c ab).IllRecorded c (s.encoder c ab) := by
  have hrecord := State.illRecorded_illegal (s := s.accepted c ab) hs c
  rw [← State.transition_of_illegal hc hq] at hrecord
  have hstill : diff48 (s.transition c ab).pos.t s.pos.t = 0 := by
    rw [hrecord.pos]
    exact diff48_self _
  rw [State.encoder_of_still hstill]
  exact hrecord.of_posView (by rw [State.trigSkip_posView, State.trustAct_posView])

/-- Settles O28: with the filter past, a step in which both levels differ is illegal; its record is all that changes of the position. -/
theorem illegalTransitionsAreCounted : Obligations.IllegalTransitionsAreCounted := by
  rintro t c a b n s _ hs rfl hn hc hp ha hb
  have hcanonical : (s.advance t).canonical := (State.advance_kept s t hs.kept).canonical
  obtain ⟨hpos, hcounted, hbeside, hill, halarm⟩ := State.illRecorded_encoder (s := (s.advance t).pinsShown c (abOf a b)) hcanonical
    hc (quadStep_of_both_change hp ha hb)
  have hlong : ¬n.toNat < ((s.advance t).pinsShown c (abOf a b)).filtN := Nat.not_lt.2 hn
  refine ⟨_, by rw [exec_encoderTransition, if_neg hlong], ?_⟩
  exact ⟨(congrArg Pos.cnt hpos :), (congrArg Pos.t hpos :), (congrArg Pos.h hpos :), (congrArg Pos.zacc hpos :), hcounted, hbeside, hill, halarm⟩

end Sys2Proof.Machine
end

section
/-! PROOF. The other position commands: index, still and speed timers, POS_CTL, RESYNC, snapshots and the repeat output (R204, R206, R209, R213,
R214, R217, R218, R221, R223). -/

namespace Sys2Proof.Machine
open Sys2Proof

variable {s : State}

/-! ### The index (R213, R214) -/

/-- The pin of channel `c` shows Z as `z`; A and B stand. -/
def State.indexShown (s : State) (c : Nat) (z : Bool) : State := s.pinsAt c (4 * b2n z + s.pos.rawOf c % 4)

theorem exec_encoderIndexChange (c : Fin 3) (z : Bool) (n : BitVec 8) (s : State) : exec (.encoderIndexChange c ⟨z, n⟩) s =
    .next (if n.toNat < (s.indexShown c z).filtN then s.indexShown c z else (s.indexShown c z).indexLevel c z) := rfl

theorem State.indexLevel_of_banked (h : s.fld PWR_STAT_STATE = 3) (c : Nat) (z : Bool) : s.indexLevel c z = s := if_pos h

theorem State.indexLevel_of_not_banked (h : s.fld PWR_STAT_STATE ≠ 3) (c : Nat) (z : Bool) :
    s.indexLevel c z = (s.setPos { s.pos with z := s.pos.z.set (fun _ => 1) c (b2n z) }).indexArm := if_neg h

/-! ### Timers of the speed (R217, R218) -/

theorem exec_stillTimeout (t : Nat) (s : State) : exec (.stillTimeout t) s = .next (s.advance t).stillTimeout := rfl

theorem exec_speedDecayUpdate (t : Nat) (s : State) : exec (.speedDecayUpdate t) s = .next (s.advance t).speedDecay := rfl

theorem State.stillTimeout_of_over (ha : s.awake = true) (hs : s.on POS_SPEEDST_STILL = false)
    (ht : 1000 * s.fld POS_STILLTO_TIMEOUT ≤ (s.tb0 - s.reg POS_EDGETB0).toNat) :
    s.stillTimeout = (s.dropList true).startTimer tmStill := by
  simp only [State.stillTimeout, ha, hs, ht, decide_true, Bool.not_false, Bool.and_self, if_true]

theorem State.stillTimeout_of_still (hs : s.on POS_SPEEDST_STILL = true) : s.stillTimeout = s := by
  simp only [State.stillTimeout, hs, Bool.not_true, Bool.and_false, Bool.false_and, Bool.false_eq_true, if_false]

theorem State.speedDecay_of_moving (ha : s.awake = true) (hs : s.on POS_SPEEDST_STILL = false) (hv : s.on POS_SPEEDST_INVALID = false)
    {e : Nat} (he : (s.tb0 - s.reg POS_EDGETB0).toNat = e) : s.speedDecay = if s.spdSum < e * s.spdK
      then s.setReg POS_SPEED (BitVec.ofNat 32 ((16000000000 + e / 2) / e)) else s := by
  simp only [State.speedDecay, ha, hs, hv, he, Bool.not_false, Bool.and_self, Bool.true_and, decide_eq_true_eq]

/-! ### POS_CTL and RESYNC (R204, R209) -/

/-- A refused write of the position block is recorded in POS_ERR (R420). -/
theorem State.refuse_position {a : Nat} (h1 : 0x1a0000 ≤ a) (h2 : a < 0x1b0000) (s : State) (code : Nat) :
    s.refuse code a = s.recordAt POS_ERR code a := by
  have he : blockErr a = some POS_ERR := by
    unfold blockErr
    simp only [show ¬a < 0x10000 by omega, show ¬a < 0x30000 by omega, show ¬a < 0x40000 by omega, show ¬a < 0x80000 by omega,
      show ¬a < 0x190000 by omega, show ¬a < 0x1a0000 by omega, h2, if_true, if_false]
  simp only [State.refuse, he]

theorem exec_posCtlWrite_of_served (hb : s.barOk 6 = true) (v : BitVec 32) : exec (.posCtlWrite v) s = .next (s.posCtlWrite v) :=
  congrArg Host.Outcome.next (State.bar_of_served hb _)

theorem State.posCtlWrite_of_armed (ha : s.armed = true) (v : Word) : s.posCtlWrite v = s.recordAt POS_ERR erARMED POS_CTL := by
  rw [State.posCtlWrite, if_pos ha, State.refuse_position (by decide) (by decide)]

/-- POS_CTL with the value `v` stored, and each channel newly enabled at the vote and at its pins' levels. -/
def State.posCtlStored (s : State) (v : Word) : State :=
  ((List.range 3).filter (fun c => v.getLsbD c && !(s.reg POS_CTL).getLsbD c)).foldl (fun r c => r.setPos { r.pos with
    cnt := r.pos.cnt.set (fun _ => 0) c s.vote, ab := r.pos.ab.set (fun _ => 3) c (r.pos.rawOf c % 4) })
    (s.setReg POS_CTL (posCtlLegal (s.reg POS_CTL) v))

theorem State.posCtlWrite_of_disarmed (ha : s.armed = false) (v : Word) : s.posCtlWrite v =
    (if (s.posCtlStored v).vote = (s.posCtlStored v).pos.t then s.posCtlStored v
      else ((s.posCtlStored v).posJump (s.posCtlStored v).vote).dropList (s.on POS_SPEEDST_STILL)).voteFlags.indexArm :=
  if_neg (by rw [ha]; exact Bool.false_ne_true)

theorem exec_resync_of_served (hb : s.barOk 6 = true) (m : BitVec 3) : exec (.resync m) s = .next (s.resyncAll m.toNat) :=
  congrArg Host.Outcome.next (State.bar_of_served hb _)

/-! ### Snapshots (R221) -/

theorem exec_posSnap_of_served {t : Nat} (hb : (s.advance t).barOk 6 = true) : exec (.posSnap t) s = .next ((s.advance t).posSnap 0) :=
  congrArg Host.Outcome.next (State.bar_of_served hb _)

/-- POS_SNAPHI of a snapshot with source `src`. -/
def State.snapHi (s : State) (src : Nat) : Nat :=
  bitsOf (unsign 48 s.pos.t) 32 16 + 2 ^ 16 * s.fracAt s.tb0 + 2 ^ 24 * s.fld POS_STATE_TRUST + 2 ^ 25 * s.fld POS_STATE_REVERSED +
    2 ^ 26 * b2n (!s.on POS_SPEEDST_STILL && !s.on POS_SPEEDST_INVALID) + 2 ^ 28 * src + 2 ^ 31

theorem State.fracAt_le (s : State) (now : Word) : s.fracAt now ≤ 255 := by
  unfold State.fracAt
  split
  · exact Nat.zero_le _
  · exact Nat.min_le_left _ _

/-- A software snapshot's upper word is source 0 with VALID over 28 bits of position and flags. -/
theorem State.snapHi_software (s : State) : ∃ flags < 2 ^ 12, s.snapHi 0 = bitsOf (unsign 48 s.pos.t) 32 16 + 2 ^ 16 * flags + 2 ^ 31 := by
  have hfrac := s.fracAt_le s.tb0
  have htrust : s.fld POS_STATE_TRUST < 2 ^ 1 := Nat.mod_lt _ (by decide)
  have hreversed : s.fld POS_STATE_REVERSED < 2 ^ 1 := Nat.mod_lt _ (by decide)
  have hok (b : Bool) : b2n b ≤ 1 := by cases b <;> decide
  have hspeed := hok (!s.on POS_SPEEDST_STILL && !s.on POS_SPEEDST_INVALID)
  refine ⟨s.fracAt s.tb0 + 2 ^ 8 * s.fld POS_STATE_TRUST + 2 ^ 9 * s.fld POS_STATE_REVERSED +
    2 ^ 10 * b2n (!s.on POS_SPEEDST_STILL && !s.on POS_SPEEDST_INVALID), by omega, ?_⟩
  unfold State.snapHi
  omega

theorem State.posSnap_eq (s : State) (src : Nat) : s.posSnap src = ((s.setReg POS_SNAPLO (BitVec.ofNat 32 (unsign 48 s.pos.t))).setReg POS_SNAPHI
    (BitVec.ofNat 32 (s.snapHi src))).setReg POS_SNAPTB0 s.tb0 := rfl

theorem State.posSnap_regs (hs : s.canonical) (src : Nat) : (s.posSnap src).reg POS_SNAPTB0 = s.tb0 ∧
    (s.posSnap src).reg POS_SNAPLO = BitVec.ofNat 32 (unsign 48 s.pos.t) ∧ (s.posSnap src).reg POS_SNAPHI = BitVec.ofNat 32 (s.snapHi src) := by
  have hlo := hs.setReg POS_SNAPLO (BitVec.ofNat 32 (unsign 48 s.pos.t))
  have hhi := hlo.setReg POS_SNAPHI (BitVec.ofNat 32 (s.snapHi src))
  rw [State.posSnap_eq]
  refine ⟨State.reg_setReg_same hhi.1 _ _, ?_, ?_⟩
  · rw [State.reg_setReg_ne _ _ (by decide), State.reg_setReg_ne _ _ (by decide), State.reg_setReg_same hs.1]
  · rw [State.reg_setReg_ne _ _ (by decide), State.reg_setReg_same hlo.1]

/-- The fields of POS_SNAPHI after a software snapshot: the travel count, source 0 and VALID. -/
theorem State.snapHi_fields (s : State) : bitsOf (BitVec.ofNat 32 (s.snapHi 0)).toNat 0 16 = bitsOf (unsign 48 s.pos.t) 32 16 ∧
    bitsOf (BitVec.ofNat 32 (s.snapHi 0)).toNat 28 2 = 0 ∧ (BitVec.ofNat 32 (s.snapHi 0)).getLsbD 31 = true := by
  obtain ⟨flags, hflags, heq⟩ := s.snapHi_software
  have hcount : bitsOf (unsign 48 s.pos.t) 32 16 < 2 ^ 16 := Nat.mod_lt _ (by decide)
  have hlt : s.snapHi 0 < 2 ^ 32 := by omega
  rw [BitVec.toNat_ofNat, Nat.mod_eq_of_lt hlt]
  refine ⟨?_, ?_, ?_⟩
  · rw [bitsOf, Nat.shiftRight_zero]
    omega
  · rw [bitsOf, Nat.shiftRight_eq_div_pow]
    omega
  · rw [BitVec.getLsbD_ofNat, Nat.testBit_eq_decide_div_mod_eq]
    simp only [decide_eq_true_eq, Bool.and_eq_true]
    omega

/-! ### The repeat output (R222, R223) -/

section
variable {hearth : Bool}

theorem exec_encoClaim_of_served (hb : s.barOk 6 = true) (hw : hearth = true → s.firmwareOn = true) (claim : Bool) (src : Fin 8) :
    exec (.encoClaim claim src hearth) s = .next (s.encoWrite claim src hearth) :=
  congrArg Host.Outcome.next ((State.byWriter_of_allowed hw _).trans (State.bar_of_served hb _))

theorem State.encoWrite_of_other (h0 : s.fld POS_ENCO_OWNER ≠ 0) (hme : s.fld POS_ENCO_OWNER ≠ if hearth then 2 else 1) (claim : Bool)
    (src : Nat) : s.encoWrite claim src hearth = s.recordAt POS_ERR erOWNED POS_ENCO := by
  rw [State.encoWrite, if_pos ⟨h0, hme⟩, State.refuse_position (by decide) (by decide)]

theorem State.encoWrite_of_own (ho : s.fld POS_ENCO_OWNER = 0 ∨ s.fld POS_ENCO_OWNER = if hearth then 2 else 1) {src : Nat} (hsrc : src < 4)
    (claim : Bool) : s.encoWrite claim src hearth = ((s.setFld POS_ENCO_SRC (if claim then src else 0)).setFld POS_ENCO_CLAIM
      (if claim then 1 else 0)).setFld POS_ENCO_OWNER (if claim then (if hearth then 2 else 1) else 0) := by
  have hmine : ¬(s.fld POS_ENCO_OWNER ≠ 0 ∧ s.fld POS_ENCO_OWNER ≠ if hearth then 2 else 1) := fun h => ho.elim h.1 h.2
  rw [State.encoWrite, if_neg hmine, if_neg (Nat.not_le.2 hsrc)]
  cases claim <;> rfl

end

/-- Settles O32: each command takes the branch that its guards name, and a snapshot's registers read back what it has written. -/
theorem positionCommandsRun : Obligations.PositionCommandsRun := by
  refine ⟨?indexShown, ?indexTaken, ?still, ?stillAgain, ?decay, ?ctlArmed, ?ctl, fun m s hb => exec_resync_of_served hb m, ?snap, ?enco,
    ?encoOwned, ?encoFirmware, ?snapshot⟩
  case indexShown =>
    rintro c z n s v hv h
    rw [exec_encoderIndexChange, show s.indexShown c z = v from hv]
    obtain hn | hbanked := h
    · rw [if_pos hn]
    · rw [State.indexLevel_of_banked hbanked, ite_self]
  case indexTaken =>
    rintro c z n s v _ hv hn hp rfl
    rw [exec_encoderIndexChange, show s.indexShown c z = v from hv, if_neg (Nat.not_lt.2 hn), State.indexLevel_of_not_banked hp]
    rfl
  case still =>
    rintro t s _ rfl ha hs ht
    rw [exec_stillTimeout, State.stillTimeout_of_over ha hs ht]
    rfl
  case stillAgain =>
    rintro t s _ rfl hs
    rw [exec_stillTimeout, State.stillTimeout_of_still hs]
  case decay =>
    rintro t e s _ rfl ha hs hv he
    rw [exec_speedDecayUpdate, State.speedDecay_of_moving ha hs hv he]
  case ctlArmed =>
    intro v s hb ha
    rw [exec_posCtlWrite_of_served hb, State.posCtlWrite_of_armed ha]
  case ctl =>
    intro v s u hb ha hu
    have hwrite := State.posCtlWrite_of_disarmed ha v
    rw [show s.posCtlStored v = u from hu] at hwrite
    exact ⟨fun hv => by rw [exec_posCtlWrite_of_served hb, hwrite, if_pos hv],
      fun hv => by rw [exec_posCtlWrite_of_served hb, hwrite, if_neg hv]⟩
  case snap =>
    rintro t s _ rfl hb
    exact exec_posSnap_of_served hb
  case enco =>
    intro claim src hearth s hb hw ho hsrc
    rw [exec_encoClaim_of_served hb hw, State.encoWrite_of_own ho hsrc]
  case encoOwned =>
    intro claim src hearth s hb hw h0 hme
    rw [exec_encoClaim_of_served hb hw, State.encoWrite_of_other h0 hme]
  case encoFirmware =>
    intro claim src s hf
    exact congrArg Host.Outcome.next (State.byWriter_of_firmware_off hf _)
  case snapshot =>
    rintro t s _ hs rfl hb
    obtain ⟨htb, hlo, hhi⟩ := State.posSnap_regs (State.advance_kept s t hs.kept).canonical 0
    refine ⟨_, exec_posSnap_of_served hb, htb, by rw [hlo, BitVec.toNat_ofNat], ?_⟩
    rw [hhi]
    exact State.snapHi_fields _

end Sys2Proof.Machine
end

section
/-! PROOF. Start-of-scan edges, and the printed passes that they start (R206, R237, R238, R241). -/

namespace Sys2Proof.Machine
open Sys2Proof

variable {s : State}

/-! ### The pins (R206, R237) -/

/-- The accepted level of SOS`n` becomes `lvl`. -/
def State.sosShown (s : State) (n : Nat) (lvl : Bool) : State :=
  s.setFir { s.fir with sos := s.fir.sos - b2n (bitAt s.fir.sos n) * 2 ^ n + b2n lvl * 2 ^ n }

/-- An edge of SOS`n` to `lvl` starts a printed pass: the level is new, it is the active one of FIR_SCANCFG.SOSPOL, and the edge is qualified. -/
def State.sosStarts (s : State) (n : Nat) (lvl : Bool) : Prop :=
  bitAt s.fir.sos n ≠ lvl ∧ lvl ≠ bitAt (s.fld FIR_SCANCFG_SOSPOL) n ∧ s.sosQualified n = true

theorem exec_sosEdge (t : Nat) (n : Fin 2) (lvl : Bool) (k : BitVec 8) (s : State) : exec (.sosEdge t n ⟨lvl, k⟩) s =
    .next (if k.toNat < (s.advance t).filtN then s.advance t else (s.advance t).sosEdge n lvl) := rfl

theorem exec_sosEdge_of_short {t : Nat} {k : BitVec 8} (hk : k.toNat < (s.advance t).filtN) (n : Fin 2) (lvl : Bool) :
    exec (.sosEdge t n ⟨lvl, k⟩) s = .next (s.advance t) := by
  rw [exec_sosEdge, if_pos hk]

theorem exec_sosEdge_of_filtered {t : Nat} {k : BitVec 8} (hk : (s.advance t).filtN ≤ k.toNat) (n : Fin 2) (lvl : Bool) :
    exec (.sosEdge t n ⟨lvl, k⟩) s = .next ((s.advance t).sosEdge n lvl) := by
  rw [exec_sosEdge, if_neg (Nat.not_lt.2 hk)]

theorem State.sosStarts_iff {n : Nat} {lvl : Bool} : s.sosStarts n lvl ↔
    (bitAt s.fir.sos n != lvl && lvl == !bitAt (s.fld FIR_SCANCFG_SOSPOL) n && s.sosQualified n) = true := by
  rw [State.sosStarts, Bool.and_eq_true, Bool.and_eq_true, bne_iff_ne, beq_iff_eq, Bool.eq_not, and_assoc]

theorem State.sosEdge_of_starts {n : Nat} {lvl : Bool} (h : s.sosStarts n lvl) :
    s.sosEdge n lvl = (s.sosShown n lvl).passStart (n == 1) :=
  if_pos (State.sosStarts_iff.1 h)

theorem State.sosEdge_of_not_starts {n : Nat} {lvl : Bool} (h : ¬s.sosStarts n lvl) : s.sosEdge n lvl = s.sosShown n lvl :=
  if_neg (fun hc => h (State.sosStarts_iff.2 hc))

/-! ### The pass (R238, R241) -/

theorem State.passEarly_of_no_pass (h : s.on FIR_STATE_INPASS = false) : s.passEarly = s := by
  rw [State.passEarly, h, if_neg Bool.false_ne_true]

/-- The origin of a pass is the travel count, where the high-water mark starts again with the sign of the pin. -/
def State.passOrigin (s : State) (rev : Bool) : State :=
  (s.setFir { s.fir with passT := s.pos.t }).setPos { s.pos with h := s.pos.t, sgn := if rev then -1 else 1, norev := false }

/-- The registers that a pass start writes. -/
def State.passNoted (s : State) (rev : Bool) : State :=
  (((((s.setReg FIR_SOSTB0 (s.tbBefore s.kClk)).setFld FIR_STATE_INPASS 1).setBit FIR_STATE_PDIR rev).setFld POS_STATE_REVERSED 0).setFld
    FIR_STATE_SUSPR 0).countReg FIR_PASS 1

/-- A pass start ends a pass in progress, takes its origin, and notes the new pass, which ends at once when it has no lines. -/
theorem State.passStart_eq (s : State) (rev : Bool) : s.passStart rev =
    if ((s.passEarly.passOrigin rev).passNoted rev).passOver then ((s.passEarly.passOrigin rev).passNoted rev).endPass
    else (s.passEarly.passOrigin rev).passNoted rev := rfl

/-- The pin of the reverse passes, SOS1, told by its number among the two and by its number. -/
theorem fin_two_beq_one (n : Fin 2) : (n == 1) = (n.val == 1) := by
  revert n
  decide

/-- Settles O23: the filter, then the edge that starts a pass or only shows its level; a pass start is an early end, an origin and a note. -/
theorem scanPassesRun : Obligations.ScanPassesRun := by
  refine ⟨?edge, ?start, fun s h => State.passEarly_of_no_pass h⟩
  case edge =>
    rintro t n lvl k s _ v rfl hv
    have hshown : (s.advance t).sosShown n lvl = v := hv
    refine ⟨fun hk => exec_sosEdge_of_short hk n lvl, fun hk => ?_⟩
    rw [exec_sosEdge_of_filtered hk]
    split
    case isTrue h => rw [State.sosEdge_of_starts h, hshown, fin_two_beq_one]
    case isFalse h => rw [State.sosEdge_of_not_starts h, hshown]
  case start =>
    rintro s _ v w rev rfl hv hw
    have hnoted : (s.passEarly.passOrigin rev).passNoted rev = w := by rw [State.passOrigin, hv, State.passNoted, hw]
    rw [State.passStart_eq, hnoted]

end Sys2Proof.Machine
end

section
/-! PROOF. What a step does to the queue, and the form that every step keeps: registers, configuration space and memories stay canonical. -/

namespace Sys2Proof.Machine
open Sys2Proof

/-- Settles O1: with a command at the front, `step` is that command's branch. -/
theorem stepRunsFrontCommand : Obligations.StepRunsFrontCommand := by
  intro c cs s hp
  rw [step, hp]

/-- Settles O6: what no command takes back includes the queue and the serial number. -/
theorem execLeavesQueueAndSerial : Obligations.ExecLeavesQueueAndSerial := by
  intro c s t h
  obtain ⟨hqueue, hserial, -⟩ := exec_grows h (.refl s.outside)
  exact ⟨hqueue, hserial⟩

variable {base : State}

theorem State.trained_kept (s : State) (h : Nat) (f : TrainFound) (n : Nat) (hw : State.kept base s) : State.kept base (s.trained h f n) := by
  induction n generalizing s with
  | zero => exact hw
  | succ n ih =>
    unfold State.trained
    split
    next tr _ =>
      split
      next a _ => exact ih _ (State.trainReturn_kept _ h tr a.1 a.2 (State.trainBurst_kept s h tr hw))
      next => exact hw
    next => exact hw

/-- What a command does, where its bytes spell its own row, keeps the canonical form. The cases apart are those whose meaning branches on an
optional value, and training, which recurses; in every other one the operations follow one another, and each keeps it. -/
theorem exec_kept_ofRow (c : Instr) {s : State} (hs : State.kept base s) :
    ∃ t, exec c s = ofRow (rowCheck c).1 (rowCheck c).2 t ∧ State.kept base t := by
  have ha : ∀ t, State.kept base (s.advance t) := fun t => State.advance_kept s t hs
  cases c
  all_goals refine ⟨_, rfl, ?_⟩
  case band => exact State.fetched_kept _ _ _ _ hs fun s d hs => by split <;> simp [hs]
  case strip => exact State.fetched_kept _ _ _ _ hs fun s d hs => by split <;> simp [hs]
  case tablePortWaitEnd => split <;> simp [hs]
  case lineScreen => split <;> simp [hs]
  case trainingDone t _ _ _ _ _ _ _ _ _ _ _ _ => exact kept_ite (State.trained_kept _ _ _ _ (ha t)) (ha t)
  case camFfdataAccess => split <;> simp (maxDischargeDepth := 60) +contextual [ha]
  all_goals simp (maxDischargeDepth := 60) +contextual [hs, ha]

theorem exec_kept {c : Instr} {s t : State} (h : exec c s = .next t) (hs : State.kept base s) : State.kept base t := by
  obtain ⟨u, hu, hku⟩ := exec_kept_ofRow c hs
  rw [hu, ofRow] at h
  split at h
  · cases h; exact hku
  · cases h

/-- Settles O4: a tick and every command keep the canonical form, as each of their operations does. -/
theorem everyStepKeepsCanonicalForm : Obligations.EveryStepKeepsCanonicalForm := by
  intro s t hs h
  unfold step at h
  split at h
  case h_1 =>
    cases h
    exact (State.tick_kept s hs.kept).canonical
  case h_2 c cs _ => exact (exec_kept h (State.canonical.kept (s := { s with pending := cs }) hs)).canonical

/-! ### Reset (R372, R417) -/

/-- Settles O3: reset empties every map, and an entry never written is the fill word, whose state is masked. -/
theorem resetIsCanonical : Obligations.ResetIsCanonical := by
  refine ⟨⟨rfl, rfl, rfl, rfl, rfl⟩, rfl, fun a => rfl, by decide, fun n => ?_⟩
  have hfill : State.reset.mapWord n = NEnt.fill.base.out.1 := rfl
  rw [hfill]
  decide

/-! ### Refusals and counts (R7, R420) -/

section
variable {s : State}

theorem State.recordAt_of_valid {e : Nat} (h : (s.reg e).getLsbD 31 = true) (c a : Nat) : s.recordAt e c a = s := if_pos h

theorem State.recordAt_of_not_valid {e : Nat} (h : (s.reg e).getLsbD 31 = false) (c a : Nat) :
    s.recordAt e c a = s.setReg e (BitVec.ofNat 32 (c % 256 + 256 * (a % 2 ^ 22) + 2 ^ 31)) :=
  if_neg (by rw [h]; exact Bool.false_ne_true)

/-- Where a refusal is recorded or not, only its error register may change. -/
theorem State.recordAt_eq_withRegs (s : State) (e c a : Nat) :
    ∃ r, s.recordAt e c a = { s with regs := r } ∧ ∀ b, b ≠ e → SMap.get regReset r b = s.reg b := by
  cases h : (s.reg e).getLsbD 31
  case true => exact ⟨s.regs, State.recordAt_of_valid h c a, fun b _ => rfl⟩
  case false => exact ⟨_, State.recordAt_of_not_valid h c a, fun b hb => State.reg_setReg_ne s _ hb⟩

/-- A first refusal leaves its code, its offset and VALID. -/
theorem State.reg_recordAt_of_first (hs : s.canonical) {e c a : Nat} (h : (s.reg e).getLsbD 31 = false) (hc : c < 256) (ha : a < 2 ^ 22) :
    ((s.recordAt e c a).reg e).toNat = c + 256 * a + 2 ^ 31 := by
  rw [State.recordAt_of_not_valid h, State.reg_setReg_same hs.1, BitVec.toNat_ofNat, Nat.mod_eq_of_lt hc, Nat.mod_eq_of_lt ha]
  exact Nat.mod_eq_of_lt (by omega)

/-- A count leaves every bit outside its field. -/
theorem State.getLsbD_count_beside (hs : s.canonical) {f : Fld} (hf : f.lo + f.width ≤ 32) (n : Nat) {i : Nat}
    (hi : i < f.lo ∨ f.lo + f.width ≤ i) : ((s.count f n).reg f.addr).getLsbD i = (s.reg f.addr).getLsbD i := by
  rw [State.count, State.setFld_def, State.reg_setReg_same hs.1, getLsbD_putBits _ _ _ _ _ hf, if_neg (by omega)]

end

/-- Settles O8: a record writes its own register where VALID is clear, and a count writes its own field. -/
theorem refusalsAndCountsAreKept : Obligations.RefusalsAndCountsAreKept := by
  refine ⟨fun s e c a h => State.recordAt_of_valid h c a, ?first, ?others, ?rest, ?count⟩
  case first =>
    intro s e c a hs h hc ha
    rw [State.reg_recordAt_of_first hs h hc ha]
    simp only [bitsOf, Nat.shiftRight_eq_div_pow]
    omega
  case others =>
    intro s e c a b hb
    obtain ⟨r, hr, hstand⟩ := s.recordAt_eq_withRegs e c a
    rw [hr]
    exact hstand b hb
  case rest =>
    intro s e c a
    obtain ⟨r, hr, -⟩ := s.recordAt_eq_withRegs e c a
    exact ⟨r, hr⟩
  case count =>
    intro s f n hs hpos hf
    exact ⟨State.fld_count_same hs.1 f n hf, fun i hi => State.getLsbD_count_beside hs hf n hi, fun a ha => State.reg_setFld_ne s f _ ha,
      _, rfl⟩

end Sys2Proof.Machine
end

section
/-! PROOF. Time snapshots, the time bases and what Cord schedules of them (R289 to R294, R310). -/

namespace Sys2Proof.Machine
open Sys2Proof

variable {s : State}

/-! ### Snapshots of the time bases (R293) -/

/-- The four bases in TIM_SNAPTB. -/
def State.snapBases (s : State) : State := (List.range 4).foldl (fun u b => u.setReg (TIM_SNAPTB b) (u.tb b)) s

theorem State.snapBases_eq (s : State) : s.snapBases =
    (((s.setReg (TIM_SNAPTB 0) (s.tb 0)).setReg (TIM_SNAPTB 1) (s.tb 1)).setReg (TIM_SNAPTB 2) (s.tb 2)).setReg (TIM_SNAPTB 3) (s.tb 3) := rfl

theorem State.timSnap_eq (s : State) (src : Nat) : s.timSnap src = ((((s.snapBases.setReg TIM_SNAPFRCLO
    (BitVec.ofNat 32 (s.times.frc / 2 ^ 24))).setReg TIM_SNAPFRCHI (BitVec.ofNat 32 (s.times.frc / 2 ^ 24 / 2 ^ 32))).setFld TIM_SNAP_SRC src).setOn
    TIM_SNAP_VALID) := rfl

theorem State.timSnap_times_cord (s : State) (src : Nat) : (s.timSnap src).times = s.times ∧ (s.timSnap src).cord = s.cord := by
  simp [State.timSnap_eq, State.snapBases_eq, State.setOn, State.setFld]

theorem State.posSnap_times_cord (s : State) (src : Nat) : (s.posSnap src).times = s.times ∧ (s.posSnap src).cord = s.cord := by
  simp [State.posSnap_eq]

theorem State.snapBases_canonical (hs : s.canonical) : s.snapBases.canonical :=
  (((hs.setReg _ _).setReg _ _).setReg _ _).setReg _ _

theorem State.reg_snapBases (hs : s.canonical) {b : Nat} (hb : b < 4) : s.snapBases.reg (TIM_SNAPTB b) = s.tb b := by
  have h0 := hs.setReg (TIM_SNAPTB 0) (s.tb 0)
  have h1 := h0.setReg (TIM_SNAPTB 1) (s.tb 1)
  have h2 := h1.setReg (TIM_SNAPTB 2) (s.tb 2)
  rw [State.snapBases_eq]
  match b, hb with
  | 0, _ => simp (disch := decide) only [State.reg_setReg_ne, State.reg_setReg_same hs.1]
  | 1, _ => simp (disch := decide) only [State.reg_setReg_ne, State.reg_setReg_same h0.1]
  | 2, _ => simp (disch := decide) only [State.reg_setReg_ne, State.reg_setReg_same h1.1]
  | 3, _ => exact State.reg_setReg_same h2.1 _ _

/-- The forerunner counter in whole nanoseconds, 64 bits of it, in a pair of registers. -/
theorem reg64_of_words (x : Nat) : (BitVec.ofNat 32 x).toNat + 2 ^ 32 * (BitVec.ofNat 32 (x / 2 ^ 32)).toNat = x % 2 ^ 64 := by
  rw [BitVec.toNat_ofNat, BitVec.toNat_ofNat]
  omega

/-- A register beside the counter's two and the control register reads after a snapshot as the bases left it. -/
theorem State.reg_timSnap_ne (s : State) (src : Nat) {a : Nat} (h1 : a ≠ TIM_SNAP) (h2 : a ≠ TIM_SNAPFRCHI) (h3 : a ≠ TIM_SNAPFRCLO) :
    (s.timSnap src).reg a = s.snapBases.reg a := by
  rw [State.timSnap_eq, State.setOn, State.reg_setFld_ne _ _ _ h1, State.reg_setFld_ne _ _ _ h1, State.reg_setReg_ne _ _ h2,
    State.reg_setReg_ne _ _ h3]

theorem State.timSnap_records (hs : s.canonical) {src : Nat} (hsrc : src < 2) :
    (∀ b, b < 4 → (s.timSnap src).reg (TIM_SNAPTB b) = s.tb b) ∧
    (s.timSnap src).reg64 TIM_SNAPFRCLO TIM_SNAPFRCHI = s.times.frc / 2 ^ 24 % 2 ^ 64 ∧ (s.timSnap src).fld TIM_SNAP_SRC = src := by
  have hbases := State.snapBases_canonical hs
  have hlo := hbases.setReg TIM_SNAPFRCLO (BitVec.ofNat 32 (s.times.frc / 2 ^ 24))
  have hhi := hlo.setReg TIM_SNAPFRCHI (BitVec.ofNat 32 (s.times.frc / 2 ^ 24 / 2 ^ 32))
  have hsrcSet := hhi.setFld TIM_SNAP_SRC src
  refine ⟨fun b hb => ?base, ?counter, ?source⟩
  case base =>
    rw [State.reg_timSnap_ne _ _ (by unfold TIM_SNAPTB TIM_SNAP; omega) (by unfold TIM_SNAPTB TIM_SNAPFRCHI; omega)
      (by unfold TIM_SNAPTB TIM_SNAPFRCLO; omega), State.reg_snapBases hs hb]
  case counter =>
    rw [State.reg64, State.timSnap_eq, State.setOn]
    simp (disch := decide) only [State.reg_setFld_ne, State.reg_setReg_ne, State.reg_setReg_same hlo.1,
      State.reg_setReg_same hbases.1]
    exact reg64_of_words _
  case source =>
    rw [State.timSnap_eq, State.setOn, State.fld_setFld_beside hsrcSet.1 TIM_SNAP_VALID TIM_SNAP_SRC 1 rfl (by decide) (by decide),
      State.fld_setFld_same hhi.1 _ _ (by decide)]
    exact Nat.mod_eq_of_lt hsrc

theorem exec_timSnap_of_served {t : Nat} (hb : (s.advance t).barOk 12 = true) : exec (.timSnap t) s = .next ((s.advance t).timSnap 0) :=
  congrArg Host.Outcome.next (State.bar_of_served hb _)

/-! ### Actions that are due (R310) -/

theorem exec_scheduledActionDue (t : Nat) (s : State) : exec (.scheduledActionDue t) s = .next (s.advance t).schedDue := rfl

/-- What is due leaves the queue. -/
def State.dueTaken (s : State) : State := s.setCord { s.cord with queue := s.cord.queue.filter (fun a => !timeDue a.2 s.tb0) }

theorem State.schedDue_of_snapshot {w : Word} (hm : (0, w) ∈ s.cord.queue) (hd : timeDue w s.tb0 = true)
    (hr : ∀ a ∈ s.cord.queue, timeDue a.2 s.tb0 = true → a.1 ≠ 1) : s.schedDue = (s.dueTaken.posSnap 1).timSnap 1 := by
  have hdue : (0, w) ∈ s.cord.queue.filter (fun a => timeDue a.2 s.tb0) := List.mem_filter.2 ⟨hm, hd⟩
  have hne : (s.cord.queue.filter (fun a => timeDue a.2 s.tb0)).isEmpty = false :=
    List.isEmpty_eq_false_iff.2 (List.ne_nil_of_mem hdue)
  have hsnap : (s.cord.queue.filter (fun a => timeDue a.2 s.tb0)).any (fun a => a.1 == 0) = true :=
    List.any_eq_true.2 ⟨_, hdue, rfl⟩
  have hreset : (s.cord.queue.filter (fun a => timeDue a.2 s.tb0)).any (fun a => a.1 == 1) = false := by
    simpa [List.any_eq_false] using fun a b hab hb => hr (a, b) hab hb
  simp only [State.schedDue, hne, hsnap, hreset, Bool.false_eq_true, if_true, if_false, State.dueTaken]

theorem State.schedDue_of_none_due (h : ∀ a ∈ s.cord.queue, timeDue a.2 s.tb0 = false) : s.schedDue = s := by
  have hnil : s.cord.queue.filter (fun a => timeDue a.2 s.tb0) = [] :=
    List.filter_eq_nil_iff.2 fun a ha => by rw [h a ha]; exact Bool.false_ne_true
  simp only [State.schedDue, hnil, List.isEmpty_nil, List.any_nil, Bool.false_eq_true, if_true, if_false]

/-- A scheduled snapshot's upper word of the position: source 1. -/
theorem State.snapHi_scheduled (s : State) : bitsOf (BitVec.ofNat 32 (s.snapHi 1)).toNat 28 2 = 1 := by
  have hcount : bitsOf (unsign 48 s.pos.t) 32 16 < 2 ^ 16 := Nat.mod_lt _ (by decide)
  have hfrac := s.fracAt_le s.tb0
  have htrust : s.fld POS_STATE_TRUST < 2 ^ 1 := Nat.mod_lt _ (by decide)
  have hreversed : s.fld POS_STATE_REVERSED < 2 ^ 1 := Nat.mod_lt _ (by decide)
  have hok (b : Bool) : b2n b ≤ 1 := by cases b <;> decide
  have hspeed := hok (!s.on POS_SPEEDST_STILL && !s.on POS_SPEEDST_INVALID)
  rw [BitVec.toNat_ofNat, bitsOf, Nat.shiftRight_eq_div_pow]
  unfold State.snapHi
  omega

/-- A snapshot of the time bases leaves the registers of the position. -/
theorem State.reg_timSnap_position (s : State) (src : Nat) {a : Nat} (h : a < 0x1b0000) : (s.timSnap src).reg a = s.reg a := by
  have hbases (b : Nat) : a ≠ TIM_SNAPTB b := by unfold TIM_SNAPTB; omega
  rw [State.reg_timSnap_ne _ _ (by unfold TIM_SNAP; omega) (by unfold TIM_SNAPFRCHI; omega) (by unfold TIM_SNAPFRCLO; omega),
    State.snapBases_eq, State.reg_setReg_ne _ _ (hbases 3), State.reg_setReg_ne _ _ (hbases 2), State.reg_setReg_ne _ _ (hbases 1),
    State.reg_setReg_ne _ _ (hbases 0)]

/-- Settles O36: the snapshot of a write and that of a due action are one operation, whose registers read back what it has written. -/
theorem snapshotsCaptureTimeBases : Obligations.SnapshotsCaptureTimeBases := by
  refine ⟨?software, ?scheduled⟩
  case software =>
    rintro t s _ hs rfl hb
    obtain ⟨hbase, hfrc, hsrc⟩ := State.timSnap_records (State.advance_kept s t hs.kept).canonical (src := 0) (by decide)
    exact ⟨_, exec_timSnap_of_served hb, hbase, hfrc, hsrc, (State.timSnap_times_cord _ _).1⟩
  case scheduled =>
    rintro t s _ hs rfl ⟨w, hw, hd⟩ hr
    have hu : (s.advance t).dueTaken.canonical := (State.advance_kept s t hs.kept).canonical
    obtain ⟨hposTb, hposLo, hposHi⟩ := State.posSnap_regs hu 1
    obtain ⟨hbase, hfrc, hsrc⟩ := State.timSnap_records (State.posSnap_kept _ 1 hu.kept).canonical (src := 1) (by decide)
    obtain ⟨htimes, hcord⟩ := State.timSnap_times_cord ((s.advance t).dueTaken.posSnap 1) 1
    obtain ⟨htimes', hcord'⟩ := State.posSnap_times_cord (s.advance t).dueTaken 1
    have htb (b : Nat) : ((s.advance t).dueTaken.posSnap 1).tb b = (s.advance t).tb b :=
      congrArg (fun x : Times => BitVec.ofNat 32 (x.tb.get (fun _ => 0) b / 2 ^ 24)) htimes'
    refine ⟨_, by rw [exec_scheduledActionDue, State.schedDue_of_snapshot hw hd hr], fun b hb => (hbase b hb).trans (htb b),
      by rw [hfrc, htimes']; rfl, hsrc, htimes.trans htimes', ?_, ?_, ?_, ?_⟩
    · rw [State.reg_timSnap_position _ _ (by decide), hposTb]
      rfl
    · rw [State.reg_timSnap_position _ _ (by decide), hposHi]
      exact State.snapHi_scheduled _
    · rw [State.reg_timSnap_position _ _ (by decide), hposLo, BitVec.toNat_ofNat]
      rfl
    · rw [hcord, hcord']
      rfl

/-! ### The time bases and the forerunner counter (R289, R291, R294) -/

/-- A refusal in a block with an error register is recorded there (R420). -/
theorem State.refuse_of_blockErr {a e : Nat} (h : blockErr a = some e) (s : State) (code : Nat) : s.refuse code a = s.recordAt e code a := by
  rw [State.refuse, h]

theorem exec_timSet_of_served {t : Nat} (hb : (s.advance t).barOk 12 = true) (b : Fin 4) (v : BitVec 32) :
    exec (.timSet t b v) s = .next ((s.advance t).timSet b v) := congrArg Host.Outcome.next (State.bar_of_served hb _)

theorem exec_timAdj_of_served {t : Nat} (hb : (s.advance t).barOk 12 = true) (b : Fin 4) (v : BitVec 32) :
    exec (.timAdj t b v) s = .next ((s.advance t).timAdj b v) := congrArg Host.Outcome.next (State.bar_of_served hb _)

theorem State.timSet_of_armed (ha : s.armed = true) (v : Word) : s.timSet 0 v = s.recordAt TIM_ERR erARMED (TIM_SET 0) := by
  rw [State.timSet, if_pos ⟨rfl, ha⟩, State.refuse_of_blockErr rfl]

theorem State.timSet_of_disciplined (ha : s.armed = false) (hd : s.disciplined = true) (v : Word) :
    s.timSet 0 v = s.recordAt TIM_ERR erDISC (TIM_SET 0) := by
  rw [State.timSet, if_neg (by simp [ha]), if_pos ⟨rfl, hd⟩, State.refuse_of_blockErr rfl]

theorem State.timSet_of_free {b : Nat} (h : b ≠ 0 ∨ (s.armed = false ∧ s.disciplined = false)) (v : Word) : s.timSet b v =
    ({ s with times := { s.times with step := s.times.step.set (fun _ => 0) b (v.toNat + 1) } } : State).setReg (TIM_SET b) v := by
  obtain hne | ⟨ha, hd⟩ := h
  · rw [State.timSet, if_neg fun h => hne h.1, if_neg fun h => hne h.1]
  · rw [State.timSet, if_neg (by simp [ha]), if_neg (by simp [hd])]

theorem State.timAdj_of_disciplined (hd : s.disciplined = true) (v : Word) : s.timAdj 0 v = s.recordAt TIM_ERR erDISC (TIM_ADJ 0) := by
  rw [State.timAdj, if_pos ⟨rfl, hd⟩, State.refuse_of_blockErr rfl]

theorem State.timAdj_of_free {b : Nat} (h : b ≠ 0 ∨ s.disciplined = false) (v : Word) : s.timAdj b v =
    ({ s with times := { s.times with rem := s.times.rem.set (fun _ => 0) b (v.toInt * 2 ^ 24) } } : State).setReg (TIM_ADJ b) v := by
  rw [State.timAdj, if_neg fun hc => h.elim (fun hne => hne hc.1) fun hd => by simp [hd] at hc]

theorem exec_timeBaseSlewEnd (t : Nat) (b : Fin 4) (s : State) : exec (.timeBaseSlewEnd t b) s =
    .next (if (s.advance t).times.rem.get (fun _ => 0) b = 0 then (s.advance t).setReg (TIM_ADJREM b) 0#32 else s.advance t) := rfl

/-- With a step waiting, the next core clock takes it, and time then goes on. -/
theorem State.advance_of_step {t : Nat} (hstep : s.times.step ≠ []) (ht : s.clk < t) (hclk : ((s.goOn (s.clk + 1)).takeSteps).clk = s.clk + 1) :
    s.advance t = if t = s.clk + 1 then (s.goOn (s.clk + 1)).takeSteps else ((s.goOn (s.clk + 1)).takeSteps).goOn t := by
  have hne : s.times.step.isEmpty = false := List.isEmpty_eq_false_iff.2 hstep
  rw [State.advance, if_neg (Nat.not_le.2 ht)]
  simp only [hne, Bool.false_eq_true, if_false, hclk]
  exact if_congr (by omega) rfl rfl

/-- A single step waiting is one step of its base. -/
theorem State.takeSteps_of_one {b : Nat} {v : Word} (h : s.times.step = [(b, v.toNat + 1)]) :
    s.takeSteps = ({ s with times := { s.times with step := [] } } : State).tbPut b (v.toNat * 2 ^ 24) := by
  simp only [State.takeSteps, h, List.foldl_cons, List.foldl_nil, State.tbStep, Nat.add_sub_cancel, BitVec.ofNat_toNat, BitVec.setWidth_eq]

theorem State.tbPut_of_ne_zero {b : Nat} (hb : b ≠ 0) (a : Nat) : s.tbPut b a =
    ({ s with times := { s.times with tb := s.times.tb.set (fun _ => 0) b a } } : State).evtStepped b := if_neg hb

/-- Settles O37: each write takes the branch that its guards name, and a step waits for the next core clock. -/
theorem timeBasesRun : Obligations.TimeBasesRun := by
  refine ⟨?set, ?goesOn, ?takes, ?setArmed, ?disciplined, ?adj, ?counter, ?slewEnd, ?slewing, ?noneDue, fun s b a hb => State.tbPut_of_ne_zero hb a⟩
  case set =>
    rintro t b v s _ rfl hb h
    rw [exec_timSet_of_served hb, State.timSet_of_free (h.imp_left fun hne h0 => hne (Fin.ext h0))]
  case goesOn =>
    rintro t s _ hstep ht rfl hclk
    exact State.advance_of_step hstep ht hclk
  case takes =>
    rintro b v s _ h rfl
    exact State.takeSteps_of_one h
  case setArmed =>
    rintro t v s _ rfl hb ha
    rw [exec_timSet_of_served hb]
    exact congrArg _ (State.timSet_of_armed ha v)
  case disciplined =>
    rintro t v s _ rfl hb ha hd
    rw [exec_timSet_of_served hb, exec_timAdj_of_served hb]
    exact ⟨congrArg _ (State.timSet_of_disciplined ha hd v), congrArg _ (State.timAdj_of_disciplined hd v)⟩
  case adj =>
    rintro t b v s _ rfl hb h
    rw [exec_timAdj_of_served hb, State.timAdj_of_free (h.imp_left fun hne h0 => hne (Fin.ext h0))]
  case counter =>
    rintro t s _ rfl hb
    exact ⟨congrArg Host.Outcome.next (if_pos hb), congrArg Host.Outcome.next (if_pos hb)⟩
  case slewEnd =>
    rintro t b s _ rfl h
    rw [exec_timeBaseSlewEnd, if_pos h]
  case slewing =>
    rintro t b s _ rfl h
    rw [exec_timeBaseSlewEnd, if_neg h]
  case noneDue =>
    rintro t s _ rfl h
    rw [exec_scheduledActionDue, State.schedDue_of_none_due h]

end Sys2Proof.Machine
end

section
/-! PROOF. Event pins: who owns one, its schedule, and its pulses (R295 to R298). -/

namespace Sys2Proof.Machine
open Sys2Proof

variable {s : State} {n : Nat}

theorem blockErr_time {a : Nat} (h1 : 0x1e0000 ≤ a) (h2 : a < 0x1f0000) : blockErr a = some TIM_ERR := by
  unfold blockErr
  simp only [show ¬a < 0x10000 by omega, show ¬a < 0x30000 by omega, show ¬a < 0x40000 by omega, show ¬a < 0x80000 by omega,
    show ¬a < 0x190000 by omega, show ¬a < 0x1a0000 by omega, show ¬a < 0x1b0000 by omega, show ¬a < 0x1c0000 by omega,
    show ¬a < 0x1d0000 by omega, show ¬a < 0x1e0000 by omega, h2, if_true, if_false]

theorem State.refuse_eventPin (hn : n < 8) (s : State) (code : Nat) : s.refuse code (TIM_EVTCTL n) = s.recordAt TIM_ERR code (TIM_EVTCTL n) :=
  State.refuse_of_blockErr (blockErr_time (by unfold TIM_EVTCTL; omega) (by unfold TIM_EVTCTL; omega)) s code

/-! ### Owners (R295, R296) -/

theorem exec_evtOwnerWrite_of_served {hearth : Bool} (hb : s.barOk 12 = true) (hw : hearth = true → s.firmwareOn = true) (n o : Fin 8) :
    exec (.evtOwnerWrite n o hearth) s = .next (s.evtOwnerWrite n o hearth) :=
  congrArg Host.Outcome.next ((State.byWriter_of_allowed hw _).trans (State.bar_of_served hb _))

theorem State.evtOwn_of_taken {o : Nat} (ho : o ≠ evFREE) (n : Nat) : s.evtOwn n o = (s.setFld (TIM_EVTCTL_OWNER n) o).evtShow n := by
  rw [State.evtOwn, if_neg ho]

theorem State.evtOwnerWrite_of_free {o : Nat} (hf : s.fld (TIM_EVTCTL_OWNER n) = evFREE) (h1 : 1 ≤ o) (h2 : o < 3) :
    s.evtOwnerWrite n o false = (s.setFld (TIM_EVTCTL_OWNER n) o).evtShow n := by
  have ho : o ≠ evFREE := Nat.ne_of_gt h1
  simp only [State.evtOwnerWrite, Bool.false_eq_true, if_false, Nat.not_le.2 h2, ho, hf, if_true, State.evtOwn_of_taken ho]

theorem State.evtOwnerWrite_of_firmware (hf : s.fld (TIM_EVTCTL_OWNER n) = evFREE) :
    s.evtOwnerWrite n evHEARTH true = (s.setFld (TIM_EVTCTL_OWNER n) evHEARTH).evtShow n := by
  rw [State.evtOwnerWrite, if_pos rfl, if_pos ⟨rfl, hf⟩, State.evtOwn_of_taken (by decide)]

theorem State.evtOwnerWrite_of_release (ht : s.fld (TIM_EVTCTL_OWNER n) = evTIME) :
    s.evtOwnerWrite n evFREE false = ((s.setEvt n Evt.reset).setFld (TIM_EVTCTL_OWNER n) evFREE).evtShow n := by
  simp only [State.evtOwnerWrite, ht, State.evtOwn]
  rfl

theorem State.evtOwnerWrite_of_other {o : Nat} (hn : n < 8) (hother : 3 ≤ s.fld (TIM_EVTCTL_OWNER n)) (ho : o < 3) :
    s.evtOwnerWrite n o false = s.recordAt TIM_ERR erOWNED (TIM_EVTCTL n) := by
  have hne : ¬(o = s.fld (TIM_EVTCTL_OWNER n)) := by omega
  have hfree : ¬(s.fld (TIM_EVTCTL_OWNER n) = evFREE) := fun h => by rw [h] at hother; exact absurd hother (by decide)
  simp only [State.evtOwnerWrite, Bool.false_eq_true, if_false, Nat.not_le.2 ho, hne, hother, if_true, hfree, State.refuse_eventPin hn, ite_self]

/-! ### Schedules (R297, R298) -/

theorem exec_evtGo_of_served {t : Nat} (hb : (s.advance t).barOk 12 = true) (n : Fin 8) :
    exec (.evtGo t n) s = .next ((s.advance t).evtStart n) := congrArg Host.Outcome.next (State.bar_of_served hb _)

theorem State.evtStart_of_bad (hn : n < 8) (ho : s.fld (TIM_EVTCTL_OWNER n) = evTIME) (h : s.fld (TIM_EVTWIDTH_WIDTH n) = 0 ∨
    ((s.reg (TIM_EVTPER n)).toNat ≠ 0 ∧ (s.reg (TIM_EVTPER n)).toNat ≤ 10 * s.fld (TIM_EVTWIDTH_WIDTH n))) :
    s.evtStart n = s.recordAt TIM_ERR erBADTIME (TIM_EVTCTL n) := by
  simp only [State.evtStart, ho, ne_eq, not_true_eq_false, if_false, if_pos h, State.refuse_eventPin hn]

theorem State.evtStart_of_good (ho : s.fld (TIM_EVTCTL_OWNER n) = evTIME) (hw : s.fld (TIM_EVTWIDTH_WIDTH n) ≠ 0)
    (hp : (s.reg (TIM_EVTPER n)).toNat = 0 ∨ 10 * s.fld (TIM_EVTWIDTH_WIDTH n) < (s.reg (TIM_EVTPER n)).toNat) :
    s.evtStart n = (s.setEvt n { s.evt n with
      run := true, start := s.reg (TIM_EVTSTART n), width := s.fld (TIM_EVTWIDTH_WIDTH n)
      per := (s.reg (TIM_EVTPER n)).toNat, cnt := s.fld (TIM_EVTCNT_COUNT n), nextJ := 0, last := false }).evtCatch n := by
  have hgood : ¬(s.fld (TIM_EVTWIDTH_WIDTH n) = 0 ∨
    ((s.reg (TIM_EVTPER n)).toNat ≠ 0 ∧ (s.reg (TIM_EVTPER n)).toNat ≤ 10 * s.fld (TIM_EVTWIDTH_WIDTH n))) := by omega
  simp only [State.evtStart, ho, ne_eq, not_true_eq_false, if_false] at hgood ⊢
  rw [if_neg hgood]

theorem exec_evtStop_of_served (hb : s.barOk 12 = true) (n : Fin 8) : exec (.evtStop n) s = .next (s.evtStopNow n) :=
  congrArg Host.Outcome.next (State.bar_of_served hb _)

theorem State.evtStopNow_of_stopped (hr : (s.evt n).run = false) : s.evtStopNow n = s := by
  simp only [State.evtStopNow, hr, Bool.not_false, if_true]

theorem State.evtStopNow_of_pulsing (hr : (s.evt n).run = true) (he : (s.evt n).ends ≠ []) :
    s.evtStopNow n = s.setEvt n { s.evt n with last := true } := by
  simp only [State.evtStopNow, hr, List.isEmpty_eq_false_iff.2 he, Bool.not_true, Bool.false_eq_true, if_false]

theorem State.evtStopNow_of_quiet (hr : (s.evt n).run = true) (he : (s.evt n).ends = []) :
    s.evtStopNow n = (s.setEvt n { s.evt n with last := true }).evtOver n := by
  simp only [State.evtStopNow, hr, he, List.isEmpty_nil, Bool.not_true, Bool.false_eq_true, if_false, if_true]

/-- A schedule that has been stopped reads back: it is no longer the one of reset. -/
theorem State.evt_setEvt_of_last {e : Evt} (h : e.last = true) (s : State) (n : Nat) : (s.setEvt n e).evt n = e :=
  SMap.get_set_of_ne_default (fun he => absurd (he ▸ h) (by decide)) s.evts

@[simp] theorem State.evtShow_evts (s : State) (n : Nat) : (s.evtShow n).evts = s.evts := by simp [State.evtShow, State.setBit, State.setFld]

/-- The end of a schedule leaves the pin's other state; a counted one sets DONE. -/
theorem State.evtOver_run (hl : (s.evt n).last = true) : ((s.evtOver n).evt n).run = false := by
  have hevts : (s.evtOver n).evts = (s.setEvt n { s.evt n with run := false }).evts := by
    simp only [State.evtOver, State.evtShow_evts]
    split <;> simp [State.setOn, State.setFld]
  rw [State.evt, hevts]
  exact congrArg Evt.run (State.evt_setEvt_of_last (e := { s.evt n with run := false }) hl s n)

theorem State.evtShow_on_done (s : State) (n : Nat) : (s.evtShow n).on (TIM_EVTSTAT_DONE n) = s.on (TIM_EVTSTAT_DONE n) := by
  have hne : TIM_EVTSTAT n ≠ TIM_EVTCTL n := by unfold TIM_EVTSTAT TIM_EVTCTL; omega
  rw [State.on, State.evtShow, State.setBit, State.setBit, State.fld_setFld_ne _ _ _ _ hne, State.fld_setFld_ne _ _ _ _ hne]
  rfl

theorem State.on_setOn_same (hs : s.canonical) (f : Fld) (hw : 1 ≤ f.width) (hf : f.lo + f.width ≤ 32) : (s.setOn f).on f = true := by
  have hp : 1 < 2 ^ f.width := Nat.one_lt_two_pow (by omega)
  rw [State.on, State.setOn, State.fld_setFld_same hs.1 _ _ hf, Nat.mod_eq_of_lt hp]
  rfl

theorem State.evtOver_done (hs : s.canonical) (hc : 0 < (s.evt n).cnt) (hp : 0 < (s.evt n).per) : (s.evtOver n).on (TIM_EVTSTAT_DONE n) = true := by
  have hcount : (decide (0 < (s.evt n).cnt) && decide (0 < (s.evt n).per)) = true := by simp [hc, hp]
  simp only [State.evtOver, hcount, if_true, State.evtShow_on_done]
  exact State.on_setOn_same (State.setEvt_kept s n _ hs.kept).canonical _ (by simp) (by simp)

/-! ### Starts and ends of pulses (R297, R298) -/

theorem exec_evtPulseStart (t : Nat) (n : Fin 8) (s : State) : exec (.evtPulseStart t n) s = .next ((s.advance t).evtDue n) := rfl

theorem exec_evtPulseEnd (t : Nat) (n : Fin 8) (s : State) : exec (.evtPulseEnd t n) s = .next ((s.advance t).evtEnd n) := rfl

theorem State.evtDue_of_stopped (hr : (s.evt n).run = false) : s.evtDue n = s := by
  simp only [State.evtDue, hr, Bool.not_false, Bool.true_or, if_true]

/-- The start that falls due is counted. -/
def State.startTaken (s : State) (n : Nat) : State := s.setEvt n { s.evt n with
  nextJ := (s.evt n).nextJ + 1, last := decide ((s.evt n).per = 0) || decide ((s.evt n).cnt = (s.evt n).nextJ + 1) }

theorem State.evtDue_of_due (hr : (s.evt n).run = true) (hl : (s.evt n).last = false)
    (hd : timeDue ((s.evt n).startOf (s.evt n).nextJ) (s.tb (s.fld (TIM_EVTCTL_TB n))) = true) : s.evtDue n =
    if s.awake then (s.startTaken n).evtPulse n (s.evt n).width
    else if (s.evt n).per = 0 ∨ (s.evt n).cnt = (s.evt n).nextJ + 1 then ((s.startTaken n).count (TIM_EVTSTAT_MISSED n) 1).evtOver n
      else (s.startTaken n).count (TIM_EVTSTAT_MISSED n) 1 := by
  simp only [State.evtDue, hr, hl, hd, Bool.not_true, Bool.or_self, Bool.false_eq_true, if_false, Bool.or_eq_true, decide_eq_true_eq,
    State.startTaken]

theorem State.evtEnd_of_stopped (hr : (s.evt n).run = false) : s.evtEnd n =
    (s.setEvt n { s.evt n with ends := (s.evt n).ends.filter (fun x => decide (s.clk < x)) }).evtShow n := by
  simp only [State.evtEnd, hr, Bool.false_and, Bool.false_eq_true, if_false]

/-- Settles O38: a write goes by the pin's owner, a schedule by its registers, and a due start by the power state. -/
theorem eventPinsRun : Obligations.EventPinsRun := by
  refine ⟨?claim, ?firmware, ?release, ?owned, ?goBad, ?go, ?stopPulsing, ?stopQuiet, ?stopAgain, ?start, ?startNone, ?pulseEnd⟩
  case claim =>
    intro n o s hb hf ho
    have hrange : 1 ≤ o.val ∧ o.val < 3 := by obtain rfl | rfl := ho <;> decide
    rw [exec_evtOwnerWrite_of_served hb (fun h => absurd h (by decide)), State.evtOwnerWrite_of_free hf hrange.1 hrange.2]
  case firmware =>
    intro n s hb hw hf
    rw [exec_evtOwnerWrite_of_served hb (fun _ => hw)]
    exact congrArg _ (State.evtOwnerWrite_of_firmware hf)
  case release =>
    intro n s hb ht
    rw [exec_evtOwnerWrite_of_served hb (fun h => absurd h (by decide))]
    exact congrArg _ (State.evtOwnerWrite_of_release ht)
  case owned =>
    intro n o s hb hother ho
    rw [exec_evtOwnerWrite_of_served hb (fun h => absurd h (by decide)), State.evtOwnerWrite_of_other n.isLt hother ho]
  case goBad =>
    rintro t n s _ rfl hb ho h
    rw [exec_evtGo_of_served hb, State.evtStart_of_bad n.isLt ho h]
  case go =>
    rintro t n s _ rfl hb ho hw hp
    rw [exec_evtGo_of_served hb, State.evtStart_of_good ho hw hp]
  case stopPulsing =>
    intro n s hb hr he
    rw [exec_evtStop_of_served hb, State.evtStopNow_of_pulsing hr he]
  case stopQuiet =>
    intro n s hs hb hr he
    have hread : (s.setEvt n { s.evt n with last := true }).evt n = { s.evt n with last := true } := State.evt_setEvt_of_last rfl s n
    refine ⟨_, by rw [exec_evtStop_of_served hb, State.evtStopNow_of_quiet hr he], State.evtOver_run (by rw [hread]), fun hc hp => ?_⟩
    exact State.evtOver_done (State.setEvt_kept s n _ hs.kept).canonical (by rw [hread]; exact hc) (by rw [hread]; exact hp)
  case stopAgain =>
    intro n s hb hr
    rw [exec_evtStop_of_served hb, State.evtStopNow_of_stopped hr]
  case start =>
    rintro t n s _ _ rfl hr hl hd rfl
    have hv : ((s.advance t).startTaken n).awake = (s.advance t).awake := rfl
    refine ⟨fun ha => ?_, fun ha => ?_⟩
    · rw [exec_evtPulseStart, State.evtDue_of_due hr hl hd, if_pos (hv.symm.trans ha)]
      rfl
    · rw [exec_evtPulseStart, State.evtDue_of_due hr hl hd, if_neg (by rw [← hv]; exact ne_true_of_eq_false ha)]
      rfl
  case startNone =>
    rintro t n s _ rfl hr
    rw [exec_evtPulseStart, State.evtDue_of_stopped hr]
  case pulseEnd =>
    rintro t n s _ rfl hr
    rw [exec_evtPulseEnd, State.evtEnd_of_stopped hr]

end Sys2Proof.Machine
end

section
/-! PROOF. The Cord ring: what needs it to work, its topology, and the time that it carries (R299 to R305). -/

namespace Sys2Proof.Machine
open Sys2Proof

variable {s : State}

/-- Settles O39: every frame and every timer of the ring first asks whether the ring works. -/
theorem cordFramesNeedTheRing : Obligations.CordFramesNeedTheRing := by
  refine ⟨?clocked, ?unclocked⟩
  case clocked =>
    rintro t s _ r hops seq a job w map kind q g cs back f16 b1 b2 rfl hoff
    refine ⟨?_, ?_, ?_, ?_, ?_, ?_, ?_, ?_, ?_, ?_, ?_, ?_, ?_⟩
    all_goals refine congrArg Host.Outcome.next ?_
    all_goals simp [State.discover, State.discoverTimer, State.syncTimer, State.sync, State.holdover, State.oreqTimer, State.oreq, State.osnap,
      State.sched, State.trnrep, State.trnrepTimer, State.trnstate, State.trnstateTimer, hoff]
  case unclocked =>
    intro s l r hops seq a job w line f24 g24 id msg map b hoff
    refine ⟨?_, ?_, ?_, ?_, ?_, ?_, ?_⟩
    all_goals refine congrArg Host.Outcome.next ?_
    all_goals simp [State.probe, State.replyIn, State.origin, State.bcast, State.gather, State.releaseFrame, hoff]

/-! ### Links and discovery (R299, R302) -/

theorem State.cordLink_east_down (s : State) : s.cordLink 0 false = (if s.on CRD_STATE_UPE
    then ((s.setBit CRD_STATE_UPE false).countReg CRD_LINKDN 1).alarm alCORD else s.setBit CRD_STATE_UPE false).ringShow false false := by
  simp only [State.cordLink, if_true, Bool.and_false, Bool.not_false, Bool.and_true, Bool.false_eq_true, if_false]

theorem State.cordLink_west_up {u : State} (hu : s.setBit CRD_STATE_UPW true = u) : s.cordLink 1 true =
    (u.setCord { u.cord with discAt := 0, probe := u.cord.probe.drop (fun k => k == 1) }).ringShow (s.fld CRD_STATE_RING == 1) false := by
  subst hu
  simp only [State.cordLink, Nat.one_ne_zero, if_false, if_true, Bool.not_true, Bool.and_false, Bool.false_eq_true, Bool.and_true]

section
variable (hon : s.cordOn = true)
include hon

/-- The chip's own DISCOVER on ring A is back as sent: the travel time of the ring, its nodes, and MEMBER where these are not as expected. -/
theorem State.discover_of_back {left : Nat} (hl : s.cord.disc.get (fun _ => 0) 0 = left) (h0 : left ≠ 0) (hops seq a e : Nat) {v w : State}
    (hv : (s.setFld CRD_TRAV_NS (min 16777215 ((s.clk + 1 - left) * 5 / 2))).setFld CRD_STATE_NODES hops = v)
    (hw : (if hops = s.fld CRD_CTL_EXPECT then v else (v.setFld CRD_STATE_MEMBER 1).alarm alCORD) = w) :
    s.discover ⟨0, hops, seq, a⟩ true false e = (w.setCord { w.cord with disc := w.cord.disc.set (fun _ => 0) 0 0 }).ringShow true false := by
  subst hv hw
  simp only [State.discover, hon, hl, h0, State.setOn, Bool.not_true, Bool.not_false, Bool.false_eq_true, if_false, if_true, and_self,
    show 2 ^ 24 - 1 = 16777215 from rfl]

theorem State.discover_of_none_out {h : Hdr} (hd : s.cord.disc.get (fun _ => 0) h.ring = 0) (e : Nat) : s.discover h true false e = s := by
  simp only [State.discover, hon, hd, Bool.not_true, Bool.false_eq_true, if_false, if_true]

/-- Another chip's DISCOVER is noted and goes on; one with the own address is a conflict. -/
theorem State.discover_of_other (h : Hdr) (x : Bool) (e : Nat) {v : State} (hv : s.setCord { s.cord with found := s.cord.found ||| 2 ^ h.from_ } = v) :
    s.discover h false x e = (if h.from_ = s.addr then (v.setFld CRD_STATE_ADDRCONF 1).alarm alCORD else v).forward h 1 [e] := by
  subst hv
  simp only [State.discover, hon, withBit, State.setOn, Bool.not_true, Bool.false_eq_true, if_false]

end

/-- What the frames that a chip sends are made of, beside the ring's own fields: registers, the time bases and the clock. -/
def State.sendView (s : State) : SMap Word × Times × Nat := (s.regs, s.times, s.clk)

theorem State.fld_of_sendView {u : State} (h : u.sendView = s.sendView) (f : Fld) : u.fld f = s.fld f :=
  congrArg (fun x : SMap Word × Times × Nat => bitsOf (SMap.get regReset x.1 f.addr).toNat f.lo f.width) h

theorem State.tb0_of_sendView {u : State} (h : u.sendView = s.sendView) : u.tb0 = s.tb0 :=
  congrArg (fun x : SMap Word × Times × Nat => BitVec.ofNat 32 (x.2.1.tb.get (fun _ => 0) 0 / 2 ^ 24)) h

/-- With its link up a frame of this chip leaves on its own ring, and uses up a sequence number. -/
theorem State.originate_of_up {r : Nat} (hup : s.exitUp r = true) (kind : Nat) (body : List Nat) :
    (s.originate r kind body).sent = s.sent ++ [⟨r, kind, s.addr :: 1 :: s.cord.txSeq :: body⟩] ∧
    (s.originate r kind body).cord = { s.cord with txSeq := (s.cord.txSeq + 1) % 256 } ∧ (s.originate r kind body).sendView = s.sendView := by
  have hsend : s.originate r kind body = (s.setCord { s.cord with txSeq := (s.cord.txSeq + 1) % 256 }).sendFrame r kind
    (s.addr :: 1 :: s.cord.txSeq :: body) := if_pos hup
  simp [hsend, State.sendView]

theorem State.probeOut_of_first {l : Nat} (hup : s.on (if l = 0 then CRD_STATE_UPE else CRD_STATE_UPW) = true)
    (hp : s.cord.probe.get (fun _ => 0) l = 0) :
    (s.probeOut l).sent = s.sent ++ [⟨2 + l, 2, [s.addr, 1, s.cord.txSeq, s.tb0.toNat]⟩] ∧
    (s.probeOut l).cord = { s.cord with probe := s.cord.probe.set (fun _ => 0) l (s.clk + 1), txSeq := (s.cord.txSeq + 1) % 256 } ∧
    (s.probeOut l).sendView = s.sendView := by
  have hsend : s.probeOut l = (s.sendFrame (2 + l) 2 [s.addr, 1, s.cord.txSeq, s.tb0.toNat]).setCord
      { s.cord with probe := s.cord.probe.set (fun _ => 0) l (s.clk + 1), txSeq := (s.cord.txSeq + 1) % 256 } := by
    simp only [State.probeOut, hup, hp, BEq.rfl, Bool.true_or, Bool.and_self, if_true]
  simp [hsend, State.sendView]

/-- Nothing sent before and no DISCOVER out: both rings get one. -/
theorem State.discoverOut_of_first (hd : s.cord.disc = []) (h0 : s.cord.discAt = 0) (hE : s.on CRD_STATE_UPE = true)
    (hW : s.on CRD_STATE_UPW = true) :
    s.discoverOut.sent = s.sent ++ [⟨0, 1, [s.addr, 1, s.cord.txSeq, s.fld CRD_CTL_EXPECT]⟩,
      ⟨1, 1, [s.addr, 1, (s.cord.txSeq + 1) % 256, s.fld CRD_CTL_EXPECT]⟩] ∧
    s.discoverOut.cord.txSeq = (s.cord.txSeq + 2) % 256 ∧ s.discoverOut.cord.probe = s.cord.probe ∧
    s.discoverOut.cord.found = s.cord.found ||| 2 ^ s.addr ∧ s.discoverOut.sendView = s.sendView := by
  obtain ⟨u, hu⟩ : ∃ u, s.originate 0 1 [s.fld CRD_CTL_EXPECT] = u := ⟨_, rfl⟩
  obtain ⟨v, hv⟩ : ∃ v, u.originate 1 1 [s.fld CRD_CTL_EXPECT] = v := ⟨_, rfl⟩
  obtain ⟨husent, hucord, huview⟩ := hu ▸ State.originate_of_up (s := s) (r := 0) hE 1 [s.fld CRD_CTL_EXPECT]
  have huW : u.exitUp 1 = true := by
    rw [State.exitUp, if_neg (by decide), State.on, State.fld_of_sendView huview]
    exact hW
  obtain ⟨hvsent, hvcord, hvview⟩ := hv ▸ State.originate_of_up huW 1 [s.fld CRD_CTL_EXPECT]
  have huaddr : u.addr = s.addr := State.fld_of_sendView huview _
  have hvaddr : v.addr = s.addr := State.fld_of_sendView (hvview.trans huview) _
  have hout : s.discoverOut = v.setCord { v.cord with
      discAt := s.clk + 1, disc := [(0, s.clk + 1), (1, s.clk + 1)], found := withBit v.cord.found v.addr } := by
    simp only [State.discoverOut, h0, hd, List.isEmpty_nil, bne_self_eq_false, Bool.false_and, Bool.false_eq_true, if_false, if_true, hu, hv]
  rw [hout]
  refine ⟨?_, ?_, ?_, ?_, hvview.trans huview⟩
  · simp [hvsent, husent, huaddr, hucord]
  · simp [hvcord, hucord, Nat.add_assoc]
  · simp [hvcord, hucord]
  · simp [hvcord, hucord, hvaddr, withBit]

theorem State.discoverTimer_of_first (hon : s.cordOn = true) (hE : s.on CRD_STATE_UPE = true) (hW : s.on CRD_STATE_UPW = true)
    (hd : s.cord.disc = []) (h0 : s.cord.discAt = 0) (hp : s.cord.probe = []) :
    s.discoverTimer.sent = s.sent ++ [⟨0, 1, [s.addr, 1, s.cord.txSeq, s.fld CRD_CTL_EXPECT]⟩,
      ⟨1, 1, [s.addr, 1, (s.cord.txSeq + 1) % 256, s.fld CRD_CTL_EXPECT]⟩, ⟨2, 2, [s.addr, 1, (s.cord.txSeq + 2) % 256, s.tb0.toNat]⟩,
      ⟨3, 2, [s.addr, 1, (s.cord.txSeq + 3) % 256, s.tb0.toNat]⟩] ∧
    s.discoverTimer.cord.txSeq = (s.cord.txSeq + 4) % 256 ∧ s.discoverTimer.cord.found = s.cord.found ||| 2 ^ s.addr := by
  obtain ⟨u, hu⟩ : ∃ u, s.discoverOut = u := ⟨_, rfl⟩
  obtain ⟨v, hv⟩ : ∃ v, u.probeOut 0 = v := ⟨_, rfl⟩
  obtain ⟨husent, huseq, huprobe, hufound, huview⟩ := hu ▸ State.discoverOut_of_first hd h0 hE hW
  obtain ⟨hvsent, hvcord, hvview⟩ := hv ▸ State.probeOut_of_first (s := u) (l := 0) (by rw [State.on, State.fld_of_sendView huview]; exact hE)
    (by rw [huprobe, hp]; rfl)
  have hvs := hvview.trans huview
  obtain ⟨hwsent, hwcord, -⟩ := State.probeOut_of_first (s := v) (l := 1) (by rw [State.on, State.fld_of_sendView hvs]; exact hW)
    (by rw [hvcord]; simp [huprobe, hp, SMap.set, SMap.get])
  have hrun : s.discoverTimer = v.probeOut 1 := by simp [State.discoverTimer, hon, hE, hu, hv]
  have huaddr : u.addr = s.addr := State.fld_of_sendView huview _
  have hvaddr : v.addr = s.addr := State.fld_of_sendView hvs _
  rw [hrun, hwsent, hwcord, hvsent, hvcord, husent]
  simp [huseq, hufound, huaddr, hvaddr, State.tb0_of_sendView huview, State.tb0_of_sendView hvs, Nat.add_assoc]

/-! ### Hop delays and the enable (R303, R309, R315) -/

theorem State.probe_of_on (hon : s.cordOn = true) (l : Nat) {u : State} (hu : ({ s with freeCtr := s.freeCtr + 1 } : State).sendFrame (2 + l) 3
    [s.addr, 1, s.cord.txSeq, (Config.freeWord s.freeCtr).toNat % 2 ^ 16] = u) :
    s.probe l = u.setCord { u.cord with txSeq := (s.cord.txSeq + 1) % 256 } := by
  subst hu
  exact if_pos hon

theorem State.replyIn_of_on (hon : s.cordOn = true) (l rtt turn : Nat) {ds : List Nat}
    (hds : (((rtt - turn) / 2) :: s.cord.hops.get (fun _ => []) l).take 16 = ds) : s.replyIn l rtt turn =
    (s.setCord { s.cord with hops := s.cord.hops.set (fun _ => []) l ds }).setFld (if l = 0 then CRD_HOPE_DELAY else CRD_HOPW_DELAY)
      (min 65535 (avg ds)) := by
  subst hds
  simp only [State.replyIn, hon, Bool.not_true, Bool.false_eq_true, if_false]

theorem State.cordCtl_of_armed (ha : s.armed = true) (v : Word) : s.cordCtl v = s.recordAt CRD_ERR erARMED CRD_CTL := by
  rw [State.cordCtl, if_pos ha, State.refuse_of_blockErr rfl]

section
variable (ha : s.armed = false) {v : Word} {u : State} (hu : s.setReg CRD_CTL (v &&& 0x007F3F1F#32) = u)
include ha hu

theorem State.cordCtl_of_clear (hv : v.getLsbD 0 = false) : s.cordCtl v = u.cordClear := by
  have hbit : bitAt v.toNat 0 = false := hv
  simp only [State.cordCtl, ha, hu, hbit, Bool.false_eq_true, if_false, Bool.not_false, if_true]

theorem State.cordCtl_of_set (hv : v.getLsbD 0 = true) (hen : s.on CRD_CTL_EN = false) :
    s.cordCtl v = (u.setCord { u.cord with found := 2 ^ u.addr, syncAt := u.clk }).ringShow false false := by
  have hbit : bitAt v.toNat 0 = true := hv
  simp only [State.cordCtl, ha, hu, hbit, hen, Bool.false_eq_true, if_false, Bool.not_true]

end

@[simp] theorem State.ringShow_cord (s : State) (b x : Bool) : (s.ringShow b x).cord = s.cord := by
  simp [State.ringShow, apply_ite State.cord, State.setFld]

@[simp] theorem State.brxShow_cord (s : State) : s.brxShow.cord = s.cord := by
  simp [State.brxShow, State.setFld, State.setBit, List.range_succ]

/-- Clearing EN leaves what is in flight (R311). -/
theorem State.cordClear_in_flight (s : State) : s.cordClear.cord.sentAt = s.cord.sentAt ∧ s.cordClear.cord.sentSeq = s.cord.sentSeq ∧
    s.cordClear.cord.schedAt = s.cord.schedAt ∧ s.cordClear.cord.schedSeq = s.cord.schedSeq := by
  simp [State.cordClear]

/-- Settles O40: each link, frame and timer takes the branch that its guards name; the chip's own frames count up its sequence number. -/
theorem cordTopologyRuns : Obligations.CordTopologyRuns := by
  refine ⟨fun s => congrArg Host.Outcome.next s.cordLink_east_down, fun s u hu => congrArg Host.Outcome.next (State.cordLink_west_up hu), ?back, ?noneOut, ?other, ?timer,
    fun l s u hon hu => congrArg Host.Outcome.next (State.probe_of_on hon l hu), ?reply, fun s hon => congrArg Host.Outcome.next (if_pos hon), ?ctlArmed, ?ctl⟩
  case back =>
    rintro t left hops seq a e s _ v w rfl hon hl h0 hv hw
    have hback := State.discover_of_back hon hl h0 hops seq.toNat a e.toNat hv hw
    exact congrArg Host.Outcome.next hback
  case noneOut =>
    rintro t r hops seq a e s _ rfl hon hd
    exact congrArg Host.Outcome.next (State.discover_of_none_out hon hd _)
  case other =>
    rintro t r hops seq x a e s _ v rfl hon hv
    exact congrArg Host.Outcome.next (State.discover_of_other hon ⟨r, hops, seq.toNat, a⟩ x _ hv)
  case timer =>
    rintro t q s _ rfl hon hE hW hd h0 hp rfl hq
    obtain ⟨hsent, hseq, hfound⟩ := State.discoverTimer_of_first hon hE hW hd h0 hp
    refine ⟨_, rfl, hsent.trans ?_, hseq.trans (Nat.mod_eq_of_lt (by omega)), hfound⟩
    rw [Nat.mod_eq_of_lt (show _ + 1 < 256 by omega), Nat.mod_eq_of_lt (show _ + 2 < 256 by omega), Nat.mod_eq_of_lt (show _ + 3 < 256 by omega)]
  case reply =>
    intro l rtt turn s ds hon hds
    have hlink : (if l = 0 then CRD_HOPE_DELAY else CRD_HOPW_DELAY) = if l.val = 0 then CRD_HOPE_DELAY else CRD_HOPW_DELAY :=
      if_congr Fin.ext_iff rfl rfl
    rw [hlink]
    exact congrArg Host.Outcome.next (State.replyIn_of_on hon l _ _ hds)
  case ctlArmed =>
    intro v s hb ha
    exact congrArg Host.Outcome.next ((State.bar_of_served hb _).trans (State.cordCtl_of_armed ha v))
  case ctl =>
    intro v s u hb ha hu
    refine ⟨fun hv => ⟨congrArg Host.Outcome.next ((State.bar_of_served hb _).trans (State.cordCtl_of_clear ha hu hv)), ?_⟩,
      fun hv hen => congrArg Host.Outcome.next ((State.bar_of_served hb _).trans (State.cordCtl_of_set ha hu hv hen))⟩
    subst hu
    exact State.cordClear_in_flight _

end Sys2Proof.Machine
end

section
/-! PROOF. Time over the Cord ring: SYNC, its discipline and holdover, and the agreement of the line origin (R301, R304 to R306). -/

namespace Sys2Proof.Machine
open Sys2Proof

variable {s : State}

/-! ### SYNC and holdover (R304, R305) -/

section
variable (hon : s.cordOn = true)
include hon

theorem State.syncTimer_of_due (hm : s.on CRD_CTL_TMASTER = true)
    (hd : s.cord.syncTx = 0 ∨ s.cord.syncTx + s.fld CRD_SYNC_PER * 4000 ≤ s.clk + 1) {v : State}
    (hv : (s.originate 0 0x10 [s.tb0.toNat, bitsOf (s.tbAcc 0) 8 16]).originate 1 0x10 [s.tb0.toNat, bitsOf (s.tbAcc 0) 8 16] = v) :
    s.syncTimer = v.setCord { v.cord with syncTx := s.clk + 1 } := by
  have hdue : (s.cord.syncTx == 0 || decide (s.cord.syncTx + s.syncClk 1 ≤ s.clk + 1)) = true := by
    simpa [State.syncClk, usClk] using hd
  simp only [State.syncTimer, hon, hm, hdue, hv, Bool.and_self, if_true]

/-- The time of a SYNC as it goes on, in 2^-16 ns: moved on by the hop and by a free time in the chip (log entry 5). -/
theorem State.sync_of_taken {h : Hdr} (ha : h.from_ ≠ s.addr) {time frac x : Nat} {v w : State}
    (hx : time * 2 ^ 16 + frac + s.hopIn h.ring * 2 ^ 12 + (Config.freeWord s.freeCtr).toNat % 2 ^ 24 = x)
    (hv : ({ s with freeCtr := s.freeCtr + 1 } : State).forward h 0x10 [x / 2 ^ 16 % 2 ^ 32, x % 2 ^ 16] = v)
    (hm : v.tmNow = none ∨ v.tmNow = some h.from_) (hnear : (v.cord.near.get (fun _ => (0, 0)) (1 - h.ring)).2 = 0)
    (hw : v.setCord { v.cord with
      tmFrom := some h.from_, tmAt := v.clk, near := v.cord.near.set (fun _ => (0, 0)) h.ring (h.hops, v.clk + 1) } = w) :
    s.sync h time frac = w.discipline (s.syncOffset h.ring time frac) := by
  have hfollow : v.followLow CRD_STATE_TMCONF v.tmNow h.from_ = (v, h.from_) := by
    obtain hnone | hsame := hm
    · rw [hnone]
      rfl
    · rw [hsame]
      exact if_pos rfl
  subst hx
  have hv' : s.draw.2.forward h 0x10 [(time * 2 ^ 16 + frac + s.hopIn h.ring * 2 ^ 12 + s.draw.1.toNat % 2 ^ 24) / 2 ^ 16 % 2 ^ 32,
    (time * 2 ^ 16 + frac + s.hopIn h.ring * 2 ^ 12 + s.draw.1.toNat % 2 ^ 24) % 2 ^ 16] = v := hv
  have hne : (h.from_ == s.addr) = false := beq_eq_false_iff_ne.2 ha
  simp only [State.sync, hon, hne, hv', hfollow, hnear, hw, Bool.not_true, Bool.or_self, Bool.false_eq_true, if_false, bne_self_eq_false,
    Bool.false_and]

theorem State.holdover_of_silent (hm : s.on CRD_CTL_TMASTER = false)
    (hs : s.cord.syncAt + s.fld CRD_SYNC_TO * s.fld CRD_SYNC_PER * 4000 ≤ s.clk) :
    s.holdover = (((s.setOn CRD_STATE_HOLDOVER).setFld CRD_STATE_LOCK 0).setCord { s.cord with good := 0, tmFrom := none }).alarm alCORD := by
  have hen : s.on CRD_CTL_EN = true := by
    rw [State.cordOn, Bool.and_eq_true] at hon
    exact hon.1
  have hdisc : s.disciplined = true := by simp [State.disciplined, hen, hm]
  have hdue : s.cord.syncAt + s.fld CRD_SYNC_TO * s.fld CRD_SYNC_PER * usClk 10 ≤ s.clk := hs
  simp only [State.holdover, hon, hdisc, hdue, hm, decide_true, Bool.and_self, if_true, Bool.false_eq_true, if_false]

end

theorem State.sync_of_own {h : Hdr} (ha : h.from_ = s.addr) (time frac : Nat) : s.sync h time frac = s := by
  have heq : (h.from_ == s.addr) = true := beq_iff_eq.2 ha
  simp only [State.sync, heq, Bool.or_true, if_true]

/-- An offset that is too small for a step and too large for lock slews TB0 within SLEWMAX. -/
theorem State.discipline_of_slew {off : Int} {u v : State}
    (hu : (s.setReg CRD_OFFSET (BitVec.ofNat 32 (unsign 32 (sat32 (off / 2 ^ 24))))).setFld CRD_STATE_HOLDOVER 0 = u)
    (hstep : off.natAbs < u.fld CRD_SYNC_STEPTH * 1000 * 2 ^ 24) (hper : 0 < u.fld CRD_SYNC_PER)
    (hv : u.setReg CRD_CORR (BitVec.ofNat 32 (unsign 32 (max (-(((u.reg (TIM_INC 0)).toNat * u.fld CRD_SYNC_SLEWMAX / 1000000 : Nat) : Int))
      (min (((u.reg (TIM_INC 0)).toNat * u.fld CRD_SYNC_SLEWMAX / 1000000 : Nat) : Int)
        (Int.tdiv off (16 * (u.fld CRD_SYNC_PER * 4000 : Nat))))))) = v)
    (h20 : 20 * 2 ^ 24 ≤ off.natAbs) (h100 : off.natAbs < 100 * 2 ^ 24) :
    s.discipline off = v.setCord { v.cord with good := 0, syncAt := v.clk } := by
  have hbelow : ¬(u.fld CRD_SYNC_STEPTH * 1000 * 2 ^ 24 ≤ off.natAbs ∧ (!u.armed) = true) := fun h => Nat.not_le.2 hstep h.1
  have hn : ¬(16 * (u.fld CRD_SYNC_PER * 4000 : Nat) : Int) = 0 := by omega
  subst hv
  simp only [State.discipline, hu, hbelow, hn, Nat.not_lt.2 h20, Nat.not_le.2 h100, if_false, Nat.reduceEqDiff]

theorem State.on_setFld_ne {f g : Fld} (x : Nat) (h : g.addr ≠ f.addr) : (s.setFld f x).on g = s.on g := by
  rw [State.on, State.on, State.fld_setFld_ne s f g x h]

theorem State.on_setFld_beside (hs : s.canonical) {f g : Fld} (x : Nat) (ha : g.addr = f.addr)
    (hd : f.lo + f.width ≤ g.lo ∨ g.lo + g.width ≤ f.lo) (hf : f.lo + f.width ≤ 32) : (s.setFld f x).on g = s.on g := by
  rw [State.on, State.on, State.fld_setFld_beside hs.1 f g x ha hd hf]

theorem State.on_setFld_zero (hs : s.canonical) {f : Fld} (hf : f.lo + f.width ≤ 32) : (s.setFld f 0).on f = false := by
  rw [State.on, State.fld_setFld_same hs.1 f 0 hf, Nat.zero_mod]
  rfl

/-- Settles O41: a SYNC and its timers take the branch that their guards name, and holdover's registers read back what it has written. -/
theorem pressTimeRuns : Obligations.PressTimeRuns := by
  refine ⟨?timer, ?own, ?taken, ?slew, ?holdover⟩
  case timer =>
    rintro t s _ v rfl hon hm hd hv
    exact congrArg Host.Outcome.next (State.syncTimer_of_due hon hm hd hv)
  case own =>
    rintro t r hops seq a time frac s _ rfl _ ha
    exact congrArg Host.Outcome.next (State.sync_of_own (h := ⟨r, hops, seq.toNat, a⟩) ha _ _)
  case taken =>
    rintro t x r hops seq a time frac s _ v w rfl hon ha hx hv hm hnear hw
    exact congrArg Host.Outcome.next (State.sync_of_taken (h := ⟨r, hops, seq.toNat, a⟩) hon ha hx hv hm hnear hw)
  case slew =>
    intro s u v off hu hstep hper hv h20 h100
    exact State.discipline_of_slew hu hstep hper hv h20 h100
  case holdover =>
    rintro t s _ rfl hon hm hd
    refine ⟨_, congrArg Host.Outcome.next (State.holdover_of_silent hon hm hd), rfl, ?_, fun hs => ?_⟩
    · simp [State.setOn, State.setFld]
    · have hu := (State.advance_kept s t hs.kept).canonical
      have hset := hu.setFld CRD_STATE_HOLDOVER 1
      have hhold : ((s.advance t).setFld CRD_STATE_HOLDOVER 1).on CRD_STATE_HOLDOVER = true := State.on_setOn_same hu _ (by decide) (by decide)
      exact ⟨(State.on_setFld_beside hset (f := CRD_STATE_LOCK) (g := CRD_STATE_HOLDOVER) 0 rfl (by decide) (by decide)).trans hhold,
        State.on_setFld_zero hset (f := CRD_STATE_LOCK) (by decide)⟩

/-! ### The agreement of the line origin (R306) -/

/-- A chip that is no line master follows the first one heard, and the one it follows already. -/
theorem State.followLow_of_first (s : State) (f : Fld) {old : Option Nat} {a : Nat} (h : old = none ∨ old = some a) :
    s.followLow f old a = (s, a) := by
  obtain rfl | rfl := h
  · rfl
  · exact if_pos rfl

section
variable (hon : s.cordOn = true)
include hon

theorem State.oreqTimer_of_due (hw : s.awaitsOrigin = true) (hd : s.cord.oreqAt = 0 ∨ s.cord.oreqAt + 400000 ≤ s.clk + 1) {v : State}
    (hv : s.originate 0 0x20 [(s.reg CRD_JOBID).toNat] = v) : s.oreqTimer = v.setCord { v.cord with oreqAt := s.clk + 1 } := by
  have hdue : (s.cord.oreqAt == 0 || decide (s.cord.oreqAt + usClk 1000 ≤ s.clk + 1)) = true := by simpa [usClk] using hd
  simp only [State.oreqTimer, hon, hw, hdue, hv, Bool.and_self, if_true]

variable {h : Hdr} (ha : h.from_ ≠ s.addr)
include ha

/-- The line master of the job plans one snapshot, and tells the ring. -/
theorem State.oreq_of_master {v : State} (hv : s.forward h 0x20 [(s.reg CRD_JOBID).toNat] = v) (hm : v.lineMaster = true)
    (hj : v.reg CRD_JOBID = s.reg CRD_JOBID) (hn : v.cord.snap = none) : s.oreq h (s.reg CRD_JOBID) =
    (v.setCord { v.cord with snap := some (v.tb0 + BitVec.ofNat 32 (2 * v.fld CRD_TRAV_NS + 10000)) }).originate 0 0x21
      [(s.reg CRD_JOBID).toNat, (v.tb0 + BitVec.ofNat 32 (2 * v.fld CRD_TRAV_NS + 10000)).toNat, 2 ^ v.addr] := by
  have hne : (h.from_ == s.addr) = false := beq_eq_false_iff_ne.2 ha
  simp only [State.oreq, hon, hne, hv, hm, hj, hn, BEq.rfl, Option.isNone_none, Bool.not_true, Bool.or_self, Bool.false_eq_true, if_false,
    Bool.and_self, if_true]

theorem State.osnap_of_first (hl : s.on CRD_CTL_LMASTER = false) (hf : s.cord.lmFrom = none) {v : State}
    (hv : s.setCord { s.cord with lmFrom := some h.from_ } = v) (job w : Word) (map : Nat) : s.osnap h job w map =
    if v.awaitsOrigin = true ∧ job = v.reg CRD_JOBID ∧ timeDue w v.tb0 = false then
      (v.setCord { v.cord with snap := some w }).forward h 0x21 [job.toNat, w.toNat, map ||| 2 ^ v.addr]
    else v.forward h 0x21 [job.toNat, w.toNat, map] := by
  have hne : (h.from_ == s.addr) = false := beq_eq_false_iff_ne.2 ha
  simp only [State.osnap, hon, hne, hl, hf, State.followLow_of_first s _ (Or.inl rfl), hv, withBit, Bool.not_true, Bool.or_self,
    Bool.false_eq_true, if_false, Bool.and_eq_true, beq_iff_eq, Bool.not_eq_true', and_assoc]

/-- ORIGIN of the line master followed meets a sound capture of the same time. -/
theorem State.origin_of_followed (hl : s.on CRD_CTL_LMASTER = false) (hf : s.cord.lmFrom = some h.from_) {w : Word} {line frac : Nat}
    {valid : Bool} {v : State} {tc : Int} (hv : (s.setCord { s.cord with lmFrom := some h.from_ }).forward h 0x22
      [(s.reg CRD_JOBID).toNat, w.toNat, line, frac, b2n valid] = v)
    (hw : v.awaitsOrigin = true) (hj : v.reg CRD_JOBID = s.reg CRD_JOBID) (hc : v.cord.cap = some (w, tc, true)) :
    s.origin h (s.reg CRD_JOBID) w line frac valid = if valid then v.originTaken w tc ((line * 2 ^ 24 + frac : Nat) : Int)
      else v.setCord { v.cord with cap := none } := by
  have hne : (h.from_ == s.addr) = false := beq_eq_false_iff_ne.2 ha
  simp only [State.origin, hon, hne, hl, hf, State.followLow_of_first s _ (Or.inr rfl), hv, hw, hj, hc, BEq.rfl, Bool.not_true, Bool.or_self,
    Bool.false_eq_true, if_false, Bool.and_self, Bool.and_true, if_true]

end

theorem State.oreq_of_own {h : Hdr} (ha : h.from_ = s.addr) (job : Word) : s.oreq h job = s := by
  have heq : (h.from_ == s.addr) = true := beq_iff_eq.2 ha
  simp only [State.oreq, heq, Bool.or_true, if_true]

theorem State.snapshotDue_of_none (h : s.cord.snap = none) : s.snapshotDue = s := by
  simp only [State.snapshotDue, h]

theorem State.snapshotDue_of_due {w : Word} (h : s.cord.snap = some w) (hd : timeDue w s.tb0 = true) (hm : s.lineMaster = false) :
    s.snapshotDue = s.setCord { s.cord with
      snap := none, cap := some (w, s.interp, s.on POS_STATE_TRUST && !s.on POS_STATE_REVERSED) } := by
  have hcap : (s.capture w).lineMaster = false := hm
  simp only [State.snapshotDue, h, hd, hcap, if_true, Bool.false_eq_true, if_false]
  rfl

/-- Settles O42: each frame of the agreement takes the branch that its guards name. -/
theorem lineAgreementRuns : Obligations.LineAgreementRuns := by
  refine ⟨?timer, ?plan, ?own, ?join, ?capture, ?none, ?origin⟩
  case timer =>
    rintro t s _ v rfl hon hw hd hv
    exact congrArg Host.Outcome.next (State.oreqTimer_of_due hon hw hd hv)
  case plan =>
    rintro t r hops seq a s _ v rfl hon ha hv hm hj hn
    exact congrArg Host.Outcome.next (State.oreq_of_master (h := ⟨r, hops, seq.toNat, a⟩) hon ha hv hm hj hn)
  case own =>
    rintro t r hops seq a job s _ rfl ha
    exact congrArg Host.Outcome.next (State.oreq_of_own (h := ⟨r, hops, seq.toNat, a⟩) ha job)
  case join =>
    rintro t r hops seq a job w map s _ v rfl hon ha hl hf hv
    exact congrArg Host.Outcome.next (State.osnap_of_first (h := ⟨r, hops, seq.toNat, a⟩) hon ha hl hf hv job w map.toNat)
  case capture =>
    rintro t w s _ rfl h hd hm
    exact congrArg Host.Outcome.next (State.snapshotDue_of_due h hd hm)
  case none =>
    rintro t s _ rfl h
    exact congrArg Host.Outcome.next (State.snapshotDue_of_none h)
  case origin =>
    intro r hops seq a w line frac s v valid tc hon ha hl hf hv hw hj hc
    exact congrArg Host.Outcome.next (State.origin_of_followed (h := ⟨r, hops, seq.toNat, a⟩) hon ha hl hf hv hw hj hc)

end Sys2Proof.Machine
end

section
/-! PROOF. Broadcasts and barriers over the Cord ring (R308, R309, R311). -/

namespace Sys2Proof.Machine
open Sys2Proof

variable {s : State}

/-! ### Broadcasts (R308, R311) -/

theorem State.bcast_of_other (hon : s.cordOn = true) {h : Hdr} (ha : h.from_ ≠ s.addr) (msg map : Nat) : s.bcast h msg map =
    if s.cord.inbox.length < 8 then (s.setCord { s.cord with inbox := s.cord.inbox ++ [(h.from_, msg)] }).brxShow.forward h 0x30
      [msg, map ||| 2 ^ s.addr]
    else ((s.setFld CRD_BRXSTAT_OVF 1).alarm alCORD).forward h 0x30 [msg, map] := by
  simp only [State.bcast, hon, ha, withBit, State.setOn, Bool.not_true, Bool.false_eq_true, if_false]

theorem State.bcast_of_own (hon : s.cordOn = true) {h : Hdr} (ha : h.from_ = s.addr) (msg map : Nat) : s.bcast h msg map =
    if s.on CRD_BSEND_BUSY = true ∧ h.seq = s.cord.sentSeq then (s.setReg64 CRD_BACKLO CRD_BACKHI map).setFld CRD_BSEND_BUSY 0 else s := by
  simp only [State.bcast, hon, ha, State.putMap, Bool.not_true, Bool.false_eq_true, if_false, if_true, Bool.and_eq_true, beq_iff_eq]

theorem State.bsend_of_busy (hb : s.on CRD_BSEND_BUSY = true) : s.bsend = s.recordAt CRD_ERR erBUSY CRD_BSEND := by
  rw [State.bsend, if_pos hb, State.refuse_of_blockErr rfl]

/-- The message of CRD_BTX. -/
def State.btxMessage (s : State) : Nat := (List.range 4).foldl (fun m j => m + (s.reg (CRD_BTX j)).toNat * 2 ^ (32 * j)) 0

theorem State.bsend_of_ready (hb : s.on CRD_BSEND_BUSY = false) (hen : s.on CRD_CTL_EN = true) {v : State}
    (hv : s.originate 0 0x30 [s.btxMessage, 0] = v) :
    s.bsend = (v.setFld CRD_BSEND_BUSY 1).setCord { v.cord with sentAt := s.clk, sentSeq := s.cord.txSeq } := by
  subst hv
  simp only [State.bsend, hb, hen, Bool.false_eq_true, if_false, if_true]
  rfl

/-! ### Barriers (R309) -/

/-- ID and WAITING of a barrier that is entered. -/
def State.entered (s : State) (id : Nat) : State := (s.setFld CRD_BARST_ID id).setFld CRD_BARST_WAITING 1

theorem State.enter_of_gather {id : Nat} {g : Gather} (hg : (s.entered id).cord.gather = some g) :
    s.enter id = ((s.entered id).setCord { (s.entered id).cord with gather := none }).forward g.hdr 0x31
      [g.id, g.map ||| 2 ^ (s.entered id).addr, b2n (g.mm || g.id != (s.entered id).fld CRD_BARST_ID)] := by
  have hg' : ((s.setFld CRD_BARST_ID id).setOn CRD_BARST_WAITING).cord.gather = some g := hg
  simp only [State.enter, hg']
  rfl

theorem State.enter_of_none {id : Nat} (hg : (s.entered id).cord.gather = none) (hen : (s.entered id).on CRD_CTL_EN = true) :
    s.enter id = if (s.entered id).initiator then (s.entered id).originate 0 0x31 [id, 2 ^ (s.entered id).addr, 0] else s.entered id := by
  have hg' : ((s.setFld CRD_BARST_ID id).setOn CRD_BARST_WAITING).cord.gather = none := hg
  have hen' : ((s.setFld CRD_BARST_ID id).setOn CRD_BARST_WAITING).on CRD_CTL_EN = true := hen
  simp only [State.enter, hg', hen', Bool.true_and]
  rfl

section
variable (hon : s.cordOn = true)
include hon

theorem State.gather_of_not_entered {g : Gather} (ha : g.hdr.from_ ≠ s.addr) (hw : s.on CRD_BARST_WAITING = false) :
    s.gather g = s.setCord { s.cord with gather := some g } := by
  simp only [State.gather, hon, ha, hw, Bool.not_true, Bool.false_eq_true, if_false]

theorem State.gather_of_entered {g : Gather} (ha : g.hdr.from_ ≠ s.addr) (hw : s.on CRD_BARST_WAITING = true) :
    s.gather g = (s.setCord { s.cord with gather := none }).forward g.hdr 0x31
      [g.id, g.map ||| 2 ^ s.addr, b2n (g.mm || g.id != s.fld CRD_BARST_ID)] := by
  simp only [State.gather, hon, ha, hw, Bool.not_true, Bool.false_eq_true, if_false, if_true]
  rfl

theorem State.gather_of_back {g : Gather} (ha : g.hdr.from_ = s.addr) (hw : s.on CRD_BARST_WAITING = true) :
    s.gather g = (s.barDone g.mm).originate 0 0x32 [g.id, b2n g.mm] := by
  simp only [State.gather, hon, ha, hw, Bool.not_true, Bool.false_eq_true, if_false, if_true]

theorem State.releaseFrame_of_waiting {h : Hdr} (ha : h.from_ ≠ s.addr) {id : Nat} {mm : Bool} {u : State}
    (hu : s.forward h 0x32 [id, b2n mm] = u) (hw : u.on CRD_BARST_WAITING = true) : s.releaseFrame h id mm = u.barDone mm := by
  have hne : (h.from_ == s.addr) = false := beq_eq_false_iff_ne.2 ha
  simp only [State.releaseFrame, hon, hne, hu, hw, Bool.not_true, Bool.or_self, Bool.false_eq_true, if_false, if_true]

end

/-! ### Frames that do not come back (R311) -/

theorem State.frameLost_of_broadcast (hb : s.on CRD_BSEND_BUSY = true) (hd : s.cord.sentAt + 400000 ≤ s.clk) : s.frameLost false =
    (((s.setFld CRD_BSEND_BUSY 0).setFld CRD_BSEND_LOST 1).setReg64 CRD_BACKLO CRD_BACKHI 0).alarm alCORD := by
  have hdue : decide (s.cord.sentAt + usClk 1000 ≤ s.clk) = true := decide_eq_true hd
  simp only [State.frameLost, hb, hdue, Bool.false_eq_true, if_false, Bool.and_self, if_true, State.setOn, State.putMap]

theorem State.frameLost_of_schedule (hb : s.on CRD_SCHEDST_BUSY = true) (hd : s.cord.schedAt + 400000 ≤ s.clk) : s.frameLost true =
    ((((s.setFld CRD_SCHEDST_BUSY 0).setFld CRD_SCHEDST_LOST 1).setFld CRD_SCHEDST_MISSED 1).setReg64 CRD_SCHEDACKLO CRD_SCHEDACKHI 0).alarm
      alCORD := by
  have hdue : decide (s.cord.schedAt + usClk 1000 ≤ s.clk) = true := decide_eq_true hd
  simp only [State.frameLost, hb, hdue, if_true, Bool.and_self, State.setOn, State.putMap]

theorem State.frameLost_of_none (hb : s.on CRD_BSEND_BUSY = false) (hs : s.on CRD_SCHEDST_BUSY = false) (isSched : Bool) :
    s.frameLost isSched = s := by
  cases isSched <;> simp only [State.frameLost, hb, hs, Bool.false_and, Bool.false_eq_true, if_false, if_true]

/-- Settles O43: each message and barrier frame takes the branch that its guards name. -/
theorem broadcastsAndBarriersRun : Obligations.BroadcastsAndBarriersRun := by
  refine ⟨?other, ?own, ?busy, ?send, ?pop, ?enter, ?gather, ?back, ?release, ?lost, ?noneLost⟩
  case other =>
    intro r hops seq a msg map s hon ha
    exact congrArg Host.Outcome.next (State.bcast_of_other (h := ⟨r, hops, seq.toNat, a⟩) hon ha _ _)
  case own =>
    intro r hops seq a msg map s hon ha
    exact congrArg Host.Outcome.next (State.bcast_of_own (h := ⟨r, hops, seq.toNat, a⟩) hon ha _ _)
  case busy =>
    rintro t s _ rfl hb hbusy
    exact congrArg Host.Outcome.next ((State.bar_of_served hb _).trans (State.bsend_of_busy hbusy))
  case send =>
    rintro t s _ v rfl hb hbusy hen hv
    exact congrArg Host.Outcome.next ((State.bar_of_served hb _).trans (State.bsend_of_ready hbusy hen hv))
  case pop =>
    intro s hb
    exact congrArg Host.Outcome.next (State.bar_of_served hb _)
  case enter =>
    rintro id s _ hb rfl
    exact ⟨fun hg hen => congrArg Host.Outcome.next ((State.bar_of_served hb _).trans (State.enter_of_none hg hen)),
      fun g hg => congrArg Host.Outcome.next ((State.bar_of_served hb _).trans (State.enter_of_gather hg))⟩
  case gather =>
    intro r hops seq a id map mm s hon ha
    have hfrom : (Gather.mk ⟨r, hops, seq.toNat, a⟩ id.toNat map.toNat mm).hdr.from_ ≠ s.addr := ha
    exact ⟨fun hw => congrArg Host.Outcome.next (State.gather_of_not_entered hon hfrom hw),
      fun hw => congrArg Host.Outcome.next (State.gather_of_entered hon hfrom hw)⟩
  case back =>
    rintro r hops seq a id map mm s _ hon ha hw rfl
    exact congrArg Host.Outcome.next (State.gather_of_back (g := ⟨⟨r, hops, seq.toNat, a⟩, id.toNat, map.toNat, mm⟩) hon ha hw)
  case release =>
    rintro r hops seq a id mm s u _ hon ha hu hw rfl
    exact congrArg Host.Outcome.next (State.releaseFrame_of_waiting (h := ⟨r, hops, seq.toNat, a⟩) hon ha hu hw)
  case lost =>
    rintro t s _ rfl hb hd
    exact congrArg Host.Outcome.next (State.frameLost_of_broadcast hb hd)
  case noneLost =>
    rintro t s _ rfl hb hs
    exact ⟨congrArg Host.Outcome.next (State.frameLost_of_none hb hs _), congrArg Host.Outcome.next (State.frameLost_of_none hb hs _)⟩
end Sys2Proof.Machine
end

section
/-! PROOF. Scheduled actions (R310) and transport frames (R307) of the Cord ring. -/

namespace Sys2Proof.Machine

open Sys2Proof

variable {s : State}

/-! ### CRD_SCHED_GO (R310) -/

/-- KIND is taken where it is one of the two kinds. -/
def State.schedKind (s : State) (v : Word) : State :=
  if bitsOf v.toNat 0 2 ≤ 1 then s.setFld CRD_SCHED_KIND (bitsOf v.toNat 0 2) else s

theorem State.schedKind_of_reserved {v : Word} (hv : 2 ≤ bitsOf v.toNat 0 2) : s.schedKind v = s := if_neg (by omega)

theorem State.schedKind_of_kind {v : Word} (hv : bitsOf v.toNat 0 2 < 2) :
    s.schedKind v = s.setFld CRD_SCHED_KIND (bitsOf v.toNat 0 2) := if_pos (by omega)

section
variable {v : Word} {w : State} (hw : s.schedKind v = w)
include hw

theorem State.schedGo_eq : s.schedGo v =
    if w.on CRD_SCHEDST_BUSY then w.refuse erBUSY CRD_SCHED
    else if (w.reg CRD_SCHEDT - w.tb0).toInt < (w.fld CRD_TRAV_NS + 10000 : Nat) then w.refuse erSCHEDLATE CRD_SCHED
    else
      let r := w.schedTake (w.fld CRD_SCHED_KIND) (w.reg CRD_SCHEDT)
      let x := if w.on CRD_CTL_EN then r.1.originate 0 0x40 [w.fld CRD_SCHED_KIND, (w.reg CRD_SCHEDT).toNat, if r.2 then 2 ^ w.addr else 0]
        else r.1
      (x.setFld CRD_SCHEDST_BUSY 1).setCord { x.cord with schedAt := s.clk, schedSeq := s.cord.txSeq } := by
  subst hw
  rfl

theorem State.schedGo_of_busy (hb : w.on CRD_SCHEDST_BUSY = true) : s.schedGo v = w.recordAt CRD_ERR erBUSY CRD_SCHED := by
  rw [State.schedGo_eq hw, if_pos hb, State.refuse_of_blockErr rfl]

theorem State.schedGo_of_late (hb : w.on CRD_SCHEDST_BUSY = false)
    (ht : (w.reg CRD_SCHEDT - w.tb0).toInt < (w.fld CRD_TRAV_NS + 10000 : Nat)) :
    s.schedGo v = w.recordAt CRD_ERR erSCHEDLATE CRD_SCHED := by
  rw [State.schedGo_eq hw, if_neg (by rw [hb]; exact Bool.false_ne_true), if_pos ht, State.refuse_of_blockErr rfl]

theorem State.schedGo_of_ahead (hb : w.on CRD_SCHEDST_BUSY = false) (hen : w.on CRD_CTL_EN = true)
    (ht : ((w.fld CRD_TRAV_NS + 10000 : Nat) : Int) ≤ (w.reg CRD_SCHEDT - w.tb0).toInt) {x : State}
    (hx : (w.schedTake (w.fld CRD_SCHED_KIND) (w.reg CRD_SCHEDT)).1.originate 0 0x40 [w.fld CRD_SCHED_KIND, (w.reg CRD_SCHEDT).toNat,
      if (w.schedTake (w.fld CRD_SCHED_KIND) (w.reg CRD_SCHEDT)).2 then 2 ^ w.addr else 0] = x) :
    s.schedGo v = (x.setFld CRD_SCHEDST_BUSY 1).setCord { x.cord with schedAt := s.clk, schedSeq := s.cord.txSeq } := by
  rw [State.schedGo_eq hw, if_neg (by rw [hb]; exact Bool.false_ne_true), if_neg (Int.not_lt.2 ht)]
  simp only [hen, if_true, hx]
end

/-! ### SCHED (R310) -/

theorem State.schedTake_of_room {kind : Nat} {w : Word} (hk : kind ≤ 1) (hr : kind = 1 → s.on CRD_CTL_RSTEN = true)
    (ht : timeDue w s.tb0 = false) (hq : s.cord.queue.length < 4) :
    s.schedTake kind w = (s.setCord { s.cord with queue := s.cord.queue ++ [(kind, w)] }, true) := by
  have hleave : (kind != 1 || s.on CRD_CTL_RSTEN) = true := by
    by_cases h : kind = 1
    · simp [hr h]
    · simp [h]
  simp only [State.schedTake, ht, hq, hk, hleave, Bool.not_false, decide_true, Bool.and_self, if_true]

theorem State.schedTake_of_no_room {kind : Nat} {w : Word}
    (h : 2 ≤ kind ∨ (kind = 1 ∧ s.on CRD_CTL_RSTEN = false) ∨ timeDue w s.tb0 = true ∨ 4 ≤ s.cord.queue.length) :
    s.schedTake kind w = (s, false) := by
  refine if_neg fun hc => ?_
  simp only [Bool.and_eq_true, Bool.not_eq_true', decide_eq_true_eq, Bool.or_eq_true, bne_iff_ne] at hc
  obtain ⟨⟨⟨hahead, hroom⟩, hkind⟩, hleave⟩ := hc
  rcases h with hk | ⟨hone, hno⟩ | hdue | hfull
  · omega
  · rcases hleave with hne | hyes
    · exact hne hone
    · rw [hno] at hyes; exact Bool.false_ne_true hyes
  · rw [hahead] at hdue; exact Bool.false_ne_true hdue
  · omega

section
variable {h : Hdr} {kind map : Nat} {w : Word} (hon : s.cordOn = true)
include hon

theorem State.sched_of_other (ha : h.from_ ≠ s.addr) {v : State} {taken : Bool} (hq : s.schedTake kind w = (v, taken)) :
    s.sched h kind w map = v.forward h 0x40 [kind, w.toNat, if taken then withBit map s.addr else map] := by
  simp only [State.sched, hon, ha, hq, Bool.not_true, Bool.false_eq_true, if_false]

theorem State.sched_of_own (ha : h.from_ = s.addr) (hb : s.on CRD_SCHEDST_BUSY = true) (hs : h.seq = s.cord.schedSeq) :
    s.sched h kind w map = if (List.range 64).any (fun i => bitAt s.cord.found i && !bitAt map i)
      then ((((s.setReg64 CRD_SCHEDACKLO CRD_SCHEDACKHI map).setFld CRD_SCHEDST_BUSY 0).setFld CRD_SCHEDST_DONE 1).setFld
        CRD_SCHEDST_MISSED 1).alarm alCORD
      else ((s.setReg64 CRD_SCHEDACKLO CRD_SCHEDACKHI map).setFld CRD_SCHEDST_BUSY 0).setFld CRD_SCHEDST_DONE 1 := by
  simp only [State.sched, hon, ha, hb, hs, Bool.not_true, Bool.false_eq_true, if_false, beq_self_eq_true, Bool.and_self, if_true]
  rfl
end

theorem State.schedDue_of_reset {w : Word} (hq : s.cord.queue = [(1, w)]) (hd : timeDue w s.tb0 = true) :
    s.schedDue = (s.setCord { s.cord with queue := [] }).resetBy 7 rcSYSTEM := by
  simp only [State.schedDue, hq, hd, List.filter, Bool.not_true, List.isEmpty_cons, List.any, Bool.or_false, beq_self_eq_true, if_true,
    Bool.false_eq_true, if_false]
  rfl

/-- Settles O44: each scheduled action takes the branch that its guards name. -/
theorem scheduledActionsRun : Obligations.ScheduledActionsRun := by
  refine ⟨?busyReserved, ?busy, ?late, ?go, ?taken, ?passed, ?own, ?lost, ?reset⟩
  case busyReserved =>
    rintro t v s _ rfl hb hv hbusy
    exact congrArg Host.Outcome.next ((State.bar_of_served hb _).trans (State.schedGo_of_busy (State.schedKind_of_reserved hv) hbusy))
  case busy =>
    rintro t v s _ w rfl hb hv hw hbusy
    exact congrArg Host.Outcome.next
      ((State.bar_of_served hb _).trans (State.schedGo_of_busy ((State.schedKind_of_kind hv).trans hw) hbusy))
  case late =>
    rintro t v s _ w rfl hb hv hw hbusy ht
    exact congrArg Host.Outcome.next
      ((State.bar_of_served hb _).trans (State.schedGo_of_late ((State.schedKind_of_kind hv).trans hw) hbusy ht))
  case go =>
    rintro t v s u w x rfl hb hv hw hbusy hen ht hx
    have hclk : w.clk = (s.advance t).clk := by rw [← hw]; simp [State.setFld]
    rw [hclk]
    exact congrArg Host.Outcome.next
      ((State.bar_of_served hb _).trans (State.schedGo_of_ahead ((State.schedKind_of_kind hv).trans hw) hbusy hen ht hx))
  case taken =>
    rintro t r hops seq a k w map s _ rfl hon ha hk hr ht hq
    have hroom := State.schedTake_of_room (s := s.advance t) hk (fun h1 => hr (BitVec.eq_of_toNat_eq h1)) ht hq
    exact congrArg Host.Outcome.next (State.sched_of_other (h := ⟨r, hops, seq.toNat, a⟩) hon ha hroom)
  case passed =>
    rintro t r hops seq a k w map s _ rfl hon ha hno
    have hnone : (s.advance t).schedTake k.toNat w = (s.advance t, false) :=
      State.schedTake_of_no_room (hno.imp_right (Or.imp_left (And.imp_left (congrArg BitVec.toNat))))
    exact congrArg Host.Outcome.next (State.sched_of_other (h := ⟨r, hops, seq.toNat, a⟩) hon ha hnone)
  case own =>
    rintro t r hops seq a k w map s _ _ rfl hon ha hb hs rfl
    exact congrArg Host.Outcome.next (State.sched_of_own (h := ⟨r, hops, seq.toNat, a⟩) hon ha hb hs)
  case lost =>
    rintro t s _ rfl hb hd
    exact congrArg Host.Outcome.next (State.frameLost_of_schedule hb hd)
  case reset =>
    rintro t w s _ rfl hq hd
    exact congrArg Host.Outcome.next (State.schedDue_of_reset hq hd)

/-! ### Transport frames (R307) -/

section
variable {h : Hdr} (hon : s.cordOn = true)
include hon

theorem State.trnrep_of_other (ha : h.from_ ≠ s.addr) {job : Word} {armed ready : Bool} {g causes back : Nat} {v : State}
    (hv : s.forward h 0x50 [job.toNat, b2n armed, g, causes, back, b2n ready] = v) :
    s.trnrep h job armed g causes back ready = ((v.setSplice { v.splice with
      reps := v.splice.reps.set (fun _ => Report.none) h.from_ (if armed = true ∧ job = v.reg CRD_JOBID
        then ⟨g, causes, ready, back, v.clk, true, (v.splice.reps.get (fun _ => Report.none) h.from_).asked || causes != 0⟩
        else Report.none) }).remoteCause).trnShow := by
  have hne : (h.from_ == s.addr) = false := beq_eq_false_iff_ne.2 ha
  simp only [State.trnrep, hon, hne, hv, Bool.not_true, Bool.or_self, Bool.false_eq_true, if_false, Bool.and_eq_true, beq_iff_eq]

theorem State.trnrepTimer_of_due (harm : s.armed = true)
    (hd : s.cord.repAt + 40000 ≤ s.clk ∨ repKey s.report ≠ repKey s.cord.repLast) : s.trnrepTimer = s.sendReport := by
  have hdue : (decide (s.cord.repAt + usClk 100 ≤ s.clk) || repKey s.report != repKey s.cord.repLast) = true :=
    Bool.or_eq_true_iff.2 (hd.imp (fun h => decide_eq_true h) bne_iff_ne.2)
  simp only [State.trnrepTimer, hon, harm, hdue, Bool.and_self, Bool.true_or, if_true]

theorem State.trnstate_of_follower (ha : h.from_ ≠ s.addr) {q n : Nat} {v w : State} (hv : s.forward h 0x51 [q, n] = v)
    (hm : v.actMaster = false) (hw : v.setCord { v.cord with silent := false, stateAt := v.clk } = w) :
    s.trnstate h q n = if w.armed = true ∧ q ≤ 6 then (w.follow q).trnShow else w := by
  have hne : (h.from_ == s.addr) = false := beq_eq_false_iff_ne.2 ha
  simp only [State.trnstate, hon, hne, hv, hm, hw, Bool.not_true, Bool.or_self, Bool.false_eq_true, if_false, Bool.and_eq_true,
    decide_eq_true_eq]

theorem State.trnstateTimer_of_due (hm : s.actMaster = true) (hd : s.cord.stateTx + 4000 ≤ s.clk) : s.trnstateTimer = s.sendState := by
  have hdue : decide (s.cord.stateTx + usClk 10 ≤ s.clk) = true := decide_eq_true hd
  simp only [State.trnstateTimer, hon, hm, hdue, Bool.true_or, Bool.and_self, if_true]
end

theorem State.trnrep_of_own {h : Hdr} (ha : h.from_ = s.addr) {job : Word} {armed ready : Bool} {g causes back : Nat} :
    s.trnrep h job armed g causes back ready = s := by
  simp only [State.trnrep, ha, beq_self_eq_true, Bool.or_true, if_true]

theorem State.trnrepTimeout_of_silent {a : Nat} {x : Report} (hx : s.splice.reps.get (fun _ => Report.none) a = x) (harm : x.armed = true)
    (hd : x.at_ + 200000 ≤ s.clk) : s.trnrepTimeout a = (s.setSplice { s.splice with
      reps := s.splice.reps.set (fun _ => Report.none) a { x with ready := false } }).remoteCause := by
  have hdue : decide (x.at_ + usClk 500 ≤ s.clk) = true := decide_eq_true hd
  simp only [State.trnrepTimeout, hx, harm, hdue, Bool.and_self, if_true]

theorem State.trnrepTimeout_of_unarmed {a : Nat} (harm : (s.splice.reps.get (fun _ => Report.none) a).armed = false) :
    s.trnrepTimeout a = s := by
  simp only [State.trnrepTimeout, harm, Bool.false_and, Bool.false_eq_true, if_false]

theorem State.trnstateTimeout_of_silent (harm : s.armed = true) (hm : s.actMaster = false) (hd : s.cord.stateAt + 80000 ≤ s.clk) :
    s.trnstateTimeout = (s.setCord { s.cord with silent := true }).trnShow := by
  have hdue : decide (s.cord.stateAt + usClk 200 ≤ s.clk) = true := decide_eq_true hd
  simp only [State.trnstateTimeout, harm, hm, hdue, Bool.not_false, Bool.and_self, if_true]

theorem State.trnstateTimeout_of_unarmed (harm : s.armed = false) : s.trnstateTimeout = s := by
  simp only [State.trnstateTimeout, harm, Bool.false_and, Bool.false_eq_true, if_false]

/-- Settles O45: each transport frame and timer takes the branch that its guards name. -/
theorem transportFramesRun : Obligations.TransportFramesRun := by
  refine ⟨?report, ?ownReport, ?reportTimer, ?silentChip, ?unarmedChip, ?state, ?stateTimer, ?silentMaster, ?unarmed⟩
  case report =>
    rintro t r hops seq a job armed g cs back rdy s _ v rfl hon ha hv
    exact congrArg Host.Outcome.next (State.trnrep_of_other (h := ⟨r, hops, seq.toNat, a⟩) hon ha hv)
  case ownReport =>
    rintro t r hops seq a job armed g cs back rdy s _ rfl ha
    exact congrArg Host.Outcome.next (State.trnrep_of_own (h := ⟨r, hops, seq.toNat, a⟩) ha)
  case reportTimer =>
    rintro t s _ rfl hon harm hd
    exact congrArg Host.Outcome.next (State.trnrepTimer_of_due hon harm hd)
  case silentChip =>
    rintro t a s _ x rfl hx harm hd
    exact congrArg Host.Outcome.next (State.trnrepTimeout_of_silent hx harm hd)
  case unarmedChip =>
    rintro t a s _ rfl harm
    exact congrArg Host.Outcome.next (State.trnrepTimeout_of_unarmed harm)
  case state =>
    rintro t r hops seq a q n s _ v w rfl hon ha hv hm hw
    exact congrArg Host.Outcome.next (State.trnstate_of_follower (h := ⟨r, hops, seq.toNat, a⟩) hon ha hv hm hw)
  case stateTimer =>
    rintro t s _ rfl hon hm hd
    exact congrArg Host.Outcome.next (State.trnstateTimer_of_due hon hm hd)
  case silentMaster =>
    rintro t s _ rfl harm hm hd
    exact congrArg Host.Outcome.next (State.trnstateTimeout_of_silent harm hm hd)
  case unarmed =>
    rintro t s _ rfl harm
    exact congrArg Host.Outcome.next (State.trnstateTimeout_of_unarmed harm)

end Sys2Proof.Machine
end

section
/-! PROOF. The twin link and its unacknowledged frames (R318, R319, R321, R322). -/

namespace Sys2Proof.Machine

open Sys2Proof

variable {s : State}

/-! ### Which registers the trim channels and the transport outputs write -/

/-- The registers of the settled bits. -/
def settledRegs : List Nat := [TRM_SETTLEDLO, TRM_SETTLEDHI, TRM_SETTLEDAUX]

/-- The registers that a change of trim channel `n` writes. -/
def trimRegs (n : Nat) : List Nat := TRM_OUT n :: settledRegs

theorem State.reg_trimSettle {a n : Nat} (h : a ∉ settledRegs) : (s.trimSettle n).reg a = s.reg a := by
  simp only [settledRegs, List.mem_cons, List.not_mem_nil, or_false, not_or] at h
  obtain ⟨hlo, hhi, haux⟩ := h
  have hset (b : Bool) : (s.setSettled n b).reg a = s.reg a := by
    unfold State.setSettled
    repeat' split
    · exact State.reg_setReg_ne _ _ hlo
    · exact State.reg_setReg_ne _ _ hhi
    · exact State.reg_setReg_ne _ _ haux
  have hmod (t : State) (f : Head → Head) : (t.modHead n f).reg a = t.reg a := rfl
  rw [State.trimSettle]
  simp only [apply_ite (fun t : State => t.reg a), hmod, hset, ite_self]

theorem State.reg_retarget {a n : Nat} (h : a ∉ trimRegs n) : (s.retarget n).reg a = s.reg a := by
  have hout : a ≠ TRM_OUT n := fun he => h (he ▸ List.mem_cons_self)
  have htimer (t : State) (k : Nat) : (t.startTimer k).reg a = t.reg a := rfl
  have halarm (t : State) (k : Nat) : (t.alarm k).reg a = t.reg a := rfl
  have hfld (t : State) (f : Fld) (x : Nat) (hf : f.addr = TRM_OUT n) : (t.setFld f x).reg a = t.reg a :=
    State.reg_setFld_ne _ _ _ (hf ▸ hout)
  rw [State.retarget, State.reg_trimSettle fun hs => h (List.mem_cons_of_mem _ hs)]
  simp only [State.setBit, apply_ite (fun t : State => t.reg a), htimer, halarm, hfld, ite_self]

theorem State.reg_setWant {a n : Nat} (c : Int) (h : a ∉ trimRegs n) : (s.setWant n c).reg a = s.reg a := by
  have htrims (t : State) (x : Trims) : ({ t with trims := x } : State).reg a = t.reg a := rfl
  simp only [State.setWant, apply_ite (fun t : State => t.reg a), State.reg_retarget h, htrims, ite_self]

theorem State.reg_setDriven {a n : Nat} (b : Bool) (h : a ≠ TRM_OUT n) : (s.setDriven n b).reg a = s.reg a :=
  State.reg_setFld_ne _ _ _ h

/-- The registers that the governor, the demand and the transport outputs write. -/
def trnRegs : List Nat := TRN_STATE :: TRN_DEMAND :: trimRegs 64

theorem State.reg_trnShow {a : Nat} (h : a ∉ trnRegs) : s.trnShow.reg a = s.reg a := by
  simp only [trnRegs, List.mem_cons, not_or] at h
  obtain ⟨hst, hd, hw⟩ := h
  have halarm (t : State) (k : Nat) : (t.alarm k).reg a = t.reg a := rfl
  have hfld (t : State) (f : Fld) (x : Nat) (hf : a ≠ f.addr) : (t.setFld f x).reg a = t.reg a := State.reg_setFld_ne _ _ _ hf
  simp only [State.trnShow, State.setBit, apply_ite (fun t : State => t.reg a), halarm, hfld _ TRN_DEMAND_OUT _ hd,
    hfld _ TRN_DEMAND_TARGET _ hd, State.reg_setWant _ hw, hfld _ TRN_STATE_G _ hst, hfld _ TRN_STATE_HOLDIN _ hst, ite_self]

/-! ### The role -/

/-- TWN_STATE holds 0 after reset, so a field of it that takes a value other than 0 is written in every state, canonical or not. -/
theorem State.reg_setTwnState {f : Fld} {x : Nat} (ha : f.addr = TWN_STATE) (hf : f.lo + f.width ≤ 32) (hx : x % 2 ^ f.width ≠ 0) :
    (s.setFld f x).reg TWN_STATE = putBits (s.reg TWN_STATE) f.lo f.width x := by
  have hread : bitsOf (putBits (s.reg TWN_STATE) f.lo f.width x).toNat f.lo f.width = x % 2 ^ f.width := bitsOf_putBits _ _ _ _ hf
  have hne : putBits (s.reg TWN_STATE) f.lo f.width x ≠ regReset TWN_STATE := by
    intro he
    have hreset : regReset TWN_STATE = 0#32 := by decide
    have hzero : bitsOf (0#32).toNat f.lo f.width = 0 := by simp [bitsOf]
    rw [he, hreset, hzero] at hread
    exact hx hread.symm
  rw [State.setFld, ha]
  exact SMap.get_set_of_ne_default hne s.regs

theorem State.role_setRole {q : Nat} (h0 : 0 < q) (h8 : q < 8) : (s.setFld TWN_STATE_ROLE q).role = q := by
  have hq : q % 2 ^ 3 = q := Nat.mod_eq_of_lt h8
  rw [State.role, State.fld, State.reg_setTwnState rfl (by decide) (by rw [hq]; exact h0.ne'), bitsOf_putBits _ _ _ _ (by decide)]
  exact hq

theorem State.role_setLink : (s.setFld TWN_STATE_LINK 1).role = s.role := by
  rw [State.role, State.fld, State.reg_setTwnState rfl (by decide) (by decide), bitsOf_putBits_beside _ _ _ _ _ _ (by decide) (by decide)]
  rfl

theorem State.role_trnShow : s.trnShow.role = s.role :=
  congrArg (fun w : Word => bitsOf w.toNat 0 3) (State.reg_trnShow (by decide))

theorem State.role_standBy : s.standBy.role = roSTANDBY := by
  rw [State.standBy, State.role_trnShow]
  have hdriven (t : State) : (t.setDriven 64 false).role = t.role :=
    congrArg (fun w : Word => bitsOf w.toNat 0 3) (State.reg_setDriven false (by decide))
  have htwin (t : State) (x : Twin) : (t.setTwin x).role = t.role := rfl
  rw [hdriven, htwin, State.role_setRole (by decide) (by decide)]

theorem State.primeStep_of_role (h : s.role ≠ roPRIME) : s.primeStep = s := if_pos (bne_iff_ne.2 h)

theorem State.bothActive_of_own_role (h : s.role ≠ roACTIVE) : s.bothActive = s := if_pos (by simp [h])

theorem State.bothActive_of_partner_role (h : s.fld TWN_STATE_PROLE ≠ roACTIVE) : s.bothActive = s := if_pos (by simp [h])

theorem State.bothActive_of_straps (hr : s.role = roACTIVE) (hp : s.fld TWN_STATE_PROLE = roACTIVE) (hd : s.on TWN_STATE_STRAPDUP = false) :
    s.bothActive = if s.preferred then s else s.standBy := by
  simp only [State.bothActive, hr, hp, hd, bne_self_eq_false, Bool.or_self, Bool.false_eq_true, if_false, Bool.not_eq_true']
  cases s.preferred <;> rfl

theorem State.primeStep_of_active_partner (hr : s.role = roPRIME) (hg : s.partnerGone = false) (hd : s.on TWN_STATE_STRAPDUP = false)
    (hp : s.fld TWN_STATE_PROLE = roACTIVE) : s.primeStep = s.standBy := by
  simp only [State.primeStep, hr, hg, hd, hp, bne_self_eq_false, Bool.false_eq_true, if_false, beq_self_eq_true, if_true]

/-! ### The link (R318) -/

theorem State.readyShow_of_off (h : s.twinOn = false) : s.readyShow = s := if_pos (by rw [h]; rfl)

theorem State.linkTry_of_up (h : s.on TWN_LINKST_UP = true) : s.linkTry = s := if_pos (by simp [h])

theorem State.linkTry_of_lanes_down (h : s.twin.lanesOk = false) : s.linkTry = s := if_pos (by simp [h])

theorem State.linkTry_of_no_hello (hu : s.twin.unbroken = false) (hh : s.twin.helloRx = false) : s.linkTry = s := if_pos (by simp [hu, hh])

theorem State.linkTry_of_ready (hup : s.on TWN_LINKST_UP = false) (hl : s.twin.lanesOk = true)
    (hh : s.twin.unbroken = true ∨ (s.twin.helloTx = true ∧ s.twin.helloRx = true)) (hr : s.role ≠ roINIT) :
    s.linkTry = (s.setFld TWN_LINKST_UP 1).setFld TWN_STATE_LINK 1 := by
  have hhello : (s.twin.unbroken || s.twin.helloTx && s.twin.helloRx) = true := by simpa using hh
  have hrole : ((s.setFld TWN_LINKST_UP 1).setFld TWN_STATE_LINK 1).role = s.role :=
    State.role_setLink.trans (State.fld_setFld_ne _ _ _ _ (by decide))
  simp only [State.linkTry, State.setOn, hup, hl, hhello, hrole, hr, Bool.not_true, Bool.or_self, Bool.false_eq_true, if_false, false_and]

/-! ### HELLO (R319, R321, R322) -/

/-- What a chip does with a HELLO that it has noted. -/
def State.helloAct (s : State) (role : Nat) : State :=
  let s4 := if s.role = roINIT ∧ s.on TWN_LINKST_UP then s.setFld TWN_STATE_ROLE roPRIME else s
  let s5 := s4.bothActive.primeStep
  let gone := role == roINIT || role == roPRIME || role == roOUT
  let s6 := if s5.role = roSTANDBY ∧ gone ∧ !s5.partnerDrives then s5.setTwin { s5.twin with take := true } else s5
  let s7 := if role = roOUT ∧ (s6.role = roACTIVE ∨ s6.role = roSTANDBY) then s6.askReset else s6
  s7.readyShow

/-- What a HELLO tells of the partner. -/
def Twin.heard (x : Twin) (m : Hello) (clk : Nat) : Twin :=
  { x with
    unacked := ackUpTo m.ack x.unacked, helloAt := some clk, helloRx := true, rstSent := x.rstSent && m.role != roINIT && m.role != roPRIME, fwd := x.fwd && m.role != roINIT, released := if m.role = roACTIVE then 0 else x.released, pstrap := m.strap, pready := m.ready, preason := m.reason
    pprimed := m.primed, parmed := m.armed, pserial := m.serial }

theorem State.hello_of_link_stays {m : Hello} (hon : s.twinOn = true)
    (hl : (s.setTwin (s.twin.heard m s.clk)).linkTry = s.setTwin (s.twin.heard m s.clk)) {v : State}
    (hv : ((s.setTwin (s.twin.heard m s.clk)).setFld TWN_STATE_PROLE m.role).setReg TWN_PCFGCRC m.digest = v)
    (hs : m.strap ≠ v.fld SYS_CAPS_TWIN) : s.hello m = v.helloAct m.role := by
  have heq : s.hello m = if !s.twinOn then s else
      let w := ((s.setTwin (s.twin.heard m s.clk)).linkTry.setFld TWN_STATE_PROLE m.role).setReg TWN_PCFGCRC m.digest
      (if m.strap = w.fld SYS_CAPS_TWIN then w.setOn TWN_STATE_STRAPDUP else w).helloAct m.role := rfl
  simp only [heq, hon, hl, hv, hs, Bool.not_true, Bool.false_eq_true, if_false]

theorem State.helloAct_of_no_take {role : Nat} {u w : State}
    (hu : (if s.role = roINIT ∧ s.on TWN_LINKST_UP then s.setFld TWN_STATE_ROLE roPRIME else s) = u) (hw : u.bothActive.primeStep = w)
    (hgone : w.role = roSTANDBY → role ≠ roINIT ∧ role ≠ roPRIME) (hout : role = roOUT → w.role ≠ roACTIVE ∧ w.role ≠ roSTANDBY) :
    s.helloAct role = w.readyShow := by
  have htake : ¬ (w.role = roSTANDBY ∧ (role == roINIT || role == roPRIME || role == roOUT) = true ∧ (!w.partnerDrives) = true) := by
    rintro ⟨hs, hg, -⟩
    obtain ⟨hi, hp⟩ := hgone hs
    have ho : role ≠ roOUT := fun he => (hout he).2 hs
    simp [hi, hp, ho] at hg
  have hask : ¬ (role = roOUT ∧ (w.role = roACTIVE ∨ w.role = roSTANDBY)) := fun ⟨ho, hr⟩ => hr.elim (hout ho).1 (hout ho).2
  simp only [State.helloAct, hu, hw, htake, hask, if_false]

theorem State.helloAct_of_take {role : Nat} (hr : s.role = roSTANDBY) (hrole : role = roINIT ∨ role = roPRIME)
    (hd : s.partnerDrives = false) : s.helloAct role = (s.setTwin { s.twin with take := true }).readyShow := by
  have hinit : ¬ (s.role = roINIT ∧ s.on TWN_LINKST_UP = true) := fun h => absurd (hr.symm.trans h.1) (by decide)
  have hboth : s.bothActive = s := State.bothActive_of_own_role (by rw [hr]; decide)
  have hprime : s.primeStep = s := State.primeStep_of_role (by rw [hr]; decide)
  have hgone : (role == roINIT || role == roPRIME || role == roOUT) = true := by rcases hrole with rfl | rfl <;> rfl
  have htake : s.role = roSTANDBY ∧ (role == roINIT || role == roPRIME || role == roOUT) = true ∧ (!s.partnerDrives) = true :=
    ⟨hr, hgone, by rw [hd]; rfl⟩
  have hask (t : Prop) : ¬ (role = roOUT ∧ t) := by rcases hrole with rfl | rfl <;> exact fun h => absurd h.1 (by decide)
  simp only [State.helloAct, if_neg hinit, hboth, hprime, if_pos htake, if_neg (hask _)]

theorem State.hello_of_standby {m : Hello} (hon : s.twinOn = true) (hup : s.on TWN_LINKST_UP = true) {v : State}
    (hv : ((s.setTwin (s.twin.heard m s.clk)).setFld TWN_STATE_PROLE m.role).setReg TWN_PCFGCRC m.digest = v)
    (hs : m.strap ≠ v.fld SYS_CAPS_TWIN) (hst : v.role = roSTANDBY) (hrole : m.role = roSTANDBY ∨ m.role = roACTIVE) :
    s.hello m = v.readyShow := by
  have hst' (q : Nat) (hq : q ≠ 3) : v.role ≠ q := by rw [hst]; exact hq.symm
  rw [State.hello_of_link_stays hon (State.linkTry_of_up hup) hv hs,
    State.helloAct_of_no_take (if_neg fun h => absurd h.1 (hst' _ (by decide)))
      (by rw [State.bothActive_of_own_role (hst' _ (by decide)), State.primeStep_of_role (hst' _ (by decide))])
      (fun _ => by rcases hrole with h | h <;> rw [h] <;> decide)
      (fun ho => by rcases hrole with h | h <;> rw [h] at ho <;> exact absurd ho (by decide))]

/-! ### The frames that are not acknowledged (R319) -/

theorem State.linkChange_of_up (hon : s.twinOn = true) {rtt : Nat} {v : State}
    (hv : ((s.setFld TWN_LINKST_LANES 3).setFld TWN_LINKST_RTT rtt).setTwin { s.twin with lanesOk := true } = v) :
    s.linkChange true 3 rtt = v.linkTry := by
  subst hv
  simp only [State.linkChange, hon, Bool.not_true, Bool.false_eq_true, if_false, beq_self_eq_true, Bool.and_self, if_true]
  rfl

theorem State.linkChange_of_down (hon : s.twinOn = true) {up : Bool} {lanes rtt : Nat} (hd : up = false ∨ lanes ≠ 3) {v : State}
    (hv : (((s.setFld TWN_LINKST_LANES lanes).setFld TWN_LINKST_RTT rtt).setFld TWN_LINKST_UP 0).setFld TWN_STATE_LINK 0 = v) :
    s.linkChange up lanes rtt =
      v.setTwin { v.twin with lanesOk := false, unacked := [], unbroken := false, helloTx := false, helloRx := false } := by
  subst hv
  have hok : (up && lanes == 3) = false := by rcases hd with rfl | h <;> simp [*]
  simp only [State.linkChange, hon, hok, Bool.not_true, Bool.false_eq_true, if_false]
  rfl

theorem State.linkChange_of_off (hon : s.twinOn = false) (up : Bool) (lanes rtt : Nat) : s.linkChange up lanes rtt = s :=
  if_pos (by rw [hon]; rfl)

theorem State.resend_of_none (h : s.twin.unacked = []) : s.resend = s := by
  simp only [State.resend, h, List.find?_nil]

theorem State.resend_of_due {f : Unacked} (hf : s.twin.unacked.find? (fun f => decide (f.at_ + 800 ≤ s.clk)) = some f) (ht : f.tries < 8)
    {v : State} (hv : (s.sendFrame lkTWIN f.frame.kind (s.twinFrame f.seq f.frame.kind f.frame.body)).countReg TWN_RESEND 1 = v) :
    s.resend = v.setTwin { v.twin with unacked := v.twin.unacked.map (fun g =>
      if g.seq = f.seq then { g with at_ := v.clk, tries := g.tries + 1 } else g) } := by
  have hf' : s.twin.unacked.find? (fun f => decide (f.at_ + usClk 2 ≤ s.clk)) = some f := hf
  simp only [State.resend, hf', Nat.not_le.2 ht, if_false, State.twinPut, hv]

theorem State.resend_of_given_up {f : Unacked} (hf : s.twin.unacked.find? (fun f => decide (f.at_ + 800 ≤ s.clk)) = some f)
    (ht : 8 ≤ f.tries) : s.resend = s.linkDown := by
  have hf' : s.twin.unacked.find? (fun f => decide (f.at_ + usClk 2 ≤ s.clk)) = some f := hf
  simp only [State.resend, hf', ht, if_true]

theorem State.hello_of_off (hon : s.twinOn = false) (m : Hello) : s.hello m = s := if_pos (by rw [hon]; rfl)

theorem State.helloTimer_of_off (hon : s.twinOn = false) (done : Bool) : s.helloTimer done = s := if_pos (by rw [hon]; rfl)

theorem State.helloTimer_of_due (hon : s.twinOn = true) (haw : s.awake = true) (hd : s.on RST_STAT_DONE = true)
    (ht : s.timerOver tmHello 400 = true) {done : Bool} {v : State}
    (hv : (((s.startTimer tmHello).setTwin { s.twin with done := done }).primeStep).readyShow = v) (hup : v.on TWN_LINKST_UP = true)
    (hfwd : v.twin.fwd = true) : s.helloTimer done =
      (v.sendFrame lkTWIN 0x01 (v.twinFrame v.twin.seqOut 0x01 v.helloBody)).setTwin { v.twin with helloTx := true } := by
  have ht' : s.timerOver tmHello (usClk 1) = true := ht
  have hrecords (t : State) (h : t.twin.fwd = true) : t.sendRecords = t := if_neg (by simp [h])
  obtain ⟨w, hw⟩ : ∃ w, (v.sendFrame lkTWIN 0x01 (v.twinFrame v.twin.seqOut 0x01 v.helloBody)).setTwin { v.twin with helloTx := true } = w :=
    ⟨_, rfl⟩
  have hwup : w.on TWN_LINKST_UP = true := hw ▸ hup
  have hwfwd : w.twin.fwd = true := hw ▸ hfwd
  have heq : s.helloTimer done = w.linkTry.sendRecords := by
    simp only [State.helloTimer, hon, haw, hd, ht', Bool.not_true, Bool.or_self, Bool.false_eq_true, if_false, hv, State.twinPut]
    exact congrArg (fun t : State => t.linkTry.sendRecords) hw
  rw [heq, State.linkTry_of_up hwup, hrecords w hwfwd, hw]

theorem State.entriesTimer_of_off (hon : s.twinOn = false) : s.entriesTimer = s := by
  simp only [State.entriesTimer, hon, Bool.not_false, Bool.true_or, if_true]

theorem State.entriesTimer_of_none (h : s.twin.out = []) : s.entriesTimer = s := by
  simp [State.entriesTimer, h]

theorem State.entriesTimer_of_due (hon : s.twinOn = true) {e : TEntry} {l : List TEntry} (ho : s.twin.out = e :: l)
    (hd : 20 ≤ s.twin.out.length ∨ e.at_ + 400 ≤ s.clk) {v : State} (hv : s.setTwin { s.twin with out := s.twin.out.drop 20 } = v)
    (hup : v.on TWN_LINKST_UP = true) : s.entriesTimer =
      v.sendFrame lkTWIN 0x02 (v.twinFrame v.twin.seqOut 0x02 ((s.twin.out.take 20).flatMap (fun e =>
        [e.kind, e.port + 64 * e.cls, e.line % 2 ^ 32, e.val.toNat, e.flags, 0]))) := by
  have hdue : (decide (20 ≤ s.twin.out.length) || s.twin.out.head?.any (fun e => decide (e.at_ + usClk 1 ≤ s.clk))) = true := by
    refine Bool.or_eq_true_iff.2 (hd.imp (fun h => decide_eq_true h) fun h => ?_)
    rw [ho]
    exact decide_eq_true h
  simp only [State.entriesTimer, hon, hdue, Bool.not_true, Bool.or_self, Bool.false_eq_true, if_false, hv, hup, if_true, State.twinPut]

theorem State.entriesIn_of_off (h : s.twinOn = false ∨ s.on TWN_LINKST_UP = false) (f : EntryFrame) : s.entriesIn f = s :=
  if_pos (by rcases h with h | h <;> simp [h])

theorem State.entriesIn_of_up (hon : s.twinOn = true) (hup : s.on TWN_LINKST_UP = true) (ack : BitVec 8) (es : List (BitVec 96)) :
    s.entriesIn ⟨ack, es⟩ = (es.foldl (fun s e => s.entryIn e) (s.setTwin { s.twin with
      unacked := ackUpTo ack.toNat s.twin.unacked })).readyShow :=
  if_neg (by simp [hon, hup])

/-! ### What readiness leaves -/

/-- Readiness only ends a note that the input was at fault. -/
theorem State.readyShow_twin : s.readyShow.twin = { s.twin with input := s.readyShow.twin.input } := by
  simp only [State.readyShow, State.setBit, State.setFld]
  split
  · rfl
  · split <;> rfl

theorem State.reg_readyShow_ne {a : Nat} (h : a ≠ TWN_STATE) : s.readyShow.reg a = s.reg a := by
  have hfld (t : State) (f : Fld) (x : Nat) (hf : f.addr = TWN_STATE) : (t.setFld f x).reg a = t.reg a :=
    State.reg_setFld_ne _ _ _ (hf ▸ h)
  have hshow (t : State) (x y z : Nat) :
      (((t.setFld TWN_STATE_CFGDIFF x).setFld TWN_STATE_NRREASON y).setFld TWN_STATE_READY z).reg a = t.reg a :=
    (hfld _ TWN_STATE_READY _ rfl).trans ((hfld _ TWN_STATE_NRREASON _ rfl).trans (hfld _ TWN_STATE_CFGDIFF _ rfl))
  unfold State.readyShow
  split
  · rfl
  · exact (hshow _ _ _ _).trans (by split <;> rfl)

/-- A field of TWN_STATE beside READY, NRREASON and CFGDIFF. -/
theorem State.fld_readyShow_beside (hs : s.canonical) {g : Fld} (ha : g.addr = TWN_STATE)
    (hd : g.lo + g.width ≤ 3 ∨ (8 ≤ g.lo ∧ (g.lo + g.width ≤ 15 ∨ 16 ≤ g.lo))) : s.readyShow.fld g = s.fld g := by
  have hfld (t : State) (ht : t.canonical) (f : Fld) (x : Nat) (hf : f.addr = TWN_STATE) (hlo : f.lo + f.width ≤ g.lo ∨ g.lo + g.width ≤ f.lo)
      (hw : f.lo + f.width ≤ 32) : (t.setFld f x).fld g = t.fld g := State.fld_setFld_beside ht.1 f g x (ha.trans hf.symm) hlo hw
  have hshow (t : State) (ht : t.canonical) (b c : Bool) (r : Nat) :
      (((t.setFld TWN_STATE_CFGDIFF (b2n b)).setFld TWN_STATE_NRREASON r).setFld TWN_STATE_READY (b2n c)).fld g = t.fld g := by
    have h1 := ht.setFld TWN_STATE_CFGDIFF (b2n b)
    rw [hfld _ (h1.setFld _ _) TWN_STATE_READY _ rfl (by dsimp only; omega) (by decide),
      hfld _ h1 TWN_STATE_NRREASON _ rfl (by dsimp only; omega) (by decide),
      hfld _ ht TWN_STATE_CFGDIFF _ rfl (by dsimp only; omega) (by decide)]
  unfold State.readyShow
  split
  · rfl
  · exact (hshow _ (by split <;> exact hs) _ _ _).trans (by split <;> rfl)

/-- Settles O46: the link, its HELLO and its line entries take the branch that their guards name. -/
theorem twinLinkRuns : Obligations.TwinLinkRuns := by
  have hcaps {u v : State} {x : Twin} {role : Nat} {digest : Word}
      (hv : ((u.setTwin x).setFld TWN_STATE_PROLE role).setReg TWN_PCFGCRC digest = v) {f : Fld} (h1 : f.addr ≠ TWN_STATE)
      (h2 : f.addr ≠ TWN_PCFGCRC) : v.fld f = u.fld f := by
    rw [← hv, State.fld_setReg_ne _ _ _ h2, State.fld_setFld_ne _ _ _ _ h1]
    rfl
  refine ⟨?linkUp, ?linkDown, ?dropped, ?droppedOff, ?off, ?resend, ?givenUp, ?helloTimer, ?hello, ?prime, ?entries, ?noEntries, ?entriesIn,
    ?entriesOff, ?told⟩
  case linkUp =>
    rintro t rtt s _ v rfl hon hv hup hr
    have hlanes : v.twin.lanesOk = true := hv ▸ rfl
    exact ⟨fun hh => congrArg Host.Outcome.next (congrArg State.readyShow
        ((State.linkChange_of_up hon hv).trans (State.linkTry_of_ready hup hlanes hh hr))),
      fun hu hh => congrArg Host.Outcome.next (congrArg State.readyShow
        ((State.linkChange_of_up hon hv).trans (State.linkTry_of_no_hello hu hh)))⟩
  case linkDown =>
    rintro t up lanes rtt s _ v rfl hon hd hv
    have hd' : up = false ∨ lanes.toNat ≠ 3 := hd.imp_right fun h he => h (BitVec.eq_of_toNat_eq he)
    exact congrArg Host.Outcome.next (congrArg State.readyShow (State.linkChange_of_down hon hd' hv))
  case dropped => exact fun s hon => congrArg Host.Outcome.next (if_pos hon)
  case droppedOff => exact fun s hon => congrArg Host.Outcome.next (if_neg (by rw [hon]; exact Bool.false_ne_true))
  case off =>
    rintro t up lanes rtt f ack role ready reason strap primed armed done digest serial s _ rfl hon
    refine ⟨congrArg Host.Outcome.next ?_, congrArg Host.Outcome.next (State.helloTimer_of_off hon done),
      congrArg Host.Outcome.next (State.hello_of_off hon _), congrArg Host.Outcome.next (State.entriesTimer_of_off hon),
      congrArg Host.Outcome.next (State.entriesIn_of_off (.inl hon) f), fun hnil => congrArg Host.Outcome.next ?_⟩
    · exact (congrArg State.readyShow (State.linkChange_of_off hon _ _ _)).trans (State.readyShow_of_off hon)
    · exact (congrArg State.readyShow (State.resend_of_none hnil)).trans (State.readyShow_of_off hon)
  case resend =>
    rintro t s _ v f rfl hf ht hv
    exact congrArg Host.Outcome.next (congrArg State.readyShow (State.resend_of_due hf ht hv))
  case givenUp =>
    rintro t s _ f rfl hf ht
    exact congrArg Host.Outcome.next (congrArg State.readyShow (State.resend_of_given_up hf ht))
  case helloTimer =>
    rintro t done s _ v rfl hon haw hd ht hv hup hfwd
    exact congrArg Host.Outcome.next (State.helloTimer_of_due hon haw hd ht hv hup hfwd)
  case hello =>
    rintro t ack role ready reason strap primed armed digest serial s u v rfl hon hs hv hr hp hc
    have hvup : v.on TWN_LINKST_UP = (s.advance t).on TWN_LINKST_UP := 
      congrArg (· != 0) (hcaps hv (f := TWN_LINKST_UP) (by decide) (by decide))
    have hact (hl : (s.advance t).on TWN_LINKST_UP = true ∨ (s.advance t).twin.lanesOk = false) :
        exec (.hello t ack role ready reason strap primed armed digest serial) s = .next (v.helloAct role) :=
      congrArg Host.Outcome.next (State.hello_of_link_stays hon (hl.elim (fun h => State.linkTry_of_up h) (fun h => State.linkTry_of_lanes_down h))
        hv (hc.symm ▸ hs))
    have hkeep (h : v.role ≠ roINIT) : (if v.role = roINIT ∧ v.on TWN_LINKST_UP then v.setFld TWN_STATE_ROLE roPRIME else v) = v :=
      if_neg fun hi => h hi.1
    refine ⟨?standby, ?take, ?active, ?bothActive, ?primed, ?linkDown, ?init⟩
    case standby =>
      intro hst hup hrole
      exact congrArg Host.Outcome.next (State.hello_of_standby hon hup hv (hc.symm ▸ hs) (hr.trans hst) hrole)
    case take =>
      intro hst hup hdr hrole
      rw [hact (.inl hup), State.helloAct_of_take (hr.trans hst) hrole hdr]
    case active =>
      intro hac hup hna hno
      have hv4 : v.role = roACTIVE := hr.trans hac
      have hv4' (q : Nat) (hq : q ≠ 4) : v.role ≠ q := by rw [hv4]; exact hq.symm
      rw [hact (.inl hup), State.helloAct_of_no_take (hkeep (hv4' _ (by decide)))
        (by rw [State.bothActive_of_partner_role (hp ▸ hna), State.primeStep_of_role (hv4' _ (by decide))])
        (fun h => absurd h (hv4' _ (by decide))) (fun ho => absurd ho hno)]
    case bothActive =>
      intro hac hup hrole hd
      have hv4 : v.role = roACTIVE := hr.trans hac
      have hnp : (if v.preferred then v else v.standBy).role ≠ roPRIME := by
        split
        · rw [hv4]; decide
        · rw [State.role_standBy]; decide
      rw [hact (.inl hup), State.helloAct_of_no_take (hkeep (by rw [hv4]; decide))
        (by rw [State.bothActive_of_straps hv4 (hp.trans hrole) hd, State.primeStep_of_role hnp])
        (fun _ => by rw [hrole]; decide) (fun ho => absurd (hrole.symm.trans ho) (by decide))]
    case primed =>
      intro hpr hup hrole
      have hv2 : v.role = roPRIME := hr.trans hpr
      rw [hact (.inl hup), State.helloAct_of_no_take (hkeep (by rw [hv2]; decide))
        (by rw [State.bothActive_of_own_role (by rw [hv2]; decide)])
        (fun _ => by rw [hrole]; decide) (fun ho => absurd (hrole.symm.trans ho) (by decide))]
    case linkDown =>
      intro hin hup hl
      have hv1 : v.role = roINIT := hr.trans hin
      have hv1' (q : Nat) (hq : q ≠ 1) : v.role ≠ q := by rw [hv1]; exact hq.symm
      rw [hact (.inr hl), State.helloAct_of_no_take (if_neg fun h => absurd (hup.symm.trans (hvup.symm.trans h.2)) (by decide))
        (by rw [State.bothActive_of_own_role (hv1' _ (by decide)), State.primeStep_of_role (hv1' _ (by decide))])
        (fun h => absurd h (hv1' _ (by decide))) (fun _ => ⟨hv1' _ (by decide), hv1' _ (by decide)⟩)]
    case init =>
      intro hin hup hrole h2
      rw [hact (.inl hup), State.helloAct_of_no_take (if_pos ⟨hr.trans hin, hvup.trans hup⟩)
        (by rw [State.bothActive_of_own_role (by rw [h2]; decide)])
        (fun _ => by rw [hrole]; decide) (fun ho => absurd (hrole.symm.trans ho) (by decide))]
  case prime => exact fun s hr hg hd hp => State.primeStep_of_active_partner hr hg hd hp
  case entries =>
    rintro t s _ v e l rfl hon ho hd hv hup
    exact congrArg Host.Outcome.next (State.entriesTimer_of_due hon ho hd hv hup)
  case noEntries =>
    rintro t s _ rfl ho
    exact congrArg Host.Outcome.next (State.entriesTimer_of_none ho)
  case entriesIn =>
    rintro t ack es s _ rfl hon hup
    exact congrArg Host.Outcome.next (State.entriesIn_of_up hon hup ack es)
  case entriesOff =>
    rintro t f s _ rfl hup
    exact congrArg Host.Outcome.next (State.entriesIn_of_off (.inr hup) f)
  case told =>
    rintro t ack role ready reason strap primed armed digest serial s _ hs rfl hon hst hup h0 h1 h2 h5 hstrap
    have hrole : role.val = roSTANDBY ∨ role.val = roACTIVE := by revert role; decide
    have hu : (s.advance t).canonical := (State.advance_kept s t hs.kept).canonical
    obtain ⟨m, hm⟩ : ∃ m : Hello,
      m = ⟨ack.toNat, role, ready, reason.toNat, strap.toNat, primed, armed, digest, serial.toNat⟩ := ⟨_, rfl⟩
    obtain ⟨y, hy⟩ : ∃ y, (s.advance t).setTwin ((s.advance t).twin.heard m (s.advance t).clk) = y := ⟨_, rfl⟩
    have hyc : y.canonical := hy ▸ hu
    have hyr : y.role = (s.advance t).role := hy ▸ rfl
    obtain ⟨v, hv⟩ : ∃ v, (y.setFld TWN_STATE_PROLE m.role).setReg TWN_PCFGCRC m.digest = v := ⟨_, rfl⟩
    have h1 : (y.setFld TWN_STATE_PROLE m.role).canonical := hyc.setFld _ _
    have hvc : v.canonical := hv ▸ h1.setReg _ _
    have hst' : v.role = roSTANDBY := by
      rw [← hv, State.role, State.fld_setReg_ne _ _ _ (by decide),
        State.fld_setFld_beside hyc.1 TWN_STATE_PROLE TWN_STATE_ROLE _ rfl (by decide) (by decide)]
      exact hyr.trans hst
    have hprole : v.fld TWN_STATE_PROLE = role := by
      rw [← hv, State.fld_setReg_ne _ _ _ (by decide), State.fld_setFld_same hyc.1 _ _ (by decide), hm]
      exact Nat.mod_eq_of_lt (by have := role.isLt; dsimp only; omega)
    have hcrc : v.reg TWN_PCFGCRC = digest := by rw [← hv, State.reg_setReg_same h1.1, hm]
    have hvx : v.twin = (s.advance t).twin.heard m (s.advance t).clk := by rw [← hv, ← hy]; rfl
    have hexec : (s.advance t).hello m = v.readyShow := State.hello_of_standby hon hup ((congrArg
      (fun z : State => (z.setFld TWN_STATE_PROLE m.role).setReg TWN_PCFGCRC m.digest) hy).trans hv)
      (by rw [hcaps (hy ▸ hv) (by decide) (by decide), hm]; exact hstrap) hst' (by rw [hm]; exact hrole)
    refine ⟨v.readyShow, congrArg Host.Outcome.next (hm ▸ hexec), ?_, ?_, ?_, ?_, ?_⟩
    · exact (State.fld_readyShow_beside hvc rfl (by decide)).trans hprole
    · exact (State.reg_readyShow_ne (by decide)).trans hcrc
    · rw [State.readyShow_twin, hvx]; rfl
    · rw [State.readyShow_twin, hvx, hm]; rfl
    · exact (State.fld_readyShow_beside hvc rfl (by decide)).trans hst'

end Sys2Proof.Machine
end

section
/-! PROOF. The comparison of both chips' signatures (R331, R332). -/

namespace Sys2Proof.Machine

open Sys2Proof

variable {s : State}

/-! ### What is held of a port-line -/

theorem State.tline_port_line (s : State) (p l : Nat) : (s.tline p l).port = p ∧ (s.tline p l).line = l := by
  unfold State.tline
  cases hf : s.twin.lines.find? (fun x => x.port == p && x.line == l) with
  | none => exact ⟨rfl, rfl⟩
  | some x =>
    have hx := List.find?_some hf
    simpa using hx

theorem State.tline_setTline (x : TLine) : (s.setTline x).tline x.port x.line = x := by
  have hnone : (s.twin.lines.filter (fun y => !(y.port == x.port && y.line == x.line))).find?
      (fun y => y.port == x.port && y.line == x.line) = none := by
    refine List.find?_eq_none.2 fun y hy => ?_
    simpa only [Bool.not_eq_true', Bool.not_eq_true] using (List.mem_filter.1 hy).2
  have hsome : [x].find? (fun y => y.port == x.port && y.line == x.line) = some x := by simp
  simp only [State.tline, State.setTline, State.setTwin, List.find?_append, hnone, hsome, Option.none_or, Option.getD_some]

theorem State.tline_modTline {p l : Nat} {f : TLine → TLine} (hp : (f (s.tline p l)).port = p) (hl : (f (s.tline p l)).line = l) :
    (s.modTline p l f).tline p l = f (s.tline p l) := by
  have h := State.tline_setTline (s := s) (f (s.tline p l))
  rwa [hp, hl] at h

/-! ### The line of an entry (R319) -/

theorem extendLine_of_near {near l : Nat} (h1 : near ≤ l + 2 ^ 31) (h2 : l < near + 2 ^ 31) : extendLine near (l % 2 ^ 32) = l := by
  unfold extendLine signed unsign
  dsimp only
  split <;> omega

theorem State.entryIn_of_old {e : BitVec 96}
    (h : extendLine (s.head (entPort6 e)).next (entLine e) + 64 < (s.head (entPort6 e)).next) : s.entryIn e = s := if_pos h

theorem State.entryIn_of_signature {e : BitVec 96} {p l : Nat} (hp : entPort6 e = p) (hl : extendLine (s.head p).next (entLine e) = l)
    (h : (s.head p).next ≤ l + 64) (hk : entKind e = 1) : s.entryIn e =
      ((if entAsh e then s.modTline p l (fun x => { x with pash := true }) else s).modTline p l
        (fun x => { x with psig := some (entVal e) })).compareSig p l := by
  subst hp hl
  rw [State.entryIn, if_neg (Nat.not_lt.2 h), if_pos hk]

/-! ### The comparison (R331, R332) -/

theorem State.noteDiv_shown (hs : s.canonical) (p l k : Nat) : (s.noteDiv p l k).reg TWN_GOODRUN = 0#32 ∧
    (s.noteDiv p l k).on TWN_STATE_DIV = true ∧
    ((s.noteDiv p l k).reg TWN_DIVCNT).toNat = min ((s.reg TWN_DIVCNT).toNat + 1) (2 ^ 32 - 1) := by
  obtain ⟨y, hy⟩ : ∃ y, ((s.countReg TWN_DIVCNT 1).setReg TWN_GOODRUN 0#32).setFld TWN_STATE_DIV 1 = y := ⟨_, rfl⟩
  have h1 : (s.countReg TWN_DIVCNT 1).canonical := hs.setReg _ _
  have h2 := h1.setReg TWN_GOODRUN 0#32
  have hreg (a : Nat) (ha : a ≠ TWN_DIVINFO) (hb : a ≠ TWN_DIVLINE) : (s.noteDiv p l k).reg a = y.reg a := by
    obtain ⟨z, hz, heq⟩ : ∃ z : State, z.regs = y.regs ∧ s.noteDiv p l k = if z.on TWN_DIVINFO_VALID then z
        else (z.setReg TWN_DIVINFO (BitVec.ofNat 32 (p + 256 * k + 2 ^ 31))).setReg TWN_DIVLINE (BitVec.ofNat 32 l) :=
      ⟨_, by rw [← hy]; split <;> rfl, rfl⟩
    have hzr : z.reg a = y.reg a := congrArg (fun m => SMap.get regReset m a) hz
    rw [heq]
    split
    · exact hzr
    · rw [State.reg_setReg_ne _ _ hb, State.reg_setReg_ne _ _ ha, hzr]
  refine ⟨?_, ?_, ?_⟩
  · rw [hreg _ (by decide) (by decide), ← hy, State.reg_setFld_ne _ _ _ (by decide), State.reg_setReg_same h1.1]
  · have hon : y.fld TWN_STATE_DIV = 1 := by rw [← hy]; exact State.fld_setFld_same h2.1 _ _ (by decide)
    rw [State.on, State.fld, hreg _ (by decide) (by decide)]
    exact bne_iff_ne.2 (by rw [← State.fld, hon]; decide)
  · rw [hreg _ (by decide) (by decide), ← hy, State.reg_setFld_ne _ _ _ (by decide), State.reg_setReg_ne _ _ (by decide),
      State.toNat_reg_countReg_same hs.1]

section
variable {p l : Nat} {a b : Word} (ha : (s.tline p l).sig = some a) (hb : (s.tline p l).psig = some b)
include ha hb

theorem State.compareSig_of_new (hn : (s.tline p l).sigs = false) : s.compareSig p l =
    if a = b then (s.modTline p l (fun x => { x with sigs := true })).goodLine p l
    else (s.modTline p l (fun x => { x with sigs := true })).diverge p l 1 false := by
  simp only [State.compareSig, ha, hb, hn, Bool.false_eq_true, if_false]
end

theorem State.compareSig_of_compared {p l : Nat} (hc : (s.tline p l).sigs = true) : s.compareSig p l = s := by
  unfold State.compareSig
  dsimp only
  split
  · exact if_pos hc
  · rfl

theorem State.diverge_of_first {p l : Nat} {ash : Bool} (hash : ((s.tline p l).ash || (s.tline p l).pash) = ash)
    (hk : (s.tline p l).kind = none) : s.diverge p l 1 false =
    if ash then (s.modTline p l (fun x => { x with kind := some 0 })).noteDiv p l 0
    else ((s.modTline p l (fun x => { x with kind := some 1 })).noteDiv p l 1).emberDiv := by
  cases ash <;> simp only [State.diverge, hk, hash, Bool.false_eq_true, if_false, if_true] <;> rfl

theorem State.diverge_of_ash {p l k : Nat} {own : Bool} (hk : (s.tline p l).kind = some 0) : s.diverge p l k own = s := by
  simp only [State.diverge, hk, Nat.not_lt_zero, if_false]

theorem State.goodLine_agreed {p l : Nat} (hc : (s.tline p l).sigs = true) :
    (s.goodLine p l).reg TWN_DIVCNT = s.reg TWN_DIVCNT ∧ ((s.goodLine p l).tline p l).sigs = true := by
  obtain ⟨hp, hl⟩ := State.tline_port_line s p l
  have hcases : s.goodLine p l = s ∨ s.goodLine p l = s.countReg TWN_GOODRUN 1 ∨
      s.goodLine p l = s.modTline p l (fun x => { x with good := true }) := by
    unfold State.goodLine
    by_cases hag : (s.tline p l).agrees = true
    · rw [if_pos hag]
      exact .inr (ite_eq_or_eq _ _ _)
    · exact .inl (if_neg hag)
  rcases hcases with he | he | he <;> rw [he]
  · exact ⟨rfl, hc⟩
  · exact ⟨State.reg_setReg_ne _ _ (by decide), hc⟩
  · exact ⟨rfl, by rw [State.tline_modTline hp hl]; exact hc⟩

/-- Settles O47: a line's signatures are compared once, and what differs counts by the first row that applies. -/
theorem lineEntriesAreCompared : Obligations.LineEntriesAreCompared := by
  refine ⟨fun near l h1 h2 => extendLine_of_near h1 h2, fun s e h => State.entryIn_of_old h, ?entry, ?differ,
    fun s p l k hs => State.noteDiv_shown hs p l k, ?same, fun s p l hc => State.compareSig_of_compared hc⟩
  case entry =>
    intro s e p l hp hl h hk
    rw [State.entryIn_of_signature hp hl h hk]
    exact ⟨fun hash => by rw [hash]; rfl, fun hash => by rw [hash]; rfl⟩
  case differ =>
    intro s v p l a b ha hb hn hne hv htv
    have hcmp : s.compareSig p l = v.diverge p l 1 false := by rw [State.compareSig_of_new ha hb hn, if_neg hne, hv]
    exact ⟨fun hk => hcmp.trans (State.diverge_of_first (by rw [htv]) (by rw [htv]; exact hk)), fun hk => hcmp.trans (State.diverge_of_ash (by rw [htv]; exact hk))⟩
  case same =>
    intro s p l a ha hb hn
    obtain ⟨hp, hl⟩ := State.tline_port_line s p l
    obtain ⟨v, hv⟩ : ∃ v, s.modTline p l (fun x => { x with sigs := true }) = v := ⟨_, rfl⟩
    have hsigs : (v.tline p l).sigs = true := by rw [← hv, State.tline_modTline hp hl]
    have hreg : v.reg TWN_DIVCNT = s.reg TWN_DIVCNT := by rw [← hv]; rfl
    rw [State.compareSig_of_new ha hb hn, if_pos rfl, hv]
    exact ⟨(State.goodLine_agreed hsigs).1.trans hreg, (State.goodLine_agreed hsigs).2⟩

end Sys2Proof.Machine
end

section
/-! PROOF. Agreements on a line (R326, R327, R340). -/

namespace Sys2Proof.Machine

open Sys2Proof

variable {s : State}

/-! ### Acknowledged frames (R319) -/

theorem ackUpTo_of_unknown {l : List Unacked} {a : Nat} (h : l.any (fun u => u.seq == a) = false) : ackUpTo a l = l := by
  simp only [ackUpTo, h, Bool.false_eq_true, if_false]

theorem ackUpTo_append {x y : List Unacked} {f : Unacked} {a : Nat} (hf : f.seq = a) (hx : ∀ g ∈ x, g.seq ≠ a) :
    ackUpTo a (x ++ f :: y) = y := by
  have hany : (x ++ f :: y).any (fun u => u.seq == a) = true := by simp [hf]
  have hdrop : (x ++ f :: y).dropWhile (fun u => u.seq != a) = f :: y := by
    rw [List.dropWhile_append_of_pos fun g hg => bne_iff_ne.2 (hx g hg)]
    exact List.dropWhile_cons_of_neg (by simp [hf])
  rw [ackUpTo, if_pos hany, hdrop, List.drop_one, List.tail_cons]

theorem State.recv_of_down {h : LinkHdr} {f : State → State} (hd : s.twinOn = false ∨ s.on TWN_LINKST_UP = false) : s.recv h f = s :=
  if_pos (by rcases hd with hd | hd <;> simp [hd])

section
variable {h : LinkHdr} {f : State → State} (hon : s.twinOn = true) (hup : s.on TWN_LINKST_UP = true)
include hon hup

theorem State.recv_of_new (hn : s.twin.seqIn ≠ h.seq.toNat) {v : State}
    (hv : s.setTwin { s.twin with unacked := ackUpTo h.ack.toNat s.twin.unacked, seqIn := h.seq.toNat } = v) :
    s.recv h f = (f v).readyShow := by
  subst hv
  have hn' : ¬ (s.ackIn h.ack.toNat).twin.seqIn = h.seq.toNat := hn
  simp only [State.recv, hon, hup, hn', Bool.not_true, Bool.or_self, Bool.false_eq_true, if_false]
  rfl

theorem State.recv_of_known (hn : s.twin.seqIn = h.seq.toNat) :
    s.recv h f = s.setTwin { s.twin with unacked := ackUpTo h.ack.toNat s.twin.unacked } := by
  have hn' : (s.ackIn h.ack.toNat).twin.seqIn = h.seq.toNat := hn
  simp only [State.recv, hon, hup, hn', Bool.not_true, Bool.or_self, Bool.false_eq_true, if_false, if_true]
  rfl

theorem State.twinSend_of_up (kind : Nat) (body : List Nat) : ∃ q, s.twinSend kind body =
    (s.sendFrame lkTWIN kind (s.twinFrame q kind body)).setTwin
      { s.twin with seqOut := q, unacked := s.twin.unacked ++ [⟨q, ⟨lkTWIN, kind, body⟩, s.clk, 0⟩] } := by
  refine ⟨(s.twin.seqOut + 1) % 256, ?_⟩
  simp only [State.twinSend, hon, hup, Bool.not_true, Bool.or_self, Bool.false_eq_true, if_false]
  rfl
end

/-! ### What a line agreed brings (R326, R340) -/

theorem State.readyShow_keeps : s.readyShow.kiln = s.kiln ∧ s.readyShow.twin.ret = s.twin.ret ∧ s.readyShow.twin.agrees = s.twin.agrees := by
  have hk : s.readyShow.kiln = s.kiln := by
    simp only [State.readyShow, State.setBit, State.setFld]
    split
    · rfl
    · split <;> rfl
  rw [State.readyShow_twin]
  exact ⟨hk, rfl, rfl⟩

theorem State.twinSend_keeps (kind : Nat) (body : List Nat) : (s.twinSend kind body).kiln = s.kiln ∧ (s.twinSend kind body).regs = s.regs := by
  unfold State.twinSend
  split <;> exact ⟨rfl, rfl⟩

theorem State.agreed_ember (hs : SMap.wf regReset s.regs = true) (a arg : Nat) : (s.agreed puEMBER a arg).kiln.burst = s.kiln.burst ++ [a] ∧
    (s.agreed puEMBER a arg).twin = s.twin ∧ (s.agreed puEMBER a arg).reg TWN_AGREE = BitVec.ofNat 32 a :=
  ⟨rfl, rfl, State.reg_setReg_same hs _ _⟩

theorem State.agreed_return (hs : SMap.wf regReset s.regs = true) (a arg : Nat) : (s.agreed puRETURN a arg).twin.ret = some a ∧
    (s.agreed puRETURN a arg).twin.agrees = s.twin.agrees ∧ (s.agreed puRETURN a arg).reg TWN_AGREE = BitVec.ofNat 32 a :=
  ⟨rfl, rfl, State.reg_setReg_same hs _ _⟩

/-! ### PROPOSE, AGREE and their timeout (R326, R327) -/

theorem State.proposeIn_of_none {purpose mask prop arg : Nat}
    (hf : s.twin.agrees.find? (fun g => !g.done && g.purpose == purpose && (g.mask &&& mask) != 0) = none) :
    s.proposeIn purpose mask prop arg = (s.twinSend 0x11 [purpose, max (s.proposal mask) prop]).agreed purpose (max (s.proposal mask) prop) arg := by
  simp only [State.proposeIn, hf]

theorem State.proposeIn_of_open {purpose mask prop arg : Nat} {g : Agreement}
    (hf : s.twin.agrees.find? (fun g => !g.done && g.purpose == purpose && (g.mask &&& mask) != 0) = some g) {w : State}
    (hw : ((s.setTwin { s.twin with agrees := replaceFirst (fun x => x == g) (fun x => { x with done := true }) s.twin.agrees }).twinSend 0x11
      [purpose, max g.prop prop]).agreed purpose (max g.prop prop) g.arg = w) :
    s.proposeIn purpose mask prop arg = if arg = g.arg then w else w.agreed purpose (max g.prop prop) arg := by
  simp only [State.proposeIn, hf, hw]

theorem State.agreeIn_of_open {purpose a : Nat} {g : Agreement} (hf : s.twin.agrees.find? (fun g => g.purpose == purpose) = some g)
    {w : State} (hw : s.setTwin { s.twin with agrees := s.twin.agrees.erase g } = w) :
    s.agreeIn purpose a = if g.done then w else w.agreed purpose a g.arg := by
  simp only [State.agreeIn, hf, hw]

theorem State.agreeTimeout_of_due {g : Agreement} (hf : s.twin.agrees.find? (fun g => decide (g.at_ + 8000 ≤ s.clk)) = some g)
    {w : State} (hw : s.setTwin { s.twin with agrees := s.twin.agrees.erase g } = w) :
    s.agreeTimeout = (if g.done then w else w.agreed g.purpose g.prop g.arg).linkDown.readyShow := by
  have hf' : s.twin.agrees.find? (fun g => decide (g.at_ + usClk 20 ≤ s.clk)) = some g := hf
  simp only [State.agreeTimeout, hf', hw]

theorem State.agreeTimeout_of_none (h : s.twin.agrees = []) : s.agreeTimeout = s := by
  simp only [State.agreeTimeout, h, List.find?_nil]

theorem State.propose_of_none (ha : s.twin.agrees = []) (hon : s.twinOn = true) (hup : s.on TWN_LINKST_UP = true) (purpose mask arg : Nat) :
    ∃ q, (s.propose purpose mask arg).twin.agrees = [⟨purpose, mask, s.proposal mask, arg, s.clk, false⟩] ∧
      (s.propose purpose mask arg).sent = s.sent ++ [⟨lkTWIN, 0x10, s.twinFrame q 0x10 [purpose, mask, s.proposal mask, arg]⟩] := by
  obtain ⟨q, hq⟩ := State.twinSend_of_up hon hup 0x10 [purpose, mask, s.proposal mask, arg]
  refine ⟨q, ?_⟩
  simp only [State.propose, ha, List.any_nil, Bool.false_eq_true, if_false, hq]
  exact ⟨by simp [State.setTwin, State.sendFrame], rfl⟩

/-- Settles O48: each frame of an agreement takes the branch that its guards name, and a line agreed is acted on. -/
theorem agreementsRun : Obligations.AgreementsRun := by
  refine ⟨?propose, ?merge, ?agree, ?nothing, ?acknowledged, fun s m => rfl, ?timeout, ?noTimeout, ?begins, ?noReturn,
    fun s mask arg purpose ha hon hup => State.propose_of_none ha hon hup purpose mask arg, ?proposed, ?agreed, ?timedOut⟩
  case propose =>
    rintro t seq purpose mask prop arg s _ v rfl hon hup hn hv hf
    exact congrArg Host.Outcome.next ((State.recv_of_new hon hup hn hv).trans (congrArg State.readyShow (State.proposeIn_of_none hf)))
  case merge =>
    rintro t seq purpose mask prop arg s _ v w g rfl hon hup hn hv hf hw
    exact congrArg Host.Outcome.next ((State.recv_of_new hon hup hn hv).trans (congrArg State.readyShow (State.proposeIn_of_open hf hw)))
  case agree =>
    rintro t seq purpose a s _ v w g rfl hon hup hn hv hf hw
    exact congrArg Host.Outcome.next ((State.recv_of_new hon hup hn hv).trans (congrArg State.readyShow (State.agreeIn_of_open hf hw)))
  case nothing =>
    rintro t seq purpose mask prop a arg s _ rfl
    exact ⟨fun hd => ⟨congrArg Host.Outcome.next (State.recv_of_down hd), congrArg Host.Outcome.next (State.recv_of_down hd)⟩,
      fun hon hup hn => ⟨congrArg Host.Outcome.next (State.recv_of_known hon hup hn),
        congrArg Host.Outcome.next (State.recv_of_known hon hup hn)⟩⟩
  case acknowledged =>
    intro l a
    refine ⟨ackUpTo_of_unknown, ?_⟩
    rintro x y f rfl hf hx
    exact ackUpTo_append hf hx
  case timeout =>
    rintro t s _ w g rfl hf hw
    exact congrArg Host.Outcome.next (State.agreeTimeout_of_due hf hw)
  case noTimeout =>
    rintro t s _ rfl h
    exact congrArg Host.Outcome.next (State.agreeTimeout_of_none h)
  case begins =>
    rintro t s _ rfl h
    exact congrArg Host.Outcome.next (if_pos h)
  case noReturn =>
    rintro t s _ rfl h
    exact congrArg Host.Outcome.next (if_neg (by rw [h]; exact Bool.false_ne_true))
  case proposed =>
    rintro t seq purpose mask prop arg s _ v a hs rfl hon hup hn hv hf rfl
    have hv1 : SMap.wf regReset v.regs = true := by rw [← hv]; exact (State.advance_kept s t hs.kept).canonical.1
    have hvk : v.kiln = (s.advance t).kiln := by rw [← hv]; rfl
    obtain ⟨x, hx⟩ : ∃ x, v.twinSend 0x11 [purpose, max (v.proposal mask.toNat) prop.toNat] = x := ⟨_, rfl⟩
    obtain ⟨hxk, hxr⟩ := State.twinSend_keeps (s := v) 0x11 [purpose, max (v.proposal mask.toNat) prop.toNat]
    rw [hx] at hxk hxr
    have hx1 : SMap.wf regReset x.regs = true := by rw [hxr]; exact hv1
    have hexec : exec (.propose t seq purpose mask prop arg) s =
        .next (x.agreed purpose (max (v.proposal mask.toNat) prop.toNat) arg.toNat).readyShow :=
      congrArg Host.Outcome.next ((State.recv_of_new hon hup hn hv).trans (congrArg State.readyShow
        ((State.proposeIn_of_none hf).trans (by rw [hx]))))
    refine ⟨fun hp => ⟨_, hexec, ?_⟩, fun hp => ⟨_, hexec, ?_⟩⟩
    · obtain ⟨hburst, -, hreg⟩ := State.agreed_ember hx1 (max (v.proposal mask.toNat) prop.toNat) arg.toNat
      rw [hp, State.readyShow_keeps.1, State.reg_readyShow_ne (by decide), hburst, hxk, hvk]
      exact ⟨rfl, hreg⟩
    · obtain ⟨hret, -, hreg⟩ := State.agreed_return hx1 (max (v.proposal mask.toNat) prop.toNat) arg.toNat
      rw [hp, State.readyShow_keeps.2.1, State.reg_readyShow_ne (by decide)]
      exact ⟨hret, hreg⟩
  case agreed =>
    rintro t seq purpose a s _ g hs rfl hon hup hn hf hd
    obtain ⟨v, hv⟩ : ∃ v, (s.advance t).setTwin { (s.advance t).twin with
      unacked := ackUpTo seq.ack.toNat (s.advance t).twin.unacked, seqIn := seq.seq.toNat } = v := ⟨_, rfl⟩
    have hva : v.twin.agrees = (s.advance t).twin.agrees := by rw [← hv]; rfl
    obtain ⟨w, hw⟩ : ∃ w, v.setTwin { v.twin with agrees := v.twin.agrees.erase g } = w := ⟨_, rfl⟩
    have hwk : w.kiln = (s.advance t).kiln := by rw [← hw, ← hv]; rfl
    have hwa : w.twin.agrees = (s.advance t).twin.agrees.erase g := by rw [← hw, ← hv]; rfl
    have hw1 : SMap.wf regReset w.regs = true := by rw [← hw, ← hv]; exact (State.advance_kept s t hs.kept).canonical.1
    have hexec : exec (.agree t seq purpose a) s = .next (w.agreed purpose a.toNat g.arg).readyShow :=
      congrArg Host.Outcome.next ((State.recv_of_new hon hup hn hv).trans (congrArg State.readyShow
        ((State.agreeIn_of_open (by rw [hva]; exact hf) hw).trans (if_neg (by rw [hd]; exact Bool.false_ne_true)))))
    refine ⟨fun hp => ⟨_, hexec, ?_⟩, fun hp => ⟨_, hexec, ?_⟩⟩
    · obtain ⟨hburst, htwin, hreg⟩ := State.agreed_ember hw1 a.toNat g.arg
      rw [hp, State.readyShow_keeps.1, State.readyShow_keeps.2.2, State.reg_readyShow_ne (by decide), hburst, htwin, hwk, hwa]
      exact ⟨rfl, rfl, hreg⟩
    · obtain ⟨hret, hagrees, hreg⟩ := State.agreed_return hw1 a.toNat g.arg
      rw [hp, State.readyShow_keeps.2.1, State.readyShow_keeps.2.2, State.reg_readyShow_ne (by decide), hagrees, hwa]
      exact ⟨hret, rfl, hreg⟩
  case timedOut =>
    rintro t s _ g hs rfl hf hd hp
    obtain ⟨w, hw⟩ : ∃ w, (s.advance t).setTwin { (s.advance t).twin with agrees := (s.advance t).twin.agrees.erase g } = w := ⟨_, rfl⟩
    have hwk : w.kiln = (s.advance t).kiln := by rw [← hw]; rfl
    have hwa : w.twin.agrees = (s.advance t).twin.agrees.erase g := by rw [← hw]; rfl
    have hw1 : SMap.wf regReset w.regs = true := by rw [← hw]; exact (State.advance_kept s t hs.kept).canonical.1
    obtain ⟨x, hx⟩ : ∃ x, w.agreed puEMBER g.prop g.arg = x := ⟨_, rfl⟩
    have hx1 : SMap.wf regReset x.regs = true := by rw [← hx]; exact SMap.wf_set hw1
    obtain ⟨hburst, htwin, -⟩ := State.agreed_ember hw1 g.prop g.arg
    rw [hx] at hburst htwin
    have hexec : exec (.agreeTimeout t) s = .next x.linkDown.readyShow :=
      congrArg Host.Outcome.next ((State.agreeTimeout_of_due hf hw).trans (by
        rw [hd, if_neg Bool.false_ne_true, hp, hx]))
    have hdown : x.linkDown.kiln = x.kiln ∧ x.linkDown.twin.agrees = x.twin.agrees := ⟨rfl, rfl⟩
    have hreg : x.linkDown.reg TWN_LINKST = (x.setFld TWN_LINKST_UP 0).reg TWN_LINKST := State.reg_setFld_ne _ TWN_STATE_LINK 0 (by decide)
    have hfld : x.linkDown.readyShow.fld TWN_LINKST_UP = (x.setFld TWN_LINKST_UP 0).fld TWN_LINKST_UP :=
      congrArg (fun w : Word => bitsOf w.toNat _ _) ((State.reg_readyShow_ne (by decide)).trans hreg)
    refine ⟨_, hexec, ?_, ?_, ?_⟩
    · rw [State.readyShow_keeps.1, hdown.1, hburst, hwk]
    · rw [State.readyShow_keeps.2.2, hdown.2, htwin, hwa]
    · rw [State.on, hfld, State.fld_setFld_same hx1 _ _ (by decide)]
      rfl

end Sys2Proof.Machine
end

section
/-! PROOF. The other acknowledged frames of the twin link (R319, R325, R333, R335). -/

namespace Sys2Proof.Machine

open Sys2Proof

variable {s : State}

/-! ### Ember results (R333) -/

theorem State.embresIn_of_none {r : EmbRes} (h : embTake r.line s.twin.emb = none) :
    s.embresIn r = s.setTwin { s.twin with pemb := embAdd s.twin.pemb r } := by
  simp only [State.embresIn, h]

theorem State.embresIn_of_held {r x : EmbRes} {l : List EmbRes} (h : embTake r.line s.twin.emb = some (x, l)) :
    s.embresIn r = (s.setTwin { s.twin with emb := l }).judgeEmber x r := by
  simp only [State.embresIn, h]

theorem State.judgeEmber_of_failed {a b : EmbRes} {v : Nat}
    (hf : (List.range 16).find? (fun v => bitAt ((a.fail ||| b.fail) &&& (a.cmp &&& b.cmp)) v) = some v) : s.judgeEmber a b =
      if bitAt a.fail v && bitAt b.fail v then s.verdict 3
      else if bitAt a.fail v then s.verdict (if s.role = roACTIVE then 1 else 2)
      else s.verdict (if s.role = roACTIVE then 2 else 1) := by
  simp only [State.judgeEmber, hf, beq_iff_eq]

theorem State.judgeEmber_of_sound {a b : EmbRes} (h : ∀ v, v < 16 → bitAt ((a.fail ||| b.fail) &&& (a.cmp &&& b.cmp)) v = false) :
    s.judgeEmber a b = if a.burst = true ∧ s.twin.divOpen = true then s.verdict 4 else s := by
  have hf : (List.range 16).find? (fun v => bitAt ((a.fail ||| b.fail) &&& (a.cmp &&& b.cmp)) v) = none :=
    List.find?_eq_none.2 fun v hv => by rw [h v (List.mem_range.1 hv)]; exact Bool.false_ne_true
  simp only [State.judgeEmber, hf, Bool.and_eq_true]

/-! ### RELEASED and RSTREQ (R333, R335) -/

theorem State.takeCheck_of_role (h : s.role ≠ roSTANDBY) : s.takeCheck = s := if_pos (by simp [h])

/-! ### Head records (R325) -/

/-- A write of a register keeps the registers in canonical form. -/
theorem State.wf_setFld (h : SMap.wf regReset s.regs = true) (f : Fld) (x : Nat) : SMap.wf regReset (s.setFld f x).regs = true :=
  SMap.wf_set h

/-- HPT_HSTAT as the held records fill it. -/
def State.headShown (s : State) (p : Nat) : State :=
  ((((s.setFld (HPT_HSTAT_PRESENT p) 1).setFld (HPT_HSTAT_IDOK p) (b2n (s.idOk p))).setFld (HPT_HSTAT_RANKOK p) (b2n (s.rankOk p))).setFld
    (HPT_HSTAT_VCLASS p) (s.headByte p 0x1A)).setFld (HPT_HSTAT_TLIMIT p) (s.headByte p 0x1B)

/-- The head's type and serial number as the held records fill them. -/
def State.headNamed (s : State) (p : Nat) : State :=
  ((s.setReg (HPT_HTYPE p) (BitVec.ofNat 32 (leNat (s.headBytes p 0x10 4)))).setReg (HPT_HSERLO p)
    (BitVec.ofNat 32 (leNat (s.headBytes p 8 4)))).setReg (HPT_HSERHI p) (BitVec.ofNat 32 (leNat (s.headBytes p 0xC 4)))

theorem State.headFill_eq (p : Nat) : s.headFill p = (s.headNamed p).headShown p := rfl

theorem State.headFill_headMem (p : Nat) : (s.headFill p).headMem = s.headMem := by
  simp [State.headFill, State.setOn, State.setBit, State.setFld]

theorem State.reg_headFill_type (h : SMap.wf regReset s.regs = true) (p : Nat) :
    (s.headFill p).reg (HPT_HTYPE p) = BitVec.ofNat 32 (leNat (s.headBytes p 0x10 4)) := by
  have hstat (t : State) (f : Fld) (x : Nat) (hf : f.addr = HPT_HSTAT p) : (t.setFld f x).reg (HPT_HTYPE p) = t.reg (HPT_HTYPE p) :=
    State.reg_setFld_ne _ _ _ (by rw [hf]; simp only [HPT_HTYPE, HPT_HSTAT]; omega)
  rw [State.headFill_eq, State.headShown, hstat _ (HPT_HSTAT_TLIMIT p) _ rfl, hstat _ (HPT_HSTAT_VCLASS p) _ rfl,
    hstat _ (HPT_HSTAT_RANKOK p) _ rfl, hstat _ (HPT_HSTAT_IDOK p) _ rfl, hstat _ (HPT_HSTAT_PRESENT p) _ rfl, State.headNamed,
    State.reg_setReg_ne _ _ (by simp only [HPT_HTYPE, HPT_HSERHI]; omega), State.reg_setReg_ne _ _ (by simp only [HPT_HTYPE, HPT_HSERLO]; omega),
    State.reg_setReg_same h]

theorem State.headFill_present (h : SMap.wf regReset s.regs = true) (p : Nat) : (s.headFill p).on (HPT_HSTAT_PRESENT p) = true := by
  have h0 : SMap.wf regReset (s.headNamed p).regs = true := SMap.wf_set (SMap.wf_set (SMap.wf_set h))
  have h1 := State.wf_setFld h0 (HPT_HSTAT_PRESENT p) 1
  have h2 := State.wf_setFld h1 (HPT_HSTAT_IDOK p) (b2n ((s.headNamed p).idOk p))
  have h3 := State.wf_setFld h2 (HPT_HSTAT_RANKOK p) (b2n ((s.headNamed p).rankOk p))
  have h4 := State.wf_setFld h3 (HPT_HSTAT_VCLASS p) ((s.headNamed p).headByte p 0x1A)
  rw [State.headFill_eq, State.on, State.headShown, State.fld_setFld_beside h4 (HPT_HSTAT_TLIMIT p) (HPT_HSTAT_PRESENT p) _ rfl (.inr (by simp)) (by simp),
    State.fld_setFld_beside h3 (HPT_HSTAT_VCLASS p) (HPT_HSTAT_PRESENT p) _ rfl (.inr (by simp)) (by simp),
    State.fld_setFld_beside h2 (HPT_HSTAT_RANKOK p) (HPT_HSTAT_PRESENT p) _ rfl (.inr (by simp)) (by simp),
    State.fld_setFld_beside h1 (HPT_HSTAT_IDOK p) (HPT_HSTAT_PRESENT p) _ rfl (.inr (by simp)) (by simp), State.fld_setFld_same h0 _ _ (by simp)]
  rfl

/-- What the set-up of a head leaves. -/
theorem State.headSet_keeps (p : Nat) : (s.headSet p).headMem = s.headMem ∧ (s.headSet p).reg (HPT_HTYPE p) = s.reg (HPT_HTYPE p) ∧
    (s.headSet p).reg (HPT_HSTAT p) = s.reg (HPT_HSTAT p) := by
  have hfld (t : State) (f : Fld) (x : Nat) {a : Nat} (hf : a ≠ f.addr) : (t.setFld f x).reg a = t.reg a := State.reg_setFld_ne _ _ _ hf
  have hmod (t : State) (f : Head → Head) (a : Nat) : (t.modHead p f).reg a = t.reg a := rfl
  unfold State.headSet
  split
  · exact ⟨rfl, rfl, rfl⟩
  · refine ⟨rfl, ?_, ?_⟩
    · rw [hfld _ (HPT_TIME_LATSU p) _ (by simp only [HPT_HTYPE, HPT_TIME]; omega),
        hfld _ (HPT_FIRE_FHOLD p) _ (by simp only [HPT_HTYPE, HPT_FIRE]; omega), hmod,
        hfld _ (HPT_RATE_RATE p) _ (by simp only [HPT_HTYPE, HPT_RATE]; omega)]
    · rw [hfld _ (HPT_TIME_LATSU p) _ (by simp only [HPT_HSTAT, HPT_TIME]; omega),
        hfld _ (HPT_FIRE_FHOLD p) _ (by simp only [HPT_HSTAT, HPT_FIRE]; omega), hmod,
        hfld _ (HPT_RATE_RATE p) _ (by simp only [HPT_HSTAT, HPT_RATE]; omega)]

theorem State.putHeadBytes_regs (p k : Nat) (bs : List Nat) : (s.putHeadBytes p k bs).regs = s.regs := rfl

theorem State.readyShow_headMem : s.readyShow.headMem = s.headMem := by
  simp [State.readyShow, State.setBit, State.setFld, State.setTwin, apply_ite State.headMem]

theorem State.readyShow_heads : s.readyShow.heads = s.heads := by
  simp [State.readyShow, State.setBit, State.setFld, State.setTwin, apply_ite State.heads]

/-- Settles O49: each acknowledged frame takes the branch that its guards name. -/
theorem twinMessagesRun : Obligations.TwinMessagesRun := by
  refine ⟨?embHeld, ?embJudged, ?failed, ?sound, ?therm, ?headrec, ?released, ?rstreq, ?nothing, ?releasedKept, ?headrecShown, ?thermKept⟩
  case embHeld =>
    rintro t seq line cmp fail s _ v rfl hon hup hn hv he
    exact congrArg Host.Outcome.next ((State.recv_of_new hon hup hn hv).trans (congrArg State.readyShow (State.embresIn_of_none he)))
  case embJudged =>
    rintro t seq line cmp fail s _ v x l rfl hon hup hn hv he
    exact congrArg Host.Outcome.next ((State.recv_of_new hon hup hn hv).trans (congrArg State.readyShow (State.embresIn_of_held he)))
  case failed =>
    intro s a b v hf
    rw [State.judgeEmber_of_failed hf]
    exact ⟨fun ha hb => by simp [ha, hb], fun ha hb => by simp [ha, hb], fun ha => by simp [ha]⟩
  case sound => exact fun s a b h => State.judgeEmber_of_sound h
  case therm =>
    rintro t seq p b s _ v rfl hon hup hn hv
    exact congrArg Host.Outcome.next (State.recv_of_new hon hup hn hv)
  case headrec =>
    rintro t seq p off data s _ v rfl hon hup hn hv
    exact congrArg Host.Outcome.next (State.recv_of_new hon hup hn hv)
  case released =>
    rintro t seq mask s _ v rfl hon hup hn hv
    exact congrArg Host.Outcome.next (State.recv_of_new hon hup hn hv)
  case rstreq =>
    rintro t seq s _ rfl hon hup hn
    exact congrArg Host.Outcome.next (if_pos (by simp [hon, hup, hn]))
  case nothing =>
    rintro t seq line cmp fail p b off data mask s _ v rfl
    refine ⟨fun hd => ?_, ?_⟩
    · exact ⟨congrArg Host.Outcome.next (State.recv_of_down hd), congrArg Host.Outcome.next (State.recv_of_down hd),
        congrArg Host.Outcome.next (State.recv_of_down hd), congrArg Host.Outcome.next (State.recv_of_down hd),
        congrArg Host.Outcome.next (if_neg (by rcases hd with h | h <;> simp [h]))⟩
    · rintro hon hup hn rfl
      exact ⟨congrArg Host.Outcome.next (State.recv_of_known hon hup hn), congrArg Host.Outcome.next (State.recv_of_known hon hup hn),
        congrArg Host.Outcome.next (State.recv_of_known hon hup hn), congrArg Host.Outcome.next (State.recv_of_known hon hup hn),
        congrArg Host.Outcome.next (if_neg (by simp [hn]))⟩
  case releasedKept =>
    rintro t seq mask s _ hs rfl hon hup hn hr
    refine ⟨_, congrArg Host.Outcome.next ((State.recv_of_new hon hup hn rfl).trans (congrArg State.readyShow
      (State.takeCheck_of_role hr))), ?_⟩
    exact ⟨congrArg Twin.released State.readyShow_twin, congrArg Twin.seqIn State.readyShow_twin⟩
  case headrecShown =>
    rintro t seq p off data s _ hs rfl hon hup hn hm
    obtain ⟨v, hv⟩ : ∃ v, (s.advance t).setTwin { (s.advance t).twin with
      unacked := ackUpTo seq.ack.toNat (s.advance t).twin.unacked, seqIn := seq.seq.toNat } = v := ⟨_, rfl⟩
    have hvm : v.on (HPT_BUSST_MASTER (p / 8)) = false := by rw [← hv]; exact hm
    obtain ⟨w, hw⟩ : ∃ w, v.putHeadBytes p off.toNat ((leBytes 128 data.toNat).map BitVec.toNat) = w := ⟨_, rfl⟩
    have hw1 : SMap.wf regReset w.regs = true := by rw [← hw, State.putHeadBytes_regs, ← hv]; exact (State.advance_kept s t hs.kept).canonical.1
    obtain ⟨hmem, htype, hstat⟩ := (w.headFill p).headSet_keeps p
    have hshow : ∀ b : Nat, b ≠ TWN_STATE → ((w.headFill p).headSet p).readyShow.reg b = ((w.headFill p).headSet p).reg b :=
      fun b hb => State.reg_readyShow_ne hb
    refine ⟨((w.headFill p).headSet p).readyShow, ?_, ?_, ?_⟩
    · rw [← hw]
      exact congrArg Host.Outcome.next ((State.recv_of_new hon hup hn hv).trans (congrArg State.readyShow
        (if_neg (by rw [hvm]; exact Bool.false_ne_true))))
    · have hfld : ((w.headFill p).headSet p).readyShow.on (HPT_HSTAT_PRESENT p) = (w.headFill p).on (HPT_HSTAT_PRESENT p) :=
        congrArg (fun x : Word => bitsOf x.toNat 0 1 != 0)
          ((hshow _ (by simp only [HPT_HSTAT, TWN_STATE]; omega)).trans hstat)
      rw [hfld, State.headFill_present hw1]
    · have hbytes : ((w.headFill p).headSet p).readyShow.headBytes p 0x10 4 = w.headBytes p 0x10 4 := by
        simp only [State.headBytes, State.headByte, State.readyShow_headMem, hmem, State.headFill_headMem]
      rw [hbytes, hshow _ (by simp only [HPT_HTYPE, TWN_STATE]; omega), htype, State.reg_headFill_type hw1]
  case thermKept =>
    rintro t seq p b s _ hs rfl hon hup hn hr
    refine ⟨_, congrArg Host.Outcome.next ((State.recv_of_new hon hup hn rfl).trans (congrArg State.readyShow
      (if_neg fun h => hr h.1))), ?_⟩
    exact ⟨congrArg Twin.seqIn State.readyShow_twin, State.readyShow_heads⟩

end Sys2Proof.Machine
end

section
/-! PROOF. The heartbeat, the takeover and the configuration digest (R317, R320, R324, R335, R336). -/

namespace Sys2Proof.Machine

open Sys2Proof

variable {s : State}

/-! ### What the transport outputs leave -/

theorem State.trimSettle_twin_splice (n : Nat) : (s.trimSettle n).twin = s.twin ∧ (s.trimSettle n).splice = s.splice := by
  have hmod (t : State) (f : Head → Head) : (t.modHead n f).twin = t.twin ∧ (t.modHead n f).splice = t.splice := ⟨rfl, rfl⟩
  have hset (b : Bool) : (s.setSettled n b).twin = s.twin ∧ (s.setSettled n b).splice = s.splice := by
    unfold State.setSettled
    repeat' split
    all_goals exact ⟨rfl, rfl⟩
  simp only [State.trimSettle, apply_ite State.twin, apply_ite State.splice, (hmod _ _).1, (hmod _ _).2, (hset _).1, (hset _).2, ite_self,
    and_self]

theorem State.retarget_twin_splice (n : Nat) : (s.retarget n).twin = s.twin ∧ (s.retarget n).splice = s.splice := by
  simp [State.retarget, State.setBit, State.setFld, apply_ite State.twin, apply_ite State.splice, State.trimSettle_twin_splice]

theorem State.setWant_twin_splice (n : Nat) (c : Int) : (s.setWant n c).twin = s.twin ∧ (s.setWant n c).splice = s.splice := by
  simp [State.setWant, apply_ite State.twin, apply_ite State.splice, State.retarget_twin_splice]

theorem State.trnShow_twin_splice : s.trnShow.twin = s.twin ∧ s.trnShow.splice = s.splice := by
  simp [State.trnShow, State.setBit, State.setFld, apply_ite State.twin, apply_ite State.splice, State.setWant_twin_splice]

/-! ### Becoming ACTIVE (R317, R336) -/

/-- Every trained port is to be driven. -/
def State.portsWant (s : State) : State :=
  (List.range 64).foldl (fun s h =>
    if s.on (HPT_HSTAT_TRAINED h) then s.modHead h (fun x => { x with mode := some 1, modeTw := true }) else s) s

theorem State.portsWant_keeps : s.portsWant.regs = s.regs ∧ s.portsWant.twin = s.twin ∧ s.portsWant.splice = s.splice := by
  refine List.foldlRecOn (motive := fun t : State => t.regs = s.regs ∧ t.twin = s.twin ∧ t.splice = s.splice) _ _ ⟨rfl, rfl, rfl⟩ ?_
  intro t ht h _
  split
  · exact ht
  · exact ht

/-- The role ACTIVE, with the mastership of the pair. -/
def State.activeRole (s : State) : State := (s.setFld TWN_STATE_ROLE roACTIVE).setTwin { s.twin with
  mast := true, take := false, wait_ := false, swap := false, failed := false, released := 0, ret := none, handAt := s.clk - 16 }

theorem State.activate_eq :
    s.activate = (s.activeRole.portsWant.busTake.setDriven 64 (s.activeRole.portsWant.on TRN_CTL_MASTER)).trnShow := rfl

theorem State.activate_splice : s.activate.splice = s.splice := by
  have hb (t : State) (b : Bool) : (t.busTake.setDriven 64 b).splice = t.splice := rfl
  rw [State.activate_eq, State.trnShow_twin_splice.2, hb, State.portsWant_keeps.2.2, State.activeRole]
  rfl

theorem State.activate_twin : s.activate.twin.take = false ∧ s.activate.twin.mast = true := by
  have htake (t : State) (b : Bool) : (t.busTake.setDriven 64 b).twin.take = t.twin.take := rfl
  have hmast (t : State) (b : Bool) : (t.busTake.setDriven 64 b).twin.mast = t.twin.mast := rfl
  rw [State.activate_eq, State.trnShow_twin_splice.1, htake, hmast, State.portsWant_keeps.2.1, State.activeRole]
  exact ⟨rfl, rfl⟩

theorem State.reg_activate {a : Nat} (h : a ∉ trnRegs) : s.activate.reg a = (s.setFld TWN_STATE_ROLE roACTIVE).reg a := by
  have hout : a ≠ TRM_OUT 64 := fun he => h (by rw [he]; decide)
  have hbus (t : State) : t.busTake.reg a = t.reg a := rfl
  have hports (t : State) : t.portsWant.reg a = t.reg a := congrArg (fun m => SMap.get regReset m a) State.portsWant_keeps.1
  rw [State.activate_eq, State.reg_trnShow h, State.reg_setDriven _ hout, hbus, hports, State.activeRole]
  rfl

theorem State.role_activate : s.activate.role = roACTIVE := by
  have hreg : s.activate.reg TWN_STATE = (s.setFld TWN_STATE_ROLE roACTIVE).reg TWN_STATE := State.reg_activate (by decide)
  exact (congrArg (fun w : Word => bitsOf w.toNat 0 3) hreg).trans (State.role_setRole (by decide) (by decide))

theorem State.twinCauseOver_keeps : s.twinCauseOver.twin = s.twin ∧ ∀ a, a ≠ TRN_CAUSE → s.twinCauseOver.reg a = s.reg a := by
  unfold State.twinCauseOver
  split
  · exact ⟨rfl, fun a ha => State.reg_setReg_ne _ _ ha⟩
  · exact ⟨rfl, fun _ _ => rfl⟩

/-! ### The heartbeat (R320) -/

theorem State.aliveEdge_of_second (hs : s.twinStrap = true) (hw : s.awake = true) {e d : Nat} {r : List Nat} (he : s.twin.edge = some e)
    (hi : s.twin.ivals = d :: r) {v : State} (hv : s.setTwin { s.twin with edge := some s.clk, ivals := [s.clk - e, d] } = v) :
    s.aliveEdge = (v.setFld TWN_STATE_PALIVE (if s.clk - e < 200 ∧ d < 200 then 2 else 1)).takeCheck := by
  have htake : ((s.clk - e) :: d :: r).take 2 = [s.clk - e, d] := rfl
  simp only [State.aliveEdge, hs, hw, he, hi, htake, hv, Bool.not_true, Bool.or_self, Bool.false_eq_true, if_false, List.length_cons,
    List.length_nil, List.all_cons, List.all_nil, Bool.and_true, Bool.and_eq_true, beq_iff_eq, decide_eq_true_eq, true_and]

theorem State.aliveEdge_of_first (hs : s.twinStrap = true) (hw : s.awake = true) (he : s.twin.edge = none) {v : State}
    (hv : s.setTwin { s.twin with edge := some s.clk, ivals := [] } = v) : s.aliveEdge = (v.setFld TWN_STATE_PALIVE 1).takeCheck := by
  simp only [State.aliveEdge, hs, hw, he, hv, Bool.not_true, Bool.or_self, Bool.false_eq_true, if_false]
  rfl

theorem State.aliveDead_of_alive {e : Nat} (he : s.twin.edge = some e) (hw : s.awake = true) (hp : s.fld TWN_STATE_PALIVE ≠ 0) :
    s.aliveDead = if e + 400 * s.fld TWN_HB_HBTO ≤ s.clk then ((s.setFld TWN_STATE_PALIVE 0).setTwin
      { s.twin with deadAt := s.clk, ivals := [], edge := none }).takeCheck else s := by
  have hp' : (s.fld TWN_STATE_PALIVE != 0) = true := bne_iff_ne.2 hp
  by_cases hd : e + 400 * s.fld TWN_HB_HBTO ≤ s.clk
  · have hdue : decide (e + usClk (s.fld TWN_HB_HBTO) ≤ s.clk) = true := decide_eq_true hd
    simp only [State.aliveDead, he, hw, hp', hdue, hd, Bool.and_self, if_true]
  · have hdue : decide (e + usClk (s.fld TWN_HB_HBTO) ≤ s.clk) = false := decide_eq_false hd
    simp only [State.aliveDead, he, hw, hp', hdue, hd, Bool.and_false, Bool.false_eq_true, if_false]

/-! ### CONFIRM and TAKEOVER (R335, R336) -/

theorem State.confirm_of_present (h : s.partnerGone = false) : s.confirm = s := if_pos (by simp [h])

theorem State.confirm_of_standby (hon : s.twinOn = true) (hg : s.partnerGone = true) (hr : s.role = roSTANDBY) :
    s.confirm = s.setTwin { s.twin with take := true } := by
  have h1 : ¬ s.role = roINIT := by rw [hr]; decide
  have h2 : ¬ s.role = roPRIME := by rw [hr]; decide
  simp only [State.confirm, hon, hg, if_neg h1, if_neg h2, if_pos hr, Bool.not_true, Bool.or_self, Bool.false_eq_true, if_false]

theorem State.confirm_of_init (hon : s.twinOn = true) (hg : s.partnerGone = true) (hr : s.role = roINIT) :
    s.confirm = (s.setFld TWN_STATE_ROLE roPRIME).primeStep := by
  simp only [State.confirm, hon, hg, hr, Bool.not_true, Bool.or_self, Bool.false_eq_true, if_false, if_true]

section
variable (hon : s.twinOn = true) (hr : s.role = roSTANDBY) (ht : s.twin.take = true) (hf : s.twin.failed = false) {v : State}
  (hv : s.activate = v)
include hon hr ht hf hv

theorem State.takeover_of_unarmed (ha : v.armed = false) (hsp : v.splice.active = false) {w : State}
    (hw : (v.countReg TWN_SWCNT 1).setOn TWN_STATE_SWITCHED = w) (hwa : w.armed = false) : s.takeover = w.twinCauseOver.readyShow := by
  simp only [State.takeover, hon, hr, ht, hf, hv, ha, hsp, hw, hwa, Bool.not_true, Bool.or_self, Bool.false_eq_true, if_false, Bool.false_and,
    Bool.and_false, beq_self_eq_true, Bool.true_or]

theorem State.takeover_of_armed (ha : v.armed = true) {w : State} (hw : (v.raiseCause 5).takeCauses.spliceRequest.twinResume = w)
    (hsp : w.splice.active = false) {x : State} (hx : (w.countReg TWN_SWCNT 1).setOn TWN_STATE_SWITCHED = x) :
    s.takeover = ((if x.actMaster && x.armed then x.sendState else x).twinCauseOver).readyShow := by
  simp only [State.takeover, hon, hr, ht, hf, hv, ha, hsp, hw, hx, Bool.not_true, Bool.or_self, Bool.false_eq_true, if_false, Bool.false_and,
    if_true, beq_self_eq_true, Bool.true_or]
end

theorem State.takeover_of_none (h : s.twinOn = false ∨ (s.role ≠ roSTANDBY ∧ s.role ≠ roPRIME) ∨ s.twin.take = false) : s.takeover = s :=
  if_pos (by rcases h with h | ⟨h1, h2⟩ | h <;> simp [*])

/-- Settles O50: each part of the twin's life takes the branch that its guards name. -/
theorem twinLifeRuns : Obligations.TwinLifeRuns := by
  refine ⟨?edge, ?firstEdge, ?dead, ?toggle, ?noToggle, fun s => rfl, ?confirm, ?confirmInit, ?confirmPresent, ?takeover, ?noTakeover,
    ?takeoverArmed, ?digest, ?noDigest, ?taken, ?digestShown⟩
  case edge =>
    rintro t s _ v e d r rfl hs hw he hi hv
    exact congrArg Host.Outcome.next (State.aliveEdge_of_second hs hw he hi hv)
  case firstEdge =>
    rintro t s _ v rfl hs hw he hv
    exact congrArg Host.Outcome.next (State.aliveEdge_of_first hs hw he hv)
  case dead =>
    rintro t s _ e rfl he hw hp
    exact congrArg Host.Outcome.next (State.aliveDead_of_alive he hw hp)
  case toggle =>
    rintro t s _ rfl hs hw hd ht
    exact congrArg Host.Outcome.next (if_pos (by simp [hs, hw, hd, ht]))
  case noToggle =>
    rintro t s _ rfl h
    exact congrArg Host.Outcome.next (if_neg (by rcases h with h | h | h | h <;> simp [h]))
  case confirm =>
    rintro t s _ rfl hon hg hr
    exact congrArg Host.Outcome.next (congrArg State.readyShow (State.confirm_of_standby hon hg hr))
  case confirmInit =>
    rintro t s _ rfl hon hg hr
    exact congrArg Host.Outcome.next (congrArg State.readyShow (State.confirm_of_init hon hg hr))
  case confirmPresent =>
    rintro t s _ rfl hg
    exact congrArg Host.Outcome.next (congrArg State.readyShow (State.confirm_of_present hg))
  case takeover =>
    rintro t s _ v w rfl hon hr ht hf hv ha hsp hw hwa
    exact congrArg Host.Outcome.next (State.takeover_of_unarmed hon hr ht hf hv ha hsp hw hwa)
  case noTakeover =>
    rintro t s _ rfl h
    exact congrArg Host.Outcome.next (State.takeover_of_none h)
  case takeoverArmed =>
    rintro t s _ v w rfl hon hr ht hf hv ha _ hw hsp
    exact congrArg Host.Outcome.next (State.takeover_of_armed hon hr ht hf hv ha hw hsp rfl)
  case digest =>
    rintro t s _ v rfl hon ha hd rfl
    exact congrArg Host.Outcome.next (if_pos (by simp [hon, ha, hd]))
  case noDigest =>
    rintro t s _ rfl h
    exact congrArg Host.Outcome.next (if_neg (by rcases h with h | h | h <;> simp [h]))
  case taken =>
    rintro t s _ hs rfl hon hr ht hf ha hsp
    obtain ⟨v, hv⟩ : ∃ v, (s.advance t).activate = v := ⟨_, rfl⟩
    have harm (a b : State) (h : a.reg HIF_CTL = b.reg HIF_CTL) : a.armed = b.armed := congrArg (fun w : Word => bitsOf w.toNat _ _ != 0) h
    have hva : v.armed = false := by
      rw [← hv]
      exact (harm _ _ ((State.reg_activate (by decide)).trans (State.reg_setFld_ne _ _ _ (by decide)))).trans ha
    have hvs : v.splice.active = false := by rw [← hv, State.activate_splice]; exact hsp
    obtain ⟨w, hw⟩ : ∃ w, (v.countReg TWN_SWCNT 1).setOn TWN_STATE_SWITCHED = w := ⟨_, rfl⟩
    have hwa : w.armed = false := by
      rw [← hw]
      exact (harm _ _ ((State.reg_setFld_ne _ _ _ (by decide)).trans (State.reg_setReg_ne _ _ (by decide)))).trans hva
    have hvc : v.canonical := by rw [← hv]; exact (State.activate_kept _ (State.advance_kept s t hs.kept)).canonical
    have hcc : (v.countReg TWN_SWCNT 1).canonical := hvc.setReg _ _
    have hwc : w.canonical := by rw [← hw]; exact hcc.setFld _ _
    have hover : w.twinCauseOver.canonical := (State.twinCauseOver_kept _ hwc.kept).canonical
    have hfld (f : Fld) (hf1 : f.addr = TWN_STATE) : w.twinCauseOver.fld f = w.fld f :=
      congrArg (fun x : Word => bitsOf x.toNat _ _) (State.twinCauseOver_keeps.2 _ (by rw [hf1]; decide))
    refine ⟨w.twinCauseOver.readyShow, congrArg Host.Outcome.next (State.takeover_of_unarmed hon hr ht hf hv hva hvs hw hwa), ?_, ?_, ?_, ?_⟩
    · rw [State.role, State.fld_readyShow_beside hover rfl (by decide), hfld _ rfl, ← hw, State.setOn,
        State.fld_setFld_beside hcc.1 TWN_STATE_SWITCHED TWN_STATE_ROLE _ rfl (by decide) (by decide), ← State.role]
      have hrole : (v.countReg TWN_SWCNT 1).role = v.role :=
        congrArg (fun x : Word => bitsOf x.toNat 0 3) (State.reg_setReg_ne _ _ (by decide))
      rw [hrole, ← hv, State.role_activate]
    · rw [State.on, State.fld_readyShow_beside hover rfl (by decide), hfld _ rfl, ← hw, State.setOn,
        State.fld_setFld_same hcc.1 _ _ (by decide)]
      rfl
    · have htake : w.twin.take = v.twin.take := by rw [← hw]; rfl
      exact (congrArg Twin.take State.readyShow_twin).trans ((congrArg Twin.take State.twinCauseOver_keeps.1).trans
        (htake.trans (by rw [← hv]; exact State.activate_twin.1)))
    · have hmast : w.twin.mast = v.twin.mast := by rw [← hw]; rfl
      exact (congrArg Twin.mast State.readyShow_twin).trans ((congrArg Twin.mast State.twinCauseOver_keeps.1).trans
        (hmast.trans (by rw [← hv]; exact State.activate_twin.2)))
  case digestShown =>
    rintro t s _ hs rfl hon ha hd
    have hu : (s.advance t).canonical := (State.advance_kept s t hs.kept).canonical
    refine ⟨_, congrArg Host.Outcome.next (if_pos (by simp [hon, ha, hd])), ?_, congrArg Twin.digest State.readyShow_twin⟩
    exact (State.reg_readyShow_ne (by decide)).trans (State.reg_setReg_same hu.1 _ _)

end Sys2Proof.Machine
end

section
/-! PROOF. The trim channels (R346 to R352). -/

namespace Sys2Proof.Machine

open Sys2Proof

variable {s : State}

theorem bitAt_toNat {w : Nat} (v : BitVec w) (i : Nat) : bitAt v.toNat i = v.getLsbD i := rfl

/-! ### One step (R346) -/

theorem State.trimStep_of_due {n : Nat} (hp : s.fld PWR_STAT_STATE = 0) (hne : s.fld (TRM_OUT_OUT n) ≠ s.fld (TRM_OUT_TARGET n))
    (ht : s.timerOver (tmTrim n) (400 * slewUs (s.trimSlewCode n)) = true) : s.trimStep n =
      (s.setOut n (if s.fld (TRM_OUT_OUT n) < s.fld (TRM_OUT_TARGET n) then s.fld (TRM_OUT_OUT n) + 1 else s.fld (TRM_OUT_OUT n) - 1)).startTimer
        (tmTrim n) :=
  if_pos (by
    have ht' : s.timerOver (tmTrim n) (usClk (slewUs (s.trimSlewCode n))) = true := ht
    simp [hp, hne, ht'])

theorem State.trimStep_of_none {n : Nat} (h : s.fld PWR_STAT_STATE ≠ 0 ∨ s.fld (TRM_OUT_OUT n) = s.fld (TRM_OUT_TARGET n) ∨
    s.timerOver (tmTrim n) (400 * slewUs (s.trimSlewCode n)) = false) : s.trimStep n = s :=
  if_neg (by
    rcases h with h | h | h
    · simp [h]
    · simp [h]
    · have h' : s.timerOver (tmTrim n) (usClk (slewUs (s.trimSlewCode n))) = false := h
      simp [h'])

theorem State.reg_trimSettle_out (n : Nat) : (s.trimSettle n).reg (TRM_OUT n) = s.reg (TRM_OUT n) :=
  State.reg_trimSettle (by
    simp only [settledRegs, List.mem_cons, List.not_mem_nil, or_false, TRM_OUT, TRM_SETTLEDLO, TRM_SETTLEDHI, TRM_SETTLEDAUX]
    omega)

theorem State.setOut_shown (hs : s.canonical) {n c : Nat} (hn : n < 68) (hne : s.fld (TRM_OUT_OUT n) ≠ c) (hc : c < 2 ^ 14) :
    (s.setOut n c).fld (TRM_OUT_OUT n) = c ∧ (s.setOut n c).fld (TRM_OUT_TARGET n) = s.fld (TRM_OUT_TARGET n) := by
  obtain ⟨u, hu⟩ : ∃ u : State, { s with trims := { s.trims with changed := s.trims.changed.set (fun _ => 0) n s.clk } } = u := ⟨_, rfl⟩
  have hur : u.regs = s.regs := by rw [← hu]
  have huw : SMap.wf regReset u.regs = true := by rw [hur]; exact hs.1
  have hreg : (s.setOut n c).reg (TRM_OUT n) = (u.setFld (TRM_OUT_OUT n) c).reg (TRM_OUT n) := by
    have hout : ∀ t : State, (t.setFld TRN_DEMAND_OUT c).reg (TRM_OUT n) = t.reg (TRM_OUT n) :=
      fun t => State.reg_setFld_ne _ _ _ (by simp only [TRM_OUT, TRN_DEMAND]; omega)
    simp only [State.setOut, hne, if_false, apply_ite (fun t : State => t.reg (TRM_OUT n)), hout, ite_self, hu, State.reg_trimSettle_out]
  have hfld (f : Fld) (hf : f.addr = TRM_OUT n) : (s.setOut n c).fld f = (u.setFld (TRM_OUT_OUT n) c).fld f := by
    rw [State.fld, State.fld, hf, hreg]
  have hus (f : Fld) : u.fld f = s.fld f := congrArg (fun m => bitsOf (SMap.get regReset m f.addr).toNat f.lo f.width) hur
  refine ⟨?_, ?_⟩
  · rw [hfld _ rfl, State.fld_setFld_same huw _ _ (by simp)]
    exact Nat.mod_eq_of_lt hc
  · rw [hfld _ rfl, State.fld_setFld_beside huw (TRM_OUT_OUT n) (TRM_OUT_TARGET n) _ rfl (.inl (by simp)) (by simp), hus]

/-! ### The ceiling and the auxiliary channels (R348, R349) -/

section
variable {j : Nat} {v : Word} {u : State} (hu : s.setReg (TRM_CEIL j) (v &&& 0x3FFF#32) = u)
include hu

theorem State.ceilRaises_eq : s.ceilRaises j v = decide (s.trimCeil < u.trimCeil) := by rw [State.ceilRaises, hu]

theorem State.ceilWrite_of_lower (h : u.trimCeil ≤ s.trimCeil) : s.ceilWrite j v false =
    (u.tripCheck tripBitCeil (u.reg (TRM_CEIL 0)) (u.reg (TRM_CEIL 1)) (u.reg (TRM_CEIL 2))).retargetAll := by
  have hr : s.ceilRaises j v = false := by rw [State.ceilRaises_eq hu]; exact decide_eq_false (Nat.not_lt.2 h)
  simp only [State.ceilWrite, hr, hu, Bool.not_false, if_true]

theorem State.ceilWrite_of_authorised (h : s.trimCeil < u.trimCeil) (ha : s.authOk 5 0 = true) {w : State} (hw : u.authUse = w) :
    s.ceilWrite j v false =
      (w.tripCheck tripBitCeil (w.reg (TRM_CEIL 0)) (w.reg (TRM_CEIL 1)) (w.reg (TRM_CEIL 2))).retargetAll := by
  have hr : s.ceilRaises j v = true := by rw [State.ceilRaises_eq hu]; exact decide_eq_true h
  simp only [State.ceilWrite, hr, hu, ha, hw, Bool.not_true, Bool.false_eq_true, if_false, Bool.false_and, Bool.not_false, Bool.and_self, if_true]

theorem State.ceilWrite_of_unauthorised (h : s.trimCeil < u.trimCeil) (ha : s.authOk 5 0 = false) (hearth : Bool) :
    s.ceilWrite j v hearth = s.refuse erPROTECT (TRM_CEIL j) := by
  have hr : s.ceilRaises j v = true := by rw [State.ceilRaises_eq hu]; exact decide_eq_true h
  simp only [State.ceilWrite, hr, ha, Bool.not_true, Bool.false_eq_true, if_false, Bool.false_and]
end

section
variable {k : Nat} {v : Word}

theorem State.auxWrite_of_owned (ho : s.fld (TRM_AUX_OWNER k) = 2) : s.auxWrite k v false = s.refuse erOWNED (TRM_AUX k) :=
  if_pos (by rw [ho]; decide)

theorem State.auxWrite_of_release (ho : s.fld (TRM_AUX_OWNER k) = 1) (hc : v.getLsbD 20 = false) : s.auxWrite k v false =
    (((s.setFld (TRM_AUX_CLAIM k) 0).setFld (TRM_AUX_OWNER k) 0).setWant (65 + k) 0).setDriven (65 + k) (!s.twinStrap) := by
  have hc' : bitAt v.toNat 20 = false := hc
  simp only [State.auxWrite, ho, hc', Bool.false_eq_true, if_false, ne_eq, not_true_eq_false, and_false, if_true]

theorem State.auxWrite_of_claim (ho : s.fld (TRM_AUX_OWNER k) = 0) (hc : v.getLsbD 20 = true) (hs : bitsOf v.toNat 16 4 ≠ 0) :
    s.auxWrite k v false = (((((s.setFld (TRM_AUX_CODE k) (bitsOf v.toNat 0 14)).setFld (TRM_AUX_SLEW k) (bitsOf v.toNat 16 4)).setOn
      (TRM_AUX_CLAIM k)).setFld (TRM_AUX_OWNER k) 1).setWant (65 + k) (bitsOf v.toNat 0 14 : Nat)).setDriven (65 + k) true := by
  have hc' : bitAt v.toNat 20 = true := hc
  simp only [State.auxWrite, ho, hc', hs, Bool.false_eq_true, if_false, ne_eq, not_true_eq_false, false_and, if_true]
end

/-! ### Self-measurement and corrections (R351, R352) -/

theorem State.monitor_of_on (hm : s.on TRM_CTL_MONEN = true) (hw : s.awake = true) (hd : s.on RST_STAT_DONE = true) {v : Nat} {w : State}
    (h : ({ s with trims := { s.trims with next := (s.trims.next + 1) % 71 } } : State) = w) : s.monitor v =
      if s.trims.next < 68 then w.measure s.trims.next v else w.setFld (TRM_MONX_VALUE (s.trims.next - 68)) v := by
  simp only [State.monitor, hm, hw, hd, h, Bool.and_self, if_true]

theorem State.measure_of_unsettled {n : Nat} (h : s.clk < s.trims.changed.get (fun _ => 0) n + 8000) (v : Nat) :
    s.measure n v = s.setReg (TRM_MEAS n) (BitVec.ofNat 32 v) := by
  have hs : decide (s.trims.changed.get (fun _ => 0) n + usClk 20 ≤ s.clk) = false := decide_eq_false (Nat.not_le.2 h)
  simp only [State.measure, hs, Bool.not_false, if_true, b2n, Bool.false_eq_true, if_false, Nat.mul_zero, Nat.add_zero]

theorem State.trimLoaded_of_load (hl : s.trims.load = true) (hw : s.awake = true) (ok : Bool) : s.trimLoaded ok =
    (((({ s with trims := { s.trims with load := false } } : State).setOn TRM_STAT_LOADED).setBit TRM_STAT_OTPBAD (!ok)).nominal).retargetAll :=
  if_neg (by simp [hl, hw])

theorem State.trimLoaded_of_none (h : s.trims.load = false ∨ s.awake = false) (ok : Bool) : s.trimLoaded ok = s :=
  if_pos (by rcases h with h | h <;> simp [h])

/-- A register outside the trim channels' own stands as their targets are brought up to date. -/
theorem State.reg_retargetAll {a : Nat} (h : a < TRM_OUT 0) (hset : a ∉ settledRegs) : s.retargetAll.reg a = s.reg a := by
  refine List.foldlRecOn (motive := fun t : State => t.reg a = s.reg a) _ _ rfl fun t ht n _ => ?_
  refine (State.reg_retarget fun hm => ?_).trans ht
  rcases List.mem_cons.1 hm with he | he
  · simp only [TRM_OUT] at h he
    omega
  · exact hset he

theorem State.trimSettle_trims (n : Nat) : (s.trimSettle n).trims = s.trims := by
  unfold State.trimSettle State.setSettled
  dsimp only
  repeat' split
  all_goals rfl

theorem State.retarget_trims (n : Nat) : (s.retarget n).trims = s.trims := by
  simp [State.retarget, State.setBit, State.setFld, apply_ite State.trims, State.trimSettle_trims]

theorem State.retargetAll_trims : s.retargetAll.trims = s.trims :=
  List.foldlRecOn (motive := fun t : State => t.trims = s.trims) _ _ rfl fun _ ht n _ => (State.retarget_trims n).trans ht

/-- Settles O52: an output moves one code towards its target, and the other commands of the trim block take the branch that their guards
name. -/
theorem trimChannelsSlewOneCode : Obligations.TrimChannelsSlewOneCode := by
  refine ⟨?slew, ?stays, by decide, ?lower, ?raise, ?refused, ?owned, ?release, ?claim, ?monitor, fun s n v h => State.measure_of_unsettled h v,
    ?monitorOff, fun ok s hl hw => congrArg Host.Outcome.next (State.trimLoaded_of_load hl hw ok),
    fun ok s h => congrArg Host.Outcome.next (State.trimLoaded_of_none h ok), ?loaded⟩
  case slew =>
    rintro t n s _ hs rfl hp hne ht
    have hu : (s.advance t).canonical := (State.advance_kept s t hs.kept).canonical
    have hlt (f : Fld) (hf : f.width = 14) : (s.advance t).fld f < 2 ^ 14 := by rw [← hf]; exact Nat.mod_lt _ (Nat.two_pow_pos _)
    have h1 := hlt (TRM_OUT_OUT n) rfl
    have h2 := hlt (TRM_OUT_TARGET n) rfl
    obtain ⟨hout, htarget⟩ := State.setOut_shown hu n.isLt (c := if (s.advance t).fld (TRM_OUT_OUT n) < (s.advance t).fld (TRM_OUT_TARGET n)
      then (s.advance t).fld (TRM_OUT_OUT n) + 1 else (s.advance t).fld (TRM_OUT_OUT n) - 1) (by split <;> omega) (by split <;> omega)
    exact ⟨_, congrArg Host.Outcome.next (State.trimStep_of_due hp hne ht), htarget, hout⟩
  case stays =>
    rintro t n s _ rfl h
    exact congrArg Host.Outcome.next (State.trimStep_of_none h)
  case lower =>
    intro j v s u hb hu h
    exact congrArg Host.Outcome.next ((State.bar_of_served hb _).trans (State.ceilWrite_of_lower hu h))
  case raise =>
    intro j v s u w hb hu h ha hw
    exact congrArg Host.Outcome.next ((State.bar_of_served hb _).trans (State.ceilWrite_of_authorised hu h ha hw))
  case refused =>
    intro j v s u hb hu h ha
    exact congrArg Host.Outcome.next ((State.bar_of_served hb _).trans (State.ceilWrite_of_unauthorised hu h ha false))
  case owned =>
    intro k v s hb ho
    exact congrArg Host.Outcome.next ((State.byWriter_of_allowed (fun h => absurd h (by decide)) _).trans ((State.bar_of_served hb _).trans (State.auxWrite_of_owned ho)))
  case release =>
    intro k v s hb ho hc
    exact congrArg Host.Outcome.next ((State.byWriter_of_allowed (fun h => absurd h (by decide)) _).trans ((State.bar_of_served hb _).trans (State.auxWrite_of_release ho hc)))
  case claim =>
    intro k v s hb ho hc hs
    exact congrArg Host.Outcome.next ((State.byWriter_of_allowed (fun h => absurd h (by decide)) _).trans ((State.bar_of_served hb _).trans (State.auxWrite_of_claim ho hc hs)))
  case monitor =>
    rintro t v s _ w rfl hm hw hd h
    exact congrArg Host.Outcome.next (State.monitor_of_on hm hw hd h)
  case monitorOff =>
    rintro t v s _ rfl hm
    exact congrArg Host.Outcome.next (if_neg (by simp [hm]))
  case loaded =>
    intro ok s hs hl hw
    obtain ⟨u, hu⟩ : ∃ u : State, { s with trims := { s.trims with load := false } } = u := ⟨_, rfl⟩
    have huw : SMap.wf regReset u.regs = true := by rw [← hu]; exact hs.1
    have h1 := State.wf_setFld huw TRM_STAT_LOADED 1
    have h2 := State.wf_setFld h1 TRM_STAT_OTPBAD (b2n (!ok))
    obtain ⟨w, hw'⟩ : ∃ w, ((u.setOn TRM_STAT_LOADED).setBit TRM_STAT_OTPBAD (!ok)).nominal = w := ⟨_, rfl⟩
    have hfld (f : Fld) (hf : f.addr = TRM_STAT) : w.retargetAll.fld f = w.fld f := by
      have hreg : w.retargetAll.reg TRM_STAT = w.reg TRM_STAT := State.reg_retargetAll (by decide) (by decide)
      rw [State.fld, State.fld, hf, hreg]
    refine ⟨w.retargetAll, congrArg Host.Outcome.next ((State.trimLoaded_of_load hl hw ok).trans (by rw [hu, hw'])), ?_, ?_, ?_⟩
    · rw [State.on, hfld _ rfl, ← hw', State.nominal, State.setBit, State.setBit, State.setOn,
        State.fld_setFld_beside h2 TRM_STAT_NOMINAL TRM_STAT_LOADED _ rfl (by decide) (by decide),
        State.fld_setFld_beside h1 TRM_STAT_OTPBAD TRM_STAT_LOADED _ rfl (by decide) (by decide), State.fld_setFld_same huw _ _ (by decide)]
      rfl
    · rw [State.on, hfld _ rfl, ← hw', State.nominal, State.setBit, State.setBit, State.setOn,
        State.fld_setFld_beside h2 TRM_STAT_NOMINAL TRM_STAT_OTPBAD _ rfl (by decide) (by decide), State.fld_setFld_same h1 _ _ (by decide)]
      cases ok <;> rfl
    · rw [State.retargetAll_trims, ← hw', ← hu]
      rfl

end Sys2Proof.Machine
end

section
/-! PROOF. Physical-presence authorisation (R409 to R411). -/

namespace Sys2Proof.Machine

open Sys2Proof

variable {s : State}

/-! ### The check of a protected operation -/

theorem State.authOk_iff (op p : Nat) : s.authOk op p = true ↔ s.fld SVC_ASTAT_STATE = auARMED ∧ s.fld SVC_ASTAT_OP = op ∧
    (op = 3 → s.fld SVC_ASTAT_PORT = p) := by
  simp only [State.authOk, Bool.and_eq_true, beq_iff_eq, Bool.or_eq_true, bne_iff_ne, and_assoc, ← imp_iff_not_or, ne_eq]

/-- A check that answers 0 has found no fault on its way. -/
theorem eq_zero_of_ite {c : Prop} [Decidable c] {e x : Nat} (he : e ≠ 0) (h : (if c then e else x) = 0) : ¬ c ∧ x = 0 := by
  by_cases hc : c
  · rw [if_pos hc] at h
    exact absurd h he
  · exact ⟨hc, by rwa [if_neg hc] at h⟩

section
variable {c : Nat} (hc : 1 ≤ c ∧ c ≤ 7)
include hc

/-- The checks before those of the command's own kind. -/
theorem State.mbxJudge_eq (h1 : c ≠ mcVERSION) (h6 : c ≠ mcGOLDEN) (h2 : c ≠ mcHEADREAD) : s.mbxJudge c =
    if !s.fwRuns && c != mcFLASHWRITE then stsNOFW
    else if 256 < s.fld SVC_MBXCMD_LEN then stsBADARG
    else if c = mcRANKWRITE then
      if decide (63 < s.reqField 0 1) || decide (s.storeSize < s.reqField 1 8 + 2336) then stsBADARG
      else if s.armed then stsARMED
      else if !s.headHere (s.reqField 0 1) then stsNOHEAD
      else if !s.authOk 3 (s.reqField 0 1) then stsPROTECT else 0
    else if c = mcFLASHWRITE then
      if decide (s.storeSize < s.reqField 0 8 + s.reqField 8 4) || s.reqField 8 4 == 0 || decide (4 * mib < s.reqField 8 4) then stsBADARG
      else if s.armed then stsARMED else if !s.authOk 2 0 then stsPROTECT else 0
    else if c = mcOTPPROG then
      if 63 < s.reqField 0 2 then stsBADARG else if s.armed then stsARMED else if !s.authOk 1 0 then stsPROTECT else 0
    else if c = mcRETRAIN then
      if 63 < s.reqField 0 1 then stsBADARG else if s.armed then stsARMED else if !s.headHere (s.reqField 0 1) then stsNOHEAD else 0
    else stsBADCMD := by
  have hdef : (decide (7 < c) || c == 0) = false := by simp; omega
  have hv : (c != mcVERSION) = true := bne_iff_ne.2 h1
  have hvg : ¬ (c = mcVERSION ∨ c = mcGOLDEN) := not_or.2 ⟨h1, h6⟩
  simp only [State.mbxJudge, hdef, hv, hvg, h2, Bool.false_eq_true, if_false, Bool.and_true]
end

theorem State.authOk_of_judge_otp (h : s.mbxJudge mcOTPPROG = 0) : s.authOk 1 0 = true := by
  rw [State.mbxJudge_eq (by decide) (by decide) (by decide) (by decide)] at h
  obtain ⟨-, h⟩ := eq_zero_of_ite (by decide) h
  obtain ⟨-, h⟩ := eq_zero_of_ite (by decide) h
  rw [if_neg (by decide), if_neg (by decide), if_pos rfl] at h
  obtain ⟨-, h⟩ := eq_zero_of_ite (by decide) h
  obtain ⟨-, h⟩ := eq_zero_of_ite (by decide) h
  simpa using (eq_zero_of_ite (by decide) h).1

theorem State.authOk_of_judge_flash (h : s.mbxJudge mcFLASHWRITE = 0) : s.authOk 2 0 = true := by
  rw [State.mbxJudge_eq (by decide) (by decide) (by decide) (by decide)] at h
  obtain ⟨-, h⟩ := eq_zero_of_ite (by decide) h
  obtain ⟨-, h⟩ := eq_zero_of_ite (by decide) h
  rw [if_neg (by decide), if_pos rfl] at h
  obtain ⟨-, h⟩ := eq_zero_of_ite (by decide) h
  obtain ⟨-, h⟩ := eq_zero_of_ite (by decide) h
  simpa using (eq_zero_of_ite (by decide) h).1

theorem State.authOk_of_judge_rank (h : s.mbxJudge mcRANKWRITE = 0) : s.authOk 3 (s.reqField 0 1) = true := by
  rw [State.mbxJudge_eq (by decide) (by decide) (by decide) (by decide)] at h
  obtain ⟨-, h⟩ := eq_zero_of_ite (by decide) h
  obtain ⟨-, h⟩ := eq_zero_of_ite (by decide) h
  rw [if_pos rfl] at h
  obtain ⟨-, h⟩ := eq_zero_of_ite (by decide) h
  obtain ⟨-, h⟩ := eq_zero_of_ite (by decide) h
  obtain ⟨-, h⟩ := eq_zero_of_ite (by decide) h
  simpa using (eq_zero_of_ite (by decide) h).1

theorem State.mbxJudge_otp_of_unauthorised (hf : s.fwRuns = true) (hl : s.fld SVC_MBXCMD_LEN ≤ 256) (hw : s.reqField 0 2 ≤ 63)
    (ha : s.armed = false) (hn : s.authOk 1 0 = false) : s.mbxJudge mcOTPPROG = stsPROTECT := by
  rw [State.mbxJudge_eq (by decide) (by decide) (by decide) (by decide), if_neg (by simp [hf]), if_neg (Nat.not_lt.2 hl), if_neg (by decide),
    if_neg (by decide), if_pos rfl, if_neg (Nat.not_lt.2 hw), if_neg (by simp [ha]), if_pos (by simp [hn])]

theorem State.mbxJudge_flash_of_unauthorised (hl : s.fld SVC_MBXCMD_LEN ≤ 256) (h1 : s.reqField 0 8 + s.reqField 8 4 ≤ s.storeSize)
    (h2 : 1 ≤ s.reqField 8 4) (h3 : s.reqField 8 4 ≤ 4 * mib) (ha : s.armed = false) (hn : s.authOk 2 0 = false) :
    s.mbxJudge mcFLASHWRITE = stsPROTECT := by
  have hargs : (decide (s.storeSize < s.reqField 0 8 + s.reqField 8 4) || s.reqField 8 4 == 0 || decide (4 * mib < s.reqField 8 4)) = false := by
    rw [decide_eq_false (Nat.not_lt.2 h1), decide_eq_false (Nat.not_lt.2 h3), beq_eq_false_iff_ne.2 (by omega)]
    rfl
  rw [State.mbxJudge_eq (by decide) (by decide) (by decide) (by decide), if_neg (by simp), if_neg (Nat.not_lt.2 hl), if_neg (by decide),
    if_pos rfl, if_neg (by rw [hargs]; exact Bool.false_ne_true), if_neg (by simp [ha]), if_pos (by simp [hn])]

/-! ### The start of a protected operation takes its authorisation -/

theorem State.mbxStart_flash : s.mbxStart mcFLASHWRITE = s.authUse.storeMerge := by
  have hr : ¬ mcFLASHWRITE = mcRANKWRITE := by decide
  have ho (p : Prop) : ¬ (mcFLASHWRITE = mcOTPPROG ∧ p) := fun h => absurd h.1 (by decide)
  simp only [State.mbxStart, if_neg hr, if_neg (ho _), true_or, or_true, if_true]

theorem State.mbxStart_otp {u : State} (hu : s.authUse = u) : ∃ x, s.mbxStart mcOTPPROG = u.setSvc x := by
  have hr : ¬ mcOTPPROG = mcRANKWRITE := by decide
  have hf : ¬ mcOTPPROG = mcFLASHWRITE := by decide
  have ht (p : Prop) : ¬ (mcOTPPROG = mcRETRAIN ∧ p) := fun h => absurd h.1 (by decide)
  simp only [State.mbxStart, if_neg hr, if_neg hf, if_neg (ht _), or_true, if_true, hu]
  split
  · exact ⟨_, rfl⟩
  · exact ⟨u.svc, rfl⟩

theorem State.mbxStart_rank {u v : State} (hu : s.authUse = u) (hv : u.storeMerge.storeTouchAll (s.reqField 1 8) 2336 = v) :
    s.mbxStart mcRANKWRITE = v.setSvc { u.svc with page := true, pages := 0, nack := false, turn := false } := by
  simp only [State.mbxStart, true_or, if_true, hu, hv]

theorem State.override_of_authorised {bad : State → Bool} {f : State → State} (ha : s.authOk 4 0 = true) (hb : bad s = false) :
    s.override bad f = (f s.authUse).readyShow := by
  simp only [State.override, ha, hb, Bool.not_true, Bool.false_eq_true, if_false]

theorem State.override_of_refused {bad : State → Bool} {f : State → State} (ha : s.authOk 4 0 = true) (hb : bad s = true) :
    s.override bad f = s.refuse erNOPART TWN_OVERRIDE := by
  simp only [State.override, ha, hb, Bool.not_true, Bool.false_eq_true, if_false, if_true]

theorem State.override_of_unauthorised {bad : State → Bool} {f : State → State} (ha : s.authOk 4 0 = false) :
    s.override bad f = s.refuse erPROTECT TWN_OVERRIDE := if_pos (by rw [ha]; rfl)

section
variable {j : Nat} {v : Word} {u : State} (hu : s.setReg (TRM_CEIL j) (v &&& 0x3FFF#32) = u) (h : s.trimCeil < u.trimCeil)
include hu h

theorem State.ceilWrite_of_raise {hearth : Bool} (ha : s.authOk 5 0 = true) (hb : hearth = true → s.ceilBehind = false) {w : State}
    (hw : u.authUse = w) : s.ceilWrite j v hearth =
      (w.tripCheck tripBitCeil (w.reg (TRM_CEIL 0)) (w.reg (TRM_CEIL 1)) (w.reg (TRM_CEIL 2))).retargetAll := by
  have hr : s.ceilRaises j v = true := by rw [State.ceilRaises_eq hu]; exact decide_eq_true h
  have hfirst : (!(hearth && s.ceilBehind)) = true := by
    cases hearth
    · rfl
    · rw [hb rfl]; rfl
  simp only [State.ceilWrite, hr, hu, ha, hw, hfirst, Bool.not_true, Bool.false_eq_true, if_false, Bool.and_self, if_true]

theorem State.ceilWrite_of_behind (hb : s.ceilBehind = true) : s.ceilWrite j v true = s.refuse erPROTECT (TRM_CEIL j) := by
  have hr : s.ceilRaises j v = true := by rw [State.ceilRaises_eq hu]; exact decide_eq_true h
  simp only [State.ceilWrite, hr, hb, Bool.not_true, Bool.and_self, Bool.and_false, Bool.false_eq_true, if_false]
end

/-! ### The states of the authorisation (R410) -/

/-- The fields of SVC_ASTAT that the authorisation's states write, one after the other. -/
def State.authPut (s : State) (st op port remain : Nat) : State :=
  (((s.setFld SVC_ASTAT_STATE st).setFld SVC_ASTAT_OP op).setFld SVC_ASTAT_PORT port).setFld SVC_ASTAT_REMAIN remain

theorem State.authPut_shown (hs : SMap.wf regReset s.regs = true) (st op port remain : Nat) :
    (s.authPut st op port remain).fld SVC_ASTAT_STATE = st % 2 ^ SVC_ASTAT_STATE.width ∧
    (s.authPut st op port remain).fld SVC_ASTAT_OP = op % 2 ^ SVC_ASTAT_OP.width ∧
    (s.authPut st op port remain).fld SVC_ASTAT_PORT = port % 2 ^ SVC_ASTAT_PORT.width ∧
    (s.authPut st op port remain).fld SVC_ASTAT_REMAIN = remain % 2 ^ SVC_ASTAT_REMAIN.width ∧
    SMap.wf regReset (s.authPut st op port remain).regs = true := by
  have h1 := State.wf_setFld hs SVC_ASTAT_STATE st
  have h2 := State.wf_setFld h1 SVC_ASTAT_OP op
  have h3 := State.wf_setFld h2 SVC_ASTAT_PORT port
  refine ⟨?_, ?_, ?_, ?_, State.wf_setFld h3 _ _⟩
  · rw [State.authPut, State.fld_setFld_beside h3 SVC_ASTAT_REMAIN SVC_ASTAT_STATE _ rfl (by decide) (by decide),
      State.fld_setFld_beside h2 SVC_ASTAT_PORT SVC_ASTAT_STATE _ rfl (by decide) (by decide),
      State.fld_setFld_beside h1 SVC_ASTAT_OP SVC_ASTAT_STATE _ rfl (by decide) (by decide), State.fld_setFld_same hs _ _ (by decide)]
  · rw [State.authPut, State.fld_setFld_beside h3 SVC_ASTAT_REMAIN SVC_ASTAT_OP _ rfl (by decide) (by decide),
      State.fld_setFld_beside h2 SVC_ASTAT_PORT SVC_ASTAT_OP _ rfl (by decide) (by decide), State.fld_setFld_same h1 _ _ (by decide)]
  · rw [State.authPut, State.fld_setFld_beside h3 SVC_ASTAT_REMAIN SVC_ASTAT_PORT _ rfl (by decide) (by decide),
      State.fld_setFld_same h2 _ _ (by decide)]
  · rw [State.authPut, State.fld_setFld_same h3 _ _ (by decide)]

theorem State.authUse_shown (hs : s.canonical) : s.authUse.fld SVC_ASTAT_STATE = auIDLE ∧ s.authUse.on SVC_ASTAT_USED = true := by
  obtain ⟨hst, -, -, -, hw⟩ := State.authPut_shown hs.1 auIDLE 0 0 0
  refine ⟨(State.fld_setFld_beside hw SVC_ASTAT_USED SVC_ASTAT_STATE _ rfl (by decide) (by decide)).trans hst, ?_⟩
  have hused : s.authUse.fld SVC_ASTAT_USED = 1 := State.fld_setFld_same hw SVC_ASTAT_USED 1 (by decide)
  exact bne_iff_ne.2 (by rw [hused]; decide)

theorem State.svcArm_of_operation {v : Word} (h1 : 1 ≤ bitsOf v.toNat 0 8) (h5 : bitsOf v.toNat 0 8 ≤ 5) : s.svcArm v =
    ((s.setReg SVC_ARM (v &&& 0x3FFF#32)).authPut auWAITING (bitsOf v.toNat 0 8) (bitsOf v.toNat 8 6) 30).startTimer tmAuth :=
  (if_neg (Nat.not_lt.2 h5)).trans (if_neg (by omega))

theorem State.authPut_startTimer_timers (v : Word) (st op port remain : Nat) :
    (((s.setReg SVC_ARM v).authPut st op port remain).startTimer tmAuth).timers = s.timers.set (fun _ => 0) tmAuth s.clk := rfl

theorem State.svcArm_of_cancel {v : Word} (h0 : bitsOf v.toNat 0 8 = 0) : s.svcArm v =
    (s.setReg SVC_ARM (v &&& 0x3FFF#32)).authPut auIDLE 0 0 0 := (if_neg (by omega)).trans (if_pos h0)

theorem State.svcArm_of_reserved {v : Word} (h6 : 6 ≤ bitsOf v.toNat 0 8) : s.svcArm v = s.setFld SVC_ARM_PORT (bitsOf v.toNat 8 6) :=
  if_pos (by omega)

/-- Settles O60: a protected operation passes its check with its own authorisation and takes it, and the authorisation's states follow
SVC_ARM and its window. -/
theorem authorisationProtects : Obligations.AuthorisationProtects := by
  refine ⟨fun s h => State.authOk_of_judge_otp h, fun s h => State.authOk_of_judge_flash h, fun s h => State.authOk_of_judge_rank h,
    fun s hf hl hw ha hn => State.mbxJudge_otp_of_unauthorised hf hl hw ha hn,
    fun s hl h1 h2 h3 ha hn => State.mbxJudge_flash_of_unauthorised hl h1 h2 h3 ha hn, fun s op p => State.authOk_iff op p,
    fun s => State.mbxStart_flash, fun s u hu => State.mbxStart_otp hu, fun s u v hu hv => State.mbxStart_rank hu hv,
    fun s bad f => ⟨State.override_of_authorised, State.override_of_unauthorised⟩, ?ceiling, ?behind, fun s hs => State.authUse_shown hs,
    ?arm, ?lapse⟩
  case ceiling =>
    intro s u w j v hearth hu h hw
    refine ⟨fun ha hb => State.ceilWrite_of_raise hu h ha hb hw, ?_⟩
    rintro (ha | ⟨rfl, hb⟩)
    · exact State.ceilWrite_of_unauthorised hu h ha hearth
    · exact State.ceilWrite_of_behind hu h hb
  case behind =>
    intro s x hx hb
    exact if_pos (by simp [hx, hb])
  case arm =>
    rintro t v s _ hs rfl hb
    have hu : (s.advance t).canonical := (State.advance_kept s t hs.kept).canonical
    have h1 : SMap.wf regReset ((s.advance t).setReg SVC_ARM (v &&& 0x3FFF#32)).regs = true := SMap.wf_set hu.1
    refine ⟨fun hlo hhi => ?_, fun h0 => ?_, fun h6 => ?_⟩
    · obtain ⟨hst, hop, hport, hrem, -⟩ := State.authPut_shown h1 auWAITING (bitsOf v.toNat 0 8) (bitsOf v.toNat 8 6) 30
      refine ⟨_, congrArg Host.Outcome.next ((State.bar_of_served hb _).trans (State.svcArm_of_operation hlo hhi)), hst, hop.trans ?_,
        hport.trans ?_, hrem, State.authPut_startTimer_timers _ _ _ _ _⟩
      · exact Nat.mod_eq_of_lt (Nat.lt_of_le_of_lt hhi (by decide))
      · exact Nat.mod_eq_of_lt (Nat.mod_lt _ (by decide))
    · exact ⟨_, congrArg Host.Outcome.next ((State.bar_of_served hb _).trans (State.svcArm_of_cancel h0)),
        (State.authPut_shown h1 auIDLE 0 0 0).1⟩
    · exact ⟨_, congrArg Host.Outcome.next ((State.bar_of_served hb _).trans (State.svcArm_of_reserved h6)),
        State.reg_setFld_ne _ _ _ (by decide)⟩
  case lapse =>
    rintro t s _ rfl
    refine ⟨fun hst hw => congrArg Host.Outcome.next (if_pos ⟨hst, hw⟩), fun h => congrArg Host.Outcome.next (if_neg ?_)⟩
    rintro ⟨hst, hw⟩
    exact h.elim hst (Nat.not_le.2 hw)

end Sys2Proof.Machine
end

section
/-! PROOF. The device's own control and status registers (HIF_CTL, PWR_STAT, CLK_STAT, RST_STAT and the causes), the power record and the cut of
the trim channels, which what the blocks do leaves alone. -/

namespace Sys2Proof.Machine

open Sys2Proof

variable {s : State}

/-- The registers that tell what state the device is in. -/
def chipRegs : List Nat := [HIF_CTL, PWR_STAT, PWR_WAKESRC, CLK_STAT, RST_CAUSE, RST_STAT]

/-- The state of the device as its blocks leave it. -/
def State.chip (s : State) : List Word × Power × Bool := (chipRegs.map s.reg, s.power, s.trims.cut)

theorem State.reg_of_chip {t : State} (h : t.chip = s.chip) {a : Nat} (ha : a ∈ chipRegs) : t.reg a = s.reg a :=
  List.map_inj_left.1 (congrArg Prod.fst h) a ha

theorem State.fld_of_chip {t : State} (h : t.chip = s.chip) {f : Fld} (ha : f.addr ∈ chipRegs) : t.fld f = s.fld f :=
  congrArg (fun w : Word => bitsOf w.toNat f.lo f.width) (State.reg_of_chip h ha)

theorem State.on_of_chip {t : State} (h : t.chip = s.chip) {f : Fld} (ha : f.addr ∈ chipRegs) : t.on f = s.on f :=
  congrArg (· != 0) (State.fld_of_chip h ha)

theorem State.power_of_chip {t : State} (h : t.chip = s.chip) : t.power = s.power := congrArg (·.2.1) h

theorem State.cut_of_chip {t : State} (h : t.chip = s.chip) : t.trims.cut = s.trims.cut := congrArg (·.2.2) h

/-! ### Writes -/

theorem State.chip_ite (c : Prop) [Decidable c] (a b : State) : (if c then a else b).chip = if c then a.chip else b.chip := apply_ite _ _ _ _

theorem State.setReg_chip {a : Nat} (v : Word) (h : a ∉ chipRegs) : (s.setReg a v).chip = s.chip := by
  have hr : chipRegs.map (s.setReg a v).reg = chipRegs.map s.reg :=
    List.map_congr_left fun b hb => State.reg_setReg_ne _ _ fun he => h (he ▸ hb)
  exact Prod.ext hr rfl

theorem State.setFld_chip {f : Fld} (x : Nat) (h : f.addr ∉ chipRegs) : (s.setFld f x).chip = s.chip := State.setReg_chip _ h

theorem foldl_chip {β : Type} {f : State → β → State} {l : List β} (hf : ∀ t, ∀ x ∈ l, (f t x).chip = t.chip) (s : State) :
    (l.foldl f s).chip = s.chip :=
  List.foldlRecOn (motive := fun t => t.chip = s.chip) l f rfl fun t ht x hx => (hf t x hx).trans ht

@[simp] theorem State.alarm_chip (i : Nat) : (s.alarm i).chip = s.chip := rfl
@[simp] theorem State.startTimer_chip (k : Nat) : (s.startTimer k).chip = s.chip := rfl
@[simp] theorem State.emit_chip (a : Nat) (b : List Byte) (p : Bool) : (s.emit a b p).chip = s.chip := rfl
@[simp] theorem State.sendFrame_chip (l k : Nat) (b : List Nat) : (s.sendFrame l k b).chip = s.chip := rfl
@[simp] theorem State.setHead_chip (h : Nat) (x : Head) : (s.setHead h x).chip = s.chip := rfl
@[simp] theorem State.modHead_chip (h : Nat) (f : Head → Head) : (s.modHead h f).chip = s.chip := rfl
@[simp] theorem State.setTwin_chip (x : Twin) : (s.setTwin x).chip = s.chip := rfl
@[simp] theorem State.setSplice_chip (x : Splice) : (s.setSplice x).chip = s.chip := rfl
@[simp] theorem State.setPos_chip (x : Pos) : (s.setPos x).chip = s.chip := rfl
@[simp] theorem State.setFir_chip (x : Fir) : (s.setFir x).chip = s.chip := rfl
@[simp] theorem State.setCord_chip (x : Cord) : (s.setCord x).chip = s.chip := rfl
@[simp] theorem State.setTabs_chip (x : Tables) : (s.setTabs x).chip = s.chip := rfl
@[simp] theorem State.setInsp_chip (x : Insp) : (s.setInsp x).chip = s.chip := rfl
@[simp] theorem State.modCam_chip (c : Nat) (f : Cam → Cam) : (s.modCam c f).chip = s.chip := rfl
@[simp] theorem State.modStrm_chip (st : Nat) (f : Stream → Stream) : (s.modStrm st f).chip = s.chip := rfl
@[simp] theorem State.modDesc_chip (st c : Nat) (f : Desc → Desc) : (s.modDesc st c f).chip = s.chip := rfl
@[simp] theorem State.setHif_chip (x : HostIf) : (s.setHif x).chip = s.chip := rfl
@[simp] theorem State.setSvc_chip (x : Svc) : (s.setSvc x).chip = s.chip := rfl

/-! ### Trim channels and transport outputs -/

theorem trimOut_not_chip {n : Nat} (hn : n < 68) : TRM_OUT n ∉ chipRegs := by
  simp only [chipRegs, List.mem_cons, List.not_mem_nil, or_false, TRM_OUT, HIF_CTL, PWR_STAT, PWR_WAKESRC, CLK_STAT, RST_CAUSE, RST_STAT]
  omega

@[simp] theorem State.trimSettle_chip (n : Nat) : (s.trimSettle n).chip = s.chip := by
  have hset (b : Bool) : (s.setSettled n b).chip = s.chip := by
    simp (disch := decide) only [State.setSettled, State.chip_ite, State.setReg_chip, ite_self]
  simp only [State.trimSettle, State.chip_ite, State.modHead_chip, hset, ite_self]

theorem State.retarget_chip {n : Nat} (hn : n < 68) : (s.retarget n).chip = s.chip := by
  have hout (t : State) (f : Fld) (x : Nat) (hf : f.addr = TRM_OUT n) : (t.setFld f x).chip = t.chip :=
    State.setFld_chip _ (hf ▸ trimOut_not_chip hn)
  simp only [State.retarget, State.setBit, State.chip_ite, State.trimSettle_chip, State.alarm_chip, State.startTimer_chip,
    hout _ (TRM_OUT_TARGET n) _ rfl, hout _ (TRM_OUT_CLAMP n) _ rfl, ite_self]

theorem State.setWant_chip {n : Nat} (hn : n < 68) (c : Int) : (s.setWant n c).chip = s.chip := by
  have htrims (w : SMap Int) (u : SMap Nat) : ({ s with trims := { s.trims with want := w, upd := u } } : State).chip = s.chip := rfl
  simp only [State.setWant, State.chip_ite, State.retarget_chip hn, htrims, ite_self]

theorem State.retargetAll_chip : s.retargetAll.chip = s.chip := foldl_chip (fun _ _ hn => State.retarget_chip (List.mem_range.1 hn)) s

theorem State.trimZero_chip {n : Nat} (hn : n < 68) : (s.trimZero n).chip = s.chip := by
  have htrims (u : SMap Nat) : ({ s with trims := { s.trims with changed := u } } : State).chip = s.chip := rfl
  have hout (t : State) (x : Nat) : (t.setFld (TRM_OUT_OUT n) x).chip = t.chip := State.setFld_chip _ (trimOut_not_chip hn)
  have hd (t : State) (x : Nat) : (t.setFld TRN_DEMAND_OUT x).chip = t.chip := State.setFld_chip _ (by decide)
  simp only [State.trimZero, State.setOut, State.chip_ite, State.trimSettle_chip, hout, hd, htrims, ite_self]

theorem State.trimsZero_chip : s.trimsZero.chip = s.chip := foldl_chip (fun _ _ hn => State.trimZero_chip (List.mem_range.1 hn)) s

theorem State.setDriven_chip {n : Nat} (hn : n < 68) (b : Bool) : (s.setDriven n b).chip = s.chip := State.setFld_chip _ (trimOut_not_chip hn)

theorem State.drivenShow_chip : s.drivenShow.chip = s.chip := foldl_chip (fun _ _ hn => State.setDriven_chip (List.mem_range.1 hn) _) s

@[simp] theorem State.trnShow_chip : s.trnShow.chip = s.chip := by
  simp (disch := decide) only [State.trnShow, State.setBit, State.chip_ite, State.alarm_chip, State.setFld_chip, State.setWant_chip, ite_self]

/-! ### The position -/

@[simp] theorem State.suspShow_chip : s.suspShow.chip = s.chip := by
  simp (disch := decide) only [State.suspShow, State.setBit, State.setFld_chip]

@[simp] theorem State.voteFlags_chip : s.voteFlags.chip = s.chip := by
  simp (disch := decide) only [State.voteFlags, State.distrust, State.setBit, State.setOn, State.chip_ite, State.alarm_chip, State.setFld_chip, ite_self]

@[simp] theorem State.hwmUpdate_chip : s.hwmUpdate.chip = s.chip := by
  simp (disch := decide) only [State.hwmUpdate, State.setOn, State.count, State.chip_ite, State.setPos_chip, State.setFld_chip, ite_self]

@[simp] theorem State.posJump_chip (v : Int) : (s.posJump v).chip = s.chip := by
  simp only [State.posJump, State.hwmUpdate_chip, State.setPos_chip]

@[simp] theorem State.indexArm_chip : s.indexArm.chip = s.chip := by
  simp only [State.indexArm, State.chip_ite, State.setPos_chip, ite_self]

@[simp] theorem State.posAnew_chip : s.posAnew.chip = s.chip := by
  simp only [State.posAnew, State.suspShow_chip, State.voteFlags_chip, State.hwmUpdate_chip]

@[simp] theorem State.dropList_chip (b : Bool) : (s.dropList b).chip = s.chip := by
  simp (disch := decide) only [State.dropList, State.putSpeed, State.setBit, State.setPos_chip, State.setFld_chip, State.setReg_chip]

/-! ### Event pins, cameras and the Cord ring -/

theorem State.evtShow_chip {n : Nat} (hn : n < 8) : (s.evtShow n).chip = s.chip := by
  have hctl : TIM_EVTCTL n ∉ chipRegs := by
    simp only [chipRegs, List.mem_cons, List.not_mem_nil, or_false, TIM_EVTCTL, HIF_CTL, PWR_STAT, PWR_WAKESRC, CLK_STAT, RST_CAUSE, RST_STAT]
    omega
  have hfld (t : State) (f : Fld) (x : Nat) (hf : f.addr = TIM_EVTCTL n) : (t.setFld f x).chip = t.chip := State.setFld_chip _ (hf ▸ hctl)
  simp only [State.evtShow, State.setBit, hfld _ (TIM_EVTCTL_LEVEL n) _ rfl, hfld _ (TIM_EVTCTL_ACTIVE n) _ rfl]

@[simp] theorem State.pinsShow_chip : s.pinsShow.chip = s.chip := foldl_chip (fun _ _ hn => State.evtShow_chip (List.mem_range.1 hn)) s

@[simp] theorem State.camDrop_chip (c : Nat) : (s.camDrop c).chip = s.chip := rfl

@[simp] theorem State.camsQuiet_chip : s.camsQuiet.chip = s.chip := by
  simp (disch := decide) only [State.camsQuiet, State.camDrop_chip, State.setFld_chip]

@[simp] theorem State.schedDrop_chip : s.schedDrop.chip = s.chip := by
  simp (disch := decide) only [State.schedDrop, State.setOn, State.chip_ite, State.alarm_chip, State.setFld_chip, State.setCord_chip, ite_self]

@[simp] theorem State.ringShow_chip (back crossed : Bool) : (s.ringShow back crossed).chip = s.chip := by
  simp (disch := decide) only [State.ringShow, State.chip_ite, State.alarm_chip, State.setFld_chip, ite_self]

@[simp] theorem State.cordLink_chip (l : Nat) (up : Bool) : (s.cordLink l up).chip = s.chip := by
  have hlink (t : State) (x : Nat) : (t.setFld (if l = 0 then CRD_STATE_UPE else CRD_STATE_UPW) x).chip = t.chip :=
    State.setFld_chip _ (by split <;> decide)
  simp (disch := decide) only [State.cordLink, State.setBit, State.countReg, State.chip_ite, State.ringShow_chip, State.alarm_chip,
    State.setReg_chip, State.setCord_chip, hlink, ite_self]

@[simp] theorem State.cordDown_chip : s.cordDown.chip = s.chip := by
  simp only [State.cordDown, State.chip_ite, State.cordLink_chip, ite_self]

/-! ### Completions and the head unit's pairs -/

theorem State.cqWrite_chip {q : Nat} (hq : q < 8) (e : List Byte) : (s.cqWrite q e).chip = s.chip := by
  have hprod : HIF_CQPROD q ∉ chipRegs := by
    simp only [chipRegs, List.mem_cons, List.not_mem_nil, or_false, HIF_CQPROD, HIF_CTL, PWR_STAT, PWR_WAKESRC, CLK_STAT, RST_CAUSE, RST_STAT]
    omega
  simp only [State.cqWrite, State.chip_ite, State.alarm_chip, State.setReg_chip _ hprod, State.emit_chip, ite_self]

theorem State.popDesc_chip (st : Nat) : (s.popDesc st).chip = s.chip := by
  have hdone : STR_DONE st ∉ chipRegs := by
    simp only [chipRegs, List.mem_cons, List.not_mem_nil, or_false, STR_DONE, HIF_CTL, PWR_STAT, PWR_WAKESRC, CLK_STAT, RST_CAUSE, RST_STAT]
    omega
  simp only [State.popDesc, State.setReg_chip _ hdone, State.modStrm_chip]

theorem State.flushGo_chip (st : Nat) : ∀ (n : Nat) (s : State), (State.flushGo n s st).chip = s.chip
  | 0, s => rfl
  | n + 1, s => by
    have hcq (t : State) (e : List Byte) : (t.cqWrite (s.fld (STR_CTL_CQ st)) e).chip = t.chip :=
      State.cqWrite_chip (Nat.mod_lt _ (by decide)) e
    unfold State.flushGo
    split
    · rfl
    · simp only [State.chip_ite, State.flushGo_chip st n, State.popDesc_chip, hcq, State.complete, State.modDesc_chip, ite_self]

@[simp] theorem State.holdState_chip (st : Nat) : (s.holdState st).chip = s.chip := by
  have hst : (STR_STATE_STATE st).addr ∉ chipRegs := by
    simp only [chipRegs, List.mem_cons, List.not_mem_nil, or_false, STR_STATE, HIF_CTL, PWR_STAT, PWR_WAKESRC, CLK_STAT, RST_CAUSE, RST_STAT]
    omega
  simp only [State.holdState, State.chip_ite, State.setFld_chip _ hst, ite_self]

/-- Every stream is shown as it now is. -/
theorem State.holdAll_chip : ((List.range 128).foldl (fun s st => s.holdState st) s).chip = s.chip :=
  foldl_chip (fun _ _ _ => State.holdState_chip _) s

@[simp] theorem State.flush_chip (st : Nat) : (s.flush st).chip = s.chip := by
  simp only [State.flush, State.holdState_chip, State.flushGo_chip]

@[simp] theorem State.flushAll_chip : s.flushAll.chip = s.chip :=
  foldl_chip (fun _ _ _ => foldl_chip (fun _ _ _ => State.flush_chip _) _) s

@[simp] theorem State.flushHost_chip : s.flushHost.chip = s.chip := by
  have hcq (t : State) (e : List Byte) : (t.cqWrite (t.fld HIF_CMDCTL_CQ) e).chip = t.chip := State.cqWrite_chip (Nat.mod_lt _ (by decide)) e
  have hcmd (t : State) : t.cmdFlush.chip = t.chip := by
    unfold State.cmdFlush
    split
    · rfl
    · simp only [State.chip_ite, State.setHif_chip, hcq, ite_self]
  rw [State.flushHost, hcmd, State.flushAll_chip]

/-! ### The freeze and the resume record -/

@[simp] theorem State.failFreeze_chip : s.failFreeze.chip = s.chip := by
  have hfreeze : s.freeze.chip = s.chip := by
    simp only [State.freeze, State.setSplice_chip]
    exact foldl_chip (fun _ _ _ => State.modHead_chip _ _) s
  have hrefreeze : s.refreeze.chip = s.chip := by
    simp only [State.refreeze, State.setSplice_chip]
    exact foldl_chip (fun _ _ _ => State.modHead_chip _ _) s
  simp only [State.failFreeze, State.chip_ite, hfreeze, hrefreeze, ite_self]

@[simp] theorem State.putRecord_chip (why : Nat) : (s.putRecord why).chip = s.chip :=
  foldl_chip (fun _ _ _ => State.setTabs_chip _) s

/-! ### Hearth's start and the twin link -/

@[simp] theorem State.bootStart_chip : s.bootStart.chip = s.chip := by
  have hm (t : State) (k : Nat) (n : Option Narrow) : (t.setMerge k n).chip = t.chip := rfl
  simp (disch := decide) only [State.bootStart, State.setOn, State.setBit, State.chip_ite, State.setFld_chip, State.setReg_chip, State.setSvc_chip, hm,
    State.setTabs_chip, ite_self]

@[simp] theorem State.twinSleep_chip : s.twinSleep.chip = s.chip := by
  simp (disch := decide) only [State.twinSleep, State.linkDown, State.chip_ite, State.setFld_chip, State.setTwin_chip, ite_self]

theorem State.trimsOff_chip : s.trimsOff.chip = s.chip := by
  rw [State.trimsOff, State.trimsZero_chip, State.chip_ite,
    foldl_chip (fun _ _ hn => State.setDriven_chip (List.mem_range.1 hn) _), ite_self]

end Sys2Proof.Machine
end

section
/-! PROOF. Power states, wakes and clocks (R365 to R371). -/

namespace Sys2Proof.Machine

open Sys2Proof

variable {s : State}

theorem State.aonBar_of_served (h : s.aonOk = true) (f : State → State) : s.aonBar f = f s := if_pos h

theorem State.aonBar_of_not_served (h : s.aonOk = false) (f : State → State) : s.aonBar f = s := if_neg (by rw [h]; exact Bool.false_ne_true)

/-- Is a job armed, of a state with the same HIF_CTL? -/
theorem State.armed_of_chip {t : State} (h : t.chip = s.chip) : t.armed = s.armed := State.on_of_chip h (by decide)

theorem State.awake_of_fld {t : State} (h : t.fld PWR_STAT_STATE = s.fld PWR_STAT_STATE) : t.awake = s.awake :=
  Bool.eq_iff_iff.2 (by rw [State.awake_iff, State.awake_iff, h])

/-! ### Requests (R367) -/

/-- WAKEMOT as a write of PWR_CTL takes it. -/
theorem State.pwrCtl_of_armed {v : Word} {w : State} (hw : s.setBit PWR_CTL_WAKEMOT (v.getLsbD 2) = w) (ha : s.armed = true)
    (hq : bitsOf v.toNat 0 2 = 1 ∨ bitsOf v.toNat 0 2 = 2) : s.pwrCtl v = w.refuse erARMED PWR_CTL := by
  have hw' : s.setBit PWR_CTL_WAKEMOT (bitAt v.toNat 2) = w := hw
  have h3 : ¬ bitsOf v.toNat 0 2 = 3 := by omega
  have h0 : bitsOf v.toNat 0 2 ≠ 0 ∧ s.armed = true := ⟨by omega, ha⟩
  simp only [State.pwrCtl, hw', if_neg h3, if_pos h0]

section
variable {v : Word} {w : State} {q : Nat} (hq : bitsOf v.toNat 0 2 = q) (hw : (s.setBit PWR_CTL_WAKEMOT (v.getLsbD 2)).setFld PWR_CTL_REQ q = w)
  (hd : w.on RST_STAT_DONE = true)
include hq hw hd

theorem State.pwrCtl_of_request (h3 : q ≠ 3) (ha : q = 0 ∨ s.armed = false) : s.pwrCtl v =
    if q = 0 then w.wake 0 else if q = 1 then (if w.fld PWR_STAT_STATE = 0 then w.camsQuiet.setFld PWR_STAT_STATE 1 else w)
    else w.toSmoulder := by
  have hw' : (s.setBit PWR_CTL_WAKEMOT (bitAt v.toNat 2)).setFld PWR_CTL_REQ q = w := hw
  have h0 : ¬ (q ≠ 0 ∧ s.armed = true) := fun h => ha.elim h.1 fun hf => by rw [hf] at h; exact Bool.false_ne_true h.2
  simp only [State.pwrCtl, hq, hw', if_neg h3, if_neg h0, hd, Bool.not_true, Bool.false_eq_true, if_false]
end

theorem State.wake_of_ready (h : s.fld PWR_STAT_STATE = 1) (k : Nat) :
    s.wake k = (s.setFld PWR_STAT_STATE 0).setFld PWR_WAKESRC_SRC (2 ^ k) := if_pos h

theorem State.wake_of_smoulder (h : s.fld PWR_STAT_STATE = 2) (hw : s.power.waking = false) (k : Nat) :
    s.wake k = (s.setFld PWR_WAKESRC_SRC (2 ^ k)).setPower { s.power with waking := true } :=
  (if_neg (by rw [h]; decide)).trans (if_pos ⟨h, by rw [hw]; rfl⟩)

/-! ### Smoulder (R369) -/

/-- PWR_STAT once Smoulder is entered. -/
theorem State.toSmoulder_shown (hs : s.canonical) (ha : s.armed = false) (hw : s.awake = true) :
    s.toSmoulder.fld PWR_STAT_STATE = 2 ∧ s.toSmoulder.on PWR_STAT_D3HOT = s.on PWR_STAT_D3HOT := by
  obtain ⟨x, hx⟩ : ∃ x, s.trimsOff.schedDrop.cordDown.twinSleep = x := ⟨_, rfl⟩
  have hxchip : x.chip = s.chip := by
    rw [← hx, State.twinSleep_chip, State.cordDown_chip, State.schedDrop_chip, State.trimsOff_chip]
  obtain ⟨y, hy⟩ : ∃ y, ((x.setFld CLK_STAT_PLLLOCK 0).setFld CLK_STAT_DRAMLOCK 0).camsQuiet = y := ⟨_, rfl⟩
  have hyreg : y.reg PWR_STAT = s.reg PWR_STAT := by
    rw [← hy, State.reg_of_chip State.camsQuiet_chip (by decide), State.reg_setFld_ne _ _ _ (by decide), State.reg_setFld_ne _ _ _ (by decide),
      State.reg_of_chip hxchip (by decide)]
  have hyk : State.kept s y := by
    have hxk : State.kept s x := hx ▸ State.twinSleep_kept _ (State.cordDown_kept _ (State.schedDrop_kept _ (State.trimsOff_kept _ hs.kept)))
    exact hy ▸ State.camsQuiet_kept _ (State.setFld_kept _ _ _ (State.setFld_kept _ _ _ hxk))
  have hreg : s.toSmoulder.reg PWR_STAT = (y.setFld PWR_STAT_STATE 2).reg PWR_STAT := by
    have hpower (t : State) (p : Power) : (t.setPower p).pinsShow.reg PWR_STAT = t.reg PWR_STAT :=
      State.reg_of_chip State.pinsShow_chip (by decide)
    simp only [State.toSmoulder, ha, hw, Bool.not_true, Bool.or_self, Bool.false_eq_true, if_false, hx, hy, hpower]
  have hfld (f : Fld) (hf : f.addr = PWR_STAT) : s.toSmoulder.fld f = (y.setFld PWR_STAT_STATE 2).fld f := by
    rw [State.fld, State.fld, hf, hreg]
  refine ⟨?_, ?_⟩
  · rw [hfld _ rfl, State.fld_setFld_same hyk.canonical.1 _ _ (by decide)]
    rfl
  · rw [State.on, hfld _ rfl, State.fld_setFld_beside hyk.canonical.1 PWR_STAT_STATE PWR_STAT_D3HOT _ rfl (by decide) (by decide),
      State.fld, hyreg]
    rfl

theorem State.toSmoulder_of_none (h : s.armed = true ∨ s.awake = false) : s.toSmoulder = s := if_pos (by rcases h with h | h <;> simp [h])

theorem State.woken_of_none (h : s.fld PWR_STAT_STATE ≠ 2 ∨ s.power.waking = false) : s.woken = s :=
  if_neg fun hc => h.elim (fun h2 => h2 hc.1) fun hw => by rw [hw] at hc; exact Bool.false_ne_true hc.2

/-- What the return from Smoulder shows. -/
theorem State.woken_shown (hs : s.canonical) (h2 : s.fld PWR_STAT_STATE = 2) (hw : s.power.waking = true) (hr : s.power.reboot = false) :
    s.woken.fld PWR_STAT_STATE = 0 ∧ s.woken.on CLK_STAT_PLLLOCK = true ∧ s.woken.power.waking = false := by
  obtain ⟨x, hx⟩ : ∃ x, ((s.setFld PWR_STAT_STATE 0).setOn CLK_STAT_PLLLOCK).setOn CLK_STAT_DRAMLOCK = x := ⟨_, rfl⟩
  have h1 : (s.setFld PWR_STAT_STATE 0).canonical := hs.setFld _ _
  have h3 := h1.setFld CLK_STAT_PLLLOCK 1
  have hxr : x.power.reboot = false := by rw [← hx]; exact hr
  obtain ⟨y, hy⟩ : ∃ y, x.setPower { x.power with waking := false, reboot := false } = y := ⟨_, rfl⟩
  have hchip : s.woken.chip = y.chip := by
    have htwin (t : State) : t.twinWake.chip = t.chip := rfl
    rw [State.woken, if_pos ⟨h2, hw⟩]
    simp only [hx, hxr, hy, Bool.false_eq_true, if_false, htwin, State.pinsShow_chip, State.dropList_chip]
    rw [foldl_chip fun t k _ => State.startTimer_chip (s := t) (tmTrim k), State.drivenShow_chip, State.setHif_chip]
  have hyf (f : Fld) : y.fld f = x.fld f := by rw [← hy]; rfl
  refine ⟨?_, ?_, ?_⟩
  · rw [State.fld_of_chip hchip (by decide), hyf, ← hx, State.setOn, State.setOn, State.fld_setFld_ne _ _ _ _ (by decide),
      State.fld_setFld_ne _ _ _ _ (by decide), State.fld_setFld_same hs.1 _ _ (by decide)]
    rfl
  · rw [State.on_of_chip hchip (by decide), State.on, hyf, ← hx, State.setOn, State.setOn,
      State.fld_setFld_beside h3.1 CLK_STAT_DRAMLOCK CLK_STAT_PLLLOCK _ rfl (by decide) (by decide), State.fld_setFld_same h1.1 _ _ (by decide)]
    rfl
  · rw [State.power_of_chip hchip, ← hy]
    rfl

/-! ### The service pins (R370, R410) -/

section
variable {p : ServicePins} {v : State} (hv : ((s.setBit SVC_ASTAT_SERVICE p.low).setBit SVC_ASTAT_SEALED p.wrseal).setSvc
  { s.svc with hi := s.svc.hi || p.wrseal, lo := s.svc.lo || !p.wrseal } = v)
include hv

theorem State.servicePress_eq : s.servicePress p = if v.fld PWR_STAT_STATE = 3 || !(p.low && p.press) then v
    else
      let w := if v.fld PWR_STAT_STATE = 2 then v.wake 2 else v
      if w.fld SVC_ASTAT_STATE = auWAITING ∧ w.clk ≤ w.timers.get (fun _ => 0) tmAuth + 12000000000 then
        ((w.setFld SVC_ASTAT_STATE auARMED).setFld SVC_ASTAT_REMAIN 60).startTimer tmAuth
      else w := by
  have hst : v.fld PWR_STAT_STATE = s.fld PWR_STAT_STATE := by
    rw [← hv]
    exact (State.fld_setFld_ne _ SVC_ASTAT_SEALED _ _ (by decide)).trans (State.fld_setFld_ne _ _ _ _ (by decide))
  rw [hst]
  subst hv
  rw [State.servicePress, hst]
  rfl

end

/-! ### What the requests show -/

section
variable {v : Word} {q : Nat} (hs : s.canonical) (hd : s.on RST_STAT_DONE = true) (hq : bitsOf v.toNat 0 2 = q)
include hs hd hq

/-- The device as a request that is not refused leaves it before it acts: canonical, and with the same PWR_STAT. -/
theorem State.pwrCtl_requested (h3 : q ≠ 3) (ha : q = 0 ∨ s.armed = false) : ∃ w : State, w.canonical ∧ w.chip = s.chip ∧
    s.pwrCtl v = if q = 0 then w.wake 0 else if q = 1 then (if w.fld PWR_STAT_STATE = 0 then w.camsQuiet.setFld PWR_STAT_STATE 1 else w)
      else w.toSmoulder := by
  have hchip : ((s.setBit PWR_CTL_WAKEMOT (v.getLsbD 2)).setFld PWR_CTL_REQ q).chip = s.chip :=
    (State.setFld_chip _ (by decide)).trans (State.setFld_chip _ (by decide))
  exact ⟨_, (hs.setFld _ _).setFld _ _, hchip, State.pwrCtl_of_request hq rfl ((State.on_of_chip hchip (by decide)).trans hd) h3 ha⟩

theorem State.pwrCtl_ready_shown (h1 : q = 1) (ha : s.armed = false) (h0 : s.fld PWR_STAT_STATE = 0) : (s.pwrCtl v).fld PWR_STAT_STATE = 1 := by
  obtain ⟨w, hw, hchip, heq⟩ := State.pwrCtl_requested hs hd hq (by omega) (.inr ha)
  have hw0 : w.fld PWR_STAT_STATE = 0 := (State.fld_of_chip hchip (by decide)).trans h0
  rw [heq, if_neg (by omega), if_pos h1, if_pos hw0]
  exact State.fld_setFld_same (State.camsQuiet_kept w hw.kept).canonical.1 _ _ (by decide)

theorem State.pwrCtl_smoulder_shown (h2 : q = 2) (ha : s.armed = false) (hw : s.awake = true) : (s.pwrCtl v).fld PWR_STAT_STATE = 2 := by
  obtain ⟨w, hwc, hchip, heq⟩ := State.pwrCtl_requested hs hd hq (by omega) (.inr ha)
  rw [heq, if_neg (by omega), if_neg (by omega)]
  exact (State.toSmoulder_shown hwc ((State.armed_of_chip hchip).trans ha)
    ((State.awake_of_fld (State.fld_of_chip hchip (by decide))).trans hw)).1

theorem State.pwrCtl_run_shown (h0 : q = 0) (h1 : s.fld PWR_STAT_STATE = 1) :
    (s.pwrCtl v).fld PWR_STAT_STATE = 0 ∧ (s.pwrCtl v).fld PWR_WAKESRC_SRC = 1 := by
  obtain ⟨w, hw, hchip, heq⟩ := State.pwrCtl_requested hs hd hq (by omega) (.inl h0)
  rw [heq, if_pos h0, State.wake_of_ready ((State.fld_of_chip hchip (by decide)).trans h1)]
  exact ⟨(State.fld_setFld_ne _ _ _ _ (by decide)).trans (State.fld_setFld_same hw.1 _ _ (by decide)),
    State.fld_setFld_same (hw.setFld _ _).1 _ _ (by decide)⟩
end

/-- Holding the state of every stream keeps canonical form. -/
theorem State.canonical.holdAll (hs : s.canonical) : ((List.range 128).foldl (fun s st => s.holdState st) s).canonical :=
  (List.foldlRecOn (motive := State.kept s) _ _ hs.kept (fun t ht st _ => State.holdState_kept t st ht)).canonical

theorem State.d3hot_shown (hs : s.canonical) (ho : s.aonOk = true) : s.d3hot.on PWR_STAT_D3HOT = true ∧
    s.d3hot.fld PWR_STAT_STATE = if s.armed = false ∧ s.awake = true then 2 else s.fld PWR_STAT_STATE := by
  obtain ⟨y, hy⟩ : ∃ y, (List.range 128).foldl (fun s st => s.holdState st) (s.setOn PWR_STAT_D3HOT) = y := ⟨_, rfl⟩
  have hyc : y.canonical := hy ▸ State.canonical.holdAll (hs.setFld _ _)
  have hychip : y.chip = (s.setOn PWR_STAT_D3HOT).chip := hy ▸ State.holdAll_chip
  have hst : y.fld PWR_STAT_STATE = s.fld PWR_STAT_STATE := (State.fld_of_chip hychip (by decide)).trans
    (State.fld_setFld_beside hs.1 PWR_STAT_D3HOT PWR_STAT_STATE _ rfl (by decide) (by decide))
  have hd3 : y.on PWR_STAT_D3HOT = true := (State.on_of_chip hychip (by decide)).trans
    (congrArg (· != 0) (State.fld_setFld_same hs.1 PWR_STAT_D3HOT _ (by decide)))
  have ha : y.armed = s.armed := (State.armed_of_chip hychip).trans (congrArg (· != 0) (State.fld_setFld_ne _ _ _ _ (by decide)))
  have hw : y.awake = s.awake := State.awake_of_fld hst
  have heq : s.d3hot = y.toSmoulder := by
    rw [State.d3hot, ho]
    exact congrArg State.toSmoulder hy
  rw [heq]
  by_cases h : s.armed = false ∧ s.awake = true
  case pos =>
    obtain ⟨h2, hon⟩ := State.toSmoulder_shown hyc (ha.trans h.1) (hw.trans h.2)
    exact ⟨hon.trans hd3, h2.trans (if_pos h).symm⟩
  case neg =>
    have hn : y.armed = true ∨ y.awake = false := by
      rw [ha, hw]
      cases h1 : s.armed with
      | true => exact .inl rfl
      | false => exact .inr (Bool.eq_false_iff.2 fun h2 => h ⟨h1, h2⟩)
    rw [State.toSmoulder_of_none hn]
    exact ⟨hd3, hst.trans (if_neg h).symm⟩

theorem State.d0Return_of_hot {v : State} (hd : s.on PWR_STAT_D3HOT = true) (ho : s.aonOk = true) (hv : s.setFld PWR_STAT_D3HOT 0 = v) :
    s.d0Return = (List.range 128).foldl (fun s st => s.holdState st) (if v.awake then v.pollResume.flushHost else v.wake 3) := by
  simp only [State.d0Return, hd, ho, hv, Bool.not_true, Bool.or_self, Bool.false_eq_true, if_false]

theorem State.d0Return_shown (hs : s.canonical) (hd : s.on PWR_STAT_D3HOT = true) (ho : s.aonOk = true) (h2 : s.fld PWR_STAT_STATE = 2)
    (hw : s.power.waking = false) :
    s.d0Return.on PWR_STAT_D3HOT = false ∧ s.d0Return.power.waking = true ∧ s.d0Return.fld PWR_WAKESRC_SRC = 8 := by
  obtain ⟨v, hv⟩ : ∃ v, s.setFld PWR_STAT_D3HOT 0 = v := ⟨_, rfl⟩
  have hvc : v.canonical := hv ▸ hs.setFld _ _
  have hv2 : v.fld PWR_STAT_STATE = 2 :=
    hv ▸ (State.fld_setFld_beside hs.1 PWR_STAT_D3HOT PWR_STAT_STATE _ rfl (by decide) (by decide)).trans h2
  have hvw : v.power.waking = false := by rw [← hv]; exact hw
  have hva : ¬ v.awake = true := by rw [State.awake_iff, hv2]; decide
  rw [State.d0Return_of_hot hd ho hv, if_neg hva, State.wake_of_smoulder hv2 hvw]
  obtain ⟨x, hx⟩ : ∃ x, v.setFld PWR_WAKESRC_SRC (2 ^ 3) = x := ⟨_, rfl⟩
  rw [hx, State.power_of_chip State.holdAll_chip, State.on_of_chip State.holdAll_chip (by decide), State.fld_of_chip State.holdAll_chip (by decide)]
  refine ⟨?_, rfl, ?_⟩
  · have hoff : x.fld PWR_STAT_D3HOT = 0 := by
      rw [← hx, State.fld_setFld_ne _ _ _ _ (by decide), ← hv, State.fld_setFld_same hs.1 _ _ (by decide)]
      rfl
    exact congrArg (· != 0) hoff
  · exact hx ▸ State.fld_setFld_same hvc.1 _ _ (by decide)

/-! ### The obligation -/

/-- Settles O54: a request is refused with a job armed and moves PWR_STAT.STATE else; a wake names its source; a press arms what waits;
D3hot, the return to D0 and the end of a return from Smoulder hold every stream's state; the clock commands act only at work. -/
theorem powerStatesRun : Obligations.PowerStatesRun := by
  refine ⟨?served, ?unserved, ?armed, ?ready, ?smoulder, ?run, fun s k h => State.wake_of_ready h k, ?motion, ?press, ?d3hot, ?d0, ?d0off,
    ?complete, fun s h => State.woken_of_none h, ?refloss, ?trim, ?requests, ?d3hotShown, ?d0Shown, ?completeShown⟩
  case served =>
    rintro t v s _ rfl hb
    exact ⟨congrArg Host.Outcome.next (State.aonBar_of_served hb _), congrArg Host.Outcome.next (State.aonBar_of_served hb _),
      congrArg Host.Outcome.next (State.aonBar_of_served hb _)⟩
  case unserved =>
    rintro t v s _ rfl hb
    exact ⟨congrArg Host.Outcome.next (State.aonBar_of_not_served hb _), congrArg Host.Outcome.next (State.aonBar_of_not_served hb _),
      congrArg Host.Outcome.next (State.aonBar_of_not_served hb _)⟩
  case armed =>
    rintro t v s _ w rfl hb hw ha hq
    exact congrArg Host.Outcome.next ((State.aonBar_of_served hb _).trans (State.pwrCtl_of_armed hw ha hq))
  case ready =>
    rintro t v s _ w rfl hb hw ha hq hd h0
    exact congrArg Host.Outcome.next ((State.aonBar_of_served hb _).trans ((State.pwrCtl_of_request hq hw hd (by decide) (.inr ha)).trans (if_pos h0)))
  case smoulder =>
    rintro t v s _ w rfl hb hw ha hq hd
    exact congrArg Host.Outcome.next ((State.aonBar_of_served hb _).trans (State.pwrCtl_of_request hq hw hd (by decide) (.inr ha)))
  case run =>
    rintro t v s _ w rfl hb hw hq hd
    exact congrArg Host.Outcome.next ((State.aonBar_of_served hb _).trans (State.pwrCtl_of_request hq hw hd (by decide) (.inl rfl)))
  case motion =>
    rintro t s _ rfl
    exact congrArg Host.Outcome.next (ite_congr (by simp [and_assoc]) (fun _ => rfl) fun _ => rfl)
  case press =>
    rintro t low press hi s _ v rfl hv
    have heq (h : low = true ∧ press = true) (h3 : v.fld PWR_STAT_STATE ≤ 2) := (State.servicePress_eq (p := ⟨t, low, press, hi⟩) hv).trans
      (if_neg (by simp only [h.1, h.2]; simp; omega))
    refine ⟨fun h => ?_, fun hl hp h1 hw hc => ?_, fun hl hp h2 hw => ?_, fun hl hp h1 hw => ?_⟩
    · refine congrArg Host.Outcome.next ((State.servicePress_eq (p := ⟨t, low, press, hi⟩) hv).trans (if_pos ?_))
      rcases h with h | h | h <;> simp [h]
    · exact congrArg Host.Outcome.next ((heq ⟨hl, hp⟩ (by omega)).trans (by simp only [if_neg (show ¬ v.fld PWR_STAT_STATE = 2 by omega)]; exact if_pos ⟨hw, hc⟩))
    · exact congrArg Host.Outcome.next ((heq ⟨hl, hp⟩ (by omega)).trans (by simp only [if_pos h2]; exact if_neg fun h => hw h.1))
    · exact congrArg Host.Outcome.next ((heq ⟨hl, hp⟩ (by omega)).trans (by simp only [if_neg (show ¬ v.fld PWR_STAT_STATE = 2 by omega)]; exact if_neg fun h => hw h.1))
  case d3hot =>
    rintro t s _ rfl hb
    exact congrArg Host.Outcome.next (if_neg (by simp [hb]))
  case d0 =>
    rintro t s _ v rfl hd hb hv
    exact congrArg Host.Outcome.next (State.d0Return_of_hot hd hb hv)
  case d0off =>
    rintro t s _ rfl hd
    exact congrArg Host.Outcome.next (if_pos (by simp [hd]))
  case complete =>
    rintro t s _ rfl
    rfl
  case refloss =>
    rintro t s _ rfl
    exact congrArg Host.Outcome.next (ite_congr (by simp) (fun _ => rfl) fun _ => rfl)
  case trim =>
    rintro t ppm s _ rfl
    exact congrArg Host.Outcome.next (ite_congr (by simp [and_assoc]) (fun _ => rfl) fun _ => rfl)
  case requests =>
    rintro t v s _ hs rfl hb ha hd
    have hu : (s.advance t).canonical := (State.advance_kept s t hs.kept).canonical
    refine ⟨fun hq h0 => ⟨_, congrArg Host.Outcome.next (State.aonBar_of_served hb _), State.pwrCtl_ready_shown hu hd rfl hq ha h0⟩,
      fun hq hw => ⟨_, congrArg Host.Outcome.next (State.aonBar_of_served hb _), State.pwrCtl_smoulder_shown hu hd rfl hq ha hw⟩,
      fun hq h1 => ⟨_, congrArg Host.Outcome.next (State.aonBar_of_served hb _), State.pwrCtl_run_shown hu hd rfl hq h1⟩⟩
  case d3hotShown =>
    rintro t s _ hs rfl hb
    exact ⟨_, rfl, State.d3hot_shown (State.advance_kept s t hs.kept).canonical hb⟩
  case d0Shown =>
    rintro t s _ hs rfl hb hd h2 hw
    exact ⟨_, rfl, State.d0Return_shown (State.advance_kept s t hs.kept).canonical hd hb h2 hw⟩
  case completeShown =>
    rintro t s _ hs rfl h2 hw hr
    obtain ⟨x, hx⟩ : ∃ x, (s.advance t).woken = x := ⟨_, rfl⟩
    have hchip : ((List.range 128).foldl (fun s st => s.holdState st) x.flushHost).chip = x.chip := State.holdAll_chip.trans State.flushHost_chip
    obtain ⟨h0, hl, hwk⟩ := State.woken_shown (State.advance_kept s t hs.kept).canonical h2 hw hr
    subst hx
    exact ⟨_, rfl, (State.fld_of_chip hchip (by decide)).trans h0, (State.on_of_chip hchip (by decide)).trans hl,
      (congrArg Power.waking (State.power_of_chip hchip)).trans hwk⟩

end Sys2Proof.Machine
end

section
/-! PROOF. What a SYSTEM reset leaves of a solo chip's trim outputs (R353, R372, R378). -/

namespace Sys2Proof.Machine

open Sys2Proof

/-- The reset state of a solo chip drives its trim channels: DRIVEN of channel 0 is set by a SYSTEM reset from PERST. -/
theorem trimOut_of_perst : (State.reset.resetBy 2 rcSYSTEM).reg (TRM_OUT 0) = 0x40000000#32 := by decide

/-- Refutes O9: on a solo chip a SYSTEM reset sets TRM_OUT.DRIVEN of every channel (R353, R378), which resets to 0 and is not among the exceptions
that the statement names. The reset state with a PERST at its clock is the counterexample. -/
theorem not_systemResetLeavesAonValues : ¬ Obligations.SystemResetLeavesAonValues := by
  unfold Obligations.SystemResetLeavesAonValues
  intro h
  obtain ⟨-, -, -, hreg, -⟩ := h 0 2 State.reset State.reset _ resetIsCanonical.1 rfl (by decide) (by decide) rfl (by decide) rfl rfl (.inl rfl) rfl
  have h0 := hreg (TRM_OUT 0) (by decide) (by decide) (by decide) (by decide) (by decide) (by decide)
  rw [trimOut_of_perst] at h0
  exact absurd h0 (by decide)

end Sys2Proof.Machine
end

section
/-! PROOF. What a reset that reaches the whole device leaves (R372, R378): RST_CAUSE stands, RST_STAT reads its reset value, and the heads and
the streams are gone. -/

namespace Sys2Proof.Machine

open Sys2Proof

variable {s : State}

/-- What the heads and the streams are at. -/
def State.work (s : State) : List (Nat × Head) × List (Nat × Stream) := (s.heads, s.streams)

theorem State.heads_of_work {t : State} (h : t.work = s.work) : t.heads = s.heads := congrArg Prod.fst h

theorem State.streams_of_work {t : State} (h : t.work = s.work) : t.streams = s.streams := congrArg Prod.snd h

theorem foldl_work {β : Type} {f : State → β → State} (hf : ∀ t x, (f t x).work = t.work) (l : List β) (s : State) :
    (l.foldl f s).work = s.work :=
  List.foldlRecOn (motive := fun t => t.work = s.work) l f rfl fun t ht x _ => (hf t x).trans ht

@[simp] theorem State.setReg_work (a : Nat) (v : Word) : (s.setReg a v).work = s.work := rfl
@[simp] theorem State.setFld_work (f : Fld) (x : Nat) : (s.setFld f x).work = s.work := rfl
@[simp] theorem State.setPos_work (p : Pos) : (s.setPos p).work = s.work := rfl
@[simp] theorem State.alarm_work (i : Nat) : (s.alarm i).work = s.work := rfl

@[simp] theorem State.suspShow_work : s.suspShow.work = s.work := rfl

@[simp] theorem State.count_work (f : Fld) (n : Nat) : (s.count f n).work = s.work := rfl

@[simp] theorem State.hwmUpdate_work : s.hwmUpdate.work = s.work := by
  simp [State.hwmUpdate, State.setOn, apply_ite State.work]

@[simp] theorem State.voteFlags_work : s.voteFlags.work = s.work := by
  simp [State.voteFlags, State.distrust, State.setOn, State.setBit, apply_ite State.work]

@[simp] theorem State.posAnew_work : s.posAnew.work = s.work := by simp [State.posAnew]

@[simp] theorem State.posJump_work (v : Int) : (s.posJump v).work = s.work := by simp [State.posJump]

@[simp] theorem State.drivenShow_work : s.drivenShow.work = s.work :=
  foldl_work (f := fun s n => s.setDriven n (s.mayDrive n)) (fun t _ => State.setFld_work (s := t) _ _) _ s

@[simp] theorem State.evtShow_work (n : Nat) : (s.evtShow n).work = s.work := by simp [State.evtShow, State.setBit]

@[simp] theorem State.pinsShow_work : s.pinsShow.work = s.work := foldl_work (f := State.evtShow) (fun _ n => State.evtShow_work n) _ s

@[simp] theorem State.loadCeil_work : s.loadCeil.work = s.work :=
  foldl_work (f := fun t j => t.setReg (TRM_CEIL j) (t.otp.get (fun _ => 0#32) 1 &&& 0x3FFF#32)) (fun _ _ => State.setReg_work _ _) _ s

@[simp] theorem State.loadSub_work : s.loadSub.work = s.work := rfl

@[simp] theorem State.twinAnew_work : s.twinAnew.work = s.work := rfl

/-! ### Bits that are put back -/

/-- The bits of `l` are put back as `old` has them. -/
def State.keepAll (s old : State) (l : List (Nat × Word)) : State := l.foldl (fun t k => t.keepBits old k.1 k.2) s

theorem State.reg_keepAll_ne {old : State} {a : Nat} {l : List (Nat × Word)} (h : a ∉ l.map Prod.fst) : (s.keepAll old l).reg a = s.reg a :=
  List.foldlRecOn (motive := fun t : State => t.reg a = s.reg a) l _ rfl fun t ht k hk =>
    (State.reg_setReg_ne t _ fun he : a = k.1 => h (he ▸ List.mem_map_of_mem hk)).trans ht

@[simp] theorem State.keepAll_work (old : State) (l : List (Nat × Word)) : (s.keepAll old l).work = s.work :=
  foldl_work (fun t (k : Nat × Word) => State.setReg_work (s := t) k.1 ((t.reg k.1 &&& ~~~k.2) ||| (old.reg k.1 &&& k.2))) l s

theorem State.wf_keepAll {old : State} (l : List (Nat × Word)) (hw : SMap.wf regReset s.regs = true) :
    SMap.wf regReset (s.keepAll old l).regs = true :=
  List.foldlRecOn (motive := fun t : State => SMap.wf regReset t.regs = true) l _ hw fun _ ht _ _ => SMap.wf_set ht

/-- The register of one entry of the list that no other entry names. -/
theorem State.reg_keepAll {old : State} {a : Nat} {m : Word} {l r : List (Nat × Word)} (hw : SMap.wf regReset s.regs = true)
    (hl : a ∉ l.map Prod.fst) (hr : a ∉ r.map Prod.fst) :
    (s.keepAll old (l ++ (a, m) :: r)).reg a = (s.reg a &&& ~~~m) ||| (old.reg a &&& m) := by
  have happ : s.keepAll old (l ++ (a, m) :: r) = ((s.keepAll old l).keepBits old a m).keepAll old r := List.foldl_append
  rw [happ, State.reg_keepAll_ne hr, State.keepBits, State.reg_setReg_same (State.wf_keepAll l hw), State.reg_keepAll_ne hl]

/-! ### The wipe -/

@[simp] theorem State.loadCeil_chip : s.loadCeil.chip = s.chip :=
  foldl_chip (fun t j hj => State.setReg_chip _ (by
    have := List.mem_range.1 hj
    simp [chipRegs, TRM_CEIL, HIF_CTL, PWR_STAT, PWR_WAKESRC, CLK_STAT, RST_CAUSE, RST_STAT]
    omega)) s

@[simp] theorem State.loadSub_chip : s.loadSub.chip = s.chip := rfl

@[simp] theorem State.twinAnew_chip : s.twinAnew.chip = s.chip :=
  (State.setReg_chip _ (by decide)).trans (State.setReg_chip _ (by decide))

/-- A wipe starts from an empty state in which it puts back the kept bits; what it does after that leaves the device's own registers. -/
theorem State.wipe_keeps (soft : Bool) : ∃ x : State, x.regs = [] ∧ x.work = ([], []) ∧
    (s.wipe soft).chip = (x.keepAll s (keptBits ++ if soft then softBits else [])).chip ∧ (s.wipe soft).work = ([], []) := by
  apply Exists.intro
  refine ⟨?regs, ?idle, ?chip, ?work⟩
  case chip =>
    unfold State.wipe
    simp only [State.chip_ite, State.drivenShow_chip, State.twinAnew_chip, State.loadSub_chip, State.loadCeil_chip, ite_self]
    rfl
  case regs => rfl
  case idle => rfl
  case work =>
    unfold State.wipe
    simp only [apply_ite State.work, State.drivenShow_work, State.twinAnew_work, State.loadSub_work, State.loadCeil_work, ite_self]
    exact State.keepAll_work s _

theorem State.reg_of_regs_nil (h : s.regs = []) (a : Nat) : s.reg a = regReset a := by
  rw [State.reg, h]
  rfl

theorem State.flashCut_regs : s.flashCut.regs = s.regs := by
  unfold State.flashCut State.setFlash
  split
  · split <;> rfl
  · rfl

/-- RST_STAT and RST_CAUSE after a wipe. -/
theorem State.reg_wipe (soft : Bool) : (s.wipe soft).reg RST_STAT = regReset RST_STAT ∧ (s.wipe soft).reg RST_CAUSE = s.reg RST_CAUSE := by
  obtain ⟨x, hx, -, hchip, -⟩ := State.wipe_keeps (s := s) soft
  have hsplit : keptBits ++ (if soft then softBits else []) =
      keptBits.take 11 ++ (RST_CAUSE, 0xFFFFFFFF#32) :: (keptBits.drop 12 ++ if soft then softBits else []) := by cases soft <;> rfl
  refine ⟨?_, ?_⟩
  · rw [State.reg_of_chip hchip (by decide), State.reg_keepAll_ne (by cases soft <;> decide), State.reg_of_regs_nil hx]
  · rw [State.reg_of_chip hchip (by decide), hsplit, State.reg_keepAll (by rw [hx]; rfl) (by decide) (by cases soft <;> decide)]
    exact (congrArg (_ ||| ·) BitVec.and_allOnes).trans ((congrArg (· ||| _) (BitVec.and_zero)).trans (BitVec.zero_or))

/-- PWR_STAT after a wipe of a SYSTEM reset: its levels alone are kept. -/
theorem State.pwrStat_wipe : (s.wipe false).fld PWR_STAT_STATE = 0 := by
  obtain ⟨x, hx, -, hchip, -⟩ := State.wipe_keeps (s := s) false
  have hsplit : keptBits ++ (if false then softBits else []) = keptBits.take 8 ++ (PWR_STAT, 0x7C#32) :: keptBits.drop 9 := rfl
  rw [State.fld_of_chip hchip (by decide), State.fld, hsplit, PWR_STAT_STATE, State.reg_keepAll (by rw [hx]; rfl) (by decide) (by decide),
    State.reg_of_regs_nil hx, show regReset PWR_STAT = 4#32 by decide]
  have hor : ((4#32 &&& ~~~124#32 ||| s.reg PWR_STAT &&& 124#32).toNat >>> 0) % 2 ^ 2 = 0 := by
    rw [Nat.shiftRight_zero, BitVec.toNat_or, BitVec.toNat_and (s.reg PWR_STAT), Nat.or_mod_two_pow, Nat.and_mod_two_pow]
    exact congrArg (0 ||| ·) (Nat.and_zero _)
  exact hor

/-! ### A reset that takes effect (R372, R375) -/

theorem State.takeReset_of_all {r : Nat} (hr : rcSOFT ≤ r) : ∃ soft, s.takeReset r = (s.clearAll soft).posAnew ∧ (r = rcSYSTEM → soft = false) := by
  have h2 : 2 ≤ r := hr
  have h1 : ¬ (r = rcHEARTH ∧ (!!s.on RST_STAT_DONE) = true) := fun h => absurd (h.1 ▸ h2 : 2 ≤ rcHEARTH) (by decide)
  exact ⟨_, (if_neg (by omega)).trans (if_neg h1), fun h => by rw [h]; rfl⟩

theorem State.takeReset_shown {r : Nat} (hr : rcSOFT ≤ r) : (s.takeReset r).reg RST_STAT = regReset RST_STAT ∧
    (s.takeReset r).reg RST_CAUSE = s.reg RST_CAUSE ∧ (s.takeReset r).work = ([], []) ∧
    (r = rcSYSTEM → (s.takeReset r).fld PWR_STAT_STATE = 0) := by
  obtain ⟨soft, heq, hsoft⟩ := State.takeReset_of_all (s := s) hr
  obtain ⟨hstat, hcause⟩ := State.reg_wipe (s := s.flashCut) soft
  obtain ⟨-, -, -, -, hwork⟩ := State.wipe_keeps (s := s.flashCut) soft
  have hchip : (s.clearAll soft).posAnew.chip = (s.flashCut.wipe soft).chip := State.posAnew_chip
  rw [heq]
  refine ⟨?stat, ?cause, ?work, fun h => ?state⟩
  case stat => exact (State.reg_of_chip hchip (by decide)).trans hstat
  case cause =>
    have hregs : s.flashCut.reg RST_CAUSE = s.reg RST_CAUSE := congrArg (SMap.get regReset · RST_CAUSE) State.flashCut_regs
    exact (State.reg_of_chip hchip (by decide)).trans (hcause.trans hregs)
  case work => exact State.posAnew_work.trans hwork
  case state =>
    rw [State.fld_of_chip hchip (by decide), hsoft h]
    exact State.pwrStat_wipe

/-- Nothing delays a reset: no OTP pulse, no page of a rank record, and no job for a reset that reaches one. -/
theorem State.resetBy_of_idle {b r : Nat} (hsag : s.on PWR_STAT_SAG = false) (hst : s.fld PWR_STAT_STATE ≠ 3) (hd : s.power.delay = none)
    (hp : s.svc.pulse = none) (hg : s.svc.page = false) (ha : r = rcHEARTH ∨ s.armed = false) :
    s.resetBy b r = (s.setFld RST_CAUSE_CAUSE (s.fld RST_CAUSE_CAUSE ||| 2 ^ b)).takeReset r := by
  have hbits : s.workBits = 0 := by simp [State.workBits, hp, hg, b2n]
  have hrec : (decide (rcSOFT ≤ r) && s.armed) = false := by
    rcases ha with ha | ha
    · rw [ha]; rfl
    · rw [ha, Bool.and_false]
  have hwait : (s.on PWR_STAT_SAG || s.fld PWR_STAT_STATE == 3) = false := by simp [hsag, hst]
  simp only [State.resetBy, hwait, hd, hbits, hrec, Bool.false_eq_true, if_false]
  rfl

/-- A reset of reach SOFT or SYSTEM with nothing that delays it. -/
theorem State.resetBy_shown {b r : Nat} (hw : SMap.wf regReset s.regs = true) (hb : b < 9) (hr : rcSOFT ≤ r) (hsag : s.on PWR_STAT_SAG = false)
    (hst : s.fld PWR_STAT_STATE ≠ 3) (hd : s.power.delay = none) (hp : s.svc.pulse = none) (hg : s.svc.page = false) (ha : s.armed = false) :
    bitAt ((s.resetBy b r).fld RST_CAUSE_CAUSE) b = true ∧ (s.resetBy b r).on RST_STAT_DONE = false ∧ (s.resetBy b r).fld RST_STAT_STEP = 0 ∧
      (s.resetBy b r).heads = [] ∧ (s.resetBy b r).streams = [] ∧ (r = rcSYSTEM → (s.resetBy b r).fld PWR_STAT_STATE = 0) := by
  obtain ⟨u, hu⟩ : ∃ u, s.setFld RST_CAUSE_CAUSE (s.fld RST_CAUSE_CAUSE ||| 2 ^ b) = u := ⟨_, rfl⟩
  obtain ⟨hstat, hcause, hwork, hstate⟩ := State.takeReset_shown (s := u) hr
  have heq : s.resetBy b r = u.takeReset r := (State.resetBy_of_idle hsag hst hd hp hg (.inr ha)).trans (by rw [hu])
  rw [heq]
  refine ⟨?cause, ?done, ?step, congrArg Prod.fst hwork, congrArg Prod.snd hwork, hstate⟩
  case cause =>
    have hfld : (u.takeReset r).fld RST_CAUSE_CAUSE = (s.fld RST_CAUSE_CAUSE ||| 2 ^ b) % 2 ^ 9 := by
      have hc : (u.takeReset r).fld RST_CAUSE_CAUSE = u.fld RST_CAUSE_CAUSE := congrArg (fun w : Word => bitsOf w.toNat 0 9) hcause
      rw [hc, ← hu, State.fld_setFld_same hw _ _ (by decide)]
    rw [hfld, bitAt, Nat.testBit_mod_two_pow, Nat.testBit_or, Nat.testBit_two_pow_self]
    simp [hb]
  case done =>
    rw [State.on, State.fld, RST_STAT_DONE, hstat]
    decide
  case step =>
    rw [State.fld, RST_STAT_STEP, hstat]
    decide

end Sys2Proof.Machine
end

section
/-! PROOF. Reset sources, delayed resets and the release (R372 to R379). -/

namespace Sys2Proof.Machine

open Sys2Proof

variable {s : State}

theorem State.resetBy_of_warning (b r : Nat) (h : s.on PWR_STAT_SAG = true ∨ s.fld PWR_STAT_STATE = 3) :
    s.resetBy b r = s.setFld RST_CAUSE_CAUSE (s.fld RST_CAUSE_CAUSE ||| 2 ^ b) :=
  if_pos (by rcases h with h | h <;> simp [h])

theorem State.sysResetWrite_of_key {v : Word} (hk : bitsOf v.toNat 24 8 = 0x5A) (h0 : v.getLsbD 0 = true) (hd : s.on RST_STAT_DONE = true)
    (ha : s.awake = true) : s.sysResetWrite v = s.resetBy 8 rcSOFT := if_pos ⟨hk, h0, hd, ha⟩

theorem State.sysResetWrite_of_other {v : Word} (h : bitsOf v.toNat 24 8 ≠ 0x5A ∨ v.getLsbD 0 = false) : s.sysResetWrite v = s :=
  if_neg fun hc => h.elim (fun hk => hk hc.1) fun h0 => Bool.false_ne_true (h0.symm.trans hc.2.1)

/-- The end of an OTP pulse that delayed a reset. -/
theorem State.endDelay_of_pulse {r k : Nat} {b : Word} {v w : State} (hd : s.power.delay = some r) (hp : s.svc.pulse = some (k, b))
    (hg : s.svc.page = false) (hv : ({ s with otp := s.otp.set (fun _ => 0#32) k (s.otp.get (fun _ => 0#32) k ||| b) } : State) = v)
    (hw : (v.setPower { v.power with delay := none, blocks := 0#32, dlyBits := 0 }).takeReset r = w) (hr : rcSOFT ≤ r ∨ s.power.blocks = 0#32) :
    s.endDelay = w.setReg RST_STAT (w.reg RST_STAT ||| BitVec.ofNat 32 s.power.dlyBits) := by
  simp only [State.endDelay, hd, hp, hg, hv, hw, if_pos hr, Bool.false_eq_true, if_false]

/-! ### The release -/

section
variable {v : State} (pins : ReleasePins) (hv : s.setPower { s.power with rails := s.power.rails || pins.rails } = v)
include hv

theorem State.releaseStep_of_due (hd : v.on RST_STAT_DONE = false) (hsag : v.on PWR_STAT_SAG = false) (h3 : v.fld PWR_STAT_STATE ≠ 3)
    (he : v.power.ended = true) : s.releaseStep pins = match v.fld RST_STAT_STEP with
      | 0 => if v.power.poweron = false ∨ v.power.stepAt + 40000 ≤ v.clk then v.beginStep 1 true else v
      | 1 => if v.power.rails = true ∧ v.power.stepAt + 400 ≤ v.clk then (v.beginStep 2 false).sampleStraps pins.straps.toNat else v
      | 2 => if v.power.stepAt + 800 ≤ v.clk then (v.beginStep 3 false).trimLoad else v
      | 3 => if v.power.stepAt + 800 ≤ v.clk then (v.beginStep 4 true).bootStart else v
      | 4 => if v.power.stepAt + 800 ≤ v.clk then v.beginStep 5 true else v
      | 5 => if v.power.stepAt + 800 ≤ v.clk then v.beginStep 6 true else v
      | _ => if v.power.stepAt + 800 ≤ v.clk then (v.beginStep 7 true).released else v := by
  have hgo : (v.on RST_STAT_DONE || v.on PWR_STAT_SAG || v.fld PWR_STAT_STATE == 3 || !v.power.ended) = false := by simp [hd, hsag, h3, he]
  have hgap (n : Nat) : v.gapOver n = decide (v.power.stepAt + 25 * n ≤ v.clk) := rfl
  have hwait (a b : State) (n : Nat) : (if v.clk < n then a else b) = if n ≤ v.clk then b else a := by
    rw [← ite_not (v.clk < n)]
    simp only [Nat.not_lt]
  simp only [State.releaseStep, hv, hgo, hgap, Bool.false_eq_true, if_false]
  match v.fld RST_STAT_STEP with
  | 0 => simp
  | 1 => simp
  | 2 | 3 | 4 | 5 => simp [hwait]
  | _ + 6 => simp [hwait]

theorem State.releaseStep_of_none (h : v.on RST_STAT_DONE = true ∨ v.power.ended = false) : s.releaseStep pins = v := by
  have hno : (v.on RST_STAT_DONE || v.on PWR_STAT_SAG || v.fld PWR_STAT_STATE == 3 || !v.power.ended) = true := by
    rcases h with h | h <;> simp [h]
  simp only [State.releaseStep, hv, hno, if_true]
end

theorem State.pllLock_of_due (hq : s.fld RST_STAT_STEP = 2) (he : s.power.ended = false) (hsag : s.on PWR_STAT_SAG = false)
    (hm : s.fld CLK_STAT_MODE ≠ 3) (ok : Bool) : s.pllLock ok = if ok then ((s.setOn CLK_STAT_PLLLOCK).setOn CLK_STAT_DRAMLOCK).endStep
      else if s.power.stepAt + 40000 ≤ s.clk then (s.setOn CLK_STAT_NOLOCK).beginStep 2 false else s := by
  have hgap : s.gapOver 1600 = decide (s.power.stepAt + 40000 ≤ s.clk) := rfl
  rw [State.pllLock, if_neg (by simp [hq, he, hsag, hm]), hgap]
  simp only [decide_eq_true_eq]

theorem State.sramFill_of_due (hq : s.fld RST_STAT_STEP = 3) (he : s.power.ended = false) (hsag : s.on PWR_STAT_SAG = false)
    (hc : s.power.stepAt + 65536 ≤ s.clk) : s.sramFill = ({ s with tabs := s.tabs.filled } : State).endStep :=
  if_neg (by simp [hq, he, hsag, hc])

/-! ### Block resets -/

theorem State.blkRst_of_armed {v : Word} (hsag : s.on PWR_STAT_SAG = false) (ha : s.armed = true) (h : v &&& 0x1F1FF#32 ≠ 0#32) :
    s.blkRst v = s.refuse erARMED RST_BLKRST := by
  have hmask : v &&& 0x3FFFF#32 &&& 0x1F1FF#32 = v &&& 0x1F1FF#32 := by rw [BitVec.and_assoc]; rfl
  rw [State.blkRst, if_neg (by rw [hsag]; exact Bool.false_ne_true), if_pos (by rw [hmask]; simp [ha, h])]

theorem State.blkRst_of_free {v m : Word} (hm : v &&& 0x3FFFF#32 = m) (hsag : s.on PWR_STAT_SAG = false) (ha : s.armed = false ∨ v &&& 0x1F1FF#32 = 0#32) (h0 : m ≠ 0#32)
    (hd : s.power.delay = none) : s.blkRst v =
      if s.workBits = 0 then s.blockResets m else (s.setPower { s.power with blocks := m }).delayReset 0 s.workBits := by
  have hmask : v &&& 0x3FFFF#32 &&& 0x1F1FF#32 = v &&& 0x1F1FF#32 := by rw [BitVec.and_assoc]; rfl
  have hfree : (s.armed && (v &&& 0x3FFFF#32 &&& 0x1F1FF#32) != 0#32) = false := by
    rw [hmask]
    rcases ha with ha | ha <;> simp [ha]
  subst hm
  simp only [State.blkRst, hsag, hfree, if_neg h0, hd, Option.isSome_none, Bool.false_eq_true, if_false]
/-! ### The obligation -/

/-- Settles O55: each source resets with its cause and reach; a delayed reset takes effect once what delayed it is over; the release goes on step by
step; a write of RST_BLKRST is refused, waits or resets. -/
theorem resetsAndReleaseRun : Obligations.ResetsAndReleaseRun := by
  refine ⟨?resetn, ?wdog, ?sys, ?sysOther, fun s b r hsag hst hd hp hg ha => State.resetBy_of_idle hsag hst hd hp hg ha,
    fun s b r h => State.resetBy_of_warning b r h, ?delayed, ?notDelayed, ?release, ?released, ?lock, ?fill, ?train, ?dramok, ?notTrained,
    ?blkArmed, ?blkFree, ?blkWarned, ?blocks, ?content⟩
  case resetn =>
    rintro t s _ rfl
    rfl
  case wdog =>
    rintro t s _ rfl
    rfl
  case sys =>
    rintro t v s _ rfl hk h0 hd ha
    exact congrArg Host.Outcome.next (State.sysResetWrite_of_key hk h0 hd ha)
  case sysOther =>
    rintro t v s _ rfl h
    exact congrArg Host.Outcome.next (State.sysResetWrite_of_other h)
  case delayed =>
    rintro t s _ v w r k b rfl hd hp hg hv hw hr
    exact congrArg Host.Outcome.next (State.endDelay_of_pulse hd hp hg hv hw hr)
  case notDelayed =>
    rintro t s _ rfl hd
    exact congrArg Host.Outcome.next (by rw [State.endDelay, hd])
  case release =>
    rintro t straps rails s _ v rfl hv hd hsag h3 he
    exact congrArg Host.Outcome.next (State.releaseStep_of_due ⟨straps, rails⟩ hv hd hsag h3 he)
  case released =>
    rintro t straps rails s _ v rfl hv h
    exact congrArg Host.Outcome.next (State.releaseStep_of_none ⟨straps, rails⟩ hv h)
  case lock =>
    rintro t s _ rfl hq he hsag hm
    exact ⟨congrArg Host.Outcome.next (State.pllLock_of_due hq he hsag hm true), congrArg Host.Outcome.next (State.pllLock_of_due hq he hsag hm false)⟩
  case fill =>
    rintro t s _ rfl hq he hsag hc
    exact congrArg Host.Outcome.next (State.sramFill_of_due hq he hsag hc)
  case train =>
    rintro t store s _ rfl hq ht hsag ha
    exact congrArg Host.Outcome.next (if_neg (by simp [hq, ht, hsag, ha]))
  case dramok =>
    rintro t s _ rfl ht hc hsag ha
    exact congrArg Host.Outcome.next (if_pos (by simp [ht, hc, hsag, ha]))
  case notTrained =>
    rintro t s _ rfl ht
    exact congrArg Host.Outcome.next (if_neg (by simp [ht]))
  case blkArmed =>
    rintro t v s _ rfl hb hsag ha h
    exact congrArg Host.Outcome.next ((State.aonBar_of_served hb _).trans (State.blkRst_of_armed hsag ha h))
  case blkFree =>
    rintro t v s _ rfl hb hsag ha h0 hd
    have heq := (State.aonBar_of_served hb (fun s => s.blkRst v)).trans (State.blkRst_of_free rfl hsag ha h0 hd)
    refine ⟨fun hp hg => congrArg Host.Outcome.next (heq.trans (if_pos ?_)), fun hp => congrArg Host.Outcome.next (heq.trans (if_neg ?_))⟩
    · simp [State.workBits, hp, hg, b2n]
    · have hsome : (s.advance t).svc.pulse.isSome = true := Option.isSome_iff_ne_none.2 hp
      simp [State.workBits, hsome, b2n]
  case blkWarned =>
    rintro t v s _ rfl hsag
    have hblk : (s.advance t).blkRst v = s.advance t := if_pos hsag
    exact congrArg Host.Outcome.next ((ite_congr rfl (fun _ => hblk) fun _ => rfl).trans (ite_self _))
  case blocks =>
    rintro s _ m rfl
    rfl
  case content =>
    rintro t s _ hs rfl hsag hst hd hp hg ha hdone
    have hw : SMap.wf regReset (s.advance t).regs = true := (State.advance_kept s t hs.kept).canonical.1
    have hreset (b r : Nat) (hb : b < 9) (hr : rcSOFT ≤ r) := State.resetBy_shown hw hb hr hsag hst hd hp hg ha
    refine ⟨?resetn, fun hen hfull => ?wdog, fun v hk h0 hawake => ?sys, fun seq hon hup hn => ?request⟩
    case resetn =>
      obtain ⟨hcause, hnot, hstep, hheads, hstreams, -⟩ := hreset 4 rcSYSTEM (by decide) (by decide)
      exact ⟨_, rfl, hcause, hnot, hstep, hheads, hstreams⟩
    case wdog =>
      obtain ⟨hcause, hnot, -⟩ := hreset 5 rcSYSTEM (by decide) (by decide)
      exact ⟨_, congrArg Host.Outcome.next ((if_pos hen).trans (by rw [if_pos hfull])), hcause, hnot⟩
    case sys =>
      obtain ⟨hcause, hnot, -⟩ := hreset 8 rcSOFT (by decide) (by decide)
      exact ⟨_, congrArg Host.Outcome.next (State.sysResetWrite_of_key hk h0 hdone hawake), hcause, hnot⟩
    case request =>
      obtain ⟨hcause, hnot, -⟩ := hreset 6 rcSYSTEM (by decide) (by decide)
      exact ⟨_, congrArg Host.Outcome.next (if_pos (by simp [hon, hup, hn])), hcause, hnot⟩

end Sys2Proof.Machine
end

section
/-! PROOF. The supplies: the power-fail warning, the changeover to VBACK, the return of VMAIN and the AON power-on (R357 to R360, R376). -/

namespace Sys2Proof.Machine

open Sys2Proof

variable {s : State}

/-- The memories, and what Hearth is at. -/
def State.mems (s : State) : Tables × Svc := (s.tabs, s.svc)

theorem State.tabs_of_mems {t : State} (h : t.mems = s.mems) : t.tabs = s.tabs := congrArg Prod.fst h

theorem State.svc_of_mems {t : State} (h : t.mems = s.mems) : t.svc = s.svc := congrArg Prod.snd h

@[simp] theorem State.setReg_mems (a : Nat) (v : Word) : (s.setReg a v).mems = s.mems := rfl
@[simp] theorem State.setFld_mems (f : Fld) (x : Nat) : (s.setFld f x).mems = s.mems := rfl
@[simp] theorem State.setPos_mems (p : Pos) : (s.setPos p).mems = s.mems := rfl
@[simp] theorem State.alarm_mems (i : Nat) : (s.alarm i).mems = s.mems := rfl

@[simp] theorem State.voteFlags_mems : s.voteFlags.mems = s.mems := by
  simp [State.voteFlags, State.distrust, State.setOn, State.setBit, apply_ite State.mems]

@[simp] theorem State.hwmUpdate_mems : s.hwmUpdate.mems = s.mems := by
  simp [State.hwmUpdate, State.count, State.setOn, apply_ite State.mems]

@[simp] theorem State.posJump_mems (v : Int) : (s.posJump v).mems = s.mems := by simp [State.posJump]

@[simp] theorem State.indexArm_mems : s.indexArm.mems = s.mems := by simp [State.indexArm, apply_ite State.mems]

@[simp] theorem State.evtShow_mems (n : Nat) : (s.evtShow n).mems = s.mems := by simp [State.evtShow, State.setBit]

@[simp] theorem State.pinsShow_mems : s.pinsShow.mems = s.mems :=
  List.foldlRecOn (motive := fun t : State => t.mems = s.mems) _ State.evtShow rfl fun _ ht n _ => (State.evtShow_mems n).trans ht

@[simp] theorem State.bankReturn_mems : s.bankReturn.mems = s.mems := by simp [State.bankReturn]

@[simp] theorem State.bankReturn_chip : s.bankReturn.chip = s.chip := by simp [State.bankReturn]

theorem State.setFld_power (f : Fld) (x : Nat) : (s.setFld f x).power = s.power := rfl

/-! ### The power-fail warning -/

/-- PWR_STAT as a warning leaves it. -/
theorem State.warned_shown {a b c x : State} {rail vback : Bool} (hs : SMap.wf regReset s.regs = true) (ha : s.setOn PWR_STAT_PFW = a)
    (hb : a.setOn PWR_STAT_SAG = b) (hc : b.setBit PWR_STAT_VMAINOK rail = c) (hx : c.setBit PWR_STAT_VBACKOK vback = x) :
    x.on PWR_STAT_PFW = true ∧ x.on PWR_STAT_SAG = true ∧ x.on PWR_STAT_VMAINOK = rail ∧ x.on PWR_STAT_VBACKOK = vback := by
  have hbit (v : Bool) : (b2n v % 2 ^ 1 != 0) = v := by cases v <;> rfl
  have hwa : SMap.wf regReset a.regs = true := ha ▸ State.wf_setFld hs _ _
  have hwb : SMap.wf regReset b.regs = true := hb ▸ State.wf_setFld hwa _ _
  have hwc : SMap.wf regReset c.regs = true := hc ▸ State.wf_setFld hwb _ _
  have h1 : a.on PWR_STAT_PFW = true := by rw [State.on, ← ha, State.setOn, State.fld_setFld_same hs _ _ (by decide)]; rfl
  have h2 : b.on PWR_STAT_PFW = true ∧ b.on PWR_STAT_SAG = true := by
    rw [State.on, State.on, ← hb, State.setOn, State.fld_setFld_beside hwa PWR_STAT_SAG PWR_STAT_PFW _ rfl (by decide) (by decide),
      State.fld_setFld_same hwa _ _ (by decide)]
    exact ⟨h1, rfl⟩
  have h3 : c.on PWR_STAT_PFW = true ∧ c.on PWR_STAT_SAG = true ∧ c.on PWR_STAT_VMAINOK = rail := by
    rw [State.on, State.on, State.on, ← hc, State.setBit,
      State.fld_setFld_beside hwb PWR_STAT_VMAINOK PWR_STAT_PFW _ rfl (by decide) (by decide),
      State.fld_setFld_beside hwb PWR_STAT_VMAINOK PWR_STAT_SAG _ rfl (by decide) (by decide), State.fld_setFld_same hwb _ _ (by decide)]
    exact ⟨h2.1, h2.2, hbit rail⟩
  rw [State.on, State.on, State.on, State.on, ← hx, State.setBit,
    State.fld_setFld_beside hwc PWR_STAT_VBACKOK PWR_STAT_PFW _ rfl (by decide) (by decide),
    State.fld_setFld_beside hwc PWR_STAT_VBACKOK PWR_STAT_SAG _ rfl (by decide) (by decide),
    State.fld_setFld_beside hwc PWR_STAT_VBACKOK PWR_STAT_VMAINOK _ rfl (by decide) (by decide), State.fld_setFld_same hwc _ _ (by decide)]
  exact ⟨h3.1, h3.2.1, h3.2.2, hbit vback⟩

section
variable {rail vback : Bool} {x v w : State}
  (hx : (((s.setOn PWR_STAT_PFW).setOn PWR_STAT_SAG).setBit PWR_STAT_VMAINOK rail).setBit PWR_STAT_VBACKOK vback = x)
  (hv : (x.alarm alPWRWARN).failFreeze = v)
  (hw : ({ v with trims := { v.trims with cut := true } } : State).retargetAll.trimsZero.trnShow = w) (h3 : s.fld PWR_STAT_STATE ≠ 3)
include hx hv hw h3

theorem State.powerFail_of_supplied : s.powerFail rail vback =
    (w.setPower { w.power with delay := none, blocks := 0#32, dlyBits := 0, railLow := w.power.railLow || rail }).putRecord 1 := by
  subst hx
  subst hv
  subst hw
  exact if_neg h3

theorem State.powerFail_shown (hs : SMap.wf regReset s.regs = true) :
    (s.powerFail rail vback).on PWR_STAT_PFW = true ∧ (s.powerFail rail vback).on PWR_STAT_SAG = true ∧
    (s.powerFail rail vback).on PWR_STAT_VMAINOK = rail ∧ (s.powerFail rail vback).on PWR_STAT_VBACKOK = vback ∧
    (s.powerFail rail vback).trims.cut = true := by
  have hvx : v.chip = x.chip := by rw [← hv, State.failFreeze_chip, State.alarm_chip]
  have hwv : w.chip = ({ v with trims := { v.trims with cut := true } } : State).chip := by
    rw [← hw, State.trnShow_chip, State.trimsZero_chip, State.retargetAll_chip]
  have hreg : (s.powerFail rail vback).reg PWR_STAT = x.reg PWR_STAT := by
    rw [State.powerFail_of_supplied hx hv hw h3, State.reg_of_chip (State.putRecord_chip 1) (by decide)]
    exact (State.reg_of_chip hwv (by decide)).trans (State.reg_of_chip hvx (by decide) : v.reg PWR_STAT = _)
  have hon (f : Fld) (hf : f.addr = PWR_STAT) : (s.powerFail rail vback).on f = x.on f := by rw [State.on, State.on, State.fld, State.fld, hf, hreg]
  obtain ⟨hpfw, hsag, hvmain, hvback⟩ := State.warned_shown hs rfl rfl rfl hx
  refine ⟨(hon _ rfl).trans hpfw, (hon _ rfl).trans hsag, (hon _ rfl).trans hvmain, (hon _ rfl).trans hvback, ?_⟩
  rw [State.powerFail_of_supplied hx hv hw h3, State.cut_of_chip (State.putRecord_chip 1)]
  exact State.cut_of_chip hwv
end

/-! ### The changeover -/

/-- POS_STATE.BANKED stands as set. -/
def State.bankShown (s : State) : Prop := SMap.wf regReset s.regs = true ∧ s.on POS_STATE_BANKED = true

theorem State.bankShown_setFld {f : Fld} (h : s.bankShown) (x : Nat)
    (hf : f.addr ≠ POS_STATE ∨ f.addr = POS_STATE ∧ f.lo + f.width ≤ 11) : (s.setFld f x).bankShown := by
  refine ⟨State.wf_setFld h.1 f x, (congrArg (· != 0) ?_).trans h.2⟩
  rcases hf with hf | ⟨ha, hl⟩
  · exact State.fld_setFld_ne _ _ _ _ (Ne.symm hf)
  · exact State.fld_setFld_beside h.1 f POS_STATE_BANKED x ha.symm (.inl hl) (by omega)

theorem State.bankShown_of_regs {t : State} (h : s.bankShown) (hr : t.regs = s.regs) : t.bankShown := by
  unfold State.bankShown State.on State.fld State.reg
  rw [hr]
  exact h

theorem State.bankShown_ite {c : Prop} [Decidable c] {a b : State} (ha : a.bankShown) (hb : b.bankShown) : (if c then a else b).bankShown := by
  split
  · exact ha
  · exact hb

theorem State.bankShown_distrust (h : s.bankShown) : s.distrust.bankShown :=
  State.bankShown_setFld (State.bankShown_setFld h 0 (.inr (by decide))) 1 (.inl (by decide))

theorem State.bankShown_voteFlags (h : s.bankShown) : s.voteFlags.bankShown := by
  have hflags (x y : Nat) : ((s.setFld POS_STATE_OUTV x).setFld POS_STATE_NOMAJ y).bankShown :=
    State.bankShown_setFld (State.bankShown_setFld h x (.inr (by decide))) y (.inr (by decide))
  have halarm (x y : Nat) : (((s.setFld POS_STATE_OUTV x).setFld POS_STATE_NOMAJ y).alarm alENCVOTE).bankShown :=
    State.bankShown_of_regs (hflags x y) rfl
  exact State.bankShown_ite (State.bankShown_distrust (State.bankShown_ite (hflags _ _) (halarm _ _)))
    (State.bankShown_ite (hflags _ _) (halarm _ _))

theorem State.bankShown_hwmUpdate (h : s.bankShown) : s.hwmUpdate.bankShown := by
  have hpos (p : Pos) : (s.setPos p).bankShown := State.bankShown_of_regs h rfl
  refine State.bankShown_ite ?caught (State.bankShown_ite ?behind h)
  case caught => exact State.bankShown_setFld (State.bankShown_setFld (hpos _) 0 (.inr (by decide))) 0 (.inl (by decide))
  case behind =>
    exact State.bankShown_setFld (State.bankShown_setFld (State.bankShown_setFld h 1 (.inr (by decide))) 1 (.inl (by decide))) _ (.inl (by decide))

theorem State.bankShown_posJump (h : s.bankShown) (v : Int) : (s.posJump v).bankShown :=
  State.bankShown_hwmUpdate (State.bankShown_of_regs h rfl)

theorem State.bankShown_evtShow (h : s.bankShown) {n : Nat} (hn : n < 8) : (s.evtShow n).bankShown := by
  have hne : TIM_EVTCTL n ≠ POS_STATE := by simp only [TIM_EVTCTL, POS_STATE]; omega
  exact State.bankShown_setFld (State.bankShown_setFld h _ (.inl hne)) _ (.inl hne)

theorem State.bankShown_pinsShow (h : s.bankShown) : s.pinsShow.bankShown :=
  List.foldlRecOn (motive := State.bankShown) _ State.evtShow h fun _ ht _ hn => State.bankShown_evtShow ht (List.mem_range.1 hn)

section
variable {vback : Bool} {y v o w x : State} (h3 : s.fld PWR_STAT_STATE ≠ 3)
  (hy : (if s.chanOn (s.fld POS_CTL_BANKCH) = true then s else s.setPos { s.pos with
    cnt := s.pos.cnt.set (fun _ => 0) (s.fld POS_CTL_BANKCH) s.vote }) = y)
  (hv : ((y.clearAll false).keepTime s).setReg POS_SPEED (s.reg POS_SPEED) = v)
  (ho : ({ v with tabs := v.storeFill.tabs.filled, power := { v.power with rails := false } } : State) = o)
  (hw : (((o.setFld PWR_STAT_STATE 3).setFld PWR_STAT_VMAINOK 0).setBit PWR_STAT_VBACKOK vback).setOn PWR_STAT_BANKED = w)
  (hx : ((w.setOn POS_STATE_BANKED).setReg SVC_BOOTST 3#32).pinsShow = x)
include h3 hy hv ho hw hx

theorem State.changeover_of_supplied : s.changeover vback = (x.posJump x.vote).voteFlags := by
  subst hy
  subst hv
  subst ho
  subst hw
  subst hx
  exact if_neg h3

/-- What the changeover leaves of the device. -/
theorem State.changeover_shown (hs : s.canonical) :
    (s.changeover vback).fld PWR_STAT_STATE = 3 ∧ (s.changeover vback).on PWR_STAT_BANKED = true ∧
    (s.changeover vback).on POS_STATE_BANKED = true ∧ (s.changeover vback).tabs.store = [] ∧ (s.changeover vback).heads = [] := by
  have hvw : SMap.wf regReset v.regs = true := by
    have hyk : State.kept s y := by
      rw [← hy]
      split
      · exact hs.kept
      · exact State.setPos_kept _ _ hs.kept
    exact hv ▸ (State.setReg_kept _ _ _ (State.keepTime_kept _ s (State.clearAll_kept _ false hyk))).canonical.1
  have how : SMap.wf regReset o.regs = true := by rw [← ho]; exact hvw
  obtain ⟨a, ha⟩ : ∃ a, o.setFld PWR_STAT_STATE 3 = a := ⟨_, rfl⟩
  obtain ⟨b, hb⟩ : ∃ b, a.setFld PWR_STAT_VMAINOK 0 = b := ⟨_, rfl⟩
  obtain ⟨z, hz⟩ : ∃ z, b.setBit PWR_STAT_VBACKOK vback = z := ⟨_, rfl⟩
  have haw : SMap.wf regReset a.regs = true := ha ▸ State.wf_setFld how _ _
  have hbw : SMap.wf regReset b.regs = true := hb ▸ State.wf_setFld haw _ _
  have hzw : SMap.wf regReset z.regs = true := hz ▸ State.wf_setFld hbw _ _
  have hzw' : z.setOn PWR_STAT_BANKED = w := by rw [← hw, ha, hb, hz]
  have hww : SMap.wf regReset w.regs = true := hzw' ▸ State.wf_setFld hzw _ _
  have hx' : (((w.setOn POS_STATE_BANKED).setReg SVC_BOOTST 3#32)).chip = w.chip :=
    (State.setReg_chip _ (by decide)).trans (State.setFld_chip _ (by decide))
  have heq := State.changeover_of_supplied h3 hy hv ho hw hx
  have hchip : (s.changeover vback).chip = w.chip := by
    rw [heq, State.voteFlags_chip, State.posJump_chip, ← hx, State.pinsShow_chip, hx']
  refine ⟨?state, ?banked, ?position, ?store, ?heads⟩
  case state =>
    rw [State.fld_of_chip hchip (by decide), ← hzw', State.setOn, State.fld_setFld_beside hzw PWR_STAT_BANKED PWR_STAT_STATE _ rfl (by decide) (by decide),
      ← hz, State.setBit, State.fld_setFld_beside hbw PWR_STAT_VBACKOK PWR_STAT_STATE _ rfl (by decide) (by decide),
      ← hb, State.fld_setFld_beside haw PWR_STAT_VMAINOK PWR_STAT_STATE _ rfl (by decide) (by decide),
      ← ha, State.fld_setFld_same how _ _ (by decide)]
    rfl
  case banked =>
    rw [State.on_of_chip hchip (by decide), State.on, ← hzw', State.setOn, State.fld_setFld_same hzw _ _ (by decide)]
    rfl
  case position =>
    have hset : (w.setOn POS_STATE_BANKED).bankShown :=
      ⟨State.wf_setFld hww _ _, congrArg (· != 0) (State.fld_setFld_same hww _ _ (by decide))⟩
    have hboot : ((w.setOn POS_STATE_BANKED).setReg SVC_BOOTST 3#32).bankShown := ⟨SMap.wf_set hset.1,
      (congrArg (fun v : Word => bitsOf v.toNat 11 1 != 0) (State.reg_setReg_ne _ _ (by decide))).trans hset.2⟩
    rw [heq]
    exact (State.bankShown_voteFlags (State.bankShown_posJump (hx ▸ State.bankShown_pinsShow hboot) _)).2
  case store =>
    have hmems : (s.changeover vback).mems = o.mems := by
      simp only [heq, State.voteFlags_mems, State.posJump_mems, ← hx, State.pinsShow_mems, ← hw, State.setReg_mems, State.setFld_mems,
        State.setOn, State.setBit]
    rw [State.tabs_of_mems hmems, ← ho]
    rfl
  case heads =>
    have hwork : (s.changeover vback).work = v.work := by
      have hov : o.work = v.work := by rw [← ho]; rfl
      simp only [heq, State.voteFlags_work, State.posJump_work, ← hx, State.pinsShow_work, ← hw, State.setReg_work, State.setFld_work,
        State.setOn, State.setBit, hov]
    have hclear : v.work = (y.clearAll false).work := by
      rw [← hv, State.setReg_work]
      exact foldl_work (fun t a => State.setReg_work (s := t) a (s.reg a)) timeRegs (y.clearAll false)
    obtain ⟨-, -, -, -, hwipe⟩ := State.wipe_keeps (s := y.flashCut) false
    exact congrArg Prod.fst (hwork.trans (hclear.trans hwipe))
end

/-! ### The return of VMAIN -/

/-- The reset that ends Banked, with nothing that delays it. -/
theorem State.bankedReset_shown {b v w : State} {vback : Bool} (hs : s.canonical) (hb : s.setOn PWR_STAT_VMAINOK = b)
    (hv : b.setBit PWR_STAT_VBACKOK vback = v) (hw : v.setFld PWR_STAT_STATE 0 = w) (hsag : s.on PWR_STAT_SAG = false)
    (ha : s.armed = false) (hd : s.power.delay = none) (hp : s.svc.pulse = none) (hg : s.svc.page = false) :
    (w.bankReturn.resetBy 1 rcSYSTEM).fld PWR_STAT_STATE = 0 ∧ bitAt ((w.bankReturn.resetBy 1 rcSYSTEM).fld RST_CAUSE_CAUSE) 1 = true ∧
    (w.bankReturn.resetBy 1 rcSYSTEM).on RST_STAT_DONE = false := by
  have hbc : b.canonical := hb ▸ hs.setFld _ _
  have hvc : v.canonical := hv ▸ hbc.setFld _ _
  have hwc : w.canonical := hw ▸ hvc.setFld _ _
  have hpower : w.power = s.power := by rw [← hw, State.setFld_power, ← hv, State.setBit, State.setFld_power, ← hb, State.setOn, State.setFld_power]
  have hmems : w.bankReturn.mems = s.mems := by
    rw [State.bankReturn_mems, ← hw, State.setFld_mems, ← hv, State.setBit, State.setFld_mems, ← hb, State.setOn, State.setFld_mems]
  have hsvc : w.bankReturn.svc = s.svc := State.svc_of_mems hmems
  have hstate : w.bankReturn.fld PWR_STAT_STATE ≠ 3 := by
    rw [State.fld_of_chip State.bankReturn_chip (by decide), ← hw, State.fld_setFld_same hvc.1 _ _ (by decide)]
    decide
  have hnosag : w.bankReturn.on PWR_STAT_SAG = false := by
    rw [State.on_of_chip State.bankReturn_chip (by decide), State.on, ← hw,
      State.fld_setFld_beside hvc.1 PWR_STAT_STATE PWR_STAT_SAG _ rfl (by decide) (by decide), ← hv, State.setBit,
      State.fld_setFld_beside hbc.1 PWR_STAT_VBACKOK PWR_STAT_SAG _ rfl (by decide) (by decide), ← hb, State.setOn,
      State.fld_setFld_beside hs.1 PWR_STAT_VMAINOK PWR_STAT_SAG _ rfl (by decide) (by decide)]
    exact hsag
  have hdelay : w.bankReturn.power.delay = none := by rw [State.power_of_chip State.bankReturn_chip, hpower, hd]
  have harmed : w.bankReturn.armed = false := by
    rw [State.armed_of_chip State.bankReturn_chip, State.armed, State.on, ← hw, State.fld_setFld_ne _ _ _ _ (by decide), ← hv, State.setBit,
      State.fld_setFld_ne _ _ _ _ (by decide), ← hb, State.setOn, State.fld_setFld_ne _ _ _ _ (by decide)]
    exact ha
  obtain ⟨hcause, hdone, -, -, -, hst⟩ := State.resetBy_shown (b := 1) (r := rcSYSTEM) (State.bankReturn_kept w hwc.kept).canonical.1 (by decide) (by decide) hnosag hstate hdelay
    ((congrArg Svc.pulse hsvc).trans hp) ((congrArg Svc.page hsvc).trans hg) harmed
  exact ⟨hst rfl, hcause, hdone⟩

section
variable {p : Supplies} {v : State}
  (hv : ((s.setPower { s.power with railLow := s.power.railLow && !p.rails }).setOn PWR_STAT_VMAINOK).setBit PWR_STAT_VBACKOK p.vback = v)
include hv

theorem State.vmainGood_eq : s.vmainGood p = if s.fld PWR_STAT_STATE = 3 then ((v.setFld PWR_STAT_STATE 0).bankReturn).resetBy 1 rcSYSTEM
    else if (s.on PWR_STAT_SAG && !(s.power.railLow && !p.rails)) = true then
      ((v.setFld PWR_STAT_SAG 0).setOn PWR_STAT_BROWNOUT).resetBy 1 rcSYSTEM
    else v := by
  subst hv
  rfl

theorem State.vmainGood_shown (hs : s.canonical) (h3 : s.fld PWR_STAT_STATE = 3) (hsag : s.on PWR_STAT_SAG = false)
    (ha : s.armed = false) (hd : s.power.delay = none) (hp : s.svc.pulse = none) (hg : s.svc.page = false) :
    (s.vmainGood p).fld PWR_STAT_STATE = 0 ∧ bitAt ((s.vmainGood p).fld RST_CAUSE_CAUSE) 1 = true ∧ (s.vmainGood p).on RST_STAT_DONE = false := by
  rw [State.vmainGood_eq hv, if_pos h3]
  exact State.bankedReset_shown (s := s.setPower { s.power with railLow := s.power.railLow && !p.rails }) hs rfl hv rfl hsag ha hd hp hg
end

/-! ### The AON power-on -/

/-- The memories and what a power-on keeps of the outside. -/
def State.bulk (s : State) : List (Nat × Head) × Tables × List PortReq × SMap Word × List HostWrite := (s.heads, s.tabs, s.portQ, s.otp, s.out)

theorem State.setReg_bulk (a : Nat) (v : Word) : (s.setReg a v).bulk = s.bulk := rfl

theorem State.keepAll_bulk (old : State) (l : List (Nat × Word)) : (s.keepAll old l).bulk = s.bulk :=
  List.foldlRecOn (motive := fun t : State => t.bulk = s.bulk) l _ rfl fun t ht k _ =>
    (State.setReg_bulk (s := t) k.1 ((t.reg k.1 &&& ~~~k.2) ||| (old.reg k.1 &&& k.2))).trans ht

theorem State.loadCeil_bulk : s.loadCeil.bulk = s.bulk :=
  List.foldlRecOn (motive := fun t : State => t.bulk = s.bulk) _ _ rfl fun _ ht _ _ => (State.setReg_bulk _ _).trans ht

theorem State.reg_loadCeil_ne {a : Nat} (h : ∀ j, j < 3 → a ≠ TRM_CEIL j) : s.loadCeil.reg a = s.reg a :=
  List.foldlRecOn (motive := fun t : State => t.reg a = s.reg a) _ _ rfl fun t ht j hj =>
    (State.reg_setReg_ne t _ (h j (List.mem_range.1 hj))).trans ht

/-- The AON power-on starts from the reset state, in which it puts back what pins show and what the part was made with. -/
theorem State.aonPor_keeps (vback : Bool) : ∃ (x : State) (l : List (Nat × Word)), x.regs = [] ∧
    x.bulk = ([], Tables.reset, [], s.otp, s.out) ∧ l.map Prod.fst = [SYS_ID, TRN_STATE, SVC_KVER, SVC_ASTAT] ∧
    s.aonPor vback = ((x.keepAll s l).loadCeil.loadSub).setBit PWR_STAT_VBACKOK vback := by
  apply Exists.intro
  refine ⟨[(SYS_ID, 0xFFFFFFFF#32), (TRN_STATE, fldMask TRN_STATE_DRVRDY), (SVC_KVER, 0xFFFFFFFF#32),
    (SVC_ASTAT, fldMask SVC_ASTAT_SERVICE ||| fldMask SVC_ASTAT_SEALED)], ?regs, ?bulk, rfl, ?eq⟩
  case eq =>
    unfold State.aonPor State.keepAll
    dsimp only
  case regs => rfl
  case bulk => rfl

/-- What the AON power-on leaves of the registers and the memories. -/
theorem State.aonPor_shown (vback : Bool) : (s.aonPor vback).reg RST_STAT = regReset RST_STAT ∧ (s.aonPor vback).reg HIF_CTL = regReset HIF_CTL ∧
    (s.aonPor vback).reg POS_CTL = regReset POS_CTL ∧ (s.aonPor vback).heads = [] ∧ (s.aonPor vback).tabs = Tables.reset ∧
    (s.aonPor vback).portQ = [] ∧ (s.aonPor vback).otp = s.otp ∧ (s.aonPor vback).out = s.out := by
  obtain ⟨x, l, hx, hbulk, hl, heq⟩ := State.aonPor_keeps (s := s) vback
  have hb : (s.aonPor vback).bulk = ([], Tables.reset, [], s.otp, s.out) := by
    rw [heq, State.setBit, State.setFld, State.setReg_bulk]
    exact State.loadCeil_bulk.trans ((State.keepAll_bulk s l).trans hbulk)
  have hreg {a : Nat} (ha : a ≠ PWR_STAT) (hc : ∀ j, j < 3 → a ≠ TRM_CEIL j) (hn : a ∉ [SYS_ID, TRN_STATE, SVC_KVER, SVC_ASTAT]) :
      (s.aonPor vback).reg a = regReset a := by
    rw [heq, State.setBit, State.reg_setFld_ne _ _ _ ha]
    exact (State.reg_loadCeil_ne hc).trans ((State.reg_keepAll_ne (hl ▸ hn)).trans (State.reg_of_regs_nil hx a))
  exact ⟨hreg (by decide) (by decide) (by decide), hreg (by decide) (by decide) (by decide), hreg (by decide) (by decide) (by decide),
    congrArg Prod.fst hb, congrArg (·.2.1) hb, congrArg (·.2.2.1) hb, congrArg (·.2.2.2.1) hb, congrArg (·.2.2.2.2) hb⟩

/-! ### Time leaves the OTP alone -/

theorem State.setReg_otp (a : Nat) (v : Word) : (s.setReg a v).otp = s.otp := rfl
theorem State.tbMove_otp (dt b : Nat) : (s.tbMove dt b).otp = s.otp := rfl
@[simp] theorem State.setFld_otp (f : Fld) (x : Nat) : (s.setFld f x).otp = s.otp := rfl
@[simp] theorem State.setEvt_otp (n : Nat) (e : Evt) : (s.setEvt n e).otp = s.otp := rfl
@[simp] theorem State.evtShow_otp (n : Nat) : (s.evtShow n).otp = s.otp := rfl
@[simp] theorem State.evtPulse_otp (n w : Nat) : (s.evtPulse n w).otp = s.otp := rfl

@[simp] theorem State.evtOver_otp (n : Nat) : (s.evtOver n).otp = s.otp := by simp [State.evtOver, State.setOn, apply_ite State.otp]

@[simp] theorem State.evtCatch_otp (n : Nat) : (s.evtCatch n).otp = s.otp := by
  simp [State.evtCatch, State.setOn, State.count, apply_ite State.otp]

@[simp] theorem State.evtStepped_otp (b : Nat) : (s.evtStepped b).otp = s.otp :=
  List.foldlRecOn (motive := fun t : State => t.otp = s.otp) _ _ rfl fun t ht n _ => by
    simp [apply_ite State.otp, ht]

@[simp] theorem State.schedStepped_otp (old : State) : (State.schedStepped old s).otp = s.otp := by
  unfold State.schedStepped
  dsimp only
  split <;> rfl

theorem State.tbStep_otp (b : Nat) (v : Word) : (s.tbStep b v).otp = s.otp := by
  simp [State.tbStep, State.tbPut, apply_ite State.otp]

theorem State.takeSteps_otp : s.takeSteps.otp = s.otp :=
  List.foldlRecOn (motive := fun t : State => t.otp = s.otp) _ _ rfl fun _ ht _ _ => (State.tbStep_otp _ _).trans ht

theorem State.noteSeen_otp : s.noteSeen.otp = s.otp := by
  unfold State.noteSeen
  dsimp only
  split
  · rfl
  · split <;> rfl

theorem State.goOn_otp (t : Nat) : (s.goOn t).otp = s.otp := by
  simp only [State.goOn, apply_ite State.otp, State.setReg_otp, State.tbMove_otp, State.noteSeen_otp, ite_self]

theorem State.advance_otp (t : Nat) : (s.advance t).otp = s.otp := by
  unfold State.advance
  simp only [apply_ite State.otp, State.goOn_otp, State.takeSteps_otp, ite_self]

/-! ### The obligation -/

/-- Settles O53: a warning cuts the outputs and leaves its record; the changeover enters Banked; the return of VMAIN resets; the AON power-on
leaves reset values. -/
theorem suppliesRun : Obligations.SuppliesRun := by
  refine ⟨?warning, ?banked, ?changeover, ?good, ?aonpor, ?shown, ?returned⟩
  case warning =>
    rintro t rail vback s _ v w rfl h3 hv hw
    exact congrArg Host.Outcome.next (State.powerFail_of_supplied rfl hv hw h3)
  case banked =>
    rintro t rail vback s _ rfl h3
    exact ⟨congrArg Host.Outcome.next (if_pos h3), congrArg Host.Outcome.next (if_pos h3)⟩
  case changeover =>
    rintro t vback s _ y v w x rfl h3 hy hv hw hx
    exact congrArg Host.Outcome.next (State.changeover_of_supplied h3 hy hv rfl hw hx)
  case good =>
    rintro t vback rails s _ v rfl hv
    have heq := State.vmainGood_eq (p := ⟨vback, rails⟩) hv
    refine ⟨fun h3 => congrArg Host.Outcome.next (heq.trans (if_pos h3)), fun h3 hsag hr => congrArg Host.Outcome.next
      (heq.trans ((if_neg h3).trans (if_pos ?_))), fun h3 hr => congrArg Host.Outcome.next (heq.trans ((if_neg h3).trans (if_neg ?_)))⟩
    · rcases hr with hr | hr <;> simp [hsag, hr]
    · rcases hr with hr | ⟨hl, hr⟩
      · simp [hr]
      · simp [hl, hr]
  case aonpor =>
    intro t vback s
    obtain ⟨hstat, hctl, hpos, hheads, htabs, hport, hkeep, hout⟩ := State.aonPor_shown (s := s.advance t) vback
    exact ⟨_, rfl, hstat, hctl, hpos, hheads, htabs, hport, hkeep.trans (State.advance_otp t), hout⟩
  case shown =>
    rintro t rail vback s _ hs rfl h3
    have hu := (State.advance_kept s t hs.kept).canonical
    exact ⟨⟨_, rfl, State.powerFail_shown rfl rfl rfl h3 hu.1⟩, ⟨_, rfl, State.changeover_shown h3 rfl rfl rfl rfl rfl hu⟩⟩
  case returned =>
    rintro t p s _ hs rfl h3 hsag ha hd hp hg
    exact ⟨_, rfl, State.vmainGood_shown rfl (State.advance_kept s t hs.kept).canonical h3 hsag ha hd hp hg⟩

end Sys2Proof.Machine
end

section
/-! PROOF. What ARM does after it has set ARMED leaves the device's own registers (R61, R163, R228, R251). -/

namespace Sys2Proof.Machine

open Sys2Proof

variable {s : State}

/-! ### Effective values and origins -/

theorem State.putEff_chip (u : Nat) (e : Eff) : (s.putEff u e).chip = s.chip := by
  have hctl : UNT_EFFCTL u ∉ chipRegs := by simp [chipRegs, UNT_EFFCTL, HIF_CTL, PWR_STAT, PWR_WAKESRC, CLK_STAT, RST_CAUSE, RST_STAT]; omega
  have hdw : UNT_EFFDW u ∉ chipRegs := by simp [chipRegs, UNT_EFFDW, HIF_CTL, PWR_STAT, PWR_WAKESRC, CLK_STAT, RST_CAUSE, RST_STAT]; omega
  have hx : UNT_EFFX u ∉ chipRegs := by simp [chipRegs, UNT_EFFX, HIF_CTL, PWR_STAT, PWR_WAKESRC, CLK_STAT, RST_CAUSE, RST_STAT]; omega
  have htrim : UNT_EFFTRIM u ∉ chipRegs := by simp [chipRegs, UNT_EFFTRIM, HIF_CTL, PWR_STAT, PWR_WAKESRC, CLK_STAT, RST_CAUSE, RST_STAT]; omega
  simp only [State.putEff, State.setReg_chip _ htrim, State.setReg_chip _ hx, State.setReg_chip _ hdw, State.setReg_chip _ hctl]

theorem State.putEffHead_chip {h : Nat} (hh : h < 68) : (s.putEffHead h).chip = s.chip :=
  (State.setWant_chip hh _).trans (State.putEff_chip h _)

@[simp] theorem State.resolveAll_chip : s.resolveAll.chip = s.chip :=
  (foldl_chip (fun _ _ _ => State.putEff_chip _ _) _).trans
    (foldl_chip (fun _ _ hh => State.putEffHead_chip (Nat.lt_trans (List.mem_range.1 hh) (by decide))) s)

theorem State.putLastOf_chip (u : Nat) : (s.putLastOf u).chip = s.chip := by
  have hlo : UNT_LASTLO u ∉ chipRegs := by simp [chipRegs, UNT_LASTLO, HIF_CTL, PWR_STAT, PWR_WAKESRC, CLK_STAT, RST_CAUSE, RST_STAT]; omega
  have hhi : UNT_LASTHI u ∉ chipRegs := by simp [chipRegs, UNT_LASTHI, HIF_CTL, PWR_STAT, PWR_WAKESRC, CLK_STAT, RST_CAUSE, RST_STAT]; omega
  simp only [State.putLastOf, State.setReg64, State.setReg_chip _ hlo, State.setReg_chip _ hhi]

@[simp] theorem State.takeOrigin_chip : s.takeOrigin.chip = s.chip := by
  simp (disch := decide) only [State.takeOrigin, State.putOrigin, State.setOn, State.chip_ite, State.setFld_chip, State.setReg_chip, State.setFir_chip,
    ite_self]

theorem State.endPass_chip : s.endPass.chip = s.chip := (State.setPos_chip _).trans (State.setFld_chip _ (by decide))

theorem State.startHead_chip (h : Nat) : (s.startHead h).chip = s.chip := State.modHead_chip h _

@[simp] theorem State.startHeads_chip : s.startHeads.chip = s.chip := by
  have hstart (l : List Nat) (t : State) : (l.foldl (fun s h => s.startHead h) t).chip = t.chip := foldl_chip (fun _ h _ => State.startHead_chip h) t
  simp only [State.startHeads, State.chip_ite, State.endPass_chip, State.resolveAll_chip, hstart, ite_self]

@[simp] theorem State.trigMark_chip (v : Int) : (s.trigMark v).chip = s.chip :=
  foldl_chip (fun _ _ _ => by simp only [State.chip_ite, State.modCam_chip, ite_self]) s

@[simp] theorem State.clearCover_chip : s.clearCover.chip = s.chip := foldl_chip (fun _ _ _ => State.modStrm_chip _ _) s

theorem State.armOut_chip (h : Nat) : (s.armOut h).chip = s.chip := by
  simp only [State.armOut, State.chip_ite, State.modHead_chip, ite_self]

/-! ### Causes and the thermal state -/

@[simp] theorem State.raiseCause_chip (k : Nat) : (s.raiseCause k).chip = s.chip := by
  simp (disch := decide) only [State.raiseCause, State.chip_ite, State.setFld_chip, ite_self]

@[simp] theorem State.standingCauses_chip : s.standingCauses.chip = s.chip := by
  simp only [State.standingCauses, State.chip_ite, State.raiseCause_chip, ite_self]

theorem State.dropCause_chip (k : Nat) : (s.dropCause k).chip = s.chip := State.setReg_chip _ (by decide)

@[simp] theorem State.causeCheck_chip : s.causeCheck.chip = s.chip :=
  foldl_chip (fun _ _ _ => by simp only [State.chip_ite, State.dropCause_chip, ite_self]) s

@[simp] theorem State.twinSend_chip (kind : Nat) (body : List Nat) : (s.twinSend kind body).chip = s.chip := by
  simp only [State.twinSend, State.twinPut, State.chip_ite, State.setTwin_chip, State.sendFrame_chip, ite_self]

@[simp] theorem State.propose_chip (p m a : Nat) : (s.propose p m a).chip = s.chip := by
  simp only [State.propose, State.chip_ite, State.setTwin_chip, State.twinSend_chip, ite_self]

@[simp] theorem State.beginOut_chip (p bit : Nat) : (s.beginOut p bit).chip = s.chip := by
  simp only [State.beginOut, State.portOutFrom, State.chip_ite, State.propose_chip, State.modHead_chip, ite_self]

@[simp] theorem State.endOut_chip (p bit : Nat) : (s.endOut p bit).chip = s.chip := by
  simp only [State.endOut, State.portOutTo, State.chip_ite, State.propose_chip, State.modHead_chip, ite_self]

@[simp] theorem State.hotSplice_chip (h : Nat) : (s.hotSplice h).chip = s.chip := by
  unfold State.hotSplice
  dsimp only
  rw [State.chip_ite]
  split
  · exact State.raiseCause_chip 1
  · split <;> exact State.raiseCause_chip 1

@[simp] theorem State.thermEnter_chip (h : Nat) : (s.thermEnter h).chip = s.chip := by
  simp only [State.thermEnter, State.chip_ite, State.beginOut_chip, State.hotSplice_chip, State.trnShow_chip, ite_self]

@[simp] theorem State.thermLeave_chip (h : Nat) : (s.thermLeave h).chip = s.chip := by
  simp only [State.thermLeave, State.chip_ite, State.trnShow_chip, State.causeCheck_chip, State.endOut_chip, ite_self]

theorem State.showOver_chip {h : Nat} (hh : h < 64) (b : Bool) : (s.showOver h b).chip = s.chip := by
  have htemp : (HPT_TEMP_OVER h).addr ∉ chipRegs := by
    simp [chipRegs, HPT_TEMP, HIF_CTL, PWR_STAT, PWR_WAKESRC, CLK_STAT, RST_CAUSE, RST_STAT]
    omega
  have htherm (t : State) : (t.thermBit h b).chip = t.chip := by
    simp (disch := decide) only [State.thermBit, State.chip_ite, State.setReg_chip, ite_self]
  simp only [State.showOver, State.setBit, State.chip_ite, State.setSplice_chip, State.alarm_chip, htherm, State.setFld_chip _ htemp,
    State.modHead_chip, ite_self]

theorem State.overCheck_chip {h : Nat} (hh : h < 64) : (s.overCheck h).chip = s.chip := by
  have hset (b : Bool) : (s.setOver h b).chip = s.chip := by
    simp only [State.setOver, State.chip_ite, State.thermEnter_chip, State.thermLeave_chip, State.twinSend_chip, State.showOver_chip hh, ite_self]
  simp only [State.overCheck, State.chip_ite, hset, ite_self]

@[simp] theorem State.overAll_chip : s.overAll.chip = s.chip := foldl_chip (fun _ _ hh => State.overCheck_chip (List.mem_range.1 hh)) s

/-! ### The sequence and what waits -/

@[simp] theorem State.seqTo_chip (q : Nat) : (s.seqTo q).chip = s.chip := by
  simp (disch := decide) only [State.seqTo, State.chip_ite, State.trnShow_chip, State.alarm_chip, State.setSplice_chip, State.setFld_chip, ite_self]

theorem State.lineWait_chip (st : Nat) (d : Desc) : (s.lineWait st d).chip = s.chip := by
  simp only [State.lineWait, State.doneNow, State.complete, State.chip_ite, State.flushAll_chip, State.modDesc_chip, ite_self]

@[simp] theorem State.recheckWaits_chip : s.recheckWaits.chip = s.chip := by
  rw [State.recheckWaits, State.flushAll_chip]
  exact foldl_chip (fun _ _ _ => foldl_chip (fun _ _ _ => State.lineWait_chip _ _) _) s

/-! ### ARM -/

/-- ARM sets ARMED, and nothing that it does after that clears it. -/
theorem State.armJob_armed (hs : s.canonical) (seed : Nat) : (s.armJob seed).armed = true := by
  have hlast (t : State) : ((countUp 64 64).foldl (fun s u => s.putLastOf u) t).chip = t.chip := foldl_chip (fun _ u _ => State.putLastOf_chip u) t
  have hout (t : State) (l : List Nat) : (l.foldl (fun s h => s.armOut h) t).chip = t.chip := foldl_chip (fun _ h _ => State.armOut_chip h) t
  have hzarm (t : State) : (t.setOn POS_ZMODE_ZARM).chip = t.chip := State.setFld_chip _ (by decide)
  have hkiln (t : State) (k : Kiln) (c : Cord) : ({ t with kiln := k, cord := c } : State).chip = t.chip := rfl
  have hinsp (t : State) (i : Insp) (r : List RefRow) (n : SMap Nat) : ({ t with insp := i, refs := r, refNext := n } : State).chip = t.chip := rfl
  obtain ⟨q, hq⟩ : ∃ q, s.dropModes.tablesQuiet = q := ⟨_, rfl⟩
  obtain ⟨y, hy⟩ : ∃ y : State, ({ q with twin := q.twin.fresh, ubase := s.dropModes.ownRegs, uops := [] } : State) = y := ⟨_, rfl⟩
  obtain ⟨x, hx⟩ : ∃ x : State, (List.range 64).foldl (fun t h => t.modHead h (fun z => z.fresh
    (((List.range 64).filter (fun h => s.reaches h)).contains h))) (y.setReg KLN_SEED (BitVec.ofNat 32 seed)) = x := ⟨_, rfl⟩
  have hchip : (s.armJob seed).chip = (x.setOn HIF_CTL_ARMED).chip := by
    simp (disch := decide) only [State.armJob, State.flushHost_chip, State.recheckWaits_chip, State.seqTo_chip, State.overAll_chip,
      State.standingCauses_chip, State.setSplice_chip, State.setFld_chip, hout, hlast, State.startHeads_chip, hkiln, State.takeOrigin_chip,
      State.modCam_chip, State.setReg_chip, hinsp, State.chip_ite, State.trigMark_chip, State.suspShow_chip, State.clearCover_chip,
      State.setPos_chip, hq, hy, hx, hzarm, ite_self]
  have hxw : SMap.wf regReset x.regs = true := by
    have hqk : State.kept s q := hq ▸ State.tablesQuiet_kept _ (State.dropModes_kept _ hs.kept)
    have hyk : State.kept s y := by rw [← hy]; exact hqk
    have hxk : State.kept s x := by
      rw [← hx]
      exact List.foldlRecOn (motive := State.kept s) _ _ (State.setReg_kept y _ _ hyk) fun t ht h _ => State.modHead_kept t h _ ht
    exact hxk.canonical.1
  rw [State.armed, State.on_of_chip hchip (by decide), State.on, State.setOn, State.fld_setFld_same hxw _ _ (by decide)]
  rfl

end Sys2Proof.Machine
end

section
/-! PROOF. Joining a job and the twin role overrides (R339, R342). -/

namespace Sys2Proof.Machine

open Sys2Proof

variable {s : State}

/-! ### Joining -/

theorem State.joinWrite_of_able (ha : s.armed = false) (hon : s.twinOn = true) (hr : s.role = roSTANDBY) (hp : s.fld TWN_STATE_PROLE = roACTIVE)
    (hpa : s.twin.parmed = true) (hup : s.on TWN_LINKST_UP = true) :
    s.joinWrite = (s.twinSend 0x17 []).setTwin { (s.twinSend 0x17 []).twin with join := true } :=
  if_neg (by simp [ha, hon, hr, hp, hpa, hup])

theorem State.joinWrite_of_unable (h : s.armed = true ∨ s.twinOn = false ∨ s.role ≠ roSTANDBY ∨ s.fld TWN_STATE_PROLE ≠ roACTIVE ∨
    s.twin.parmed = false ∨ s.on TWN_LINKST_UP = false) : s.joinWrite = s.refuse erJOINFAIL TWN_CTL :=
  if_pos (by rcases h with h | h | h | h | h | h <;> simp [h])

/-- The join state of a chip that the checks of ARM let start the job. -/
theorem State.joinIn_of_able {w x : State} {seed jobid cons : Word} (ws : List (BitVec 96)) (hw : s.setTwin { s.twin with join := false } = w)
    (hc : w.armCheck = none) (hx : ((w.armJob seed.toNat).setReg CRD_JOBID jobid).setReg HIF_CMDCONS cons = x) :
    s.joinIn seed jobid cons ws = ws.foldl (fun s w => s.joinAt w) (x.setTwin { x.twin with join := decide (ws.length = 20) }) := by
  obtain ⟨y, hy⟩ : ∃ y, w.armJob seed.toNat = y := ⟨_, rfl⟩
  rw [hy] at hx
  subst hx
  simp only [State.joinIn, hw, hc, hy]
  rfl

theorem State.joinStates_setTwin (x : Twin) : (s.setTwin x).joinStates = s.joinStates := rfl

theorem State.joinIn_of_unable {w x : State} {seed jobid cons : Word} (ws : List (BitVec 96)) {k : Nat}
    (hw : s.setTwin { s.twin with join := false } = w) (hc : w.armCheck = some (k, x)) :
    s.joinIn seed jobid cons ws = x.refuse erJOINFAIL TWN_CTL := by
  simp only [State.joinIn, hw, hc]

/-- A JOIN frame with a sequence number of its own, on a chip whose twin logic and link work. -/
theorem exec_joinFrame_of_new {t : Nat} {seq : LinkHdr} {seed jobid cons : BitVec 32} {ws : List (BitVec 96)} {v : State}
    (hon : (s.advance t).twinOn = true) (hup : (s.advance t).on TWN_LINKST_UP = true) (hn : (s.advance t).twin.seqIn ≠ seq.seq.toNat)
    (hv : (s.advance t).setTwin { (s.advance t).twin with unacked := ackUpTo seq.ack.toNat (s.advance t).twin.unacked, seqIn := seq.seq.toNat } = v) :
    exec (.joinFrame t seq seed jobid cons ws) s = .next (
      if v.role = roACTIVE ∧ v.armed then v.joinStates.foldl (fun s b => s.twinSend 0x17 b) (v.setTwin { v.twin with digest := false })
      else if v.twin.join then (if v.armed then v.joinMore ws else v.joinIn seed jobid cons ws) else v).readyShow :=
  congrArg Host.Outcome.next (State.recv_of_new hon hup hn hv)

/-- A chip that has asked joins with what the frame says. -/
theorem exec_joinFrame_of_asked {t : Nat} {seq : LinkHdr} {seed jobid cons : BitVec 32} {ws : List (BitVec 96)} {v : State}
    (hon : (s.advance t).twinOn = true) (hup : (s.advance t).on TWN_LINKST_UP = true) (hn : (s.advance t).twin.seqIn ≠ seq.seq.toNat)
    (hv : (s.advance t).setTwin { (s.advance t).twin with unacked := ackUpTo seq.ack.toNat (s.advance t).twin.unacked, seqIn := seq.seq.toNat } = v)
    (ha : v.armed = false) (hj : v.twin.join = true) :
    exec (.joinFrame t seq seed jobid cons ws) s = .next (v.joinIn seed jobid cons ws).readyShow := by
  have hnot : ¬ v.armed = true := by rw [ha]; exact Bool.false_ne_true
  rw [exec_joinFrame_of_new hon hup hn hv, if_neg fun h => hnot h.2, if_pos hj, if_neg hnot]

/-- What a job that starts without streams to join shows. -/
theorem State.joinIn_shown {w : State} {seed jobid cons : Word} (hs : s.canonical) (hw : s.setTwin { s.twin with join := false } = w)
    (hc : w.armCheck = none) {x : State} (hx : (s.joinIn seed jobid cons []).readyShow = x) :
    x.reg CRD_JOBID = jobid ∧ x.reg HIF_CMDCONS = cons ∧ x.armed = true ∧ x.twin.join = false := by
  have hwc : w.canonical := hw ▸ hs
  obtain ⟨y, hy⟩ : ∃ y, w.armJob seed.toNat = y := ⟨_, rfl⟩
  obtain ⟨z, hz⟩ : ∃ z, y.setReg CRD_JOBID jobid = z := ⟨_, rfl⟩
  obtain ⟨u, hu⟩ : ∃ u, z.setReg HIF_CMDCONS cons = u := ⟨_, rfl⟩
  have hyc : y.canonical := hy ▸ (State.armJob_kept w _ hwc.kept).canonical
  have hzc : z.canonical := hz ▸ hyc.setReg _ _
  have heq : s.joinIn seed jobid cons [] = u.setTwin { u.twin with join := false } := State.joinIn_of_able [] hw hc (by rw [hy, hz, hu])
  have hreg {a : Nat} (ha : a ≠ TWN_STATE) : x.reg a = u.reg a := by
    rw [← hx, State.reg_readyShow_ne ha, heq]
    rfl
  refine ⟨?job, ?cons, ?armed, ?join⟩
  case job =>
    rw [hreg (by decide), ← hu, State.reg_setReg_ne _ _ (by decide), ← hz, State.reg_setReg_same hyc.1]
  case cons =>
    rw [hreg (by decide), ← hu, State.reg_setReg_same hzc.1]
  case armed =>
    have hctl : x.reg HIF_CTL = y.reg HIF_CTL := by
      rw [hreg (by decide), ← hu, State.reg_setReg_ne _ _ (by decide), ← hz, State.reg_setReg_ne _ _ (by decide)]
    exact (congrArg (fun v : Word => bitsOf v.toNat HIF_CTL_ARMED.lo HIF_CTL_ARMED.width != 0) hctl).trans (hy ▸ State.armJob_armed hwc _)
  case join =>
    rw [← hx, State.readyShow_twin, heq]
    rfl

/-! ### Overrides -/

theorem State.overActive_of_able {v : State} (ha : s.authOk 4 0 = true) (hd : s.partnerDrives = false) (hv : s.authUse = v) (hon : v.twinOn = true)
    (hr : v.role = roSTANDBY ∨ v.role = roPRIME) : s.overActive = (v.setTwin { v.twin with take := true }).readyShow :=
  (State.override_of_authorised ha hd).trans (congrArg State.readyShow (by
    rw [hv]
    exact if_pos (by rcases hr with hr | hr <;> simp [hon, hr])))

theorem State.overStandby_of_able {v : State} (ha : s.authOk 4 0 = true) (hp : s.twin.pready = true) (hv : s.authUse = v) (hon : v.twinOn = true)
    (hr : v.role = roACTIVE) (hret : v.twin.ret = none) : s.overStandby = (v.propose puRETURN v.liveMask 0).readyShow :=
  (State.override_of_authorised ha (by rw [hp]; rfl)).trans (congrArg State.readyShow (by
    rw [hv]
    exact if_pos (by simp [hon, hr, hret])))

theorem State.overOut_of_able {v : State} (ha : s.authOk 4 0 = true) (hv : s.authUse = v) (hon : v.twinOn = true) :
    s.overOut = v.goOut.readyShow :=
  (State.override_of_authorised ha rfl).trans (congrArg State.readyShow (by
    rw [hv]
    exact if_pos hon))

/-! ### The obligation -/

/-- Settles O51: each write of JOIN, JOIN frame and override takes the branch that its guards name; a chip that joins is armed with the job number
and the position in the command ring that it was told. -/
theorem joinAndOverridesRun : Obligations.JoinAndOverridesRun := by
  refine ⟨?join, ?unable, ?answer, ?joins, ?refused, ?protect, ?drives, ?active, ?standby, ?notReady, ?out, ?joined, ?taken⟩
  case join =>
    rintro t s _ rfl hb ha hon hr hp hpa hup
    exact congrArg Host.Outcome.next ((State.bar_of_served hb _).trans (State.joinWrite_of_able ha hon hr hp hpa hup))
  case unable =>
    rintro t s _ rfl hb h
    exact congrArg Host.Outcome.next ((State.bar_of_served hb _).trans (State.joinWrite_of_unable h))
  case answer =>
    rintro t seq seed jobid cons ws s _ v rfl hon hup hn hv hr ha
    rw [exec_joinFrame_of_new hon hup hn hv, if_pos ⟨hr, ha⟩, State.joinStates_setTwin]
  case joins =>
    rintro t seq seed jobid cons ws s _ v w x rfl hon hup hn hv ha hj hw hc hx
    rw [exec_joinFrame_of_asked hon hup hn hv ha hj, State.joinIn_of_able ws hw hc hx]
  case refused =>
    rintro t seq seed jobid cons ws s _ v w x k rfl hon hup hn hv ha hj hw hc
    rw [exec_joinFrame_of_asked hon hup hn hv ha hj, State.joinIn_of_unable ws hw hc]
  case protect =>
    rintro t s _ rfl hb ha
    exact ⟨congrArg Host.Outcome.next ((State.bar_of_served hb _).trans (State.override_of_unauthorised ha)),
      congrArg Host.Outcome.next ((State.bar_of_served hb _).trans (State.override_of_unauthorised ha)),
      congrArg Host.Outcome.next ((State.bar_of_served hb _).trans (State.override_of_unauthorised ha))⟩
  case drives =>
    rintro t s _ rfl hb ha hd
    exact congrArg Host.Outcome.next ((State.bar_of_served hb _).trans (State.override_of_refused ha hd))
  case active =>
    rintro t s _ v rfl hb ha hd hv hon hr
    exact congrArg Host.Outcome.next ((State.bar_of_served hb _).trans (State.overActive_of_able ha hd hv hon (.inl hr)))
  case standby =>
    rintro t s _ v rfl hb ha _ hp hv hon hr hret
    exact congrArg Host.Outcome.next ((State.bar_of_served hb _).trans (State.overStandby_of_able ha hp hv hon hr hret))
  case notReady =>
    rintro t s _ rfl hb ha _ hp
    exact congrArg Host.Outcome.next ((State.bar_of_served hb _).trans (State.override_of_refused ha (by rw [hp]; rfl)))
  case out =>
    rintro t s _ v rfl hb ha hv hon
    exact congrArg Host.Outcome.next ((State.bar_of_served hb _).trans (State.overOut_of_able ha hv hon))
  case joined =>
    rintro t seq seed jobid cons s _ v w hs rfl hon hup hn hv ha hj hw hc
    have hvc : v.canonical := hv ▸ (State.advance_kept s t hs.kept).canonical
    exact ⟨_, exec_joinFrame_of_asked hon hup hn hv ha hj, State.joinIn_shown hvc hw hc rfl⟩
  case taken =>
    rintro t s _ v hs rfl hb ha hd hv hon hr
    refine ⟨_, congrArg Host.Outcome.next ((State.bar_of_served hb _).trans (State.overActive_of_able ha hd hv hon (.inr hr))), ?_, ?_⟩
    · exact congrArg Twin.take State.readyShow_twin
    · exact State.readyShow_twin

end Sys2Proof.Machine
end

section
/-! PROOF. Booting an image, and the mailbox commands (R401 to R408, R415). -/

namespace Sys2Proof.Machine

open Sys2Proof

variable {s : State}

/-! ### Images (R401 to R404) -/

/-- Time that has come does not go on. -/
theorem State.advance_of_le {t : Nat} (h : t ≤ s.clk) : s.advance t = s := if_pos h

theorem State.setFlash_clk (k : Nat) (bs : List Byte) : (s.setFlash k bs).clk = s.clk := by
  unfold State.setFlash
  split <;> rfl

theorem State.imageDone_slots (sigs : Nat) (ok : Bool) (a b : List Byte) :
    s.imageDone sigs ok (some a) (some b) = ((s.setFlash 0 a).setFlash 1 b).imageDone sigs ok none none := by
  generalize hx : (s.setFlash 0 a).setFlash 1 b = x
  unfold State.imageDone
  extract_lets s1 s2 q img c s0 s3 t1 t2 q' img' c' t0 t3
  have h : s2 = t2 := hx
  clear_value s2 t2
  subst h
  rfl

theorem State.imageDone_of_asleep {sigs : Nat} {ok : Bool} (h : s.awake = false) : s.imageDone sigs ok none none = s := if_pos (by rw [h]; rfl)

section
variable {sigs : Nat} {ok : Bool} (ha : s.awake = true) (hq : s.fld SVC_BOOTST_STATE = bsLOADING)
include ha hq

theorem State.imageDone_of_choice {k : Nat} (hk : s.flashChoice sigs = some k) :
    s.imageDone sigs ok none none = s.fwStart k (s.flashImage k) (fun _ => false) := by
  refine (if_neg (by rw [ha]; exact Bool.false_ne_true)).trans ((if_pos hq).trans ?_)
  rw [hk]

theorem State.imageDone_of_no_choice (hk : s.flashChoice sigs = none) :
    s.imageDone sigs ok none none = (s.setFld SVC_BOOTST_CODE 1).setFld SVC_BOOTST_STATE bsWAITHOST := by
  refine (if_neg (by rw [ha]; exact Bool.false_ne_true)).trans ((if_pos hq).trans ?_)
  rw [hk]
end

theorem State.imageDone_of_other {sigs : Nat} {ok : Bool} (hl : s.fld SVC_BOOTST_STATE ≠ bsLOADING) (hv : s.fld SVC_BOOTST_STATE ≠ bsVERIFYING) :
    s.imageDone sigs ok none none = s := by
  cases ha : s.awake with
  | false => exact State.imageDone_of_asleep ha
  | true => exact (if_neg (by rw [ha]; exact Bool.false_ne_true)).trans ((if_neg hl).trans (if_neg hv))

section
variable {ok : Bool} {sigs : Nat} {v : State} {img : List Byte} (ha : s.awake = true) (hq : s.fld SVC_BOOTST_STATE = bsVERIFYING)
  (hi : s.image s.bootAddr (4 * mib) = img)
  (hv : ({ s.storeTouchAll s.bootAddr img.length with freeCtr := (s.storeTouchAll s.bootAddr img.length).freeCtr + 2 } : State) = v)
include ha hq hi hv

theorem State.imageDone_of_verifying : s.imageDone sigs ok none none =
    if imgCode img (4 * mib) ok = 0 then v.fwStart 2 img (fun i => s.storeMarked (s.bootAddr + i))
    else (v.setFld SVC_BOOTST_CODE (imgCode img (4 * mib) ok)).setFld SVC_BOOTST_STATE bsWAITHOST := by
  subst hi
  subst hv
  exact (if_neg (by rw [ha]; exact Bool.false_ne_true)).trans ((if_neg (by rw [hq]; decide)).trans (if_pos hq))
end

theorem imgCode_eq_zero {img : List Byte} {lim : Nat} {sig : Bool} (hf : imgFormatOk img lim = true) (hc : imgCrcOk img = true) (hs : sig = true) :
    imgCode img lim sig = 0 := by
  simp [imgCode, hf, hc, hs]

/-- What firmware that starts shows of itself. -/
theorem State.fwStart_shown (hs : s.canonical) {slot : Nat} (hk : slot < 4) (img : List Byte) (mk : Nat → Bool) :
    (s.fwStart slot img mk).fld SVC_BOOTST_STATE = bsRUNNING ∧ (s.fwStart slot img mk).fld SVC_BOOTST_CODE = 0 ∧
    (s.fwStart slot img mk).fld SVC_BOOTST_SLOT = slot ∧ (s.fwStart slot img mk).reg SVC_FWVER = BitVec.ofNat 32 (imgField img 8 4) ∧
    (s.fwStart slot img mk).reg SVC_FWSEQ = BitVec.ofNat 32 (imgField img 0xC 4) := by
  obtain ⟨a, ha⟩ : ∃ a, s.imgCopy img mk = a := ⟨_, rfl⟩
  obtain ⟨b, hb⟩ : ∃ b, a.setFld SVC_BOOTST_SLOT slot = b := ⟨_, rfl⟩
  obtain ⟨c, hc⟩ : ∃ c, b.setFld SVC_BOOTST_CODE 0 = c := ⟨_, rfl⟩
  obtain ⟨d, hd⟩ : ∃ d, c.setFld SVC_BOOTST_STATE bsRUNNING = d := ⟨_, rfl⟩
  obtain ⟨e, he⟩ : ∃ e, d.setReg SVC_FWVER (BitVec.ofNat 32 (imgField img 8 4)) = e := ⟨_, rfl⟩
  have hac : a.canonical := ha ▸ (State.imgCopy_kept s img mk hs.kept).canonical
  have hbc : b.canonical := hb ▸ hac.setFld _ _
  have hcc : c.canonical := hc ▸ hbc.setFld _ _
  have hdc : d.canonical := hd ▸ hcc.setFld _ _
  have hec : e.canonical := he ▸ hdc.setReg _ _
  have hgold (x : State) : x.goldTasks.regs = x.regs := by
    unfold State.goldTasks
    split <;> rfl
  have hreg (r : Nat) : (s.fwStart slot img mk).reg r = (e.setReg SVC_FWSEQ (BitVec.ofNat 32 (imgField img 0xC 4))).reg r := by
    rw [State.fwStart, ha, hb, hc, hd, he, State.reg, State.reg, hgold]
  have hfld (f : Fld) (hf : f.addr = SVC_BOOTST) : (s.fwStart slot img mk).fld f = d.fld f := by
    rw [State.fld, State.fld, hreg, hf, State.reg_setReg_ne _ _ (by decide), ← he, State.reg_setReg_ne _ _ (by decide)]
  refine ⟨?state, ?code, ?place, ?version, ?sequence⟩
  case state =>
    rw [hfld _ rfl, ← hd, State.fld_setFld_same hcc.1 _ _ (by decide)]
    rfl
  case code =>
    rw [hfld _ rfl, ← hd, State.fld_setFld_beside hcc.1 SVC_BOOTST_STATE SVC_BOOTST_CODE _ rfl (by decide) (by decide), ← hc,
      State.fld_setFld_same hbc.1 _ _ (by decide)]
    rfl
  case place =>
    rw [hfld _ rfl, ← hd, State.fld_setFld_beside hcc.1 SVC_BOOTST_STATE SVC_BOOTST_SLOT _ rfl (by decide) (by decide), ← hc,
      State.fld_setFld_beside hbc.1 SVC_BOOTST_CODE SVC_BOOTST_SLOT _ rfl (by decide) (by decide), ← hb, State.fld_setFld_same hac.1 _ _ (by decide)]
    exact Nat.mod_eq_of_lt hk
  case version => rw [hreg, State.reg_setReg_ne _ _ (by decide), ← he, State.reg_setReg_same hdc.1]
  case sequence => rw [hreg, State.reg_setReg_same hec.1]

/-! ### The start of a mailbox command (R406, R407) -/

section
variable {g x : State} {c : Nat} (hb : s.on SVC_MBXCTL_BUSY = false) (hc : s.fld SVC_MBXCMD_CMD = c)
  (hg : s.setSvc { s.svc with req := (List.range 16).map (fun k => s.reqByte k), hi := s.on SVC_ASTAT_SEALED, lo := !s.on SVC_ASTAT_SEALED
                              back := none } = g) (hx : (g.setOn SVC_MBXCTL_GO).setOn SVC_MBXCTL_BUSY = x)
include hb hc hg hx

theorem State.mbxGo_of_passed (hj : g.mbxJudge c = 0) :
    s.mbxGo = (x.mbxStart c).setSvc { (x.mbxStart c).svc with cmd := some c, stat := 0, tasks := (x.mbxStart c).svc.tasks ++ [(2, c)] } := by
  simp only [State.mbxGo, hb, hc, hg, hx, hj, Bool.false_eq_true, if_false, if_true]

theorem State.mbxGo_of_decided (hj : g.mbxJudge c ≠ 0) :
    s.mbxGo = x.setSvc { x.svc with cmd := some c, stat := g.mbxJudge c, tasks := x.svc.tasks ++ [(2, c)] } := by
  simp only [State.mbxGo, hb, hc, hg, hx, if_neg hj, Bool.false_eq_true, if_false]

/-- A command that starts with nothing but its task. -/
theorem State.mbxGo_of_plain (hp : ∀ t : State, t.mbxStart c = t) :
    s.mbxGo = x.setSvc { x.svc with cmd := some c, stat := g.mbxJudge c, tasks := x.svc.tasks ++ [(2, c)] } := by
  by_cases hj : g.mbxJudge c = 0
  case pos => rw [State.mbxGo_of_passed hb hc hg hx hj, hp, hj]
  case neg => exact State.mbxGo_of_decided hb hc hg hx hj

theorem State.mbxGo_eq : s.mbxGo =
    if g.mbxJudge c = 0 then (x.mbxStart c).setSvc { (x.mbxStart c).svc with cmd := some c, stat := 0, tasks := (x.mbxStart c).svc.tasks ++ [(2, c)] }
    else x.setSvc { x.svc with cmd := some c, stat := g.mbxJudge c, tasks := x.svc.tasks ++ [(2, c)] } := by
  split
  case isTrue hj => exact State.mbxGo_of_passed hb hc hg hx hj
  case isFalse hj => exact State.mbxGo_of_decided hb hc hg hx hj
end

theorem State.mbxGo_of_busy (hb : s.on SVC_MBXCTL_BUSY = true) : s.mbxGo = s.refuse erBUSY SVC_MBXCTL := if_pos hb

theorem State.mbxStart_plain {c : Nat} (hc : c ≠ mcRANKWRITE ∧ c ≠ mcFLASHWRITE ∧ c ≠ mcOTPPROG ∧ c ≠ mcRETRAIN) : s.mbxStart c = s := by
  obtain ⟨h3, h4, h5, h7⟩ := hc
  simp only [State.mbxStart, h3, h4, h5, h7, false_and, or_self, if_false]

theorem State.mbxJudge_of_reserved {c : Nat} (h : c = 0 ∨ 7 < c) : s.mbxJudge c = if s.fwRuns then stsBADCMD else stsNOFW :=
  if_pos (by simp; omega)

theorem State.mbxCmd_of_other {c : Nat} (h : s.fld SVC_MBXCMD_CMD ≠ c) : s.mbxCmd c = s := by
  simp only [State.mbxCmd, State.bar, if_neg h, ite_self]

theorem State.mbxCmd_of_named {c : Nat} (hb : s.barOk 17 = true) (h : s.fld SVC_MBXCMD_CMD = c) : s.mbxCmd c = s.mbxGo :=
  (State.bar_of_served hb _).trans (if_pos h)

/-! ### The end of a mailbox command -/

/-- MBXCTL as the end of a command leaves it. -/
theorem State.mbxEnd_shown (hs : s.canonical) (st : Nat) (hst : st < 256) (bs : List Byte) :
    (s.mbxEnd st bs).fld SVC_MBXCTL_STATUS = st ∧ (s.mbxEnd st bs).on SVC_MBXCTL_GO = false ∧ (s.mbxEnd st bs).on SVC_MBXCTL_BUSY = false ∧
    (s.mbxEnd st bs).fld SVC_MBXCTL_RLEN = (if st = stsOK then bs else []).length % 512 ∧ (s.mbxEnd st bs).on SVC_MBXCTL_DONE = true ∧
    (s.mbxEnd st bs).svc.cmd = none := by
  obtain ⟨r, hr⟩ : ∃ r, (if st = stsOK then bs else []) = r := ⟨_, rfl⟩
  obtain ⟨a, ha⟩ : ∃ a, (s.mbxRefused st).putRsp r = a := ⟨_, rfl⟩
  obtain ⟨b, hb⟩ : ∃ b, a.setFld SVC_MBXCTL_RLEN r.length = b := ⟨_, rfl⟩
  obtain ⟨c, hc⟩ : ∃ c, b.setFld SVC_MBXCTL_STATUS st = c := ⟨_, rfl⟩
  obtain ⟨d, hd⟩ : ∃ d, c.setFld SVC_MBXCTL_GO 0 = d := ⟨_, rfl⟩
  obtain ⟨e, he⟩ : ∃ e, d.setFld SVC_MBXCTL_BUSY 0 = e := ⟨_, rfl⟩
  obtain ⟨f, hf⟩ : ∃ f, e.setOn SVC_MBXCTL_DONE = f := ⟨_, rfl⟩
  have hac : a.canonical := ha ▸ (State.putRsp_kept _ r (State.mbxRefused_kept s st hs.kept)).canonical
  have hbc : b.canonical := hb ▸ hac.setFld _ _
  have hcc : c.canonical := hc ▸ hbc.setFld _ _
  have hdc : d.canonical := hd ▸ hcc.setFld _ _
  have hec : e.canonical := he ▸ hdc.setFld _ _
  have heq : s.mbxEnd st bs = f.setSvc { c.svc with
      cmd := none, stat := 0, pulse := none, page := false, back := none, tasks := c.svc.tasks.filter (fun k => k.1 != 2) } := by
    simp only [State.mbxEnd, hr, ha, hb, hc, hd, he, hf]
  have hfld (k : Fld) : (s.mbxEnd st bs).fld k = f.fld k := by rw [heq]; rfl
  have hlate {k : Fld} (hk : k.addr = SVC_MBXCTL) (hl : 8 ≤ k.lo) : f.fld k = c.fld k := by
    rw [← hf, State.setOn, State.fld_setFld_beside hec.1 SVC_MBXCTL_DONE k _ hk (.inl (by simp; omega)) (by decide),
      ← he, State.fld_setFld_beside hdc.1 SVC_MBXCTL_BUSY k _ hk (.inl (by simp; omega)) (by decide),
      ← hd, State.fld_setFld_beside hcc.1 SVC_MBXCTL_GO k _ hk (.inl (by simp; omega)) (by decide)]
  refine ⟨?status, ?go, ?busy, ?rlen, ?done, by rw [heq]; rfl⟩
  case status =>
    rw [hfld, hlate rfl (by decide), ← hc, State.fld_setFld_same hbc.1 _ _ (by decide)]
    exact Nat.mod_eq_of_lt hst
  case go =>
    rw [State.on, hfld, ← hf, State.setOn, State.fld_setFld_beside hec.1 SVC_MBXCTL_DONE SVC_MBXCTL_GO _ rfl (by decide) (by decide),
      ← he, State.fld_setFld_beside hdc.1 SVC_MBXCTL_BUSY SVC_MBXCTL_GO _ rfl (by decide) (by decide), ← hd, State.fld_setFld_same hcc.1 _ _ (by decide)]
    rfl
  case busy =>
    rw [State.on, hfld, ← hf, State.setOn, State.fld_setFld_beside hec.1 SVC_MBXCTL_DONE SVC_MBXCTL_BUSY _ rfl (by decide) (by decide),
      ← he, State.fld_setFld_same hdc.1 _ _ (by decide)]
    rfl
  case rlen =>
    rw [hfld, hlate rfl (by decide), ← hc, State.fld_setFld_beside hbc.1 SVC_MBXCTL_STATUS SVC_MBXCTL_RLEN _ rfl (by decide) (by decide), ← hb,
      State.fld_setFld_same hac.1 _ _ (by decide), hr]
    rfl
  case done =>
    rw [State.on, hfld, ← hf, State.setOn, State.fld_setFld_same hec.1 _ _ (by decide)]
    rfl

/-- VERSION ends with OK; its four open words are draws, which leave canonical form. -/
theorem State.versionEnd_shown (hs : s.canonical) : s.versionEnd.fld SVC_MBXCTL_STATUS = 0 ∧ s.versionEnd.on SVC_MBXCTL_BUSY = false ∧
    s.versionEnd.on SVC_MBXCTL_DONE = true ∧ s.versionEnd.svc.cmd = none := by
  obtain ⟨d, hd⟩ : ∃ d, (List.range 4).foldl (fun (a : List Byte × State) _ => let x := a.2.draw; (a.1 ++ leBytes 4 x.1.toNat, x.2)) ([], s) = d :=
    ⟨_, rfl⟩
  have hdk : State.kept s d.2 := by
    rw [← hd]
    exact List.foldlRecOn (motive := fun a : List Byte × State => State.kept s a.2) _ _ hs.kept fun a ha _ _ => State.draw_kept a.2 ha
  obtain ⟨bs, hbs⟩ : ∃ bs, s.versionEnd = d.2.mbxEnd stsOK bs := ⟨_, by rw [State.versionEnd, hd]⟩
  obtain ⟨hstatus, -, hbusy, -, hdone, hcmd⟩ := State.mbxEnd_shown hdk.canonical stsOK (by decide) bs
  rw [hbs]
  exact ⟨hstatus, hbusy, hdone, hcmd⟩

section
variable {v : State} {c : Nat} (hcmd : s.svc.cmd = some c) (hp : s.fld PWR_STAT_STATE ≤ 1) (hv : s.serveGold s.svc.tasks.length = v)
  (hsvc : v.svc = { s.svc with tasks := v.svc.tasks })
include hcmd hp hv hsvc

theorem State.mailboxEnd_of_decided (wrseal sig ok : Bool) (data : List Byte) (hst : s.svc.stat ≠ 0) :
    s.mailboxEnd wrseal sig ok data = v.mbxEnd s.svc.stat [] := by
  have hstat : v.svc.stat = s.svc.stat := by rw [hsvc]
  simp only [State.mailboxEnd, hcmd, hv, if_neg (Nat.not_lt.2 hp), hstat]
  exact if_pos hst

theorem State.mailboxEnd_of_running (wrseal sig ok : Bool) (data : List Byte) (hst : s.svc.stat = 0) : s.mailboxEnd wrseal sig ok data =
    if c = mcRANKWRITE ∧ s.svc.page = true then v else if c = mcVERSION then v.versionEnd else if c = mcHEADREAD then v.headreadEnd
    else if c = mcRANKWRITE then v.rankEnd ok else if c = mcFLASHWRITE then v.flashEnd sig wrseal data else if c = mcOTPPROG then v.otpEnd ok
    else if c = mcGOLDEN then v.goldenEnd else v.retrainEnd := by
  have hstat : v.svc.stat = 0 := by rw [hsvc]; exact hst
  have hbusy : v.rankBusy = true ↔ c = mcRANKWRITE ∧ s.svc.page = true := by
    rw [State.rankBusy, hstat, hsvc, hcmd]
    simp
  simp only [State.mailboxEnd, hcmd, hv, if_neg (Nat.not_lt.2 hp), hstat, ne_eq, not_true_eq_false, if_false, hbusy]
end

theorem State.mailboxEnd_of_none {wrseal sig ok : Bool} {data : List Byte} (h : s.svc.cmd = none ∨ 1 < s.fld PWR_STAT_STATE) :
    s.mailboxEnd wrseal sig ok data = s := by
  unfold State.mailboxEnd
  split
  · rfl
  next hc =>
    exact if_pos (h.resolve_left fun hn => by rw [hc] at hn; exact absurd hn (by simp))

/-! ### The obligation -/

/-- Settles O59: Kindling starts, or waits with a code; a write of GO is refused, decides a status or starts its command; the end of a command
goes by its kind and leaves MBXCTL ready. -/
theorem firmwareAndMailboxRun : Obligations.FirmwareAndMailboxRun := by
  refine ⟨?slots, ?loading, ?verifying, ?idle, ?bootGo, ?go, ?busy, ?other, ?judge, ?noEnd, ?ends, ?shown, ?started, ?version⟩
  case slots =>
    rintro t sigs ok a b s _ rfl
    have hclk : (((s.advance t).setFlash 0 a).setFlash 1 b).clk = (s.advance t).clk :=
      (State.setFlash_clk _ _).trans (State.setFlash_clk _ _)
    have hle : t ≤ (((s.advance t).setFlash 0 a).setFlash 1 b).clk := hclk ▸ State.le_clk_advance s t
    have heq : ((((s.advance t).setFlash 0 a).setFlash 1 b).advance t).imageDone sigs.toNat ok none none =
        (((s.advance t).setFlash 0 a).setFlash 1 b).imageDone sigs.toNat ok none none := by rw [State.advance_of_le hle]
    exact congrArg Host.Outcome.next ((State.imageDone_slots sigs.toNat ok a b).trans heq.symm)
  case loading =>
    rintro t sigs ok s _ rfl ha hq
    exact ⟨fun k hk => congrArg Host.Outcome.next (State.imageDone_of_choice ha hq hk),
      fun hk => congrArg Host.Outcome.next (State.imageDone_of_no_choice ha hq hk)⟩
  case verifying =>
    rintro t sigs ok s _ v img rfl ha hq hi hv
    exact ⟨fun hf hc hs => congrArg Host.Outcome.next ((State.imageDone_of_verifying ha hq hi hv).trans (if_pos (imgCode_eq_zero hf hc hs))),
      fun hc => congrArg Host.Outcome.next ((State.imageDone_of_verifying ha hq hi hv).trans (if_neg hc))⟩
  case idle =>
    rintro t sigs ok s _ rfl hl hv
    exact congrArg Host.Outcome.next (State.imageDone_of_other hl hv)
  case bootGo =>
    rintro t s _ rfl hb
    have heq := State.bar_of_served hb State.bootGo
    refine ⟨fun ha => congrArg Host.Outcome.next (heq.trans (if_pos ha)), fun ha hf => congrArg Host.Outcome.next (heq.trans ?_),
      fun ha hf hd => congrArg Host.Outcome.next (heq.trans ?_), fun ha hf hd hq => congrArg Host.Outcome.next (heq.trans ?_)⟩
    · simp only [State.bootGo, ha, hf, Bool.false_eq_true, if_false, if_true]
    · simp only [State.bootGo, ha, hf, hd, Bool.not_false, Bool.false_eq_true, if_false, if_true]
    · simp only [State.bootGo, ha, hf, hd, hq, Bool.not_true, bne_self_eq_false, Bool.false_eq_true, if_false]
  case go =>
    rintro t s _ g x rfl hb hbusy hg hx
    have hplain (c : Nat) (hc : c ≠ mcRANKWRITE ∧ c ≠ mcFLASHWRITE ∧ c ≠ mcOTPPROG ∧ c ≠ mcRETRAIN) (hn : (s.advance t).fld SVC_MBXCMD_CMD = c) :
        (s.advance t).mbxCmd c = x.setSvc { x.svc with cmd := some c, stat := g.mbxJudge c, tasks := x.svc.tasks ++ [(2, c)] } :=
      (State.mbxCmd_of_named hb hn).trans (State.mbxGo_of_plain hbusy hn hg hx fun t => State.mbxStart_plain hc)
    have hstart (c : Nat) (hn : (s.advance t).fld SVC_MBXCMD_CMD = c) := (State.mbxCmd_of_named hb hn).trans (State.mbxGo_eq hbusy hn hg hx)
    refine ⟨fun h => congrArg Host.Outcome.next (hplain 1 (by decide) h), fun h => congrArg Host.Outcome.next (hplain 2 (by decide) h),
      fun h => congrArg Host.Outcome.next (hplain 6 (by decide) h), fun h => congrArg Host.Outcome.next (hstart 7 h),
      fun h => congrArg Host.Outcome.next (hstart 3 h), fun h => congrArg Host.Outcome.next (hstart 4 h),
      fun h => congrArg Host.Outcome.next (hstart 5 h), fun h => ?_⟩
    have hruns : g.fwRuns = (s.advance t).fwRuns := by rw [← hg]; rfl
    have hj : g.mbxJudge ((s.advance t).fld SVC_MBXCMD_CMD) = if (s.advance t).fwRuns then stsBADCMD else stsNOFW :=
      (State.mbxJudge_of_reserved h).trans (by rw [hruns])
    have hj0 : g.mbxJudge ((s.advance t).fld SVC_MBXCMD_CMD) ≠ 0 := by rw [hj]; split <;> decide
    exact congrArg Host.Outcome.next ((State.bar_of_served hb _).trans ((if_pos h).trans
      ((State.mbxGo_of_decided hbusy rfl hg hx hj0).trans (by rw [hj]))))
  case busy =>
    rintro t s _ rfl hb hbusy
    have hcmd (c : Nat) (hn : (s.advance t).fld SVC_MBXCMD_CMD = c) := (State.mbxCmd_of_named hb hn).trans (State.mbxGo_of_busy hbusy)
    refine ⟨?_, fun h => congrArg Host.Outcome.next ((State.bar_of_served hb _).trans ((if_pos h).trans (State.mbxGo_of_busy hbusy)))⟩
    simp only [List.forall_mem_cons, List.not_mem_nil, false_imp_iff, implies_true, and_true]
    exact ⟨fun h => congrArg Host.Outcome.next (hcmd 1 h), fun h => congrArg Host.Outcome.next (hcmd 2 h),
      fun h => congrArg Host.Outcome.next (hcmd 3 h), fun h => congrArg Host.Outcome.next (hcmd 4 h),
      fun h => congrArg Host.Outcome.next (hcmd 5 h), fun h => congrArg Host.Outcome.next (hcmd 6 h),
      fun h => congrArg Host.Outcome.next (hcmd 7 h)⟩
  case other =>
    rintro t s _ rfl
    refine ⟨?_, fun h1 h7 => congrArg Host.Outcome.next ?_⟩
    · simp only [List.forall_mem_cons, List.not_mem_nil, false_imp_iff, implies_true, and_true]
      exact ⟨fun h => congrArg Host.Outcome.next (State.mbxCmd_of_other h), fun h => congrArg Host.Outcome.next (State.mbxCmd_of_other h),
        fun h => congrArg Host.Outcome.next (State.mbxCmd_of_other h), fun h => congrArg Host.Outcome.next (State.mbxCmd_of_other h),
        fun h => congrArg Host.Outcome.next (State.mbxCmd_of_other h), fun h => congrArg Host.Outcome.next (State.mbxCmd_of_other h),
        fun h => congrArg Host.Outcome.next (State.mbxCmd_of_other h)⟩
    · have hno : ¬ ((s.advance t).fld SVC_MBXCMD_CMD = 0 ∨ 7 < (s.advance t).fld SVC_MBXCMD_CMD) := by omega
      simp only [State.bar, if_neg hno, ite_self]
  case judge =>
    intro s
    refine ⟨fun hl => ?_, fun hl => ?_, fun hf => ?_, fun hf hl hp hh ha => ?_⟩
    · simp [State.mbxJudge, mcVERSION, hl]
    · simp [State.mbxJudge, mcVERSION, Nat.not_lt.2 hl]
    · simp [State.mbxJudge, mcVERSION, mcFLASHWRITE, hf]
    · exact (State.mbxJudge_eq (c := mcRETRAIN) (by decide) (by decide) (by decide) (by decide)).trans
        (by simp [mcRETRAIN, mcRANKWRITE, mcFLASHWRITE, mcOTPPROG, hf, Nat.not_lt.2 hl, Nat.not_lt.2 hp, hh, ha])
  case noEnd =>
    rintro t wrseal sig ok data s _ rfl h
    exact congrArg Host.Outcome.next (State.mailboxEnd_of_none h)
  case ends =>
    rintro t wrseal sig ok data s _ v c rfl hcmd hp hv hsvc
    have hrun := State.mailboxEnd_of_running hcmd hp hv hsvc wrseal sig ok data
    refine ⟨fun h => congrArg Host.Outcome.next (State.mailboxEnd_of_decided hcmd hp hv hsvc wrseal sig ok data h), ?_, ?_, ?_, ?_, ?_, ?_, ?_, ?_⟩
    · intro h hc hpage
      exact congrArg Host.Outcome.next ((hrun h).trans (if_pos ⟨hc, hpage⟩))
    all_goals
      intro h hc
      subst hc
    · intro hpage
      have hno : ¬ (mcRANKWRITE = mcRANKWRITE ∧ (s.advance t).svc.page = true) := fun hb => by rw [hpage] at hb; exact Bool.false_ne_true hb.2
      exact congrArg Host.Outcome.next ((hrun h).trans ((if_neg hno).trans
        ((if_neg (by decide)).trans ((if_neg (by decide)).trans (if_pos rfl)))))
    · exact congrArg Host.Outcome.next ((hrun h).trans ((if_neg fun hb => absurd hb.1 (by decide)).trans (if_pos rfl)))
    · exact congrArg Host.Outcome.next ((hrun h).trans ((if_neg fun hb => absurd hb.1 (by decide)).trans
        ((if_neg (by decide)).trans (if_pos rfl))))
    · exact congrArg Host.Outcome.next ((hrun h).trans ((if_neg fun hb => absurd hb.1 (by decide)).trans
        ((if_neg (by decide)).trans ((if_neg (by decide)).trans ((if_neg (by decide)).trans (if_pos rfl))))))
    · exact congrArg Host.Outcome.next ((hrun h).trans ((if_neg fun hb => absurd hb.1 (by decide)).trans
        ((if_neg (by decide)).trans ((if_neg (by decide)).trans ((if_neg (by decide)).trans ((if_neg (by decide)).trans (if_pos rfl)))))))
    · exact congrArg Host.Outcome.next ((hrun h).trans ((if_neg fun hb => absurd hb.1 (by decide)).trans
        ((if_neg (by decide)).trans ((if_neg (by decide)).trans ((if_neg (by decide)).trans ((if_neg (by decide)).trans
          ((if_neg (by decide)).trans (if_pos rfl))))))))
    · exact congrArg Host.Outcome.next ((hrun h).trans ((if_neg fun hb => absurd hb.1 (by decide)).trans
        ((if_neg (by decide)).trans ((if_neg (by decide)).trans ((if_neg (by decide)).trans ((if_neg (by decide)).trans
          ((if_neg (by decide)).trans (if_neg (by decide)))))))))
  case shown =>
    intro s st hs hst
    obtain ⟨hstatus, hgo, hbusy, hlen, hdone, hcmd⟩ := State.mbxEnd_shown hs st hst []
    exact ⟨hstatus, hgo, hbusy, by rw [hlen, ite_self]; rfl, hdone, hcmd⟩
  case started =>
    rintro t sigs s _ img hs rfl ha hq hi hf hc
    obtain ⟨w, hw⟩ : ∃ w, (s.advance t).storeTouchAll (s.advance t).bootAddr img.length = w := ⟨_, rfl⟩
    have hwc : w.canonical := hw ▸ (State.storeTouchAll_kept _ _ _ (State.advance_kept s t hs.kept)).canonical
    obtain ⟨v, hv⟩ : ∃ v : State, ({ w with freeCtr := w.freeCtr + 2 } : State) = v := ⟨_, rfl⟩
    have hvc : v.canonical := by rw [← hv]; exact hwc
    obtain ⟨hstate, hcode, hslot, hver, hseq⟩ := State.fwStart_shown hvc (by decide : 2 < 4) img (fun i => (s.advance t).storeMarked ((s.advance t).bootAddr + i))
    have hdone := (State.imageDone_of_verifying (ok := true) (sigs := sigs.toNat) (v := v) ha hq hi (by rw [hw]; exact hv)).trans
      (if_pos (imgCode_eq_zero hf hc rfl))
    exact ⟨_, congrArg Host.Outcome.next hdone, hstate, hcode, hslot, hver, hseq⟩
  case version =>
    rintro t wrseal sig ok data s _ hs rfl hcmd ha hst htasks
    have hgold : (s.advance t).serveGold (s.advance t).svc.tasks.length = s.advance t := by rw [State.serveGold, htasks]; rfl
    have hend := State.mailboxEnd_of_running hcmd ((State.awake_iff _).1 ha) hgold rfl wrseal sig ok data hst
    have hversion := hend.trans ((if_neg fun h => absurd h.1 (by decide)).trans (if_pos rfl))
    obtain ⟨hstatus, hbusy, hdone, hnone⟩ := State.versionEnd_shown (State.advance_kept s t hs.kept).canonical
    exact ⟨_, congrArg Host.Outcome.next hversion, hstatus, hbusy, hdone, hnone⟩

end Sys2Proof.Machine
end

section
/-! PROOF. The splice sequence and the demand output (R248, R251 to R260). -/

namespace Sys2Proof.Machine

open Sys2Proof

variable {s : State}

/-! ### What the transport outputs leave -/

/-- A field of TRN_STATE beside the governor and the level of HOLD_N. -/
theorem State.fld_trnShow_beside (hs : SMap.wf regReset s.regs = true) {f : Fld} (ha : f.addr = TRN_STATE)
    (hg : 8 + 9 ≤ f.lo ∨ f.lo + f.width ≤ 8) (hh : 4 + 1 ≤ f.lo ∨ f.lo + f.width ≤ 4) : s.trnShow.fld f = s.fld f := by
  obtain ⟨a, haa⟩ : ∃ a, s.setFld TRN_STATE_G s.factor = a := ⟨_, rfl⟩
  obtain ⟨b, hb⟩ : ∃ b, a.setBit TRN_STATE_HOLDIN s.holdLow = b := ⟨_, rfl⟩
  have haw : SMap.wf regReset a.regs = true := haa ▸ State.wf_setFld hs _ _
  have halarm (t : State) (k : Nat) : (t.alarm k).reg TRN_STATE = t.reg TRN_STATE := rfl
  have hreg : s.trnShow.reg TRN_STATE = b.reg TRN_STATE := by
    simp only [State.trnShow, haa, hb, apply_ite (fun t : State => t.reg TRN_STATE), halarm, State.reg_setFld_ne _ TRN_DEMAND_OUT _ (show TRN_STATE ≠ TRN_DEMAND by decide),
      State.reg_setFld_ne _ TRN_DEMAND_TARGET _ (show TRN_STATE ≠ TRN_DEMAND by decide),
      State.reg_setWant _ (show TRN_STATE ∉ trimRegs 64 by decide), ite_self]
  have hb' : b.fld f = a.fld f := hb ▸ State.fld_setFld_beside haw TRN_STATE_HOLDIN f _ ha hh (by decide)
  have ha' : a.fld f = s.fld f := haa ▸ State.fld_setFld_beside hs TRN_STATE_G f _ ha hg (by decide)
  rw [← ha', ← hb', State.fld, State.fld, ha, hreg]

theorem State.seqTo_splice (q : Nat) : (s.seqTo q).splice = { s.splice with since := s.clk } := by
  rw [State.seqTo, State.trnShow_twin_splice.2]
  split <;> rfl

/-- A register that the sequence and the transport outputs do not write. -/
theorem State.reg_seqTo {a q : Nat} (h : a ∉ trnRegs) : (s.seqTo q).reg a = s.reg a := by
  have hst : a ≠ TRN_STATE := fun he => h (he ▸ List.mem_cons_self)
  have halarm (t : State) (k : Nat) : (t.alarm k).reg a = t.reg a := rfl
  have hsplice (t : State) (p : Splice) : (t.setSplice p).reg a = t.reg a := rfl
  rw [State.seqTo, State.reg_trnShow h]
  simp only [apply_ite (fun t : State => t.reg a), halarm, hsplice, State.reg_setFld_ne _ TRN_STATE_SEQ _ hst, ite_self]

/-- TRN_STATE as the sequence enters a state. -/
theorem State.seqTo_shown (hs : SMap.wf regReset s.regs = true) {q : Nat} (hq : q < 8) :
    (s.seqTo q).fld TRN_STATE_SEQ = q ∧ (s.seqTo q).fld TRN_STATE_FLT = s.fld TRN_STATE_FLT := by
  obtain ⟨a, ha⟩ : ∃ a, s.setFld TRN_STATE_SEQ q = a := ⟨_, rfl⟩
  obtain ⟨b, hb⟩ : ∃ b, (if q = 0 ∨ q = 1 then a.setSplice { s.splice with since := s.clk } else
    (a.setSplice { s.splice with since := s.clk }).alarm alSPLICE) = b := ⟨_, rfl⟩
  have hregs : b.regs = a.regs := by rw [← hb]; split <;> rfl
  have haw : SMap.wf regReset a.regs = true := ha ▸ State.wf_setFld hs _ _
  have hbw : SMap.wf regReset b.regs = true := by rw [hregs]; exact haw
  have hfld (f : Fld) : b.fld f = a.fld f := congrArg (fun m => bitsOf (SMap.get regReset m f.addr).toNat f.lo f.width) hregs
  have heq : s.seqTo q = b.trnShow := by rw [State.seqTo, ha, hb]
  rw [heq]
  refine ⟨?seq, ?fault⟩
  case seq =>
    rw [State.fld_trnShow_beside hbw rfl (by decide) (by decide), hfld, ← ha, State.fld_setFld_same hs _ _ (by decide)]
    exact Nat.mod_eq_of_lt hq
  case fault =>
    rw [State.fld_trnShow_beside hbw rfl (by decide) (by decide), hfld, ← ha]
    exact State.fld_setFld_beside hs TRN_STATE_SEQ TRN_STATE_FLT _ rfl (by decide) (by decide)

theorem State.seqTo_setSplice (hs : SMap.wf regReset s.regs = true) (p : Splice) {q : Nat} (hq : q < 8) :
    ((s.setSplice p).seqTo q).fld TRN_STATE_SEQ = q ∧ ((s.setSplice p).seqTo q).splice.causes = p.causes :=
  ⟨(State.seqTo_shown (s := s.setSplice p) hs hq).1, by rw [State.seqTo_splice]; rfl⟩

/-- The output of the demand channel stands as the transport outputs are shown. -/
theorem State.demandOut_trnShow (hs : SMap.wf regReset s.regs = true) : s.trnShow.fld (TRM_OUT_OUT 64) = s.fld (TRM_OUT_OUT 64) := by
  have hretarget (t : State) (ht : SMap.wf regReset t.regs = true) : (t.retarget 64).fld (TRM_OUT_OUT 64) = t.fld (TRM_OUT_OUT 64) := by
    obtain ⟨a, ha⟩ : ∃ a, (if t.fld (TRM_OUT_TARGET 64) = t.trimGoal 64 then t else
      (t.setFld (TRM_OUT_TARGET 64) (t.trimGoal 64)).startTimer (tmTrim 64)) = a := ⟨_, rfl⟩
    obtain ⟨b, hb⟩ : ∃ b, a.setBit (TRM_OUT_CLAMP 64) (t.trimClamped 64) = b := ⟨_, rfl⟩
    have haw : SMap.wf regReset a.regs = true := by
      rw [← ha]
      split
      · exact ht
      · exact State.wf_setFld ht _ _
    have hat : a.fld (TRM_OUT_OUT 64) = t.fld (TRM_OUT_OUT 64) := by
      rw [← ha]
      split
      · rfl
      · exact State.fld_setFld_beside ht (TRM_OUT_TARGET 64) (TRM_OUT_OUT 64) _ rfl (by decide) (by decide)
    have hba : b.fld (TRM_OUT_OUT 64) = a.fld (TRM_OUT_OUT 64) :=
      hb ▸ State.fld_setFld_beside haw (TRM_OUT_CLAMP 64) (TRM_OUT_OUT 64) _ rfl (by decide) (by decide)
    have hreg : (t.retarget 64).reg (TRM_OUT 64) = b.reg (TRM_OUT 64) := by
      rw [State.retarget, State.reg_trimSettle (by decide), ha, hb]
      split <;> rfl
    exact (congrArg (fun w : Word => bitsOf w.toNat 0 14) hreg).trans (hba.trans hat)
  have hwant (t : State) (c : Int) (ht : SMap.wf regReset t.regs = true) : (t.setWant 64 c).fld (TRM_OUT_OUT 64) = t.fld (TRM_OUT_OUT 64) := by
    unfold State.setWant
    split
    · exact hretarget t ht
    · split
      · rfl
      · exact hretarget _ ht
  obtain ⟨a, ha⟩ : ∃ a, (s.setFld TRN_STATE_G s.factor).setBit TRN_STATE_HOLDIN s.holdLow = a := ⟨_, rfl⟩
  have haw : SMap.wf regReset a.regs = true := ha ▸ State.wf_setFld (State.wf_setFld hs _ _) _ _
  have has : a.fld (TRM_OUT_OUT 64) = s.fld (TRM_OUT_OUT 64) :=
    ha ▸ (State.fld_setFld_ne _ TRN_STATE_HOLDIN _ _ (by decide)).trans (State.fld_setFld_ne _ _ _ _ (by decide))
  have halarm (t : State) (k : Nat) : (t.alarm k).fld (TRM_OUT_OUT 64) = t.fld (TRM_OUT_OUT 64) := rfl
  simp only [State.trnShow, ha, apply_ite (fun t : State => t.fld (TRM_OUT_OUT 64)), halarm,
    State.fld_setFld_ne _ TRN_DEMAND_OUT (TRM_OUT_OUT 64) _ (by decide), State.fld_setFld_ne _ TRN_DEMAND_TARGET (TRM_OUT_OUT 64) _ (by decide), hwant _ _ haw, has,
    ite_self]

/-! ### A splice request (R251 to R253) -/

theorem State.spliceRequest_of_none (h : s.freezeDue = false) : s.spliceRequest = s := if_pos (by rw [h]; rfl)

section
variable {u r : State} (hd : s.freezeDue = true) (hq : s.fld TRN_STATE_SEQ = 0) (ha : s.splice.active = false)
  (hu : s.setSplice { s.splice with taken := s.splice.taken ||| (s.fld TRN_CAUSE_ACT &&& (127 - s.splice.taken))
                                    causes := s.splice.causes ||| (s.fld TRN_CAUSE_ACT &&& (127 - s.splice.taken)) } = u)
  (hn : (s.fld TRN_CAUSE_ACT &&& (127 - s.splice.taken)) % 64 ≠ 0)
  (hr : (if u.freeze.splice.hold = true then u.freeze.setSplice { u.freeze.splice with
    taken := u.freeze.splice.taken ||| s.fld TRN_CAUSE_ACT, causes := u.freeze.splice.causes ||| s.fld TRN_CAUSE_ACT } else u.freeze) = r)
include hd hq ha hu hn hr

theorem State.spliceRequest_of_idle : s.spliceRequest = if r.actMaster then (r.countReg TRN_SPLCNT 1).seqTo 2 else r := by
  have hua : u.splice.active = false := by rw [← hu]; exact ha
  have hnew : ((s.fld TRN_CAUSE_ACT &&& (127 - s.splice.taken)) % 64 != 0) = true := bne_iff_ne.2 hn
  have hgo : (!s.freezeDue || s.fld TRN_STATE_SEQ == 6) = false := by rw [hd, hq]; rfl
  have h0 : (s.fld TRN_STATE_SEQ == 0 || s.fld TRN_STATE_SEQ == 5) = true := by rw [hq]; rfl
  simp only [State.spliceRequest, State.toStop, hgo, hu, hua, hnew, hr, h0, Bool.and_true, Bool.false_eq_true, if_false, if_true]
end

theorem State.freeze_splice : s.freeze.splice.active = true ∧ s.freeze.splice.hold = true := ⟨rfl, rfl⟩

theorem State.freeze_actMaster : s.freeze.actMaster = s.actMaster := by
  obtain ⟨x, hx⟩ : ∃ x, s.liveHeads.foldl (fun s h => s.modHead h Head.frozen) s = x := ⟨_, rfl⟩
  have hkeep : x.regs = s.regs ∧ x.twin = s.twin := hx ▸
    List.foldlRecOn (motive := fun t : State => t.regs = s.regs ∧ t.twin = s.twin) _ _ ⟨rfl, rfl⟩ fun t ht h _ => ht
  have hfreeze : s.freeze.actMaster = x.actMaster := by rw [← hx]; rfl
  rw [hfreeze, State.actMaster, State.actMaster, State.on, State.on, State.twinStrap, State.twinStrap, State.fld, State.fld, State.fld, State.fld,
    State.reg, State.reg, State.reg, State.reg, hkeep.1, hkeep.2]

theorem State.freeze_regs : s.freeze.regs = s.regs :=
  List.foldlRecOn (motive := fun t : State => t.regs = s.regs) _ _ rfl fun _ ht _ _ => ht

/-- A splice as a request on the acting master begins it. -/
theorem State.spliceRequest_shown (hs : s.canonical) (hd : s.freezeDue = true) (hq : s.fld TRN_STATE_SEQ = 0) (ha : s.splice.active = false)
    (hm : s.actMaster = true) (hn : (s.fld TRN_CAUSE_ACT &&& (127 - s.splice.taken)) % 64 ≠ 0) :
    s.spliceRequest.fld TRN_STATE_SEQ = 2 ∧ s.spliceRequest.splice.active = true ∧ s.spliceRequest.splice.hold = true ∧
    (s.spliceRequest.reg TRN_SPLCNT).toNat = min ((s.reg TRN_SPLCNT).toNat + 1) (2 ^ 32 - 1) := by
  obtain ⟨u, hu⟩ : ∃ u, s.setSplice { s.splice with taken := s.splice.taken ||| (s.fld TRN_CAUSE_ACT &&& (127 - s.splice.taken))
                                                    causes := s.splice.causes ||| (s.fld TRN_CAUSE_ACT &&& (127 - s.splice.taken)) } = u := ⟨_, rfl⟩
  obtain ⟨f, hf⟩ : ∃ f, u.freeze = f := ⟨_, rfl⟩
  obtain ⟨hactive, hhold⟩ : f.splice.active = true ∧ f.splice.hold = true := hf ▸ State.freeze_splice
  obtain ⟨r, hr⟩ : ∃ r, f.setSplice { f.splice with
    taken := f.splice.taken ||| s.fld TRN_CAUSE_ACT, causes := f.splice.causes ||| s.fld TRN_CAUSE_ACT } = r := ⟨_, rfl⟩
  have hregs : r.regs = s.regs := by
    have huf : f.regs = u.regs := hf ▸ State.freeze_regs
    rw [← hr, ← hu] at *
    exact huf
  have hrm : r.actMaster = true := by
    have hfm : f.actMaster = s.actMaster := by rw [← hf, State.freeze_actMaster, ← hu]; rfl
    rw [← hr]
    exact hfm.trans hm
  obtain ⟨c, hc⟩ : ∃ c, r.countReg TRN_SPLCNT 1 = c := ⟨_, rfl⟩
  have hrw : SMap.wf regReset r.regs = true := by rw [hregs]; exact hs.1
  have hcw : SMap.wf regReset c.regs = true := hc ▸ SMap.wf_set hrw
  have heq : s.spliceRequest = c.seqTo 2 :=
    (State.spliceRequest_of_idle hd hq ha hu hn (by rw [hf, if_pos hhold, hr])).trans (by rw [if_pos hrm, hc])
  have hsplice : (c.seqTo 2).splice.active = f.splice.active ∧ (c.seqTo 2).splice.hold = f.splice.hold := by
    rw [State.seqTo_splice, ← hc, ← hr]
    exact ⟨rfl, rfl⟩
  rw [heq]
  refine ⟨(State.seqTo_shown hcw (by decide)).1, hsplice.1.trans hactive, hsplice.2.trans hhold, ?_⟩
  have hreg : r.reg TRN_SPLCNT = s.reg TRN_SPLCNT := congrArg (SMap.get regReset · TRN_SPLCNT) hregs
  rw [State.reg_seqTo (by decide), ← hc, State.countReg, State.reg_setReg_same hrw, hreg, BitVec.toNat_ofNat, satAdd]
  exact Nat.mod_eq_of_lt (by omega)

/-! ### The states of the sequence -/

theorem State.driveReady_of_low : s.driveReady true = if s.on TRN_STATE_DRVRDY then (s.setBit TRN_STATE_DRVRDY true).dropCause 4
    else ((s.setBit TRN_STATE_DRVRDY true).dropCause 4).setSplice
      { ((s.setBit TRN_STATE_DRVRDY true).dropCause 4).splice with since := ((s.setBit TRN_STATE_DRVRDY true).dropCause 4).clk } := rfl

section
variable {u : State} (hu : s.causeCheck = u)
include hu

theorem State.startToIdle_of_clear (hq : u.inSeq 1 = true) (hd : u.on TRN_STATE_DRVRDY = true) (hc : u.allClear = true) :
    s.startToIdle = (u.setSplice { u.splice with
      taken := 0, causes := 0, reps := u.splice.reps.map (fun r => (r.1, { r.2 with asked := false })) }).seqTo 0 := by
  simp only [State.startToIdle, hu, hq, hd, hc, Bool.and_self, if_true]

theorem State.startToIdle_of_none (h : u.inSeq 1 = false ∨ u.on TRN_STATE_DRVRDY = false ∨ u.allClear = false) : s.startToIdle = u := by
  have hno : (u.inSeq 1 && u.on TRN_STATE_DRVRDY && u.allClear) = false := by rcases h with h | h | h <;> simp [h]
  simp only [State.startToIdle, hu, hno, Bool.false_eq_true, if_false]

theorem State.waitToApproach_of_clear (hq : u.inSeq 4 = true) (hs : u.settled = true) (hc : u.allClear = true) (hr : u.pos.rewind = none) :
    s.waitToApproach = u.toApproach := by
  simp only [State.waitToApproach, hu, hq, hs, hc, hr, Option.isNone_none, Bool.and_self, if_true]
end

theorem State.stopSettled_of_due (hq : s.inSeq 2 = true) (hs : s.settled = true) : s.stopSettled = if s.noRev then s.seqTo 4 else s.toBack :=
  if_pos (by rw [hq, hs]; rfl)

theorem State.backReached_of_back (hq : s.inSeq 3 = true) :
    s.backReached = if diff48 s.pos.t s.splice.target ≤ 0 then s.seqTo 4 else s := by
  simp only [State.backReached, hq, Bool.true_and, decide_eq_true_eq]

theorem State.approachToIdle_of_approach (hq : s.inSeq 5 = true) : s.approachToIdle = if s.resumed then s.toIdle else s := by
  simp only [State.approachToIdle, hq, Bool.true_and]

section
variable (ht : s.splice.since + 400000 * s.fld TRN_MOVETO_MS ≤ s.clk) (hd : s.on TRN_STATE_DRVRDY = true)
include ht hd

theorem State.motionLate : (decide (s.splice.since + usClk (1000 * s.fld TRN_MOVETO_MS) ≤ s.clk) && s.on TRN_STATE_DRVRDY) = true := by
  have hus : usClk (1000 * s.fld TRN_MOVETO_MS) = 400000 * s.fld TRN_MOVETO_MS := (Nat.mul_assoc 400 1000 _).symm
  rw [hus, decide_eq_true ht, hd]
  rfl

theorem State.spliceFault_of_stop (hq : s.inSeq 2 = true) (hst : s.on POS_SPEEDST_STILL = false) :
    s.spliceFault = (s.setFld TRN_STATE_FLT 0).seqTo 6 := by
  simp only [State.spliceFault, State.motionLate ht hd, hq, hst, Bool.not_false, Bool.and_self, if_true]

theorem State.spliceFault_of_back (h2 : s.inSeq 2 = false) (hq : s.inSeq 3 = true) (hf : 0 < diff48 s.pos.t s.splice.target) :
    s.spliceFault = (s.setFld TRN_STATE_FLT 1).seqTo 6 := by
  simp only [State.spliceFault, State.motionLate ht hd, h2, hq, decide_eq_true hf, Bool.false_and, Bool.and_self, Bool.false_eq_true, if_false, if_true]
  rfl
end

theorem State.spliceFault_of_drive (hd : s.on TRN_STATE_DRVRDY = false) : s.spliceFault = s := by
  simp only [State.spliceFault, hd, Bool.and_false, Bool.false_and, Bool.false_eq_true, if_false]

/-- Which state STOP leads to. -/
theorem State.stopSettled_shown (hs : s.canonical) (hq : s.inSeq 2 = true) (hst : s.settled = true) :
    s.stopSettled.fld TRN_STATE_SEQ = if s.on TRN_CTL_NOREV = true ∨ s.scan = true then 4 else 3 := by
  have hno : s.noRev = true ↔ s.on TRN_CTL_NOREV = true ∨ s.scan = true := Bool.or_eq_true_iff
  rw [State.stopSettled_of_due hq hst]
  by_cases h : s.noRev = true
  case pos => rw [if_pos h, if_pos (hno.1 h), (State.seqTo_shown hs.1 (by decide)).1]
  case neg =>
    rw [if_neg h, if_neg (mt hno.2 h), State.toBack]
    refine (State.seqTo_setSplice ?_ _ (by decide)).1
    split
    · exact hs.1
    · exact hs.1

/-- The demand output after one step of its slew. -/
theorem State.demandSlew_shown (hs : s.canonical) {o g : Nat} (ho : s.fld (TRM_OUT_OUT 64) = o) (hg : s.fld (TRM_OUT_TARGET 64) = g) (hne : o ≠ g)
    (hp : s.fld PWR_STAT_STATE = 0) (ht : s.timerOver (tmTrim 64) (usClk (slewUs (s.trimSlewCode 64))) = true) :
    (s.trimStep 64).trnShow.fld (TRM_OUT_OUT 64) = if o < g then o + 1 else o - 1 := by
  have hlt (f : Fld) (hf : f.width = 14) : s.fld f < 2 ^ 14 := by rw [← hf]; exact Nat.mod_lt _ (Nat.two_pow_pos _)
  have h1 := hlt (TRM_OUT_OUT 64) rfl
  have h2 := hlt (TRM_OUT_TARGET 64) rfl
  obtain ⟨c, hc⟩ : ∃ c, (if o < g then o + 1 else o - 1) = c := ⟨_, rfl⟩
  obtain ⟨w, hw⟩ : ∃ w, s.setOut 64 c = w := ⟨_, rfl⟩
  have hwc : w.canonical := hw ▸ (State.setOut_kept s 64 c hs.kept).canonical
  have hstep : s.trimStep 64 = w.startTimer (tmTrim 64) :=
    (State.trimStep_of_due hp (by rw [ho, hg]; exact hne) ht).trans (by rw [ho, hg, hc, hw])
  have hout : w.fld (TRM_OUT_OUT 64) = c :=
    hw ▸ (State.setOut_shown hs (by decide) (by rw [ho, ← hc]; split <;> omega) (by rw [← hc]; split <;> omega)).1
  rw [hstep, State.demandOut_trnShow (s := w.startTimer (tmTrim 64)) hwc.1, hc]
  exact hout

/-! ### The obligation -/

/-- Settles O33: each transport command goes where its guards lead; TRN_STATE then reads the state entered, and the output has moved by one code. -/
theorem transportRuns : Obligations.TransportRuns := by
  refine ⟨?request, fun s h => congrArg Host.Outcome.next (State.spliceRequest_of_none h), ?ready, ?becomes, ?drops, ?start, ?noStart, ?stop, ?back,
    ?wait, ?approach, ?fault, ?drive, ?slew, ?requestShown, ?startShown, ?stopShown, ?backShown, ?waitShown, ?approachShown, ?faultShown, ?slewShown⟩
  case request =>
    intro s u r hd hq ha hu hn hr
    exact congrArg Host.Outcome.next (State.spliceRequest_of_idle hd hq ha hu hn hr)
  case ready =>
    intro s hd
    exact congrArg Host.Outcome.next (State.driveReady_of_low.trans (if_pos hd))
  case becomes =>
    rintro s _ hd rfl
    exact congrArg Host.Outcome.next (State.driveReady_of_low.trans (if_neg (by rw [hd]; exact Bool.false_ne_true)))
  case drops =>
    rintro s _ rfl
    rfl
  case start =>
    intro s u hu hq hd hc
    exact congrArg Host.Outcome.next (State.startToIdle_of_clear hu hq hd hc)
  case noStart =>
    intro s u hu h
    exact congrArg Host.Outcome.next (State.startToIdle_of_none hu h)
  case stop =>
    rintro t s _ rfl hq hs
    exact congrArg Host.Outcome.next (State.stopSettled_of_due hq hs)
  case back =>
    intro s hq
    exact congrArg Host.Outcome.next (State.backReached_of_back hq)
  case wait =>
    intro t s u hu hq hs hc hr
    exact congrArg Host.Outcome.next (State.waitToApproach_of_clear hu hq hs hc hr)
  case approach =>
    intro s hq
    exact congrArg Host.Outcome.next (State.approachToIdle_of_approach hq)
  case fault =>
    rintro t s _ rfl ht hd
    exact ⟨fun hq hst => congrArg Host.Outcome.next (State.spliceFault_of_stop ht hd hq hst),
      fun h2 hq hf => congrArg Host.Outcome.next (State.spliceFault_of_back ht hd h2 hq hf)⟩
  case drive =>
    rintro t s _ rfl hd
    exact congrArg Host.Outcome.next (State.spliceFault_of_drive hd)
  case slew =>
    rintro t s _ rfl
    rfl
  case requestShown =>
    intro s hs hd hq ha hm hn
    exact ⟨_, rfl, State.spliceRequest_shown hs hd hq ha hm hn⟩
  case startShown =>
    intro s u hs hu hq hd hc
    have huc : u.canonical := hu ▸ (State.causeCheck_kept s hs.kept).canonical
    obtain ⟨p, hp⟩ : ∃ p : Splice, { u.splice with
      taken := 0, causes := 0, reps := u.splice.reps.map (fun r => (r.1, { r.2 with asked := false })) } = p := ⟨_, rfl⟩
    have hcauses : p.causes = 0 := by rw [← hp]
    obtain ⟨hseq, hsplice⟩ := State.seqTo_setSplice huc.1 p (q := 0) (by decide)
    exact ⟨_, congrArg Host.Outcome.next ((State.startToIdle_of_clear hu hq hd hc).trans (by rw [hp])), hseq, hsplice.trans hcauses⟩
  case stopShown =>
    rintro t s _ hs rfl hq hst
    exact ⟨_, rfl, State.stopSettled_shown (State.advance_kept s t hs.kept).canonical hq hst⟩
  case backShown =>
    intro s hs hq ht
    exact ⟨_, congrArg Host.Outcome.next ((State.backReached_of_back hq).trans (if_pos ht)), (State.seqTo_shown hs.1 (by decide)).1⟩
  case waitShown =>
    intro t s u hs hu hq hst hc hr
    have huk : State.kept s u := hu ▸ State.causeCheck_kept _ (State.advance_kept s t hs.kept)
    obtain ⟨w, hw⟩ : ∃ w, (if u.noRev && u.splice.active then (u.setSplice { u.splice with hold := false }).releaseLost
      else u.setSplice { u.splice with hold := false }) = w := ⟨_, rfl⟩
    have hwk : State.kept s w := by
      rw [← hw]
      split
      · exact State.releaseLost_kept _ (State.setSplice_kept u _ huk)
      · exact State.setSplice_kept u _ huk
    have heq : u.toApproach = w.seqTo 5 := by rw [State.toApproach, hw]
    exact ⟨_, congrArg Host.Outcome.next ((State.waitToApproach_of_clear hu hq hst hc hr).trans heq),
      (State.seqTo_shown hwk.canonical.1 (by decide)).1⟩
  case approachShown =>
    intro s hs hq hr
    obtain ⟨w, hw⟩ : ∃ w, (if s.splice.active then s.zoneRecord else s) = w := ⟨_, rfl⟩
    obtain ⟨x, hx⟩ : ∃ x, w.spliceForget = x := ⟨_, rfl⟩
    have hwk : State.kept s w := by
      rw [← hw]
      split
      · exact State.zoneRecord_kept _ hs.kept
      · exact hs.kept
    have hxc : x.canonical := hx ▸ (State.spliceForget_kept w hwk).canonical
    have hxa : x.splice.active = false := by rw [← hx]; rfl
    have heq : s.toIdle = x.seqTo 0 := by rw [State.toIdle, hw, hx]
    refine ⟨_, congrArg Host.Outcome.next ((State.approachToIdle_of_approach hq).trans ((if_pos hr).trans heq)),
      (State.seqTo_shown hxc.1 (by decide)).1, ?_⟩
    rw [State.seqTo_splice]
    exact hxa
  case faultShown =>
    rintro t s _ hs rfl ht hd hq hst
    have huc : (s.advance t).canonical := (State.advance_kept s t hs.kept).canonical
    obtain ⟨hseq, hflt⟩ := State.seqTo_shown (s := (s.advance t).setFld TRN_STATE_FLT 0) (q := 6) (huc.setFld _ _).1 (by decide)
    refine ⟨_, congrArg Host.Outcome.next (State.spliceFault_of_stop ht hd hq hst), hseq, hflt.trans ?_⟩
    rw [State.fld_setFld_same huc.1 _ _ (by decide)]
    rfl
  case slewShown =>
    rintro t s v o g hs rfl ho hg hne hp ht
    have hvc : (s.advance t).trnShow.canonical := (State.trnShow_kept _ (State.advance_kept s t hs.kept)).canonical
    exact ⟨_, rfl, State.demandSlew_shown hvc ho hg hne hp ht⟩

end Sys2Proof.Machine
end

section
/-! PROOF. A Frame Start of a camera whose port map is not in canonical form (R265, R267). -/

namespace Sys2Proof.Machine

open Sys2Proof

/-- Camera port as at reset, but with a trigger record of the time 1: at TB0 0 it is too old for a Frame Start (R267). -/
def staleTrigCam : Cam := { Cam.reset with trigs := [⟨1#32, 0, 0, 0, 0, false, false⟩] }

/-- A device at work with camera 0 running, whose port map lists that camera a second time, with next frame 7: `State.canonical` asks nothing of
this map. -/
def twiceStarted : State :=
  ((State.reset.setFld RST_STAT_DONE 1).setFld (CAM_CTL_EN 0) 1).setInsp
    { Insp.reset with cams := [(0, staleTrigCam), (0, { Cam.reset with next := 7 })] }

theorem twiceStarted_canonical : twiceStarted.canonical := (resetIsCanonical.1.setFld RST_STAT_DONE 1).setFld (CAM_CTL_EN 0) 1

/-- With its record dropped the first entry is as at reset and goes, so the frame takes its number from the second. -/
theorem frameNumber_of_twiceStarted : ∃ w, exec (.cameraFrameStart 0 0 0#2) twiceStarted = .next w ∧ w.reg (CAM_FRAME 0) = 7#32 :=
  ⟨_, rfl, by decide⟩

/-- Refutes O34: CAM_FRAME is not the number that the camera was to give next where the map of camera ports lists the camera twice, which
`State.canonical` does not exclude: it asks for canonical form of other maps only. `twiceStarted` with a Frame Start is the counterexample. -/
theorem not_camerasRun : ¬ Obligations.CamerasRun := by
  unfold Obligations.CamerasRun
  rintro ⟨-, -, -, -, -, -, -, -, -, -, -, -, hstart, -⟩
  obtain ⟨w, hw, -, -, hread⟩ := hstart 0 0 0#2 twiceStarted twiceStarted twiceStarted_canonical rfl (by decide) (by decide) (by decide) (by decide)
  obtain ⟨v, hv, hseven⟩ := frameNumber_of_twiceStarted
  obtain rfl : v = w := Host.Outcome.next.inj (hv.symm.trans hw)
  exact absurd (hseven.symm.trans hread) (by decide)

end Sys2Proof.Machine
end

section
/-! PROOF. The engines' strip cycle of a camera whose port map is not in canonical form (R280). -/

namespace Sys2Proof.Machine

open Sys2Proof

/-- Camera port as at reset, but in strip cycle 5. -/
def lateCam : Cam := { Cam.reset with cycle := 5 }

/-- A device at work with the engines on, whose port map lists camera 0 twice: `State.canonical` asks nothing of this map. -/
def twiceListed : State :=
  ((State.reset.setFld RST_STAT_DONE 1).setFld INS_CTL_EN 1).setInsp { Insp.reset with cams := [(0, lateCam), (0, lateCam)] }

theorem twiceListed_canonical : twiceListed.canonical := (resetIsCanonical.1.setFld RST_STAT_DONE 1).setFld INS_CTL_EN 1

/-- Camera 0 comes to strip cycle 0, where a port reads as after reset: its first entry goes, and the second still tells cycle 5. -/
theorem cycle_of_twiceListed : ∃ w, exec (.inspectionBatch 0 0 0#4 0#16 [] none []) twiceListed = .next w ∧ (w.cam 0).cycle = 5 :=
  ⟨_, rfl, by decide⟩

/-- Refutes O35: the cycle that INSPECTION_BATCH brings a camera to is not the one it reads afterwards where the map of camera ports lists the
camera twice, which `State.canonical` does not exclude: it asks for canonical form of other maps only. `twiceListed` with INS_CYCLE 0 is the counterexample. -/
theorem not_inspectionBatchesRun : ¬ Obligations.InspectionBatchesRun := by
  unfold Obligations.InspectionBatchesRun
  rintro ⟨-, -, -, -, -, hcycle, -⟩
  obtain ⟨w, hw, -, -, hread⟩ := hcycle 0 0 0#4 0#16 twiceListed twiceListed twiceListed_canonical rfl (by decide) (by decide) (by decide)
  obtain ⟨v, hv, hfive⟩ := cycle_of_twiceListed
  obtain rfl : v = w := Host.Outcome.next.inj (hv.symm.trans hw)
  exact absurd (hfive.symm.trans hread) (by decide)

end Sys2Proof.Machine
end
